-- ==== Sys2Proof/Word.lean ====
section
/-! DEFINITION. The word types of the block and the two plain containers its state is made of:
a byte, fixed-width words, and a map with natural-number keys kept as a list sorted by key. -/

namespace Sys2Proof

abbrev Byte := BitVec 8
abbrev Word16 := BitVec 16
abbrev Word32 := BitVec 32
abbrev Word64 := BitVec 64

/-- The 64 payload bytes of a flit (R81), little-endian: byte `i` is bits `8i+7 … 8i`. -/
abbrev Payload := BitVec 512

/-- Sparse data by key: pairs in strictly rising key order, so equal maps are equal lists. -/
abbrev KMap (α : Type) := List (Nat × α)

end Sys2Proof
end

