-- ==== Sys2Proof/Config.lean ====
section
/-! DEFINITION. What a part fixes at assembly (R5, R6, Tables 0-1, 1-1, 1-2, 17-2, 17-8) and the free
values: constants with no body, for every value that the spec fixes only by a standard or a bound. -/

namespace Sys2Proof

/-- The three orderable parts (R5, Table 0-1). -/
inductive Part where
  | a | m | n
  deriving DecidableEq, Repr, Inhabited

namespace Part

/-- FAB_VARIANT (2000h.08). -/
def code : Part → Nat
  | .a => 1 | .m => 2 | .n => 3

/-- HBM4E stacks (Table 0-1). -/
def hbmStacks : Part → Nat
  | .a => 8 | .m => 10 | .n => 6

/-- Eyelets (Table 0-1). -/
def eyelets : Part → Nat
  | .a => 4 | .m => 2 | .n => 6

/-- Uplinks (Table 0-1). -/
def uplinks : Part → Nat
  | .a => 16 | .m => 16 | .n => 32

/-- Lanes of a lace bundle at native width (Table 12-1). -/
def laceLanes : Part → Nat
  | .a => 32 | .m => 16 | .n => 32

/-- The eyelet that carries a lace (Table 1-2): lace 0 is X+, 1 X−, 2 Y+, 3 Y−. -/
def eyeletOfLace : Part → Nat → Nat
  | .a, l => l
  | .m, l => l / 2
  | .n, 0 => 0
  | .n, 1 => 1
  | .n, 2 => 3
  | .n, _ => 4

/-- The eyelet of uplink `u` (Table 13-1). -/
def eyeletOfUplink : Part → Nat → Nat
  | .a, u => u / 4
  | .m, u => u / 8
  | .n, u =>
    if u < 4 then 0 else if u < 8 then 1 else if u < 12 then 3 else if u < 16 then 4
    else if u < 24 then 2 else 5

/-- The rack switch of uplink `u` (Table 13-1). -/
def switchOfUplink : Part → Nat → Nat
  | .n, u => if u < 16 then u else u - 16
  | _, u => u

/-- The HBM stacks of group HG`g` (Table 17-2). -/
def stacksOfGroup : Part → Nat → List Nat
  | .a, 0 => [0, 1] | .a, 1 => [2, 3] | .a, 2 => [4, 5] | .a, 3 => [6, 7] | .a, _ => []
  | .m, 0 => [0, 1] | .m, 1 => [2, 3] | .m, 2 => [5, 6] | .m, 3 => [7, 8] | .m, 4 => [4, 9]
  | .m, _ => []
  | .n, 0 => [0, 1] | .n, 1 => [3, 4] | .n, 2 => [2, 5] | .n, _ => []

/-- The eyelets of group EY`g` (Table 17-2). -/
def eyeletsOfGroup : Part → Nat → List Nat
  | .a, 0 => [0, 1] | .a, 1 => [2, 3] | .a, _ => []
  | .m, 0 => [0] | .m, 1 => [1] | .m, _ => []
  | .n, 0 => [0, 1] | .n, 1 => [3, 4] | .n, 2 => [2, 5] | .n, _ => []

/-- The lowest-numbered stack on die 1 (Table 1-1), which holds the second system region (R254). -/
def firstStackDie1 : Part → Nat
  | .a => 4 | .m => 5 | .n => 3

/-- The HBM groups that hold the system region (text under Table 17-2). -/
def systemGroups : Part → List Nat
  | .a => [0, 2] | .m => [0, 2] | .n => [0, 1]

/-- P_REST in watts (Table 17-8). -/
def pRest : Part → Nat
  | .a => 450 | .m => 470 | .n => 440

/-- P_FAB in watts (Table 17-8). -/
def pFab : Part → Nat := fun _ => 1350

/-- Maximum sustained power in watts (Table 17-8). -/
def maxSustained : Part → Nat
  | .a => 1800 | .m => 1820 | .n => 1790

/-- Minimum cap in watts (Table 17-8). -/
def minCap : Part → Nat
  | .a => 900 | .m => 920 | .n => 890

/-- Default guarantee floor and PWR_CAP_FAST1 in watts (Table 17-12). -/
def defaultFloor : Part → Nat
  | .a => 1530 | .m => 1550 | .n => 1520

/-- Whether switched domain `d` is populated (Table 17-1). -/
def populated : Part → Nat → Bool
  | .a, d => d < 20 && d != 12 && d != 17
  | .m, d => d < 20 && d != 17
  | .n, d => d < 20 && d != 11 && d != 12

end Part

/-- The parties of the certificate chain (R598, R599). -/
inductive Party where
  | root | productCa | identity | alias_
  deriving DecidableEq, Repr, Inhabited

/-- What an X.509 v3 certificate of the chain says (R598, R599): issuer, subject, the subject's serialNumber where it
has one, and the public key it certifies. -/
structure Certificate where
  issuer : Party
  subject : Party
  serialNumber : Option (List Byte) := none
  key : List Byte
  deriving DecidableEq, Repr, Inhabited

namespace Config

/-! Free values. None has a body: a statement that mentions one holds for every value of it. Each is a DESIGN CHOICE,
safe, of the log entry named with it. -/

/-- SHA-384 of a byte string (FIPS 180-4), which the spec names and does not define (log entry 13). -/
opaque sha384 : List Byte → BitVec 384

/-- The ECDSA signature equation of R588 over a key, a digest and the signature values r and s
(log entry 13). -/
opaque ecdsaHolds : List Byte → BitVec 384 → Nat → Nat → Bool

/-- Whether 97 bytes are a point of the curve (R589; log entry 13). -/
opaque onCurve : List Byte → Bool

/-- The order n of the curve brainpoolP384r1 (R589), which the spec names and does not state (log entry
13). -/
opaque curveOrder : Nat

/-- SHA-384 of the Limfel root key of fuse slot 0 or 1 (Table 19-1), and the root key that the key store
is made with (log entry 14). -/
opaque rootHash : Nat → BitVec 384
opaque rootKey : List Byte

/-- Bytes of the hardware entropy source (R595), by draw number and byte index (log entry 15). -/
opaque entropy : Nat → Nat → Byte

/-- RAND for the largest k, whose nearest FP32 value is the 1 that R181 excludes (log entry 18). -/
opaque randTop : BitVec 32 → Nat

/-- How a row is summed, which Table 5-8 does not state (log entry 19): the two terms that an addition takes and whether
their sum is rounded, by the row and the number of terms left; whether s × α is rounded before it is added. -/
opaque sumPair : List (BitVec 32) → Nat → Nat × Nat × Bool
opaque sumProduct : Bool

/-- A kept gate weight under RENORM (R429), from it, all weights of the row and the kept ones: the rule gives no
rounding (log entry 20). -/
opaque renorm : BitVec 32 → List (BitVec 32) → List (BitVec 32) → BitVec 32

/-- The block that a generator visits (R250), which the spec takes from the tile map and the sequence entry by no formula: its
origin, and its extent less one modulo 64, by LAST_ID, station, sequence entry, block number, place of the tile map and
dimension; and the blocks of a skewed stream that feeds no product (log entry 41). -/
opaque blockOrigin : Nat → Nat → Nat → Nat → Nat × Nat × Nat → Nat → Nat
opaque blockExtent : Nat → Nat → Nat → Nat → Nat × Nat × Nat → Nat → Nat
opaque streamBlocks : Nat → Nat → Nat

/-- Which generators of a last serve its adapter path, as the number of the adapter's tensor, and which run of the pass a
block belongs to (R212), by LAST_ID and station: no field of an image gives them (log entry 41). -/
opaque adapterTensor : Nat → Nat → Option Nat
opaque adapterRun : Nat → Nat → Nat → Nat

/-- Where Iandaol places memory, which the spec leaves to it: of 256 bytes of a tensor, by epoch, die,
tensor and chunk, a choice among the stacks of its mask and a line of that stack; the first line of a KV
half-frame's region, by stack and frame (R273); and what a sector of the system region holds (R254; log entry 22). -/
opaque tensorStack : Nat → Nat → Nat → Nat → Nat
opaque tensorLine : Nat → Nat → Nat → Nat → Nat
opaque frameLine : Nat → Nat → Nat
opaque systemUse : Nat → Nat

/-- Extents that the catalogue holds on store stacks 0 and 4 each (R294), and erase blocks of a store stack (R289;
log entry 23). -/
opaque catalogueExtents : Nat
opaque storeBlocks : Nat

/-- The logical extent that holds an extent of a shard (R293), by stack, package and 2^20 × shard + extent; and the
erase block that it lies in (R285), by stack, relocations so far and logical extent (log entry 23). -/
opaque storeExtent : Nat → Nat → Nat → Nat
opaque storeBlock : Nat → Nat → Nat → Nat

/-- TEMP_SCALE = 1 / (T × ln 2) as an F32 (R342): the rule gives no rounding (log entry 21). -/
opaque tempScale : BitVec 32 → BitVec 32

/-- The 384-bit unique secret in fuses (R598), which nothing but the two derivations below reads. -/
opaque uniqueSecret : BitVec 384

/-- The device identity key that a unique secret gives (R598), and the attestation key that it gives with a firmware
DIGEST and SEC_DEBUG_STATE (R599), each by its public half (log entry 15). -/
opaque identityKey : BitVec 384 → List Byte
opaque attestationKey : BitVec 384 → List Byte → Nat → List Byte

/-- The public key of the Limfel product CA (log entry 15). -/
opaque productKey : List Byte

/-- The DER bytes of a certificate, by the draw of its signature (log entry 15). -/
opaque der : Certificate → Nat → List Byte

/-- Signature bytes made by an attestation key (R599, R600), by draw number and byte index (log entry 15). -/
opaque attestSignature : List Byte → Nat → Nat → Byte

/-- Values loaded from fuses (the L and "from fuses" columns), by object key (log entry 16). -/
opaque fuse : Nat → Nat

/-- Bytes of a STR or DOMAIN object loaded from fuses, by object key and byte index (log entry 16). -/
opaque fuseByte : Nat → Nat → Byte

/-- The number of tests in the ROM's awl set (R529; log entry 17). -/
opaque romTestCount : Nat

/-- The expected MISR value and the cycle bound of ROM awl test `t` (R529, Table 16-4; log entry 17). -/
opaque romTestExpect : Nat → Nat
opaque romTestCycles : Nat → Nat

/-- MODE of ROM awl test `t` (log entry 17). -/
opaque romTestDestructive : Nat → Bool

/-- A value the spec leaves open, by draw number (the counter `free` of the state; log entry 4). -/
opaque freeValue : Nat → Nat

end Config

end Sys2Proof
end

