-- ==== Sys2Proof/Syntax.lean ====
section
/-! DEFINITION. The commands of the block: one constructor of `Instr` for each row of the opcode table,
with the row's operands, and the records that some commands carry. What the surroundings supply with an
event (a sensor reading, a value read from host memory, what an error code found) is an operand. An
operand `cyc` is the number of fabric cycles since the last slot boundary. -/

namespace Sys2Proof

/-! ### Time base and planner (chapter 2) -/

/-- What a plan entry is (R55). -/
inductive EntryKind where
  | prefill | decode | switchEntry | maintenance
  deriving DecidableEq, Repr, Inhabited

/-- One row of a pass: a stream, the position of its input, how many input units of the prompt the
row's step takes for the stream, and whether the row produces an output (R340, R342). -/
structure PassRow where
  stream : Nat
  adapter : Nat
  position : Nat
  units : Nat
  output : Bool
  deriving DecidableEq, Repr, Inhabited

/-- A plan entry as Iandaol's policy proposes it (R3, R58): which last it runs and over which rows.
Cost, order and fit are not part of the proposal: the module computes and checks them. -/
structure Proposal where
  kind : EntryKind
  cls : Nat
  lastId : Nat
  rows : List PassRow
  context : Nat
  step : Nat
  lastPass : Bool
  notBefore : Option Nat
  deriving DecidableEq, Repr, Inhabited

/-- What the surroundings give at a slot boundary: sensor readings and the host-memory indices that
the module reads there. -/
structure BoundaryEnv where
  /-- Hottest sensor, hundredths of a degree (R552). -/
  temperature : Int
  /-- Input power in watts averaged over the last slot, and per switched domain (R553). -/
  inputPower : Nat
  domainPower : List Nat
  /-- Input voltage in millivolts. -/
  inputVoltage : Nat
  /-- Proposed entries: the frame's plan at a frame boundary, tail fill elsewhere (R55, R62). -/
  proposals : List Proposal
  /-- PRODUCER of the intake ring, when the read of it succeeded (R331). -/
  intakeProducer : Option Nat
  /-- CONSUMER of the event ring, and of the completion and output rings as (number, value). -/
  eventConsumer : Nat
  compConsumers : List (Nat × Nat)
  outConsumers : List (Nat × Nat)
  deriving DecidableEq, Repr, Inhabited
/-! ### Fabric, engine, chain and loader (chapters 3 to 7) -/

/-- What an error code finds in a protected word (R93, R155, R249). -/
inductive EccEvent where
  | clean | corrected | uncorrectable
  deriving DecidableEq, Repr, Inhabited

/-- What the memories that a firing touches report: of SRAM the errors found, each with the number of the flit that carries
the byte (R249); and whether a generator of the firing lost a sub-bank to an access that began in an earlier cycle. -/
structure FireEnv where
  mesh : EccEvent
  accumulator : EccEvent
  sram : List (Nat × EccEvent)
  bankLost : Bool
  deriving DecidableEq, Repr, Inhabited

/-- KIND of the mismatch record (Table 4-7). -/
inductive CheckKind where
  | outputVector | use | row | column | redundant
  deriving DecidableEq, Repr, Inhabited

/-- One comparison of a quarter array (Table 4-6): the two sides and G of R157 as bit patterns. The
sides differ only where the hardware errs, so they come from outside. -/
structure Comparison where
  station : Nat
  quarter : Nat
  kind : CheckKind
  index : Nat
  integer : Bool
  expected : BitVec 32
  computed : BitVec 32
  gross : BitVec 32
  deriving DecidableEq, Repr, Inhabited
/-! ### Memory (chapter 8) -/

/-- How a page move ends (Table 8-7). -/
inductive MoveOutcome where
  | done | hbmError | hostError | writeFailed | linkDown
  deriving DecidableEq, Repr, Inhabited

/-- How the copy of a page from its slot ends, and the bytes that came (R278). -/
structure PageCopy where
  ending : MoveOutcome
  data : List Byte := []
  deriving DecidableEq, Repr, Inhabited

/-- What the edge monitors of one pin find (R268): error counts on either side, and the measured eye
in 1/64 unit interval before and, where the pin was retrained, after retraining. -/
structure EyeReading where
  early : Nat
  late : Nat
  eye : Nat
  retrained : Nat
  deriving DecidableEq, Repr, Inhabited
/-! ### Weight store (chapter 9) -/

/-- What a store operation found when it ended: the bundle's bytes as read from host memory, and
whether a read of it failed (R298, R300). -/
structure BundleRead where
  bytes : List Byte
  readError : Bool
  deriving DecidableEq, Repr, Inhabited
/-! ### Serving (chapter 10) -/

/-- An intake record (Table 10-3) as the stream engines read it. `reserved` says that every reserved
byte, and every field and flag that its KIND does not use, is zero. -/
structure IntakeRecord where
  ringSeq : Nat
  kind : Nat
  flags : Nat
  stream : Nat
  tenant : Nat := 0
  reqTag : Nat := 0
  cls : Nat := 0
  inputFormat : Nat := 0
  stopCount : Nat := 0
  inputOffset : Nat := 0
  inputUnits : Nat := 0
  maxNew : Nat := 0
  maxContext : Nat := 0
  adapter : Nat := 0
  firstDeadline : Nat := 0
  tokenDeadline : Nat := 0
  seed : BitVec 32 := 0
  temperature : BitVec 32 := 0
  stops : List Nat := []
  outOffset : Nat := 0
  outEntries : Nat := 0
  outEntryBytes : Nat := 0
  packageTag : Nat := 0
  inputRowBytes : Nat := 0
  reserved : Bool := true
  deriving DecidableEq, Repr, Inhabited
/-! ### Synchronization (chapter 11) -/

/-- A wait registered at an object's home (R369): who asked, and the threshold. -/
structure WaitReg where
  /-- Position of the module that asked, and the object number of the tile waiting there. -/
  module : Nat
  station : Nat
  input : Nat
  threshold : Nat
  consume : Bool
  deriving DecidableEq, Repr, Inhabited
/-! ### Laces (chapter 12) -/

/-- A packet header (Table 12-3). -/
structure PacketHeader where
  dest : Nat
  src : Nat
  route : Nat
  mclass : Nat
  flits : Nat
  channel : Nat := 0
  tag : Nat := 0
  spanTag : Nat := 0
  object : Nat := 0
  op : Nat := 0
  arg : Nat := 0
  gen : Nat := 0
  deriving DecidableEq, Repr, Inhabited

/-- A slot of a lace frame (R393), but for control slots, whose messages are commands of their own. -/
inductive LaceSlot where
  | idle
  | header (vc : Nat) (h : PacketHeader)
  | data (vc : Nat) (payload : BitVec 512) (sideband : BitVec 16)
  | control
  deriving DecidableEq, Repr, Inhabited

/-- A lace frame as received (Table 12-2), with what its code words and CRC gave (R392). A credit
return is (VC, whether of the shared pool, slots). -/
structure LaceFrame where
  correctable : Bool
  corrected : Nat
  crcGood : Bool
  replay : Bool
  narrow : Bool
  ctlCount : Nat
  frameSeq : Nat
  ackSeq : Nat
  linkEpoch : Nat
  credits : List (Nat × Bool × Nat)
  slots : List LaceSlot
  deriving DecidableEq, Repr, Inhabited

/-- Fields of HELLO and HELLO_ACK (Table 12-4). -/
structure HelloMsg where
  position : Nat
  rackId : Nat
  lace : Nat
  width : Nat
  sendFst : Nat
  deriving DecidableEq, Repr, Inhabited

/-- Fields of LINK_NOTICE (Table 12-4). -/
structure LinkNoticeMsg where
  origin : Nat
  seq : Nat
  notice : Nat
  subject : Nat
  lace : Nat
  effective : Nat
  deriving DecidableEq, Repr, Inhabited
/-! ### Expert dispatch (chapter 13) -/

/-- A dispatch message (Table 13-5) with its payload, as received on an uplink: `source` is the IPv6
source address, and `good` says that MAGIC and VERSION are right. -/
structure DispatchMsg where
  source : Nat
  good : Bool
  cls : Nat
  flags : Nat
  gen : Nat
  batchId : Nat
  layer : Nat
  expert : Nat
  dispatchNo : Nat
  rowBytes : Nat
  format : Nat
  status : Nat
  credits : Nat
  payload : List Byte
  deriving DecidableEq, Repr, Inhabited

/-- What the receiver of a port finds in a frame before any message is read (R419, R471). -/
structure FrameCheck where
  tagged : Bool
  extension : Bool
  checksumGood : Bool
  addressed : Bool
  deriving DecidableEq, Repr, Inhabited
/-! ### Dictionary and field network (chapter 15) -/

/-- The source of a request (R466). -/
inductive Session where
  | field (address port : Nat)
  | slot (n : Nat)
  deriving DecidableEq, Repr, Inhabited

/-- The header fields of a DAP request that are the requester's (Table 15-3). `good` says that the
frame keeps the limits of R471 (always, in a host-link slot), `multicast` that it was sent to ff02::1
or another multicast address, `allNodes` that it was ff02::1. -/
structure Request where
  session : Session
  reqId : Nat
  txId : Nat
  good : Bool := true
  multicast : Bool := false
  allNodes : Bool := false
  deriving DecidableEq, Repr, Inhabited

/-- An item of a WRITE (Table 15-4). -/
structure WriteItem where
  index : Nat
  sub : Nat
  type : Nat
  value : List Byte
  deriving DecidableEq, Repr, Inhabited
/-! ### Start-up (chapter 18) -/

/-- What the surroundings give when an item of Table 18-6 begins: the raw content of the identity
memories in the order of Table 18-5 (`none` where one does not answer), and the hottest sensor. -/
structure BringupEnv where
  memories : List (Option (List Byte))
  temperature : Int
  deriving DecidableEq, Repr, Inhabited

/-- The commands, one constructor per row of the opcode table, in the table's order. -/
inductive Instr where
  /-- FREF_EDGE: a rising FREF edge, `refclks` REFCLK cycles after the previous slot boundary. -/
  | frefEdge (refclks : Nat)
  /-- FREF_PULSE_CLASSIFIED: the pulse's high time in REFCLK cycles is known. -/
  | frefPulseClassified (cyc highTime : Nat)
  /-- FLYWHEEL_BOUNDARY: 12,500 REFCLK cycles have passed with no edge to place the boundary. -/
  | flywheelBoundary
  /-- SLOT_BOUNDARY: the actions of R490 at a boundary that has been placed. -/
  | slotBoundary (env : BoundaryEnv)
  /-- HOLDOVER_LIMIT: the holdover has lasted 16,000 slots. -/
  | holdoverLimit
  /-- REFCLK_LOSS: REFCLK edges have stopped for 1 µs. -/
  | refclkLoss
  /-- REFCLK_RETURN: REFCLK has been present for this many consecutive cycles. -/
  | refclkReturn (cycles : Nat)
  /-- FRAME_COUNT_LOAD: a commit of SRV_FRAME_COUNT_LOAD. -/
  | frameCountLoad (value : Nat)
  /-- REALIGN_ARM: a commit of SRV_REALIGN_CMD = 1. -/
  | realignArm
  /-- REALIGN_DISARM: a commit of SRV_REALIGN_CMD = 0. -/
  | realignDisarm
  /-- PLAN_ENTRY_START: the next plan entry starts, `cyc` fabric cycles into the slot. -/
  | planEntryStart (cyc : Nat)
  /-- PASS_END: every terminal PORT station has consumed END_OF_PASS, every write is acknowledged. -/
  | passEnd (cyc : Nat)
  /-- WCET_OVERRUN: the running pass has reached its planned worst-case end. -/
  | wcetOverrun (cyc : Nat)
  /-- STATION_FIRE: the station of this index in the active last is examined (R94). -/
  | stationFire (cyc station : Nat) (env : FireEnv)
  /-- FLIT_DELIVERED: the oldest flit in flight on a queue enters its buffer. -/
  | flitDelivered (cyc queue : Nat) (ecc : EccEvent)
  /-- CREDIT_RETURNED: the oldest credit in flight on a queue reaches the producer. -/
  | creditReturned (queue : Nat)
  /-- FABRIC_STALL: the join guard counter has reached FAB_JOIN_GUARD. -/
  | fabricStall (cyc : Nat)
  /-- VOIDING_COMPLETE: the outstanding external reads have completed. -/
  | voidingComplete (cyc : Nat)
  /-- FAB_SNAP_RELEASE: this value is written to FAB_SNAP_RELEASE. -/
  | fabSnapRelease (value : Nat)
  /-- SWAP_COMPLETE: the phases of the swap have ended. -/
  | swapComplete (cyc : Nat)
  /-- QUEUE_SAMPLE: the samplers of every quadrant read the queues. -/
  | queueSample (cyc : Nat)
  /-- CHECKSUM_COMPARE: one comparison of a quarter array. -/
  | checksumCompare (cyc : Nat) (c : Comparison)
  /-- MXE_REC_RELEASE: this value is written to MXE_REC_RELEASE. -/
  | mxeRecRelease (value : Nat)
  /-- LOAD_REQUEST: load the image at this index of the staged package's last table into a slot. -/
  | loadRequest (slot image : Nat)
  /-- LOAD_BEGIN: the loader takes the next waiting request. -/
  | loadBegin
  /-- LOAD_COMPLETE: the load in progress ends. -/
  | loadComplete (cyc : Nat)
  /-- SLOT_FREE_REQUEST: free a slot. -/
  | slotFreeRequest (slot : Nat)
  /-- HBM_READ_COMPLETE: this outstanding read completes; `errors` are (symbol, error) pairs that the
  stack's symbols carry. -/
  | hbmReadComplete (cyc read : Nat) (errors : List (Nat × Byte))
  /-- HBM_WRITE_ACCEPTED: the insole cache accepts this outstanding write. -/
  | hbmWriteAccepted (cyc write : Nat) (errors : List (Nat × Byte))
  /-- PATROL_SCRUB_READ: the patrol scrub reads a sector of a stack; `last` ends a patrol pass. -/
  | patrolScrubRead (cyc stack sector : Nat) (errors : List (Nat × Byte)) (last : Bool)
  /-- EYE_ADJUST: 2^20 beats of a pin have been counted. -/
  | eyeAdjust (cyc stack pseudoChannel pin : Nat) (reading : EyeReading)
  /-- STACK_INIT_COMPLETE: an HBM stack has trained and written every sector. -/
  | stackInitComplete (stack : Nat)
  /-- PAGE_PARKED: the move of a page to its slot ends. -/
  | pageParked (cyc stream page : Nat) (outcome : MoveOutcome)
  /-- UNPARK_PAGE_START: the next page of an unpark takes a frame. -/
  | unparkPageStart (cyc stream page : Nat)
  /-- PAGE_UNPARKED: the copy of a page from its slot ends. -/
  | pageUnparked (cyc stream page : Nat) (outcome : PageCopy)
  /-- STORE_READ_COMPLETE: this outstanding store read of a PORT station completes after `retries`
  reads at shifted levels, decoded or not. -/
  | storeReadComplete (cyc read retries : Nat) (decoded : Bool)
  /-- BLOCK_RELOCATE: an erase block's read-disturb counter has reached the limit. -/
  | blockRelocate (cyc stack block : Nat)
  /-- STO_STACK_INIT_COMPLETE: a store stack has rebuilt its map and read the catalogue. -/
  | stoStackInitComplete (stack spareBlocks wear : Nat)
  /-- STO_MODE_SET: a commit of STO_MODE. -/
  | stoModeSet (value : Nat)
  /-- STORE_INSTALL: a commit of STO_OP_CMD = 1. -/
  | storeInstall (source length : Nat)
  /-- STORE_DELETE: a commit of STO_OP_CMD = 2. -/
  | storeDelete (tag : Nat)
  /-- ADAPTER_INSTALL: a commit of STO_OP_CMD = 3. -/
  | adapterInstall (source length : Nat)
  /-- ADAPTER_DELETE: a commit of STO_OP_CMD = 4. -/
  | adapterDelete (tag : Nat)
  /-- STORE_REPAIR: a commit of STO_OP_CMD = 5. -/
  | storeRepair (tag source length : Nat)
  /-- STORE_OP_COMPLETE: the running store operation ends. -/
  | storeOpComplete (cyc : Nat) (bundle : BundleRead)
  /-- STORE_PATROL: the patrol reads a shard; `matched` says whether its digest agreed. -/
  | storePatrol (cyc tag shard : Nat) (matched : Bool)
  /-- MODEL_SWITCH_REQUEST: a commit of STO_SWITCH_KIND = 1. -/
  | modelSwitchRequest (target mode plan : Nat)
  /-- EPOCH_SWITCH_REQUEST: a commit of STO_SWITCH_KIND = 2. -/
  | epochSwitchRequest (target plan : Nat)
  /-- SWITCH_CANCEL: a commit of STO_SWITCH_CANCEL. -/
  | switchCancel (value : Nat)
  /-- SHARD_ARRIVAL: the next shard of the staging arrives; `readable` says whether it was read. -/
  | shardArrival (cyc : Nat) (readable : Bool)
  /-- STAGING_COMPLETE: the last shard has been placed. -/
  | stagingComplete (cyc : Nat)
  /-- SWITCH_COMPLETE: the switch entry has made the incoming image active. -/
  | switchComplete (cyc : Nat)
  /-- SHARD_REFETCH_COMPLETE: the refetch of a shard ends, with a valid copy or without one. -/
  | shardRefetchComplete (cyc shard : Nat) (valid : Bool)
  /-- NOP: the next intake record, of KIND 0 (or of a KIND that Table 10-4 refuses). -/
  | nop (cyc : Nat) (r : IntakeRecord)
  /-- OPEN: the next intake record, of KIND 1. -/
  | openStream (cyc : Nat) (r : IntakeRecord)
  /-- APPEND: the next intake record, of KIND 2. -/
  | append (cyc : Nat) (r : IntakeRecord)
  /-- CANCEL: the next intake record, of KIND 3. -/
  | cancel (cyc : Nat) (r : IntakeRecord)
  /-- CLOSE: the next intake record, of KIND 4. -/
  | close (cyc : Nat) (r : IntakeRecord)
  /-- PARK: the next intake record, of KIND 5. -/
  | park (cyc : Nat) (r : IntakeRecord)
  /-- UNPARK: the next intake record, of KIND 6. -/
  | unpark (cyc : Nat) (r : IntakeRecord)
  /-- INPUT_COPY_COMPLETE: the copies of a read's inputs are complete; `failed` lists those that failed, by
  their place among the read's copies. -/
  | inputCopyComplete (cyc : Nat) (failed : List Nat)
  /-- SEAL_START: the seal of this step begins. -/
  | sealStart (cyc step : Nat)
  /-- SEAL_COMPLETE: the last seal write of this step has been acknowledged. -/
  | sealComplete (cyc step : Nat)
  /-- NOTICE_WRITE: the waiting NOTICE record of a group is written. -/
  | noticeWrite (cyc group : Nat)
  /-- RING_CONFIG_COMMIT: a commit of an object of ring geometry (its subindex in 4010h) and value. -/
  | ringConfigCommit (sub value : Nat)
  /-- SYNC_SIGNAL: the tile at the head of this input of a SYNC station meets its SIGNAL. -/
  | syncSignal (cyc station input : Nat)
  /-- SYNC_WAIT: the tile at the head of this input of a SYNC station meets its WAIT. -/
  | syncWait (cyc station input : Nat)
  /-- SYNC_ARRIVE: the tile at the head of this input of a SYNC station meets its ARRIVE. -/
  | syncArrive (cyc station input : Nat)
  /-- SYNC_BARRIER: the tile at the head of this input of a SYNC station meets its BARRIER. -/
  | syncBarrier (cyc station input : Nat)
  /-- SPAN_SIGNAL: a SYNC packet with OP SIGNAL arrives. -/
  | spanSignal (cyc object amount : Nat)
  /-- REGISTER: a remote wait registration arrives at this bank object. -/
  | register (cyc object : Nat) (w : WaitReg)
  /-- WAIT_RELEASE: a release for the tile waiting at this input of a SYNC station arrives. -/
  | waitRelease (cyc station input : Nat)
  /-- ARRIVE: an arrival from a child reaches this barrier node. -/
  | arrive (cyc object : Nat)
  /-- RELEASE: a release from the parent reaches this barrier node. -/
  | release (cyc object : Nat)
  /-- RELEASED: an answer from a child reaches this barrier node. -/
  | released (cyc object : Nat)
  /-- REOPEN: a reopen from the parent reaches this barrier node. -/
  | reopen (cyc object : Nat)
  /-- BREAK: a break reaches this barrier node, with its CAUSE. -/
  | breakNode (cyc object cause : Nat)
  /-- GUARD_EXPIRED: the guard timer of the tile held at this input of a SYNC station expires. -/
  | guardExpired (cyc station input : Nat)
  /-- CONTEXT_SAVED: the context image of the pre-empted pass has been written. -/
  | contextSaved (cyc saveCycles : Nat)
  /-- CONTEXT_RESTORED: the restore of the saved context has ended. -/
  | contextRestored (cyc : Nat)
  /-- LACE_FRAME_RECEIVED: a frame arrives on a lace. -/
  | laceFrameReceived (cyc lace : Nat) (f : LaceFrame)
  /-- REPLAY_REQ: the peer asks for frames from this FRAME_SEQ. -/
  | replayReq (cyc lace fromSeq : Nat)
  /-- HELLO: a HELLO arrives on a lace. -/
  | hello (cyc lace : Nat) (m : HelloMsg)
  /-- HELLO_ACK: a HELLO_ACK arrives on a lace, with ECHO_FST. -/
  | helloAck (cyc lace : Nat) (m : HelloMsg) (echoFst : Nat)
  /-- NOT_READY: a NOT_READY arrives on a lace. -/
  | notReady (lace retryAfter : Nat)
  /-- LINK_NOTICE: a LINK_NOTICE arrives on a lace. -/
  | linkNotice (cyc lace : Nat) (m : LinkNoticeMsg)
  /-- GOODBYE: a GOODBYE arrives on a lace. -/
  | goodbye (cyc lace position : Nat)
  /-- SPAN_HELLO: a SPAN_HELLO arrives on a lace. -/
  | spanHello (cyc lace origin tag mask : Nat)
  /-- SPAN_FAULT: a SPAN_FAULT arrives on a lace. -/
  | spanFault (cyc lace origin seq tag subject : Nat)
  /-- LACE_LIGHT_DETECTED: light is present on every receive fibre of a lace. -/
  | laceLightDetected (lace : Nat)
  /-- LACE_TRAINING_COMPLETE: training of a lace ends. -/
  | laceTrainingComplete (cyc lace : Nat)
  /-- LACE_TRAINING_TIMEOUT: training of a lace has not finished within 40 ms. -/
  | laceTrainingTimeout (cyc lace : Nat)
  /-- LACE_MISWIRED_RETRY: 160 slots have passed on a lace DOWN with cause MISWIRED. -/
  | laceMiswiredRetry (lace : Nat)
  /-- RING_HEATER_STEP: a ring of a lace is read; whether its heater steps, whether its lane has
  failed, and the received power of the weakest lane. -/
  | ringHeaterStep (cyc lace : Nat) (step failed : Bool) (rxPower : Int)
  /-- LACE_LIGHT_LOST: light is lost on a receive fibre of a lace. -/
  | laceLightLost (cyc lace : Nat)
  /-- LASER_INPUT_LOST: laser input 0 (A) or 1 (B) of an eyelet is lost. -/
  | laserInputLost (cyc eyelet input : Nat)
  /-- SPAN_COMMIT: a commit of LCE_SPAN_MASK and LCE_SPAN_TAG. -/
  | spanCommit (mask tag : Nat)
  /-- LEAVING_DRAINED: buffers are empty and frames acknowledged on a lace that is LEAVING. -/
  | leavingDrained (cyc lace : Nat)
  /-- UPLINK_UP: the Ethernet link of an uplink comes up. -/
  | uplinkUp (cyc uplink : Nat)
  /-- UPLINK_DOWN: an uplink goes DOWN with this cause. -/
  | uplinkDown (cyc uplink cause : Nat)
  /-- DISPATCH: a DISPATCH message arrives on an uplink. -/
  | dispatch (cyc uplink : Nat) (f : FrameCheck) (m : DispatchMsg)
  /-- RETURN: a RETURN message arrives on an uplink. -/
  | returnMsg (cyc uplink : Nat) (f : FrameCheck) (m : DispatchMsg)
  /-- BATCH_END: a BATCH_END message arrives on an uplink. -/
  | batchEnd (cyc uplink : Nat) (f : FrameCheck) (m : DispatchMsg)
  /-- DISPATCH_CANCEL: a CANCEL message arrives on an uplink. -/
  | dispatchCancel (cyc uplink : Nat) (f : FrameCheck) (m : DispatchMsg)
  /-- CREDIT: a dispatch CREDIT message arrives on an uplink. -/
  | credit (cyc uplink : Nat) (f : FrameCheck) (m : DispatchMsg)
  /-- UPLINK_NEIGHBOR_SOLICITATION: a Neighbor Solicitation for this address arrives on an uplink. -/
  | uplinkNeighborSolicitation (uplink target : Nat)
  /-- RETURN_TIMEOUT: a choice has had no RETURN for DSP_RETURN_TIMEOUT. -/
  | returnTimeout (cyc dispatchNo : Nat)
  /-- CREDIT_GRACE_EXPIRY: DSP_CREDIT_GRACE slots have passed since a cancel. -/
  | creditGraceExpiry (cyc gen : Nat)
  /-- SERVE_BATCH_CLOSE: the pass of this serve station has reached CLOSE_CYCLES. -/
  | serveBatchClose (cyc station : Nat)
  /-- DSP_TABLE_COMMIT: a commit of a dispatch table, subindex 06h to 09h of 5040h. -/
  | dspTableCommit (sub : Nat) (bytes : List Byte)
  /-- UCIE_TRAINING_COMPLETE: training of a UCIe module ends: speed in GT/s and repaired lanes. -/
  | ucieTrainingComplete (cyc module : Nat) (success : Bool) (speed repaired : Nat)
  /-- UCIE_TRAINING_RETRY: 160 slots have passed on a DOWN module. -/
  | ucieTrainingRetry (module : Nat)
  /-- UCIE_CRC_ERROR: a flit fails its CRC; adapter retry recovers it, or does not. -/
  | ucieCrcError (cyc module : Nat) (recovered : Bool)
  /-- UCIE_RETRAIN_COMPLETE: a retraining ends, with this many lanes replaced by redundant ones. -/
  | ucieRetrainComplete (cyc module : Nat) (success : Bool) (repaired : Nat)
  /-- READ_DATA: a READ_DATA message arrives. -/
  | readData (cyc module tag status : Nat) (poison final : Bool) (data : List Byte)
  /-- WRITE_ACK: a WRITE_ACK message arrives. -/
  | writeAck (cyc module tag status : Nat)
  /-- WIN_WRITE: the host writes one chunk into an aperture. -/
  | winWrite (cyc module tag offset headSkip tailSkip : Nat) (data : List Byte)
  /-- WIN_READ: the host reads an aperture. -/
  | winRead (cyc module tag offset chunks : Nat)
  /-- CREDIT of the host link: header and chunk credits come back. -/
  | ucieCredit (cyc module headers chunks : Nat)
  /-- UCIE_PROTOCOL_ERROR: a message with a reserved OP, or that breaks R445 to R447, arrives. -/
  | ucieProtocolError (cyc module : Nat)
  /-- HOST_READ_TIMEOUT: an outstanding MEM_READ has passed HLK_READ_TIMEOUT. -/
  | hostReadTimeout (cyc module tag : Nat)
  /-- HOST_WRITE_TIMEOUT: an outstanding MEM_WRITE has passed HLK_WRITE_TIMEOUT. -/
  | hostWriteTimeout (cyc module tag : Nat)
  /-- ATT_INVALIDATE: a commit of HLK_ATT_INVALIDATE. -/
  | attInvalidate (value : Nat)
  /-- ATT_INVALIDATE_COMPLETE: the accesses translated before the invalidation have completed. -/
  | attInvalidateComplete
  /-- DICT_SLOT_POLL: the dictionary engine polls the host-link slots. -/
  | dictSlotPoll (cyc : Nat)
  /-- READ: a DAP READ of these (INDEX, SUB) items. -/
  | read (cyc : Nat) (rq : Request) (items : List (Nat × Nat))
  /-- MULTICAST_READ_REPLY: the delay of an all-nodes READ has passed. -/
  | multicastReadReply (cyc : Nat)
  /-- WRITE: a DAP WRITE of these items. -/
  | write (cyc : Nat) (rq : Request) (items : List WriteItem)
  /-- READ_SEGMENT: a DAP READ_SEGMENT. -/
  | readSegment (cyc : Nat) (rq : Request) (index sub offset length expectSeq : Nat)
  /-- WRITE_SEGMENT: a DAP WRITE_SEGMENT. -/
  | writeSegment (cyc : Nat) (rq : Request) (index sub : Nat) (first : Bool) (offset total : Nat)
      (data : List Byte)
  /-- BEGIN: a DAP BEGIN. -/
  | begin (cyc : Nat) (rq : Request)
  /-- COMMIT: a DAP COMMIT, with AT as a 64-bit FST. -/
  | commit (cyc : Nat) (rq : Request) (at_ : Nat)
  /-- ROLLBACK: a DAP ROLLBACK. -/
  | rollback (cyc : Nat) (rq : Request)
  /-- TX_STATUS: a DAP TX_STATUS. -/
  | txStatus (cyc : Nat) (rq : Request)
  /-- TX_EXPIRE: this transaction has been idle for HLK_TX_IDLE_LIMIT slots. -/
  | txExpire (cyc tx : Nat)
  /-- OBJECT_WRITE: a write of an object that has no row of its own. -/
  | objectWrite (cyc index sub : Nat) (value : List Byte)
  /-- PLCA_STATUS_CHANGE: the PLCA status becomes true or false. -/
  | plcaStatusChange (cyc : Nat) (status : Bool)
  /-- FIELD_NEIGHBOR_SOLICITATION: a Neighbor Solicitation for this address arrives. -/
  | fieldNeighborSolicitation (target : Nat)
  /-- FIELD_ADDRESS_CONFLICT: duplicate address detection finds a conflict. -/
  | fieldAddressConflict (cyc : Nat)
  /-- FIELD_ADDRESS_IN_USE: duplicate address detection ends without a conflict. -/
  | fieldAddressInUse
  /-- DAP_MESSAGE_MALFORMED: a malformed message, with the REQ_ID that its header bytes hold. -/
  | dapMessageMalformed (cyc : Nat) (session : Session) (reqId : Nat)
  /-- STRIKE_EXPIRE: a strike of a quadrant is RAS_STRIKE_WINDOW frames old. -/
  | strikeExpire (quadrant : Nat)
  /-- FENCE_CMD: a commit of RAS_FENCE_CMD = 1. -/
  | fenceCmd (cyc quadrant : Nat)
  /-- UNFENCE_CMD: a commit of RAS_FENCE_CMD = 2. -/
  | unfenceCmd (cyc quadrant : Nat)
  /-- AWL_TEST_COMPLETE: the running awl test of a quadrant ends with this MISR. -/
  | awlTestComplete (cyc quadrant : Nat) (misr : BitVec 64)
  /-- AWL_RUN_TARGETED: a commit of RAS_AWL_RUN_CMD = 1. -/
  | awlRunTargeted (quadrant : Nat)
  /-- AWL_RUN_DESTRUCTIVE: a commit of RAS_AWL_RUN_CMD = 2. -/
  | awlRunDestructive (quadrant : Nat)
  /-- AWL_SET_LOAD: a commit of RAS_AWL_LOAD. -/
  | awlSetLoad (cyc : Nat) (image : List Byte)
  /-- PERSIST_WRITE_COMPLETE: a persistent-log write ends. -/
  | persistWriteComplete
  /-- PERSIST_CLEAR: a commit of RAS_PERSIST_CLEAR. -/
  | persistClear (value : Nat)
  /-- DOMAIN_ENABLE: an enable of a switched domain. -/
  | domainEnable (cyc domain : Nat)
  /-- DOMAIN_DISABLE: a disable of a switched domain. -/
  | domainDisable (cyc domain : Nat)
  /-- DOMAIN_START_COMPLETE: a STARTING domain is up. -/
  | domainStartComplete (cyc domain : Nat)
  /-- DOMAIN_STOP_COMPLETE: a STOPPING domain is down. -/
  | domainStopComplete (cyc domain : Nat)
  /-- MIN_OFF_TIME_EXPIRY: a domain has been off for 200 µs. -/
  | minOffTimeExpiry (cyc domain : Nat)
  /-- DOMAIN_TIMEOUT: a STARTING or STOPPING domain has exceeded its bound. -/
  | domainTimeout (cyc domain : Nat)
  /-- DOMAIN_RAIL_FAULT: a rail or thermal fault of a domain, with its FAULT bits (Table 17-7). -/
  | domainRailFault (cyc domain : Nat) (bits : BitVec 16)
  /-- FAULT_CLEAR: a write to PWR_DOMAIN_STATUS. -/
  | faultClear (domain : Nat) (value : BitVec 32)
  /-- CAP_FAST_LEVEL_CHANGE: the pins have held this level for 16 REFCLK cycles. -/
  | capFastLevelChange (cyc level : Nat)
  /-- THERMAL_TRIP: this sensor reads 120 °C. -/
  | thermalTrip (cyc sensor : Nat)
  /-- PWR_FAIL_WARN: the tray asserts PWR_FAIL_WARN. -/
  | pwrFailWarn (cyc : Nat)
  /-- PWR_FAIL_WARN_CLEAR: the warning clears. -/
  | pwrFailWarnClear
  /-- POWER_FAIL_SHUTDOWN: t_w + H − 7 ms has come. -/
  | powerFailShutdown (cyc : Nat)
  /-- POWER_FAIL_RESTART: the warning has been released for 1 ms, with VIN in range or not. -/
  | powerFailRestart (vinGood : Bool)
  /-- EJECT_REQ: the pin has been asserted for 1 ms. -/
  | ejectReq
  /-- EJECT_NOTICE_TIMEOUT: 40 slots have passed since EFFECTIVE. -/
  | ejectNoticeTimeout (cyc : Nat)
  /-- EJECT_READY: XU is OFF at the end of the drain. -/
  | ejectReady (cyc : Nat)
  /-- EJECT_RESTART: EJECT_REQ has been released for 1 s. -/
  | ejectRestart
  /-- SURPRISE_REMOVAL: PRES_SHORT_L breaks. -/
  | surpriseRemoval
  /-- VIN_UNDERVOLTAGE: VIN has been below 42 V for 100 µs. -/
  | vinUndervoltage (cyc : Nat)
  /-- VIN_CORE_LOSS: VIN is below 40 V. -/
  | vinCoreLoss
  /-- POWER_ON: VIN rises into the operating range. -/
  | powerOn
  /-- MODULE_RESET_PIN: MODULE_RST_L has been low for 10 µs. -/
  | moduleResetPin (cyc : Nat)
  /-- RESET_MODULE_CMD: a commit of SRV_RESET_CMD = 1. -/
  | resetModuleCmd (cyc : Nat)
  /-- RESET_FIRMWARE_CMD: a commit of SRV_RESET_CMD = 2. -/
  | resetFirmwareCmd (cyc : Nat)
  /-- WATCHDOG_EXPIRE: the watchdog has not been serviced for 100 ms. -/
  | watchdogExpire (cyc : Nat)
  /-- BRINGUP_ITEM_START: the start-up item of this row of Table 18-6, counted from 0, begins; `part`
  numbers the domains of rows that enable several. -/
  | bringupItemStart (cyc row part : Nat) (env : BringupEnv)
  /-- BRINGUP_TIMEOUT: the item of this row still runs 40,000 slots after the ROM start. -/
  | bringupTimeout (cyc row : Nat)
  /-- SERVE_START: a commit of SRV_SERVE_CMD = 1. -/
  | serveStart (cyc : Nat)
  /-- SERVE_STOP: a commit of SRV_SERVE_CMD = 0. -/
  | serveStop
  /-- FW_LOAD: a commit of SEC_FW_LOAD. -/
  | fwLoad (cyc : Nat) (image : List Byte)
  /-- FW_LOAD_COMPLETE: programming and read-back end. -/
  | fwLoadComplete (cyc : Nat) (matched : Bool)
  /-- FW_ACTIVATE: a commit of SEC_FW_ACTIVATE = 1. -/
  | fwActivate
  /-- FW_DEACTIVATE: a commit of SEC_FW_ACTIVATE = 0. -/
  | fwDeactivate
  /-- IDENTITY_REREAD: ID_ALERT_L falls, and the memories read like this. -/
  | identityReread (cyc : Nat) (memories : List (Option (List Byte)))
  /-- MODULE_RST_L_RELEASE: MODULE_RST_L returns high. -/
  | moduleRstLRelease
  /-- KEY_UPDATE: a commit of SEC_KEY_UPDATE. -/
  | keyUpdate (cyc : Nat) (records : List Byte)
  /-- ENROL_TICKET: a commit of SEC_TICKET whose KIND is 1. -/
  | enrolTicket (cyc : Nat) (ticket : List Byte)
  /-- RELEASE_TICKET: a commit of SEC_TICKET whose KIND is 2. -/
  | releaseTicket (cyc : Nat) (ticket : List Byte)
  /-- DEBUG_UNLOCK_TICKET: a commit of SEC_TICKET whose KIND is 3, and of SEC_TICKET_COSIGN. -/
  | debugUnlockTicket (cyc : Nat) (ticket cosign : List Byte)
  /-- ATTEST_REQUEST: a commit of SEC_ATTEST_NONCE. -/
  | attestRequest (cyc : Nat) (nonce : List Byte)
  /-- ATTEST_REPORT_READY: the report has been signed. -/
  | attestReportReady (cyc : Nat)
  /-- SVN_RAISE: a commit of SEC_SVN_RAISE = 1. -/
  | svnRaise (cyc : Nat)
  /-- LASER_INPUT_RETURN: laser input 0 (A) or 1 (B) of an eyelet regains light. -/
  | laserInputReturn (cyc eyelet input : Nat)
  /-- HOST_DIE_RESET: the host die resets. -/
  | hostDieReset (cyc : Nat)
  /-- STORE_STACK_FAILURE: a store stack fails. -/
  | storeStackFailure (cyc stack : Nat)
  deriving DecidableEq, Repr, Inhabited

end Sys2Proof
end

