-- ==== Sys2Proof/Decode.lean ====
section
/-! DEFINITION. Commands by word. The block takes commands, not words: the opcode table gives no row any bits. -/

namespace Sys2Proof

/-- The command that a word spells by the table's bits: none, as no row has bits. -/
def decodeTableWord (_nbits _w : Nat) : Option Instr := none

end Sys2Proof
end

