-- ==== Sys2Proof/Machine/State.lean ====
section
/-! DEFINITION. The state of the block as plain data: every register, queue, table, counter and mode that
the spec gives it, grouped by chapter; its faults and refusals; and the state right after reset. Field
defaults are the reset values. -/

namespace Sys2Proof.Machine

/-! ### Time base (chapter 2) -/

/-- Table 2-3. -/
inductive TbState where
  | acquiring | locked | holdover | holdoverLimit
  deriving DecidableEq, Repr, Inhabited

/-- A rising edge whose pulse is not yet classified (R624): where it fell, whether it was taken at an
expected position, and whether the boundary there has been placed; for an edge that was not taken, the run of
missing edges when it fell, and whether the flywheel has placed a boundary since (R49). -/
structure FrefEdge where
  phase : Nat
  taken : Bool
  placed : Bool
  miss : Nat := 0
  crossed : Bool := false
  deriving DecidableEq, Repr, Inhabited

/-- The time-base unit (R36 to R54, R624). -/
structure TimeBase where
  state : TbState := .acquiring
  /-- FRAME and SLOT of the FST (Table 2-1). In ACQUIRING the slot counts and the FST reads 0. -/
  frame : Nat := 0
  slot : Nat := 0
  /-- Fabric cycles since the last slot boundary (R41). -/
  cyc : Nat := 0
  /-- A boundary has been placed and its actions (R490) have not yet been run. -/
  boundaryDue : Bool := false
  edge : Option FrefEdge := none
  /-- Runs of R46 and R47. -/
  validRun : Nat := 0
  missRun : Nat := 0
  /-- FST of the first missing edge of the run. -/
  missFirst : Nat := 0
  wideSeen : Bool := false
  /-- R49: phase and length of the run of agreeing pulses out of window; a jump is detected. -/
  jumpPhase : Nat := 0
  jumpRun : Nat := 0
  jumpMiss : Nat := 0
  jump : Bool := false
  /-- R50: by slot, the last frame and the length of the run of misplaced wide pulses; slots in conflict. -/
  marks : KMap (Nat × Nat) := []
  markConflicts : List Nat := []
  /-- SRV_REALIGN_CMD. -/
  armed : Bool := false
  /-- SRV_FRAME_COUNT_LOAD, staged (R44). -/
  load : Option Nat := none
  /-- SRV_HOLDOVER_SLOTS. -/
  holdSlots : Nat := 0
  missed : Nat := 0
  outOfWindow : Nat := 0
  markFaults : Nat := 0
  /-- SRV_PHASE_ERROR, and the correction of the running slot (R39), each from a free value. -/
  phaseError : Int := 0
  phaseCorrection : Int := 0
  /-- SRV_REFCLK_STATE, and whether the switch back is due at the next boundary (R52), or, where it came after the
  pulse of a boundary whose actions are still to run, at the one after it (R18). -/
  internalClock : Bool := false
  refclkBack : Bool := false
  refclkLate : Bool := false
  /-- The frame that a realignment shortened (R51). -/
  realigned : Option Nat := none
  deriving DecidableEq, Repr, Inhabited

/-! ### The plan (chapter 2) -/

/-- A plan entry, costed (R55 to R57). -/
structure PlanEntry where
  kind : EntryKind
  cls : Nat
  lastId : Nat
  batchBucket : Nat
  contextBucket : Nat
  /-- W of R57, in nominal fabric cycles, and the cost in planning cycles. -/
  w : Nat
  cost : Nat
  rows : List PassRow
  context : Nat
  step : Nat
  lastPass : Bool
  notBefore : Option Nat
  /-- The entry resumes the saved context (R384). -/
  resume : Bool := false
  deriving DecidableEq, Repr, Inhabited

/-- What an error record says beyond the state it is written in (Tables 16-5 and 16-6), and so the cause
that a detector registers with a pass (R500, R501). `none` is a field that does not apply. -/
structure RecordInfo where
  source : Nat
  causeClass : Nat
  actions : Nat := 0
  die : Option Nat := none
  quadrant : Option Nat := none
  x : Option Nat := none
  y : Option Nat := none
  stack : Option Nat := none
  pseudoChannel : Option Nat := none
  pin : Option Nat := none
  storeStack : Option Nat := none
  mpa : Option Nat := none
  stepSeq : Nat := 0
  groups : Nat := 0
  maskBefore : Option Nat := none
  strikes : Nat := 0
  epoch : Nat := 0
  shard : Option Nat := none
  count : Nat := 1
  detail : List Byte := []
  /-- Group of the record's event, where it names a group and no quadrant. -/
  group : Option Nat := none
  deriving DecidableEq, Repr, Inhabited

/-- The pass that is running (R115). -/
structure PassRun where
  entry : PlanEntry
  passNumber : Nat
  /-- Fabric cycles of the pass so far are measured from here, in cycles since frame 0. -/
  start : Nat
  overrun : Bool := false
  /-- Planned worst-case end (R66), in fabric cycles of uptime: the start of the entry plus its cost. -/
  planEnd : Nat := 0
  /-- SYN_GUARD_DEFAULT and SYN_PREEMPT_MODE as they stood when the pass was issued (R387). -/
  guardDefault : Nat := 1250
  preemptMode : Nat := 1
  /-- Causes that taint the pass (R501); groups of rows whose flits reached a terminal PORT with POISON
  (R511); events of the pass that void it outside a taint: a guard, a lost owner or return. -/
  taints : List RecordInfo := []
  poisoned : List Nat := []
  broken : Bool := false
  /-- GROUP of each status token that a terminal PORT consumed (R376), and the cause of the voiding under
  way (Table 3-7). -/
  tokens : List Nat := []
  voidCause : Nat := 0
  deriving DecidableEq, Repr, Inhabited

/-- One output of a step: the token, or the bytes of a tensor. -/
structure StepOutput where
  stream : Nat
  position : Nat
  token : Nat
  tensor : List Byte
  truncated : Bool
  deriving DecidableEq, Repr, Inhabited

/-- A step that has started and is not yet sealed (R346, R353). -/
structure StepRun where
  number : Nat
  cls : Nat
  phase : Nat
  epoch : Nat
  packageTag : Nat
  /-- Its entries in order, from the first pass. -/
  entries : List PlanEntry := []
  passes : Nat := 0
  wcet : Nat := 0
  firstStart : Nat := 0
  lastEnd : Nat := 0
  outputs : List StepOutput := []
  /-- A pass has started; voids under a taint, and reruns on a safe variant (R504, R106). -/
  started : Bool := false
  voids : Nat := 0
  safeRuns : Nat := 0
  tokenVoids : Nat := 0
  /-- A shard whose refetch a rerun waits for (R504). -/
  waitShard : Option Nat := none
  complete : Bool := false
  deriving DecidableEq, Repr, Inhabited

/-- One stream in a decode template: its number, adapter and declared maximum context (R71, R625). -/
structure Member where
  stream : Nat
  adapter : Nat
  context : Nat
  deriving DecidableEq, Repr, Inhabited

/-- The planner (R55 to R75). -/
structure Planner where
  /-- Entries of the current frame, not yet started, in order. -/
  plan : List PlanEntry := []
  /-- Entries that moved to the next frame (R64, R65). -/
  moved : List PlanEntry := []
  /-- Entries fixed at the frame boundary, for SRV_PLAN_ENTRIES, and that boundary's FST. -/
  planned : Nat := 0
  planFrame : Nat := 0
  running : Option PassRun := none
  steps : List StepRun := []
  /-- Decode templates of even and odd frames (class-0 load in planning cycles). -/
  templateEven : Nat := 0
  templateOdd : Nat := 0
  /-- Prefill ledger: planning cycles by frame number (R71). -/
  ledger : KMap Nat := []
  /-- R72: admission runs again at the next frame boundary, with its cause (Table 10-11-b). -/
  rerun : Option Nat := none
  passesStarted : Nat := 0
  /-- SRV_CLASS3_MIN and SRV_INTAKE_INTERVAL of the current frame's plan (R63). -/
  class3Min : Nat := 10
  interval : Nat := 1
  /-- The tenant that class 2 served first in the frame before, and in this one (R344). -/
  lastTenant : Nat := 0
  firstTenant : Option Nat := none
  /-- Members of the templates, with their parity, whose streams have ended: they count until the next frame
  boundary (R74). -/
  leaving : List (Nat × Member) := []
  deriving DecidableEq, Repr, Inhabited
/-! ### Last images, placed (chapter 7) -/

/-- KIND of a flit (Table 3-1). -/
inductive FlitKind where
  | data | control | status | reserved
  deriving DecidableEq, Repr, Inhabited

/-- A flit with its sideband (R81, Table 3-1). -/
structure Flit where
  kind : FlitKind
  first : Bool
  last : Bool
  poison : Bool
  seq : Nat
  payload : Payload
  /-- Pad marks of R137 and R204: the bits of the elements that an address generator supplied as pad. The spec carries
  the marks inside the engine; here they travel beside the payload. -/
  pads : Payload := 0
  deriving DecidableEq, Repr, Inhabited

/-- KIND of a station (Table 7-3). -/
inductive StationKind where
  | matmul | chain | store | welt | port | sync
  deriving DecidableEq, Repr, Inhabited

/-- A station descriptor (Table 7-3). -/
structure StationDesc where
  location : Nat
  kind : StationKind
  seqCheckOff : Bool
  terminal : Bool
  opIndex : Nat
  progCount : Nat
  seqOffset : Nat
  inQ : List Nat
  outQ : List Nat
  deriving DecidableEq, Repr, Inhabited

/-- One sub-array of a MATMUL operation (Table 7-4). -/
structure SubArray where
  region : Nat
  rowOrigin : Nat
  colOrigin : Nat
  validRows : Nat
  validCols : Nat
  deriving DecidableEq, Repr, Inhabited

/-- A MATMUL operation entry (Table 7-4). -/
structure MatmulOp where
  arrayMode : Nat
  stationary : Nat
  redundant : Bool
  accSpill : Bool
  fmtStream : Nat
  mxStream : Bool
  fmtStat : Nat
  mxStat : Bool
  drainFormat : Nat
  order : Nat
  loop : Nat
  band : Nat
  ksplit : Nat
  boundM : Nat
  boundN : Nat
  boundK : Nat
  gridM : Nat
  gridN : Nat
  gridPosM : Nat
  gridPosN : Nat
  ksplitPos : Nat
  subs : List SubArray
  deriving DecidableEq, Repr, Inhabited

/-- An operation entry (Tables 7-4 and 7-5). PORT and SYNC entries keep their 64 bytes: each target's
chapter gives the meaning of the fields from 08h. -/
inductive Operation where
  | matmul (op : MatmulOp)
  | store (role base bytes spillDepth readGen writeGen : Nat)
  | welt (operation dataInputs outputs : Nat) (rotation : List Nat)
  | port (target direction gen : Nat) (fields : List Byte)
  | sync (opcode object : Nat) (args : List Byte)
  /-- An OP_KIND that Tables 7-4 and 7-5 do not have. -/
  | undefined (kind : Nat)
  deriving DecidableEq, Repr, Inhabited

/-- One operand of a chain stage: its source (Table 5-4) and NEG. -/
structure ChainSrc where
  source : Nat
  neg : Bool
  deriving DecidableEq, Repr, Inhabited

/-- One chain stage (Table 7-6). -/
structure ChainStage where
  func : Nat
  a : ChainSrc
  b : ChainSrc
  c : ChainSrc
  cond : Nat
  compare : Nat
  imm : BitVec 32
  deriving DecidableEq, Repr, Inhabited

/-- A chain program (Table 7-6). -/
structure ChainProgram where
  laneForm : Nat
  entryFmt0 : Nat
  entryFmt1 : Nat
  exitFormat : Nat
  exitMx : Bool
  exitLanes : Nat
  rowstat : Nat
  tileRows : Nat
  validRows : Nat
  validLanes : Nat
  maskLimit : Bool
  maskInput : Bool
  maskFill : Bool
  stages : List ChainStage
  deriving DecidableEq, Repr, Inhabited

/-- A queue descriptor (Table 7-7). -/
structure QueueDesc where
  queue : Nat
  producer : Nat
  producerPort : Nat
  consumerPort : Nat
  depth : Nat
  rowFirst : Bool
  control : Bool
  vc : Nat
  deriving DecidableEq, Repr, Inhabited

/-- One entry of a firing sequence (Table 7-8). -/
structure SeqEntry where
  consume : List Nat
  produce : List Nat
  marks : Nat
  sub : Nat
  rpt : Nat
  deriving DecidableEq, Repr, Inhabited

/-- A firing sequence, at its offset in the SEQUENCE section of a die. -/
structure Sequence where
  die : Nat
  offset : Nat
  loopStart : Nat
  entries : List SeqEntry
  deriving DecidableEq, Repr, Inhabited

/-- An address-generator entry (Table 7-9). -/
structure AddrGen where
  location : Nat
  format : Nat
  mx : Bool
  skew : Nat
  space : Nat
  tensor : Nat
  bound : List Nat
  stride : List Int
  order : List Nat
  base : Nat
  deriving DecidableEq, Repr, Inhabited

/-- KIND of an accumulator plan event (Table 7-10). -/
inductive AccEventKind where
  | opn | update | drained | spill | reload
  /-- A KIND that Table 7-10 does not have. -/
  | undefined
  deriving DecidableEq, Repr, Inhabited

/-- One event of an accumulator plan (Table 7-10). -/
structure AccEvent where
  kind : AccEventKind
  region : Nat
  seqEntry : Nat
  tile : Nat
  perRepeat : Bool
  deriving DecidableEq, Repr, Inhabited

/-- An accumulator plan block (Table 7-10). -/
structure AccBlock where
  location : Nat
  zeroMask : Nat
  spillDepth : Nat
  events : List AccEvent
  deriving DecidableEq, Repr, Inhabited

/-- A worst-case execution table (Table 7-11). An unsupported cell is `none`. -/
structure Wcet where
  batch : List Nat
  context : List Nat
  axis : Nat
  cells : List (List (Option Nat))
  deriving DecidableEq, Repr, Inhabited

/-- A bridge entry (R230). -/
structure BridgeEntry where
  start : Nat
  stop : Nat
  bytes01 : Nat
  bytes10 : Nat
  deriving DecidableEq, Repr, Inhabited

/-- The header fields of an image that the module uses after load (Table 7-1). -/
structure ImageHeader where
  imageSize : Nat
  quadrants : Nat
  dieQuads0 : Nat
  dieQuads1 : Nat
  passKind : Nat
  redundant : Bool
  spillDeclared : Bool
  safe : Bool
  storeStreamed : Bool
  placement : Nat
  packageTag : Nat
  safeOf : Nat
  die0Bytes : Nat
  die1Bytes : Nat
  swapCycles : Nat
  maxAdapterRuns : Nat
  layerFirst : Nat
  layerCount : Nat
  deriving DecidableEq, Repr, Inhabited

/-- One die's part of an image. -/
structure DieSection where
  stations : List StationDesc
  operations : List Operation
  programs : List ChainProgram
  queues : List QueueDesc
  sequences : List Sequence
  gens : List AddrGen
  plans : List AccBlock
  deriving DecidableEq, Repr, Inhabited

/-- A last image after parsing and placement (R215 to R233). -/
structure Image where
  lastId : Nat
  header : ImageHeader
  die0 : DieSection
  die1 : DieSection
  wcet : Wcet
  bridge : List BridgeEntry
  deriving DecidableEq, Repr, Inhabited

/-! ### Fabric (chapter 3) -/

/-- Table 3-8. -/
inductive FabState where
  | empty | idle | swapping | running | voiding
  deriving DecidableEq, Repr, Inhabited

/-- Table 7-13. -/
inductive SlotState where
  | free | loading | ready | active | faulted
  deriving DecidableEq, Repr, Inhabited

/-- A configuration-store slot (R236). -/
structure Slot where
  state : SlotState := .free
  lastId : Nat := 0
  die0Bytes : Nat := 0
  die1Bytes : Nat := 0
  image : Option Image := none
  deriving DecidableEq, Repr, Inhabited

/-- A queue of the active last: its flits, credits and what is on the path (R79, R89, R92). -/
structure QueueRun where
  number : Nat
  depth : Nat
  spill : Bool
  /-- Credits that the producer holds. -/
  credits : Nat
  buffer : List Flit := []
  inFlight : List Flit := []
  returning : Nat := 0
  deriving DecidableEq, Repr, Inhabited

/-- A status token that a station is copying to outputs that still lack a copy (R97). -/
structure StatusCopy where
  token : Flit
  outputs : List Nat
  deriving DecidableEq, Repr, Inhabited

/-- Row-statistics state of one row (R187). -/
structure RowStat where
  m : BitVec 32 := 0xFF800000
  s : BitVec 32 := 0
  index : BitVec 32 := 0xFFFFFFFF
  poison : Bool := false
  deriving DecidableEq, Repr, Inhabited

/-- A closed region that drains, or one that spills (R152, R154): its next flit, the valid rectangles
(row, rows, column, columns) of a drain, and the row in which a double-bit error was found (R155). `parts` is how many
partial tiles of other parts of a K split the region still waits for before it may drain (R209). -/
structure Drain where
  region : Nat
  next : Nat := 0
  rects : List (Nat × Nat × Nat × Nat) := []
  badRow : Option Nat := none
  parts : Nat := 0
  tile : Nat := 0
  deriving DecidableEq, Repr, Inhabited

/-- Where a sub-array's result of a streamed vector goes (R150, R151): the region, the output tile that it holds, the
number of the vector in the tile's streamed dimension, and the first K index of the sub-array's use. -/
structure VecTarget where
  sub : Nat
  region : Nat
  tile : Nat
  place : Nat
  k0 : Nat
  deriving DecidableEq, Repr, Inhabited

/-- One streamed vector position with its pad marks, the row of B that goes with it under OS, and what tags it when it
enters the array (R138): the register set in each sub-array, the use and its number in it, the update mode, and where its
results go. -/
structure VecEntry where
  vec : List Byte
  pad : List Byte
  rowB : List Byte := []
  padB : List Byte := []
  poison : Bool := false
  sets : List Bool := []
  use : Nat := 0
  v : Nat := 0
  add : Bool := false
  targets : List VecTarget := []
  deriving DecidableEq, Repr, Inhabited

/-- An output tile that an OS swap has closed and that transfers into the accumulator over D steps (R141). -/
structure Transfer where
  use : Nat
  targets : List VecTarget
  add : Bool
  left : Nat
  deriving DecidableEq, Repr, Inhabited

/-- What a MATMUL station holds besides the register sets and the accumulator of its tile: the loads, staging, the
feeder, the running uses, and the regions that close, drain, spill and reload (R134 to R141, R152 to R154). -/
structure MatmulRun where
  /-- By sub-array: the set that new vectors are tagged with (R138). Bytes loaded since the last swap, and the sub-array
  whose load comes first. Sets (2 × sub-array + set) loaded from a poisoned flit. -/
  tags : List Bool := [false, false, false, false]
  loadPos : Nat := 0
  nextSub : Nat := 0
  badSets : List Nat := []
  /-- Swaps so far, and vectors in the running use. -/
  uses : Nat := 0
  vecs : Nat := 0
  /-- Scales of the streamed operand under WS and IS: those loaded for the next use, those of the running use and of the
  use before it. -/
  scaleNext : List Byte := []
  scaleNow : List Byte := []
  scaleOld : List Byte := []
  /-- Staging of the three ports: bytes not yet used, their pad marks, and whether they came with POISON. -/
  stream : List Byte := []
  streamPad : List Byte := []
  streamPoison : Bool := false
  rowB : List Byte := []
  rowBPad : List Byte := []
  reload : List Byte := []
  reloadPoison : Bool := false
  /-- Entries of the feeder's queues, oldest first (R136), and the last vector positions, newest first (R135). -/
  feeder : List VecEntry := []
  skew : List VecEntry := []
  /-- Output-stationary partial sums by 16,384 × (use mod 2) + 4,096 × sub-array + 64 × row + column, those that
  overflowed, the uses (mod 2) with a poisoned operand, and the scales of the running block. -/
  partials : KMap (BitVec 32) := []
  partialOver : List Nat := []
  partialBad : List Nat := []
  scaleA : List Byte := []
  scaleB : List Byte := []
  transfers : List Transfer := []
  /-- The last targets, as (sub-array, region, tile), and how many vectors have gone to them. -/
  lastTargets : List (Nat × Nat × Nat) := []
  placed : Nat := 0
  /-- By tile: its K-uses before the running one, the swaps at its last update, and the K-uses of that use. -/
  kUse : KMap Nat := []
  seenUse : KMap Nat := []
  kBands : KMap Nat := []
  /-- Regions written, as (use, sub-array, region), newest first: those of the last two uses. -/
  wrote : List (Nat × Nat × Nat) := []
  closes : Nat := 0
  /-- Regions that have closed and whose updates are outstanding, those that drain, and those that spill. -/
  closing : List Drain := []
  drains : List Drain := []
  spills : List Drain := []
  /-- For each flit that firings have started and an output has not yet sent: whether the firing consumed POISON. -/
  owed0 : List Bool := []
  owed1 : List Bool := []
  /-- Regions whose reload is due, with their tile and the elements written so far; elements of the partial tile of
  another part of a K split that have come, by region; overflowed places of the tiles that have spilled. -/
  reloads : List (Nat × Nat × Nat) := []
  reduce : KMap Nat := []
  partsDone : KMap Nat := []
  spillOver : KMap (List Nat) := []
  deriving DecidableEq, Repr, Inhabited

/-- The staging register of an input port (R167): the bytes that no firing has used, whether they came poisoned, and
whether the newest flit was the last of its tile. -/
structure PortStage where
  bytes : List Byte := []
  poison : Bool := false
  last : Bool := false
  deriving DecidableEq, Repr, Inhabited

/-- What a CHAIN station holds (R167, R177, R187). -/
structure ChainRun where
  staging0 : PortStage := {}
  staging1 : PortStage := {}
  staging2 : PortStage := {}
  staging3 : PortStage := {}
  rowvec : List (BitVec 32) := []
  colvec : List (BitVec 32) := []
  limvec : List (BitVec 32) := []
  /-- By program: the next row of the tile, and the tiles of the series so far. -/
  row : List Nat := [0, 0, 0, 0]
  tile : List Nat := [0, 0, 0, 0]
  out : List Byte := []
  outPoison : Bool := false
  outFirst : Bool := true
  /-- Side data tiles that wait, oldest first, with their poison; flits of the first already sent. -/
  side : List (List Byte × Bool) := []
  sideSent : Nat := 0
  /-- Scales of the rows so far, and α of each row of the tile. -/
  scales : List Byte := []
  alphas : KMap (BitVec 32) := []
  stats : KMap RowStat := []
  deriving DecidableEq, Repr, Inhabited

/-- A flit that a PORT station reads (R87): its elements as the first bit and the bytes that hold each
(`none` for a pad), how many bits of the first come before the flit, the sectors not yet asked for, those asked for, and the bytes that have
come. A read of the store or of the host has the id of its access. -/
structure PortRead where
  id : Nat
  width : Nat
  lead : Nat
  elems : List (Option (Nat × List Nat))
  ask : List Nat
  wants : List Nat
  got : List Host.Cell := []
  poison : Bool := false
  first : Bool
  last : Bool
  seq : Nat
  cancelled : Bool := false
  /-- Byte offset of a read on a lace, whose number is `id` (Table 12-3). -/
  offset : Nat := 0
  deriving DecidableEq, Repr, Inhabited

/-- What one station of the active last holds while it runs. -/
structure StationRun where
  entry : Nat := 0
  done : Nat := 0
  copy : Option StatusCopy := none
  /-- WELT: the bound port, where 4 stands for a discarded tile (R98, R100); place in the rotation;
  inputs whose END_OF_PASS has come (R102). -/
  bound : Option Nat := none
  rotation : Nat := 0
  ended : List Nat := []
  /-- Data tiles sent on each output, for TILE_SEQ. -/
  tiles : List Nat := [0, 0, 0, 0]
  /-- STORE: flits held. -/
  fifo : List Flit := []
  /-- PORT taking DATA packets: for each flit that firings have started and not yet sent, whether it is poisoned (R93). -/
  owed : List Bool := []
  /-- How far the generators have come: the blocks that they have visited, or in a skewed layout the elements of the stream
  (R250); and the flits and the last payload of the tile that is being written. -/
  readPos : Nat := 0
  writePos : Nat := 0
  writeFlit : Nat := 0
  writePrev : Payload := 0
  /-- Whether the flit before in the tile that is being written carried POISON (R88). -/
  writeBad : Bool := false
  /-- Terminal PORT: END_OF_PASS consumed (R115). PORT: reads and writes outstanding (R87). -/
  passEnded : Bool := false
  reads : List PortRead := []
  writes : Nat := 0
  /-- PORT: sectors of its writes that wait for a place among MAX_OUTSTANDING, as address, bytes and bit masks (R271). -/
  writeQueue : List (Nat × List Byte × List Byte) := []
  /-- PORT: a status token has been consumed, and nothing more is written to a lace, a dispatch or the host (R376). -/
  muted : Bool := false
  matmul : MatmulRun := {}
  chain : ChainRun := {}
  deriving DecidableEq, Repr, Inhabited

/-- A histogram bank (R122 to R126): counts by slot, queue number and column 0 to 9. -/
structure HistBank where
  counts : KMap Nat := []
  samples : KMap Nat := []
  lastIds : KMap Nat := []
  interval : Nat := 1024
  start : Nat := 0
  stop : Nat := 0
  seq : Nat := 0
  deriving DecidableEq, Repr, Inhabited

/-- The fabric, the configuration store and the loader (chapters 3 to 7). -/
structure Fabric where
  state : FabState := .empty
  activeSlot : Option Nat := none
  swapTarget : Option Nat := none
  slot0 : Slot := {}
  slot1 : Slot := {}
  slot2 : Slot := {}
  slot3 : Slot := {}
  /-- Loads accepted and waiting, in request order, as (slot, image index); the load in progress. -/
  loadQueue : List (Nat × Nat) := []
  loading : Option (Nat × Nat) := none
  loadFault : List Byte := []
  loads : Nat := 0
  loadFaults : Nat := 0
  queues : List QueueRun := []
  stations : List StationRun := []
  /-- Parameter block of the running pass (R225). -/
  params : List Nat := []
  /-- When the join guard counter was last zero, in fabric cycles of uptime; its value while no pass runs and while a
  context is saved or restored (R103). -/
  guardZero : Nat := 0
  guardHeld : Nat := 0
  swapLast : Nat := 0
  passCount : Nat := 0
  stallCount : Nat := 0
  pairMismatch : Nat := 0
  residue : Nat := 0
  safeReruns : Nat := 0
  meshCorrected : Nat := 0
  snapshot : Option (List Byte) := none
  snapFst : Nat := 0
  snapLost : Nat := 0
  /-- R107: (LAST_ID, batch bucket, context bucket) that run on the safe variant; those of them that the stalls of
  this frame added, which are costed from the safe variant's table from the next frame's plan on. -/
  safeSet : List (Nat × Nat × Nat) := []
  safeNew : List (Nat × Nat × Nat) := []
  histAcc : HistBank := {}
  histRead : Option HistBank := none
  histFrames : Nat := 0
  /-- FAB_HIST_FRAMES in force since the last exchange (R125). -/
  histPeriod : Nat := 50
  nextRead : Nat := 0
  deriving DecidableEq, Repr, Inhabited

/-- The matrix engines of the module (chapter 4), with the accumulator memory of every work tile:
FP32 elements by 65,536 × tile + 4,096 × region + 64 × row + column, zero where unlisted. -/
structure Engine where
  acc : KMap (BitVec 32) := []
  /-- Contents of SET0 and SET1 of the cells, and their pad marks, by 2 × work tile + set: the loads of the sub-arrays one
  after another; zero where not listed (R138, R165). -/
  sets : KMap (List Byte) := []
  setPads : KMap (List Byte) := []
  /-- Regions (16 × tile + region) that are closed, and that are marked (R152, R158). -/
  closed : List Nat := []
  marked : List Nat := []
  /-- Positions of marked regions that have been written in SET mode since they were marked, by accumulator key. -/
  setSeen : KMap Nat := []
  /-- Elements that hold an infinity which a finite sum rounded to (R148). -/
  overflowed : List Nat := []
  /-- MXE_CHECK_MODE and MXE_CHECK_TOL of the running pass (R164). -/
  checkMode : Nat := 1
  checkTol : Nat := 14
  vectorMismatches : Nat := 0
  useMismatches : Nat := 0
  redundantMismatches : Nat := 0
  skipped : Nat := 0
  invalid : Nat := 0
  overflow : Nat := 0
  shadowStalls : Nat := 0
  feederStalls : Nat := 0
  accCorrected : Nat := 0
  quadMismatches : List Nat := [0, 0, 0, 0, 0, 0, 0, 0]
  passMismatches : Nat := 0
  record : Option (List Byte) := none
  recordsLost : Nat := 0
  spilled : Nat := 0
  reloaded : Nat := 0
  budgetFaults : Nat := 0
  deriving DecidableEq, Repr, Inhabited

/-- Counters of the vector chains (Table 5-12). -/
structure ChainCounters where
  rows : Nat := 0
  overflowRows : Nat := 0
  invalidRows : Nat := 0
  rangeRows : Nat := 0
  poisonRows : Nat := 0
  deriving DecidableEq, Repr, Inhabited
/-! ### Memory tiers (chapter 8) -/

/-- Table 8-5. -/
inductive StackState where
  | off | init | ready | degraded | failed
  deriving DecidableEq, Repr, Inhabited

/-- A line of an insole cache (R257): 272 bytes, the four sectors with their check symbols (R260). -/
structure CacheLine where
  tag : Nat
  valid : List Bool
  dirty : List Bool
  bytes : List Byte
  deriving DecidableEq, Repr, Inhabited

/-- Who made an access of an insole. -/
inductive Requester where
  | station (index : Nat) | engine
  deriving DecidableEq, Repr, Inhabited

/-- A sector access that an insole has not yet completed (R258, R266). A read carries the decoder mode
that was in force when it started (R263). -/
structure SectorRead where
  id : Nat
  requester : Requester
  mpa : Nat
  mode : Nat
  noAllocate : Bool
  cancelled : Bool
  deriving DecidableEq, Repr, Inhabited

structure SectorWrite where
  id : Nat
  requester : Requester
  mpa : Nat
  bytes : List Byte
  /-- The bits of each byte to write. -/
  mask : List Byte
  noAllocate : Bool
  /-- The decoder mode that the access started with (R263). -/
  mode : Nat := 0
  deriving DecidableEq, Repr, Inhabited

/-- One HBM stack and its insole (R255 to R269). -/
structure Insole where
  state : StackState := .off
  /-- INS_ECC_MODE in force; a change takes effect at a slot boundary (R263). -/
  mode : Nat := 0
  hits : Nat := 0
  misses : Nat := 0
  writebacks : Nat := 0
  correctedOne : Nat := 0
  correctedTwo : Nat := 0
  uncorrectable : Nat := 0
  poisonReads : Nat := 0
  /-- Degraded pins as 34 × pseudo-channel + pin, and INS_EYE_MIN. -/
  degraded : List Nat := []
  eyeMin : Nat := 0
  eyeAdjusts : Nat := 0
  scrubDone : Nat := 0
  /-- Sampling delay of each pin in 1/64 unit interval, and corrections counted against each pin. -/
  delays : KMap Int := []
  pinCorrections : KMap Nat := []
  /-- The cache: lines by 16 × set + way, and the 15 tree bits of each set. -/
  lines : KMap CacheLine := []
  plru : KMap Nat := []
  deriving DecidableEq, Repr, Inhabited

/-- STATE of a page table entry (Table 8-6). -/
inductive PageState where
  | free | resident | movingOut | parked | movingIn
  deriving DecidableEq, Repr, Inhabited

/-- A KV page table entry (Table 8-6); GROUP is that of the owning stream. -/
structure PageEntry where
  hostSlot : Option Nat := none
  frame : Nat := 0
  group : Nat := 0
  tokens : Nat := 0
  hostValid : Bool := false
  dirty : Bool := false
  state : PageState := .free
  deriving DecidableEq, Repr, Inhabited

/-- A park or unpark in progress for a stream (R278): pages still to move, pages moved. -/
structure PageMove where
  out : Bool
  left : List Nat
  moved : Nat
  deriving DecidableEq, Repr, Inhabited

/-- An access of a generator of a memory tile: its fabric cycle, its station and its sub-banks, as lane bank and number in
it (R246, R247). -/
structure BankClaim where
  cycle : Nat
  tile : Nat
  station : Nat
  gen : Nat
  banks : List (Nat × Nat)
  deriving DecidableEq, Repr, Inhabited

/-- Memory of the module. `sram` holds byte 524,288 × memory tile + offset; `hbm` holds symbol
68 × (MPA / 64) + i of the sectors in the stacks (R262). Unlisted bytes read as zero, which is what
power-on leaves in SRAM (R283) and INIT in every sector (R269). -/
structure Memory where
  sram : List Host.Cell := []
  hbm : List Host.Cell := []
  sramCorrected : Nat := 0
  sramPoisoned : Nat := 0
  bankStalls : Nat := 0
  insoles : List Insole := [{}, {}, {}, {}, {}, {}, {}, {}, {}, {}]
  reads : List SectorRead := []
  writes : List SectorWrite := []
  nextAccess : Nat := 0
  protections : Nat := 0
  padFlits : Nat := 0
  /-- Sub-banks that the generators of memory tiles have claimed in the latest fabric cycle (R247). -/
  claims : List BankClaim := []
  deriving DecidableEq, Repr, Inhabited

/-- KV pages, frames and parking slots (R272 to R281). Pages are keyed 512 × stream + page. -/
structure Pages where
  table : KMap PageEntry := []
  framesTotal : Nat := 0
  freeFrames : List Nat := []
  moves : KMap PageMove := []
  /-- Pages waiting for a frame, in request order, as (stream, page). -/
  frameWait : List (Nat × Nat) := []
  /-- Parks and unparks asked for and not yet started. -/
  parkAsked : List Nat := []
  bytesOut : Nat := 0
  bytesIn : Nat := 0
  skippedClean : Nat := 0
  failed : Nat := 0
  deriving DecidableEq, Repr, Inhabited
/-! ### Weight store, staging and switching (chapter 9) -/

/-- Table 9-2. -/
inductive StoreStackState where
  | off | init | ready | readOnly | failed
  deriving DecidableEq, Repr, Inhabited

/-- One store stack (R284 to R291). -/
structure StoreStack where
  state : StoreStackState := .off
  wear : Nat := 0
  spareBlocks : Nat := 0
  readBytes : Nat := 0
  relocations : Nat := 0
  retries : Nat := 0
  uncorrectable : Nat := 0
  /-- Read-disturb counters by erase block, kept in flash metadata (R290, R325). -/
  disturb : KMap Nat := []
  /-- The 1 ms window in which each block was last counted. -/
  touched : KMap Nat := []
  deriving DecidableEq, Repr, Inhabited

/-- A last entry of a model manifest (Table 7-16). -/
structure LastEntry where
  digest : List Byte
  role : Nat
  quadrants : Nat
  dieQuads : Nat
  spillPlan : Nat
  safe : Bool
  residentSafe : Bool
  shard : Nat
  offset : Nat
  deriving DecidableEq, Repr, Inhabited

/-- A tensor entry of a manifest (Table 7-16). -/
structure TensorEntry where
  shard : Nat
  offset : Nat
  bytes : Nat
  format : Nat
  die : Nat
  stackMask : Nat
  deriving DecidableEq, Repr, Inhabited

/-- A spill plan entry (Table 7-16). -/
structure SpillPlan where
  plan : Nat
  ranges : List (Nat × Nat)
  hbm0 : Nat
  hbm1 : Nat
  deriving DecidableEq, Repr, Inhabited

/-- An adapter record (R244). -/
structure AdapterRec where
  id : Nat
  rank : Nat
  format : Nat
  tensorFirst : Nat
  layerFirst : Nat
  layerCount : Nat
  base : Nat
  deriving DecidableEq, Repr, Inhabited

/-- A manifest, parsed (Table 7-16, R244). -/
structure Manifest where
  tag : Nat
  digest : List Byte
  name : List Byte
  layers : Nat
  maxContext : Nat
  hbm0 : Nat
  hbm1 : Nat
  lasts : List LastEntry
  tensors : List TensorEntry
  spills : List SpillPlan
  adapters : List AdapterRec
  signer : Nat
  keySerial : Nat
  deriving DecidableEq, Repr, Inhabited

/-- A shard as stored (Table 9-3), with its bytes, and how often the patrol has failed it in a row. -/
structure Shard where
  digest : List Byte
  size : Nat
  kind : Nat
  die : Nat
  expert : Nat
  optional : Bool
  present : Bool
  corrupt : Bool
  data : List Byte
  patrolFails : Nat := 0
  deriving DecidableEq, Repr, Inhabited

/-- A package (kind 1) or adapter set (kind 2) of the catalogue (Table 9-4). -/
structure StoredPackage where
  manifest : Manifest
  kind : Nat
  baseTag : Nat
  shards : List Shard
  deriving DecidableEq, Repr, Inhabited

/-- A last of a staged package: its image bytes in the system region (R243) and what Iandaol plans
from, which stays in control-core memory (R218). -/
structure StagedLast where
  lastId : Nat
  bytes : List Byte
  passKind : Nat
  placement : Nat
  spillPlan : Nat
  safe : Bool
  residentSafe : Bool
  safeOf : Nat
  swapCycles : Nat
  imageSize : Nat
  maxAdapterRuns : Nat
  layerFirst : Nat
  layerCount : Nat
  wcet : Wcet
  /-- It holds dispatch PORT stations (R422). -/
  pool : Bool
  deriving DecidableEq, Repr, Inhabited

/-- A staged set of weights: an epoch, or a staging that has not yet become one (R306, R315). -/
structure Resident where
  epoch : Nat
  manifest : Manifest
  plan : Nat
  lasts : List StagedLast
  /-- Shards kept in HBM, and those that no pass may read while they are refetched (R320). -/
  kept : List Nat
  refetching : List Nat := []
  /-- Of those, the ones whose copy has been rewritten: passes read them again from the next slot boundary. -/
  refetched : List Nat := []
  /-- Adapters that streams may select (R322), and experts held at capacity zero (R307). -/
  adapters : List Nat
  /-- Adapters that become selectable at the next slot boundary. -/
  adaptersNext : List Nat := []
  expertsZero : List Nat
  /-- Numbers of the half-frame pairs withdrawn for it (R305). -/
  withdrawn : List Nat
  /-- Pairs withdrawn for adapters that were installed later (R322), and half-frame pairs that the weight region of
  a package first staged makes when it is released (R318). -/
  adapterFrames : List Nat := []
  region : Nat := 0
  /-- R321: no pass is planned until the package is staged again. -/
  lost : Bool := false
  deriving DecidableEq, Repr, Inhabited

/-- A staging in progress: the next shard and the reads of it so far (R306, R307). -/
structure Staging where
  epochOnly : Bool
  /-- Shards in the order in which they are read, as (package, shard number), and the next of them. -/
  order : List (Nat × Nat) := []
  next : Nat
  attempts : Nat
  target : Resident
  deriving DecidableEq, Repr, Inhabited

/-- The staging of an adapter set whose base is resident (R322): its shards left to read, and reads of the next so far. -/
structure AdapterLoad where
  tag : Nat
  left : List Nat
  attempts : Nat := 0
  ids : List Nat
  deriving DecidableEq, Repr, Inhabited

/-- Table 9-8. -/
inductive SwitchState where
  | idle | staging | staged | switching
  deriving DecidableEq, Repr, Inhabited

/-- STO_OP_STATE. -/
inductive OpState where
  | idle | running | done | failed
  deriving DecidableEq, Repr, Inhabited

/-- The store, staging and switching (Tables 9-11 to 9-13). -/
structure Store where
  flash : List StoreStack := [{}, {}, {}, {}, {}, {}, {}, {}]
  catalogue : List StoredPackage := []
  catalogueSeq : Nat := 0
  installMode : Bool := false
  opState : OpState := .idle
  opCmd : Nat := 0
  opResult : Nat := 0
  opProgress : Nat := 0
  /-- STO_OP_TAG and STO_OP_LENGTH of the running operation. -/
  opTag : Nat := 0
  opLength : Nat := 0
  switchState : SwitchState := .idle
  switchKind : Nat := 0
  switchTarget : Nat := 0
  switchForce : Bool := false
  switchPlan : Nat := 0xFF
  switchResult : Nat := 0
  staging : Option Staging := none
  staged : Option Resident := none
  stagedTag : Nat := 0
  stageBytes : Nat := 0
  stageDone : Nat := 0
  loadedAhead : Option Nat := none
  active : Option Resident := none
  /-- FAB_PACKAGE_TAG: the package first staged, whose images R234 reloads, and its manifest. -/
  packageTag : Nat := 0
  baseManifest : Option Manifest := none
  old : Option Resident := none
  epoch : Nat := 0
  capacityStep : Nat := 0
  refetches : Nat := 0
  mismatches : Nat := 0
  scrubDone : Nat := 0
  scrubNext : Nat := 0
  /-- Uptime, in slots, at which the last digest scrub began (R319). -/
  scrubStart : Option Nat := none
  /-- Adapter sets being staged, in order of their installation (R322). -/
  adapterLoads : List AdapterLoad := []
  deriving DecidableEq, Repr, Inhabited
/-! ### Serving (chapter 10) -/

/-- Table 10-1. A stream that is FREE has no entry in the stream table. -/
inductive StreamState where
  | pending | active | idle | parked | ending
  deriving DecidableEq, Repr, Inhabited

/-- A turn: one input and the outputs it produces (R328, R338). -/
structure Turn where
  reqTag : Nat
  kind : Nat
  format : Nat
  rowBytes : Nat
  units : Nat
  maxNew : Nat
  stops : List Nat
  lateDiscard : Bool
  firstDeadline : Nat
  tokenDeadline : Nat
  /-- Frame in which the record was read; the frame that its acceptance boundary opens. -/
  readFrame : Nat
  accepted : Option Nat := none
  /-- Bytes of the input buffer it holds, and whether its copy is complete (R337). -/
  buffer : Nat := 0
  copied : Bool := false
  copyFailed : Bool := false
  /-- A token carried from the turn before (R338); input units consumed; outputs sealed. -/
  carry : Option Nat := none
  consumed : Nat := 0
  outputs : Nat := 0
  /-- The test of R71 is still to be made, at the boundary that would accept it (R310, R338). -/
  untested : Bool := false
  deriving DecidableEq, Repr, Inhabited

/-- A stream (R326, R328). -/
structure Stream where
  state : StreamState
  cls : Nat
  openedCls : Nat
  tenant : Nat
  keep : Bool
  pin : Bool
  /-- Held under R345, and R310. -/
  held : Bool := false
  heldSwitch : Bool := false
  /-- Sealed tokens. -/
  context : Nat := 0
  epoch : Nat := 0
  adapter : Nat
  packageTag : Nat
  maxContext : Nat
  seed : BitVec 32
  temperature : BitVec 32
  outOffset : Nat
  outEntries : Nat
  outEntryBytes : Nat
  outProducer : Nat := 0
  outConsumer : Nat := 0
  turn : Option Turn := none
  queued : List Turn := []
  /-- A CANCEL waiting for a seal, with TURN_ONLY (R351); a PARK and a CLOSE waiting for the turn's
  end (R334). -/
  cancelAsked : Option Bool := none
  parkAsked : Option Nat := none
  closeAsked : Option Nat := none
  unparkTag : Option Nat := none
  /-- An unpark that waits for a park in progress, with its tag. -/
  unparkAsked : Option Nat := none
  /-- Original acceptance FST, frame of the last seal, and the parity of its decode reservation. -/
  acceptFst : Nat := 0
  lastSeal : Option Nat := none
  parity : Option Nat := none
  /-- Prefill that the ledger holds for the stream, by frame (R71). -/
  reserved : KMap Nat := []
  /-- Its first page has left RESIDENT: its reservations go at the next frame boundary (R74). -/
  parkDue : Bool := false
  /-- Why a class-0 stream is class 1 now (cause of Table 10-11-b). -/
  downgraded : Option Nat := none
  /-- The last output token of the stream that is not yet in its context (R338). -/
  lastToken : Option Nat := none
  deriving DecidableEq, Repr, Inhabited

/-- An event record (R354) without its severity, which R622 fixes by code. -/
structure Event where
  fst : Nat
  code : Nat
  group : Nat
  arg0 : Nat
  arg1 : Nat
  arg2 : Nat
  deriving DecidableEq, Repr, Inhabited

/-- A NOTICE entry (Table 10-9). -/
structure Notice where
  stream : Nat
  status : Nat
  reqTag : Nat
  kind : Nat
  flags : Nat
  data : Nat
  deriving DecidableEq, Repr, Inhabited

/-- A completion ring: PRODUCER and CONSUMER in units (R329, R347). -/
structure CompRing where
  producer : Nat := 0
  consumer : Nat := 0
  deriving DecidableEq, Repr, Inhabited

/-- Sums of a group over a budget window (R356). -/
structure GroupSum where
  cycles : Nat := 0
  wcet : Nat := 0
  steps : Nat := 0
  late : Nat := 0
  lateDiscarded : Nat := 0
  worst : Nat := 0
  deriving DecidableEq, Repr, Inhabited

/-- The intake ring and the read in progress (R331, R337). -/
structure Intake where
  consumer : Nat := 0
  producer : Nat := 0
  /-- Records that the read in progress may still take, and the frame of the boundary at which it began (R331). -/
  left : Nat := 0
  frame : Nat := 0
  /-- Streams whose inputs of this read are being copied; CONSUMER is to be written after them. -/
  copying : List Nat := []
  copyDue : Bool := false
  reads : Nat := 0
  records : Nat := 0
  faults : Nat := 0
  bufferUsed : Nat := 0
  deriving DecidableEq, Repr, Inhabited

/-- What the seal of a step decides for one stream (R346, R350 to R352): the entry it writes, whether there
is one, and the positions that become sealed. -/
structure SealRow where
  stream : Nat
  reqTag : Nat := 0
  entry : Bool
  outStatus : Nat := 0
  token : Nat := 0
  position : Nat := 0
  late : Bool := false
  turnEnd : Bool := false
  streamEnd : Bool := false
  truncated : Bool := false
  endStatus : Nat := 0
  output : Bool := false
  delivered : Bool := false
  units : Nat := 0
  suppressed : Bool := false
  turnOnly : Bool := false
  deriving DecidableEq, Repr, Inhabited

/-- A seal that has begun (R346): its step, its rows, and the FST at which its records are written; whether it
is committed (R461); and PRODUCER of the completion rings before it, by group. -/
structure Seal where
  step : Nat
  fst : Nat
  rows : List SealRow
  committed : Bool
  saved : List (Nat × Nat)
  deriving DecidableEq, Repr, Inhabited

/-- Streams, rings, tenants and events (chapter 10). -/
structure Serving where
  streams : KMap Stream := []
  intake : Intake := {}
  comp : KMap CompRing := []
  /-- NOTICE entries that wait to be written, by group, oldest first, and those that become due at the
  next slot boundary (R348). -/
  notices : KMap (List Notice) := []
  noticesLater : KMap (List Notice) := []
  eventProducer : Nat := 0
  eventConsumer : Nat := 0
  eventsLost : Nat := 0
  /-- Events that reached only the log since the ring last had room, and events that wait to be written
  to the ring, oldest first (R354). -/
  eventsPending : Nat := 0
  eventQueue : List Event := []
  log : List Event := []
  stepSeq : Nat := 1
  tenantUsed : KMap Nat := []
  budgets : KMap Nat := []
  budgetsNext : Option (KMap Nat) := none
  window : Nat := 0
  sums : KMap GroupSum := []
  report : KMap GroupSum := []
  reportSeq : Nat := 0
  budgetRefusals : Nat := 0
  stepsSealed : Nat := 0
  outputsLate : Nat := 0
  outputsSuppressed : Nat := 0
  /-- Seals that have begun and are not complete. -/
  sealing : List Seal := []
  deriving DecidableEq, Repr, Inhabited
/-! ### Synchronization (chapter 11) -/

/-- Table 11-3. -/
inductive NodeState where
  | opn | complete | releasing | reopening | broken
  deriving DecidableEq, Repr, Inhabited

/-- A sync object (Table 11-2), with the waits registered at it in order. -/
structure SyncObj where
  value : Nat := 0
  target : Nat := 0
  round : Nat := 0
  parent : Nat := 0
  state : NodeState := .opn
  phase : Bool := false
  barrier : Bool := false
  root : Bool := false
  spanNode : Bool := false
  cause : Nat := 0
  quadArrived : List Nat := [0, 0, 0, 0, 0, 0, 0, 0]
  quadTarget : List Nat := [0, 0, 0, 0, 0, 0, 0, 0]
  waits : List WaitReg := []
  /-- Children that have answered RELEASED in this round (R371). -/
  answers : Nat := 0
  deriving DecidableEq, Repr, Inhabited

/-- One enabled input of a SYNC station (R366, R370, R374). -/
structure Participant where
  phase : Bool := false
  /-- The tile at the head may move; it is held, since when and for how many cycles before. -/
  pass : Bool := false
  arrived : Bool := false
  registered : Bool := false
  heldSince : Option Nat := none
  heldBefore : Nat := 0
  /-- The status token that the next tile is preceded by (R375), and whether one was sent. -/
  token : Option Nat := none
  tokenSent : Bool := false
  deriving DecidableEq, Repr, Inhabited

/-- A choice that has been sent and has no RETURN yet, or whose RETURN has come and whose row has not
left (R433, R436, R438). -/
structure Choice where
  no : Nat
  gen : Nat
  host : Nat
  layer : Nat
  expert : Nat
  station : Nat
  row : Nat
  rank : Nat
  sentAt : Nat
  resent : Bool
  /-- It has been sent under the generation in force. -/
  sent : Bool
  msg : DispatchMsg
  result : Option (List Byte × Bool) := none
  deriving DecidableEq, Repr, Inhabited

/-- A row that a dispatch station has taken: its kept weights by rank, and its choice count. -/
structure DispatchRow where
  station : Nat
  row : Nat
  count : Nat
  experts : List Nat
  gates : List (BitVec 32)
  kept : List Bool
  poison : Bool
  deriving DecidableEq, Repr, Inhabited

/-- The batch of a pool pass that is pre-empted (R439). -/
structure SavedBatch where
  batchId : Option Nat
  gen : Nat
  nextNo : Nat
  choices : List Choice
  rows : List DispatchRow
  sentTo : KMap Nat
  closedNos : List Nat
  deriving DecidableEq, Repr, Inhabited

/-- A saved context (R379 to R386): the fabric state of the pass, and what to do at its resume. -/
structure SavedContext where
  run : PassRun
  /-- SAVE_FST, the working mask and REMOTE_GEN of the image's header (Table 11-7). -/
  saveFst : Nat
  mask : Nat
  remoteGen : Nat
  queues : List QueueRun
  stations : List StationRun
  params : List Nat
  acc : KMap (BitVec 32)
  sets : KMap (List Byte)
  setPads : KMap (List Byte)
  closed : List Nat
  marked : List Nat
  setSeen : KMap Nat
  overflowed : List Nat
  sram : List Host.Cell
  lastId : Nat
  pair : Nat
  reads : Nat
  /-- The join guard counter, and the pass's running time so far. -/
  guard : Nat
  elapsed : Nat
  /-- The checking mode that the pass started with, and its mismatches (R160, R164). -/
  checkMode : Nat
  checkTol : Nat
  passMismatches : Nat
  saveCycles : Nat
  /-- Releases to apply at the restore: an input of a SYNC station, or a bank node, with a CAUSE (R385). -/
  releases : List (Nat × Nat)
  batch : SavedBatch
  /-- The context is to be discarded at the next slot boundary (Table 11-8). -/
  lost : Bool := false
  participants : KMap Participant
  tileObjs : KMap SyncObj
  deriving DecidableEq, Repr, Inhabited

/-- What the fabric is doing about pre-emption. -/
inductive PreemptPhase where
  | none | saving | restoring
  deriving DecidableEq, Repr, Inhabited

/-- Sync objects and contexts. Tile objects are keyed 4 × site + index, bank objects 512 × pair + index,
participants 4 × station + input. An unlisted object is in the reset state of Table 11-2. -/
structure Sync where
  tiles : KMap SyncObj := []
  banks : KMap SyncObj := []
  participants : KMap Participant := []
  /-- Step bound to each window pair 0 to 6 (R362). -/
  pairs : List (Option Nat) := [none, none, none, none, none, none, none]
  spanBound : Bool := false
  remoteGen : Nat := 0
  phase : PreemptPhase := .none
  preemptStart : Nat := 0
  context : Option SavedContext := none
  preemptions : Nat := 0
  guardExpiries : Nat := 0
  ownerLosses : Nat := 0
  stale : Nat := 0
  saturated : Nat := 0
  deriving DecidableEq, Repr, Inhabited
/-! ### Laces and the torus (chapter 12) -/

/-- Table 12-6. -/
inductive LaceState where
  | off | dark | training | hello | up | narrow | leaving | down
  deriving DecidableEq, Repr, Inhabited

/-- A control message to send (Table 12-4). -/
inductive ControlMsg where
  | hello (m : HelloMsg)
  | helloAck (m : HelloMsg) (echo : Nat)
  | notReady (retry : Nat)
  | replayReq (fromSeq : Nat)
  | linkNotice (m : LinkNoticeMsg)
  | goodbye (position : Nat)
  | spanHello (origin tag mask : Nat)
  | spanFault (origin seq tag lace : Nat)
  deriving DecidableEq, Repr, Inhabited

/-- A packet: its header and its data slots. -/
structure Packet where
  vc : Nat
  header : PacketHeader
  flits : List Flit
  /-- For a packet in transit: the lace whose receive buffer holds it, its VC there and the pool (R397). -/
  origin : Option (Nat × Nat × Bool) := none
  deriving DecidableEq, Repr, Inhabited

/-- What is to be sent on a lace. -/
inductive LaceTx where
  | packet (p : Packet) | control (m : ControlMsg)
  deriving DecidableEq, Repr, Inhabited

/-- A slot of a frame that is sent (R393). -/
inductive TxSlot where
  | idle | header (vc : Nat) (h : PacketHeader) | data (vc : Nat) (x : Flit) | control (m : ControlMsg)
  deriving DecidableEq, Repr, Inhabited

/-- A frame that was sent (Table 12-2). -/
structure TxFrame where
  seq : Nat
  ack : Nat
  epoch : Nat
  narrow : Bool
  credits : List (Nat × Bool × Nat)
  slots : List TxSlot
  deriving DecidableEq, Repr, Inhabited

/-- One lace (R389 to R403). -/
structure Lace where
  state : LaceState := .off
  cause : Nat := 0
  width : Nat := 0
  latency : Nat := 0
  peer : Nat := 0
  fecCorrected : Nat := 0
  fecUncorrectable : Nat := 0
  replays : Nat := 0
  retrains : Nat := 0
  trainings : Nat := 0
  /-- LCE_RETRAINS has counted the next training already, since the last one did not finish (R401). -/
  retrainCounted : Bool := false
  ringAdjusts : Nat := 0
  rxPowerMin : Int := 0
  flitsSent : Nat := 0
  discarded : Nat := 0
  linkEpoch : Nat := 0
  /-- Next FRAME_SEQ to send and to accept; frames held for replay, oldest first (R395). -/
  txSeq : Nat := 0
  rxSeq : Nat := 0
  replayBuffer : List TxFrame := []
  awaitReplay : Bool := false
  /-- Packets and messages waiting for credits or for room in the replay buffer. -/
  waiting : List LaceTx := []
  /-- Sender's credits: dedicated by VC, and shared (R397). -/
  dedicated : List Nat := [264, 264, 264, 264, 264, 264, 264, 264]
  shared : Nat := 10176
  /-- Credits to return in the next frames, as (VC, shared, slots). -/
  creditReturns : List (Nat × Bool × Nat) := []
  /-- Slots of receive buffers that packets sent on this lace have left, as (lace, VC, shared, slots). -/
  freed : List (Nat × Nat × Bool × Nat) := []
  /-- Packet being received on each VC: header and flits so far. -/
  receiving : KMap (PacketHeader × List Flit) := []
  /-- HELLO handshake (R402): HELLO_ACK sent and received, peer checks passed, slots to wait. -/
  ackSent : Bool := false
  ackReceived : Bool := false
  peerGood : Bool := false
  helloWait : Nat := 0
  /-- When retrains failed and replays were made, newest first, in fabric cycles of uptime (R395, R411); a
  failed lane keeps the lace at half width. -/
  retrainFails : List Nat := []
  replayTimes : List Nat := []
  halfWidth : Bool := false
  narrowSlots : Nat := 0
  /-- The lace was DOWN before this training, so that UP sends RETURNED (R414). -/
  wasDown : Bool := false
  /-- When the training under way began, in fabric cycles of uptime (R401), and the slot of uptime in which the lace went
  DOWN (R402). -/
  trainStart : Nat := 0
  downSince : Nat := 0
  deriving DecidableEq, Repr, Inhabited

/-- Table 12-7. -/
inductive SpanState where
  | forming | intact | detoured | broken
  deriving DecidableEq, Repr, Inhabited

/-- The torus, the span and the laser inputs. Laces of other modules that are down are kept as
4 × (8y + x) + lace; changes of routes that wait for EFFECTIVE are notices. -/
structure Torus where
  laces : List Lace := [{}, {}, {}, {}]
  position : Option Nat := none
  rackId : Nat := 0
  spanMask : Nat := 0
  spanTag : Nat := 0
  spanState : SpanState := .intact
  /-- SPAN_HELLOs that have come, as (ORIGIN, SPAN_TAG, SPAN_MASK). -/
  hellos : List (Nat × Nat × Nat) := []
  missing : List Nat := []
  lacesDown : List Nat := []
  pendingNotices : List LinkNoticeMsg := []
  /-- Forwarded notices as (ORIGIN, NOTICE_SEQ), SPAN_HELLOs as (ORIGIN, SPAN_TAG). -/
  seen : List (Nat × Nat) := []
  seenHello : List (Nat × Nat) := []
  noticeSeq : Nat := 0
  /-- Tags of spans that a SPAN_FAULT is due for within this command (R412). -/
  faultDue : List Nat := []
  unreachable : Nat := 0
  detoured : Nat := 0
  /-- Whether laser inputs A and B of each eyelet carry light. -/
  laserA : List Bool := [true, true, true, true, true, true]
  laserB : List Bool := [true, true, true, true, true, true]
  deriving DecidableEq, Repr, Inhabited
/-! ### Expert dispatch (chapter 13) -/

/-- Uplink states of Table 13-7. -/
inductive UplinkState where
  | off | down | up
  deriving DecidableEq, Repr, Inhabited

/-- One uplink, with the message it sent last: its TYPE (Table 13-5), the host it went to, and its fields. -/
structure Uplink where
  state : UplinkState := .off
  cause : Nat := 0
  txFrames : Nat := 0
  rxFrames : Nat := 0
  rxDiscards : Nat := 0
  fecCorrected : Nat := 0
  fecUncorrectable : Nat := 0
  lastSent : Option (Nat × Nat × DispatchMsg) := none
  advertised : Nat := 0
  deriving DecidableEq, Repr, Inhabited

/-- Entries of the dispatch tables (Table 13-2). -/
structure HostEntry where
  address : Nat
  port : Nat
  switch : Nat
  valid : Bool
  sends : Bool
  serves : Bool
  credits : Nat
  rackId : Nat
  position : Nat
  deriving DecidableEq, Repr, Inhabited

structure MapEntry where
  layer : Nat
  expert : Nat
  host : Nat
  quota : Nat
  deriving DecidableEq, Repr, Inhabited

structure ServeEntry where
  layer : Nat
  expert : Nat
  capacity : Nat
  deriving DecidableEq, Repr, Inhabited

structure WindowEntry where
  start : Nat
  length : Nat
  kind : Nat
  deriving DecidableEq, Repr, Inhabited

/-- A credit of a cancelled generation still out (R437): its batch, generation, host and number, and when it was
cancelled, in fabric cycles of uptime. -/
structure CancelledChoice where
  batch : Nat
  gen : Nat
  host : Nat
  no : Nat
  since : Nat
  deriving DecidableEq, Repr, Inhabited

/-- A dispatch that has arrived at a serve station (R434). A host of FFFFh is the module itself. -/
structure Arrival where
  host : Nat
  no : Nat
  gen : Nat
  layer : Nat
  expert : Nat
  cls : Nat
  flags : Nat
  uplink : Nat
  row : List Byte
  poison : Bool
  taken : Bool
  deriving DecidableEq, Repr, Inhabited

/-- Dispatch state of the module. -/
structure Dispatch where
  uplinks : List Uplink := List.replicate 32 {}
  hosts : KMap HostEntry := []
  expertMap : List MapEntry := []
  serveMap : List ServeEntry := []
  windows : List WindowEntry := []
  /-- Tables committed and not yet in force (R63, R423). -/
  nextHosts : Option (KMap HostEntry) := none
  nextMap : Option (List MapEntry) := none
  nextServe : Option (List ServeEntry) := none
  nextWindows : Option (List WindowEntry) := none
  /-- Hosts that are LOST, and windows in a row with a lost return, by host (R424). -/
  lost : List Nat := []
  lossRun : KMap Nat := []
  lossNow : List Nat := []
  /-- Claims of each step by 2^32 × step + 65,536 × layer + expert (R428). -/
  claims : KMap Nat := []
  batchId : Option Nat := none
  gen : Nat := 0
  nextNo : Nat := 0
  choices : List Choice := []
  rows : List DispatchRow := []
  /-- Credits in use by host, and those of cancelled generations still out. -/
  inUse : KMap Nat := []
  cancelled : List CancelledChoice := []
  closedNos : List Nat := []
  /-- Dispatches sent in the batch, by host (Table 13-5), and whether BATCH_END has gone out. -/
  sentTo : KMap Nat := []
  endSent : Bool := false
  arrivals : List Arrival := []
  /-- First fragments waiting for the second, as (host, number, bytes). -/
  fragments : List (Nat × Nat × List Byte) := []
  /-- BATCH_END counts by host; serve stations whose batch has closed. -/
  ends : KMap Nat := []
  arrived : KMap Nat := []
  closedStations : List Nat := []
  dispatches : Nat := 0
  drops : Nat := 0
  skips : Nat := 0
  returns : Nat := 0
  staleReturns : Nat := 0
  duplicates : Nat := 0
  resends : Nat := 0
  returnsLost : Nat := 0
  reclaimed : Nat := 0
  unknownSource : Nat := 0
  served : Nat := 0
  refused : Nat := 0
  deriving DecidableEq, Repr, Inhabited
/-! ### Host link (chapter 14) -/

/-- Table 14-2. -/
inductive UcieState where
  | off | training | active | retrain | down
  deriving DecidableEq, Repr, Inhabited

/-- Who made an access of host memory, for Table 14-8. -/
inductive HostReq where
  /-- A seal write of a step (R346); whether it advances a PRODUCER index (R461). -/
  | seal (step : Nat) (index : Bool)
  /-- NOTICE records, the PRODUCER writes that publish them, index zeroing (R358, R461). -/
  | notice
  | zeroing
  /-- An event record, or the PRODUCER of the event ring that publishes it (R354). -/
  | event (index : Bool)
  /-- CONSUMER of the intake ring (R337). -/
  | intakeConsumer
  /-- An output entry of a step, written by a host PORT station (R349). -/
  | output (step station : Nat)
  /-- A WINDOW access of a host PORT station (R349). -/
  | window (station : Nat)
  /-- A translation-table read for a die and entry (R452). -/
  | translation (die entry : Nat)
  deriving DecidableEq, Repr, Inhabited

/-- An access of host memory: `bytes` are those of a write. -/
structure HostAccess where
  die : Nat
  write : Bool
  offset : Nat
  chunks : Nat
  headSkip : Nat
  tailSkip : Nat
  bytes : List Byte
  req : HostReq
  deriving DecidableEq, Repr, Inhabited

/-- A MEM_ request that is outstanding on a UCIe module (R446), with the HPA it carries. -/
structure HostOutstanding where
  tag : Nat
  address : Nat
  access : HostAccess
  received : List Byte := []
  /-- When it was sent, in fabric cycles of uptime (R459). -/
  sentAt : Nat := 0
  /-- Translated before the invalidation that waits for it (R452). -/
  oldTranslation : Bool := false
  deriving DecidableEq, Repr, Inhabited

/-- An answer the module has sent to a WIN_ request. -/
structure WinReply where
  tag : Nat
  isRead : Bool
  status : Nat
  data : List Byte
  /-- The aperture offset that was asked for (Table 14-3). -/
  offset : Nat := 0
  deriving DecidableEq, Repr, Inhabited

/-- One UCIe module (R443 to R448). -/
structure UcieModule where
  state : UcieState := .off
  speed : Nat := 0
  repaired : Nat := 0
  crcErrors : Nat := 0
  replays : Nat := 0
  retrains : Nat := 0
  txBytes : Nat := 0
  rxBytes : Nat := 0
  headerCredits : Nat := 256
  chunkCredits : Nat := 2048
  outstanding : List HostOutstanding := []
  /-- The answer sent last, and answers that wait for credits (R447). -/
  reply : Option WinReply := none
  waitReplies : List WinReply := []
  /-- The 240 payload bytes of each flit that carried the message sent last (R445). -/
  txFlits : List (List Byte) := []
  /-- Header and chunk credits of the CREDIT message sent last (R447). -/
  creditSent : Nat × Nat := (0, 0)
  /-- It trains at 16 GT/s, since 32 GT/s failed (R443); when retrainings failed, newest first, in fabric cycles of
  uptime (R458); the slot of uptime in which it went DOWN (R444). -/
  slow : Bool := false
  retrainFails : List Nat := []
  downSince : Nat := 0
  deriving DecidableEq, Repr, Inhabited

/-- A cached translation entry (Table 14-6): entry number and its 64 bits. -/
structure AttEntry where
  entry : Nat
  bits : BitVec 64
  deriving DecidableEq, Repr, Inhabited

/-- A dictionary request slot of the host link (R457). -/
structure DictSlot where
  seq : Nat := 0
  doneSeq : Nat := 0
  request : List Byte := []
  response : List Byte := []
  deriving DecidableEq, Repr, Inhabited

/-- The host link. Translation caches hold the most recently used entry first. -/
structure HostLink where
  modules : List UcieModule := [{}, {}, {}, {}]
  up : Bool := false
  trained : Nat := 0
  att0 : List AttEntry := []
  att1 : List AttEntry := []
  invSeq : Nat := 0
  /-- An invalidation whose earlier accesses are not all complete. -/
  invPending : Nat := 0
  /-- Writes that must follow one another, in the order in which they are to be made: seal writes, then
  notices and index zeroing, then the intake CONSUMER; the first of them, or an event write, is
  outstanding when the chain is busy (R453, R461). -/
  ordered : List HostAccess := []
  orderedBusy : Bool := false
  /-- Accesses that wait for a translation, and translated ones that wait for credits. -/
  waitTranslation : List HostAccess := []
  waitCredit : List HostOutstanding := []
  attMisses : Nat := 0
  accessFaults : Nat := 0
  readErrors : Nat := 0
  writeErrors : Nat := 0
  slots : List DictSlot := List.replicate 16 {}
  deriving DecidableEq, Repr, Inhabited
/-! ### Dictionary and field network (chapter 15) -/

/-- Table 15-1. -/
inductive FieldState where
  | off | waitBeacon | inCycle | fault
  deriving DecidableEq, Repr, Inhabited

/-- Table 15-6. -/
inductive TxState where
  | opn | scheduled | committed | refused | rolledBack
  deriving DecidableEq, Repr, Inhabited

/-- A staged write (R484, R486): a value, or the segments of a DOMAIN, newest first, and its TOTAL. -/
structure StagedItem where
  index : Nat
  sub : Nat
  domain : Bool
  value : List Byte
  total : Nat := 0
  segments : List (Nat × List Byte) := []
  deriving DecidableEq, Repr, Inhabited

/-- A transaction (R485 to R491). `reqId` is that of its COMMIT, which is answered at the outcome. -/
structure Tx where
  id : Nat
  state : TxState := .opn
  session : Session
  items : List StagedItem := []
  idle : Nat := 0
  /-- The boundary named, as an FST once SCHEDULED; RESULT_FST once ended. `next` says that AT was 0 (R488). -/
  at_ : Nat := 0
  next : Bool := false
  /-- Slot boundaries still to pass before that of AT. -/
  due : Nat := 0
  /-- Place of the COMMIT in the order of receipt (R490). -/
  order : Nat := 0
  reqId : Nat := 0
  cause : Nat := 0
  causeIndex : Nat := 0
  causeSub : Nat := 0
  deriving DecidableEq, Repr, Inhabited

/-- A response as sent (Table 15-3): where to, and its bytes. -/
structure Reply where
  session : Session
  reqId : Nat
  /-- UDP port that it was sent from (R472). -/
  port : Nat
  bytes : List Byte
  deriving DecidableEq, Repr, Inhabited

/-- The dictionary engine and the field-network port. -/
structure Dict where
  txs : List Tx := []
  /-- The last 32 transactions that ended, oldest first. -/
  ended : List Tx := []
  nextId : Nat := 1
  commitOrder : Nat := 0
  /-- Field responses with the slot of their answer, newest first, up to 256 (R474). -/
  cache : List (Nat × Reply) := []
  /-- All-nodes READs whose answer waits (R473): due slot, request and items. -/
  delayed : List (Nat × Request × List (Nat × Nat)) := []
  /-- The last field-network response, and the Neighbor Advertisement sent last (R471). -/
  lastReply : Option Reply := none
  advertised : Nat := 0
  /-- Content and DOMAIN_SEQ of each DOMAIN when last looked at (R483). -/
  domainSeen : KMap (List Byte × Nat) := []
  requests : Nat := 0
  errors : Nat := 0
  duplicates : Nat := 0
  committed : Nat := 0
  refused : Nat := 0
  rolledBack : Nat := 0
  /-- Status of the last command that stands for a commit (Table 15-5): 0 where it was accepted. -/
  lastStatus : Nat := 0
  field : FieldState := .off
  plca : Bool := false
  nodeId : Nat := 1
  nodeCount : Nat := 9
  toTimer : Nat := 32
  burst : Nat := 0
  /-- Whether a Neighbor Solicitation of R471 has been sent, and the address is in use. -/
  solicited : Bool := false
  addressUsed : Bool := false
  rxFrames : Nat := 0
  txFrames : Nat := 0
  discards : Nat := 0
  beaconLosses : Nat := 0
  deriving DecidableEq, Repr, Inhabited
/-! ### Reliability (chapter 16) -/

/-- Table 16-3. -/
inductive QuadState where
  | working | suspect | fencing | fenced | unfencing | off
  deriving DecidableEq, Repr, Inhabited

/-- RAS_SERVICE_STATE. -/
inductive ServiceState where
  | serving | noStep | outOfService
  deriving DecidableEq, Repr, Inhabited

/-- A test of an awl set (Table 16-4). -/
structure AwlTest where
  id : Nat
  target : Nat
  destructive : Bool
  cycles : Nat
  expect : BitVec 64
  deriving DecidableEq, Repr, Inhabited

/-- A pushed awl set (R529). -/
structure AwlSet where
  id : Nat
  version : Nat
  size : Nat
  tests : List AwlTest
  deriving DecidableEq, Repr, Inhabited

/-- Kinds of strike of R515. -/
inductive StrikeKind where
  | arith | stream | stall
  deriving DecidableEq, Repr, Inhabited

/-- A quadrant. The tests of the run in progress are (SET_ID, test), first the next one to end. -/
structure Quadrant where
  state : QuadState := .working
  /-- FST of each strike in the window, oldest first (R515, R517). -/
  strikes : List Nat := []
  lastStrike : Nat := 0
  /-- Kinds that have struck in the running pass, whose record waits for its end (R516). -/
  passStrikes : List StrikeKind := []
  cause : Nat := 0
  /-- SOURCE of what asked for the fence; 0 for a command. -/
  source : Nat := 0
  awlClean : Bool := false
  /-- The DESTRUCTIVE run of R527: tests left, and whether one has failed. -/
  run : List (Nat × AwlTest) := []
  running : Bool := false
  runFailed : Bool := false
  /-- NON_DESTRUCTIVE tests of the slice in progress; tests left of a targeted run (R516) and of the
  cover (R526). -/
  slice : List (Nat × AwlTest) := []
  targeted : List (Nat × AwlTest) := []
  cover : List (Nat × AwlTest) := []
  /-- The slice in progress is one of the cover. -/
  covering : Bool := false
  coverDone : Nat := 0
  lastResult : Nat := 0
  lastTest : Nat := 0
  deriving DecidableEq, Repr, Inhabited

/-- Containment, records and the awl (Tables 16-9 to 16-13). -/
structure Ras where
  claimMode : Nat := 0
  service : ServiceState := .serving
  stepsVoided : Nat := 0
  stepsFailed : Nat := 0
  groupResets : Nat := 0
  weightErrors : Nat := 0
  quads : List Quadrant := [{}, {}, {}, {}, {}, {}, {}, {}]
  /-- Groups to reset at the next slot boundary, with the SOURCE of the cause (R511). -/
  resetGroups : KMap Nat := []
  recordSeq : Nat := 0
  /-- RAS_RECORD_LOG and RAS_RECORD_PERSIST, oldest first, 360 bytes each. -/
  log : List (List Byte) := []
  persist : List (List Byte) := []
  /-- The record being written to the persistent log, and those queued behind it (R533). -/
  persistWrite : Option (List Byte) := none
  persistQueue : List (List Byte) := []
  recordsLost : Nat := 0
  /-- Pushed sets that are resident, and as the store keeps them (R529, R536). -/
  sets : List AwlSet := []
  storedSets : List AwlSet := []
  awlRuns : Nat := 0
  awlFails : Nat := 0
  /-- Corrected errors of each unit since its last corrected record (R530). -/
  corrected : KMap Nat := []
  degradedRaised : Bool := false
  deriving DecidableEq, Repr, Inhabited
/-! ### Power and hot swap (chapter 17) -/

/-- Table 17-3. -/
inductive DomainState where
  | off | starting | on | stopping | fault | unpopulated
  deriving DecidableEq, Repr, Inhabited

/-- A switched domain (R537 to R544). -/
structure Domain where
  state : DomainState := .off
  fault : BitVec 16 := 0
  /-- PENDING: enables accepted as pending since the domain last left ON. -/
  pending : Nat := 0
  /-- A disable that waits for the start to complete; the minimum off time is being served. -/
  disableAsked : Bool := false
  minOff : Bool := false
  /-- The clock when STARTING, STOPPING or the minimum off time began. -/
  since : Nat := 0
  power : Nat := 0
  starts : Nat := 0
  deriving DecidableEq, Repr, Inhabited

/-- PWR_HOTSWAP_STATE. -/
inductive HotSwap where
  | inService | draining | readyToRemove
  deriving DecidableEq, Repr, Inhabited

/-- Why the domains are being stopped in order. -/
inductive StopReason where
  | reset (cause : Nat) | powerFail | eject
  deriving DecidableEq, Repr, Inhabited

/-- Power, cap, temperature, feed and hot swap. -/
structure Power where
  /-- Those with no site behind them on the part are UNPOPULATED; the reset state is that of LFM-CQ9A. -/
  domains : List Domain :=
    (List.range 20).map fun d => if Part.a.populated d then {} else { state := .unpopulated }
  /-- k of the σ in force, and the effective cap it follows. -/
  k : Nat := 16
  /-- Level of the CAP_FAST pins in force; a raise that waits, and whether it has held for a full slot. -/
  fastLevel : Nat := 0
  fastNext : Option (Nat × Bool) := none
  /-- A cap change that is to be costed at the next boundary (R549, R64). -/
  recost : Bool := false
  /-- Half watts taken off the thermal cap, and slots for which every sensor has been 3 °C below the limit. -/
  thermalDrop : Nat := 0
  coolSlots : Nat := 0
  thermalRaised : Bool := false
  breach : Bool := false
  breaches : Nat := 0
  tempMax : Int := 0
  inputPower : Nat := 0
  inputVoltage : Nat := 0
  hotSwap : HotSwap := .inService
  feed : Nat := 0
  holdup : Nat := 0
  drainStart : Nat := 0
  /-- EJECT_REQ asks for a drain; the frame that EFFECTIVE opens, and that EFFECTIVE has come. -/
  ejectAsked : Bool := false
  /-- EJECT_REQ came after the pulse of a boundary whose actions are still to run (R18). -/
  ejectLate : Bool := false
  drainFrame : Option Nat := none
  drainEffective : Bool := false
  /-- The steps of R556 that wait for notices, laces and the PWR_EJECT_READY write have passed. -/
  ejectNotices : Bool := false
  ejectWritten : Bool := false
  warn : Bool := false
  /-- t_w in nominal fabric cycles of uptime (R554). -/
  warnAt : Nat := 0
  /-- The clock when PWR_FAIL_WARN was last released, and at EFFECTIVE of the drain. -/
  releasedAt : Nat := 0
  effectiveAt : Nat := 0
  warnings : Nat := 0
  /-- Domains are being stopped in order, for this reason; groups still to stop. -/
  stopping : Option StopReason := none
  stopLeft : List (List Nat) := []
  shutDown : Bool := false
  presenceBroken : Bool := false
  trip : Bool := false
  underVoltage : Bool := false
  coreOff : Bool := false
  ejectReady : Bool := false
  deriving DecidableEq, Repr, Inhabited
/-! ### Start-up (chapter 18) -/

/-- Table 18-3. -/
inductive ModuleState where
  | rom | bootFailed | bringUp | ready | serving
  deriving DecidableEq, Repr, Inhabited

/-- A firmware bank that holds an image (Table 18-4). -/
structure FwBank where
  image : List Byte
  valid : Bool
  deriving DecidableEq, Repr, Inhabited

/-- SEC_FW_LOAD_STATE. -/
inductive LoadState where
  | idle | running | done | failed
  deriving DecidableEq, Repr, Inhabited

/-- Reset, boot record, firmware banks, identity memories and the timeline. -/
structure Boot where
  state : ModuleState := .rom
  cause : Nat := 1
  count : Nat := 0
  readyFst : Nat := 0
  late : Nat := 0
  uptime : Nat := 0
  /-- Slots since the ROM start; rows of Table 18-6 that have begun and that have completed. -/
  slots : Nat := 0
  begun : List Nat := []
  completed : List Nat := []
  /-- The boot record (R572). -/
  active : Nat := 0
  trial : Bool := false
  recordSeq : Nat := 0
  bankA : Option FwBank := none
  bankB : Option FwBank := none
  /-- The bank that runs; a trial boot, and a rollback to be reported (R574). -/
  running : Option Nat := none
  trialBoot : Bool := false
  rollbackDue : Bool := false
  version : Nat := 0
  securityVersion : Nat := 0
  signer : Nat := 0
  digest : List Byte := []
  loadState : LoadState := .idle
  /-- The image being programmed (R577). -/
  loadImage : List Byte := []
  rollbacks : Nat := 0
  /-- PWR_IDM_STATE and PWR_IDM_DATA of the five memories, and complete rereads. -/
  idmState : List Nat := [0, 0, 0, 0, 0]
  idmData : List (List Byte) := [[], [], [], [], []]
  idmReads : Nat := 0
  /-- A reset waits for its COMMIT response (R563); MODULE_RST_L holds the module in reset. -/
  resetHeld : Bool := false
  restart : Option Nat := none
  /-- Memories whose Limfel record a reread has changed, which apply at the next boundary (R581); 8 + n stands for a
  changed grid of memory n. -/
  identityDue : List Nat := []
  deriving DecidableEq, Repr, Inhabited
/-! ### Security (chapter 19) -/

/-- A key of the key store (Table 19-3). -/
structure KeyRec where
  kind : Nat
  serial : Nat
  usage : Nat
  seq : Nat
  key : List Byte
  raw : List Byte
  deriving DecidableEq, Repr, Inhabited

/-- An enrolment slot (R595 to R597). -/
inductive OwnerSlot where
  | free | enrolled (hash key : List Byte) | revoked
  deriving DecidableEq, Repr, Inhabited

/-- SEC_DEBUG_STATE. -/
inductive DebugState where
  | locked | unlockPending | unlocked | opn
  deriving DecidableEq, Repr, Inhabited

/-- SEC_ATTEST_STATE. -/
inductive AttestState where
  | idle | generating | ready
  deriving DecidableEq, Repr, Inhabited

/-- Keys, ownership, attestation and debug. -/
structure Security where
  rootSlot : Nat := 0
  owners : List OwnerSlot := [.free, .free, .free, .free]
  ownerFw : Bool := false
  /-- The owner's key has been fused since the last slot boundary: it verifies from the next on (R596). -/
  ownerFresh : Bool := false
  /-- SEC_TICKET_NONCE is draw `nonce` of the entropy source. -/
  nonce : Nat := 0
  keys : List KeyRec := []
  revoked : List Nat := []
  keySeq : Nat := 0
  /-- The attestation key (R599): derived at each reset once the firmware bank has verified, and none before. -/
  attestKey : Option (List Byte) := none
  /-- The alias certificate is issued at each reset: number of its signature's draw. -/
  certDraw : Nat := 0
  attest : AttestState := .idle
  report : List Byte := []
  signDraw : Nat := 0
  debug : DebugState := .locked
  minSvn : Nat := 0
  sigFailures : Nat := 0
  deriving DecidableEq, Repr, Inhabited

/-- The block. -/
structure State where
  /-- The part that was ordered (R5): fixed at assembly. -/
  part : Part := .a
  /-- Commands that wait, first in, first out. The model's own field: DESIGN CHOICE, safe (log entry 3). -/
  pending : List Instr := []
  /-- Draws made so far from the free values of Config. The model's own field: DESIGN CHOICE, safe (log
  entry 4). -/
  free : Nat := 0
  /-- Values of configuration objects that differ from their defaults, by 256 × index + subindex, and
  the bytes of configuration objects of type DOMAIN. -/
  regs : KMap Nat := []
  blobs : KMap (List Byte) := []
  tb : TimeBase := {}
  planner : Planner := {}
  fab : Fabric := {}
  mxe : Engine := {}
  chn : ChainCounters := {}
  mem : Memory := {}
  pages : Pages := {}
  store : Store := {}
  srv : Serving := {}
  syn : Sync := {}
  lce : Torus := {}
  dsp : Dispatch := {}
  hlk : HostLink := {}
  dict : Dict := {}
  ras : Ras := {}
  pwr : Power := {}
  boot : Boot := {}
  sec : Security := {}
  deriving DecidableEq, Repr, Inhabited

/-- What makes a command stop. -/
inductive Fault where
  /-- Raised by a command whose operand names a unit that the part does not have, such as quadrant 9: no such command can reach the block. Safe. -/
  | noSuchUnit
  deriving DecidableEq, Repr, Inhabited

/-- Why a command is not carried out. -/
inductive Refusal where
  /-- A row of the opcode table that has no meaning yet. Safe. -/
  | notModelled (mnemonic : String)
  deriving DecidableEq, Repr, Inhabited

/-- The block right after power-on reset, with an empty queue. Where the spec gives a field no reset value, the default
is a DESIGN CHOICE, unsafe (log entry 1). -/
def State.reset : State := {}

end Sys2Proof.Machine
end

