-- ==== Sys2Proof/Machine/Objects.lean ====
section
/-! DEFINITION. The object dictionary's index (R23, R476, R493): for every object its type, access, default
and stated range, as the object tables of the chapters give them, and the named keys of the objects. The
key of an object is 256 × index + subindex. -/

namespace Sys2Proof.Machine

/-- Types of Table 15-2. -/
inductive ObjType where
  | u8 | u16 | u32 | u64 | i32 | f32 | fst | str | domain
  deriving DecidableEq, Repr, Inhabited

/-- Access codes of R23. -/
inductive Access where
  | ro | rw | wo | tx
  deriving DecidableEq, Repr, Inhabited

/-- Default of an object; some depend on the part (Table 17-12). -/
inductive Default where
  | value (n : Nat) | maxSustained | floor | minCap
  deriving DecidableEq, Repr, Inhabited

/-- Stated range of an object. -/
inductive Range where
  /-- Every value of the type. -/
  | any
  | upTo (min max : Nat)
  /-- 0 to a maximum, or FFh. -/
  | upToOrFF (max : Nat)
  /-- A power of two between bounds, or zero where allowed. -/
  | power (min max : Nat) (zero : Bool)
  /-- A multiple of 4,096, and of 2 MiB. -/
  | pages | largePages
  /-- The part's minimum cap to its maximum sustained power (Table 17-8). -/
  | caps
  /-- A DOMAIN of at most so many bytes. -/
  | bytes (max : Nat)
  deriving DecidableEq, Repr, Inhabited

/-- A row of an object table: the indices and subindices it covers. -/
structure ObjRow where
  lo : Nat
  hi : Nat
  subLo : Nat
  subHi : Nat
  type : ObjType
  access : Access
  default : Default
  range : Range
  deriving DecidableEq, Repr, Inhabited

namespace Reg

/-! Keys of the objects; a banked object has the key of its first index. -/

abbrev FAB_DIE_COUNT : Nat := 0x200001
abbrev FAB_QUADRANTS_WORKING : Nat := 0x200002
abbrev FAB_WORKING_MASK : Nat := 0x200003
abbrev INS_STACK_COUNT : Nat := 0x200004
abbrev LCE_EYELET_COUNT : Nat := 0x200005
abbrev STO_STACK_COUNT : Nat := 0x200006
abbrev HLK_MODULES_TRAINED : Nat := 0x200007
abbrev FAB_VARIANT : Nat := 0x200008
abbrev FAB_PEAK_FP8 : Nat := 0x200009
abbrev SRV_TB_STATE : Nat := 0x400001
abbrev SRV_FST_NOW : Nat := 0x400002
abbrev SRV_HOLDOVER_SLOTS : Nat := 0x400003
abbrev SRV_FREF_MISSED : Nat := 0x400004
abbrev SRV_FREF_OUT_OF_WINDOW : Nat := 0x400005
abbrev SRV_FRAME_MARK_FAULTS : Nat := 0x400006
abbrev SRV_PHASE_ERROR : Nat := 0x400007
abbrev SRV_FRAME_COUNT_LOAD : Nat := 0x400008
abbrev SRV_REALIGN_CMD : Nat := 0x400009
abbrev SRV_REFCLK_STATE : Nat := 0x40000A
abbrev SRV_CLASS0_SHARE : Nat := 0x400101
abbrev SRV_CLASS3_MIN : Nat := 0x400102
abbrev SRV_INTAKE_INTERVAL : Nat := 0x400103
abbrev SRV_FENCE_RESERVE : Nat := 0x400104
abbrev SRV_CLASS0_LOAD_EVEN : Nat := 0x400105
abbrev SRV_CLASS0_LOAD_ODD : Nat := 0x400106
abbrev SRV_CLASS0_HEADROOM : Nat := 0x400107
abbrev SRV_PLAN_ENTRIES : Nat := 0x400108
abbrev SRV_PLAN_FRAME : Nat := 0x400109
abbrev FAB_STATE : Nat := 0x201001
abbrev FAB_ACTIVE_SLOT : Nat := 0x201002
abbrev FAB_JOIN_GUARD : Nat := 0x201003
abbrev FAB_SWAP_LAST_CYCLES : Nat := 0x201004
abbrev FAB_PASS_COUNT : Nat := 0x201005
abbrev FAB_STALL_COUNT : Nat := 0x201006
abbrev FAB_PAIR_MISMATCH_COUNT : Nat := 0x201007
abbrev FAB_RESIDUE_COUNT : Nat := 0x201008
abbrev FAB_SAFE_RERUNS : Nat := 0x201009
abbrev FAB_MESH_CORRECTED : Nat := 0x20100A
abbrev FAB_SNAP_VALID : Nat := 0x201101
abbrev FAB_SNAP_FST : Nat := 0x201102
abbrev FAB_SNAP_LOST : Nat := 0x201103
abbrev FAB_SNAP_DATA : Nat := 0x201104
abbrev FAB_SNAP_RELEASE : Nat := 0x201105
abbrev FAB_SAMPLE_INTERVAL : Nat := 0x201201
abbrev FAB_HIST_FRAMES : Nat := 0x201202
abbrev FAB_HIST_SEQ : Nat := 0x201203
abbrev FAB_HIST_READY : Nat := 0x201204
abbrev MXE_CHECK_MODE : Nat := 0x202001
abbrev MXE_CHECK_TOL : Nat := 0x202002
abbrev MXE_VECTOR_MISMATCHES : Nat := 0x202003
abbrev MXE_USE_MISMATCHES : Nat := 0x202004
abbrev MXE_REDUNDANT_MISMATCHES : Nat := 0x202005
abbrev MXE_CHECK_SKIPPED : Nat := 0x202006
abbrev MXE_INVALID_COUNT : Nat := 0x202007
abbrev MXE_OVERFLOW_COUNT : Nat := 0x202008
abbrev MXE_SHADOW_STALL_STEPS : Nat := 0x202009
abbrev MXE_FEEDER_STALL_STEPS : Nat := 0x20200A
abbrev MXE_ACC_CORRECTED : Nat := 0x20200B
abbrev MXE_QUAD_MISMATCHES : Nat := 0x202101
abbrev MXE_REC_VALID : Nat := 0x202201
abbrev MXE_REC_DATA : Nat := 0x202202
abbrev MXE_REC_RELEASE : Nat := 0x202203
abbrev MXE_REC_LOST : Nat := 0x202204
abbrev CHN_ROWS : Nat := 0x203001
abbrev CHN_OVERFLOW_ROWS : Nat := 0x203002
abbrev CHN_INVALID_ROWS : Nat := 0x203003
abbrev CHN_RANGE_ROWS : Nat := 0x203004
abbrev CHN_POISON_ROWS : Nat := 0x203005
abbrev CHN_TABLE_REV : Nat := 0x203006
abbrev MXE_SPILLED_REGIONS : Nat := 0x204001
abbrev MXE_RELOADED_REGIONS : Nat := 0x204002
abbrev MEM_PAD_FLITS : Nat := 0x204003
abbrev MXE_ACC_BUDGET_FAULTS : Nat := 0x204004
abbrev FAB_SLOT_STATE : Nat := 0x205001
abbrev FAB_SLOT_LAST_ID : Nat := 0x205005
abbrev FAB_LOADS : Nat := 0x205009
abbrev FAB_LOAD_FAULTS : Nat := 0x20500A
abbrev FAB_LOAD_FAULT_REC : Nat := 0x20500B
abbrev FAB_PACKAGE_TAG : Nat := 0x20500C
abbrev FAB_CAPACITY_STEP : Nat := 0x20500D
abbrev FAB_SPILL_PLAN : Nat := 0x20500E
abbrev MEM_SRAM_CORRECTED : Nat := 0x300001
abbrev MEM_SRAM_POISONED : Nat := 0x300002
abbrev MEM_BANK_STALLS : Nat := 0x300003
abbrev INS_STACK_STATE : Nat := 0x301001
abbrev INS_ECC_MODE : Nat := 0x301002
abbrev INS_CACHE_HITS : Nat := 0x301003
abbrev INS_CACHE_MISSES : Nat := 0x301004
abbrev INS_WRITEBACKS : Nat := 0x301005
abbrev INS_CORRECTED_ONE : Nat := 0x301006
abbrev INS_CORRECTED_TWO : Nat := 0x301007
abbrev INS_UNCORRECTABLE : Nat := 0x301008
abbrev INS_POISON_READS : Nat := 0x301009
abbrev INS_PINS_DEGRADED : Nat := 0x30100A
abbrev INS_EYE_MIN : Nat := 0x30100B
abbrev INS_EYE_ADJUSTS : Nat := 0x30100C
abbrev INS_SCRUB_DONE : Nat := 0x30100D
abbrev MEM_PROTECTION_COUNT : Nat := 0x302001
abbrev INS_SCRUB_HOURS : Nat := 0x302002
abbrev MEM_KV_FRAMES_TOTAL : Nat := 0x303001
abbrev MEM_KV_FRAMES_FREE : Nat := 0x303002
abbrev MEM_KV_PAGES_PARKED : Nat := 0x303003
abbrev MEM_PARK_BASE : Nat := 0x303004
abbrev MEM_PARK_SLOTS : Nat := 0x303005
abbrev MEM_PARK_RATE : Nat := 0x303006
abbrev MEM_PARK_BYTES_OUT : Nat := 0x303007
abbrev MEM_PARK_BYTES_IN : Nat := 0x303008
abbrev MEM_PARK_SKIPPED_CLEAN : Nat := 0x303009
abbrev MEM_PARK_FAILED : Nat := 0x30300A
abbrev STO_STACK_STATE : Nat := 0x304001
abbrev STO_EXTENTS_USED : Nat := 0x304002
abbrev STO_WEAR : Nat := 0x304003
abbrev STO_SPARE_BLOCKS : Nat := 0x304004
abbrev STO_READ_BYTES : Nat := 0x304005
abbrev STO_RELOCATIONS : Nat := 0x304006
abbrev STO_READ_RETRIES : Nat := 0x304007
abbrev STO_READ_UNCORRECTABLE : Nat := 0x304008
abbrev STO_MODE : Nat := 0x305001
abbrev STO_OP_CMD : Nat := 0x305002
abbrev STO_OP_SOURCE : Nat := 0x305003
abbrev STO_OP_LENGTH : Nat := 0x305004
abbrev STO_OP_TAG : Nat := 0x305005
abbrev STO_OP_STATE : Nat := 0x305006
abbrev STO_OP_RESULT : Nat := 0x305007
abbrev STO_OP_PROGRESS : Nat := 0x305008
abbrev STO_CATALOGUE : Nat := 0x305009
abbrev STO_BYTES_FREE : Nat := 0x30500A
abbrev STO_DISTURB_LIMIT : Nat := 0x30500B
abbrev STO_STORE_SCRUB_DAYS : Nat := 0x30500C
abbrev STO_SWITCH_KIND : Nat := 0x306001
abbrev STO_SWITCH_TARGET : Nat := 0x306002
abbrev STO_SWITCH_MODE : Nat := 0x306003
abbrev STO_SWITCH_PLAN : Nat := 0x306004
abbrev STO_SWITCH_CANCEL : Nat := 0x306005
abbrev STO_SWITCH_STATE : Nat := 0x306006
abbrev STO_SWITCH_RESULT : Nat := 0x306007
abbrev STO_STAGED_TAG : Nat := 0x306008
abbrev STO_STAGE_BYTES : Nat := 0x306009
abbrev STO_STAGE_DONE : Nat := 0x30600A
abbrev STO_EPOCH : Nat := 0x30600B
abbrev STO_EPOCH_OLD : Nat := 0x30600C
abbrev STO_EPOCH_PINS : Nat := 0x30600D
abbrev STO_EPOCH_TAG : Nat := 0x30600E
abbrev STO_DIGEST_SCRUB_HOURS : Nat := 0x30600F
abbrev STO_SCRUB_DONE : Nat := 0x306010
abbrev STO_REFETCHES : Nat := 0x306011
abbrev STO_SHARD_MISMATCHES : Nat := 0x306012
abbrev STO_EXPERTS_ZERO : Nat := 0x306013
abbrev SRV_INTAKE_BASE : Nat := 0x401001
abbrev SRV_INTAKE_ENTRIES : Nat := 0x401002
abbrev SRV_INTAKE_BATCH : Nat := 0x401003
abbrev SRV_COMP_BASE : Nat := 0x401004
abbrev SRV_COMP_UNITS : Nat := 0x401005
abbrev SRV_EVENT_BASE : Nat := 0x401006
abbrev SRV_EVENT_ENTRIES : Nat := 0x401007
abbrev SRV_INTAKE_READS : Nat := 0x401008
abbrev SRV_INTAKE_RECORDS : Nat := 0x401009
abbrev SRV_INTAKE_FAULTS : Nat := 0x40100A
abbrev SRV_EVENTS_LOST : Nat := 0x40100B
abbrev SRV_EVENT_LOG : Nat := 0x40100C
abbrev SRV_STREAMS_IN_USE : Nat := 0x401101
abbrev SRV_STREAM_TABLE : Nat := 0x401102
abbrev SRV_TENANT_BUDGETS : Nat := 0x401103
abbrev SRV_TENANT_USED : Nat := 0x401104
abbrev SRV_BUDGET_REFUSALS : Nat := 0x401105
abbrev SRV_STEPS_SEALED : Nat := 0x401106
abbrev SRV_OUTPUTS_LATE : Nat := 0x401107
abbrev SRV_OUTPUTS_SUPPRESSED : Nat := 0x401108
abbrev SRV_REPORT_SEQ : Nat := 0x401201
abbrev SRV_GROUP_REPORT : Nat := 0x401202
abbrev SYN_GUARD_DEFAULT : Nat := 0x206001
abbrev SYN_PREEMPT_MODE : Nat := 0x206002
abbrev SYN_CONTEXT_SAVED : Nat := 0x206003
abbrev SYN_PREEMPTIONS : Nat := 0x206004
abbrev SYN_GUARD_EXPIRIES : Nat := 0x206005
abbrev SYN_OWNER_LOSSES : Nat := 0x206006
abbrev SYN_STALE_RESPONSES : Nat := 0x206007
abbrev SYN_SATURATED : Nat := 0x206008
abbrev SYN_PAIRS_BOUND : Nat := 0x206009
abbrev SYN_BANK_DUMP : Nat := 0x20600A
abbrev LCE_LACE_STATE : Nat := 0x500001
abbrev LCE_DOWN_CAUSE : Nat := 0x500002
abbrev LCE_WIDTH : Nat := 0x500003
abbrev LCE_LATENCY : Nat := 0x500004
abbrev LCE_PEER : Nat := 0x500005
abbrev LCE_FEC_CORRECTED : Nat := 0x500006
abbrev LCE_FEC_UNCORRECTABLE : Nat := 0x500007
abbrev LCE_REPLAYS : Nat := 0x500008
abbrev LCE_RETRAINS : Nat := 0x500009
abbrev LCE_RING_ADJUSTS : Nat := 0x50000A
abbrev LCE_RX_POWER_MIN : Nat := 0x50000B
abbrev LCE_FLITS_SENT : Nat := 0x50000C
abbrev LCE_DISCARDED : Nat := 0x50000D
abbrev LCE_POSITION : Nat := 0x501001
abbrev LCE_RACK_ID : Nat := 0x501002
abbrev LCE_SPAN_MASK : Nat := 0x501003
abbrev LCE_SPAN_TAG : Nat := 0x501004
abbrev LCE_SPAN_STATE : Nat := 0x501005
abbrev LCE_SPAN_ROOT : Nat := 0x501006
abbrev LCE_MEMBER_INDEX : Nat := 0x501007
abbrev LCE_MISSING_MASK : Nat := 0x501008
abbrev LCE_UNREACHABLE : Nat := 0x501009
abbrev LCE_DETOURED : Nat := 0x50100A
abbrev LCE_LASER_STATE : Nat := 0x50100B
abbrev DSP_UPLINK_STATE : Nat := 0x502001
abbrev DSP_UPLINK_CAUSE : Nat := 0x502002
abbrev DSP_UPLINK_MAC : Nat := 0x502003
abbrev DSP_NEXT_HOP_MAC : Nat := 0x502004
abbrev DSP_TX_FRAMES : Nat := 0x502005
abbrev DSP_RX_FRAMES : Nat := 0x502006
abbrev DSP_RX_DISCARDS : Nat := 0x502007
abbrev DSP_FEC_CORRECTED : Nat := 0x502008
abbrev DSP_FEC_UNCORRECTABLE : Nat := 0x502009
abbrev DSP_ROLE : Nat := 0x504001
abbrev DSP_ADDRESS : Nat := 0x504002
abbrev DSP_UDP_PORT : Nat := 0x504003
abbrev DSP_DSCP_CLASS0 : Nat := 0x504004
abbrev DSP_DSCP_OTHER : Nat := 0x504005
abbrev DSP_HOSTS : Nat := 0x504006
abbrev DSP_EXPERT_MAP : Nat := 0x504007
abbrev DSP_SERVE_MAP : Nat := 0x504008
abbrev DSP_WINDOWS : Nat := 0x504009
abbrev DSP_WINDOWS_CONFIRMED : Nat := 0x50400A
abbrev DSP_RETURN_TIMEOUT : Nat := 0x50400B
abbrev DSP_CREDIT_GRACE : Nat := 0x50400C
abbrev DSP_HOST_LOSS_WINDOWS : Nat := 0x50400D
abbrev DSP_HOST_STATE : Nat := 0x50400E
abbrev DSP_DISPATCHES : Nat := 0x504101
abbrev DSP_DROPS : Nat := 0x504102
abbrev DSP_SKIPS : Nat := 0x504103
abbrev DSP_RETURNS : Nat := 0x504104
abbrev DSP_STALE_RETURNS : Nat := 0x504105
abbrev DSP_DUPLICATES : Nat := 0x504106
abbrev DSP_RESENDS : Nat := 0x504107
abbrev DSP_RETURNS_LOST : Nat := 0x504108
abbrev DSP_CREDITS_RECLAIMED : Nat := 0x504109
abbrev DSP_UNKNOWN_SOURCE : Nat := 0x50410A
abbrev DSP_SERVED : Nat := 0x50410B
abbrev DSP_REFUSED_AS_HOST : Nat := 0x50410C
abbrev HLK_MODULE_STATE : Nat := 0x505001
abbrev HLK_SPEED : Nat := 0x505002
abbrev HLK_REPAIRED_LANES : Nat := 0x505003
abbrev HLK_CRC_ERRORS : Nat := 0x505004
abbrev HLK_REPLAYS : Nat := 0x505005
abbrev HLK_RETRAINS : Nat := 0x505006
abbrev HLK_TX_BYTES : Nat := 0x505007
abbrev HLK_RX_BYTES : Nat := 0x505008
abbrev HLK_LINK_STATE : Nat := 0x506001
abbrev HLK_ATT_BASE : Nat := 0x506002
abbrev HLK_ATT_ENTRIES : Nat := 0x506003
abbrev HLK_ATT_INVALIDATE : Nat := 0x506004
abbrev HLK_INV_SEQ : Nat := 0x506005
abbrev HLK_WIN_BASE : Nat := 0x506006
abbrev HLK_WIN_SIZE : Nat := 0x50600A
abbrev HLK_READ_TIMEOUT : Nat := 0x50600E
abbrev HLK_WRITE_TIMEOUT : Nat := 0x50600F
abbrev HLK_ATT_MISSES : Nat := 0x506010
abbrev HLK_ACCESS_FAULTS : Nat := 0x506011
abbrev HLK_READ_ERRORS : Nat := 0x506012
abbrev HLK_WRITE_ERRORS : Nat := 0x506013
abbrev SEC_VENDOR_NAME : Nat := 0x100001
abbrev SEC_PRODUCT_NAME : Nat := 0x100002
abbrev SEC_PART_NUMBER : Nat := 0x100003
abbrev SEC_SERIAL : Nat := 0x100004
abbrev SEC_STEPPING : Nat := 0x100005
abbrev SEC_MANUFACTURE_DATE : Nat := 0x100006
abbrev SEC_BOOT_ROM_VERSION : Nat := 0x100007
abbrev SEC_FIRMWARE_VERSION : Nat := 0x100008
abbrev SEC_FIRMWARE_SIGNER : Nat := 0x100009
abbrev SEC_UPTIME_SLOTS : Nat := 0x10000A
abbrev HLK_FIELD_STATE : Nat := 0x110001
abbrev HLK_FIELD_NODE_ID : Nat := 0x110002
abbrev HLK_FIELD_NODE_COUNT : Nat := 0x110003
abbrev HLK_FIELD_TO_TIMER : Nat := 0x110004
abbrev HLK_FIELD_BURST_COUNT : Nat := 0x110005
abbrev HLK_FIELD_MAC : Nat := 0x110006
abbrev HLK_FIELD_ADDRESS : Nat := 0x110007
abbrev HLK_FIELD_UDP_PORT : Nat := 0x110008
abbrev HLK_FIELD_WRITE_ENABLE : Nat := 0x110009
abbrev HLK_FIELD_RX_FRAMES : Nat := 0x11000A
abbrev HLK_FIELD_TX_FRAMES : Nat := 0x11000B
abbrev HLK_FIELD_DISCARDS : Nat := 0x11000C
abbrev HLK_FIELD_BEACON_LOSSES : Nat := 0x11000D
abbrev HLK_DICT_REQUESTS : Nat := 0x120001
abbrev HLK_DICT_ERRORS : Nat := 0x120002
abbrev HLK_DICT_DUPLICATES : Nat := 0x120003
abbrev HLK_TX_OPEN : Nat := 0x120004
abbrev HLK_TX_IDLE_LIMIT : Nat := 0x120005
abbrev HLK_TX_COMMITTED : Nat := 0x120006
abbrev HLK_TX_REFUSED : Nat := 0x120007
abbrev HLK_TX_ROLLED_BACK : Nat := 0x120008
abbrev HLK_TX_TABLE : Nat := 0x120009
abbrev RAS_CLAIM_MODE : Nat := 0x610001
abbrev RAS_SERVICE_STATE : Nat := 0x610002
abbrev RAS_STEPS_VOIDED : Nat := 0x610003
abbrev RAS_STEPS_FAILED : Nat := 0x610004
abbrev RAS_GROUP_RESETS : Nat := 0x610005
abbrev RAS_WEIGHT_ERRORS : Nat := 0x610006
abbrev RAS_STRIKE_LIMIT : Nat := 0x610007
abbrev RAS_STRIKE_WINDOW : Nat := 0x610008
abbrev RAS_AUTO_FENCE : Nat := 0x610009
abbrev RAS_CE_THRESHOLD : Nat := 0x61000A
abbrev RAS_QUAD_STATE : Nat := 0x611001
abbrev RAS_QUAD_STRIKES : Nat := 0x611002
abbrev RAS_QUAD_LAST_STRIKE : Nat := 0x611003
abbrev RAS_FENCE_CMD : Nat := 0x611004
abbrev RAS_QUAD_FENCE_CAUSE : Nat := 0x611005
abbrev RAS_QUAD_AWL_CLEAN : Nat := 0x611006
abbrev RAS_RECORD_SEQ : Nat := 0x612001
abbrev RAS_RECORD_LOG : Nat := 0x612002
abbrev RAS_RECORD_PERSIST : Nat := 0x612003
abbrev RAS_RECORDS_LOST : Nat := 0x612004
abbrev RAS_PERSIST_CLEAR : Nat := 0x612005
abbrev RAS_AWL_PERIOD : Nat := 0x700001
abbrev RAS_AWL_LOAD : Nat := 0x700002
abbrev RAS_AWL_SETS : Nat := 0x700003
abbrev RAS_AWL_RUNS : Nat := 0x700004
abbrev RAS_AWL_FAILS : Nat := 0x700005
abbrev RAS_AWL_COVER_DONE : Nat := 0x701001
abbrev RAS_AWL_LAST_RESULT : Nat := 0x701002
abbrev RAS_AWL_LAST_TEST : Nat := 0x701003
abbrev RAS_AWL_RUN_CMD : Nat := 0x701004
abbrev PWR_DOMAIN_STATUS : Nat := 0x600001
abbrev PWR_DOMAIN_CMD : Nat := 0x600002
abbrev PWR_DOMAIN_POWER : Nat := 0x600003
abbrev PWR_DOMAIN_STARTS : Nat := 0x600004
abbrev PWR_CAP : Nat := 0x602001
abbrev PWR_GUARANTEE_FLOOR : Nat := 0x602002
abbrev PWR_CAP_FAST1 : Nat := 0x602003
abbrev PWR_CAP_FAST2 : Nat := 0x602004
abbrev PWR_CAP_FAST3 : Nat := 0x602005
abbrev PWR_EFFECTIVE_CAP : Nat := 0x602006
abbrev PWR_SIGMA : Nat := 0x602007
abbrev PWR_SIGMA_FLOOR : Nat := 0x602008
abbrev PWR_CAP_FAST_STATE : Nat := 0x602009
abbrev PWR_INPUT_POWER : Nat := 0x60200A
abbrev PWR_INPUT_VOLTAGE : Nat := 0x60200B
abbrev PWR_FLOOR_BREACHES : Nat := 0x60200C
abbrev PWR_THERMAL_LIMIT : Nat := 0x60200D
abbrev PWR_THERMAL_CAP : Nat := 0x60200E
abbrev PWR_TEMP_MAX : Nat := 0x60200F
abbrev PWR_HOTSWAP_STATE : Nat := 0x603001
abbrev PWR_FEED_TYPE : Nat := 0x603002
abbrev PWR_HOLDUP : Nat := 0x603003
abbrev PWR_DRAIN_START : Nat := 0x603004
abbrev PWR_FAIL_WARNINGS : Nat := 0x603005
abbrev SRV_MODULE_STATE : Nat := 0x130001
abbrev SRV_SERVE_CMD : Nat := 0x130002
abbrev SRV_RESET_CMD : Nat := 0x130003
abbrev PWR_RESET_CAUSE : Nat := 0x130004
abbrev PWR_RESET_COUNT : Nat := 0x130005
abbrev SRV_READY_FST : Nat := 0x130006
abbrev SRV_BRINGUP_LATE : Nat := 0x130007
abbrev PWR_IDM_STATE : Nat := 0x131001
abbrev PWR_IDM_DATA : Nat := 0x131006
abbrev PWR_IDM_READS : Nat := 0x13100B
abbrev SEC_FW_ACTIVE_BANK : Nat := 0x132001
abbrev SEC_FW_TRIAL : Nat := 0x132002
abbrev SEC_FW_BANK_VERSION : Nat := 0x132003
abbrev SEC_FW_LOAD : Nat := 0x132004
abbrev SEC_FW_LOAD_STATE : Nat := 0x132005
abbrev SEC_FW_ACTIVATE : Nat := 0x132006
abbrev SEC_FW_ROLLBACKS : Nat := 0x132007
abbrev SEC_ROOT_SLOT : Nat := 0x180001
abbrev SEC_OWNER_STATE : Nat := 0x180002
abbrev SEC_OWNER_SLOT : Nat := 0x180003
abbrev SEC_OWNER_SLOTS_FREE : Nat := 0x180004
abbrev SEC_OWNER_KEY_HASH : Nat := 0x180005
abbrev SEC_OWNER_FW : Nat := 0x180006
abbrev SEC_TICKET_NONCE : Nat := 0x180007
abbrev SEC_TICKET : Nat := 0x180008
abbrev SEC_TICKET_COSIGN : Nat := 0x180009
abbrev SEC_KEY_STORE : Nat := 0x18000A
abbrev SEC_KEY_UPDATE : Nat := 0x18000B
abbrev SEC_KEY_STORE_SEQ : Nat := 0x18000C
abbrev SEC_CERT_CHAIN : Nat := 0x18000D
abbrev SEC_ATTEST_NONCE : Nat := 0x18000E
abbrev SEC_ATTEST_STATE : Nat := 0x18000F
abbrev SEC_ATTEST_REPORT : Nat := 0x180010
abbrev SEC_DEBUG_STATE : Nat := 0x180011
abbrev SEC_MIN_SECURITY_VERSION : Nat := 0x180012
abbrev SEC_SVN_RAISE : Nat := 0x180013
abbrev SEC_SIG_FAILURES : Nat := 0x180014

end Reg

/-- Objects from 1000h. -/
def rows1a : List ObjRow := [
  ⟨0x1000, 0x1000, 1, 1, .str, .ro, (.value 0), .any⟩,
  ⟨0x1000, 0x1000, 2, 2, .str, .ro, (.value 0), .any⟩,
  ⟨0x1000, 0x1000, 3, 3, .str, .ro, (.value 0), .any⟩,
  ⟨0x1000, 0x1000, 4, 4, .str, .ro, (.value 0), .any⟩,
  ⟨0x1000, 0x1000, 5, 5, .u16, .ro, (.value 177), .any⟩,
  ⟨0x1000, 0x1000, 6, 6, .u32, .ro, (.value 0), .any⟩,
  ⟨0x1000, 0x1000, 7, 7, .u32, .ro, (.value 0), .any⟩,
  ⟨0x1000, 0x1000, 8, 8, .u32, .ro, (.value 0), .any⟩,
  ⟨0x1000, 0x1000, 9, 9, .u8, .ro, (.value 0), .any⟩,
  ⟨0x1000, 0x1000, 10, 10, .u64, .ro, (.value 0), .any⟩,
  ⟨0x1100, 0x1100, 1, 1, .u8, .ro, (.value 0), .any⟩,
  ⟨0x1100, 0x1100, 2, 2, .u8, .ro, (.value 0), .any⟩,
  ⟨0x1100, 0x1100, 3, 3, .u8, .ro, (.value 0), .any⟩,
  ⟨0x1100, 0x1100, 4, 4, .u8, .ro, (.value 0), .any⟩,
  ⟨0x1100, 0x1100, 5, 5, .u8, .ro, (.value 0), .any⟩,
  ⟨0x1100, 0x1100, 6, 6, .u64, .ro, (.value 0), .any⟩,
  ⟨0x1100, 0x1100, 7, 7, .domain, .ro, (.value 0), .any⟩,
  ⟨0x1100, 0x1100, 8, 8, .u16, .tx, (.value 50110), .upTo 1024 65535⟩,
  ⟨0x1100, 0x1100, 9, 9, .u8, .tx, (.value 1), .upTo 0 1⟩,
  ⟨0x1100, 0x1100, 10, 10, .u64, .ro, (.value 0), .any⟩,
  ⟨0x1100, 0x1100, 11, 11, .u64, .ro, (.value 0), .any⟩,
  ⟨0x1100, 0x1100, 12, 12, .u32, .ro, (.value 0), .any⟩,
  ⟨0x1100, 0x1100, 13, 13, .u32, .ro, (.value 0), .any⟩,
  ⟨0x1200, 0x1200, 1, 1, .u64, .ro, (.value 0), .any⟩,
  ⟨0x1200, 0x1200, 2, 2, .u32, .ro, (.value 0), .any⟩,
  ⟨0x1200, 0x1200, 3, 3, .u32, .ro, (.value 0), .any⟩,
  ⟨0x1200, 0x1200, 4, 4, .u8, .ro, (.value 0), .any⟩,
  ⟨0x1200, 0x1200, 5, 5, .u32, .tx, (.value 80000), .upTo 1600 800000⟩,
  ⟨0x1200, 0x1200, 6, 6, .u32, .ro, (.value 0), .any⟩,
  ⟨0x1200, 0x1200, 7, 7, .u32, .ro, (.value 0), .any⟩]

/-- Objects from 1200h. -/
def rows1b : List ObjRow := [
  ⟨0x1200, 0x1200, 8, 8, .u32, .ro, (.value 0), .any⟩,
  ⟨0x1200, 0x1200, 9, 9, .domain, .ro, (.value 0), .any⟩,
  ⟨0x1300, 0x1300, 1, 1, .u8, .ro, (.value 0), .any⟩,
  ⟨0x1300, 0x1300, 2, 2, .u8, .tx, (.value 0), .upTo 0 1⟩,
  ⟨0x1300, 0x1300, 3, 3, .u8, .tx, (.value 0), .upTo 0 2⟩,
  ⟨0x1300, 0x1300, 4, 4, .u8, .ro, (.value 0), .any⟩,
  ⟨0x1300, 0x1300, 5, 5, .u32, .ro, (.value 0), .any⟩,
  ⟨0x1300, 0x1300, 6, 6, .fst, .ro, (.value 0), .any⟩,
  ⟨0x1300, 0x1300, 7, 7, .u32, .ro, (.value 0), .any⟩,
  ⟨0x1310, 0x1310, 1, 5, .u8, .ro, (.value 0), .any⟩,
  ⟨0x1310, 0x1310, 6, 10, .domain, .ro, (.value 0), .any⟩,
  ⟨0x1310, 0x1310, 11, 11, .u32, .ro, (.value 0), .any⟩,
  ⟨0x1320, 0x1320, 1, 1, .u8, .ro, (.value 0), .any⟩,
  ⟨0x1320, 0x1320, 2, 2, .u8, .ro, (.value 0), .any⟩,
  ⟨0x1320, 0x1320, 3, 3, .u64, .ro, (.value 0), .any⟩,
  ⟨0x1320, 0x1320, 4, 4, .domain, .tx, (.value 0), .bytes 16777216⟩,
  ⟨0x1320, 0x1320, 5, 5, .u8, .ro, (.value 0), .any⟩,
  ⟨0x1320, 0x1320, 6, 6, .u8, .tx, (.value 0), .upTo 0 1⟩,
  ⟨0x1320, 0x1320, 7, 7, .u32, .ro, (.value 0), .any⟩,
  ⟨0x1800, 0x1800, 1, 1, .u8, .ro, (.value 0), .any⟩,
  ⟨0x1800, 0x1800, 2, 2, .u8, .ro, (.value 0), .any⟩,
  ⟨0x1800, 0x1800, 3, 3, .u8, .ro, (.value 0), .any⟩,
  ⟨0x1800, 0x1800, 4, 4, .u8, .ro, (.value 0), .any⟩,
  ⟨0x1800, 0x1800, 5, 5, .domain, .ro, (.value 0), .any⟩,
  ⟨0x1800, 0x1800, 6, 6, .u8, .ro, (.value 0), .any⟩,
  ⟨0x1800, 0x1800, 7, 7, .domain, .ro, (.value 0), .any⟩,
  ⟨0x1800, 0x1800, 8, 8, .domain, .tx, (.value 0), .bytes 320⟩,
  ⟨0x1800, 0x1800, 9, 9, .domain, .tx, (.value 0), .bytes 320⟩,
  ⟨0x1800, 0x1800, 10, 10, .domain, .ro, (.value 0), .any⟩,
  ⟨0x1800, 0x1800, 11, 11, .domain, .tx, (.value 0), .bytes 20480⟩]

/-- Objects from 1800h. -/
def rows1c : List ObjRow := [
  ⟨0x1800, 0x1800, 12, 12, .u32, .ro, (.value 0), .any⟩,
  ⟨0x1800, 0x1800, 13, 13, .domain, .ro, (.value 0), .any⟩,
  ⟨0x1800, 0x1800, 14, 14, .domain, .tx, (.value 0), .bytes 32⟩,
  ⟨0x1800, 0x1800, 15, 15, .u8, .ro, (.value 0), .any⟩,
  ⟨0x1800, 0x1800, 16, 16, .domain, .ro, (.value 0), .any⟩,
  ⟨0x1800, 0x1800, 17, 17, .u8, .ro, (.value 0), .any⟩,
  ⟨0x1800, 0x1800, 18, 18, .u16, .ro, (.value 0), .any⟩,
  ⟨0x1800, 0x1800, 19, 19, .u8, .tx, (.value 0), .upTo 0 1⟩,
  ⟨0x1800, 0x1800, 20, 20, .u32, .ro, (.value 0), .any⟩]

/-- Objects from 2000h. -/
def rows2a : List ObjRow := [
  ⟨0x2000, 0x2000, 1, 1, .u8, .ro, (.value 2), .any⟩,
  ⟨0x2000, 0x2000, 2, 2, .u8, .ro, (.value 8), .any⟩,
  ⟨0x2000, 0x2000, 3, 3, .u8, .ro, (.value 255), .any⟩,
  ⟨0x2000, 0x2000, 4, 4, .u8, .ro, (.value 0), .any⟩,
  ⟨0x2000, 0x2000, 5, 5, .u8, .ro, (.value 0), .any⟩,
  ⟨0x2000, 0x2000, 6, 6, .u8, .ro, (.value 8), .any⟩,
  ⟨0x2000, 0x2000, 7, 7, .u8, .ro, (.value 0), .any⟩,
  ⟨0x2000, 0x2000, 8, 8, .u8, .ro, (.value 0), .any⟩,
  ⟨0x2000, 0x2000, 9, 9, .u32, .ro, (.value 5242880), .any⟩,
  ⟨0x2010, 0x2010, 1, 1, .u8, .ro, (.value 0), .any⟩,
  ⟨0x2010, 0x2010, 2, 2, .u8, .ro, (.value 255), .any⟩,
  ⟨0x2010, 0x2010, 3, 3, .u32, .tx, (.value 4096), .upTo 1024 65536⟩,
  ⟨0x2010, 0x2010, 4, 4, .u32, .ro, (.value 0), .any⟩,
  ⟨0x2010, 0x2010, 5, 5, .u64, .ro, (.value 0), .any⟩,
  ⟨0x2010, 0x2010, 6, 6, .u32, .ro, (.value 0), .any⟩,
  ⟨0x2010, 0x2010, 7, 7, .u32, .ro, (.value 0), .any⟩,
  ⟨0x2010, 0x2010, 8, 8, .u32, .ro, (.value 0), .any⟩,
  ⟨0x2010, 0x2010, 9, 9, .u32, .ro, (.value 0), .any⟩,
  ⟨0x2010, 0x2010, 10, 10, .u32, .ro, (.value 0), .any⟩,
  ⟨0x2011, 0x2011, 1, 1, .u8, .ro, (.value 0), .any⟩,
  ⟨0x2011, 0x2011, 2, 2, .fst, .ro, (.value 0), .any⟩,
  ⟨0x2011, 0x2011, 3, 3, .u32, .ro, (.value 0), .any⟩,
  ⟨0x2011, 0x2011, 4, 4, .domain, .ro, (.value 0), .any⟩,
  ⟨0x2011, 0x2011, 5, 5, .u8, .wo, (.value 0), .any⟩,
  ⟨0x2012, 0x2012, 1, 1, .u32, .tx, (.value 1024), .power 256 65536 false⟩,
  ⟨0x2012, 0x2012, 2, 2, .u16, .tx, (.value 50), .upTo 1 250⟩,
  ⟨0x2012, 0x2012, 3, 3, .u32, .ro, (.value 0), .any⟩,
  ⟨0x2012, 0x2012, 4, 4, .u8, .ro, (.value 0), .any⟩,
  ⟨0x2020, 0x2020, 1, 1, .u8, .tx, (.value 1), .upTo 0 1⟩,
  ⟨0x2020, 0x2020, 2, 2, .u8, .tx, (.value 14), .upTo 10 15⟩]

/-- Objects from 2020h. -/
def rows2b : List ObjRow := [
  ⟨0x2020, 0x2020, 3, 3, .u32, .ro, (.value 0), .any⟩,
  ⟨0x2020, 0x2020, 4, 4, .u32, .ro, (.value 0), .any⟩,
  ⟨0x2020, 0x2020, 5, 5, .u32, .ro, (.value 0), .any⟩,
  ⟨0x2020, 0x2020, 6, 6, .u32, .ro, (.value 0), .any⟩,
  ⟨0x2020, 0x2020, 7, 7, .u32, .ro, (.value 0), .any⟩,
  ⟨0x2020, 0x2020, 8, 8, .u32, .ro, (.value 0), .any⟩,
  ⟨0x2020, 0x2020, 9, 9, .u64, .ro, (.value 0), .any⟩,
  ⟨0x2020, 0x2020, 10, 10, .u64, .ro, (.value 0), .any⟩,
  ⟨0x2020, 0x2020, 11, 11, .u32, .ro, (.value 0), .any⟩,
  ⟨0x2021, 0x2021, 1, 8, .u32, .ro, (.value 0), .any⟩,
  ⟨0x2022, 0x2022, 1, 1, .u8, .ro, (.value 0), .any⟩,
  ⟨0x2022, 0x2022, 2, 2, .domain, .ro, (.value 0), .any⟩,
  ⟨0x2022, 0x2022, 3, 3, .u8, .wo, (.value 0), .any⟩,
  ⟨0x2022, 0x2022, 4, 4, .u32, .ro, (.value 0), .any⟩,
  ⟨0x2030, 0x2030, 1, 1, .u64, .ro, (.value 0), .any⟩,
  ⟨0x2030, 0x2030, 2, 2, .u32, .ro, (.value 0), .any⟩,
  ⟨0x2030, 0x2030, 3, 3, .u32, .ro, (.value 0), .any⟩,
  ⟨0x2030, 0x2030, 4, 4, .u32, .ro, (.value 0), .any⟩,
  ⟨0x2030, 0x2030, 5, 5, .u32, .ro, (.value 0), .any⟩,
  ⟨0x2030, 0x2030, 6, 6, .u16, .ro, (.value 258), .any⟩,
  ⟨0x2040, 0x2040, 1, 1, .u64, .ro, (.value 0), .any⟩,
  ⟨0x2040, 0x2040, 2, 2, .u64, .ro, (.value 0), .any⟩,
  ⟨0x2040, 0x2040, 3, 3, .u64, .ro, (.value 0), .any⟩,
  ⟨0x2040, 0x2040, 4, 4, .u32, .ro, (.value 0), .any⟩,
  ⟨0x2050, 0x2050, 1, 4, .u8, .ro, (.value 0), .any⟩,
  ⟨0x2050, 0x2050, 5, 8, .u64, .ro, (.value 0), .any⟩,
  ⟨0x2050, 0x2050, 9, 9, .u32, .ro, (.value 0), .any⟩,
  ⟨0x2050, 0x2050, 10, 10, .u32, .ro, (.value 0), .any⟩,
  ⟨0x2050, 0x2050, 11, 11, .domain, .ro, (.value 0), .any⟩,
  ⟨0x2050, 0x2050, 12, 12, .u64, .ro, (.value 0), .any⟩]

/-- Objects from 2050h. -/
def rows2c : List ObjRow := [
  ⟨0x2050, 0x2050, 13, 13, .u8, .ro, (.value 0), .any⟩,
  ⟨0x2050, 0x2050, 14, 14, .u8, .ro, (.value 0), .any⟩,
  ⟨0x2060, 0x2060, 1, 1, .u16, .tx, (.value 1250), .upTo 1 65535⟩,
  ⟨0x2060, 0x2060, 2, 2, .u8, .tx, (.value 1), .upTo 0 1⟩,
  ⟨0x2060, 0x2060, 3, 3, .u8, .ro, (.value 0), .any⟩,
  ⟨0x2060, 0x2060, 4, 4, .u32, .ro, (.value 0), .any⟩,
  ⟨0x2060, 0x2060, 5, 5, .u32, .ro, (.value 0), .any⟩,
  ⟨0x2060, 0x2060, 6, 6, .u32, .ro, (.value 0), .any⟩,
  ⟨0x2060, 0x2060, 7, 7, .u32, .ro, (.value 0), .any⟩,
  ⟨0x2060, 0x2060, 8, 8, .u32, .ro, (.value 0), .any⟩,
  ⟨0x2060, 0x2060, 9, 9, .u8, .ro, (.value 0), .any⟩,
  ⟨0x2060, 0x2060, 10, 10, .domain, .ro, (.value 0), .any⟩]

/-- Objects from 3000h. -/
def rows3a : List ObjRow := [
  ⟨0x3000, 0x3000, 1, 1, .u32, .ro, (.value 0), .any⟩,
  ⟨0x3000, 0x3000, 2, 2, .u32, .ro, (.value 0), .any⟩,
  ⟨0x3000, 0x3000, 3, 3, .u64, .ro, (.value 0), .any⟩,
  ⟨0x3010, 0x3019, 1, 1, .u8, .ro, (.value 0), .any⟩,
  ⟨0x3010, 0x3019, 2, 2, .u8, .tx, (.value 0), .upTo 0 2⟩,
  ⟨0x3010, 0x3019, 3, 3, .u64, .ro, (.value 0), .any⟩,
  ⟨0x3010, 0x3019, 4, 4, .u64, .ro, (.value 0), .any⟩,
  ⟨0x3010, 0x3019, 5, 5, .u64, .ro, (.value 0), .any⟩,
  ⟨0x3010, 0x3019, 6, 6, .u32, .ro, (.value 0), .any⟩,
  ⟨0x3010, 0x3019, 7, 7, .u32, .ro, (.value 0), .any⟩,
  ⟨0x3010, 0x3019, 8, 8, .u32, .ro, (.value 0), .any⟩,
  ⟨0x3010, 0x3019, 9, 9, .u32, .ro, (.value 0), .any⟩,
  ⟨0x3010, 0x3019, 10, 10, .u8, .ro, (.value 0), .any⟩,
  ⟨0x3010, 0x3019, 11, 11, .u8, .ro, (.value 0), .any⟩,
  ⟨0x3010, 0x3019, 12, 12, .u32, .ro, (.value 0), .any⟩,
  ⟨0x3010, 0x3019, 13, 13, .fst, .ro, (.value 0), .any⟩,
  ⟨0x3020, 0x3020, 1, 1, .u32, .ro, (.value 0), .any⟩,
  ⟨0x3020, 0x3020, 2, 2, .u8, .tx, (.value 24), .upTo 4 168⟩,
  ⟨0x3030, 0x3030, 1, 1, .u32, .ro, (.value 0), .any⟩,
  ⟨0x3030, 0x3030, 2, 2, .u32, .ro, (.value 0), .any⟩,
  ⟨0x3030, 0x3030, 3, 3, .u32, .ro, (.value 0), .any⟩,
  ⟨0x3030, 0x3030, 4, 4, .u64, .tx, (.value 0), .pages⟩,
  ⟨0x3030, 0x3030, 5, 5, .u32, .tx, (.value 0), .upTo 0 16777215⟩,
  ⟨0x3030, 0x3030, 6, 6, .u16, .tx, (.value 256), .upTo 32 768⟩,
  ⟨0x3030, 0x3030, 7, 7, .u64, .ro, (.value 0), .any⟩,
  ⟨0x3030, 0x3030, 8, 8, .u64, .ro, (.value 0), .any⟩,
  ⟨0x3030, 0x3030, 9, 9, .u32, .ro, (.value 0), .any⟩,
  ⟨0x3030, 0x3030, 10, 10, .u32, .ro, (.value 0), .any⟩,
  ⟨0x3040, 0x3047, 1, 1, .u8, .ro, (.value 0), .any⟩,
  ⟨0x3040, 0x3047, 2, 2, .u32, .ro, (.value 0), .any⟩]

/-- Objects from 3040h. -/
def rows3b : List ObjRow := [
  ⟨0x3040, 0x3047, 3, 3, .u8, .ro, (.value 0), .any⟩,
  ⟨0x3040, 0x3047, 4, 4, .u32, .ro, (.value 0), .any⟩,
  ⟨0x3040, 0x3047, 5, 5, .u64, .ro, (.value 0), .any⟩,
  ⟨0x3040, 0x3047, 6, 6, .u32, .ro, (.value 0), .any⟩,
  ⟨0x3040, 0x3047, 7, 7, .u32, .ro, (.value 0), .any⟩,
  ⟨0x3040, 0x3047, 8, 8, .u32, .ro, (.value 0), .any⟩,
  ⟨0x3050, 0x3050, 1, 1, .u8, .tx, (.value 0), .upTo 0 1⟩,
  ⟨0x3050, 0x3050, 2, 2, .u8, .tx, (.value 0), .upTo 0 5⟩,
  ⟨0x3050, 0x3050, 3, 3, .u64, .tx, (.value 0), .pages⟩,
  ⟨0x3050, 0x3050, 4, 4, .u64, .tx, (.value 0), .any⟩,
  ⟨0x3050, 0x3050, 5, 5, .u64, .tx, (.value 0), .any⟩,
  ⟨0x3050, 0x3050, 6, 6, .u8, .ro, (.value 0), .any⟩,
  ⟨0x3050, 0x3050, 7, 7, .u16, .ro, (.value 0), .any⟩,
  ⟨0x3050, 0x3050, 8, 8, .u64, .ro, (.value 0), .any⟩,
  ⟨0x3050, 0x3050, 9, 9, .domain, .ro, (.value 0), .any⟩,
  ⟨0x3050, 0x3050, 10, 10, .u64, .ro, (.value 0), .any⟩,
  ⟨0x3050, 0x3050, 11, 11, .u32, .tx, (.value 1000000), .upTo 100000 4000000⟩,
  ⟨0x3050, 0x3050, 12, 12, .u16, .tx, (.value 30), .upTo 7 365⟩,
  ⟨0x3060, 0x3060, 1, 1, .u8, .tx, (.value 0), .upTo 0 2⟩,
  ⟨0x3060, 0x3060, 2, 2, .u64, .tx, (.value 0), .any⟩,
  ⟨0x3060, 0x3060, 3, 3, .u8, .tx, (.value 0), .upTo 0 1⟩,
  ⟨0x3060, 0x3060, 4, 4, .u8, .tx, (.value 255), .upToOrFF 4⟩,
  ⟨0x3060, 0x3060, 5, 5, .u8, .tx, (.value 0), .upTo 0 1⟩,
  ⟨0x3060, 0x3060, 6, 6, .u8, .ro, (.value 0), .any⟩,
  ⟨0x3060, 0x3060, 7, 7, .u16, .ro, (.value 0), .any⟩,
  ⟨0x3060, 0x3060, 8, 8, .u64, .ro, (.value 0), .any⟩,
  ⟨0x3060, 0x3060, 9, 9, .u64, .ro, (.value 0), .any⟩,
  ⟨0x3060, 0x3060, 10, 10, .fst, .ro, (.value 0), .any⟩,
  ⟨0x3060, 0x3060, 11, 11, .u32, .ro, (.value 0), .any⟩,
  ⟨0x3060, 0x3060, 12, 12, .u32, .ro, (.value 0), .any⟩]

/-- Objects from 3060h. -/
def rows3c : List ObjRow := [
  ⟨0x3060, 0x3060, 13, 13, .u32, .ro, (.value 0), .any⟩,
  ⟨0x3060, 0x3060, 14, 14, .u64, .ro, (.value 0), .any⟩,
  ⟨0x3060, 0x3060, 15, 15, .u8, .tx, (.value 4), .upTo 1 24⟩,
  ⟨0x3060, 0x3060, 16, 16, .fst, .ro, (.value 0), .any⟩,
  ⟨0x3060, 0x3060, 17, 17, .u32, .ro, (.value 0), .any⟩,
  ⟨0x3060, 0x3060, 18, 18, .u32, .ro, (.value 0), .any⟩,
  ⟨0x3060, 0x3060, 19, 19, .u16, .ro, (.value 0), .any⟩]

/-- Objects from 4000h. -/
def rows4a : List ObjRow := [
  ⟨0x4000, 0x4000, 1, 1, .u8, .ro, (.value 0), .any⟩,
  ⟨0x4000, 0x4000, 2, 2, .fst, .ro, (.value 0), .any⟩,
  ⟨0x4000, 0x4000, 3, 3, .u32, .ro, (.value 0), .any⟩,
  ⟨0x4000, 0x4000, 4, 4, .u32, .ro, (.value 0), .any⟩,
  ⟨0x4000, 0x4000, 5, 5, .u32, .ro, (.value 0), .any⟩,
  ⟨0x4000, 0x4000, 6, 6, .u32, .ro, (.value 0), .any⟩,
  ⟨0x4000, 0x4000, 7, 7, .i32, .ro, (.value 0), .any⟩,
  ⟨0x4000, 0x4000, 8, 8, .u64, .tx, (.value 0), .upTo 0 1099511627775⟩,
  ⟨0x4000, 0x4000, 9, 9, .u8, .tx, (.value 0), .upTo 0 1⟩,
  ⟨0x4000, 0x4000, 10, 10, .u8, .ro, (.value 0), .any⟩,
  ⟨0x4001, 0x4001, 1, 1, .u16, .tx, (.value 900), .upTo 500 950⟩,
  ⟨0x4001, 0x4001, 2, 2, .u16, .tx, (.value 10), .upTo 5 50⟩,
  ⟨0x4001, 0x4001, 3, 3, .u8, .tx, (.value 1), .upTo 1 160⟩,
  ⟨0x4001, 0x4001, 4, 4, .u8, .tx, (.value 0), .upTo 0 1⟩,
  ⟨0x4001, 0x4001, 5, 5, .u32, .ro, (.value 0), .any⟩,
  ⟨0x4001, 0x4001, 6, 6, .u32, .ro, (.value 0), .any⟩,
  ⟨0x4001, 0x4001, 7, 7, .u32, .ro, (.value 0), .any⟩,
  ⟨0x4001, 0x4001, 8, 8, .u16, .ro, (.value 0), .any⟩,
  ⟨0x4001, 0x4001, 9, 9, .fst, .ro, (.value 0), .any⟩,
  ⟨0x4010, 0x4010, 1, 1, .u64, .tx, (.value 0), .pages⟩,
  ⟨0x4010, 0x4010, 2, 2, .u32, .tx, (.value 0), .power 64 65536 true⟩,
  ⟨0x4010, 0x4010, 3, 3, .u16, .tx, (.value 256), .upTo 16 1024⟩,
  ⟨0x4010, 0x4010, 4, 4, .u64, .tx, (.value 0), .pages⟩,
  ⟨0x4010, 0x4010, 5, 5, .u32, .tx, (.value 0), .power 128 1048576 true⟩,
  ⟨0x4010, 0x4010, 6, 6, .u64, .tx, (.value 0), .pages⟩,
  ⟨0x4010, 0x4010, 7, 7, .u32, .tx, (.value 0), .power 64 65536 true⟩,
  ⟨0x4010, 0x4010, 8, 8, .u64, .ro, (.value 0), .any⟩,
  ⟨0x4010, 0x4010, 9, 9, .u64, .ro, (.value 0), .any⟩,
  ⟨0x4010, 0x4010, 10, 10, .u32, .ro, (.value 0), .any⟩,
  ⟨0x4010, 0x4010, 11, 11, .u32, .ro, (.value 0), .any⟩]

/-- Objects from 4010h. -/
def rows4b : List ObjRow := [
  ⟨0x4010, 0x4010, 12, 12, .domain, .ro, (.value 0), .any⟩,
  ⟨0x4011, 0x4011, 1, 1, .u16, .ro, (.value 0), .any⟩,
  ⟨0x4011, 0x4011, 2, 2, .domain, .ro, (.value 0), .any⟩,
  ⟨0x4011, 0x4011, 3, 3, .domain, .tx, (.value 0), .bytes 4096⟩,
  ⟨0x4011, 0x4011, 4, 4, .domain, .ro, (.value 0), .any⟩,
  ⟨0x4011, 0x4011, 5, 5, .u32, .ro, (.value 0), .any⟩,
  ⟨0x4011, 0x4011, 6, 6, .u64, .ro, (.value 0), .any⟩,
  ⟨0x4011, 0x4011, 7, 7, .u32, .ro, (.value 0), .any⟩,
  ⟨0x4011, 0x4011, 8, 8, .u32, .ro, (.value 0), .any⟩,
  ⟨0x4012, 0x4012, 1, 1, .u32, .ro, (.value 0), .any⟩,
  ⟨0x4012, 0x4012, 2, 2, .domain, .ro, (.value 0), .any⟩]

/-- Objects from 5000h. -/
def rows5a : List ObjRow := [
  ⟨0x5000, 0x5003, 1, 1, .u8, .ro, (.value 0), .any⟩,
  ⟨0x5000, 0x5003, 2, 2, .u8, .ro, (.value 0), .any⟩,
  ⟨0x5000, 0x5003, 3, 3, .u8, .ro, (.value 0), .any⟩,
  ⟨0x5000, 0x5003, 4, 4, .u32, .ro, (.value 0), .any⟩,
  ⟨0x5000, 0x5003, 5, 5, .u8, .ro, (.value 0), .any⟩,
  ⟨0x5000, 0x5003, 6, 6, .u64, .ro, (.value 0), .any⟩,
  ⟨0x5000, 0x5003, 7, 7, .u32, .ro, (.value 0), .any⟩,
  ⟨0x5000, 0x5003, 8, 8, .u32, .ro, (.value 0), .any⟩,
  ⟨0x5000, 0x5003, 9, 9, .u32, .ro, (.value 0), .any⟩,
  ⟨0x5000, 0x5003, 10, 10, .u32, .ro, (.value 0), .any⟩,
  ⟨0x5000, 0x5003, 11, 11, .i32, .ro, (.value 0), .any⟩,
  ⟨0x5000, 0x5003, 12, 12, .u64, .ro, (.value 0), .any⟩,
  ⟨0x5000, 0x5003, 13, 13, .u32, .ro, (.value 0), .any⟩,
  ⟨0x5010, 0x5010, 1, 1, .u8, .ro, (.value 0), .any⟩,
  ⟨0x5010, 0x5010, 2, 2, .u32, .ro, (.value 0), .any⟩,
  ⟨0x5010, 0x5010, 3, 3, .u64, .tx, (.value 0), .any⟩,
  ⟨0x5010, 0x5010, 4, 4, .u32, .tx, (.value 0), .any⟩,
  ⟨0x5010, 0x5010, 5, 5, .u8, .ro, (.value 1), .any⟩,
  ⟨0x5010, 0x5010, 6, 6, .u8, .ro, (.value 0), .any⟩,
  ⟨0x5010, 0x5010, 7, 7, .u8, .ro, (.value 0), .any⟩,
  ⟨0x5010, 0x5010, 8, 8, .u64, .ro, (.value 0), .any⟩,
  ⟨0x5010, 0x5010, 9, 9, .u32, .ro, (.value 0), .any⟩,
  ⟨0x5010, 0x5010, 10, 10, .u64, .ro, (.value 0), .any⟩,
  ⟨0x5010, 0x5010, 11, 11, .u16, .ro, (.value 0), .any⟩,
  ⟨0x5020, 0x503F, 1, 1, .u8, .ro, (.value 0), .any⟩,
  ⟨0x5020, 0x503F, 2, 2, .u8, .ro, (.value 0), .any⟩,
  ⟨0x5020, 0x503F, 3, 3, .u64, .ro, (.value 0), .any⟩,
  ⟨0x5020, 0x503F, 4, 4, .u64, .tx, (.value 0), .upTo 0 281474976710655⟩,
  ⟨0x5020, 0x503F, 5, 5, .u64, .ro, (.value 0), .any⟩,
  ⟨0x5020, 0x503F, 6, 6, .u64, .ro, (.value 0), .any⟩]

/-- Objects from 5020h. -/
def rows5b : List ObjRow := [
  ⟨0x5020, 0x503F, 7, 7, .u32, .ro, (.value 0), .any⟩,
  ⟨0x5020, 0x503F, 8, 8, .u64, .ro, (.value 0), .any⟩,
  ⟨0x5020, 0x503F, 9, 9, .u32, .ro, (.value 0), .any⟩,
  ⟨0x5040, 0x5040, 1, 1, .u8, .tx, (.value 0), .upTo 0 3⟩,
  ⟨0x5040, 0x5040, 2, 2, .domain, .tx, (.value 0), .bytes 16⟩,
  ⟨0x5040, 0x5040, 3, 3, .u16, .tx, (.value 50120), .upTo 1024 65535⟩,
  ⟨0x5040, 0x5040, 4, 4, .u8, .tx, (.value 46), .upTo 0 63⟩,
  ⟨0x5040, 0x5040, 5, 5, .u8, .tx, (.value 0), .upTo 0 63⟩,
  ⟨0x5040, 0x5040, 6, 6, .domain, .tx, (.value 0), .bytes 1048576⟩,
  ⟨0x5040, 0x5040, 7, 7, .domain, .tx, (.value 0), .bytes 1048576⟩,
  ⟨0x5040, 0x5040, 8, 8, .domain, .tx, (.value 0), .bytes 1048576⟩,
  ⟨0x5040, 0x5040, 9, 9, .domain, .tx, (.value 0), .bytes 1048576⟩,
  ⟨0x5040, 0x5040, 10, 10, .u8, .tx, (.value 0), .upTo 0 1⟩,
  ⟨0x5040, 0x5040, 11, 11, .u16, .tx, (.value 64), .upTo 8 4096⟩,
  ⟨0x5040, 0x5040, 12, 12, .u16, .tx, (.value 16), .upTo 1 1600⟩,
  ⟨0x5040, 0x5040, 13, 13, .u8, .tx, (.value 3), .upTo 1 16⟩,
  ⟨0x5040, 0x5040, 14, 14, .domain, .ro, (.value 0), .any⟩,
  ⟨0x5041, 0x5041, 1, 1, .u64, .ro, (.value 0), .any⟩,
  ⟨0x5041, 0x5041, 2, 2, .u64, .ro, (.value 0), .any⟩,
  ⟨0x5041, 0x5041, 3, 3, .u64, .ro, (.value 0), .any⟩,
  ⟨0x5041, 0x5041, 4, 4, .u64, .ro, (.value 0), .any⟩,
  ⟨0x5041, 0x5041, 5, 5, .u32, .ro, (.value 0), .any⟩,
  ⟨0x5041, 0x5041, 6, 6, .u32, .ro, (.value 0), .any⟩,
  ⟨0x5041, 0x5041, 7, 7, .u32, .ro, (.value 0), .any⟩,
  ⟨0x5041, 0x5041, 8, 8, .u32, .ro, (.value 0), .any⟩,
  ⟨0x5041, 0x5041, 9, 9, .u32, .ro, (.value 0), .any⟩,
  ⟨0x5041, 0x5041, 10, 10, .u32, .ro, (.value 0), .any⟩,
  ⟨0x5041, 0x5041, 11, 11, .u64, .ro, (.value 0), .any⟩,
  ⟨0x5041, 0x5041, 12, 12, .u32, .ro, (.value 0), .any⟩,
  ⟨0x5050, 0x5053, 1, 1, .u8, .ro, (.value 0), .any⟩]

/-- Objects from 5050h. -/
def rows5c : List ObjRow := [
  ⟨0x5050, 0x5053, 2, 2, .u8, .ro, (.value 0), .any⟩,
  ⟨0x5050, 0x5053, 3, 3, .u8, .ro, (.value 0), .any⟩,
  ⟨0x5050, 0x5053, 4, 4, .u32, .ro, (.value 0), .any⟩,
  ⟨0x5050, 0x5053, 5, 5, .u32, .ro, (.value 0), .any⟩,
  ⟨0x5050, 0x5053, 6, 6, .u32, .ro, (.value 0), .any⟩,
  ⟨0x5050, 0x5053, 7, 7, .u64, .ro, (.value 0), .any⟩,
  ⟨0x5050, 0x5053, 8, 8, .u64, .ro, (.value 0), .any⟩,
  ⟨0x5060, 0x5060, 1, 1, .u8, .ro, (.value 0), .any⟩,
  ⟨0x5060, 0x5060, 2, 2, .u64, .tx, (.value 0), .pages⟩,
  ⟨0x5060, 0x5060, 3, 3, .u32, .tx, (.value 0), .upTo 0 2097152⟩,
  ⟨0x5060, 0x5060, 4, 4, .u8, .tx, (.value 0), .upToOrFF 3⟩,
  ⟨0x5060, 0x5060, 5, 5, .u32, .ro, (.value 0), .any⟩,
  ⟨0x5060, 0x5060, 6, 9, .u64, .tx, (.value 0), .largePages⟩,
  ⟨0x5060, 0x5060, 10, 13, .u64, .tx, (.value 0), .largePages⟩,
  ⟨0x5060, 0x5060, 14, 14, .u16, .tx, (.value 100), .upTo 20 10000⟩,
  ⟨0x5060, 0x5060, 15, 15, .u16, .tx, (.value 100), .upTo 20 10000⟩,
  ⟨0x5060, 0x5060, 16, 16, .u64, .ro, (.value 0), .any⟩,
  ⟨0x5060, 0x5060, 17, 17, .u32, .ro, (.value 0), .any⟩,
  ⟨0x5060, 0x5060, 18, 18, .u32, .ro, (.value 0), .any⟩,
  ⟨0x5060, 0x5060, 19, 19, .u32, .ro, (.value 0), .any⟩]

/-- Objects from 6100h. -/
def rows6a : List ObjRow := [
  ⟨0x6100, 0x6100, 1, 1, .u8, .ro, (.value 0), .any⟩,
  ⟨0x6100, 0x6100, 2, 2, .u8, .ro, (.value 0), .any⟩,
  ⟨0x6100, 0x6100, 3, 3, .u32, .ro, (.value 0), .any⟩,
  ⟨0x6100, 0x6100, 4, 4, .u32, .ro, (.value 0), .any⟩,
  ⟨0x6100, 0x6100, 5, 5, .u32, .ro, (.value 0), .any⟩,
  ⟨0x6100, 0x6100, 6, 6, .u32, .ro, (.value 0), .any⟩,
  ⟨0x6100, 0x6100, 7, 7, .u8, .tx, (.value 3), .upTo 1 16⟩,
  ⟨0x6100, 0x6100, 8, 8, .u32, .tx, (.value 45000), .upTo 500 4320000⟩,
  ⟨0x6100, 0x6100, 9, 9, .u8, .tx, (.value 1), .upTo 0 1⟩,
  ⟨0x6100, 0x6100, 10, 10, .u16, .tx, (.value 64), .upTo 1 65535⟩,
  ⟨0x6110, 0x6117, 1, 1, .u8, .ro, (.value 0), .any⟩,
  ⟨0x6110, 0x6117, 2, 2, .u8, .ro, (.value 0), .any⟩,
  ⟨0x6110, 0x6117, 3, 3, .fst, .ro, (.value 0), .any⟩,
  ⟨0x6110, 0x6117, 4, 4, .u8, .tx, (.value 0), .upTo 0 2⟩,
  ⟨0x6110, 0x6117, 5, 5, .u8, .ro, (.value 0), .any⟩,
  ⟨0x6110, 0x6117, 6, 6, .u8, .ro, (.value 0), .any⟩,
  ⟨0x6120, 0x6120, 1, 1, .u64, .ro, (.value 0), .any⟩,
  ⟨0x6120, 0x6120, 2, 2, .domain, .ro, (.value 0), .any⟩,
  ⟨0x6120, 0x6120, 3, 3, .domain, .ro, (.value 0), .any⟩,
  ⟨0x6120, 0x6120, 4, 4, .u32, .ro, (.value 0), .any⟩,
  ⟨0x6120, 0x6120, 5, 5, .u8, .tx, (.value 0), .upTo 0 1⟩,
  ⟨0x6000, 0x6013, 1, 1, .u32, .rw, (.value 0), .any⟩,
  ⟨0x6000, 0x6013, 2, 2, .u8, .tx, (.value 0), .upTo 0 2⟩,
  ⟨0x6000, 0x6013, 3, 3, .u16, .ro, (.value 0), .any⟩,
  ⟨0x6000, 0x6013, 4, 4, .u32, .ro, (.value 0), .any⟩,
  ⟨0x6020, 0x6020, 1, 1, .u16, .tx, (.maxSustained), .caps⟩,
  ⟨0x6020, 0x6020, 2, 2, .u16, .tx, (.floor), .caps⟩,
  ⟨0x6020, 0x6020, 3, 3, .u16, .tx, (.floor), .caps⟩,
  ⟨0x6020, 0x6020, 4, 4, .u16, .tx, (.value 1200), .caps⟩,
  ⟨0x6020, 0x6020, 5, 5, .u16, .tx, (.minCap), .caps⟩]

/-- Objects from 6020h. -/
def rows6b : List ObjRow := [
  ⟨0x6020, 0x6020, 6, 6, .u16, .ro, (.value 0), .any⟩,
  ⟨0x6020, 0x6020, 7, 7, .u8, .ro, (.value 16), .any⟩,
  ⟨0x6020, 0x6020, 8, 8, .u8, .ro, (.value 20), .any⟩,
  ⟨0x6020, 0x6020, 9, 9, .u8, .ro, (.value 0), .any⟩,
  ⟨0x6020, 0x6020, 10, 10, .u16, .ro, (.value 0), .any⟩,
  ⟨0x6020, 0x6020, 11, 11, .u16, .ro, (.value 0), .any⟩,
  ⟨0x6020, 0x6020, 12, 12, .u32, .ro, (.value 0), .any⟩,
  ⟨0x6020, 0x6020, 13, 13, .u8, .tx, (.value 95), .upTo 85 105⟩,
  ⟨0x6020, 0x6020, 14, 14, .u16, .ro, (.value 0), .any⟩,
  ⟨0x6020, 0x6020, 15, 15, .i32, .ro, (.value 0), .any⟩,
  ⟨0x6030, 0x6030, 1, 1, .u8, .ro, (.value 0), .any⟩,
  ⟨0x6030, 0x6030, 2, 2, .u8, .ro, (.value 0), .any⟩,
  ⟨0x6030, 0x6030, 3, 3, .u32, .ro, (.value 0), .any⟩,
  ⟨0x6030, 0x6030, 4, 4, .fst, .ro, (.value 0), .any⟩,
  ⟨0x6030, 0x6030, 5, 5, .u32, .ro, (.value 0), .any⟩]

/-- Objects from 7000h. -/
def rows7a : List ObjRow := [
  ⟨0x7000, 0x7000, 1, 1, .u32, .tx, (.value 30000), .upTo 1600 720000⟩,
  ⟨0x7000, 0x7000, 2, 2, .domain, .tx, (.value 0), .bytes 4194304⟩,
  ⟨0x7000, 0x7000, 3, 3, .domain, .ro, (.value 0), .any⟩,
  ⟨0x7000, 0x7000, 4, 4, .u32, .ro, (.value 0), .any⟩,
  ⟨0x7000, 0x7000, 5, 5, .u32, .ro, (.value 0), .any⟩,
  ⟨0x7010, 0x7017, 1, 1, .fst, .ro, (.value 0), .any⟩,
  ⟨0x7010, 0x7017, 2, 2, .u8, .ro, (.value 0), .any⟩,
  ⟨0x7010, 0x7017, 3, 3, .u32, .ro, (.value 0), .any⟩,
  ⟨0x7010, 0x7017, 4, 4, .u8, .tx, (.value 0), .upTo 0 2⟩]

/-- All objects. -/
def objects : List ObjRow :=
  rows1a ++ rows1b ++ rows1c ++ rows2a ++ rows2b ++ rows2c ++ rows3a ++ rows3b ++ rows3c ++ rows4a ++ rows4b ++ rows5a ++ rows5b ++ rows5c ++ rows6a ++ rows6b ++ rows7a

/-- The row that defines an object. -/
def objRow (index sub : Nat) : Option ObjRow :=
  objects.find? fun r => r.lo ≤ index && index ≤ r.hi && r.subLo ≤ sub && sub ≤ r.subHi

/-- The highest subindex of an index, 0 where no object has it (R477). -/
def highestSub (index : Nat) : Nat :=
  ((objects.filter fun r => r.lo ≤ index && index ≤ r.hi).map ObjRow.subHi).foldl max 0

/-- Bytes of a value of the type; STR and DOMAIN carry their own length (Table 15-2). -/
def ObjType.size : ObjType → Nat
  | .u8 => 1 | .u16 => 2 | .u32 => 4 | .u64 => 8 | .i32 => 4 | .f32 => 4 | .fst => 8 | .str => 0
  | .domain => 8

/-- Codes of Table 15-2. -/
def ObjType.code : ObjType → Nat
  | .u8 => 1 | .u16 => 2 | .u32 => 3 | .u64 => 4 | .i32 => 5 | .f32 => 6 | .fst => 7 | .str => 8
  | .domain => 9

/-- The value of a default on a part. -/
def Default.eval (p : Part) : Default → Nat
  | .value n => n
  | .maxSustained => p.maxSustained
  | .floor => p.defaultFloor
  | .minCap => p.minCap

/-- The default of an object, 0 where none is defined. -/
def objDefault (p : Part) (key : Nat) : Nat :=
  match objRow (key / 256) (key % 256) with
  | some r => r.default.eval p
  | none => 0

/-- Whether a value lies in a stated range. -/
def Range.holds (p : Part) (v : Nat) : Range → Bool
  | .any => true
  | .upTo lo hi => lo ≤ v && v ≤ hi
  | .upToOrFF hi => v ≤ hi || v == 0xFF
  | .power lo hi z => (z && v == 0) || (lo ≤ v && v ≤ hi && 2 ^ Nat.log2 v == v)
  | .pages => v % 4096 == 0
  | .largePages => v % 2097152 == 0
  | .caps => p.minCap ≤ v && v ≤ p.maxSustained
  | .bytes n => v ≤ n

/-- Objects of a site that the part lacks (R7). PWR_DOMAIN_STATUS is always present. -/
def absent (p : Part) (index sub : Nat) : Bool :=
  if 0x3010 ≤ index && index < 0x301A then p.hbmStacks ≤ index - 0x3010
  else if 0x5020 ≤ index && index < 0x5040 then p.uplinks ≤ index - 0x5020
  else if 0x6000 ≤ index && index < 0x6014 then sub != 1 && !p.populated (index - 0x6000)
  else false

end Sys2Proof.Machine
end

