-- ==== Sys2Proof/Machine/Operands.lean ====
section
/-! DEFINITION. The plain containers and byte strings that commands work on: maps by natural-number key, memory
as cells in canonical form, and little-endian fields (R16). -/

namespace Sys2Proof.Machine

/-! ### Maps by key -/

/-- The value at a key. -/
def kget? {α : Type} : KMap α → Nat → Option α
  | [], _ => none
  | (j, v) :: m, k => if k = j then some v else kget? m k

/-- The value at a key, or a default. -/
def kgetD {α : Type} (m : KMap α) (k : Nat) (d : α) : α := (kget? m k).getD d

/-- The map with a value put at a key, in rising key order. -/
def kset {α : Type} : KMap α → Nat → α → KMap α
  | [], k, v => [(k, v)]
  | (j, w) :: m, k, v =>
    if k < j then (k, v) :: (j, w) :: m
    else if k = j then (k, v) :: m
    else (j, w) :: kset m k v

/-- The map without a key. -/
def kdel {α : Type} : KMap α → Nat → KMap α
  | [], _ => []
  | (j, w) :: m, k => if k = j then m else (j, w) :: kdel m k

/-- The map with a value changed where the key is present. -/
def kmod {α : Type} (m : KMap α) (k : Nat) (f : α → α) : KMap α :=
  m.map fun p => if p.1 = k then (p.1, f p.2) else p

/-- The map with the entries of an interval of keys dropped. -/
def kdrop {α : Type} (m : KMap α) (lo hi : Nat) : KMap α :=
  m.filter fun p => !(lo ≤ p.1 && p.1 < hi)

/-- A count at a key, 0 where none is listed, moved by a function. -/
def kcount (m : KMap Nat) (k : Nat) (f : Nat → Nat) : KMap Nat := kset m k (f (kgetD m k 0))

/-- Keys strictly rising: the canonical form. -/
def ksorted {α : Type} : KMap α → Bool
  | [] => true
  | [_] => true
  | (i, _) :: (j, w) :: m => i < j && ksorted ((j, w) :: m)

/-! ### Lists with a default -/

/-- Element `i` changed by a function; the list as it is where it has no element `i`. -/
def lmod {α : Type} (l : List α) (i : Nat) (f : α → α) : List α := l.modify i f

/-- Element `i`, or the default value. -/
def lget {α : Type} [Inhabited α] (l : List α) (i : Nat) : α := l.getD i default

/-! ### Memory

A memory is a list of cells in canonical form: addresses strictly rising and no cell that holds zero,
which is what an unlisted address reads as (R269, R283). -/

/-- One byte. -/
def readByte : List Host.Cell → Nat → Byte
  | [], _ => 0
  | (a, b) :: m, x => if x = a then b else readByte m x

/-- The memory with one byte written. -/
def writeByte : List Host.Cell → Nat → Byte → List Host.Cell
  | [], x, v => if v = 0 then [] else [(x, v)]
  | (a, b) :: m, x, v =>
    if x < a then (if v = 0 then (a, b) :: m else (x, v) :: (a, b) :: m)
    else if x = a then (if v = 0 then m else (a, v) :: m)
    else (a, b) :: writeByte m x v

/-- `n` bytes from an address up. -/
def readBytes (m : List Host.Cell) (x : Nat) : Nat → List Byte
  | 0 => []
  | n + 1 => readByte m x :: readBytes m (x + 1) n

/-- The memory with bytes written from an address up. -/
def writeBytes (m : List Host.Cell) (x : Nat) : List Byte → List Host.Cell
  | [] => m
  | b :: bs => writeBytes (writeByte m x b) (x + 1) bs

/-- The memory with the bytes of a range set to zero. -/
def clearBytes (m : List Host.Cell) (lo hi : Nat) : List Host.Cell :=
  m.filter fun c => !(lo ≤ c.1 && c.1 < hi)

/-- The canonical form. -/
def Memory.canonical : List Host.Cell → Bool
  | [] => true
  | [(_, b)] => b != 0
  | (a, b) :: (c, d) :: m => b != 0 && a < c && Memory.canonical ((c, d) :: m)

/-! ### Byte strings -/

/-- The `n` bytes of a value, little-endian (R16). -/
def le : Nat → Nat → List Byte
  | 0, _ => []
  | n + 1, v => BitVec.ofNat 8 v :: le n (v / 256)

/-- The value of a little-endian byte string. -/
def ofLe : List Byte → Nat
  | [] => 0
  | b :: bs => b.toNat + 256 * ofLe bs

/-- The value of a big-endian byte string (R588). -/
def ofBe (bs : List Byte) : Nat := ofLe bs.reverse

/-- `n` bytes at an offset; bytes past the end read as zero. -/
def slice (bs : List Byte) (off n : Nat) : List Byte :=
  let t := (bs.drop off).take n
  t ++ List.replicate (n - t.length) 0

/-- The little-endian field of `n` bytes at an offset. -/
def field (bs : List Byte) (off n : Nat) : Nat := ofLe ((bs.drop off).take n)

/-- Whether `n` bytes at an offset are zero. -/
def zeros (bs : List Byte) (off n : Nat) : Bool := ((bs.drop off).take n).all (· == 0)

/-- Bit `i` of a number. -/
def bit (v i : Nat) : Bool := v / 2 ^ i % 2 == 1

/-- Bits [hi:lo] of a number. -/
def bits (v hi lo : Nat) : Nat := v / 2 ^ lo % 2 ^ (hi + 1 - lo)

/-- A Bool as a bit. -/
def ofBit (b : Bool) : Nat := if b then 1 else 0

/-- A byte string padded with zeros to a length. -/
def padTo (bs : List Byte) (n : Nat) : List Byte := bs ++ List.replicate (n - bs.length) 0

/-- A byte string with bytes put in at an offset. -/
def splice (bs : List Byte) (off : Nat) (new : List Byte) : List Byte :=
  padTo (bs.take off) off ++ new ++ bs.drop (off + new.length)

/-- A two's complement value of `w` bits. -/
def ofSigned (w : Nat) (i : Int) : Nat := (i % (2 : Int) ^ w).toNat

/-- The integer that `w` bits in two's complement stand for. -/
def toSigned (w v : Nat) : Int := if 2 * v < 2 ^ w then (v : Int) else (v : Int) - (2 : Int) ^ w

/-- The ceiling of a quotient. -/
def ceilDiv (a b : Nat) : Nat := (a + b - 1) / b

/-- The bytes of an ASCII string. -/
def ascii (s : String) : List Byte := s.toList.map fun c => BitVec.ofNat 8 c.toNat

/-- Consecutive pieces of `n` elements; the last may be shorter. The fuel bounds their number. -/
def pieces {α : Type} (n : Nat) : Nat → List α → List (List α)
  | 0, _ => []
  | f + 1, l => if l.isEmpty then [] else l.take n :: pieces n f (l.drop n)

end Sys2Proof.Machine
end

