-- ==== Sys2Proof/Machine/Flags.lean ====
section
/-! DEFINITION. What is computed from state rather than stored: saturating counters, the FST, event
severities, the stretch factor and the working mask. -/

namespace Sys2Proof.Machine

/-- A counter of `w` bits saturates at its maximum. -/
def sat (w n : Nat) : Nat := min (2 ^ w - 1) n

/-! ### The FST (R40, R41) -/

/-- An FST from its fields (Table 2-1). -/
def fstOf (frame slot fraction : Nat) : Nat := frame * 2 ^ 24 + slot * 2 ^ 16 + fraction

/-- FRACTION from the fabric cycles since the last boundary (R41). -/
def fractionOf (c : Nat) : Nat := min 65535 (c * 65536 / 156250)

/-- The FST at this instant; it reads 0 until the time base is first LOCKED (R44). -/
def TimeBase.fst (t : TimeBase) : Nat :=
  if t.state = .acquiring then 0 else fstOf t.frame t.slot (fractionOf t.cyc)

/-- The FST of the last slot boundary. -/
def TimeBase.boundaryFst (t : TimeBase) : Nat :=
  if t.state = .acquiring then 0 else fstOf t.frame t.slot 0

/-- Slots since frame 0 opened. -/
def TimeBase.slots (t : TimeBase) : Nat := t.frame * 160 + t.slot

/-- Nominal fabric cycles since frame 0 opened. -/
def TimeBase.now (t : TimeBase) : Nat := t.slots * 156250 + t.cyc

/-- FRAME and SLOT of an FST. -/
def frameOf (fst : Nat) : Nat := fst / 2 ^ 24
def slotOf (fst : Nat) : Nat := fst / 2 ^ 16 % 256

/-! ### Status codes (Tables 9-6, 10-5, 15-5 and 15-5-a) -/

namespace Status

abbrev OK : Nat := 0x0000
abbrev NOT_READY : Nat := 0x0001
abbrev NO_OBJECT : Nat := 0x0002
abbrev NOT_PRESENT : Nat := 0x0003
abbrev ACCESS : Nat := 0x0004
abbrev TYPE_MISMATCH : Nat := 0x0005
abbrev VALUE_RANGE : Nat := 0x0006
abbrev VALUE_STATE : Nat := 0x0007
abbrev TX_REQUIRED : Nat := 0x0008
abbrev TX_UNKNOWN : Nat := 0x0009
abbrev TX_CONFLICT : Nat := 0x000A
abbrev TX_LIMIT : Nat := 0x000B
abbrev TX_STATE : Nat := 0x000C
abbrev COMMIT_SLOT : Nat := 0x000D
abbrev COMMIT_REFUSED : Nat := 0x000E
abbrev DOMAIN_CHANGED : Nat := 0x000F
abbrev DOMAIN_INCOMPLETE : Nat := 0x0010
abbrev MESSAGE_INVALID : Nat := 0x0011
abbrev STO_BUSY : Nat := 0x0101
abbrev STO_MODE_REQUIRED : Nat := 0x0102
abbrev STO_SIGNATURE : Nat := 0x0103
abbrev PKG_INVALID : Nat := 0x0104
abbrev STO_TAG_EXISTS : Nat := 0x0105
abbrev STO_FULL : Nat := 0x0106
abbrev STO_DIGEST : Nat := 0x0107
abbrev STO_SOURCE_ERROR : Nat := 0x0108
abbrev STO_NOT_FOUND : Nat := 0x0109
abbrev STO_IN_USE : Nat := 0x010A
abbrev STO_NO_FIT : Nat := 0x010B
abbrev STO_NO_ROOM : Nat := 0x010C
abbrev STO_SHARD_CORRUPT : Nat := 0x010D
abbrev STO_EPOCH_INCOMPATIBLE : Nat := 0x010E
abbrev STO_EPOCH_BUSY : Nat := 0x010F
abbrev STO_STORE_OFF : Nat := 0x0110
abbrev STO_CANCELLED : Nat := 0x0111
abbrev ALREADY_SWITCHED : Nat := 0x0112
abbrev STO_READ_ONLY : Nat := 0x0113
abbrev STO_ABANDONED : Nat := 0x0114
abbrev STO_PARK_AREA : Nat := 0x0115
abbrev ADMITTED : Nat := 0x0201
abbrev ACCEPTED : Nat := 0x0202
abbrev STREAM_IN_USE : Nat := 0x0203
abbrev NO_STREAM : Nat := 0x0204
abbrev STREAM_BUSY : Nat := 0x0205
abbrev BUDGET_EXHAUSTED : Nat := 0x0206
abbrev NO_MODEL : Nat := 0x0207
abbrev INPUT_TOO_LONG : Nat := 0x0208
abbrev CONTEXT_LIMIT : Nat := 0x0209
abbrev ADAPTER_UNKNOWN : Nat := 0x020A
abbrev FIELD_INVALID : Nat := 0x020B
abbrev CLASS0_NO_CAPACITY : Nat := 0x020C
abbrev TIME_HOLDOVER : Nat := 0x020D
abbrev MODEL_SWITCHING : Nat := 0x020E
abbrev INPUT_READ_ERROR : Nat := 0x020F
abbrev COMPLETE : Nat := 0x0210
abbrev CANCELLED : Nat := 0x0211
abbrev ALREADY_COMPLETE : Nat := 0x0212
abbrev CONTEXT_FULL : Nat := 0x0213
abbrev MODEL_SWITCHED : Nat := 0x0214
abbrev WEIGHTS_LOST : Nat := 0x0215
abbrev GROUP_RESET : Nat := 0x0216
abbrev STEP_FAILED : Nat := 0x0217
abbrev LATE_DISCARDED : Nat := 0x0218
abbrev SUPPRESSED : Nat := 0x0219
abbrev PARKED : Nat := 0x021A
abbrev UNPARKED : Nat := 0x021B
abbrev MEM_PARK_FULL : Nat := 0x021C
abbrev CLASS_CHANGED : Nat := 0x021D
abbrev MODULE_EJECTED : Nat := 0x021E
abbrev PARK_FAILED : Nat := 0x021F
abbrev FAB_SLOT_BUSY : Nat := 0x0301
abbrev FAB_SLOT_ACTIVE : Nat := 0x0302
abbrev FAB_STORE_FULL : Nat := 0x0303
abbrev FAB_SLOT_NOT_READY : Nat := 0x0304
abbrev SRV_RING_IN_USE : Nat := 0x0305
abbrev LCE_SPAN_SHAPE : Nat := 0x0306
abbrev LCE_SPAN_IN_USE : Nat := 0x0307
abbrev DSP_TABLE_INVALID : Nat := 0x0308
abbrev HLK_WINDOW_IN_USE : Nat := 0x0309

end Status

/-! ### Events -/

/-- Events of severity 0 and 2; every other code has severity 1 (R622, Table 10-11-a). -/
def noticeCodes : List Nat := [
  0x0605, 0x0606, 0x0607, 0x0702, 0x0706, 0x070B, 0x070C, 0x070D, 0x0803, 0x0804, 0x0901, 0x0907,
  0x0908, 0x0909, 0x0A02, 0x0B02, 0x0B04, 0x0B08, 0x0B09, 0x0B0A, 0x0B0C, 0x0C03, 0x0C04, 0x0C08,
  0x0C09, 0x0C0A, 0x0D07, 0x0D09, 0x0D0A, 0x0E02, 0x0E04, 0x0E05, 0x0E06, 0x0E08, 0x0E09]

def errorCodes : List Nat := [
  0x0104, 0x0105, 0x0503, 0x0603, 0x0608, 0x0704, 0x0707, 0x0904, 0x0A04, 0x0B03, 0x0B07, 0x0B0D,
  0x0C01, 0x0C06, 0x0C07, 0x0D02, 0x0D0B, 0x0D0C, 0x0D0D]

/-- SEVERITY of an event code: 0 notice, 1 warning, 2 error. -/
def severity (code : Nat) : Nat :=
  if noticeCodes.contains code then 0 else if errorCodes.contains code then 2 else 1

/-- The 32 bytes of an event record (R354). -/
def Event.bytes (e : Event) : List Byte :=
  le 8 e.fst ++ le 2 e.code ++ le 1 (severity e.code) ++ le 1 e.group ++ le 4 e.arg0 ++ le 8 e.arg1 ++
    le 8 e.arg2

/-! ### Power (R546, R547) -/

/-- k of σ(C): the smallest from 16 to 48 whose power fits the cap. -/
def sigmaOf (p : Part) (cap : Nat) : Nat :=
  (((List.range 33).map (· + 16)).find? fun k => p.pRest * k + 16 * p.pFab ≤ cap * k).getD 48

/-- ⌈W × σ⌉ with σ = k/16 (R57). -/
def costAt (k w : Nat) : Nat := ceilDiv (w * k) 16

/-! ### Quadrants (R34, Table 16-3) -/

/-- Whether a quadrant in this state is in the working mask. -/
def QuadState.inMask : QuadState → Bool
  | .working | .suspect | .fencing => true
  | .fenced | .unfencing | .off => false

/-- FAB_WORKING_MASK. -/
def Ras.mask (r : Ras) : Nat :=
  ((r.quads.zipIdx).map fun (q, i) => if q.state.inMask then 2 ^ i else 0).sum

/-- FAB_QUADRANTS_WORKING. -/
def Ras.workingQuads (r : Ras) : Nat := (r.quads.filter fun q => q.state.inMask).length

/-- The number of bits set in a mask of eight. -/
def popcount8 (m : Nat) : Nat := ((List.range 8).filter fun i => bit m i).length

/-- The number of bits set in a mask of 64. -/
def popcount64 (m : Nat) : Nat := ((List.range 64).filter fun i => bit m i).length

/-! ### Codes of the states -/

def TbState.code : TbState → Nat
  | .acquiring => 0 | .locked => 1 | .holdover => 2 | .holdoverLimit => 3

def FabState.code : FabState → Nat
  | .empty => 0 | .idle => 1 | .swapping => 2 | .running => 3 | .voiding => 4

def SlotState.code : SlotState → Nat
  | .free => 0 | .loading => 1 | .ready => 2 | .active => 3 | .faulted => 4

def StackState.code : StackState → Nat
  | .off => 0 | .init => 1 | .ready => 2 | .degraded => 3 | .failed => 4

def PageState.code : PageState → Nat
  | .free => 0 | .resident => 1 | .movingOut => 2 | .parked => 3 | .movingIn => 4

def StoreStackState.code : StoreStackState → Nat
  | .off => 0 | .init => 1 | .ready => 2 | .readOnly => 3 | .failed => 4

def SwitchState.code : SwitchState → Nat
  | .idle => 0 | .staging => 1 | .staged => 2 | .switching => 3

def OpState.code : OpState → Nat
  | .idle => 0 | .running => 1 | .done => 2 | .failed => 3

def StreamState.code : StreamState → Nat
  | .pending => 1 | .active => 2 | .idle => 3 | .parked => 4 | .ending => 5

def NodeState.code : NodeState → Nat
  | .opn => 0 | .complete => 1 | .releasing => 2 | .reopening => 3 | .broken => 4

def LaceState.code : LaceState → Nat
  | .off => 0 | .dark => 1 | .training => 2 | .hello => 3 | .up => 4 | .narrow => 5 | .leaving => 6
  | .down => 7

def SpanState.code : SpanState → Nat
  | .forming => 0 | .intact => 1 | .detoured => 2 | .broken => 3

def UplinkState.code : UplinkState → Nat
  | .off => 0 | .down => 1 | .up => 2

def UcieState.code : UcieState → Nat
  | .off => 0 | .training => 1 | .active => 2 | .retrain => 3 | .down => 4

def FieldState.code : FieldState → Nat
  | .off => 0 | .waitBeacon => 1 | .inCycle => 2 | .fault => 3

def TxState.code : TxState → Nat
  | .opn => 1 | .scheduled => 2 | .committed => 3 | .refused => 4 | .rolledBack => 5

def QuadState.code : QuadState → Nat
  | .working => 0 | .suspect => 1 | .fencing => 2 | .fenced => 3 | .unfencing => 4 | .off => 5

def ServiceState.code : ServiceState → Nat
  | .serving => 0 | .noStep => 1 | .outOfService => 2

def DomainState.code : DomainState → Nat
  | .off => 0 | .starting => 1 | .on => 2 | .stopping => 3 | .fault => 4 | .unpopulated => 5

def HotSwap.code : HotSwap → Nat
  | .inService => 0 | .draining => 1 | .readyToRemove => 2

def ModuleState.code : ModuleState → Nat
  | .rom => 0 | .bootFailed => 1 | .bringUp => 2 | .ready => 3 | .serving => 4

def LoadState.code : LoadState → Nat
  | .idle => 0 | .running => 1 | .done => 2 | .failed => 3

def DebugState.code : DebugState → Nat
  | .locked => 0 | .unlockPending => 1 | .unlocked => 2 | .opn => 3

def AttestState.code : AttestState → Nat
  | .idle => 0 | .generating => 1 | .ready => 2

end Sys2Proof.Machine
end

