-- ==== Sys2Proof/Machine/Ops.lean ====
section
/-! DEFINITION. The named operations over the whole state that commands share: configuration objects, the
instant of a command, free values, events, power figures and units. -/

namespace Sys2Proof.Machine

/-- The outcome of a command on a unit that exists; a fault where it does not. -/
def onUnit (present : Bool) (t : State) : Host.Outcome State Fault Refusal :=
  if present then .next t else .fault .noSuchUnit

/-- The state after a command: the state before it where the command stops. -/
def outcomeState (s : State) : Host.Outcome State Fault Refusal → State
  | .next t => t
  | _ => s

/-! ### Configuration objects -/

/-- The value of a configuration object: as last committed, else its default. -/
def State.reg (s : State) (key : Nat) : Nat := (kget? s.regs key).getD (objDefault s.part key)

/-- A map of register values with one set; the default value is not listed. -/
def setReg (p : Part) (m : KMap Nat) (key v : Nat) : KMap Nat :=
  if v = objDefault p key then kdel m key else kset m key v

/-- The state with a configuration object set. -/
def State.setReg (s : State) (key v : Nat) : State :=
  { s with regs := Machine.setReg s.part s.regs key v }

/-- The bytes of a configuration object of type DOMAIN, empty by default. -/
def State.blob (s : State) (key : Nat) : List Byte := kgetD s.blobs key []

/-- The state with such an object set; empty bytes are not listed. -/
def State.setBlob (s : State) (key : Nat) (v : List Byte) : State :=
  { s with blobs := if v.isEmpty then kdel s.blobs key else kset s.blobs key v }

/-! ### The instant and free values -/

/-- The state `c` fabric cycles after the last slot boundary. -/
def State.stamp (s : State) (c : Nat) : State := { s with tb := { s.tb with cyc := c } }

/-- The FST now. -/
def State.fst (s : State) : Nat := s.tb.fst

/-- A value that the spec leaves open, and the state with the draw counted. -/
def State.draw (s : State) : Nat × State := (Config.freeValue s.free, { s with free := s.free + 1 })

/-! ### Events (R354) -/

/-- The log keeps the last 64 event records. -/
def logEvent (log : List Event) (e : Event) : List Event := (log ++ [e]).drop (log.length + 1 - 64)

/-- Entries free in the event ring, less the events that wait for it. -/
def Serving.eventRoom (v : Serving) (entries : Nat) : Nat :=
  entries - (v.eventProducer + 2 ^ 32 - v.eventConsumer) % 2 ^ 32 - v.eventQueue.length

/-- An event reaches the log, and the ring where it has room. After a loss the first record written is
SRV_EVENTS_LOST. `entries` is 0 while the ring is not configured or the host link is down (R459). -/
def Serving.raise (v : Serving) (entries : Nat) (e : Event) : Serving :=
  if v.eventRoom entries = 0 then
    { v with log := logEvent v.log e
             eventsPending := sat 32 (v.eventsPending + 1)
             eventsLost := sat 32 (v.eventsLost + 1) }
  else if v.eventsPending = 0 then
    { v with log := logEvent v.log e, eventQueue := v.eventQueue ++ [e] }
  else
    let lost : Event := { fst := e.fst, code := 0x070A, group := 0xFF, arg0 := v.eventsPending,
                          arg1 := 0, arg2 := 0 }
    if v.eventRoom entries = 1 then
      { v with log := logEvent (logEvent v.log lost) e
               eventQueue := v.eventQueue ++ [lost]
               eventsPending := 1
               eventsLost := sat 32 (v.eventsLost + 1) }
    else
      { v with log := logEvent (logEvent v.log lost) e
               eventQueue := v.eventQueue ++ [lost, e]
               eventsPending := 0 }

/-- Raise an event for a group (FFh for none). -/
def State.raiseFor (s : State) (code group arg0 arg1 arg2 : Nat) : State :=
  let e : Event := { fst := s.fst, code := code, group := group, arg0 := arg0 % 2 ^ 32,
                     arg1 := arg1 % 2 ^ 64, arg2 := arg2 % 2 ^ 64 }
  { s with srv := s.srv.raise (if s.hlk.up then s.reg Reg.SRV_EVENT_ENTRIES else 0) e }

/-- Raise an event that concerns no group. -/
def State.raise (s : State) (code arg0 arg1 arg2 : Nat) : State := s.raiseFor code 0xFF arg0 arg1 arg2

/-! ### Power (R546 to R551) -/

/-- PWR_CAP_FAST1 to 3 by level; level 0 sets no cap. -/
def State.fastCap (s : State) (level : Nat) : Nat :=
  match level with
  | 0 => s.part.maxSustained
  | 1 => s.reg Reg.PWR_CAP_FAST1
  | 2 => s.reg Reg.PWR_CAP_FAST2
  | _ => s.reg Reg.PWR_CAP_FAST3

/-- PWR_THERMAL_CAP in whole watts (R552). -/
def State.thermalCap (s : State) : Nat := s.part.maxSustained - ceilDiv s.pwr.thermalDrop 2

/-- The smallest of the three caps that count for σ and for a floor breach (R547). -/
def State.sigmaCap (s : State) : Nat :=
  min (s.reg Reg.PWR_CAP) (min (s.fastCap s.pwr.fastLevel) s.thermalCap)

/-- PWR_EFFECTIVE_CAP (R547). -/
def State.effectiveCap (s : State) : Nat := if s.pwr.warn then 0 else s.sigmaCap

/-- k of σ(floor): PWR_SIGMA_FLOOR (R550). -/
def State.floorK (s : State) : Nat := sigmaOf s.part (s.reg Reg.PWR_GUARANTEE_FLOOR)

/-- The state with σ following the cap, and a breach of the floor begun or ended (R547, R551). -/
def State.followCap (s : State) : State :=
  let cap := s.sigmaCap
  let k := sigmaOf s.part cap
  let low := cap < s.reg Reg.PWR_GUARANTEE_FLOOR
  let t := { s with pwr := { s.pwr with k := k, breach := low } }
  if low && !s.pwr.breach then
    { t with pwr := { t.pwr with breaches := sat 32 (t.pwr.breaches + 1) } }.raise 0x0C02 0 cap k
  else if !low && s.pwr.breach then t.raise 0x0C03 0 cap k
  else t

/-! ### Stable sorting -/

/-- Stable order by a key. -/
def insertBy {α : Type} (key : α → Nat) (x : α) : List α → List α
  | [] => [x]
  | y :: ys => if key x < key y then x :: y :: ys else y :: insertBy key x ys

def sortBy {α : Type} (key : α → Nat) (xs : List α) : List α := xs.foldl (fun l x => insertBy key x l) []

/-! ### Units -/

/-- Switched domain `d`. -/
def State.domain (s : State) (d : Nat) : Domain := lget s.pwr.domains d

/-- Whether switched domain `d` is ON. -/
def State.domainOn (s : State) (d : Nat) : Bool := (s.domain d).state = .on

/-- The domain that holds an HBM stack, an eyelet, a store stack (Tables 17-1, 17-2). -/
def Part.domainOfStack (p : Part) (n : Nat) : Nat :=
  8 + (((List.range 5).find? fun g => (p.stacksOfGroup g).contains n).getD 0)

def Part.domainOfEyelet (p : Part) (n : Nat) : Nat :=
  15 + (((List.range 3).find? fun g => (p.eyeletsOfGroup g).contains n).getD 0)

def domainOfStore (n : Nat) : Nat := 13 + n / 4

/-- FAB_WORKING_MASK. -/
def State.mask (s : State) : Nat := s.ras.mask

/-- The uptime in slots, which never jumps: what durations in slots are measured by. -/
def State.uptime (s : State) : Nat := s.boot.uptime

/-- Fabric cycles of uptime, which never jump. -/
def State.clock (s : State) : Nat := s.boot.uptime * 156250 + s.tb.cyc

/-- Change quadrant `q`. -/
def State.modQuad (s : State) (q : Nat) (f : Quadrant → Quadrant) : State :=
  { s with ras := { s.ras with quads := lmod s.ras.quads q f } }

/-- Whether a fence or an unfence waits for the fabric (R121). -/
def State.fencePending (s : State) : Bool :=
  s.ras.quads.any fun q => q.state = .fencing || q.state = .unfencing

/-- Change domain `d`. -/
def State.modDomain (s : State) (d : Nat) (f : Domain → Domain) : State :=
  { s with pwr := { s.pwr with domains := lmod s.pwr.domains d f } }

/-- Record the status of a command that stands for a commit (Table 15-5). -/
def State.status (s : State) (code : Nat) : State :=
  { s with dict := { s.dict with lastStatus := code } }

/-- The rows of a step in order, and its streams. -/
def StepRun.rows (x : StepRun) : List PassRow := x.entries.flatMap (·.rows)
def StepRun.streams (x : StepRun) : List Nat := (x.rows.map (·.stream)).eraseDups

/-- Input units that a step takes of a stream. -/
def StepRun.unitsOf (x : StepRun) (n : Nat) : Nat := ((x.rows.find? fun r => r.stream = n).map (·.units)).getD 0

/-- Streams that are not FREE. -/
def State.anyStream (s : State) : Bool := !s.srv.streams.isEmpty

end Sys2Proof.Machine
end

