-- ==== Sys2Proof/Machine/TimeBase.lean ====
section
/-! DEFINITION. The time base (R36 to R54, R624): FREF edges and their classification, the flywheel, holdover,
phase jumps and frame-mark conflicts, REFCLK, and the commits of its two objects. -/

namespace Sys2Proof.Machine

/-! ### Placing a boundary -/

/-- The boundary `ends` fabric cycles before now opens the next slot, or a frame after slot 159 (R44). The
FRAME stays 0 in ACQUIRING, where only the slot is counted. -/
def TimeBase.place (t : TimeBase) : TimeBase :=
  if t.slot < 159 then { t with slot := t.slot + 1, cyc := 0, boundaryDue := true }
  else if t.state = .acquiring then { t with slot := 0, cyc := 0, boundaryDue := true }
  else { t with frame := (t.load.getD (t.frame + 1)) % 2 ^ 40, load := none, slot := 0, cyc := 0,
                boundaryDue := true }

/-- A boundary is placed, and a slot of uptime has passed. -/
def State.placeBoundary (s : State) : State :=
  { s with tb := s.tb.place, boot := { s.boot with uptime := s.boot.uptime + 1 } }

/-- Whether a class-0 stream is admitted (R49, R50). -/
def State.anyClass0 (s : State) : Bool := s.srv.streams.any fun p => p.2.cls = 0

/-- Whether a realignment may be made now (R49, R50). -/
def State.mayRealign (s : State) : Bool := s.tb.armed || !s.anyClass0

/-- A realignment (R51): the frame ends here, the next number opens, and the time base is LOCKED. `ended` is
the slot at which the shortened frame ended. R51 raises TB_REALIGNED; FREF_RELOCK, which R47 raises at the eighth
pulse in window, is not raised here: DESIGN CHOICE, unsafe (log entry 36). -/
def State.realign (s : State) (ended cyc : Nat) : State :=
  let t := s.tb
  let tb := { t with state := .locked, frame := (t.load.getD (t.frame + 1)) % 2 ^ 40, load := none,
                     slot := 0, cyc := cyc, boundaryDue := true, armed := false, jump := false,
                     jumpRun := 0, marks := [], markConflicts := [], missRun := 0, validRun := 1,
                     realigned := some t.frame, edge := none }
  { s with tb := tb }.raise 0x0703 ended tb.boundaryFst 0

/-! ### Edges -/

/-- Whether a position is in the window of R38. -/
def inWindow (refclks : Nat) : Bool := 12498 ≤ refclks && refclks ≤ 12502

/-- An edge that is not taken at an expected position (R45); its pulse still counts for R49. -/
def TimeBase.strayEdge (t : TimeBase) (refclks : Nat) : TimeBase :=
  { t with outOfWindow := sat 32 (t.outOfWindow + 1)
           edge := some { phase := refclks, taken := false, placed := false, miss := t.missRun } }

/-- FREF_EDGE (R45, R624). An edge in window places the boundary in ACQUIRING and LOCKED; in HOLDOVER the
flywheel places it. In ACQUIRING with no valid pulse yet any edge is taken: nothing is expected. -/
def execFrefEdge (refclks : Nat) (s : State) : Host.Outcome State Fault Refusal :=
  match s.tb.edge with
  | some e =>
    if !e.taken && inWindow e.phase then
      .next { s with tb := { s.tb with outOfWindow := sat 32 (s.tb.outOfWindow + 1) } }
    else .next s
  | none =>
    let free := s.tb.state = .acquiring && s.tb.validRun = 0
    if inWindow refclks || free then
      if s.tb.state = .locked || s.tb.state = .acquiring then
        let t := s.placeBoundary
        .next { t with tb := { t.tb with edge := some { phase := refclks, taken := true, placed := true } } }
      else
        .next { s with tb := { s.tb with edge := some { phase := refclks, taken := true, placed := false } } }
    else .next { s with tb := s.tb.strayEdge refclks }

/-! ### Classification (R37, R45 to R50) -/

/-- Classes of a pulse by its high time in REFCLK cycles. -/
inductive Pulse where
  | normal | wide | invalid
  deriving DecidableEq, Repr

/-- The classification of R37. -/
def pulseOf (highTime : Nat) : Pulse :=
  if 8 ≤ highTime ∧ highTime ≤ 24 then .normal
  else if 40 ≤ highTime ∧ highTime ≤ 120 then .wide
  else .invalid

/-- An expected edge without a valid pulse (R45, R46); the slot that holds it is the running one. In
ACQUIRING no position is expected before a valid pulse. -/
def TimeBase.miss (t : TimeBase) : TimeBase :=
  if t.state = .acquiring then
    { t with validRun := 0
             missed := if t.validRun = 0 then t.missed else sat 32 (t.missed + 1) }
  else
    { t with validRun := 0
             missed := sat 32 (t.missed + 1)
             missRun := t.missRun + 1
             missFirst := if t.missRun = 0 then t.boundaryFst else t.missFirst }

/-- The fourth missing edge in a row opens HOLDOVER, counted from the first of the four (R46). -/
def State.openHoldover (s : State) : State :=
  if s.tb.state = .locked && 4 ≤ s.tb.missRun then
    { s with tb := { s.tb with state := .holdover, holdSlots := 3 } }.raise 0x0701 0 s.tb.missFirst 0
  else s

/-- What a valid pulse in window does to the frame mark (Table 2-2, R50). Each slot has its own run; four frames
in a row make a conflict, which stays until a realignment. In ACQUIRING, where no frame is counted, no fault is
counted (R45): DESIGN CHOICE, unsafe (log entry 36). -/
def TimeBase.mark (t : TimeBase) (wide : Bool) : TimeBase :=
  if t.state = .acquiring then
    if wide then { t with slot := 0, wideSeen := true } else t
  else if wide && t.slot != 0 then
    let run := match kget? t.marks t.slot with
      | some (f, n) => if t.frame = (f + 1) % 2 ^ 40 then n + 1 else 1
      | none => 1
    { t with markFaults := sat 32 (t.markFaults + 1)
             marks := kset t.marks t.slot (t.frame, run)
             markConflicts := if 4 ≤ run && !t.markConflicts.contains t.slot then t.markConflicts ++ [t.slot]
               else t.markConflicts }
  else if !wide && t.slot = 0 then { t with markFaults := sat 32 (t.markFaults + 1) }
  else t

/-- The phase filter's output and the correction of the slot, at most 16 fabric cycles (R39): the filter
is not specified: DESIGN CHOICE, safe (log entry 12). -/
def State.filterPhase (s : State) : State :=
  let (e, s1) := s.draw
  let (c, s2) := s1.draw
  { s2 with tb := { s2.tb with phaseError := toSigned 32 (e % 2 ^ 32)
                               phaseCorrection := (c % 33 : Int) - 16 } }

/-- The entry into LOCKED at the eighth valid pulse in a row (R47): at a frame boundary from ACQUIRING,
which opens frame 0 (R44), or the frame that a commit of SRV_FRAME_COUNT_LOAD in ACQUIRING has staged; no event
is raised there. DESIGN CHOICE, unsafe (log entry 36). -/
def State.lock (s : State) : State :=
  if s.tb.validRun < 8 then s
  else match s.tb.state with
    | .acquiring =>
      if s.tb.wideSeen && s.tb.slot = 0 then
        { s with tb := { s.tb with state := .locked, frame := s.tb.load.getD 0 % 2 ^ 40, load := none } }
      else s
    | .locked => s
    | .holdover | .holdoverLimit =>
      { s with tb := { s.tb with state := .locked } }.raise 0x0702 s.tb.holdSlots s.tb.boundaryFst 0

/-- A valid pulse in window. -/
def State.validPulse (s : State) (wide : Bool) : State :=
  let t := s.filterPhase
  let tb := { t.tb with edge := none, missRun := 0, validRun := t.tb.validRun + 1, jump := false,
                        jumpRun := 0 }.mark wide
  let u := { t with tb := tb }
  if wide && t.tb.markConflicts.contains tb.slot && tb.slot != 0 && tb.state != .acquiring && u.mayRealign then
    u.realign tb.slot tb.cyc
  else u.lock

/-- Fabric cycles since an edge that was not taken, from the cycles since the last boundary. -/
def FrefEdge.age (e : FrefEdge) (cyc : Nat) : Nat :=
  if e.crossed then cyc + (12500 - e.phase) * 25 / 2 else cyc - e.phase * 25 / 2

/-- A valid pulse out of window (R49): agreeing pulses, one at each boundary, make a jump; the next wide
pulse of the new train realigns. Two pulses agree when one position was missed between them and their places
differ by at most the 2 REFCLK cycles of R38, a measure that R49 does not give: DESIGN CHOICE, unsafe (log entry
36). -/
def State.jumpPulse (s : State) (e : FrefEdge) (wide : Bool) : State :=
  let t := s.tb
  let agrees := t.jumpRun != 0 && e.phase ≤ t.jumpPhase + 2 && t.jumpPhase ≤ e.phase + 2 && e.miss = t.jumpMiss + 1
  if t.jump && agrees && wide && s.mayRealign then
    s.realign t.slot (e.age t.cyc)
  else
    let run := if agrees then t.jumpRun + 1 else 1
    { s with tb := { t with jumpPhase := e.phase, jumpRun := run, jumpMiss := e.miss,
                            jump := 8 ≤ run && (t.state = .holdover || t.state = .holdoverLimit),
                            edge := none } }

/-- FREF_PULSE_CLASSIFIED (R37, R624). -/
def execFrefPulseClassified (cyc highTime : Nat) (s : State) : Host.Outcome State Fault Refusal :=
  match s.tb.edge with
  | none => .next s
  | some e =>
    let t := s.stamp cyc
    if e.taken then
      match pulseOf highTime with
      | .invalid =>
        if e.placed then
          .next { t with tb := { t.tb.miss with edge := none, jumpRun := 0, jump := false } }.openHoldover
        else
          .next { t with tb := { t.tb with edge := some { e with taken := false } } }
      | .normal => .next (t.validPulse false)
      | .wide => .next (t.validPulse true)
    else if inWindow e.phase then .next s
    else match pulseOf highTime with
      | .invalid => .next { t with tb := { t.tb with edge := none, jumpRun := 0, jump := false } }
      | .normal => .next (t.jumpPulse e false)
      | .wide => .next (t.jumpPulse e true)

/-! ### The flywheel -/

/-- FLYWHEEL_BOUNDARY (R45, R46). An edge taken in HOLDOVER keeps its pulse for the classification; any
other boundary of the flywheel is an expected edge without a valid pulse. -/
def execFlywheelBoundary (s : State) : Host.Outcome State Fault Refusal :=
  match s.tb.edge with
  | some e =>
    if e.taken && e.placed then .next s
    else
      let t := s.placeBoundary
      let hold := match t.tb.state with
        | .holdover | .holdoverLimit => { t.tb with holdSlots := sat 32 (t.tb.holdSlots + 1) }
        | _ => t.tb
      if e.taken then .next { t with tb := { hold with edge := some { e with placed := true } } }
      else if inWindow e.phase then
        .next { t with tb := { hold.miss with edge := none } }.openHoldover
      else .next { t with tb := { hold.miss with edge := some { e with crossed := true } } }.openHoldover
  | none =>
    let t := s.placeBoundary
    match t.tb.state with
    | .holdover | .holdoverLimit =>
      .next { t with tb := { t.tb with holdSlots := sat 32 (t.tb.holdSlots + 1) }.miss }
    | _ => .next { t with tb := t.tb.miss }.openHoldover

/-! ### REFCLK (R52) -/

/-- REFCLK_LOSS. -/
def execRefclkLoss (s : State) : Host.Outcome State Fault Refusal :=
  .next { s with tb := { s.tb with internalClock := true, refclkBack := false, refclkLate := false } }

/-- REFCLK_RETURN: after 1,024 consecutive cycles the switch back is due at the next boundary; not at one whose
pulse has already come (R18). -/
def execRefclkReturn (cycles : Nat) (s : State) : Host.Outcome State Fault Refusal :=
  let back := s.tb.internalClock && 1024 ≤ cycles
  .next { s with tb := { s.tb with refclkBack := back, refclkLate := back && s.tb.boundaryDue } }

/-! ### Commits -/

/-- FRAME_COUNT_LOAD (R44): refused at 2^40 or more, and while the stream table holds a stream. -/
def execFrameCountLoad (value : Nat) (s : State) : Host.Outcome State Fault Refusal :=
  if 2 ^ 40 ≤ value then .next (s.status Status.VALUE_RANGE)
  else if s.anyStream then .next (s.status Status.VALUE_STATE)
  else
    let t := { s with tb := { s.tb with load := some value } }
    .next ((t.setReg Reg.SRV_FRAME_COUNT_LOAD value).status Status.OK)

/-- REALIGN_ARM (R49). -/
def execRealignArm (s : State) : Host.Outcome State Fault Refusal :=
  .next ({ s with tb := { s.tb with armed := true } }.status 0)

/-- REALIGN_DISARM (R49). -/
def execRealignDisarm (s : State) : Host.Outcome State Fault Refusal :=
  .next ({ s with tb := { s.tb with armed := false } }.status 0)

end Sys2Proof.Machine
end

