-- ==== Sys2Proof/Machine/Records.lean ====
section
/-! DEFINITION. Error records (R530 to R533): the CPER bytes, the two logs, corrected-error counts, taints of the
running pass (R500, R501) and strikes (R515, R516, R518). -/

namespace Sys2Proof.Machine

/-! ### Places -/

/-- DIE, quadrant and tile of a LOCATION or queue number (Tables 3-4, 7-3; R10). -/
def locDie (loc : Nat) : Nat := bits loc 13 13
def locQuad (loc : Nat) : Nat := bits loc 13 11
def locX (loc : Nat) : Nat := 16 * bits loc 11 11 + bits loc 7 4
def locY (loc : Nat) : Nat := 8 * bits loc 12 12 + bits loc 10 8

/-- A tile of the module by number: 512 × die + 32 × y + x. -/
def locTile (loc : Nat) : Nat := 512 * locDie loc + 32 * locY loc + locX loc

/-- The quadrant of a tile (R10). -/
def quadOf (die x y : Nat) : Nat := 4 * die + 2 * (y / 8) + x / 16

/-! ### Records -/

/-- Bits of ACTIONS (Table 16-6). -/
def actVoided : Nat := 1
def actRerun : Nat := 2
def actFailed : Nat := 4
def actReset : Nat := 8
def actRefetch : Nat := 16
def actStrike : Nat := 32
def actFence : Nat := 64
def actDegraded : Nat := 128
def actOutOfService : Nat := 256
def actNotRecalled : Nat := 512
def actUnfence : Nat := 1024

/-- Error Severity (Table 16-5): 2 corrected, 1 fatal, 0 recoverable. -/
def RecordInfo.severity (r : RecordInfo) : Nat :=
  if r.causeClass = 0 then 2 else if bit r.actions 8 then 1 else 0

/-- A GUID written aaaaaaaa-bbbb-cccc-dddd-eeeeeeeeeeee as UEFI stores it: the first three groups
little-endian, the others as written. -/
def guid (a b c d e : Nat) : List Byte := le 4 a ++ le 2 b ++ le 2 c ++ (le 2 d).reverse ++ (le 6 e).reverse

/-- SEC_SERIAL, twelve characters from fuses. -/
def serial : List Byte := (List.range 12).map (Config.fuseByte Reg.SEC_SERIAL)

/-- The module's GUID, from fuses. -/
def moduleGuid : List Byte := (List.range 16).map (Config.fuseByte 0)

/-- Two decimal digits. -/
def digits2 (n : Nat) : List Byte := [BitVec.ofNat 8 (48 + n / 10 % 10), BitVec.ofNat 8 (48 + n % 10)]

/-- FRU Text: "CQ9", then the die, quadrant and tile that apply. -/
def RecordInfo.fruText (r : RecordInfo) : List Byte :=
  let die := match r.die with
    | some d => ascii " D" ++ [BitVec.ofNat 8 (48 + d)]
    | none => []
  let quad := match r.quadrant with
    | some q => ascii " Q" ++ [BitVec.ofNat 8 (48 + q)]
    | none => []
  let tile := match r.x, r.y with
    | some x, some y => ascii " T" ++ digits2 x ++ ascii "," ++ digits2 y
    | _, _ => []
  padTo (ascii "CQ9" ++ die ++ quad ++ tile) 20

/-- A byte that holds FFh where the field does not apply. -/
def orFF (o : Option Nat) : List Byte := le 1 (o.getD 0xFF)

/-- PACKAGE_TAG of the active package, 0 for none. -/
def State.activeTag (s : State) : Nat := (s.store.active.map (·.manifest.tag)).getD 0

/-- LAST_ID of the active last, 0 for none. -/
def Fabric.slot (f : Fabric) : Nat → Slot
  | 0 => f.slot0 | 1 => f.slot1 | 2 => f.slot2 | _ => f.slot3

def Fabric.activeLast (f : Fabric) : Nat := (f.activeSlot.map fun n => (f.slot n).lastId).getD 0

/-- The Limfel error section (Table 16-6). -/
def section16 (s : State) (r : RecordInfo) : List Byte :=
  le 2 1 ++ le 1 r.source ++ le 1 r.causeClass ++ le 2 r.actions ++ orFF r.die ++ orFF r.quadrant ++
  le 8 s.fst ++ serial ++ le 1 s.part.code ++ le 3 0 ++ orFF r.x ++ orFF r.y ++ orFF r.stack ++
  orFF r.pseudoChannel ++ orFF r.pin ++ orFF r.storeStack ++ le 2 0 ++
  le 8 (r.mpa.getD (2 ^ 64 - 1)) ++ le 8 s.fab.activeLast ++ le 8 s.fab.passCount ++ le 8 r.stepSeq ++
  le 4 r.groups ++ le 1 (r.maskBefore.getD s.mask) ++ le 1 s.mask ++ le 1 r.strikes ++ le 1 0 ++
  le 8 s.activeTag ++ le 4 r.epoch ++ le 4 (r.shard.getD (2 ^ 32 - 1)) ++ le 4 r.count ++ le 4 0 ++
  padTo r.detail 48 ++ le 8 0

/-- The 360 bytes of a record (Table 16-5): record header, one section descriptor, the section. -/
def cper (s : State) (seq : Nat) (r : RecordInfo) : List Byte :=
  ascii "CPER" ++ le 2 0x0101 ++ le 4 0xFFFFFFFF ++ le 2 1 ++ le 4 r.severity ++ le 4 0 ++ le 4 360 ++
  le 8 0 ++ le 16 0 ++ le 16 0 ++ guid 0x4C6D6665 0x9C51 0x4A1B 0x8E2F 0x51CE0C9A0016 ++
  guid 0x4C6D6665 0x9C51 0x4A1B 0x8E2F 0x51CE0C9A0017 ++ le 8 seq ++ le 4 0 ++ le 8 0 ++ le 12 0 ++
  le 4 200 ++ le 4 160 ++ le 2 0x0100 ++ le 1 3 ++ le 1 0 ++ le 4 1 ++
  guid 0xC9A51EC7 0x2B6E 0x4F0D 0x9A43 0x7E11D0B8C016 ++ moduleGuid ++ le 4 r.severity ++ r.fruText ++
  section16 s r

/-- A record of severity 0 or 1 goes to the persistent log: written at once, queued behind the write in
progress up to 16, or lost to it (R533). -/
def Ras.persistRecord (r : Ras) (b : List Byte) : Ras :=
  if r.persistWrite.isNone then { r with persistWrite := some b }
  else if r.persistQueue.length < 16 then { r with persistQueue := r.persistQueue ++ [b] }
  else { r with recordsLost := sat 32 (r.recordsLost + 1) }

/-- A record enters RAS_RECORD_LOG, which keeps the last 256, and the persistent log unless corrected. -/
def Ras.keep (r : Ras) (seq severity : Nat) (b : List Byte) : Ras :=
  let r1 := { r with recordSeq := seq, log := (r.log ++ [b]).drop (r.log.length + 1 - 256) }
  if severity = 2 then r1 else r1.persistRecord b

/-- Write an error record and raise RAS_RECORD (R530); none is written after a surprise removal (R558). -/
def State.record (s : State) (info : RecordInfo) : State :=
  let seq := s.ras.recordSeq + 1
  if s.pwr.presenceBroken then s
  else { s with ras := s.ras.keep seq info.severity (cper s seq info) }.raise 0x0D0A
    ((info.quadrant.orElse fun _ => info.group).getD 0) seq info.stepSeq

/-- Units whose corrected errors are counted together (R530), by key. -/
def ceStack (stack pseudoChannel : Nat) : Nat := 0x10000 + 64 * stack + pseudoChannel
def ceMemoryTile (tile : Nat) : Nat := 0x20000 + tile
def ceWorkTile (tile : Nat) : Nat := 0x30000 + tile
def ceLink (link : Nat) : Nat := 0x40000 + link

/-- Count a corrected error of a unit; at RAS_CE_THRESHOLD a record covers them (R530). -/
def State.correctedError (s : State) (unit : Nat) (info : RecordInfo) : State :=
  let n := kgetD s.ras.corrected unit 0 + 1
  if n < s.reg Reg.RAS_CE_THRESHOLD then
    { s with ras := { s.ras with corrected := kset s.ras.corrected unit n } }
  else
    { s with ras := { s.ras with corrected := kdel s.ras.corrected unit } }.record
      { info with source := 0x11, causeClass := 0, count := n }

/-! ### Taint and strikes -/

/-- Register a cause with the running pass (R501). -/
def State.taint (s : State) (t : RecordInfo) : State :=
  match s.planner.running with
  | some p =>
    if p.taints.contains t then s
    else { s with planner := { s.planner with running := some { p with taints := p.taints ++ [t] } } }
  | none => s

/-- Cause class of a SOURCE (Tables 16-2, 16-6): 1 ARITH, 2 STREAM, 3 WEIGHT, 4 SYSTEM, 5 REMOTE,
6 STRUCTURE, 7 TEST, 0 CORRECTED. -/
def classOf (source : Nat) : Nat :=
  if source = 1 ∨ source = 2 then 1
  else if source ≤ 7 then 2
  else if source ≤ 0x0A then 3
  else if source = 0x0B ∨ source = 0x0C ∨ source = 0x12 then 4
  else if source = 0x0D ∨ source = 0x0E then 5
  else if source = 0x0F then 6
  else if source = 0x10 then 7
  else 0

/-- The test of a quadrant for suspicion (R518): at the limit a quadrant becomes SUSPECT, and a
fence is requested at once with RAS_AUTO_FENCE at 1. -/
def State.judge (s : State) (q cause source : Nat) : State :=
  match (lget s.ras.quads q).state with
  | .working | .suspect =>
    if s.reg Reg.RAS_AUTO_FENCE = 1 then
      s.modQuad q fun x => { x with state := .fencing, cause := cause, source := source }
    else if (lget s.ras.quads q).state = .working then
      (s.modQuad q fun x => { x with state := .suspect }).raise 0x0D05 q 0 0
    else s
  | _ => s

/-- The NON_DESTRUCTIVE tests of every resident set, set 0 first, then by ascending SET_ID (R526, R527). -/
def romTests : List (Nat × AwlTest) :=
  (List.range (Config.romTestCount % 1025)).map fun t =>
    (0, { id := t, target := 1, destructive := Config.romTestDestructive t, cycles := Config.romTestCycles t,
          expect := BitVec.ofNat 64 (Config.romTestExpect t) })

def Ras.pushedTests (r : Ras) : List (Nat × AwlTest) :=
  r.sets.flatMap fun p => p.tests.map fun t => (p.id, t)

def Ras.tests (r : Ras) (destructive : Bool) : List (Nat × AwlTest) :=
  (romTests ++ r.pushedTests).filter fun p => p.2.destructive == destructive

/-- The tests of a list that fit W nominal cycles, in order from the front: their CYCLES and 1,024 per test (R629). -/
def fitTests : Nat → List (Nat × AwlTest) → List (Nat × AwlTest)
  | _, [] => []
  | w, t :: ts => if t.2.cycles + 1024 ≤ w then t :: fitTests (w - (t.2.cycles + 1024)) ts else []

/-- Nominal cycles of a slice (R629). -/
def sliceCycles (ts : List (Nat × AwlTest)) : Nat := (ts.map fun t => t.2.cycles + 1024).sum

/-- One strike against a quadrant, at most one of each kind per pass (R515). It is counted and judged at
detection, and schedules a targeted awl run (R516). -/
def State.strike (s : State) (q : Nat) (kind : StrikeKind) (source : Nat) : State :=
  if (lget s.ras.quads q).passStrikes.contains kind then s
  else
    let fst := s.fst
    let n := (lget s.ras.quads q).strikes.length + 1
    let t := s.modQuad q fun x =>
      { x with strikes := x.strikes ++ [fst], lastStrike := fst, passStrikes := x.passStrikes ++ [kind],
               targeted := s.ras.tests false }
    if s.reg Reg.RAS_STRIKE_LIMIT ≤ n then t.judge q 1 source else t

end Sys2Proof.Machine
end

