-- ==== Sys2Proof/Machine/Streams.lean ====
section
/-! DEFINITION. Shared operations on streams, their notices and their KV pages: what ending a turn or a stream
does (R334, R348, R350), freeing pages (R279), starting a park or an unpark (R278). -/

namespace Sys2Proof.Machine

/-- Stream group of a stream (R326). -/
def groupOf (stream : Nat) : Nat := stream / 256

/-- A stream that is not FREE. -/
def State.stream? (s : State) (n : Nat) : Option Stream := kget? s.srv.streams n

/-- Change stream `n`. -/
def State.modStream (s : State) (n : Nat) (f : Stream → Stream) : State :=
  { s with srv := { s.srv with streams := kmod s.srv.streams n f } }

/-! ### Notices (R348) -/

/-- NOTICE FLAGS: [0] TURN_END, [1] STREAM_END. -/
def noticeFlags (turnEnd streamEnd : Bool) : Nat := ofBit turnEnd + 2 * ofBit streamEnd

/-- Append a NOTICE entry to those of its group. -/
def addNotice (m : KMap (List Notice)) (x : Notice) : KMap (List Notice) :=
  kset m (groupOf x.stream) (kgetD m (groupOf x.stream) [] ++ [x])

/-- Report a taken or refused record after the intake read. -/
def State.notify (s : State) (x : Notice) : State :=
  { s with srv := { s.srv with notices := addNotice s.srv.notices x } }

/-- Report what no record caused, at the next slot boundary. -/
def State.notifyLater (s : State) (x : Notice) : State :=
  { s with srv := { s.srv with noticesLater := addNotice s.srv.noticesLater x } }

/-- Move the entries that have become due behind those that wait. -/
def Serving.dueNotices (v : Serving) : Serving :=
  { v with notices := v.noticesLater.foldl (fun m p => kset m p.1 (kgetD m p.1 [] ++ p.2)) v.notices
           noticesLater := [] }

/-! ### Pages (R274, R278, R279) -/

/-- Key of a page. -/
def pageKey (stream page : Nat) : Nat := 512 * stream + page

/-- The page entries of a stream, as (page, entry) in ascending order. -/
def Pages.of (p : Pages) (stream : Nat) : KMap PageEntry :=
  (p.table.filter fun e => e.1 / 512 = stream).map fun e => (e.1 % 512, e.2)

/-- Whether a page of the stream is being moved. -/
def Pages.moving (p : Pages) (stream : Nat) : Bool :=
  (p.of stream).any fun e => e.2.state = .movingOut || e.2.state = .movingIn

/-- Put a frame back into the pool, in ascending order: DESIGN CHOICE, unsafe (log entry 29). -/
def freeFrame (frames : List Nat) (f : Nat) : List Nat :=
  frames.filter (· < f) ++ f :: frames.filter (f < ·)

/-- Whether a page state holds a frame. -/
def PageState.hasFrame : PageState → Bool
  | .resident | .movingOut | .movingIn => true
  | .free | .parked => false

/-- Free every frame and slot of a stream (R279). -/
def Pages.release (p : Pages) (stream : Nat) : Pages :=
  let held := (p.of stream).filter fun e => e.2.state.hasFrame
  { p with table := p.table.filter (fun e => e.1 / 512 != stream)
           freeFrames := held.foldl (fun fs e => freeFrame fs e.2.frame) p.freeFrames
           moves := kdel p.moves stream
           frameWait := p.frameWait.filter (·.1 != stream)
           parkAsked := p.parkAsked.filter (· != stream) }

/-- No further page of the stream is moved; one in flight completes (Table 8-7). -/
def Pages.stopMoves (p : Pages) (stream : Nat) : Pages :=
  { p with moves := kmod p.moves stream fun m => { m with left := [] }
           frameWait := p.frameWait.filter (·.1 != stream)
           parkAsked := p.parkAsked.filter (· != stream) }

/-- Slots of the parking area that are assigned (R278, R279). -/
def Pages.slotsUsed (p : Pages) : List Nat := p.table.filterMap fun e => e.2.hostSlot

/-- The lowest free slots, as many as asked for: DESIGN CHOICE, unsafe (log entry 29). -/
def Pages.takeSlots (p : Pages) (total want : Nat) : List Nat :=
  (((List.range (p.slotsUsed.length + want)).filter fun i => !p.slotsUsed.contains i).take want).filter
    (· < total)

/-- Bytes of a KV page of a manifest: both half-pages (R272, R280). -/
def Manifest.pageBytes (m : Manifest) : Nat := (lget m.tensors 0).bytes + (lget m.tensors 1).bytes

/-- A page table entry as 64 bits (Table 8-6). -/
def PageEntry.word (e : PageEntry) : Nat :=
  (e.hostSlot.getD 0) % 2 ^ 24 * 2 ^ 40 + e.frame % 2 ^ 20 * 2 ^ 20 + e.group % 32 * 2 ^ 15 + e.tokens % 128 * 2 ^ 8 +
    ofBit e.hostValid * 16 + ofBit e.dirty * 8 + e.state.code

/-- The page table of a stream as it stands in the system region of die 0 (R274): the entries of pages 0 to 511, eight bytes
each. Where the table begins there the spec does not say, and no requester may read the region (R254). -/
def Pages.tableBytes (p : Pages) (n : Nat) : List Byte :=
  (List.range 512).flatMap fun page => le 8 ((kget? p.table (pageKey n page)).map PageEntry.word |>.getD 0)

/-- KV page size of the active package. -/
def State.pageBytes (s : State) : Nat := (s.store.active.map (·.manifest.pageBytes)).getD 0

/-! ### Ending -/

/-- Input-buffer bytes that a stream's turns hold (R337). -/
def Stream.buffered (x : Stream) : Nat :=
  (x.turn.map (·.buffer)).getD 0 + (x.queued.map (·.buffer)).sum

/-- Free `n` bytes of the input buffer. -/
def State.freeBuffer (s : State) (n : Nat) : State :=
  { s with srv := { s.srv with intake := { s.srv.intake with bufferUsed := s.srv.intake.bufferUsed - n } } }

/-- The decode reservation of a stream that has ended counts until the next frame boundary (R74). -/
def State.leaveTemplate (s : State) (n : Nat) (x : Stream) : State :=
  match x.cls, x.parity with
  | 0, some p =>
    let m : Member := { stream := n, adapter := x.adapter, context := x.maxContext }
    { s with planner := { s.planner with leaving := s.planner.leaving ++ [(p, m)] } }
  | _, _ => s

/-- A stream leaves: its pages are freed and it is FREE, or, while a page is being moved, it is ENDING
until that transfer completes (R279, Table 10-1). -/
def State.dropStream (s : State) (n : Nat) : State :=
  match s.stream? n with
  | none => s
  | some x =>
    let t := (s.freeBuffer x.buffered).leaveTemplate n x
    if t.pages.moving n then
      let y : Stream := { x with state := .ending, parity := none, turn := none, queued := [], cancelAsked := none,
                                 parkAsked := none, closeAsked := none, unparkTag := none }
      { t with pages := t.pages.stopMoves n, srv := { t.srv with streams := kset t.srv.streams n y } }
    else { t with pages := t.pages.release n, srv := { t.srv with streams := kdel t.srv.streams n } }

/-- Whether a stream has a turn in progress. -/
def Stream.inTurn (x : Stream) : Bool := x.turn.isSome

/-- A stream ends outside a step with a status, reported at the next slot boundary. -/
def State.endStream (s : State) (n status : Nat) : State :=
  match s.stream? n with
  | none => s
  | some x =>
    if x.state = .ending then s
    else (s.dropStream n).notifyLater
      { stream := n, status := status, reqTag := 0, kind := 0, flags := noticeFlags x.inTurn true,
        data := 0 }

/-- Every stream that is not FREE or ENDING ends with a status. -/
def State.endAll (s : State) (status : Nat) : State :=
  (s.srv.streams.map (·.1)).foldl (fun t n => t.endStream n status) s

/-- The park that waits for a turn's end begins at the next slot boundary. -/
def State.askPark (s : State) (n : Nat) : State :=
  { s with pages := { s.pages with parkAsked := s.pages.parkAsked.filter (· != n) ++ [n] } }

/-- Whether a stream ends when its turn ends now: it does not KEEP, or a CLOSE waits and no turn is
queued (R350, Table 10-12). -/
def Stream.endsWithTurn (x : Stream) : Bool :=
  !x.keep || (x.queued.isEmpty && x.closeAsked.isSome)

/-- The turn of a stream ends, and what R350 says follows: the stream ends, or becomes IDLE and takes its
next queued turn at a frame boundary, or acts on a pending PARK. -/
def State.endTurn (s : State) (n : Nat) : State :=
  match s.stream? n with
  | none => s
  | some x =>
    if x.endsWithTurn then s.dropStream n
    else
      let t := (s.freeBuffer ((x.turn.map (·.buffer)).getD 0)).modStream n fun y =>
        { y with state := .idle, turn := none, cancelAsked := none }
      if x.queued.isEmpty && x.parkAsked.isSome then t.askPark n else t

/-- A turn ends outside a seal with a status: NOTICE with TURN_END, and STREAM_END as it follows. -/
def State.failTurn (s : State) (n status : Nat) : State :=
  match s.stream? n with
  | none => s
  | some x =>
    match x.turn with
    | none => s
    | some u => (s.endTurn n).notifyLater
        { stream := n, status := status, reqTag := u.reqTag, kind := u.kind,
          flags := noticeFlags true x.endsWithTurn, data := 0 }

/-- The last transfer of an ENDING stream has completed: it is FREE (R279). -/
def State.settleEnding (s : State) (n : Nat) : State :=
  match s.stream? n with
  | some x =>
    if x.state = .ending && !s.pages.moving n then
      { s with pages := s.pages.release n, srv := { s.srv with streams := kdel s.srv.streams n } }
    else s
  | none => s

/-! ### Parks and unparks (R278) -/

/-- RESIDENT pages of a stream in ascending order. -/
def Pages.residentPages (p : Pages) (n : Nat) : List Nat :=
  ((p.of n).filter fun e => e.2.state = .resident).map (·.1)

/-- PARKED pages of a stream in ascending order. -/
def Pages.parkedPages (p : Pages) (n : Nat) : List Nat :=
  ((p.of n).filter fun e => e.2.state = .parked).map (·.1)

/-- Give slots to pages in order. -/
def Pages.giveSlots (p : Pages) (n : Nat) (pages slots : List Nat) : Pages :=
  let put (t : KMap PageEntry) (x : Nat × Nat) : KMap PageEntry :=
    kmod t (pageKey n x.1) fun e => { e with hostSlot := some x.2 }
  { p with table := (pages.zip slots).foldl put p.table }

/-- The next page of a stream's park begins to move. -/
def Pages.startOut (p : Pages) (n : Nat) : Pages :=
  match kget? p.moves n with
  | some m =>
    match m.left with
    | page :: _ =>
      if m.out then { p with table := kmod p.table (pageKey n page) fun e => { e with state := .movingOut } }
      else p
    | [] => p
  | none => p

/-- A park of a stream begins (R278): refused whole with MEM_PARK_FULL where slots are short. A stream with
no RESIDENT page is parked at once. -/
def State.startPark (s : State) (n : Nat) : State :=
  match s.stream? n with
  | none => s
  | some x =>
    let tag := x.parkAsked.getD 0
    let res := s.pages.residentPages n
    let bare := res.filter fun p => ((kget? s.pages.table (pageKey n p)).bind (·.hostSlot)).isNone
    let slots := s.pages.takeSlots (s.reg Reg.MEM_PARK_SLOTS) bare.length
    let t := s.modStream n fun y => { y with parkAsked := none }
    let t := { t with pages := { t.pages with parkAsked := t.pages.parkAsked.filter (· != n) } }
    if slots.length < bare.length then
      t.notifyLater { stream := n, status := 0x021C, reqTag := tag, kind := 5, flags := 0, data := 0 }
    else if res.isEmpty then
      (t.modStream n fun y => { y with state := .parked, parkDue := true }).notifyLater
        { stream := n, status := 0x021A, reqTag := tag, kind := 5, flags := 0, data := 0 }
    else
      let p := t.pages.giveSlots n bare slots
      let p := { p with moves := kset p.moves n { out := true, left := res, moved := 0 } }
      { t with pages := p.startOut n }.modStream n fun y =>
        { y with state := .parked, parkDue := true, unparkTag := some tag }

/-- An unpark of a stream begins: its PARKED pages come back in ascending order. With none PARKED the
stream is IDLE at once. -/
def State.startUnpark (s : State) (n tag : Nat) : State :=
  let pages := s.pages.parkedPages n
  if pages.isEmpty then
    (s.modStream n fun y => { y with state := .idle }).notifyLater
      { stream := n, status := 0x021B, reqTag := tag, kind := 6, flags := 0, data := 0 }
  else
    let m : PageMove := { out := false, left := pages, moved := 0 }
    let p := { s.pages with moves := kset s.pages.moves n m
                            frameWait := s.pages.frameWait ++ pages.map fun p => (n, p) }
    { s with pages := p }.modStream n fun y => { y with unparkTag := some tag }

end Sys2Proof.Machine
end

