-- ==== Sys2Proof/Machine/Damage.lean ====
section
/-! DEFINITION. What an uncorrectable error does (R500 to R514): the cause it registers with the running pass, the
refetch of a shard (R320), the reset of a group (R512), OUT_OF_SERVICE (R514); and what a module physical address
holds (R253, R254, R273). -/

namespace Sys2Proof.Machine

/-! ### Residents -/

/-- The staged set of an epoch. -/
def Store.resident? (t : Store) (epoch : Nat) : Option Resident :=
  (t.active.toList ++ t.old.toList).find? (·.epoch = epoch)

/-- Change a staged set wherever it is held. -/
def Store.modResident (t : Store) (epoch : Nat) (f : Resident → Resident) : Store :=
  let g (o : Option Resident) : Option Resident := o.map fun r => if r.epoch = epoch then f r else r
  { t with active := g t.active, old := g t.old }

/-- The step of the running pass. -/
def Planner.step? (p : Planner) : Option StepRun :=
  p.running.bind fun r => p.steps.find? (·.number = r.entry.step)

/-- The epoch of the running pass (R317); the current epoch outside a pass. -/
def State.passEpoch (s : State) : Nat := (s.planner.step?.map (·.epoch)).getD s.store.epoch

/-- A refetch of a shard starts in an epoch (R320). -/
def State.startRefetch (s : State) (epoch shard : Nat) : State :=
  { s with store := s.store.modResident epoch fun r =>
      if r.refetching.contains shard then r else { r with refetching := r.refetching ++ [shard] } }

/-- The running pass is void at its end for a reason that is no taint. -/
def State.breakPass (s : State) : State :=
  { s with planner := { s.planner with running := s.planner.running.map fun p => { p with broken := true } } }

/-- A group is to be reset at the next slot boundary (R511, R512). -/
def State.askReset (s : State) (group source : Nat) : State :=
  if (kget? s.ras.resetGroups group).isSome then s
  else { s with ras := { s.ras with resetGroups := kset s.ras.resetGroups group source } }

/-- The module goes OUT_OF_SERVICE (R514): the event is raised once. -/
def State.outOfService (s : State) : State :=
  if s.ras.service = .outOfService then s
  else
    let t := { s with ras := { s.ras with service := .outOfService }
                      planner := { s.planner with plan := [], moved := [] } }
    (t.endAll Status.GROUP_RESET).raise 0x0D0C 0 s.ras.recordSeq 0

/-- A detector registers a cause (R500). With a pass running, an ARITH, STREAM, WEIGHT or REMOTE cause taints
it, and its record is written when the pass ends; every other record is written now. A WEIGHT cause starts the
refetch of its shard (R508). -/
def State.detect (s : State) (info : RecordInfo) : State :=
  let cls := classOf info.source
  let info := { info with causeClass := cls, epoch := if info.epoch = 0 then s.passEpoch else info.epoch }
  let info := if cls = 3 then { info with actions := info.actions ||| actRefetch } else info
  let s := if cls = 3 then
      let t := { s with ras := { s.ras with weightErrors := sat 32 (s.ras.weightErrors + 1) } }
      let t := t.raise 0x0D03 0 t.ras.recordSeq ((s.planner.step?.map (·.number)).getD 0)
      match info.shard with
      | some k => t.startRefetch info.epoch k
      | none => t
    else s
  if s.planner.running.isSome && (cls = 1 || cls = 2 || cls = 3 || cls = 5) then s.taint info
  else if bit info.actions 8 then (s.record info).outOfService
  else s.record info

/-! ### The module address map (R253, R254) -/

/-- What Table 8-1 maps at an address. -/
inductive MpaClass where
  | hbm (stack : Nat) | host (offset : Nat) | unmapped
  deriving DecidableEq, Repr

def mpaClass (p : Part) (mpa : Nat) : MpaClass :=
  if mpa / 2 ^ 36 < p.hbmStacks && mpa % 2 ^ 36 ≤ 0xBFFFFFFFF then .hbm (mpa / 2 ^ 36)
  else if 0x100000000000 ≤ mpa && mpa ≤ 0x13FFFFFFFFFF then .host (mpa - 0x100000000000)
  else .unmapped

/-- The system region (R254). -/
def systemRegion (p : Part) (mpa : Nat) : Bool :=
  (mpa / 2 ^ 36 = 0 || mpa / 2 ^ 36 = p.firstStackDie1) && 0xBC0000000 ≤ mpa % 2 ^ 36 &&
    mpa % 2 ^ 36 ≤ 0xBFFFFFFFF

/-- The pseudo-channel of an address (R256). -/
def pseudoChannelOf (mpa : Nat) : Nat :=
  let n := mpa % 2 ^ 36 / 256
  bits n 5 0 ^^^ bits n 11 6 ^^^ bits n 17 12

/-! ### Placement of tensors and KV frames (R272, R273) -/

/-- The stacks of a mask on a die, in ascending order. -/
def stacksOn (p : Part) (die mask : Nat) : List Nat :=
  let first := if die = 0 then 0 else p.firstStackDie1
  ((List.range 16).filter fun i => bit mask i).map (first + ·)

/-- Lines of a stack outside the system region (R254), where tensors and frames are placed. -/
def stackLines (p : Part) (stack : Nat) : Nat :=
  (if stack = 0 || stack = p.firstStackDie1 then 0xBC0000000 else 0xC00000000) / 256

/-- The address of a byte of a tensor of an epoch, for a station on a die. -/
def tensorMpa (p : Part) (epoch die tensor : Nat) (e : TensorEntry) (byte : Nat) : Nat :=
  let d := if e.die = 0xFF then die else e.die
  let ss := stacksOn p d e.stackMask
  let stack := ss.getD (Config.tensorStack epoch d tensor (byte / 256) % max 1 ss.length) 0
  let line := Config.tensorLine epoch d tensor (byte / 256) % stackLines p stack
  stack * 2 ^ 36 + 256 * line + byte % 256

/-- The address of a byte of a half-page in a frame: byte b lies on the ((b / 256) mod n)-th stack of the mask. -/
def frameMpa (p : Part) (die frame : Nat) (e : TensorEntry) (byte : Nat) : Nat :=
  let ss := stacksOn p die e.stackMask
  let n := max 1 ss.length
  let stack := ss.getD (byte / 256 % n) 0
  let region := 256 * (Config.frameLine stack frame % max 1 (stackLines p stack - ceilDiv e.bytes (256 * n)))
  stack * 2 ^ 36 + region + 256 * (byte / (256 * n)) + byte % 256

/-- What a sector holds (R513, R511). -/
inductive Content where
  | system | kv (group : Nat) | scratch | shard (epoch n : Nat) | stagedShard (n : Nat) | nothing
  deriving DecidableEq, Repr

/-- The KV page whose half-page on either die covers an address. -/
def State.kvAt (s : State) (mpa : Nat) : Option PageEntry :=
  match s.store.active with
  | none => none
  | some r =>
    (s.pages.table.find? fun e =>
      e.2.state.hasFrame && (List.range 2).any fun die =>
        let t := lget r.manifest.tensors die
        (List.range (t.bytes / 64)).any fun i => frameMpa s.part die e.2.frame t (64 * i) = mpa / 64 * 64).map (·.2)

/-- The tensor of a staged set that covers an address, with the epoch of the set. -/
def State.tensorAt (s : State) (mpa : Nat) : Option (Nat × TensorEntry) :=
  (s.store.active.toList ++ s.store.old.toList ++ s.store.staged.toList).findSome? fun r =>
    (r.manifest.tensors.zipIdx.find? fun e =>
      e.1.shard != 0xFFFFFFFF && (List.range 2).any fun die =>
        (List.range (ceilDiv e.1.bytes 64)).any fun i =>
          tensorMpa s.part r.epoch die e.2 e.1 (64 * i) / 64 = mpa / 64).map fun e => (r.epoch, e.1)

/-- What an address holds. -/
def State.contentOf (s : State) (mpa : Nat) : Content :=
  if systemRegion s.part mpa then .system
  else match s.kvAt mpa with
    | some e => .kv e.group
    | none => match s.tensorAt mpa with
      | some (e, t) =>
        if t.shard = 0xFFFFFFFE then .scratch
        else if (s.store.resident? e).isSome then .shard e t.shard else .stagedShard t.shard
      | none => .nothing

/-- An uncorrectable or marked sector has been read (R264, R265, R508, R511, R513): the cause is registered by what
the sector holds. -/
def State.sectorLost (s : State) (stack mpa : Nat) (detail : List Byte) : State :=
  let info : RecordInfo :=
    { source := 7, causeClass := 2, die := some (if stack < s.part.firstStackDie1 then 0 else 1)
      stack := some stack, pseudoChannel := some (pseudoChannelOf mpa), mpa := some mpa, detail := detail }
  match s.contentOf mpa with
  | .kv g =>
    let t := s.detect { info with source := 6, groups := 2 ^ g, group := some g }
    if s.planner.running.isSome then t else t.askReset g 6
  | .scratch | .nothing => s.detect info
  | .shard e k => s.detect { info with source := 8, shard := some k, epoch := e }
  | .stagedShard k =>
    let ask (r : Resident) : Resident :=
      if r.refetching.contains k then r else { r with refetching := r.refetching ++ [k] }
    { s with store := { s.store with staged := s.store.staged.map ask } }
  | .system =>
    let use := Config.systemUse (mpa / 64)
    match use % 3 with
    | 0 => (s.detect { info with source := 0x0B, groups := 2 ^ (use / 3 % 32), group := some (use / 3 % 32)
                                 actions := actReset }).askReset (use / 3 % 32) 0x0B
    | 1 => (s.detect { info with source := 0x0B, shard := some (use / 3), actions := actRefetch ||| actVoided
                       }).startRefetch s.passEpoch (use / 3) |>.breakPass
    | _ => s.detect { info with source := 0x0B, actions := actOutOfService }

end Sys2Proof.Machine
end

