-- ==== Sys2Proof/Machine/SectorCode.lean ====
section
/-! DEFINITION. The sector code (R262, R263): Reed–Solomon over GF(2^8) with polynomial 11Dh, 64 data and 4 check
symbols, in the three decoder modes, with the two symbols of a degraded pin as erasures. -/

namespace Sys2Proof.Machine

/-! ### The field -/

/-- Multiplication by α = 02h. -/
def gfDouble (a : Nat) : Nat := if a < 128 then 2 * a else (2 * a) ^^^ 0x11D

/-- The product of two field elements, from the bits of the second. -/
def gfMulAux : Nat → Nat → Nat → Nat
  | 0, _, _ => 0
  | f + 1, a, b => (if b % 2 = 1 then a else 0) ^^^ gfMulAux f (gfDouble a) (b / 2)

def gfMul (a b : Nat) : Nat := gfMulAux 8 a b

/-- α to the power `n`. -/
def gfPow : Nat → Nat
  | 0 => 1
  | n + 1 => gfDouble (gfPow n)

/-- The inverse: a to the power 254. -/
def gfInv (a : Nat) : Nat :=
  let a2 := gfMul a a
  let a4 := gfMul a2 a2
  let a8 := gfMul a4 a4
  let a16 := gfMul a8 a8
  let a32 := gfMul a16 a16
  let a64 := gfMul a32 a32
  let a128 := gfMul a64 a64
  gfMul (gfMul (gfMul a2 a4) (gfMul a8 a16)) (gfMul (gfMul a32 a64) a128)

def gfDiv (a b : Nat) : Nat := gfMul a (gfInv b)

/-! ### Encoder -/

/-- The generator (x − 1)(x − α)(x − α²)(x − α³), coefficients of x³ down to x⁰; that of x⁴ is 1. -/
def generator : List Nat :=
  let mulLin (p : List Nat) (r : Nat) : List Nat :=
    (p ++ [0]).zipWith (· ^^^ ·) ((0 :: p).map (gfMul r))
  ((List.range 4).foldl (fun p i => mulLin p (gfPow i)) [1]).drop 1

/-- One step of the division by the generator. -/
def encodeStep (r : List Nat) (d : Byte) : List Nat :=
  let lead := (r.headD 0) ^^^ d.toNat
  (r.drop 1 ++ [0]).zipWith (· ^^^ ·) (generator.map (gfMul lead))

/-- The four check symbols of 64 data bytes; data byte 0 is the coefficient of highest degree. -/
def checkSymbols (data : List Byte) : List Byte :=
  (data.foldl encodeStep [0, 0, 0, 0]).map (BitVec.ofNat 8)

/-- A sector as it is held in a stack or a cache: 68 symbols. -/
def encodeSector (data : List Byte) : List Byte := data ++ checkSymbols data

/-! ### Decoder -/

/-- Syndrome `j` of 68 symbols. -/
def syndrome (c : List Byte) (j : Nat) : Nat :=
  let a := gfPow j
  c.foldl (fun r b => gfMul r a ^^^ b.toNat) 0

/-- The locator of symbol `p`. -/
def locator (p : Nat) : Nat := gfPow (67 - p)

/-- The pattern of R265, in the check symbols. -/
def poisonMark : List Nat := [0x5A, 0xA5, 0x5A, 0xA5]

/-- Syndrome `j` of the pattern alone. -/
def poisonSyndrome (j : Nat) : Nat := syndrome (List.replicate 64 0 ++ poisonMark.map (BitVec.ofNat 8)) j

/-- What the decoder finds. -/
inductive Decoded where
  /-- The errors that it corrects, as (symbol, value); none for a clean sector. -/
  | good (errors : List (Nat × Nat))
  | marked
  | uncorrectable
  deriving DecidableEq, Repr

/-- The two error values at symbols p and q that give syndromes s0 and s1. -/
def solveTwo (s0 s1 p q : Nat) : Nat × Nat :=
  let xp := locator p
  let xq := locator q
  let eq := gfDiv (s1 ^^^ gfMul s0 xp) (xp ^^^ xq)
  (s0 ^^^ eq, eq)

/-- Drop errors of value zero. -/
def realErrors (es : List (Nat × Nat)) : List (Nat × Nat) := es.filter (·.2 != 0)

/-- A single error, where one explains the syndromes. -/
def findOne (s : List Nat) : Option (List (Nat × Nat)) :=
  ((List.range 68).find? fun p =>
    (List.range 3).all fun j => gfMul (s.getD j 0) (locator p) = s.getD (j + 1) 0).map
      fun p => [(p, s.getD 0 0)]

/-- A pair of errors, where one explains the syndromes. -/
def findTwo (s : List Nat) : Option (List (Nat × Nat)) :=
  ((List.range 68).findSome? fun p => (List.range p).findSome? fun q =>
    let (ep, eq) := solveTwo (s.getD 0 0) (s.getD 1 0) p q
    let fits (j : Nat) : Bool :=
      gfMul ep (gfPow (j * (67 - p) % 255)) ^^^ gfMul eq (gfPow (j * (67 - q) % 255)) = s.getD j 0
    if ep != 0 && eq != 0 && fits 2 && fits 3 then some [(p, ep), (q, eq)] else none)

/-- Decoding with two erasures (the pins' symbols a and b) by the modes of Table 8-3. -/
def decodeErased (mode a b : Nat) (s : List Nat) : Decoded :=
  let xa := locator a
  let xb := locator b
  let t0 := s.getD 2 0 ^^^ gfMul (xa ^^^ xb) (s.getD 1 0) ^^^ gfMul (gfMul xa xb) (s.getD 0 0)
  let t1 := s.getD 3 0 ^^^ gfMul (xa ^^^ xb) (s.getD 2 0) ^^^ gfMul (gfMul xa xb) (s.getD 1 0)
  let plain (s0 s1 : Nat) : List (Nat × Nat) :=
    let (ea, eb) := solveTwo s0 s1 a b
    realErrors [(a, ea), (b, eb)]
  if (t0 = 0 && t1 = 0) || mode = 2 then .good (plain (s.getD 0 0) (s.getD 1 0))
  else if mode = 1 then .uncorrectable
  else
    match (List.range 68).find? fun q => q != a && q != b && gfMul t0 (locator q) = t1 with
    | some q =>
      let xq := locator q
      let eq := gfDiv t0 (gfMul (xq ^^^ xa) (xq ^^^ xb))
      .good (realErrors [(q, eq)] ++ plain (s.getD 0 0 ^^^ eq) (s.getD 1 0 ^^^ gfMul eq xq))
    | none => .uncorrectable

/-- The two symbols of a pin (Table 8-2): data pins 0 to 31, metadata pins 32 and 33. -/
def pinSymbols (pin : Nat) : Nat × Nat := if pin < 32 then (pin, pin + 32) else (pin + 32, pin + 34)

/-- Decode 68 symbols in a mode of Table 8-3, with at most one degraded pin (R263, R265). -/
def decodeSector (mode : Nat) (pin : Option Nat) (c : List Byte) : Decoded :=
  let s := (List.range 4).map (syndrome c)
  if s.all (· = 0) then .good []
  else if s = (List.range 4).map poisonSyndrome then .marked
  else match pin with
    | some p => decodeErased mode (pinSymbols p).1 (pinSymbols p).2 s
    | none =>
      if mode = 2 then .uncorrectable
      else match findOne s with
        | some es => .good es
        | none =>
          if mode = 1 then .uncorrectable
          else match findTwo s with
            | some es => .good es
            | none => .uncorrectable

/-- Symbols with errors added. -/
def addErrors (c : List Byte) (es : List (Nat × Nat)) : List Byte :=
  es.foldl (fun c e => c.modify e.1 fun b => b ^^^ BitVec.ofNat 8 e.2) c

/-- The pin whose two symbols are both among the errors. -/
def pinPair (es : List (Nat × Nat)) : Option Nat :=
  (List.range 34).find? fun p =>
    let (a, b) := pinSymbols p
    es.any (·.1 = a) && es.any (·.1 = b)

/-- A sector written back with the mark of R265. -/
def markSector (c : List Byte) : List Byte :=
  let data := c.take 64
  data ++ (checkSymbols data).zipWith (fun x y => x ^^^ BitVec.ofNat 8 y) poisonMark

end Sys2Proof.Machine
end

