-- ==== Sys2Proof/Machine/Insole.lean ====
section
/-! DEFINITION. The insoles (R256 to R268): the cache of each stack, reads and writes of sectors through it, what a
decoded read counts and reports, and the stack as the requesters see it. -/

namespace Sys2Proof.Machine

/-! ### The stack's own cells -/

/-- Symbols of a sector as the stack holds them (R262). -/
def hbmSector (hbm : List Host.Cell) (mpa : Nat) : List Byte := readBytes hbm (68 * (mpa / 64)) 68

/-- The stack with a sector's symbols written. -/
def putSector (hbm : List Host.Cell) (mpa : Nat) (symbols : List Byte) : List Host.Cell :=
  writeBytes hbm (68 * (mpa / 64)) (padTo (symbols.take 68) 68)

/-- Symbols with the errors that the stack's cells show on this access. -/
def withErrors (symbols : List Byte) (errors : List (Nat × Byte)) : List Byte :=
  addErrors symbols (errors.map fun e => (e.1, e.2.toNat))

/-! ### The cache (R257) -/

/-- Line number of an address within its stack, and its sector. -/
def lineOf (mpa : Nat) : Nat := mpa % 2 ^ 36 / 256
def sectorOf (mpa : Nat) : Nat := mpa % 256 / 64
def setOf (line : Nat) : Nat := line % 16384
def tagOf (line : Nat) : Nat := line / 16384

/-- The way that holds a line. -/
def Insole.wayOf (n : Insole) (line : Nat) : Option Nat :=
  (List.range 16).find? fun w =>
    match kget? n.lines (16 * setOf line + w) with
    | some l => l.tag = tagOf line
    | none => false

/-- The line in a way. -/
def Insole.lineAt (n : Insole) (line way : Nat) : Option CacheLine := kget? n.lines (16 * setOf line + way)

/-- Symbols of sector `i` of a line. -/
def CacheLine.sector (l : CacheLine) (i : Nat) : List Byte := slice l.bytes (68 * i) 68

/-- A line with a sector's symbols put in. -/
def CacheLine.put (l : CacheLine) (i : Nat) (symbols : List Byte) (dirty : Bool) : CacheLine :=
  { l with bytes := splice l.bytes (68 * i) (padTo (symbols.take 68) 68)
           valid := l.valid.set i true
           dirty := if dirty then l.dirty.set i true else l.dirty }

/-- The tree bits after a use of a way: each node on its path points to the other half. -/
def plruTouch (tree way : Nat) : Nat :=
  ((List.range 4).foldl (fun (p : Nat × Nat) level =>
    let dir := way / 2 ^ (3 - level) % 2
    let cleared := p.1 - (if bit p.1 (p.2 - 1) then 2 ^ (p.2 - 1) else 0)
    (cleared + (if dir = 0 then 2 ^ (p.2 - 1) else 0), 2 * p.2 + dir)) (tree, 1)).1

/-- The way that the tree bits point to. -/
def plruVictim (tree : Nat) : Nat :=
  ((List.range 4).foldl (fun (p : Nat × Nat) _ =>
    let dir := if bit tree (p.2 - 1) then 1 else 0
    (2 * p.1 + dir, 2 * p.2 + dir)) (0, 1)).1

/-- A way is used. -/
def Insole.touch (n : Insole) (line way : Nat) : Insole :=
  { n with plru := kset n.plru (setOf line) (plruTouch (kgetD n.plru (setOf line) 0) way) }

/-- The degraded pin of a pseudo-channel (at most one while the stack serves). -/
def Insole.badPin (n : Insole) (pc : Nat) : Option Nat := (n.degraded.find? fun d => d / 34 = pc).map (· % 34)

/-- Write back the dirty sectors of a line that leaves (R259); one that cannot be corrected gets the mark of
R265. `base` is the address of the line. -/
def writeBack (n : Insole) (hbm : List Host.Cell) (base : Nat) (l : CacheLine) : Insole × List Host.Cell :=
  (List.range 4).foldl (fun (p : Insole × List Host.Cell) i =>
    if l.dirty.getD i false then
      let a := base + 64 * i
      let c := l.sector i
      let c := if decodeSector n.mode (n.badPin (pseudoChannelOf a)) c = .uncorrectable then markSector c else c
      ({ p.1 with writebacks := sat 64 (p.1.writebacks + 1) }, putSector p.2 a c)
    else p) (n, hbm)

/-- Address of a line of a stack. -/
def lineBase (stack set tag : Nat) : Nat := stack * 2 ^ 36 + 256 * (16384 * tag + set)

/-- A way for a line: the one that holds it, else a free one, else the victim, which is evicted. -/
def allocate (stack : Nat) (n : Insole) (hbm : List Host.Cell) (line : Nat) :
    Nat × Insole × List Host.Cell :=
  match n.wayOf line with
  | some w => (w, n, hbm)
  | none =>
    let fresh : CacheLine := { tag := tagOf line, valid := [false, false, false, false]
                               dirty := [false, false, false, false], bytes := [] }
    let key (w : Nat) : Nat := 16 * setOf line + w
    match (List.range 16).find? fun w => (kget? n.lines (key w)).isNone with
    | some w => (w, { n with lines := kset n.lines (key w) fresh }, hbm)
    | none =>
      let w := plruVictim (kgetD n.plru (setOf line) 0)
      match kget? n.lines (key w) with
      | some l =>
        let (n1, h1) := writeBack n hbm (lineBase stack (setOf line) l.tag) l
        (w, { n1 with lines := kset n1.lines (key w) fresh }, h1)
      | none => (w, { n with lines := kset n.lines (key w) fresh }, hbm)

/-- Put a sector into the cache. -/
def place (stack : Nat) (n : Insole) (hbm : List Host.Cell) (mpa : Nat) (symbols : List Byte) (dirty : Bool) :
    Insole × List Host.Cell :=
  let line := lineOf mpa
  let (w, n1, h1) := allocate stack n hbm line
  (({ n1 with lines := kmod n1.lines (16 * setOf line + w) fun l => l.put (sectorOf mpa) symbols dirty }).touch
    line w, h1)

/-- The cached symbols of a sector. -/
def Insole.cached (n : Insole) (mpa : Nat) : Option (List Byte) :=
  (n.wayOf (lineOf mpa)).bind fun w => (n.lineAt (lineOf mpa) w).bind fun l =>
    if l.valid.getD (sectorOf mpa) false then some (l.sector (sectorOf mpa)) else none

/-- Read a sector's symbols: a hit from the cache, a miss from the stack (R259). -/
def readSector (stack : Nat) (n : Insole) (hbm : List Host.Cell) (mpa : Nat) (noAllocate : Bool)
    (errors : List (Nat × Byte)) : List Byte × Insole × List Host.Cell :=
  match n.cached mpa with
  | some c =>
    let n1 := { n with hits := sat 64 (n.hits + 1) }
    (c, n1.touch (lineOf mpa) ((n.wayOf (lineOf mpa)).getD 0), hbm)
  | none =>
    let c := withErrors (hbmSector hbm mpa) errors
    let n1 := { n with misses := sat 64 (n.misses + 1) }
    if noAllocate then (c, n1, hbm)
    else
      let (n2, h2) := place stack n1 hbm mpa c false
      (c, n2, h2)

/-- Bits of a byte replaced where the mask has ones. -/
def mergeByte (old new mask : Byte) : Byte := (old &&& ~~~mask) ||| (new &&& mask)

/-- The data of a sector after a masked write, as symbols. A sector that cannot be corrected keeps its mark. -/
def mergeSector (mode : Nat) (pin : Option Nat) (old data mask : List Byte) : List Byte :=
  let merge (c : List Byte) : List Byte :=
    (List.range 64).map fun i => mergeByte (c.getD i 0) (data.getD i 0) (mask.getD i 0)
  match decodeSector mode pin old with
  | .good es => encodeSector (merge (addErrors old es))
  | _ => markSector (merge old)

/-- Write a sector (R259): a whole one without reading, a masked one after a fetch where it is not valid. With
NO_ALLOCATE a miss goes to the stack. `mode` is the decoder mode that the write started with (R263). -/
def writeSector (stack : Nat) (n : Insole) (hbm : List Host.Cell) (mpa : Nat) (data mask : List Byte)
    (noAllocate : Bool) (mode : Nat) (errors : List (Nat × Byte)) : Insole × List Host.Cell :=
  let pin := n.badPin (pseudoChannelOf mpa)
  let whole := (List.range 64).all fun i => mask.getD i 0 = 0xFF
  match n.cached mpa with
  | some c =>
    place stack n hbm mpa (if whole then encodeSector (padTo data 64) else mergeSector mode pin c data mask) true
  | none =>
    let n1 := if whole then n else { n with misses := sat 64 (n.misses + 1) }
    let symbols := if whole then encodeSector (padTo data 64)
      else mergeSector mode pin (withErrors (hbmSector hbm mpa) errors) data mask
    if noAllocate then (n1, putSector hbm mpa symbols) else place stack n1 hbm mpa symbols true

/-- Every dirty sector is written back and the cache is empty (R261). -/
def flush (stack : Nat) (n : Insole) (hbm : List Host.Cell) : Insole × List Host.Cell :=
  let (n1, h1) := n.lines.foldl (fun (p : Insole × List Host.Cell) e =>
    writeBack p.1 p.2 (lineBase stack (e.1 / 16) e.2.tag) e.2) (n, hbm)
  ({ n1 with lines := [], plru := [] }, h1)

/-! ### The module's view -/

/-- Insole of a stack, and a change of it together with the stacks' cells. -/
def State.insole (s : State) (stack : Nat) : Insole := lget s.mem.insoles stack

def State.setInsole (s : State) (stack : Nat) (n : Insole) (hbm : List Host.Cell) : State :=
  { s with mem := { s.mem with insoles := s.mem.insoles.set stack n, hbm := hbm } }

def State.modInsole (s : State) (stack : Nat) (f : Insole → Insole) : State :=
  { s with mem := { s.mem with insoles := lmod s.mem.insoles stack f } }

/-- DETAIL of a record of an insole (Table 16-6): the syndrome, the positions of corrected symbols, the
requester's LOCATION. -/
def insoleDetail (symbols : List Byte) (es : List (Nat × Nat)) (location : Nat) : List Byte :=
  (List.range 4).map (fun j => BitVec.ofNat 8 (syndrome symbols j)) ++
    padTo ((es.map fun e => BitVec.ofNat 8 e.1).take 4) 4 ++ le 2 location

/-- A stack becomes FAILED (R268, R269, R514). -/
def State.failStack (s : State) (stack : Nat) : State :=
  if (s.insole stack).state = .failed then s
  else
    let t := (s.modInsole stack fun n => { n with state := .failed }).raise 0x0503 stack 0 0
    t.detect { source := 0x0C, causeClass := 4, stack := some stack, actions := actOutOfService,
               die := some (if stack < s.part.firstStackDie1 then 0 else 1) }

/-- What decoding a sector of a stack counts and reports (R264, R265), and the data and POISON that leave. -/
def State.decoded (s : State) (stack mpa location : Nat) (symbols : List Byte) (d : Decoded) :
    List Byte × Bool × State :=
  let pc := pseudoChannelOf mpa
  let detail := insoleDetail symbols
  if (s.insole stack).state = .failed then (List.replicate 64 0, true, s)
  else match d with
    | .good [] => (symbols.take 64, false, s)
    | .good es =>
      let pin := pinPair es
      let t := s.modInsole stack fun n =>
        { n with correctedOne := if es.length = 1 then sat 32 (n.correctedOne + 1) else n.correctedOne
                 correctedTwo := if es.length = 1 then n.correctedTwo else sat 32 (n.correctedTwo + 1)
                 pinCorrections := match pin with
                   | some p => kcount n.pinCorrections (34 * pc + p) (· + 1)
                   | none => n.pinCorrections }
      let t := t.correctedError (ceStack stack pc)
        { source := 0x11, causeClass := 0, stack := some stack, pseudoChannel := some pc, pin := pin
          mpa := some mpa, die := some (if stack < s.part.firstStackDie1 then 0 else 1) }
      ((addErrors symbols es).take 64, false, t)
    | .marked =>
      let t := s.modInsole stack fun n => { n with poisonReads := sat 32 (n.poisonReads + 1) }
      (symbols.take 64, true, t.sectorLost stack mpa (detail [] location))
    | .uncorrectable =>
      let t := s.modInsole stack fun n => { n with uncorrectable := sat 32 (n.uncorrectable + 1) }
      let pass := if s.planner.running.isSome then s.fab.passCount else 0
      let t := t.raise 0x0501 (stack + 256 * pc + 65536 * location) mpa pass
      (symbols.take 64, true, t.sectorLost stack mpa (detail [] location))

/-- The decoder's answer for a sector of a stack in a mode. -/
def State.decodeAt (s : State) (stack mpa mode : Nat) (symbols : List Byte) : Decoded :=
  decodeSector mode ((s.insole stack).badPin (pseudoChannelOf mpa)) symbols

/-- Raise MEM_PROTECTION (R253, R254, R270, R276). -/
def State.protect (s : State) (kind mpa group : Nat) : State :=
  { s with mem := { s.mem with protections := sat 32 (s.mem.protections + 1) } }.raiseFor 0x0401 group kind mpa
    (if s.planner.running.isSome then s.fab.passCount else 0)

/-- A sector that the map refuses: unmapped (R253), or the system region (R254). -/
def State.refusal (s : State) (mpa : Nat) : Option Nat :=
  match mpaClass s.part mpa with
  | .hbm _ => if systemRegion s.part mpa then some 2 else none
  | _ => some 1

/-! ### Accesses that are served at once (R254, R258, R259) -/

/-- A write by a stream engine (R259): it does not allocate, and marks every byte it gives. The map may refuse it. -/
def State.engineWrite (s : State) (mpa : Nat) (data : List Byte) : State :=
  match s.refusal mpa with
  | some k => s.protect k mpa 0xFF
  | none =>
    let stack := mpa / 2 ^ 36
    let (n, h) := writeSector stack (s.insole stack) s.mem.hbm (mpa / 64 * 64)
      (splice (List.replicate 64 0) (mpa % 64) data)
      (splice (List.replicate 64 0) (mpa % 64) (data.map fun _ => 0xFF)) true (s.insole stack).mode []
    s.setInsole stack n h

/-- What the writes to a sector that have arrived at its insole and wait there make of the bytes read (R258), and whether
one of them gives every byte. -/
def State.overArrived (s : State) (mpa : Nat) (data : List Byte) : List Byte × Bool :=
  (s.mem.writes.filter fun w => w.mpa = mpa).foldl (fun (d : List Byte × Bool) w =>
    ((List.range 64).map fun i => mergeByte (d.1.getD i 0) (w.bytes.getD i 0) (w.mask.getD i 0),
      d.2 || (List.range 64).all fun i => w.mask.getD i 0 = 0xFF)) (data, false)

/-- A sector read that is answered at once: for a stream engine, or for another module. It is decoded, counted and
reported like every read (R259, R260, R264, R265); its bytes, whether they carry POISON, and the state. -/
def State.readNow (s : State) (mpa location group : Nat) (noAllocate : Bool) : List Byte × Bool × State :=
  match s.refusal mpa with
  | some k => (List.replicate 64 0, true, s.protect k mpa group)
  | none =>
    let stack := mpa / 2 ^ 36
    let (c, n, h) := readSector stack (s.insole stack) s.mem.hbm mpa noAllocate []
    let (data, poison, t) := (s.setInsole stack n h).decoded stack mpa location c
      (s.decodeAt stack mpa (s.insole stack).mode c)
    let (data, whole) := s.overArrived mpa data
    (data, poison && !whole, t)

/-- The bytes at these addresses, each sector read once. -/
def State.readBytesNow (s : State) (location : Nat) (noAllocate : Bool) (at_ : List Nat) : List Byte × Bool × State :=
  let r := ((at_.map fun a => a / 64 * 64).eraseDups).foldl (fun (p : List Host.Cell × Bool × State) a =>
    let (d, bad, t) := p.2.2.readNow a location 0xFF noAllocate
    (writeBytes p.1 a d, p.2.1 || bad, t)) ([], false, s)
  (at_.map (readByte r.1), r.2.1, r.2.2)

end Sys2Proof.Machine
end

