-- ==== Sys2Proof/Machine/Numerics.lean ====
section
/-! DEFINITION. Numbers of the matrix engine and the vector chain (R142 to R148, R171, R172, R180): exact values,
decoding of every operand format, and rounding to nearest, ties to even. -/

namespace Sys2Proof.Machine

/-- An exact value: NaN, an infinity, or ±m × 2^e. Zero keeps its sign. -/
inductive Num where
  | nan
  | inf (neg : Bool)
  | fin (neg : Bool) (m : Nat) (e : Int)
  deriving DecidableEq, Repr, Inhabited

namespace Num

def zero : Num := .fin false 0 0

def isNan : Num → Bool
  | .nan => true
  | _ => false

def isInf : Num → Bool
  | .inf _ => true
  | _ => false

def isZero : Num → Bool
  | .fin _ 0 _ => true
  | _ => false

def isNeg : Num → Bool
  | .nan => false
  | .inf n => n
  | .fin n _ _ => n

def neg : Num → Num
  | .nan => .nan
  | .inf n => .inf (!n)
  | .fin n m e => .fin (!n) m e

def abs : Num → Num
  | .nan => .nan
  | .inf _ => .inf false
  | .fin _ m e => .fin false m e

/-- An integer exactly. -/
def ofInt (i : Int) : Num := .fin (decide (i < 0)) i.natAbs 0

/-- The exact product; infinity × 0 is a NaN. -/
def mul : Num → Num → Num
  | .nan, _ => .nan
  | _, .nan => .nan
  | .inf a, .inf b => .inf (a != b)
  | .inf a, .fin b m _ => if m = 0 then .nan else .inf (a != b)
  | .fin a m _, .inf b => if m = 0 then .nan else .inf (a != b)
  | .fin a m e, .fin b n f => .fin (a != b) (m * n) (e + f)

/-- Value × 2^k. -/
def scale (k : Int) : Num → Num
  | .fin n m e => .fin n m (e + k)
  | x => x

/-- The signed significand at exponent `g`, which is at most `e`. -/
def aligned (n : Bool) (m : Nat) (e g : Int) : Int :=
  let v : Int := (m * 2 ^ (e - g).toNat : Nat)
  if n then -v else v

/-- The exact sum. Infinities of opposite sign give a NaN; a zero sum is −0 only for −0 + −0. -/
def add : Num → Num → Num
  | .nan, _ => .nan
  | _, .nan => .nan
  | .inf a, .inf b => if a = b then .inf a else .nan
  | .inf a, .fin .. => .inf a
  | .fin .., .inf b => .inf b
  | .fin a m e, .fin b n f =>
    let g := min e f
    let v := aligned a m e g + aligned b n f g
    if v = 0 then .fin (a && b) 0 0 else .fin (decide (v < 0)) v.natAbs g

/-- Whether x < y; false with a NaN. -/
def lt : Num → Num → Bool
  | .nan, _ => false
  | _, .nan => false
  | .inf a, .inf b => a && !b
  | .inf a, .fin .. => a
  | .fin .., .inf b => !b
  | .fin a m e, .fin b n f => let g := min e f; decide (aligned a m e g < aligned b n f g)

/-- Whether two values are equal as numbers; false with a NaN. -/
def eqv (x y : Num) : Bool := !x.isNan && !y.isNan && !x.lt y && !y.lt x

end Num

/-! ### Binary floating-point formats -/

/-- A format: exponent bits, mantissa bits, bias, and what its top exponent means. -/
inductive Specials where
  /-- Infinities and NaNs as IEEE 754. -/
  | ieee
  /-- Only the all-ones code is a NaN (E4M3). -/
  | nanOnly
  | none
  deriving DecidableEq, Repr, Inhabited

structure FpFormat where
  ebits : Nat
  mbits : Nat
  bias : Nat
  specials : Specials
  deriving DecidableEq, Repr, Inhabited

def f32 : FpFormat := { ebits := 8, mbits := 23, bias := 127, specials := .ieee }

/-- The floating-point formats by code (Table 4-4, R222). -/
def fpFormat : Nat → Option FpFormat
  | 2 => some { ebits := 4, mbits := 3, bias := 7, specials := .nanOnly }
  | 3 => some { ebits := 5, mbits := 2, bias := 15, specials := .ieee }
  | 4 => some { ebits := 2, mbits := 3, bias := 1, specials := .none }
  | 5 => some { ebits := 3, mbits := 2, bias := 3, specials := .none }
  | 6 => some { ebits := 2, mbits := 1, bias := 1, specials := .none }
  | 7 => some { ebits := 8, mbits := 7, bias := 127, specials := .ieee }
  | 8 => some { ebits := 5, mbits := 10, bias := 15, specials := .ieee }
  | 10 => some f32
  | _ => none

/-- Bits of an element by format code (Table 4-4; Ah FP32, Bh INT32, Ch INT16). -/
def formatBits : Nat → Nat
  | 0 => 8 | 1 => 4 | 2 => 8 | 3 => 8 | 4 => 6 | 5 => 6 | 6 => 4 | 7 => 16 | 8 => 16
  | 10 => 32 | 11 => 32 | 12 => 16 | _ => 8

/-- Whether a code is an integer format. -/
def isIntFormat (c : Nat) : Bool := c = 0 || c = 1 || c = 11 || c = 12

/-- The value of an encoding (R142); subnormals are exact. -/
def FpFormat.decode (f : FpFormat) (v : Nat) : Num :=
  let man := v % 2 ^ f.mbits
  let exp := v / 2 ^ f.mbits % 2 ^ f.ebits
  let neg := v / 2 ^ (f.mbits + f.ebits) % 2 == 1
  let top := exp == 2 ^ f.ebits - 1
  let sub : Num := .fin neg man (1 - (f.bias : Int) - f.mbits)
  let norm : Num := .fin neg (2 ^ f.mbits + man) ((exp : Int) - f.bias - f.mbits)
  match f.specials with
  | .ieee => if top then (if man = 0 then .inf neg else .nan) else if exp = 0 then sub else norm
  | .nanOnly =>
    if top && man == 2 ^ f.mbits - 1 then .nan else if exp = 0 then sub else norm
  | .none => if exp = 0 then sub else norm

/-- The value of an element by format code. -/
def decodeElement (c v : Nat) : Num :=
  match fpFormat c with
  | some f => f.decode v
  | none => Num.ofInt (toSigned (formatBits c) v)

/-- m × 2^e rounded to `p` bits of precision with no exponent below `emin`, ties to even. -/
def roundTo (p : Nat) (emin : Int) (m : Nat) (e : Int) : Nat × Int :=
  let len : Int := (Nat.log2 m + 1 : Nat)
  let g := max (e + len - p) emin
  if g ≤ e then (m * 2 ^ (e - g).toNat, g)
  else
    let d := 2 ^ (g - e).toNat
    let q := m / d
    let r := m % d
    if 2 * r < d then (q, g) else if d < 2 * r then (q + 1, g) else (q + q % 2, g)

/-- An encoding, and whether a finite value overflowed the format. -/
structure Rounded where
  bits : Nat
  overflow : Bool := false
  deriving DecidableEq, Repr, Inhabited

/-- Largest finite encoding of a format without its sign. -/
def FpFormat.maxFinite (f : FpFormat) : Nat :=
  match f.specials with
  | .ieee => 2 ^ (f.mbits + f.ebits) - 2 ^ f.mbits - 1
  | .nanOnly => 2 ^ (f.mbits + f.ebits) - 2
  | .none => 2 ^ (f.mbits + f.ebits) - 1

/-- Round to a format (R146, R172). `sat` saturates a finite or infinite value beyond the range to the
largest finite magnitude; otherwise it becomes an infinity. `nan` is the NaN's encoding. -/
def FpFormat.encode (f : FpFormat) (sat : Bool) (nan : Nat) : Num → Rounded
  | .nan => { bits := nan }
  | .inf n =>
    let s := ofBit n * 2 ^ (f.mbits + f.ebits)
    if sat then { bits := s + f.maxFinite, overflow := true }
    else { bits := s + (2 ^ f.ebits - 1) * 2 ^ f.mbits }
  | .fin n m e =>
    let s := ofBit n * 2 ^ (f.mbits + f.ebits)
    if m = 0 then { bits := s }
    else
      let emin : Int := 1 - (f.bias : Int) - f.mbits
      let (q, g) := roundTo (f.mbits + 1) emin m e
      let (q, g) := if q = 2 ^ (f.mbits + 1) then (2 ^ f.mbits, g + 1) else (q, g)
      -- q below 2^mbits only at the least exponent: a subnormal
      let code := if q < 2 ^ f.mbits then q else ((g - emin).toNat + 1) * 2 ^ f.mbits + (q - 2 ^ f.mbits)
      if f.maxFinite < code then
        if sat then { bits := s + f.maxFinite, overflow := true }
        else { bits := s + (2 ^ f.ebits - 1) * 2 ^ f.mbits, overflow := true }
      else { bits := s + code }

/-! ### FP32 arithmetic (R146, R180) -/

/-- The canonical NaN. -/
def canonicalNan : BitVec 32 := 0x7FC00000

/-- The exact value of an FP32 pattern. -/
def num32 (v : BitVec 32) : Num := f32.decode v.toNat

/-- An exact value rounded to FP32. -/
def round32 (x : Num) : BitVec 32 × Bool :=
  let r := f32.encode false canonicalNan.toNat x
  (BitVec.ofNat 32 r.bits, r.overflow)

/-- x + y with one rounding; the second part says that a finite sum rounded to an infinity. -/
def add32 (x y : BitVec 32) : BitVec 32 × Bool := round32 ((num32 x).add (num32 y))

/-- An E8M0 scale (R143); FFh is a NaN. -/
def scaleBy (e : Byte) (x : Num) : Num := if e = 0xFF then .nan else x.scale ((e.toNat : Int) - 127)

/-- Element `i` of `w` bits in a packed byte string (R82). -/
def element (bs : List Byte) (w i : Nat) : Nat :=
  let at_ := w * i
  bits (field bs (at_ / 8) ((at_ % 8 + w + 7) / 8)) (at_ % 8 + w - 1) (at_ % 8)

/-- Elements of `w` bits packed into bytes, the last byte filled with zeros. -/
def packElements (w : Nat) (vs : List Nat) : List Byte :=
  let v := vs.foldr (fun x acc => acc * 2 ^ w + x % 2 ^ w) 0
  le (ceilDiv (w * vs.length) 8) v

end Sys2Proof.Machine
end

