-- ==== Sys2Proof/Machine/Signing.lean ====
section
/-! DEFINITION. Verification of a signed item (R588 to R592): the signature block, the key that a KEY_SERIAL names,
and who may sign what. The hash and the signature equation are those of the named standards: free values. -/

namespace Sys2Proof.Machine

/-- Items that are signed (Table 19-2); tickets by their KIND (Table 19-4). -/
inductive Item where
  | firmware | last | manifest | awlSet | keyRecord | enrol | release | debugUnlock | cosign
  deriving DecidableEq, Repr, Inhabited

/-- The 160 bytes that close an item (Table 7-12), and what they sign. -/
def sigBlock (item : List Byte) : List Byte := item.drop (item.length - 160)
def sigBody (item : List Byte) : List Byte := item.take (item.length - 160)

/-- Fields of a signature block. -/
def sigSigner (item : List Byte) : Nat := field (sigBlock item) 2 1
def sigSerial (item : List Byte) : Nat := field (sigBlock item) 4 4
def sigDigest (item : List Byte) : List Byte := slice (sigBlock item) 8 48

/-- The 48 bytes of a SHA-384 digest, most significant byte first. -/
def digestBytes (d : BitVec 384) : List Byte := (le 48 d.toNat).reverse

/-- SHA-384 of bytes, as bytes. -/
def sha384 (b : List Byte) : List Byte := digestBytes (Config.sha384 b)

/-- First 8 bytes of a DIGEST: LAST_ID for an image (R231). -/
def digestId (d : List Byte) : Nat := ofLe (d.take 8)

/-- The public key of the active root: the made-in key, or the one that a ROOT_ROLL brought (R593). A key
that does not hash to its fuse is absent (R591). -/
def Security.root (c : Security) : Option (List Byte) :=
  let key := if c.rootSlot = 0 then some Config.rootKey
    else (c.keys.find? fun k => k.kind = 3).map (·.key)
  key.filter fun k => Config.sha384 k = Config.rootHash c.rootSlot

/-- A key and whether its owner is Limfel (SIGNER 1) or the owner (SIGNER 2), with its USAGE bits. -/
structure KeyUse where
  key : List Byte
  signer : Nat
  usage : Nat
  root : Bool := false
  deriving DecidableEq, Repr, Inhabited

/-- The key that a KEY_SERIAL names, if it is present and not revoked (Table 19-1). -/
def Security.key? (c : Security) (serial : Nat) : Option KeyUse :=
  if serial = 0xFFFFFFF0 + c.rootSlot then
    c.root.map fun k => { key := k, signer := 1, usage := 0, root := true }
  else if 1 ≤ serial ∧ serial ≤ 0x7FFFFFFF then
    if c.revoked.contains serial then none
    else (c.keys.find? fun k => k.kind = 1 && k.serial = serial).map fun k =>
      { key := k.key, signer := 1, usage := k.usage }
  else if 0x80000001 ≤ serial ∧ serial ≤ 0x80000004 then
    match lget c.owners (serial - 0x80000001) with
    | .enrolled hash key =>
      if sha384 key = hash && !c.ownerFresh then some { key := key, signer := 2, usage := 0 } else none
    | _ => none
  else none

/-- Whether a key may sign an item (Tables 19-2, 19-4). -/
def Security.maySign (c : Security) (k : KeyUse) : Item → Bool
  | .firmware => if k.signer = 2 then c.ownerFw else bit k.usage 0
  | .last | .manifest => k.signer = 2 || bit k.usage 1
  | .awlSet => k.signer = 1 && bit k.usage 2
  | .keyRecord => k.root
  | .enrol | .debugUnlock => k.signer = 1 && bit k.usage 3
  | .release => k.signer = 2 || bit k.usage 3
  | .cosign => k.signer = 2

/-- Whether an item verifies (R589). -/
def Security.verifies (c : Security) (what : Item) (item : List Byte) : Bool :=
  let b := sigBlock item
  let r := ofBe (slice b 0x38 48)
  let v := ofBe (slice b 0x68 48)
  let d := Config.sha384 (sigBody item)
  160 ≤ item.length && field b 0 2 = 1 &&
  1 ≤ r && r < Config.curveOrder && 1 ≤ v && v < Config.curveOrder &&
  match c.key? (sigSerial item) with
  | some k => k.signer = sigSigner item && c.maySign k what && Config.onCurve k.key &&
      sigDigest item = digestBytes d && Config.ecdsaHolds k.key d r v
  | none => false

/-- Verify an item; a failure counts in SEC_SIG_FAILURES and raises SEC_SIGNATURE_FAIL (R589). -/
def State.verify (s : State) (what : Item) (item : List Byte) : Bool × State :=
  if s.sec.verifies what item then (true, s)
  else (false, { s with sec := { s.sec with sigFailures := sat 32 (s.sec.sigFailures + 1) } }.raise
    0x0E03 (sigSerial item) s.tb.boundaryFst 0)

end Sys2Proof.Machine
end

