-- ==== Sys2Proof/Machine/Tiling.lean ====
section
/-! DEFINITION. Tiling (R195 to R209): shares of the output plane, the visiting order, and the parts of a K split;
the accumulator-plan check of R201. -/

namespace Sys2Proof.Machine

/-! ### Shares and order (R195, R198, R199) -/

/-- First item of part `g` when `t` items are divided into `parts` (R198). -/
def partStart (t parts g : Nat) : Nat := g * (t / parts) + min g (t % parts)

/-- Items of part `g`. -/
def partSize (t parts g : Nat) : Nat := partStart t parts (g + 1) - partStart t parts g

/-- Position `d` of the Hilbert curve of side `n`: the loop of d2xy, with the side `s` doubling. -/
def d2xyLoop : Nat → Nat → Nat → Nat → Nat → Nat → Nat × Nat
  | 0, _, _, x, y, _ => (x, y)
  | fuel + 1, n, s, x, y, t =>
    if s < n then
      let rx := t / 2 % 2
      let ry := (t + rx) % 2
      let (x1, y1) := if ry = 0 then
          (if rx = 1 then (s - 1 - y, s - 1 - x) else (y, x))
        else (x, y)
      d2xyLoop fuel n (2 * s) (x1 + s * rx) (y1 + s * ry) (t / 4)
    else (x, y)

def d2xy (n d : Nat) : Nat × Nat := d2xyLoop 64 n 1 0 0 d

/-- The least power of two that is at least `m`. -/
def pow2At : Nat → Nat → Nat → Nat
  | 0, n, _ => n
  | f + 1, n, m => if n < m then pow2At f (2 * n) m else n

/-- The visiting order of a share of `a` tiles along M by `b` along N (R199); ORDER 0 is HILBERT, 1 ROW,
2 COLUMN. -/
def visitOrder (a b order : Nat) : List (Nat × Nat) :=
  match order with
  | 1 => (List.range a).flatMap fun x => (List.range b).map fun y => (x, y)
  | 2 => (List.range b).flatMap fun y => (List.range a).map fun x => (x, y)
  | _ =>
    let n := pow2At 32 1 (max a b)
    ((List.range (n * n)).map (d2xy n)).filter fun p => p.1 < a && p.2 < b

/-- Output tiles along a dimension (R195). -/
def tilesOf (bound : Nat) : Nat := ceilDiv bound 64

/-- MACs per cell per step (Table 4-5). -/
def MatmulOp.macs (op : MatmulOp) : Nat :=
  if (op.fmtStream = 1 && op.fmtStat = 1) || (op.fmtStream = 6 && op.fmtStat = 6) then 2 else 1

/-- Tile row and column that a station visits as number `t` of its share. -/
def MatmulOp.tileAt (op : MatmulOp) (t : Nat) : Nat × Nat :=
  let tm := tilesOf op.boundM
  let tn := tilesOf op.boundN
  let order := visitOrder (partSize tm op.gridM op.gridPosM) (partSize tn op.gridN op.gridPosN) op.order
  let p := order.getD t (0, 0)
  (partStart tm op.gridM op.gridPosM + p.1, partStart tn op.gridN op.gridPosN + p.2)

/-- K-uses of the station's part of a K split (R209). -/
def MatmulOp.kUses (op : MatmulOp) : Nat :=
  partSize (ceilDiv op.boundK ((if op.arrayMode = 2 then 64 else 32) * op.macs)) op.ksplit op.ksplitPos

/-- Output tiles of the station's share (R198). -/
def MatmulOp.shareTiles (op : MatmulOp) : Nat :=
  partSize (tilesOf op.boundM) op.gridM op.gridPosM * partSize (tilesOf op.boundN) op.gridN op.gridPosN

/-- Visit number `n` of the station's work as (tile of the share, K-use), in the order of LOOP (Table 6-2): 0 K_INNER, 1
K_BAND, 2 K_OUTER. -/
def MatmulOp.visit (op : MatmulOp) (n : Nat) : Nat × Nat :=
  let t := max 1 op.shareTiles
  let u := max 1 op.kUses
  let n := n % (t * u)
  match op.loop with
  | 0 => (n / u, n % u)
  | 1 =>
    let band := max 1 op.band
    let run := n / (band * u)
    let size := min band (t - run * band)
    let m := n % (band * u)
    (run * band + m % size, m / size)
  | _ => (n % t, n / t)

/-- The place of visit `n` in the tile map: tile row, tile column and K-use (R198 to R200). -/
def MatmulOp.placeOfVisit (op : MatmulOp) (n : Nat) : Nat × Nat × Nat :=
  let v := op.visit n
  let t := op.tileAt v.1
  (t.1, t.2, partStart (ceilDiv op.boundK ((if op.arrayMode = 2 then 64 else 32) * op.macs)) op.ksplit op.ksplitPos + v.2)

/-! ### The accumulator plan (R201) -/

/-- Events of a plan block in firing order for one bucket pair: entry `e` occurs `reps e` times, and an
event of it once at each repetition (R227). -/
def AccBlock.expand (b : AccBlock) (reps : Nat → Nat) (entries : Nat) : List AccEvent :=
  (List.range entries).flatMap fun e =>
    (List.range (reps e)).flatMap fun i =>
      (b.events.filter (·.seqEntry = e)).map fun v =>
        if v.perRepeat then { v with tile := v.tile + i } else v

/-- Owners of the sixteen regions and the spilled tiles, oldest first. -/
structure AccOwner where
  owner : List (Option Nat) := List.replicate 16 none
  spilled : List Nat := []
  deriving DecidableEq, Repr, Inhabited

/-- One event of the check; none where it breaks the plan. -/
def AccOwner.event (o : AccOwner) (spillDeclared : Bool) (depth : Nat) (v : AccEvent) : Option AccOwner :=
  let g := v.region
  let own := (o.owner.getD g none)
  match v.kind with
  | .opn => if own.isNone then some { o with owner := o.owner.set g (some v.tile) } else none
  | .update => if own = some v.tile then some o else none
  | .drained => some { o with owner := o.owner.set g none }
  | .spill =>
    if spillDeclared && own = some v.tile && 256 * (o.spilled.length + 1) ≤ depth then
      some { o with owner := o.owner.set g none, spilled := o.spilled ++ [v.tile] }
    else none
  | .undefined => none
  | .reload =>
    if own.isNone && o.spilled.head? = some v.tile then
      some { owner := o.owner.set g (some v.tile), spilled := o.spilled.drop 1 }
    else none

/-- The check of R201 over expanded events. -/
def accCheckFrom (spillDeclared : Bool) (depth : Nat) : AccOwner → List AccEvent → Bool
  | o, [] => o.owner.all Option.isNone && o.spilled.isEmpty
  | o, v :: vs =>
    match o.event spillDeclared depth v with
    | some p => accCheckFrom spillDeclared depth p vs
    | none => false

def accCheck (spillDeclared : Bool) (depth : Nat) (evs : List AccEvent) : Bool :=
  accCheckFrom spillDeclared depth {} evs

end Sys2Proof.Machine
end

