-- ==== Sys2Proof/Machine/Lasts.lean ====
section
/-! DEFINITION. Last images as bytes (R215 to R231): the parser of header, directory and sections, and the placement
on working quadrants (R233). -/

namespace Sys2Proof.Machine

/-! ### Header and directory (Tables 7-1, 7-2) -/

/-- A directory entry (R217). -/
structure DirEntry where
  type : Nat
  die : Nat
  reserved : Nat
  offset : Nat
  length : Nat
  count : Nat
  deriving DecidableEq, Repr, Inhabited

/-- The `n` records of a fixed size in a byte string. -/
def records (bs : List Byte) (size n : Nat) : List (List Byte) :=
  (List.range n).map fun i => slice bs (size * i) size

/-- The directory of an image, in its order. -/
def imageDir (bs : List Byte) : List DirEntry :=
  (records (bs.drop (field bs 0x40 4)) 16 (min (field bs 0x44 4) 64)).map fun e =>
    { type := field e 0 2, die := field e 2 1, reserved := field e 3 1, offset := field e 4 4, length := field e 8 4
      count := field e 12 4 }

/-- Header fields that the module uses after load. -/
def imageHeader (bs : List Byte) : ImageHeader :=
  let flags := field bs 0x0F 1
  { imageSize := field bs 8 4, quadrants := field bs 0x0C 1
    dieQuads0 := bits (field bs 0x0D 1) 3 0, dieQuads1 := bits (field bs 0x0D 1) 7 4
    passKind := field bs 0x0E 1, redundant := bit flags 0, spillDeclared := bit flags 1
    safe := bit flags 2, storeStreamed := bit flags 3, placement := field bs 0x10 32
    packageTag := field bs 0x30 8, safeOf := field bs 0x38 8, die0Bytes := field bs 0x48 4
    die1Bytes := field bs 0x4C 4, swapCycles := field bs 0x50 4, maxAdapterRuns := field bs 0x54 2
    layerFirst := field bs 0x56 2, layerCount := field bs 0x58 2 }

/-- Size of a die's section: the LENGTH of each of its sections, rounded up to 64 (R218). -/
def dieBytes (dir : List DirEntry) (die : Nat) : Nat :=
  ((dir.filter (·.die = die)).map fun e => ceilDiv e.length 64 * 64).sum

/-- Fabric cycles of a swap (R116). -/
def swapCyclesOf (die0 die1 : Nat) : Nat := 1536 + ceilDiv (max die0 die1) 1024

/-- Fixed entry sizes by section type; 0 for the variable ones (Table 7-2). -/
def entrySize (type : Nat) : Nat :=
  match type with
  | 1 => 32 | 2 => 64 | 3 => 160 | 4 => 16 | 6 => 64 | 8 => 896 | 9 => 16 | _ => 0

/-! ### Entries (Tables 7-3 to 7-11) -/

def kindOf (n : Nat) : StationKind :=
  match n with
  | 1 => .matmul | 2 => .chain | 3 => .store | 4 => .welt | 5 => .port | _ => .sync

/-- A station descriptor. -/
def parseStation (e : List Byte) : StationDesc :=
  { location := field e 0 2, kind := kindOf (field e 2 1), seqCheckOff := bit (field e 3 1) 0
    terminal := bit (field e 3 1) 1, opIndex := field e 4 2, progCount := field e 6 1
    seqOffset := field e 8 4
    inQ := (List.range 5).map fun i => field e (0x0C + 2 * i) 2
    outQ := (List.range 4).map fun i => field e (0x16 + 2 * i) 2 }

/-- An operation entry. -/
def parseOperation (e : List Byte) : Operation :=
  match field e 0 1 with
  | 1 =>
    let modes := field e 1 1
    .matmul
      { arrayMode := bits modes 1 0, stationary := bits modes 3 2, redundant := bit modes 4
        accSpill := bit modes 5, fmtStream := bits (field e 2 1) 3 0, mxStream := bit (field e 2 1) 4
        fmtStat := bits (field e 3 1) 3 0, mxStat := bit (field e 3 1) 4, drainFormat := field e 4 1
        order := bits (field e 5 1) 1 0, loop := bits (field e 5 1) 3 2, band := field e 6 1
        ksplit := field e 7 1, boundM := field e 8 3, boundN := field e 12 3, boundK := field e 16 3
        gridM := field e 0x14 2, gridN := field e 0x16 2, gridPosM := field e 0x18 2
        gridPosN := field e 0x1A 2, ksplitPos := field e 0x1C 1
        subs := (List.range 4).map fun i =>
          let o := 0x20 + 6 * i
          { region := field e o 1, rowOrigin := field e (o + 1) 1, colOrigin := field e (o + 2) 1
            validRows := field e (o + 3) 1, validCols := field e (o + 4) 1 } }
  | 3 => .store (field e 1 1) (field e 4 4) (field e 8 4) (field e 12 2) (field e 14 2) (field e 16 2)
  | 4 =>
    let rot := field e 4 2
    .welt (field e 1 1) (field e 2 1) (field e 3 1)
      ((List.range (field e 6 1)).map fun i => bits rot (2 * i + 1) (2 * i))
  | 5 => .port (field e 1 1) (field e 2 1) (field e 4 2) (slice e 8 56)
  | 6 => .sync (field e 1 1) (field e 4 4) (slice e 8 8)
  | kind => .undefined kind

/-- A chain program. -/
def parseProgram (e : List Byte) : ChainProgram :=
  let src (n : Nat) : ChainSrc := { source := bits n 3 0, neg := bit n 7 }
  { laneForm := field e 0 1, entryFmt0 := field e 1 1, entryFmt1 := field e 2 1
    exitFormat := bits (field e 3 1) 3 0, exitMx := bit (field e 3 1) 4, exitLanes := field e 4 1
    rowstat := field e 5 1, tileRows := field e 6 1, validRows := field e 7 1, validLanes := field e 8 1
    maskLimit := bit (field e 9 1) 0, maskInput := bit (field e 9 1) 1, maskFill := bit (field e 9 1) 2
    stages := (List.range 8).map fun s =>
      let o := 0x20 + 16 * s
      { func := field e o 1, a := src (field e (o + 1) 1), b := src (field e (o + 2) 1)
        c := src (field e (o + 3) 1), cond := bits (field e (o + 4) 1) 2 0
        compare := bits (field e (o + 4) 1) 4 3, imm := BitVec.ofNat 32 (field e (o + 8) 4) } }

/-- A queue descriptor. -/
def parseQueue (e : List Byte) : QueueDesc :=
  { queue := field e 0 2, producer := field e 2 2, producerPort := field e 4 1
    consumerPort := field e 5 1, depth := field e 6 1, rowFirst := bit (field e 7 1) 0
    control := bit (field e 7 1) 1, vc := field e 8 1 }

/-- The firing sequences of a section, with their offsets in it. The fuel bounds their number. -/
def parseSequences (die : Nat) : Nat → List Byte → Nat → List Sequence
  | 0, _, _ => []
  | fuel + 1, bs, off =>
    if bs.length < 8 then []
    else
      let n := field bs 0 2
      let entries := (records (bs.drop 8) 16 n).map fun e =>
        { consume := (List.range 5).map fun i => field e i 1
          produce := (List.range 4).map fun i => field e (5 + i) 1
          marks := field e 9 1, sub := field e 10 1, rpt := field e 12 4 : SeqEntry }
      { die := die, offset := off, loopStart := field bs 2 2, entries := entries } ::
        parseSequences die fuel (bs.drop (8 + 16 * n)) (off + 8 + 16 * n)

/-- An address-generator entry. -/
def parseGen (e : List Byte) : AddrGen :=
  { location := field e 0 2, format := bits (field e 2 1) 3 0, mx := bit (field e 2 1) 4
    skew := field e 3 1, space := field e 7 1, tensor := field e 4 3
    bound := (List.range 4).map fun i => field e (8 + 4 * i) 4
    stride := (List.range 4).map fun i => toSigned 32 (field e (0x18 + 4 * i) 4)
    order := (List.range 4).map fun i => field e (0x28 + i) 1, base := field e 0x2C 4 }

def accKindOf (n : Nat) : AccEventKind :=
  match n with
  | 1 => .opn | 2 => .update | 3 => .drained | 4 => .spill | 5 => .reload | _ => .undefined

/-- The accumulator plan blocks of a section. -/
def parsePlans : Nat → List Byte → List AccBlock
  | 0, _ => []
  | fuel + 1, bs =>
    if bs.length < 8 then []
    else
      let n := field bs 4 2
      { location := field bs 0 2, zeroMask := field bs 2 2, spillDepth := field bs 6 2
        events := (records (bs.drop 8) 8 n).map fun e =>
          { kind := accKindOf (field e 0 1), region := field e 1 1, seqEntry := field e 2 2
            tile := bits (field e 4 4) 30 0, perRepeat := bit (field e 4 4) 31 } } ::
        parsePlans fuel (bs.drop (8 + 8 * n))

/-- The WCET section. -/
def parseWcet (bs : List Byte) : Wcet :=
  { batch := (List.range 16).map fun i => field bs (2 * i) 2
    context := (List.range 12).map fun i => field bs (0x20 + 2 * i) 2
    axis := field bs 0x38 1
    cells := (List.range 16).map fun b => (List.range 12).map fun c =>
      let v := field bs (0x40 + 4 * (12 * b + c)) 4
      if v = 0xFFFFFFFF then none else some v }

/-! ### Sections of an image -/

/-- Bytes of a section. -/
def sectionBytes (bs : List Byte) (e : DirEntry) : List Byte := slice bs e.offset e.length

/-- Entries of a fixed size of type `t` on die `d`. -/
def dieEntries (bs : List Byte) (dir : List DirEntry) (t d : Nat) : List (List Byte) :=
  (dir.filter fun e => e.type = t && e.die = d).flatMap fun e =>
    records (sectionBytes bs e) (entrySize t) e.count

/-- Bytes of a variable section. -/
def dieBlob (bs : List Byte) (dir : List DirEntry) (t d : Nat) : List Byte :=
  (dir.filter fun e => e.type = t && e.die = d).flatMap (sectionBytes bs)

/-- A die's part of an image. -/
def parseDie (bs : List Byte) (dir : List DirEntry) (d : Nat) : DieSection :=
  let seqs := dieBlob bs dir 5 d
  let plans := dieBlob bs dir 7 d
  { stations := (dieEntries bs dir 1 d).map parseStation
    operations := (dieEntries bs dir 2 d).map parseOperation
    programs := (dieEntries bs dir 3 d).map parseProgram
    queues := (dieEntries bs dir 4 d).map parseQueue
    sequences := parseSequences d seqs.length seqs 0
    gens := (dieEntries bs dir 6 d).map parseGen
    plans := parsePlans plans.length plans }

/-- The WCET of an image. -/
def imageWcet (bs : List Byte) : Wcet := parseWcet (dieBlob bs (imageDir bs) 8 0xFF)

/-- LAST_ID: the first 8 bytes of DIGEST (R231). -/
def imageLastId (bs : List Byte) : Nat := digestId (sigDigest bs)

/-- An image as parsed, on its logical quadrants. -/
def parseImage (bs : List Byte) : Image :=
  let dir := imageDir bs
  { lastId := imageLastId bs, header := imageHeader bs, die0 := parseDie bs dir 0, die1 := parseDie bs dir 1
    wcet := imageWcet bs
    bridge := (dieEntries bs dir 9 0xFF).map fun e =>
      { start := field e 0 4, stop := field e 4 4, bytes01 := field e 8 4, bytes10 := field e 12 4 } }

/-! ### Placement (R233) -/

/-- The k-th lowest working quadrant of a die, as its number within the die. -/
def kthWorking (mask die k : Nat) : Option Nat :=
  ((List.range 4).filter fun q => bit mask (4 * die + q))[k]?

/-- A LOCATION or queue number with its logical quadrant replaced by the working one. -/
def placeLoc (mask loc : Nat) : Nat :=
  match kthWorking mask (locDie loc) (bits loc 12 11) with
  | some q => loc - bits loc 12 11 * 2048 + q * 2048
  | none => loc

/-- Whether the logical quadrant of a LOCATION or queue number, as the image has it, exists in the capacity step. -/
def locInStep (h : ImageHeader) (loc : Nat) : Bool :=
  bits loc 12 11 < (if locDie loc = 0 then h.dieQuads0 else h.dieQuads1)

/-- A queue number, FFFFh for an unused port. -/
def placeQ (mask q : Nat) : Nat := if q = 0xFFFF then q else placeLoc mask q

/-- The tile object that a SYNC entry names is placed too (Table 11-1). -/
def placeObject (mask o : Nat) : Nat :=
  if bits o 31 30 = 0 then
    let site := bits o 23 14
    o - site * 2 ^ 14 + placeLoc mask (site * 16) / 16 * 2 ^ 14
  else o

def placeOperation (mask : Nat) : Operation → Operation
  | .sync opcode object args => .sync opcode (placeObject mask object) args
  | op => op

def DieSection.place (mask : Nat) (d : DieSection) : DieSection :=
  { d with
    stations := d.stations.map fun s =>
      { s with location := placeLoc mask s.location, inQ := s.inQ.map (placeQ mask)
               outQ := s.outQ.map (placeQ mask) }
    operations := d.operations.map (placeOperation mask)
    queues := d.queues.map fun q =>
      { q with queue := placeLoc mask q.queue, producer := placeLoc mask q.producer }
    gens := d.gens.map fun g => { g with location := placeLoc mask g.location }
    plans := d.plans.map fun p => { p with location := placeLoc mask p.location } }

/-- An image placed under a working mask. -/
def Image.place (i : Image) (mask : Nat) : Image :=
  { i with die0 := i.die0.place mask, die1 := i.die1.place mask }

/-! ### Looking things up -/

/-- The part of an image on a die. -/
def Image.die (i : Image) (d : Nat) : DieSection := if d = 0 then i.die0 else i.die1

/-- Stations of an image, those of die 0 first; a station's number is its place here. -/
def Image.stations (i : Image) : List StationDesc := i.die0.stations ++ i.die1.stations

/-- Queues of an image in ascending queue number (R112). -/
def Image.queues (i : Image) : List QueueDesc := i.die0.queues ++ i.die1.queues

/-- The firing sequence of a station. -/
def Image.sequence (i : Image) (s : StationDesc) : Sequence :=
  ((i.die (locDie s.location)).sequences.find? (·.offset = s.seqOffset)).getD default

/-- The operation of a station other than a CHAIN. -/
def Image.operation (i : Image) (s : StationDesc) : Option Operation :=
  (i.die (locDie s.location)).operations[s.opIndex]?

/-- Program `n` of a CHAIN station. -/
def Image.program (i : Image) (s : StationDesc) (n : Nat) : ChainProgram :=
  lget (i.die (locDie s.location)).programs (s.opIndex + n)

/-- The plan block of a MATMUL station. -/
def Image.plan? (i : Image) (s : StationDesc) : Option AccBlock :=
  (i.die (locDie s.location)).plans.find? (·.location = s.location)

/-- Address-generator entry `n` of a die. -/
def Image.gen? (i : Image) (die n : Nat) : Option AddrGen := (i.die die).gens[n]?

/-- The repeat count of a sequence entry under a parameter block (Table 7-8). -/
def repeatOf (params : List Nat) (rpt : Nat) : Nat :=
  if bit rpt 31 then ceilDiv (params.getD (bits rpt 27 24) 0) (2 ^ bits rpt 20 16) + bits rpt 15 0
  else bits rpt 30 0

end Sys2Proof.Machine
end

