-- ==== Sys2Proof/Machine/Matrix.lean ====
section
/-! DEFINITION. The matrix engine (chapter 4): geometry, the packing of operands on the ports of a MATMUL station,
the products and their sums, the accumulator memory, and what one firing does. -/

namespace Sys2Proof.Machine

/-! ### Geometry (R129 to R133) -/

/-- Height and width of a sub-array, their number, and the first streamed lane of sub-array `i`. -/
def MatmulOp.h (op : MatmulOp) : Nat := if op.arrayMode = 2 then 64 else 32
def MatmulOp.w (op : MatmulOp) : Nat := if op.arrayMode = 0 then 32 else 64
def MatmulOp.subCount (op : MatmulOp) : Nat :=
  match op.arrayMode with
  | 0 => 4
  | 1 => 2
  | _ => 1
def MatmulOp.rowBase (op : MatmulOp) (i : Nat) : Nat :=
  if op.redundant then 0
  else match op.arrayMode with
    | 0 => i / 2 * 32
    | 1 => i * 32
    | _ => 0

/-- First column of the grid of sub-array `i`. -/
def MatmulOp.colBase (op : MatmulOp) (i : Nat) : Nat := if op.arrayMode = 0 then i % 2 * 32 else 0

/-- Sub-arrays whose outputs enter the accumulator: in redundant mode one of each pair (R159). -/
def MatmulOp.active (op : MatmulOp) : List Nat :=
  List.range (if op.redundant then op.subCount / 2 else op.subCount)

/-- Lanes that carry data, and bytes of one streamed vector (Table 4-3). -/
def MatmulOp.lanes (op : MatmulOp) : Nat := if op.redundant then 32 else 64
def MatmulOp.vectorBytes (op : MatmulOp) : Nat := op.lanes * op.macs * formatBits op.fmtStream / 8

/-- Bytes of a row of B under OS. -/
def MatmulOp.rowBytes (op : MatmulOp) : Nat := op.lanes * op.macs * formatBits op.fmtStat / 8

/-- K indices of a K-use, which is one sub-array's stationary use (R133, R200), and elements of a streamed vector. -/
def MatmulOp.kw (op : MatmulOp) : Nat := op.h * op.macs
def MatmulOp.vectorElems (op : MatmulOp) : Nat := op.lanes * op.macs

/-- Bytes of a sub-array's stationary block and of its scales, whole flits each (R141). -/
def MatmulOp.blockBytes (op : MatmulOp) : Nat := ceilDiv (op.h * op.macs * op.w * formatBits op.fmtStat) 512 * 64
def MatmulOp.scaleBytes (op : MatmulOp) : Nat :=
  if op.mxStat then ceilDiv (op.h * op.macs / 32 * op.w) 64 * 64 else 0
def MatmulOp.subBytes (op : MatmulOp) : Nat := op.blockBytes + op.scaleBytes
def MatmulOp.loadBytes (op : MatmulOp) : Nat := op.active.length * op.subBytes

/-- The depth D of a sub-array (R131). -/
def MatmulOp.depth (op : MatmulOp) : Nat := op.h + op.w - 1

/-- First K index of the station's part of a K split: the K-uses are divided (R209). -/
def MatmulOp.kStart (op : MatmulOp) : Nat :=
  partStart (ceilDiv op.boundK op.kw) op.ksplit op.ksplitPos * op.kw

/-- Vector positions that hold one vector: one, or the 32 of the skew (R135). -/
def MatmulOp.history (op : MatmulOp) : Nat := if op.arrayMode = 2 then 1 else 32

/-! ### Operands on the ports -/

/-- Element `idx` of a packed operand; none where it carries the pad mark (R137). -/
def markedElement (fmt : Nat) (bs pads : List Byte) (idx : Nat) : Option Num :=
  if element pads (formatBits fmt) idx ≠ 0 then none
  else some (decodeElement fmt (element bs (formatBits fmt) idx))

/-- Stationary element (k, c) of sub-array `i`: the block is a tile of the operand's own rows, row-major
(R82): B[k][c] under WS, A[c][k] under IS; then its scales, one per 32 along K. -/
def MatmulOp.stat (op : MatmulOp) (set pads : List Byte) (i k c : Nat) : Option Num :=
  let base := i * op.subBytes
  let n := op.h * op.macs
  let idx := if op.stationary = 1 then c * n + k else k * op.w + c
  let scaled (v : Num) : Num :=
    if op.mxStat then
      let s := if op.stationary = 1 then c * (n / 32) + k / 32 else k / 32 * op.w + c
      scaleBy ((set.drop (base + op.blockBytes + s)).headD 0) v
    else v
  (markedElement op.fmtStat (slice set base op.blockBytes) (slice pads base op.blockBytes) idx).map scaled

/-- Scale of element `j` of streamed vector `v` of a use, from the scales that came with the use's load (Table 4-2). -/
def MatmulOp.streamScale (op : MatmulOp) (scales : List Byte) (v j : Nat) (x : Num) : Num :=
  if op.mxStream then scaleBy ((scales.drop (v * (op.vectorElems / 32) + j / 32)).headD 0) x else x

/-- Position of the history, newest first, that holds lane `l` of the vector that is complete: in APART and PAIR the
lanes of a band are skewed by one position each (R135). -/
def MatmulOp.lag (op : MatmulOp) (l : Nat) : Nat := if op.arrayMode = 2 then 0 else 31 - l % 32

/-- Element `j` of lane `l` of the complete vector, of the streamed operand. -/
def MatmulOp.streamed (op : MatmulOp) (hist : List VecEntry) (l j : Nat) : Option Num :=
  let x := lget hist (op.lag l)
  markedElement op.fmtStream x.vec x.pad (l * op.macs + j)

/-- Element `j` of column `c` of the row of B that goes with it under OS. -/
def MatmulOp.rowElement (op : MatmulOp) (hist : List VecEntry) (c j : Nat) : Option Num :=
  let x := lget hist (op.lag c)
  markedElement op.fmtStat x.rowB x.padB (c * op.macs + j)

/-- A product; with a pad-marked operand there is none (R137). -/
def product (a b : Option Num) : Option Num := a.bind fun x => b.map x.mul

/-- A column of cells: each adds its products to the sum that enters it, with one rounding (R146). The
second part says that a sum rounded to the infinity that results (R148). -/
def columnSum (cells : List (List Num)) : BitVec 32 × Bool :=
  let r : BitVec 32 × Bool := cells.foldl (fun a ps =>
    let r := round32 (ps.foldl Num.add (num32 a.1))
    (r.1, a.2 || r.2)) (0, false)
  (r.1, r.2 && (num32 r.1).isInf)

/-- Products of cell (r, c) of a target's sub-array with the complete vector; a K index at or beyond BOUND_K is pad and
adds nothing (R137, R208). -/
def MatmulOp.cell (op : MatmulOp) (set pads scales : List Byte) (hist : List VecEntry) (v : Nat) (t : VecTarget)
    (r c : Nat) : List Num :=
  (List.range op.macs).filterMap fun j =>
    let k := r * op.macs + j
    let lane := op.rowBase t.sub + r
    if op.boundK ≤ t.k0 + k then none
    else product ((op.streamed hist lane j).map (op.streamScale scales v (lane * op.macs + j)))
      (op.stat set pads t.sub k c)

/-! ### Accumulator memory (R150, R151) -/

/-- One element to write. -/
structure AccWrite where
  region : Nat
  row : Nat
  col : Nat
  value : BitVec 32
  ovf : Bool
  deriving DecidableEq, Repr, Inhabited

/-- Key of an element of a work tile. -/
def accKey (tile region row col : Nat) : Nat := 65536 * tile + 4096 * region + 64 * row + col

/-- The accumulator with an element set; +0 is not listed. -/
def accPut (m : KMap (BitVec 32)) (k : Nat) (v : BitVec 32) : KMap (BitVec 32) :=
  if v = 0 then kdel m k else kset m k v

/-- Write one element in SET or ADD mode (R151). -/
def Engine.put (e : Engine) (tile : Nat) (add : Bool) (x : AccWrite) : Engine :=
  let k := accKey tile x.region x.row x.col
  let was := kgetD e.acc k 0
  let r := if add then add32 was x.value else (x.value, x.ovf)
  let ovf := (num32 r.1).isInf && (r.2 || (add && (e.overflowed.contains k || x.ovf)))
  { e with acc := accPut e.acc k r.1
           overflowed := if ovf then (if e.overflowed.contains k then e.overflowed else k :: e.overflowed)
             else e.overflowed.filter (· != k) }

/-- Write the elements of one step. A second sub-array that reaches an element adds to it. -/
def Engine.putAll (e : Engine) (tile : Nat) (add : Bool) (ws : List AccWrite) : Engine :=
  (ws.foldl (fun (p : Engine × List (Nat × Nat × Nat)) x =>
    let place := (x.region, x.row, x.col)
    (p.1.put tile (add || p.2.contains place) x, place :: p.2)) (e, [])).1

/-- Valid rectangle of sub-array `i` in its region for output tile `t` (R151, R206): the streamed dimension
is bounded by the operation's bound alone where the field holds the sub-array's full extent. -/
def MatmulOp.rect (op : MatmulOp) (i t : Nat) : Nat × Nat × Nat × Nat :=
  let s := lget op.subs i
  let (ti, tj) := op.tileAt t
  let nr := if op.stationary = 0 && s.validRows = op.h then 64 - s.rowOrigin else s.validRows
  let nc := if op.stationary = 1 && s.validCols = op.w then 64 - s.colOrigin else s.validCols
  (s.rowOrigin, min nr (op.boundM - (64 * ti + s.rowOrigin)), s.colOrigin,
    min nc (op.boundN - (64 * tj + s.colOrigin)))

/-- Whether a position lies in a rectangle. -/
def inRect (r : Nat × Nat × Nat × Nat) (row col : Nat) : Bool :=
  r.1 ≤ row && row < r.1 + r.2.1 && r.2.2.1 ≤ col && col < r.2.2.1 + r.2.2.2

/-- Key of a region of a tile in the lists of closed and marked regions. -/
def regionKey (tile region : Nat) : Nat := 16 * tile + region

/-- Mark a region (R158): the writes that clear the mark begin anew. -/
def Engine.mark (e : Engine) (key : Nat) : Engine :=
  { e with marked := if e.marked.contains key then e.marked else e.marked ++ [key]
           setSeen := kdrop e.setSeen (4096 * key) (4096 * key + 4096) }

/-! ### A firing -/

/-- What a firing of a MATMUL station has to work with. -/
structure MatIn where
  op : MatmulOp
  /-- The work tile (locTile). -/
  tile : Nat
  /-- MARKS of the entry (Table 7-8), and the plan's events at it; `planned` says that the station has a
  block in ACCPLAN. -/
  marks : Nat
  events : List AccEvent
  planned : Bool
  produce0 : Nat
  produce1 : Nat
  stream : List Flit
  stat : List Flit
  reload : List Flit
  deriving DecidableEq, Repr, Inhabited

/-- Bytes, pad marks and poison of flits. -/
def Flit.bytes (f : Flit) : List Byte := le 64 f.payload.toNat
def Flit.padBytes (f : Flit) : List Byte := le 64 f.pads.toNat
def flitBytes (fs : List Flit) : List Byte := fs.flatMap Flit.bytes
def flitPads (fs : List Flit) : List Byte := fs.flatMap Flit.padBytes
def anyPoison (fs : List Flit) : Bool := fs.any (·.poison)

/-- A flit's payload from at most 64 bytes. -/
def payloadOf (bs : List Byte) : Payload := BitVec.ofNat 512 (ofLe (bs.take 64))

/-- (region, tile) that sub-array number `n` updates: the OPEN or UPDATE event of the plan, else the
operation's own region and the number of the tile being worked on. -/
def MatIn.target (x : MatIn) (closes n i : Nat) : Option (Nat × Nat) :=
  let evs := (x.events.filter fun v => v.kind = .opn || v.kind = .update).map fun v => (v.region, v.tile)
  let evs := evs.foldl (fun acc v => if acc.contains v then acc else acc ++ [v]) []
  match evs with
  | [] => if x.planned then none else some ((lget x.op.subs i).region, closes)
  | v :: _ => some (evs.getD n v)

/-- Targets of the active sub-arrays, as (sub-array, region, tile). -/
def MatIn.targets (x : MatIn) (closes : Nat) : List (Nat × Nat × Nat) :=
  x.op.active.zipIdx.filterMap fun (i, n) => (x.target closes n i).map fun t => (i, t.1, t.2)

/-- The regions that a firing updates. -/
def MatIn.regions (x : MatIn) (closes : Nat) : List Nat := ((x.targets closes).map (·.2.1)).eraseDups

/-- Whether the plan opens a tile at this entry. -/
def MatIn.opens (x : MatIn) (tile : Nat) : Bool := x.events.any fun v => v.kind = .opn && v.tile = tile

/-- Bands of grid rows whose sub-arrays work on a tile: each of them is a K-use of it (R200). -/
def MatmulOp.bandsOf (op : MatmulOp) (ts : List (Nat × Nat × Nat)) (tile : Nat) : List Nat :=
  ((ts.filter fun t => t.2.2 = tile).map fun t => op.rowBase t.1).eraseDups

/-- A tile is updated in the running use: it starts its K-uses where it opens, and counts those of the use before. The
count goes with the tile, through a spill and a reload (R203). -/
def MatmulRun.noteTile (m : MatmulRun) (tile bands : Nat) (opens : Bool) : MatmulRun :=
  let put (k : Nat) : MatmulRun :=
    { m with kUse := kset m.kUse tile k, seenUse := kset m.seenUse tile m.uses, kBands := kset m.kBands tile bands }
  if opens || (kget? m.seenUse tile).isNone then put 0
  else if kgetD m.seenUse tile 0 ≠ m.uses then put (kgetD m.kUse tile 0 + kgetD m.kBands tile 0)
  else m

/-- Targets with the first K index of each sub-array's use and the place of the vector in its tile. -/
def MatIn.aims (x : MatIn) (m : MatmulRun) (ts : List (Nat × Nat × Nat)) (place : Nat) : List VecTarget :=
  ts.map fun t =>
    let band := ((x.op.bandsOf ts t.2.2).findIdx? (· = x.op.rowBase t.1)).getD 0
    { sub := t.1, region := t.2.1, tile := t.2.2, place := place
      k0 := x.op.kStart + (kgetD m.kUse t.2.2 0 + band) * x.op.kw }

/-! ### Loads and swaps (R138 to R141) -/

/-- Key of SET0 or SET1 of a work tile. -/
def setKey (tile : Nat) (set : Bool) : Nat := 2 * tile + (if set then 1 else 0)

/-- The set of a tile with bytes put in. -/
def Engine.loadSet (e : Engine) (tile : Nat) (set : Bool) (off : Nat) (bs pads : List Byte) : Engine :=
  let k := setKey tile set
  { e with sets := kset e.sets k (splice (kgetD e.sets k []) off bs)
           setPads := kset e.setPads k (splice (kgetD e.setPads k []) off pads) }

/-- Sub-array number `n` in the order in which loads come: the active ones in turn, from the first after the last swap.
The spec does not say in what order the loads of several swap groups come: DESIGN CHOICE, unsafe (log entry 40). -/
def MatmulOp.loadSub (op : MatmulOp) (m : MatmulRun) (n : Nat) : Nat :=
  op.active.getD ((m.nextSub + n) % op.active.length) 0

/-- Stationary flits go into the sets that are not tagged; what follows the loads of all sub-arrays are the scales of the
streamed operand (R141). -/
def MatIn.load (x : MatIn) : List Flit → MatmulRun × Engine → MatmulRun × Engine
  | [], p => p
  | f :: fs, (m, e) =>
    let n := m.loadPos / x.op.subBytes
    let m' := { m with loadPos := m.loadPos + 64 }
    if x.op.loadBytes ≤ m.loadPos then
      MatIn.load x fs ({ m' with scaleNext := m.scaleNext ++ f.bytes
                                 badSets := if f.poison then m.badSets ++ [8] else m.badSets }, e)
    else
      let i := x.op.loadSub m n
      let set := !(m.tags.getD i false)
      let at_ := m.loadPos % x.op.subBytes
      let key := 2 * i + (if set then 1 else 0)
      let bad := if at_ = 0 then m.badSets.filter (· != key) else m.badSets
      MatIn.load x fs ({ m' with badSets := if f.poison then bad ++ [key] else bad }
        , e.loadSet x.tile set (i * x.op.subBytes + at_) f.bytes f.padBytes)

/-- Sub-arrays whose incoming set is whole. -/
def MatmulOp.loaded (op : MatmulOp) (m : MatmulRun) : Nat := min op.active.length (m.loadPos / op.subBytes)

/-- The swap of the register sets under WS and IS (R138): of each sub-array, as a swap group of its own, whose incoming set
is whole (R130, R140). -/
def MatIn.swapSets (x : MatIn) (m : MatmulRun) : MatmulRun :=
  let n := x.op.loaded m
  let subs := (List.range n).map (x.op.loadSub m)
  { m with tags := subs.foldl (fun ts i => ts.modify i (!·)) m.tags
           nextSub := (m.nextSub + n) % x.op.active.length
           loadPos := if n = x.op.active.length then 0 else m.loadPos - n * x.op.subBytes
           scaleOld := m.scaleNow, scaleNow := if x.op.mxStream then m.scaleNext else [], scaleNext := []
           uses := m.uses + 1, vecs := 0, placed := 0, lastTargets := [] }

/-- The swap under OS: the tile of the set that is left transfers over D steps (R141). -/
def MatIn.swapTile (x : MatIn) (m : MatmulRun) : MatmulRun :=
  let ts := x.targets m.closes
  let m := ((ts.map (·.2.2)).eraseDups).foldl (fun m tile => m.noteTile tile 1 (x.opens tile)) m
  let t : Transfer := { use := m.uses, targets := x.aims m ts 0, add := bit x.marks 3, left := x.op.depth }
  { m with transfers := m.transfers ++ [t], uses := m.uses + 1, vecs := 0 }

def MatIn.swap (x : MatIn) (m : MatmulRun) : MatmulRun :=
  if !bit x.marks 5 then m else if x.op.stationary = 2 then x.swapTile m else x.swapSets m

/-- Whether the array must hold before a swap (R140, R141): the incoming set is not whole, or the tile before has not been
transferred. -/
def MatIn.shadowStall (x : MatIn) (m : MatmulRun) : Bool :=
  bit x.marks 5 && (if x.op.stationary = 2 then !m.transfers.isEmpty else x.op.loaded m = 0)

/-! ### Streaming (R134 to R137) -/

/-- The consumed flits enter the staging of their ports. -/
def MatIn.take (x : MatIn) (m : MatmulRun) : MatmulRun :=
  let m := { m with stream := m.stream ++ flitBytes x.stream, streamPad := m.streamPad ++ flitPads x.stream
                    streamPoison := m.streamPoison || anyPoison x.stream
                    reload := m.reload ++ flitBytes x.reload
                    reloadPoison := m.reloadPoison || anyPoison x.reload }
  if x.op.stationary = 2 then
    { m with rowB := m.rowB ++ flitBytes x.stat, rowBPad := m.rowBPad ++ flitPads x.stat
             streamPoison := m.streamPoison || anyPoison x.stat }
  else m

/-- Whether a whole vector stands in staging. -/
def MatmulOp.vectorReady (op : MatmulOp) (m : MatmulRun) : Bool :=
  op.vectorBytes ≤ m.stream.length && op.vectorBytes != 0 &&
    (op.stationary != 2 || op.rowBytes ≤ m.rowB.length)

/-- A vector leaves staging with its tags. A firing that the plan gives no region streams the pads of a ramp: its
position counts no vector (R135). -/
def MatIn.vector (x : MatIn) (m : MatmulRun) : MatmulRun × VecEntry :=
  let op := x.op
  let ts := if op.stationary = 2 then [] else x.targets m.closes
  let counts := op.stationary = 2 || !ts.isEmpty
  let m := ((ts.map (·.2.2)).eraseDups).foldl
    (fun m tile => m.noteTile tile (op.bandsOf ts tile).length (x.opens tile)) m
  let place := if ts = m.lastTargets then m.placed else 0
  let e : VecEntry :=
    { vec := m.stream.take op.vectorBytes, pad := m.streamPad.take op.vectorBytes
      rowB := m.rowB.take op.rowBytes, padB := m.rowBPad.take op.rowBytes, poison := m.streamPoison
      sets := m.tags, use := m.uses, v := m.vecs, add := bit x.marks 3, targets := x.aims m ts place }
  let rest := m.stream.drop op.vectorBytes
  ({ m with stream := rest, streamPad := m.streamPad.drop op.vectorBytes
            streamPoison := if rest.isEmpty then false else m.streamPoison
            rowB := m.rowB.drop op.rowBytes, rowBPad := m.rowBPad.drop op.rowBytes
            vecs := if counts then m.vecs + 1 else m.vecs
            lastTargets := if counts then ts else m.lastTargets
            placed := if counts then place + 1 else m.placed }, e)

/-! ### Products and sums -/

/-- Writes of a complete vector under WS or IS to one target. -/
def MatIn.vectorWrites (x : MatIn) (set pads scales : List Byte) (hist : List VecEntry) (v : Nat)
    (t : VecTarget) : List AccWrite :=
  let op := x.op
  let s := lget op.subs t.sub
  (List.range op.w).filterMap fun c =>
    let at_ := (if op.stationary = 1 then s.colOrigin else s.rowOrigin) + t.place
    let row := if op.stationary = 1 then s.rowOrigin + c else at_
    let col := if op.stationary = 1 then at_ else s.colOrigin + c
    let valid := (if op.stationary = 1 then c < s.validRows else c < s.validCols) &&
      inRect (op.rect t.sub t.tile) row col
    if valid && t.region < 16 && row < 64 && col < 64 then
      let r := columnSum ((List.range op.h).map fun r => op.cell set pads scales hist v t r c)
      some { region := t.region, row := row, col := col, value := r.1, ovf := r.2 }
    else none

/-- What an examination of a MATMUL station yields. -/
structure MatOut where
  run : MatmulRun
  eng : Engine
  out0 : List Flit := []
  out1 : List Flit := []
  /-- Whether elements of the accumulator were added to, and whether a row that leaves was read. -/
  added : Bool := false
  rowRead : Bool := false
  deriving DecidableEq, Repr, Inhabited

/-- The mark of a region clears once its full extent has been written in SET mode (R158). -/
def Engine.clearMarks (e : Engine) (tile : Nat) (add : Bool) (ws : List AccWrite) : Engine :=
  if add then e
  else (ws.map (·.region)).eraseDups.foldl (fun (e : Engine) g =>
    let k := regionKey tile g
    if e.marked.contains k then
      let seen := (ws.filter (·.region = g)).foldl (fun m w => kset m (accKey tile g w.row w.col) 1) e.setSeen
      if 4096 ≤ (seen.filter fun c => c.1 / 4096 = k).length then
        { e with setSeen := kdrop seen (4096 * k) (4096 * k + 4096), marked := e.marked.filter (· != k) }
      else { e with setSeen := seen }
    else e) e

/-- Carry out writes: poisoned operands mark the regions that they reach (R93, R158). -/
def applyWrites (tile : Nat) (add poison : Bool) (ws : List AccWrite) (o : MatOut) : MatOut :=
  let e := (o.eng.putAll tile add ws).clearMarks tile add ws
  { o with added := o.added || (add && !ws.isEmpty)
           eng := if poison then (ws.map (·.region)).eraseDups.foldl (fun e g => e.mark (regionKey tile g)) e else e }

/-- The regions that a use wrote, of the last two uses. -/
def MatmulRun.noteWrites (m : MatmulRun) (use : Nat) (ts : List VecTarget) : MatmulRun :=
  let new := ts.map fun t => (use, t.sub, t.region)
  { m with wrote := (new ++ m.wrote.filter fun w => use ≤ w.1 + 1 && !new.contains w) }

/-- One step of OS for the complete vector: each cell adds its product, one rounding per step (R132, R146); the reload
port brings the scales of each block of 32 steps before its first (R141). -/
def MatIn.osStep (x : MatIn) (hist : List VecEntry) (y : VecEntry) (m : MatmulRun) : MatmulRun :=
  let op := x.op
  let k0 := op.kStart + y.v * op.macs
  let needs := y.v * op.macs % 32 = 0
  let m := if needs && op.mxStream then
      { m with scaleA := slice m.reload 0 64, reload := m.reload.drop 64 } else m
  let m := if needs && op.mxStat then
      { m with scaleB := slice m.reload 0 64, reload := m.reload.drop 64 } else m
  let cellKeys := op.active.flatMap fun i => (List.range op.h).flatMap fun r =>
    (List.range op.w).map fun c => (i, r, c)
  let upd (p : KMap (BitVec 32) × List Nat) (q : Nat × Nat × Nat) : KMap (BitVec 32) × List Nat :=
    let (i, r, c) := q
    let lane := op.rowBase i + r
    let col := op.colBase i + c
    let ps := (List.range op.macs).filterMap fun j =>
      if op.boundK ≤ k0 + j then none
      else
        let a := (op.streamed hist lane j).map fun a => if op.mxStream then scaleBy (m.scaleA.getD lane 0) a else a
        let b := (op.rowElement hist col j).map fun b => if op.mxStat then scaleBy (m.scaleB.getD col 0) b else b
        product a b
    let key := 16384 * (y.use % 2) + 4096 * i + 64 * r + c
    let v := round32 (ps.foldl Num.add (num32 (kgetD p.1 key 0)))
    let ovf := (num32 v.1).isInf && (v.2 || p.2.contains key)
    (accPut p.1 key v.1, if ovf then (if p.2.contains key then p.2 else key :: p.2) else p.2.filter (· != key))
  let (parts, ovf) := cellKeys.foldl upd (m.partials, m.partialOver)
  { m with partials := parts, partialOver := ovf
           partialBad := if y.poison && !m.partialBad.contains (y.use % 2) then (y.use % 2) :: m.partialBad
             else m.partialBad }

/-- Whether a set that a vector uses was loaded from a poisoned flit, or its scales were. -/
def VecEntry.badSet (y : VecEntry) (m : MatmulRun) (i : Nat) : Bool :=
  m.badSets.contains (2 * i + (if y.sets.getD i false then 1 else 0)) || m.badSets.contains 8

/-- One step of the array for a vector that enters (R134, R136): the vector that is then complete yields its results. -/
def MatIn.arrayStep (x : MatIn) (y : VecEntry) (o : MatOut) : MatOut :=
  let op := x.op
  let hist := (y :: o.run.skew).take op.history
  let o := { o with run := { o.run with skew := if op.history = 1 then [] else hist } }
  match hist[op.history - 1]? with
  | none => o
  | some z =>
    if op.stationary = 2 then { o with run := x.osStep hist z o.run }
    else
      let scales := if z.use = o.run.uses then o.run.scaleNow else o.run.scaleOld
      let groups := z.targets.map fun t =>
        let k := setKey x.tile (z.sets.getD t.sub false)
        (t, x.vectorWrites (kgetD o.eng.sets k []) (kgetD o.eng.setPads k []) scales hist z.v t)
      let bad := (hist.any (·.poison)) || z.targets.any fun t => z.badSet o.run t.sub
      let o := { o with run := o.run.noteWrites z.use z.targets }
      applyWrites x.tile z.add bad (groups.flatMap (·.2)) o

/-- Writes of the tile that an OS swap transfers. -/
def MatIn.osWrites (x : MatIn) (m : MatmulRun) (use : Nat) (t : VecTarget) : List AccWrite :=
  let op := x.op
  let s := lget op.subs t.sub
  (List.range op.h).flatMap fun r => (List.range op.w).filterMap fun c =>
    let key := 16384 * (use % 2) + 4096 * t.sub + 64 * r + c
    let row := s.rowOrigin + r
    let col := s.colOrigin + c
    if r < s.validRows && c < s.validCols && inRect (op.rect t.sub t.tile) row col && row < 64 && col < 64 then
      some { region := t.region, row := row, col := col, value := kgetD m.partials key 0,
             ovf := m.partialOver.contains key }
    else none

/-- Vectors of a use that have entered and are not yet complete, in the feeder or in the skew. -/
def MatmulRun.entered (m : MatmulRun) : List VecEntry := m.feeder ++ m.skew.take 31

/-- A transfer under OS takes one step in each cycle; it ends D steps after its swap, once the last vector of its use is
complete. Its set is then empty. -/
def MatIn.transferStep (x : MatIn) (o : MatOut) : MatOut :=
  match o.run.transfers with
  | [] => o
  | t :: ts =>
    if 1 < t.left || (o.run.entered.any fun y => y.use = t.use) then
      { o with run := { o.run with transfers := { t with left := max 1 (t.left - 1) } :: ts } }
    else
      let half := t.use % 2
      let mine (k : Nat) : Bool := k / 16384 = half
      let ws := t.targets.flatMap (x.osWrites o.run t.use)
      let bad := o.run.partialBad.contains half
      let run := { o.run with transfers := ts, partials := o.run.partials.filter fun e => !mine e.1
                              partialOver := o.run.partialOver.filter fun k => !mine k
                              partialBad := o.run.partialBad.filter (· != half) }
      applyWrites x.tile t.add bad ws { o with run := run.noteWrites t.use t.targets }

/-! ### Reloads and reductions (R154, R202, R209) -/

/-- Flits on the reload port enter the region whose reload is due, or, in part 0 of a K split, are added to the region that
the firing updates: the partial tiles of the other parts come in ascending order (R209). Under OS with scales they wait
for the steps that use them (R141). -/
def MatIn.reloadStep (x : MatIn) (o : MatOut) : MatOut :=
  let due := (x.events.filter (·.kind = .reload)).map fun v => (v.region, v.tile, 0)
  let m := { o.run with reloads := o.run.reloads ++ due }
  let vals := (List.range (m.reload.length / 4)).map fun i => BitVec.ofNat 32 (field m.reload (4 * i) 4)
  let writes (g done : Nat) (ovs : List Nat) (vs : List (BitVec 32)) : List AccWrite := vs.zipIdx.map fun (v, i) =>
    { region := g, row := (done + i) / 64, col := (done + i) % 64, value := v, ovf := ovs.contains (done + i) }
  match m.reloads with
  | (g, tile, done) :: rest =>
    let vs := vals.take (4096 - done)
    let n := done + vs.length
    let ovs := kgetD m.spillOver tile []
    let eng := if 4096 ≤ n then { o.eng with reloaded := sat 64 (o.eng.reloaded + 1) } else o.eng
    let run := { m with reload := m.reload.drop (4 * vs.length), reloadPoison := false
                        reloads := if 4096 ≤ n then rest else (g, tile, n) :: rest
                        spillOver := if 4096 ≤ n then kdel m.spillOver tile else m.spillOver }
    applyWrites x.tile (bit x.marks 3) m.reloadPoison (writes g done ovs vs) { o with run := run, eng := eng }
  | [] =>
    match (x.regions m.closes).head? with
    | some g =>
      if (x.op.stationary = 2 && (x.op.mxStream || x.op.mxStat)) || vals.isEmpty then { o with run := m }
      else
        let done := kgetD m.reduce g 0
        let vs := vals.take (4096 - done)
        let n := done + vs.length
        let run := { m with reload := m.reload.drop (4 * vs.length), reloadPoison := false
                            reduce := if 4096 ≤ n then kdel m.reduce g else kset m.reduce g n
                            partsDone := if 4096 ≤ n then kcount m.partsDone g (· + 1) else m.partsDone }
        applyWrites x.tile true m.reloadPoison (writes g done [] vs) { o with run := run }
    | none => { o with run := m }

/-! ### Closing, draining and spilling (R152 to R155) -/

/-- The closing firing of the regions that it names (R152). -/
def MatIn.close (x : MatIn) (o : MatOut) : MatOut :=
  if !bit x.marks 4 then o
  else
    let ts := x.targets o.run.closes
    let gs := (ts.map (·.2.1)).eraseDups
    let drain (g : Nat) : Drain :=
      { region := g, rects := (ts.filter (·.2.1 = g)).map fun t => x.op.rect t.1 t.2.2
        parts := if x.op.ksplitPos = 0 then x.op.ksplit - 1 else 0 }
    { o with eng := { o.eng with closed := o.eng.closed ++ gs.map (regionKey x.tile) }
             run := { o.run with closing := o.run.closing ++ gs.map drain, closes := o.run.closes + 1 } }

/-- Spills that the plan orders here (R154, R202). -/
def MatIn.spill (x : MatIn) (o : MatOut) : MatOut :=
  let due := (x.events.filter (·.kind = .spill)).map fun v => ({ region := v.region, tile := v.tile } : Drain)
  { o with run := { o.run with spills := o.run.spills ++ due }
           eng := { o.eng with spilled := sat 64 (o.eng.spilled + due.length) } }

/-- Whether an update of a region is outstanding (R153). -/
def MatmulRun.outstanding (m : MatmulRun) (g : Nat) : Bool :=
  (m.entered.any fun y => y.targets.any fun t => t.region = g) ||
    (m.transfers.any fun t => t.targets.any fun u => u.region = g) || m.reloads.any fun r => r.1 = g

/-- The results of a region that has closed are counted once each (R148), within the tile that it holds. -/
def Engine.countTile (e : Engine) (tile : Nat) (d : Drain) : Engine :=
  let cells := (List.range 4096).filter fun n => d.rects.any fun r => inRect r (n / 64) (n % 64)
  let key (n : Nat) : Nat := accKey tile d.region (n / 64) (n % 64)
  let e := if cells.any fun n => (num32 (kgetD e.acc (key n) 0)).isNan then
      { e with invalid := sat 32 (e.invalid + 1) } else e
  if cells.any fun n => e.overflowed.contains (key n) then { e with overflow := sat 32 (e.overflow + 1) } else e

/-- Closed regions drain in order, once no update of them is outstanding and every part of a K split is in. -/
def MatIn.settleClosing (x : MatIn) (o : MatOut) : MatOut :=
  match o.run.closing with
  | [] => o
  | d :: ds =>
    if o.run.outstanding d.region || kgetD o.run.partsDone d.region 0 < d.parts then o
    else { o with eng := o.eng.countTile x.tile d
                  run := { o.run with closing := ds, drains := o.run.drains ++ [d]
                                      partsDone := kdel o.run.partsDone d.region } }

/-- Flits of a drain: FP32, or BF16 or FP16 (R152). -/
def drainFlits (format : Nat) : Nat := if format = 0 then 256 else 128

/-- An FP32 element in the drain format. -/
def drainBits (format : Nat) (v : BitVec 32) : Nat :=
  match format with
  | 0 => v.toNat
  | 1 => ((fpFormat 7).map fun f => (f.encode false 0x7FC0 (num32 v)).bits).getD 0
  | _ => ((fpFormat 8).map fun f => (f.encode false 0x7E00 (num32 v)).bits).getD 0

/-- Flit `k` of a region that leaves: rows in order; a drain sends +0 in every excluded position (R206). -/
def regionFlit (e : Engine) (tile format : Nat) (masked : Bool) (d : Drain) (k : Nat) : Payload :=
  let per := if format = 0 then 16 else 32
  let vals := (List.range per).map fun i =>
    let n := k * per + i
    let row := n / 64
    let col := n % 64
    if masked && !(d.rects.any fun r => inRect r row col) then 0
    else drainBits format (kgetD e.acc (accKey tile d.region row col) 0)
  payloadOf (packElements (512 / per) vals)

/-- At most one row of a region that leaves, against the flits that firings owe on a port: the flits, what is left of the
region, and the owed flits that are left. `bad` is a double-bit error in the row that is read, which poisons all of its
flits (R155); `seq` numbers the data tile. -/
def takeRow (e : Engine) (tile format : Nat) (masked bad : Bool) (seq : Nat) (owed : List Bool) (d : Drain) :
    List Flit × Drain × List Bool :=
  let total := drainFlits format
  let perRow := total / 64
  let n := min owed.length (perRow - d.next % perRow)
  let row := d.next / perRow
  let d := { d with badRow := if bad && d.next % perRow = 0 then some row else d.badRow }
  let fs := (owed.take n).zipIdx.map fun b =>
    let k := d.next + b.2
    ({ kind := .data, first := k = 0, last := k + 1 = total
       poison := b.1 || d.badRow = some row || e.marked.contains (regionKey tile d.region)
       seq := seq % 256, payload := regionFlit e tile format masked d k } : Flit)
  (fs, { d with next := d.next + n }, owed.drop n)

/-- Whether the next flit of the region that leaves first begins a row. -/
def rowBegins (format : Nat) (ds : List Drain) : Bool :=
  (ds.head?.map fun d => decide (d.next % (drainFlits format / 64) = 0)).getD false

/-- A row of the region that drains first leaves on output 0 (R152); a region whose drain has finished is no longer
closed. -/
def MatIn.drainRow (x : MatIn) (bad : Bool) (seq : Nat) (o : MatOut) : MatOut :=
  match o.run.drains with
  | [] => o
  | d :: ds =>
    if o.run.owed0.isEmpty then o
    else
      let (fs, d, owed) := takeRow o.eng x.tile x.op.drainFormat true bad seq o.run.owed0 d
      let ends := d.next = drainFlits x.op.drainFormat
      { o with out0 := fs, rowRead := o.rowRead || rowBegins x.op.drainFormat o.run.drains, run := { o.run with owed0 := owed, drains := if ends then ds else d :: ds }
               eng := if ends then { o.eng with closed := o.eng.closed.filter (· != regionKey x.tile d.region) }
                 else o.eng }

/-- A row of the region that spills first leaves on output 1, once no update of it is outstanding; where its sums
overflowed is kept with the tile (R148, R154). -/
def MatIn.spillRow (x : MatIn) (bad : Bool) (seq : Nat) (o : MatOut) : MatOut :=
  match o.run.spills with
  | [] => o
  | d :: ds =>
    if o.run.owed1.isEmpty || o.run.outstanding d.region then o
    else
      let lo := accKey x.tile d.region 0 0
      let ovs := (o.eng.overflowed.filter fun k => lo ≤ k && k < lo + 4096).map (· - lo)
      let (fs, e, owed) := takeRow o.eng x.tile 0 false bad seq o.run.owed1 d
      let ends := e.next = drainFlits 0
      { o with out1 := fs, rowRead := o.rowRead || rowBegins 0 o.run.spills
               run := { o.run with owed1 := owed, spills := if ends then ds else e :: ds
                                   spillOver := if d.next = 0 && !ovs.isEmpty then kset o.run.spillOver d.tile ovs
                                     else o.run.spillOver } }

/-! ### What a cycle does -/

/-- Regions that a firing may not update yet: those whose drain or spill has not finished (R153). -/
def MatmulRun.busy (m : MatmulRun) (g : Nat) : Bool :=
  (m.closing ++ m.drains ++ m.spills).any (·.region = g)

/-- Whether the array must hold before a firing (R153). A partial tile may still be added to a region that has closed
and waits for it (R209). -/
def MatIn.holds (x : MatIn) (m : MatmulRun) : Bool :=
  ((if x.op.stationary = 2 && !bit x.marks 5 then [] else x.regions m.closes).any fun g =>
      m.busy g && !(x.stream.isEmpty && x.stat.isEmpty && m.closing.any (·.region = g))) ||
    (x.events.any fun v => v.kind = .reload && m.busy v.region)

/-- Entries of a feeder queue (R136). -/
def feederDepth : Nat := 16

/-- A firing, or none where the array holds (R140, R153) or the feeder has no room (R136). The vector that it completes
enters the feeder in GANGED mode, and the array in the others. -/
def MatIn.fire (x : MatIn) (m : MatmulRun) (e : Engine) : Option MatOut :=
  if x.shadowStall m || x.holds m || (x.op.arrayMode = 2 && feederDepth ≤ m.feeder.length) then none
  else
    let m := x.take (x.swap m)
    let (m, e) := if x.op.stationary = 2 then (m, e) else MatIn.load x x.stat (m, e)
    let bad := anyPoison (x.stream ++ x.stat ++ x.reload)
    let m := { m with owed0 := m.owed0 ++ List.replicate x.produce0 bad
                      owed1 := m.owed1 ++ List.replicate x.produce1 bad }
    let o : MatOut := { run := m, eng := e }
    let o := if x.op.vectorReady m then
        let (m, y) := x.vector m
        if x.op.arrayMode = 2 then { o with run := { m with feeder := m.feeder ++ [y] } }
        else x.arrayStep y { o with run := m }
      else o
    some (x.close (x.spill (x.reloadStep o)))

/-- What goes on in a cycle whether or not the station fires: the array takes a step where the feeder holds its next
entry (R136), a tile transfers, closed regions begin to drain, and rows leave. -/
def MatIn.advance (x : MatIn) (bad : Bool) (seq0 seq1 : Nat) (o : MatOut) : MatOut :=
  let o := match o.run.feeder with
    | y :: ys => x.arrayStep y { o with run := { o.run with feeder := ys } }
    | [] => o
  x.spillRow bad seq1 (x.drainRow bad seq0 (x.settleClosing (x.transferStep o)))

end Sys2Proof.Machine
end

