-- ==== Sys2Proof/Machine/Generators.lean ====
section
/-! DEFINITION. Address generators (R204, R250 to R252, R275, R276): the walk over a tensor, the bytes that hold an
element, the packing of elements into flits, and SRAM. -/

namespace Sys2Proof.Machine

/-! ### The walk (R250) -/

/-- A block that a generator visits: origin and extent by dimension, and in the adapter path the adapter and the number of
its tensor (R212). -/
structure Block where
  origin : List Nat
  extent : List Nat
  adapter : Option (Nat × Nat) := none
  deriving DecidableEq, Repr, Inhabited

/-- Elements of a block. -/
def Block.count (b : Block) : Nat := (List.range 4).foldl (fun n d => n * b.extent.getD d 1) 1

/-- Index of element `n` of a block by dimension, level 0 varying fastest. -/
def AddrGen.index (g : AddrGen) (b : Block) (n : Nat) : List Nat :=
  ((List.range 4).foldl (fun (p : List Nat × Nat) level =>
    let d := g.order.getD level level
    let e := b.extent.getD d 1
    (p.1.set d (b.origin.getD d 0 + p.2 % e), p.2 / e)) ([0, 0, 0, 0], n)).1

/-- Bit offset of an element within its tensor; in space 4 the row is no part of it, and the token position
counts within its page (R275). -/
def AddrGen.bitOf (g : AddrGen) (i : List Nat) : Int :=
  let d0 := g.order.getD 0 0
  let term (d : Nat) : Int :=
    if d = d0 || (g.space = 4 && d = 3) then 0
    else (((if g.space = 4 && d = 2 then i.getD 2 0 % 64 else i.getD d 0) : Nat) : Int) * g.stride.getD d 0
  let own := if g.space = 4 && d0 = 2 then i.getD 2 0 % 64 else i.getD d0 0
  8 * ((g.base : Int) + ((List.range 4).map term).sum) + ((own * formatBits g.format : Nat) : Int)

/-! ### Rows (R275) -/

/-- Sealed tokens of a stream, and with the positions that the running step appends. -/
def State.sealedOf (s : State) (stream : Nat) : Nat := ((s.stream? stream).map (·.context)).getD 0

/-- Units of a stream that prefill steps before a step take and have not yet sealed. -/
def State.aheadUnits (s : State) (step n : Nat) : Nat :=
  ((s.planner.steps.filter fun y => y.phase = 0 && y.number < step).map fun y => y.unitsOf n).sum

def State.appendedTo (s : State) (rows : List PassRow) (stream : Nat) : Nat :=
  let base := s.sealedOf stream + s.aheadUnits ((s.planner.running.map (·.entry.step)).getD 0) stream
  rows.foldl (fun m r => if r.stream = stream then max m (max (base + r.units) (r.position + 1)) else m)
    (s.sealedOf stream)

/-- Rows of the running pass. -/
def State.passRows (s : State) : List PassRow := ((s.planner.running.map (·.entry.rows)).getD [])

/-! ### Where an element lies -/

/-- Where an element is: a pad beyond a bound (R204), a pad of a skewed stream's ramp (R135), bits of bytes at these
places, or a refusal (ARG0 of MEM_PROTECTION, the address and the group). -/
inductive Place where
  | pad
  | ramp
  | bytes (lead : Nat) (at_ : List Nat)
  | refused (kind mpa group : Nat)
  deriving DecidableEq, Repr

/-- Bytes that hold bits [b, b + w), through a map of byte offsets to addresses. -/
def spanOf (b w : Nat) (f : Nat → Nat) : Place :=
  .bytes (b % 8) ((List.range ((b + w + 7) / 8 - b / 8)).map fun j => f (b / 8 + j))

/-- The first group of the pass, which a refusal outside any row names. -/
def State.passGroup (s : State) : Nat := ((s.passRows.head?.map fun r => groupOf r.stream)).getD 0xFF

/-- The adapters of the rows, in run order (R212, R340). -/
def adaptersOf (rows : List PassRow) : List Nat :=
  (rows.filterMap fun r => if r.adapter = 0xFFFF then none else some r.adapter).eraseDups

/-- How many tensors of an adapter set are an adapter's own: those up to the next adapter's first (R244). -/
def Manifest.tensorsOf (m : Manifest) (a : AdapterRec) : Nat :=
  (((m.adapters.map (·.tensorFirst)).filter (a.tensorFirst < ·)).foldl min m.tensors.length) - a.tensorFirst

/-- The number that the placement of tensor `k` of an adapter of a set goes by. It lasts from one epoch to the next. -/
def adapterNumber (set adapter k : Nat) : Nat := 2 ^ 40 * (set + 1) + 2 ^ 24 * adapter + k

/-- The entry of an adapter's own tensor `k` (R244), among the adapter sets of the active package, with its number. -/
def State.adapterEntry (s : State) (adapter k : Nat) : Option (TensorEntry × Nat) :=
  s.store.catalogue.findSome? fun p =>
    if p.kind = 2 && s.store.active.isSome && s.store.packageTag = p.baseTag then
      (p.manifest.adapters.find? (·.id = adapter)).bind fun a =>
        (p.manifest.tensors[a.tensorFirst + k]?).map fun e => (e, adapterNumber p.manifest.tag adapter k)
    else none

/-- The tensor entry that a block in space 1 reads, with the epoch and the number that its placement goes by. -/
def State.tensorOf (s : State) (g : AddrGen) (b : Block) : Option (TensorEntry × Nat × Nat) :=
  match b.adapter with
  | some (a, k) => (s.adapterEntry a k).map fun e => (e.1, 0, e.2)
  | none => ((s.store.resident? s.passEpoch).bind fun r => r.manifest.tensors[g.tensor]?).map fun e =>
      (e, s.passEpoch, g.tensor)

/-- Where element `n` of a block lies, for a station on a die (R251, R270, R275, R276); none is a pad of the ramp. -/
def State.placeElem (s : State) (die : Nat) (g : AddrGen) (write : Bool) : Option (Block × Nat) → Place
  | none => .ramp
  | some (blk, n) =>
    let w := formatBits g.format
    let i := g.index blk n
    let inside := (List.range 4).all fun d => (d = 2 && g.space = 4) || i.getD d 0 < g.bound.getD d 1
    let bit := g.bitOf i
    if blk.count ≤ n then .ramp
    else if !inside || bit < 0 then .pad
    else
      let b := bit.toNat
      match g.space with
      | 0 => spanOf b w fun x => g.tensor + x
      | 1 =>
        match s.tensorOf g blk with
        | some (e, epoch, number) =>
          let f := tensorMpa s.part epoch die number e
          if 8 * e.bytes < b + w || (write && e.shard != 0xFFFFFFFE) then .refused 3 (f (b / 8)) s.passGroup
          else spanOf b w f
        | none => .refused 3 0 s.passGroup
      | 4 =>
        match s.passRows[i.getD 3 0]? with
        | none => .pad
        | some row =>
          let t := i.getD 2 0
          if s.appendedTo s.passRows row.stream ≤ t then .pad
          else
            let tpl := (s.store.active.bind fun r => r.manifest.tensors[g.tensor]?).getD default
            match kget? s.pages.table (pageKey row.stream (t / 64)) with
            | none => .refused 4 0 (groupOf row.stream)
            | some e =>
              let f := frameMpa s.part g.tensor e.frame tpl
              if e.group != groupOf row.stream || e.state != .resident ||
                  (write && t < s.sealedOf row.stream) then .refused 4 (f (b / 8)) (groupOf row.stream)
              else spanOf b w f
      | _ => spanOf b w id

/-! ### Flits (R82) -/

/-- Elements that touch flit `k` of a data tile of `count` elements: the first, how many bits of it come before the flit,
and how many. Bits beyond the last element are zero. -/
def flitElems (w count k : Nat) : Nat × Nat × Nat :=
  let first := 512 * k / w
  let last := min count (ceilDiv (512 * (k + 1)) w)
  (first, 512 * k - first * w, last - first)

/-- Elements that `total` flits have room for. -/
def tileElems (w total : Nat) : Nat := 512 * total / w

/-- A flit's payload from the values of its elements. -/
def assemble (w lead : Nat) (vals : List Nat) : Payload :=
  BitVec.ofNat 512 ((vals.zipIdx.map fun e => e.1 % 2 ^ w * 2 ^ (w * e.2)).sum / 2 ^ lead)

/-- The value of an element from its bytes. -/
def elemValue (w lead : Nat) (bs : List Byte) : Nat := ofLe bs / 2 ^ lead % 2 ^ w

/-- Elements that a written flit completes: from the payload before it and its own, element `j` of the tile for
each j whose last bit lies in flit `k`. -/
def completed (w k : Nat) (prev cur : Payload) : List (Nat × Nat) :=
  let both := prev.toNat + cur.toNat * 2 ^ 512
  let lo := 512 * k / w
  let hi := 512 * (k + 1) / w
  (List.range (hi - lo)).map fun d =>
    let j := lo + d
    (j, both / 2 ^ (j * w + 512 - 512 * k) % 2 ^ w)

/-- Bits to write, by byte: the value and the mask of every byte that the elements touch. -/
def bitWrites (ws : List (Nat × Nat × List Nat × Nat)) : KMap (Byte × Byte) :=
  ws.foldl (fun m e =>
    let (w, lead, at_, v) := e
    let val := v % 2 ^ w * 2 ^ lead
    let msk := (2 ^ w - 1) * 2 ^ lead
    at_.zipIdx.foldl (fun m a =>
      let nb := BitVec.ofNat 8 (val / 2 ^ (8 * a.2))
      let nm := BitVec.ofNat 8 (msk / 2 ^ (8 * a.2))
      let old := kgetD m a.1 (0, 0)
      kset m a.1 (mergeByte old.1 nb nm, old.2 ||| nm)) m) []

/-! ### SRAM (R246 to R252) -/

/-- Place of byte `a` of the SRAM of a memory tile. -/
def sramAt (tile a : Nat) : Nat := 524288 * tile + a

/-- Values at places of SRAM. -/
def readSram (m : List Host.Cell) (tile w : Nat) (p : Place) : Nat :=
  match p with
  | .bytes lead at_ => elemValue w lead (at_.map fun a => readByte m (sramAt tile a))
  | _ => 0

/-- Writes into SRAM. -/
def writeSram (m : List Host.Cell) (tile : Nat) (ws : KMap (Byte × Byte)) : List Host.Cell :=
  ws.foldl (fun m e => writeByte m (sramAt tile e.1) (mergeByte (readByte m (sramAt tile e.1)) e.2.1 e.2.2)) m

/-- Whether a place is a pad beyond a bound, and whether its element carries the pad mark (R137, R204). -/
def Place.isPad : Place → Bool
  | .pad => true
  | _ => false

def Place.marked : Place → Bool
  | .pad => true
  | .ramp => true
  | _ => false

/-- The pad marks of a flit: every bit of a marked element. -/
def padMarks (w lead : Nat) (marks : List Bool) : Payload :=
  assemble w lead (marks.map fun m => if m then 2 ^ w - 1 else 0)

/-- Count a flit that is wholly pad (R204). -/
def State.countPad (s : State) (ps : List Place) : State :=
  if !ps.isEmpty && ps.all Place.isPad then { s with mem := { s.mem with padFlits := sat 64 (s.mem.padFlits + 1) } } else s

end Sys2Proof.Machine
end

