-- ==== Sys2Proof/Machine/Validation.lean ====
section
/-! DEFINITION. Validation of a last image (R239): the faults of Table 7-14, phase by phase. -/

namespace Sys2Proof.Machine

/-- A load fault with the place that Table 7-15 records. -/
structure LoadFault where
  code : Nat
  die : Nat := 0xFF
  type : Nat := 0
  index : Nat := 0xFFFFFFFF
  batch : Nat := 0xFF
  context : Nat := 0xFF
  deriving DecidableEq, Repr, Inhabited

/-- A check: the offset of the section and the entry that it is about, the fault, and whether it passes. -/
structure Check where
  offset : Nat
  fault : LoadFault
  ok : Bool
  deriving DecidableEq, Repr, Inhabited

/-- Whether one failed check comes before another: lower section, then lower entry. -/
def Check.before (a b : Check) : Bool :=
  a.offset < b.offset || (a.offset == b.offset && a.fault.index < b.fault.index)

/-- The fault of a phase: that of the lowest-numbered entry in the lowest-offset section (R239). -/
def firstFault (cs : List Check) : Option LoadFault :=
  ((cs.filter fun c => !c.ok).foldl (fun (best : Option Check) c =>
    match best with
    | none => some c
    | some b => if c.before b then some c else some b) none).map (·.fault)

/-- A check on the header. -/
def headerCheck (code : Nat) (ok : Bool) : Check := { offset := 0, fault := { code := code }, ok := ok }

/-- Checks on the entries of a section type of a die. -/
def entryChecks {α : Type} (dir : List DirEntry) (type die code : Nat) (entries : List α)
    (ok : Nat → α → Bool) : List Check :=
  let off := ((dir.find? fun e => e.type = type && e.die = die).map (·.offset)).getD 0
  entries.zipIdx.map fun (e, i) =>
    { offset := off, fault := { code := code, die := die, type := type, index := i }, ok := ok i e }

/-! ### Phase 1: format (codes 1 to 4) -/

/-- Whether the bytes of every given (offset, length) are zero. -/
def allZero (e : List Byte) (rs : List (Nat × Nat)) : Bool := rs.all fun r => zeros e r.1 r.2

/-- Reserved bytes and bits of an entry of a section type (Tables 7-3 to 7-12). The reserved fields of a PORT
and the arguments of a SYNC entry have faults of their own. -/
def reservedZero (type : Nat) (e : List Byte) : Bool :=
  match type with
  | 1 => bits (field e 0 2) 15 14 = 0 && bits (field e 3 1) 7 2 = 0 && allZero e [(7, 1), (0x1E, 2)]
  | 2 =>
    match field e 0 1 with
    | 1 => bits (field e 1 1) 7 6 = 0 && bits (field e 2 1) 7 5 = 0 && bits (field e 3 1) 7 5 = 0 &&
        bits (field e 5 1) 7 4 = 0 && allZero e [(11, 1), (15, 1), (19, 1), (0x1D, 3), (0x38, 8), (0x25, 1),
          (0x2B, 1), (0x31, 1), (0x37, 1)] &&
        (match parseOperation e with
          | .matmul o => (List.range 4).all fun n => n < o.subCount || zeros e (0x20 + 6 * n) 6
          | _ => false)
    | 3 => allZero e [(2, 2), (18, 46)]
    | 4 => allZero e [(7, 57)]
    | 5 => allZero e [(3, 1), (6, 2)]
    | 6 => allZero e [(2, 2), (16, 48)]
    | _ => zeros e 1 63
  | 3 => bits (field e 3 1) 7 5 = 0 && bits (field e 9 1) 7 3 = 0 && allZero e [(10, 22)] &&
      (List.range 8).all fun s =>
        let o := 0x20 + 16 * s
        allZero e [(o + 5, 3), (o + 12, 4)] && bits (field e (o + 4) 1) 7 5 = 0 &&
        (List.range 3).all fun k => bits (field e (o + 1 + k) 1) 6 4 = 0
  | 4 => bits (field e 0 2) 15 14 = 0 && bits (field e 7 1) 7 2 = 0 && allZero e [(9, 7)]
  | 6 => bits (field e 2 1) 7 5 = 0 && allZero e [(0x30, 16)]
  | 8 => allZero e [(0x39, 7), (0x340, 64)]
  | _ => true

/-- Whether a directory entry may stand: its type, die, alignment, place and length (R215, R217). -/
def dirEntryOk (bs : List Byte) (e : DirEntry) : Bool :=
  let body := sectionBytes bs e
  (1 ≤ e.type && e.type ≤ 9) &&
  (if e.type = 8 || e.type = 9 then e.die = 0xFF else e.die = 0 || e.die = 1) &&
  e.reserved = 0 && e.offset % 64 = 0 && e.offset + e.length + 160 ≤ bs.length &&
  (if entrySize e.type ≠ 0 then e.length = e.count * entrySize e.type
    else if e.type = 5 then
      let ss := parseSequences 0 body.length body 0
      ss.length = e.count && e.length = (ss.map fun s => 8 + 16 * s.entries.length).sum
    else
      let ps := parsePlans body.length body
      ps.length = e.count && e.length = (ps.map fun p => 8 + 8 * p.events.length).sum)

/-- Occurrences of section types (Table 7-2). -/
def occurrencesOk (dir : List DirEntry) : Bool :=
  let n (t d : Nat) : Nat := (dir.filter fun e => e.type = t && e.die = d).length
  ([1, 2, 4, 5].all fun t => n t 0 = 1 && n t 1 = 1) &&
  ([3, 6, 7].all fun t => n t 0 ≤ 1 && n t 1 ≤ 1) && n 8 0xFF = 1 && n 9 0xFF ≤ 1

/-- Whether the parts of the image lie in their order without overlap, and all bytes between are zero. -/
def layoutOk (bs : List Byte) (dir : List DirEntry) : Bool :=
  let dirEnd := field bs 0x40 4 + 16 * dir.length
  let used := (0, 256) :: (field bs 0x40 4, dirEnd) :: dir.map fun e => (e.offset, e.offset + e.length)
  256 ≤ field bs 0x40 4 && dirEnd + 160 ≤ bs.length &&
  (dir.all fun e => dirEnd ≤ e.offset) &&
  (dir.zipIdx.all fun (a, i) => dir.zipIdx.all fun (b, j) =>
    i == j || a.offset + a.length ≤ b.offset || b.offset + b.length ≤ a.offset) &&
  ((bs.take (bs.length - 160)).zipIdx.all fun (b, i) =>
    b == 0 || used.any fun u => u.1 ≤ i && i < u.2)

/-- ENTRY_COUNT, LOOP_START and REPEAT of every firing sequence of a section, whether a station uses it or not: code 9. -/
def sequenceCounts (ss : List Sequence) : List Bool :=
  ss.map fun q => q.loopStart < q.entries.length && q.entries.all fun e =>
    !bit e.rpt 31 || (bits e.rpt 30 28 = 0 && bits e.rpt 23 21 = 0)

/-- Reserved bytes of the sequence and plan headers and entries. -/
def sequenceReserved (bs : List Byte) : Bool :=
  let rec go : Nat → List Byte → Bool
    | 0, _ => true
    | fuel + 1, bs =>
      if bs.length < 8 then true
      else
        let n := field bs 0 2
        zeros bs 4 4 && ((records (bs.drop 8) 16 n).all fun e =>
          zeros e 11 1 && bits (field e 9 1) 7 6 = 0) && go fuel (bs.drop (8 + 16 * n))
  go bs.length bs

/-- Checks of LAST_FORMAT on the header. -/
def formatOk (bs : List Byte) : Bool :=
  let dir := imageDir bs
  416 ≤ bs.length && slice bs 0 4 = [0x4C, 0x41, 0x53, 0x54] && bits (field bs 4 2) 15 8 = 1 &&
  field bs 8 4 = bs.length && 1 ≤ field bs 0x44 4 && field bs 0x44 4 ≤ 64 &&
  1 ≤ field bs 0x0E 1 && field bs 0x0E 1 ≤ 3 && bits (field bs 0x0F 1) 7 4 = 0 &&
  (bit (field bs 0x0F 1) 2 || field bs 0x38 8 = 0) && field bs 0x54 2 ≤ 256 && 1 ≤ field bs 0x58 2 &&
  zeros bs 0x5A 166 && zeros (sigBlock bs) 3 1 && zeros (sigBlock bs) 0x98 8 &&
  (dir.all (dirEntryOk bs)) && occurrencesOk dir && layoutOk bs dir

/-- SUB is zero in every sequence that no CHAIN station uses (Table 7-8). That it counts there among the reserved bytes of
LAST_FORMAT is DEDUCED, safe (log entry 43). -/
def subZero (x : DieSection) (q : Sequence) : Bool :=
  (x.stations.any fun s => s.kind = .chain && s.seqOffset = q.offset) || q.entries.all fun e => e.sub = 0

/-- Checks of LAST_FORMAT on the entries. -/
def entryFormat (bs : List Byte) (dir : List DirEntry) : List Check :=
  dir.flatMap fun e =>
    if entrySize e.type ≠ 0 then
      (records (sectionBytes bs e) (entrySize e.type) e.count).zipIdx.map fun (r, i) =>
        { offset := e.offset, fault := { code := 1, die := e.die, type := e.type, index := i }
          ok := reservedZero e.type r }
    else if e.type = 5 then
      { offset := e.offset, fault := { code := 1, die := e.die, type := 5 }
        ok := sequenceReserved (sectionBytes bs e) } ::
        (parseDie bs dir e.die).sequences.zipIdx.map fun (q, i) =>
          { offset := e.offset, fault := { code := 1, die := e.die, type := 5, index := i }
            ok := subZero (parseDie bs dir e.die) q }
    else []

/-- Whether a header agrees with the manifest's listing (code 4). -/
def listingAgrees (h : ImageHeader) (e : LastEntry) : Bool :=
  h.passKind = e.role && h.quadrants = e.quadrants && h.dieQuads0 + 16 * h.dieQuads1 = e.dieQuads &&
  h.safe = e.safe

/-! ### Phase 2: placement and size (codes 5 and 6) -/

/-- Bits of a mask on a die. -/
def maskOnDie (mask die : Nat) : Nat := ((List.range 4).filter fun q => bit mask (4 * die + q)).length

/-- R232: QUADRANTS, DIE_QUADS and every set bit of PLACEMENT_SET agree. -/
def placementOk (h : ImageHeader) : Bool :=
  (6 ≤ h.quadrants && h.quadrants ≤ 8) && (2 ≤ h.dieQuads0 && h.dieQuads0 ≤ 4) &&
  (2 ≤ h.dieQuads1 && h.dieQuads1 ≤ 4) && h.dieQuads0 + h.dieQuads1 = h.quadrants &&
  ((List.range 256).all fun m => !bit h.placement m ||
    (maskOnDie m 0 = h.dieQuads0 && maskOnDie m 1 = h.dieQuads1))

/-- LAST_SIZE. -/
def sizeOk (h : ImageHeader) (dir : List DirEntry) : Bool :=
  h.die0Bytes ≤ 7864320 && h.die1Bytes ≤ 7864320 && h.die0Bytes = dieBytes dir 0 &&
  h.die1Bytes = dieBytes dir 1 && h.swapCycles = swapCyclesOf h.die0Bytes h.die1Bytes

/-! ### Phase 3: stations and queues (codes 7 to 9) -/

def StationKind.units : StationKind → Nat
  | .store => 4
  | .welt => 2
  | _ => 1

def StationKind.inputs : StationKind → Nat
  | .matmul => 3 | .chain => 4 | .store => 2 | .welt => 5 | .port => 1 | .sync => 4

def StationKind.outputs : StationKind → Nat
  | .matmul => 2 | .chain => 2 | .store => 2 | .welt => 4 | .port => 1 | .sync => 4

/-- Whether a tile hosts a kind: work tiles have x + y even (R11, Table 3-3). -/
def StationKind.hosted (k : StationKind) (loc : Nat) : Bool :=
  let work := (locX loc + locY loc) % 2 = 0
  match k with
  | .matmul | .chain => work
  | .store | .port => !work
  | .welt | .sync => true

/-- Number of inputs or outputs named. -/
def portsUsed (qs : List Nat) : Nat := (qs.filter (· != 0xFFFF)).length

/-- The target-specific fields of a PORT entry (R271, R288, R349, R407, R432); `f` starts at 08h. -/
def portFieldsOk (i : Image) (die target direction gen : Nat) (f : List Byte) : Bool :=
  let space := ((i.gen? die gen).map (·.space)).getD 0xFF
  match target with
  | 1 => bits (field f 0 1) 7 1 = 0 && 1 ≤ field f 1 1 && field f 1 1 ≤ 64 && zeros f 2 54 &&
      (space = 1 || space = 4)
  | 2 => direction = 0 && field f 0 1 ≤ 16 && zeros f 1 55 && space = 2
  | 3 =>
    match field f 0 1 with
    | 1 => direction = 1 && field f 1 1 ≤ 1 && zeros f 4 52 &&
        (if field f 1 1 = 1 then 64 ≤ field f 2 2 && field f 2 2 % 64 = 0 else field f 2 2 = 0)
    | 2 => field f 1 1 ≤ 3 && field f 2 2 = 0 && zeros f 4 52 && space = 3
    | _ => false
  | 4 => field f 0 1 < 64 && field f 1 1 = (if direction = 1 then 0 else 1) && 1 ≤ field f 2 2 &&
      field f 2 2 ≤ 256 && zeros f 6 50
  | 5 =>
    let rowBytes := field f 4 2
    64 ≤ rowBytes && rowBytes ≤ 16384 && rowBytes % 64 = 0 && bits (field f 6 1) 7 5 = 0 && zeros f 7 1 &&
    (if direction = 0 then 1 ≤ field f 2 1 && field f 2 1 ≤ 8 && bits (field f 3 1) 7 1 = 0 && zeros f 16 40
      else zeros f 20 36)
  | _ => false

/-- The operation of a station: its kind, range and fields (R85, Tables 3-5, 7-5). -/
def operationOk (i : Image) (s : StationDesc) : Bool :=
  let d := locDie s.location
  match s.kind with
  | .chain => 1 ≤ s.progCount && s.progCount ≤ 4 && s.opIndex + s.progCount ≤ (i.die d).programs.length
  | k =>
    s.progCount = 0 &&
    match k, i.operation s with
    | .matmul, some (.matmul _) => true
    | .store, some (.store role _ _ depth _ _) =>
      role ≤ 2 && (if role = 2 then 64 ≤ depth && depth ≤ 4096 else depth = 0)
    | .welt, some (.welt op ins outs rot) =>
      let control := s.inQ.getD 4 0xFFFF != 0xFFFF
      portsUsed (s.inQ.take 4) = ins && portsUsed s.outQ = outs &&
      (op = 3 || rot.isEmpty) && rot.length ≤ 8 &&
      match op with
      | 0 => ins = 1 && 2 ≤ outs && outs ≤ 4 && !control
      | 1 => ins = 1 && 2 ≤ outs && outs ≤ 4 && control
      | 2 => 2 ≤ ins && ins ≤ 4 && outs = 1 && control
      | 3 => 2 ≤ ins && ins ≤ 4 && outs = 1 && !control && !rot.isEmpty && rot.all (· < ins)
      | _ => false
    | .port, some (.port target dir gen f) => dir ≤ 1 && portFieldsOk i d target dir gen f
    | .sync, some (.sync ..) => true
    | _, _ => false

/-- Whether a queue descriptor names this station's port. -/
def queueNames (i : Image) (s : StationDesc) (input : Bool) (port q : Nat) : Bool :=
  q = 0xFFFF || i.queues.any fun d => d.queue = q &&
    (if input then d.consumerPort = port && d.queue / 16 = s.location / 16
      else d.producerPort = port && d.producer = s.location)

/-- FAB_STATION_INVALID on a station descriptor; `raw` is its KIND byte and `logical` its LOCATION before placement. A
MATMUL station outside the capacity step has a fault of its own (R197). -/
def stationOk (i : Image) (n : Nat) (s : StationDesc) (raw logical : Nat) : Bool :=
  1 ≤ raw && raw ≤ 6 && bits s.location 3 0 < s.kind.units && s.kind.hosted s.location &&
  (s.kind = .matmul || locInStep i.header logical) &&
  ((i.stations.zipIdx.all fun (t, j) => j == n || t.kind != s.kind || t.location != s.location)) &&
  ((s.inQ.drop s.kind.inputs).all (· == 0xFFFF)) && ((s.outQ.drop s.kind.outputs).all (· == 0xFFFF)) &&
  (s.inQ.zipIdx.all fun (q, p) => queueNames i s true p q) &&
  (s.outQ.zipIdx.all fun (q, p) => queueNames i s false p q) &&
  operationOk i s && (i.die (locDie s.location)).sequences.any (·.offset = s.seqOffset)

/-- FAB_STATION_INVALID on a queue descriptor: both of its stations name it, once (R89, R223); `logical` is the
descriptor before placement. -/
def queueOk (i : Image) (q logical : QueueDesc) : Bool :=
  locInStep i.header logical.queue && locInStep i.header logical.producer &&
  (i.stations.filter fun s => s.location = q.producer && s.outQ.getD q.producerPort 0xFFFF = q.queue).length = 1 &&
  (i.stations.filter fun s => s.location / 16 = q.queue / 16 &&
    s.inQ.getD q.consumerPort 0xFFFF = q.queue).length = 1 &&
  (i.queues.filter fun r => r.queue = q.queue).length = 1

/-- Mesh position of a tile: 32 columns by 32 rows (R78). -/
def meshX (loc : Nat) : Nat := locX loc
def meshY (loc : Nat) : Nat := 16 * locDie loc + locY loc

/-- Links of a straight run of the mesh, as (x, y, vertical, forward). -/
def runLinks (vertical : Bool) (fixed from_ to_ : Nat) : List (Nat × Nat × Bool × Bool) :=
  if from_ ≤ to_ then
    (List.range (to_ - from_)).map fun k =>
      if vertical then (fixed, from_ + k, true, true) else (from_ + k, fixed, false, true)
  else
    (List.range (from_ - to_)).map fun k =>
      if vertical then (fixed, from_ - k, true, false) else (from_ - k, fixed, false, false)

/-- Links that a queue crosses: down its column first, or along its row first (R91). -/
def queueLinks (q : QueueDesc) : List (Nat × Nat × Bool × Bool) :=
  let (x0, y0) := (meshX q.producer, meshY q.producer)
  let (x1, y1) := (meshX q.queue, meshY q.queue)
  if q.rowFirst then runLinks false y0 x0 x1 ++ runLinks true x1 y0 y1
  else runLinks true x0 y0 y1 ++ runLinks false y1 x0 x1

/-- FAB_ROUTE_CONFLICT: no link direction carries more than sixteen queues, none a virtual channel twice. -/
def routeOk (i : Image) (q : QueueDesc) : Bool :=
  q.vc < 16 && (queueLinks q).all fun l =>
    let same := i.queues.filter fun r => (queueLinks r).contains l
    same.length ≤ 16 && (same.filter fun r => r.vc = q.vc).length ≤ 1

/-- Depth of a queue of an image. -/
def Image.depth (i : Image) (q : Nat) : Nat := ((i.queues.find? (·.queue = q)).map (·.depth)).getD 0

/-- FAB_COUNT_INVALID on the sequence of a station (R96, R224). -/
def countsOk (i : Image) (s : StationDesc) : Bool :=
  let q := i.sequence s
  q.loopStart < q.entries.length && q.entries.all fun e =>
    (!bit e.rpt 31 || (bits e.rpt 30 28 = 0 && bits e.rpt 23 21 = 0)) &&
    (e.consume.zipIdx.all fun (n, p) => n ≤ 64 && (n = 0 || n ≤ i.depth (s.inQ.getD p 0xFFFF))) &&
    (e.produce.zipIdx.all fun (n, p) => n ≤ 64 && (n = 0 || n ≤ i.depth (s.outQ.getD p 0xFFFF)))

/-! ### Phase 3: matrix operations (codes 10 to 16) -/

/-- FAB_GRID_INVALID on the fields of an operation (Table 6-1). -/
def gridOk (o : MatmulOp) : Bool :=
  1 ≤ o.boundM && 1 ≤ o.boundN && 1 ≤ o.boundK && 1 ≤ o.gridM && o.gridM ≤ tilesOf o.boundM &&
  1 ≤ o.gridN && o.gridN ≤ tilesOf o.boundN && o.gridPosM < o.gridM && o.gridPosN < o.gridN &&
  1 ≤ o.ksplit && o.ksplit ≤ 64 && o.ksplitPos < o.ksplit && o.order ≤ 2 && o.loop ≤ 2 &&
  1 ≤ o.band && o.band ≤ 16

/-- An operation entry without what differs from station to station. -/
def MatmulOp.common (o : MatmulOp) : MatmulOp :=
  { o with gridPosM := 0, gridPosN := 0, ksplitPos := 0, subs := [] }

/-- The MATMUL stations of an image with their operations. -/
def Image.matmuls (i : Image) : List (StationDesc × MatmulOp) :=
  i.stations.filterMap fun s =>
    match s.kind, i.operation s with
    | .matmul, some (.matmul o) => some (s, o)
    | _, _ => none

/-- R197: the stations of an operation hold every triple of its grid once, in quadrants of the capacity step. An image
does not say which entries are one operation: entries alike in all but their place are taken together, and where they hold
every triple n times they are n operations, as the two first products of a gated block are. DESIGN CHOICE, unsafe (log
entry 43). -/
def gridCovered (i : Image) (logical : Nat) (o : MatmulOp) : Bool :=
  let group := i.matmuls.filter fun p => p.2.common = o.common
  let held (m n k : Nat) : Nat :=
    (group.filter fun p => p.2.gridPosM = m && p.2.gridPosN = n && p.2.ksplitPos = k).length
  locInStep i.header logical &&
  held o.gridPosM o.gridPosN o.ksplitPos * (o.gridM * o.gridN * o.ksplit) = group.length

/-- MXE_MODE_INVALID (Table 4-8, R159): a redundant last names no GANGED mode. -/
def modeOk (h : ImageHeader) (o : MatmulOp) : Bool :=
  o.arrayMode ≤ 2 && o.stationary ≤ 2 && !((o.redundant || h.redundant) && o.arrayMode = 2)

/-- Narrow floating formats of Table 4-5. -/
def narrowFp (c : Nat) : Bool := 2 ≤ c && c ≤ 6

/-- MXE_FORMAT_PAIR (R143, R144, Table 4-8). -/
def formatPairOk (o : MatmulOp) : Bool :=
  let a := o.fmtStream
  let b := o.fmtStat
  a ≤ 8 && b ≤ 8 && o.drainFormat ≤ 2 && (!o.mxStream || narrowFp a) && (!o.mxStat || narrowFp b) &&
  ((a ≤ 1 && b ≤ 1) || (narrowFp a && narrowFp b) || (a = 7 && b = 7) || (a = 8 && b = 8))

/-- MXE_REGION_RANGE (R150, Table 4-8). -/
def regionsOk (o : MatmulOp) : Bool :=
  o.active.all fun n =>
    let s := lget o.subs n
    s.region < 16 && s.rowOrigin < 64 && s.colOrigin < 64 && 1 ≤ s.validRows && s.validRows ≤ o.h &&
    1 ≤ s.validCols && s.validCols ≤ o.w && s.rowOrigin + s.validRows ≤ 64 &&
    s.colOrigin + s.validCols ≤ 64

/-- The ports that lead through a station that only passes flits on: every data port of a welt, the ports of a SYNC unit
with the same number, those of a spill-queue STORE, and with `stored` those of every STORE. None of a station that
produces or consumes. -/
def Image.through (i : Image) (stored : Bool) (s : StationDesc) (p : Nat) : List Nat :=
  match i.operation s with
  | some (.welt ..) => List.range 4
  | some (.store role ..) => if role = 2 || stored then [0, 1] else []
  | some (.sync ..) => [p]
  | _ => []

/-- The stations that produce the flits of a queue, with the output each uses and the stations between. The fuel bounds
the walk; a queue that nothing feeds has no producer. -/
def producers (i : Image) (stored : Bool) : Nat → Nat → List (StationDesc × Nat × List StationDesc)
  | 0, _ => []
  | fuel + 1, q =>
    i.stations.flatMap fun s =>
      match (List.range 4).find? fun p => q != 0xFFFF && s.outQ.getD p 0xFFFF = q with
      | none => []
      | some p =>
        match i.through stored s p with
        | [] => [(s, p, [])]
        | ps => ps.flatMap fun r => (producers i stored fuel (s.inQ.getD r 0xFFFF)).map fun x => (x.1, x.2.1, s :: x.2.2)

/-- The stations that consume the flits of a queue, with the input each uses and the stations between. -/
def consumers (i : Image) (stored : Bool) : Nat → Nat → List (StationDesc × Nat × List StationDesc)
  | 0, _ => []
  | fuel + 1, q =>
    i.stations.flatMap fun s =>
      match (List.range 5).find? fun p => q != 0xFFFF && s.inQ.getD p 0xFFFF = q with
      | none => []
      | some p =>
        match i.through stored s p with
        | [] => [(s, p, [])]
        | ps => ps.flatMap fun r => (consumers i stored fuel (s.outQ.getD r 0xFFFF)).map fun x => (x.1, x.2.1, s :: x.2.2)

/-- The stations that the flits of a station's output reach, and those on the way. -/
def Image.reach (i : Image) (s : StationDesc) (p : Nat) : List StationDesc :=
  (consumers i true 16 (s.outQ.getD p 0xFFFF)).flatMap fun x => x.1 :: x.2.2

/-- The MATMUL stations whose output drains into a CHAIN station, with the output of each, and the outputs of the CHAIN
station that a MATMUL station consumes: a fused pair where there are both (R210). A path leads through welts, SYNC and STORE
stations. -/
def Image.pairMakers (i : Image) (s : StationDesc) : List (StationDesc × Nat) :=
  ((List.range 4).flatMap fun p => (producers i true 16 (s.inQ.getD p 0xFFFF)).filterMap fun x =>
    if x.1.kind = .matmul then some (x.1, x.2.1) else none)

def Image.pairOutputs (i : Image) (s : StationDesc) : List Nat :=
  (List.range 2).filter fun p => (i.reach s p).any fun x => x.kind = .matmul

/-- FAB_GROUP_INVALID on a CHAIN station (R210): the pair's stations, and every station that its intermediate reaches or
passes, lie in one quadrant, and none is a PORT station. That the intermediate goes on through a STORE station, which is one
of the group's memory tiles, is DEDUCED, unsafe (log entry 43). -/
def groupOk (i : Image) (s : StationDesc) : Bool :=
  let makers := i.pairMakers s
  let outs := i.pairOutputs s
  s.kind != .chain || makers.isEmpty || outs.isEmpty ||
    (makers.map (·.1) ++ (makers.flatMap fun m => i.reach m.1 m.2) ++ outs.flatMap (i.reach s)).all fun t =>
      locQuad t.location = locQuad s.location && t.kind != .port

/-- The operation of a MATMUL station. -/
def Image.matmulOp? (i : Image) (s : StationDesc) : Option MatmulOp :=
  match s.kind, i.operation s with
  | .matmul, some (.matmul o) => some o
  | _, _ => none

/-- The product whose tile map a station's generator follows (R250): for what it reads the one that consumes it, and for
what it writes the one whose drained tiles come to it, through a CHAIN station or not. -/
def Image.mapOf (i : Image) (s : StationDesc) (write : Bool) : Option MatmulOp :=
  if write then
    let direct := producers i false 16 (s.inQ.getD 0 0xFFFF)
    let chained := direct.flatMap fun x =>
      if x.1.kind = .chain then producers i false 16 (x.1.inQ.getD 0 0xFFFF) else []
    (direct ++ chained).findSome? fun x => i.matmulOp? x.1
  else
    ((s.outQ.filter (· != 0xFFFF)).flatMap (consumers i false 16)).findSome? fun x => i.matmulOp? x.1

/-- SKEW that a producer declares. -/
def Image.skewOf (i : Image) (s : StationDesc) : Nat :=
  match i.operation s with
  | some (.store _ _ _ _ r _) => ((i.gen? (locDie s.location) r).map (·.skew)).getD 0
  | some (.port _ _ g _) => ((i.gen? (locDie s.location) g).map (·.skew)).getD 0
  | _ => 0

/-- MXE_SKEW_LAYOUT (R135): every producer of the streaming queue declares the sub-array's 32 lanes. -/
def skewOk (i : Image) (s : StationDesc) (o : MatmulOp) : Bool :=
  let makers := producers i false 16 (s.inQ.getD 0 0xFFFF)
  o.arrayMode = 2 || (!makers.isEmpty && makers.all fun m => i.skewOf m.1 = 32)

/-- Firings of a list of entries once through, as entries with repeats (R224). -/
def onceThrough (params : List Nat) (es : List SeqEntry) : List SeqEntry :=
  es.flatMap fun e => List.replicate (repeatOf params e.rpt) e

/-- State of the walk of R139: whether a set is in use, the steps since a swap that left a used set, and whether
a load has come before a release. -/
structure ShadowWalk where
  used : Bool := false
  since : Option Nat := none
  early : Bool := false
  deriving DecidableEq, Repr

/-- One firing of the walk: a swap leaves the set in use; a load before D further steps is early (R139). -/
def ShadowWalk.firing (depth : Nat) (w : ShadowWalk) (e : SeqEntry) : ShadowWalk :=
  let swap := bit e.marks 5
  let since := if swap then (if w.used then some 0 else none) else w.since
  let early := since.any fun n => 0 < e.consume.getD 1 0 && n < depth
  ⟨w.used || swap, since.map (· + 1), w.early || early⟩

/-- MXE_SHADOW_ORDER for a parameter block (R139); under OS no set is loaded. The sequence runs once, then from
LOOP_START again (R224): what two repetitions of the loop do not show, no later one does. -/
def shadowOk (i : Image) (s : StationDesc) (o : MatmulOp) (params : List Nat) : Bool :=
  let q := i.sequence s
  let loop := onceThrough params (q.entries.drop q.loopStart)
  let run := onceThrough params q.entries ++ loop ++ loop
  o.stationary = 2 || !(run.foldl (ShadowWalk.firing o.depth) {}).early

/-! ### Phase 3: chain programs (codes 17 to 19) -/

/-- Functions available (Table 5-5). -/
def funcExists (f : Nat) : Bool :=
  f ≤ 0x0E || (0x10 ≤ f && f ≤ 0x12) || (0x14 ≤ f && f ≤ 0x1B) || (0x20 ≤ f && f ≤ 0x27)

/-- Functions whose operands NEG may not negate: integer, logic and shift. -/
def negForbidden (f : Nat) : Bool := 1 ≤ f && f ≤ 0x0E

/-- CHN_PROGRAM_INVALID on a program (R175, R176, R183, Table 5-11). -/
def programOk (p : ChainProgram) : Bool :=
  p.laneForm ≤ 2 && (p.exitLanes = 32 || p.exitLanes = 64) && p.rowstat ≤ 4 && 1 ≤ p.tileRows &&
  p.tileRows ≤ 64 && 1 ≤ p.validRows && p.validRows ≤ p.tileRows && 1 ≤ p.validLanes && p.validLanes ≤ 64 &&
  p.stages.zipIdx.all fun (s, n) =>
    funcExists s.func && (s.func < 0x20 || n = 1 || n = 3 || n = 5) &&
    s.a.source ≤ 10 && s.b.source ≤ 10 && s.c.source ≤ 10 && s.cond ≤ 5 && s.compare ≤ 2 &&
    !(negForbidden s.func && (s.a.neg || s.b.neg || s.c.neg))

/-- Functions that exist in a packed form. -/
def packedFunc (f : Nat) : Bool := (f ≤ 0x12 && f != 4)

/-- CHN_FORMAT_INVALID (R171, R173, Table 5-11). -/
def chainFormatOk (p : ChainProgram) : Bool :=
  let entry (f : Nat) : Bool :=
    match p.laneForm with
    | 0 => f = 10 || f = 7 || f = 8 || f = 2 || f = 3 || f = 11 || f = 12 || f = 0
    | 1 => f = 12
    | _ => f = 0
  entry p.entryFmt0 && entry p.entryFmt1 &&
  (match p.laneForm with
    | 0 => p.exitFormat ≤ 12 && p.exitFormat != 1 && p.exitFormat != 9
    | 1 => p.exitFormat = 12
    | _ => p.exitFormat = 0) &&
  (!p.exitMx || narrowFp p.exitFormat) &&
  (p.laneForm = 0 || p.stages.all fun s => packedFunc s.func)

/-- CHN_OUTPUT_CONFLICT (R174). -/
def chainOutputOk (p : ChainProgram) : Bool := !(p.exitMx && 1 ≤ p.rowstat)

/-- Programs of a CHAIN station. -/
def Image.programs (i : Image) (s : StationDesc) : List ChainProgram :=
  if s.kind = .chain then (List.range s.progCount).map (i.program s) else []

/-- CHN_PROGRAM_INVALID on a station (R169), on SUB, and on MASK_FILL before a second product (R211). -/
def chainStationOk (i : Image) (s : StationDesc) : Bool :=
  s.kind != .chain ||
  (((i.programs s).filter fun p => p.rowstat != 0).length ≤ 1 &&
   ((i.sequence s).entries.all fun e => e.sub < s.progCount) &&
   (let outs := i.pairOutputs s
    (i.pairMakers s).isEmpty || (i.sequence s).entries.all fun e =>
      !((i.program s e.sub).maskFill && outs.any fun p => e.produce.getD p 0 != 0)))

/-! ### Phase 3: generators and SYNC entries (codes 20 and 21) -/

/-- Lowest and highest offset that in-bound indices reach, the highest exclusive (R250, R251). -/
def genExtent (g : AddrGen) (dims : List Nat) : Int × Int :=
  let d0 := g.order.getD 0 0
  let step (a : Int × Int) (d : Nat) : Int × Int :=
    if d = d0 then a
    else
      let t : Int := ((g.bound.getD d 1 - 1 : Nat) : Int) * g.stride.getD d 0
      if t < 0 then (a.1 + t, a.2) else (a.1, a.2 + t)
  let start : Int × Int := ((g.base : Int), (g.base : Int))
  let r := dims.foldl step start
  let last : Int := (ceilDiv ((if dims.contains d0 then g.bound.getD d0 1 else 1) * formatBits g.format) 8 : Nat)
  (r.1, r.2 + last)

/-- R272: a page template with KV. -/
def templateOk (t : TensorEntry) : Bool :=
  let n := ((List.range 16).filter (bit t.stackMask)).length
  t.shard = 0xFFFFFFFF && 1 ≤ n && 1 ≤ t.bytes && t.bytes % (256 * n) = 0 && t.bytes ≤ 2 ^ 24

/-- MEM_GEN_INVALID on a generator entry (R251, R272), with the tensors of the package. In space 4 the place in the page
goes by t mod 64 (R275). -/
def genOk (tensors : List TensorEntry) (g : AddrGen) : Bool :=
  let inside (dims : List Nat) (n : Nat) : Bool :=
    let r := genExtent (if g.space = 4 then { g with bound := g.bound.set 2 64 } else g) dims
    decide (0 ≤ r.1) && decide (r.2 ≤ (n : Int))
  bits g.location 3 0 < 4 && (locX g.location + locY g.location) % 2 = 1 && g.location < 2 ^ 14 &&
  (g.format ≤ 8 || (10 ≤ g.format && g.format ≤ 12)) && (g.skew = 0 || g.skew = 32) &&
  (g.bound.all fun b => 1 ≤ b && b ≤ 16777215) &&
  ((List.range 4).all fun d => g.order.contains d) &&
  match g.space with
  | 0 => inside [0, 1, 2, 3] (524288 - g.tensor)
  | 1 | 2 => tensors[g.tensor]?.any fun t => inside [0, 1, 2, 3] t.bytes
  | 3 => true
  | 4 => g.tensor ≤ 1 && tensors[g.tensor]?.any fun t => templateOk t && inside [0, 1, 2] t.bytes
  | _ => false

/-- MEM_GEN_INVALID on a STORE entry (R251), and entries that do not exist. -/
def storeGensOk (i : Image) (die : Nat) : Operation → Bool
  | .store _ base bytes _ r w =>
    base + bytes ≤ 524288 && (i.gen? die r).isSome && (i.gen? die w).isSome
  | .port target _ g _ => target = 4 || target = 5 || (i.gen? die g).isSome
  | _ => true

/-- SYN_DESC_INVALID (R361, R365, R367). -/
def syncOk (s : StationDesc) : Operation → Bool
  | .sync opcode object args =>
    let arg := field args 0 4
    let scope := bits object 31 30
    let objectOk :=
      scope ≤ 2 && bits object 13 9 = 0 && (scope = 2 || bits object 29 24 = 0) &&
      (if scope = 0 then bits object 8 0 ≤ 3 else bits object 23 14 = 0)
    let own := scope = 0 && bits object 23 14 = s.location / 16
    let parent := arg = 0xFFFFFFFF || bits arg 30 9 = 0
    objectOk && 1 ≤ field args 6 1 && field args 6 1 < 16 && bits (field args 7 1) 7 1 = 0 &&
    (match opcode with
      | 1 => 1 ≤ arg && field args 7 1 = 0
      | 2 => true
      | 3 | 4 => own && parent && field args 7 1 = 0
      | _ => false)
  | _ => true

/-! ### Phase 4 (codes 22 to 25) -/

/-- Parameter block of a bucket pair: P[0], P[1], and P[2] at the runs that the table covers. -/
def bucketParams (i : Image) (b c : Nat) : List Nat :=
  [i.wcet.batch.getD b 0, i.wcet.context.getD c 0, i.header.maxAdapterRuns] ++ List.replicate 13 0

/-- Supported bucket pairs. -/
def Wcet.supported (w : Wcet) : List (Nat × Nat) :=
  w.cells.zipIdx.flatMap fun (row, b) => row.zipIdx.filterMap fun (v, c) => v.map fun _ => (b, c)

/-- MXE_ACC_BUDGET for one block and bucket pair (R201). -/
def accOk (i : Image) (p : AccBlock) (b c : Nat) : Bool :=
  match i.matmuls.find? fun q => q.1.location = p.location with
  | some (s, o) =>
    let q := i.sequence s
    (p.events.all fun e => e.kind != .undefined && e.region < 16 && e.seqEntry < q.entries.length) &&
    accCheck o.accSpill p.spillDepth
      (p.expand (fun e => repeatOf (bucketParams i b c) (lget q.entries e).rpt) q.entries.length)
  | none => false

/-- Checks of the accumulator plans. -/
def accChecks (i : Image) (dir : List DirEntry) (die : Nat) : List Check :=
  let off := ((dir.find? fun e => e.type = 7 && e.die = die).map (·.offset)).getD 0
  (i.die die).plans.zipIdx.flatMap fun (p, n) => i.wcet.supported.map fun (b, c) =>
    { offset := off, fault := { code := 22, die := die, type := 7, index := n, batch := b, context := c }
      ok := accOk i p b c }

/-- A MATMUL station that uses regions has a block of its own in the plan (R201, R227). One whose sequence streams vectors
uses regions. -/
def accBlockOk (i : Image) (s : StationDesc) : Bool :=
  s.kind != .matmul || (i.sequence s).entries.all (fun e => e.consume.getD 0 0 = 0) ||
    ((i.die (locDie s.location)).plans.filter fun p => p.location = s.location).length = 1

/-- FAB_BRIDGE_BUDGET on a bridge entry (R230). -/
def bridgeOk (e : BridgeEntry) : Bool :=
  e.start < e.stop && e.bytes01 ≤ 1152 * (e.stop - e.start) && e.bytes10 ≤ 1152 * (e.stop - e.start)

/-- Where the packets and messages of lace and dispatch PORT stations leave, under the span and the tables in force at the
load: the die of the eyelet towards each span member (none for the module itself), the dies of the uplinks towards the
hosts that serve a layer's experts, and of those towards the hosts that dispatch to this module (Tables 1-1, 1-2, R404,
R421). -/
structure BridgeEnv where
  laces : List (Option Nat) := []
  dispatch : List (Nat × Nat) := []
  serve : List Nat := []
  deriving DecidableEq, Repr, Inhabited

/-- The die of a store stack (Table 1-1). -/
def dieOfStoreStack (k : Nat) : Nat := if k < 4 then 0 else 1

/-- Dies of the store stacks that a generator reads of a tensor: extent i of shard n lies on stack (n + i) mod 8 (R293). -/
def storeDies (t : TensorEntry) (g : AddrGen) : List Nat :=
  let r := genExtent g [0, 1, 2, 3]
  let first := (t.offset + r.1.toNat) / 2 ^ 20
  let stop := ceilDiv (t.offset + r.2.toNat) (2 ^ 20)
  (List.range (min 8 (stop - first))).map fun k => dieOfStoreStack ((t.shard + first + k) % 8)

/-- R230: in a last without a BRIDGE section no PORT station addresses a resource of the other die. A host PORT station uses
a module of its own die (R448). That a lace or dispatch PORT is judged by what is in force at the load is DEDUCED, unsafe
(log entry 43). -/
def bridgeStationOk (sectioned : Bool) (i : Image) (tensors : List TensorEntry) (b : BridgeEnv) (s : StationDesc) : Bool :=
  sectioned ||
  match i.operation s with
  | some (.port target direction g fields) =>
    let d := locDie s.location
    let p : Nat × Nat := (field fields 0 1, field fields 0 2)
    match target, i.gen? d g with
    | 1, some gen => if gen.space = 4 then gen.tensor = d else tensors[gen.tensor]?.all fun t => t.die = d || t.die = 0xFF
    | 2, some gen => tensors[gen.tensor]?.all fun t => (storeDies t gen).all (· = d)
    | 4, _ => (b.laces[p.1]?.join).all (· = d)
    | 5, _ => if direction = 0 then (b.dispatch.filter fun e => e.1 = p.2).all fun e => e.2 = d else b.serve.all (· = d)
    | _, _ => true
  | _ => true

/-- WCET_RANGE (R229). -/
def wcetRangeOk (w : Wcet) : Bool :=
  (w.cells.all fun r => r.all fun v => v.all (· ≤ 24960000)) && w.batch.getD 0 0 != 0 &&
  w.context.getD 0 0 != 0 && w.batch.getD 15 0 = 1024 && w.context.getD 11 0 = 32768 && w.axis ≤ 1

/-- Strictly ascending. -/
def ascending : List Nat → Bool
  | a :: b :: l => a < b && ascending (b :: l)
  | _ => true

/-- A cell of a table. -/
def Wcet.cell (w : Wcet) (b c : Nat) : Option Nat := ((w.cells.getD b []).getD c none)

/-- WCET_NOT_MONOTONE at a cell (R229). -/
def cellMonotone (w : Wcet) (b c : Nat) : Bool :=
  match w.cell b c with
  | some v =>
    (w.cell (b + 1) c).all (v ≤ ·) && (w.cell b (c + 1)).all (v ≤ ·)
  | none => (List.range 16).all fun b2 => (List.range 12).all fun c2 =>
      !(b ≤ b2 && c ≤ c2 && (w.cell b2 c2).isSome)

def wcetMonotone (w : Wcet) : Bool :=
  ascending w.batch && ascending w.context &&
  (List.range 16).all fun b => (List.range 12).all fun c => cellMonotone w b c

/-- The first cell that breaks the order, for the record. -/
def wcetBreak (w : Wcet) : Option (Nat × Nat) :=
  ((List.range 16).flatMap fun b => (List.range 12).map fun c => (b, c)).find? fun p =>
    !cellMonotone w p.1 p.2

/-! ### The phases -/

/-- Phase 3 on an image placed under the mask; `l` is the image before placement. -/
def phase3 (bs : List Byte) (dir : List DirEntry) (i l : Image) (tensors : List TensorEntry) : List Check :=
  [0, 1].flatMap fun d =>
    let x := i.die d
    let loc (n : Nat) : Nat := (lget (l.die d).stations n).location
    let raws := dieEntries bs dir 1 d
    let base := if d = 0 then 0 else i.die0.stations.length
    let mats (f : StationDesc → MatmulOp → Bool) (s : StationDesc) : Bool :=
      match s.kind, i.operation s with
      | .matmul, some (.matmul o) => f s o
      | _, _ => true
    let ops (f : MatmulOp → Bool) : Operation → Bool
      | .matmul o => f o
      | _ => true
    entryChecks dir 1 d 7 x.stations (fun n s => stationOk i (base + n) s (field (raws.getD n []) 2 1) (loc n)) ++
    entryChecks dir 4 d 7 x.queues (fun n q => queueOk i q (lget (l.die d).queues n)) ++
    entryChecks dir 4 d 8 x.queues (fun _ q => routeOk i q) ++
    entryChecks dir 4 d 9 x.queues (fun _ q => 2 ≤ q.depth && q.depth ≤ 64) ++
    entryChecks dir 1 d 9 x.stations (fun _ s => countsOk i s) ++
    entryChecks dir 5 d 9 (sequenceCounts x.sequences) (fun _ ok => ok) ++
    entryChecks dir 2 d 10 x.operations (fun _ => ops gridOk) ++
    entryChecks dir 1 d 10 x.stations (fun n => mats fun _ o => gridCovered i (loc n) o) ++
    entryChecks dir 1 d 11 x.stations (fun _ s => groupOk i s) ++
    entryChecks dir 2 d 12 x.operations (fun _ => ops (modeOk i.header)) ++
    entryChecks dir 2 d 13 x.operations (fun _ => ops formatPairOk) ++
    entryChecks dir 2 d 14 x.operations (fun _ => ops regionsOk) ++
    entryChecks dir 1 d 15 x.stations (fun _ => mats (skewOk i)) ++
    entryChecks dir 1 d 16 x.stations (fun _ => mats fun s o =>
      i.wcet.supported.all fun p => shadowOk i s o (bucketParams i p.1 p.2)) ++
    entryChecks dir 3 d 17 x.programs (fun _ => programOk) ++
    entryChecks dir 1 d 17 x.stations (fun _ s => chainStationOk i s) ++
    entryChecks dir 3 d 18 x.programs (fun _ => chainFormatOk) ++
    entryChecks dir 3 d 19 x.programs (fun _ => chainOutputOk) ++
    entryChecks dir 6 d 20 x.gens (fun _ => genOk tensors) ++
    entryChecks dir 2 d 20 x.operations (fun _ => storeGensOk i d) ++
    entryChecks dir 1 d 21 x.stations (fun _ s => (i.operation s).all (syncOk s))

/-- Phase 4. -/
def phase4 (dir : List DirEntry) (i : Image) (tensors : List TensorEntry) (b : BridgeEnv) : List Check :=
  let w := ((dir.find? (·.type = 8)).map (·.offset)).getD 0
  let br := (wcetBreak i.wcet).getD (0xFF, 0xFF)
  accChecks i dir 0 ++ accChecks i dir 1 ++
  ([0, 1].flatMap fun d => entryChecks dir 1 d 22 (i.die d).stations fun _ => accBlockOk i) ++
  entryChecks dir 9 0xFF 23 i.bridge (fun _ => bridgeOk) ++
  ([0, 1].flatMap fun d => entryChecks dir 1 d 23 (i.die d).stations fun _ =>
    bridgeStationOk (dir.any fun e => e.type = 9) i tensors b) ++
  [{ offset := w, fault := { code := 24, type := 8, index := 0 }, ok := wcetRangeOk i.wcet },
   { offset := w, fault := { code := 25, type := 8, index := 0, batch := br.1, context := br.2 }
     ok := wcetMonotone i.wcet }]

/-- What the loader knows of the package that PACKAGE_TAG names. -/
structure LoadEnv where
  manifest : Option Manifest
  mask : Nat
  bridge : BridgeEnv := {}
  deriving DecidableEq, Repr, Inhabited

/-- Validation after the signature has been judged (`verified`), with the image placed, or the fault. -/
def validate (bs : List Byte) (verified : Bool) (env : LoadEnv) : Except LoadFault Image :=
  let dir := imageDir bs
  let h := imageHeader bs
  let listed := env.manifest.bind fun m => (m.lasts.find? fun e => e.digest = sigDigest bs).map fun e => (m, e)
  if !formatOk bs then .error { code := 1 }
  else match firstFault (entryFormat bs dir) with
  | some f => .error f
  | none =>
    if field bs 6 2 ≠ 0x00B1 then .error { code := 2 }
    else if !verified || listed.any fun p => p.1.signer ≠ sigSigner bs || p.1.keySerial ≠ sigSerial bs then
      .error { code := 3 }
    else if !(listed.any fun p => listingAgrees h p.2) then .error { code := 4 }
    else if !(placementOk h && bit h.placement env.mask) then .error { code := 5 }
    else if !sizeOk h dir then .error { code := 6 }
    else
      let l := parseImage bs
      let i := l.place env.mask
      let tensors := (env.manifest.map (·.tensors)).getD []
      match firstFault (phase3 bs dir i l tensors) with
      | some f => .error f
      | none =>
        match firstFault (phase4 dir i tensors env.bridge) with
        | some f => .error f
        | none => .ok i

end Sys2Proof.Machine
end

