-- ==== Sys2Proof/Machine/Ports.lean ====
section
/-! DEFINITION. Queues of the active last, and the external reads and writes of PORT stations through the insoles
(R87, R88, R92, R95, R270, R271). -/

namespace Sys2Proof.Machine

/-! ### The active last and its queues -/

/-- The image of the active last. -/
def Fabric.image? (f : Fabric) : Option Image := f.activeSlot.bind fun n => (f.slot n).image

/-- Station `i` of the active last. -/
def Fabric.desc? (f : Fabric) (i : Nat) : Option StationDesc := f.image?.bind fun m => m.stations[i]?

/-- A queue of the active last as it runs. -/
def Fabric.queue? (f : Fabric) (q : Nat) : Option QueueRun := f.queues.find? (·.number = q)

/-- Change a queue. -/
def Fabric.modQueue (f : Fabric) (q : Nat) (g : QueueRun → QueueRun) : Fabric :=
  { f with queues := f.queues.map fun x => if x.number = q then g x else x }

/-- Change what station `i` holds. -/
def Fabric.modStation (f : Fabric) (i : Nat) (g : StationRun → StationRun) : Fabric :=
  { f with stations := lmod f.stations i g }

def State.modStation (s : State) (i : Nat) (g : StationRun → StationRun) : State :=
  { s with fab := s.fab.modStation i g }

/-- What station `i` holds. -/
def State.station (s : State) (i : Nat) : StationRun := lget s.fab.stations i

/-- Whether a queue is a control queue (Table 7-7): what is sent on it are control tokens. -/
def Fabric.controlQueue (f : Fabric) (q : Nat) : Bool :=
  match f.image? with
  | some m => m.queues.any fun d => d.queue = q && d.control
  | none => false

/-- A flit as it is sent on a queue: a token on a control queue is always a whole entry (R81, R83). -/
def Fabric.dress (f : Fabric) (q : Nat) (x : Flit) : Flit :=
  if f.controlQueue q && x.kind = .data then { x with kind := .control, first := true, last := true } else x

/-- Send flits on a queue, credits for them having been taken (R92). -/
def Fabric.send (f : Fabric) (q : Nat) (xs : List Flit) : Fabric :=
  f.modQueue q fun r => { r with inFlight := r.inFlight ++ xs.map (f.dress q) }

/-- Take credits of a queue. -/
def Fabric.takeCredits (f : Fabric) (q n : Nat) : Fabric :=
  f.modQueue q fun r => { r with credits := r.credits - n }

/-- Dequeue flits from a queue; their credits start back (R79). -/
def Fabric.dequeue (f : Fabric) (q n : Nat) : Fabric :=
  f.modQueue q fun r => { r with buffer := r.buffer.drop n, returning := r.returning + min n r.buffer.length }

/-- The join guard counter is zero (R103). -/
def State.progress (s : State) : State := { s with fab := { s.fab with guardZero := s.clock } }

/-- The join guard counter stops and keeps its value, and goes on from it (R103). -/
def State.stopGuard (s : State) : State :=
  { s with fab := { s.fab with guardHeld := s.clock - s.fab.guardZero } }

def State.resumeGuard (s : State) : State :=
  { s with fab := { s.fab with guardZero := s.clock - s.fab.guardHeld } }

/-! ### The PORT entry of a station -/

/-- A PORT station's operation: target, direction, generator and target-specific bytes. -/
structure PortOp where
  target : Nat
  direction : Nat
  gen : Nat
  fields : List Byte
  deriving DecidableEq, Repr, Inhabited

def Fabric.portOp? (f : Fabric) (i : Nat) : Option PortOp :=
  match f.desc? i, f.image? with
  | some d, some m => match m.operation d with
    | some (.port t r g fs) => some { target := t, direction := r, gen := g, fields := fs }
    | _ => none
  | _, _ => none

/-- The generator of a PORT station, and the die of the station. -/
def Fabric.portGen (f : Fabric) (i : Nat) : AddrGen × Nat :=
  match f.desc? i, f.image?, f.portOp? i with
  | some d, some m, some p => ((m.gen? (locDie d.location) p.gen).getD default, locDie d.location)
  | _, _, _ => (default, 0)

/-- MAX_OUTSTANDING and NO_ALLOCATE of a TARGET 1 station (R271). -/
def PortOp.maxOutstanding (p : PortOp) : Nat := field p.fields 1 1
def PortOp.noAllocate (p : PortOp) : Bool := bit (field p.fields 0 1) 0

/-! ### Blocks of a generator (R250) -/

/-- Block number `n` that the generator of a station visits: it belongs to the product's visit of that number (R198 to
R200). Where it lies and how far it goes is free: the spec gives no formula (log entry 41: DESIGN CHOICE, safe). -/
def State.blockOf (s : State) (i : Nat) (write : Bool) (n : Nat) : Block :=
  let loc := ((s.fab.desc? i).map (·.location)).getD 0
  let last := s.fab.activeLast
  let entry := (lget s.fab.stations i).entry
  let op := match s.fab.desc? i, s.fab.image? with
    | some d, some m => m.mapOf d write
    | _, _ => none
  let place := (op.map fun o => o.placeOfVisit n).getD (0, 0, 0)
  let runs := adaptersOf s.passRows
  { origin := (List.range 4).map (Config.blockOrigin last loc entry n place)
    extent := (List.range 4).map fun d => 1 + Config.blockExtent last loc entry n place d % 64
    adapter := (Config.adapterTensor last loc).bind fun k =>
      (runs[Config.adapterRun last loc n % max 1 runs.length]?).map fun a => (a, k) }

/-- Element `e` of a skewed stream (R135): lane r of position n carries its element of vector n − r; the stream covers the
blocks of the share, 64 vectors each (R205), and its 31 ramp positions arise once. -/
def State.skewedElem (s : State) (i : Nat) (write : Bool) (e : Nat) : Option (Block × Nat) :=
  let loc := ((s.fab.desc? i).map (·.location)).getD 0
  let op := match s.fab.desc? i, s.fab.image? with
    | some d, some m => m.mapOf d write
    | _, _ => none
  let macs := (op.map MatmulOp.macs).getD 1
  let per := ((op.map MatmulOp.vectorElems).getD 64)
  let blocks := max 1 ((op.map fun o => o.shareTiles * o.kUses).getD (Config.streamBlocks s.fab.activeLast loc))
  let vectors := 64 * blocks
  let period := (vectors + 31) * per
  let p := e % period / per
  let x := e % per
  let lag := x / macs % 32
  if p < lag || vectors ≤ p - lag then none
  else
    let v := p - lag
    some (s.blockOf i write (e / period * blocks + v / 64), v % 64 * per + x)

/-- Element `j` of the data tile that begins at place `pos` of a generator. -/
def State.elemOf (s : State) (i : Nat) (g : AddrGen) (write : Bool) (pos j : Nat) : Option (Block × Nat) :=
  if g.skew = 32 then s.skewedElem i write (pos + j) else some (s.blockOf i write pos, j)

/-- Elements of the data tile of `total` flits that begins at place `pos`, and the place after it. -/
def State.tileCount (s : State) (i : Nat) (g : AddrGen) (write : Bool) (pos total : Nat) : Nat :=
  let room := tileElems (formatBits g.format) total
  if g.skew = 32 then room else min room (s.blockOf i write pos).count

def AddrGen.nextPos (g : AddrGen) (pos total : Nat) : Nat :=
  if g.skew = 32 then pos + tileElems (formatBits g.format) total else pos + 1

/-- Places of the elements of flit `k` of a data tile, with the bits of the first that come before the flit. -/
def State.flitPlaces (s : State) (i die : Nat) (g : AddrGen) (pos k total : Nat) : Nat × List Place :=
  let (first, lead, n) := flitElems (formatBits g.format) (s.tileCount i g false pos total) k
  (lead, (List.range n).map fun j => s.placeElem die g false (s.elemOf i g false pos (first + j)))

/-! ### Reads -/

/-- Whether every byte of a flit has come. -/
def PortRead.whole (r : PortRead) : Bool := r.ask.isEmpty && r.wants.isEmpty

/-- The flit that a read has assembled (R82). -/
def PortRead.flit (r : PortRead) : Flit :=
  { kind := .data, first := r.first, last := r.last, poison := r.poison, seq := r.seq % 256,
    payload := assemble r.width r.lead (r.elems.map fun e =>
      match e with
      | some (lead, at_) => elemValue r.width lead (at_.map (readByte r.got))
      | none => 0)
    pads := padMarks r.width r.lead (r.elems.map Option.isNone) }

/-- Reads complete in order: those at the head that are whole, and the rest. -/
def splitWhole : List PortRead → List PortRead × List PortRead
  | [] => ([], [])
  | r :: rs => if r.whole then let (a, b) := splitWhole rs; (r :: a, b) else ([], r :: rs)

/-- Whole flits of a PORT station go to its output queue (R95). -/
def State.portEmit (s : State) (i : Nat) : State :=
  let st := s.station i
  let (done, rest) := splitWhole st.reads
  if done.isEmpty then s
  else
    let s := s.modStation i fun x => { x with reads := rest }
    match s.fab.desc? i with
    | some d =>
      let fs := (done.filter fun r => !r.cancelled).map PortRead.flit
      { s with fab := s.fab.send (d.outQ.getD 0 0xFFFF) fs }
    | none => s

/-- Ask for the next sector of a flit: the map may refuse it, which poisons the flit. -/
def State.askSector (s : State) (i mpa : Nat) (noAllocate : Bool) : State × Bool :=
  match s.refusal mpa with
  | some k => (s.protect k mpa s.passGroup, false)
  | none =>
    let r : SectorRead := { id := s.mem.nextAccess, requester := .station i, mpa := mpa
                            mode := (s.insole (mpa / 2 ^ 36)).mode, noAllocate := noAllocate
                            cancelled := false }
    ({ s with mem := { s.mem with reads := s.mem.reads ++ [r], nextAccess := s.mem.nextAccess + 1 } }, true)

/-- Sectors that a station has in flight to the insoles, reads and writes together (R271). -/
def State.sectorsOut (s : State) (i : Nat) : Nat :=
  (s.mem.reads.filter fun r => r.requester = .station i && !r.cancelled).length +
    (s.mem.writes.filter fun w => w.requester = .station i).length

/-- Ask for sectors in order while fewer than MAX_OUTSTANDING are in flight. The fuel bounds the sectors. -/
def State.portIssue (i maxOut : Nat) (noAllocate : Bool) : Nat → State → State
  | 0, s => s
  | fuel + 1, s =>
    if maxOut ≤ s.sectorsOut i then s
    else
      match (s.station i).reads.zipIdx.find? fun r => !r.1.ask.isEmpty with
      | none => s
      | some (r, k) =>
        let mpa := r.ask.headD 0
        let (s1, sent) := s.askSector i mpa noAllocate
        let s2 := s1.modStation i fun x =>
          { x with reads := lmod x.reads k fun y =>
              { y with ask := y.ask.drop 1
                       wants := if sent then y.wants ++ [mpa] else y.wants
                       poison := y.poison || !sent } }
        State.portIssue i maxOut noAllocate fuel s2

/-- Sectors not yet asked for. -/
def StationRun.asks (x : StationRun) : Nat := (x.reads.map fun r => r.ask.length).sum

/-- A sector write goes out, unless the map refuses it (R253, R254). -/
def State.sendWrite (i : Nat) (noAllocate : Bool) (s : State) (x : Nat × List Byte × List Byte) : State :=
  match s.refusal x.1 with
  | some k => (s.protect k x.1 s.passGroup).modStation i fun st => { st with writes := st.writes - 1 }
  | none =>
    let w : SectorWrite := { id := s.mem.nextAccess, requester := .station i, mpa := x.1, bytes := x.2.1
                             mask := x.2.2, noAllocate := noAllocate, mode := (s.insole (x.1 / 2 ^ 36)).mode }
    { s with mem := { s.mem with writes := s.mem.writes ++ [w], nextAccess := s.mem.nextAccess + 1 } }

/-- Queued sector writes go out in order while fewer than MAX_OUTSTANDING sectors are in flight. -/
def State.writeIssue (i maxOut : Nat) (noAllocate : Bool) : Nat → State → State
  | 0, s => s
  | fuel + 1, s =>
    if maxOut ≤ s.sectorsOut i then s
    else match (s.station i).writeQueue with
      | [] => s
      | x :: xs =>
        State.writeIssue i maxOut noAllocate fuel
          (State.sendWrite i noAllocate (s.modStation i fun y => { y with writeQueue := xs }) x)

/-- A PORT station asks for what it may and writes what it may, and sends what has come. -/
def State.portAdvance (s : State) (i : Nat) : State :=
  match s.fab.portOp? i with
  | some p =>
    let t := State.writeIssue i p.maxOutstanding p.noAllocate (s.station i).writeQueue.length s
    (State.portIssue i p.maxOutstanding p.noAllocate (t.station i).asks t).portEmit i
  | none => s

/-- Bytes of a sector arrive at the oldest flit that waits for them. -/
def arrive (mpa : Nat) (data : List Byte) (poison : Bool) : List PortRead → List PortRead
  | [] => []
  | r :: rs =>
    if r.wants.contains mpa then
      { r with wants := r.wants.erase mpa, got := writeBytes r.got mpa data, poison := r.poison || poison } :: rs
    else r :: arrive mpa data poison rs

/-- Sectors that a flit's elements lie in, each once, in order. -/
def sectorsOf (es : List (Option (Nat × List Nat))) : List Nat :=
  (es.flatMap fun e => match e with
    | some (_, at_) => at_.map fun a => a / 64 * 64
    | none => []).eraseDups

/-- Prepare flit `k` of the data tile of `total` flits at place `pos`, for the read of station `i` (R204, R250). A
refused element makes a pad flit with POISON (R270). -/
def State.prepareFlit (s : State) (i pos k total seq : Nat) : State × PortRead :=
  let (g, die) := s.fab.portGen i
  let w := formatBits g.format
  let (lead, places) := s.flitPlaces i die g pos k total
  let bad := places.findSome? fun p => match p with
    | .refused kind mpa group => some (kind, mpa, group)
    | _ => none
  let r : PortRead := { id := 0, width := w, lead := lead, elems := places.map fun _ => none, ask := [], wants := []
                        first := k = 0, last := k + 1 = total, seq := seq }
  match bad with
  | some (kind, mpa, group) => (s.protect kind mpa group, { r with poison := true })
  | none =>
    let es := places.map fun p => match p with
      | .bytes l at_ => some (l, at_)
      | _ => none
    (s.countPad places, { r with elems := es, ask := sectorsOf es })

/-- Prepare `n` flits from flit `k` on. -/
def State.prepareFlits (i pos total seq : Nat) : Nat → Nat → State → State × List PortRead
  | 0, _, s => (s, [])
  | n + 1, k, s =>
    let (s1, r) := s.prepareFlit i pos k total seq
    let (s2, rs) := State.prepareFlits i pos total seq n (k + 1) s1
    (s2, r :: rs)

/-! ### Writes -/

/-- The elements that a flit written by a generator completes, with their values (R88, R250): not one with bits of a
poisoned flit before it. -/
def State.writtenElems (s : State) (i : Nat) (g : AddrGen) (st : StationRun) (x : Flit) :
    List (Option (Block × Nat) × Nat) :=
  let w := formatBits g.format
  let whole := (completed w st.writeFlit st.writePrev x.payload).filter fun e =>
    !(st.writeBad && e.1 * w < 512 * st.writeFlit)
  let count := if g.skew = 32 then 0 else (s.blockOf i true st.writePos).count
  (whole.filter fun e => g.skew = 32 || e.1 < count).map fun e => (s.elemOf i g true st.writePos e.1, e.2)

/-- Their places and values. -/
def State.writeElems (s : State) (i die : Nat) (g : AddrGen) (st : StationRun) (x : Flit) : List (Place × Nat) :=
  (s.writtenElems i g st x).map fun e => (s.placeElem die g true e.1, e.2)

/-- The station's place in the tile after a written flit; FIRST begins a tile and LAST ends it. -/
def StationRun.wrote (st : StationRun) (g : AddrGen) (x : Flit) : StationRun :=
  if x.last then
    { st with writePos := g.nextPos st.writePos (st.writeFlit + 1), writeFlit := 0, writePrev := 0, writeBad := false }
  else { st with writeFlit := st.writeFlit + 1, writePrev := x.payload, writeBad := x.poison }

/-- Bit writes of placed elements. -/
def placedWrites (w : Nat) (es : List (Place × Nat)) : KMap (Byte × Byte) :=
  bitWrites (es.filterMap fun e => match e.1 with
    | .bytes lead at_ => some (w, lead, at_, e.2)
    | _ => none)

/-- Bit writes gathered by sector: address, bytes and bit masks. -/
def bySector (ws : KMap (Byte × Byte)) : List (Nat × List Byte × List Byte) :=
  ((ws.map fun e => e.1 / 64 * 64).eraseDups).map fun a =>
    let at_ (j : Nat) : Byte × Byte := kgetD ws (a + j) (0, 0)
    (a, (List.range 64).map fun j => (at_ j).1, (List.range 64).map fun j => (at_ j).2)

/-- Rows and pages that the elements of a written flit lie in, in space 4. -/
def State.writtenRows (s : State) (i : Nat) (g : AddrGen) (st : StationRun) (x : Flit) : List (PassRow × Nat) :=
  ((s.writtenElems i g st x).filterMap fun e => e.1.bind fun (b, n) =>
    let at_ := g.index b n
    (s.passRows[at_.getD 3 0]?).bind fun row =>
      if at_.getD 2 0 < s.appendedTo s.passRows row.stream then some (row, at_.getD 2 0 / 64) else none).eraseDups

/-- Pages that a write of KV marks DIRTY (R277). -/
def State.dirtyPages (s : State) (i : Nat) (g : AddrGen) (st : StationRun) (x : Flit) : State :=
  if g.space != 4 then s
  else
    let keys := ((s.writtenRows i g st x).map fun e => pageKey e.1.stream e.2).eraseDups
    let table := keys.foldl (fun t k => kmod t k fun e => { e with dirty := true }) s.pages.table
    { s with pages := { s.pages with table := table } }

/-- A TARGET 1 station writes a flit (R88, R270, R276): nothing of a flit with POISON, nothing of a refused one. -/
def State.hbmWriteFlit (s : State) (i : Nat) (x : Flit) : State :=
  match s.fab.portOp? i with
  | none => s
  | some p =>
    let (g, die) := s.fab.portGen i
    let st := s.station i
    let next (t : State) : State := t.modStation i fun y => y.wrote g x
    if x.poison then next s
    else
      let es := s.writeElems i die g st x
      let bad := es.findSome? fun e => match e.1 with
        | .refused kind mpa group => some (kind, mpa, group)
        | _ => none
      match bad with
      | some (kind, mpa, group) => next (s.protect kind mpa group)
      | none =>
        let t := s.dirtyPages i g st x
        let ws := bySector (placedWrites (formatBits g.format) es)
        (next (t.modStation i fun y =>
          { y with writeQueue := y.writeQueue ++ ws, writes := y.writes + ws.length })).portAdvance i

end Sys2Proof.Machine
end

