-- ==== Sys2Proof/Machine/Torus.lean ====
section
/-! DEFINITION. The torus (chapter 12): positions, routes under the module's fault view, the sending side of a
lace, packets and messages, and the state of the span. -/

namespace Sys2Proof.Machine

/-! ### Positions and laces (R389) -/

/-- The neighbour of a position on a lace. -/
def neighbour (p l : Nat) : Nat :=
  match l with
  | 0 => 8 * (p / 8) + (p % 8 + 1) % 8
  | 1 => 8 * (p / 8) + (p % 8 + 7) % 8
  | 2 => 8 * ((p / 8 + 1) % 8) + p % 8
  | _ => 8 * ((p / 8 + 7) % 8) + p % 8

/-- The lace that a lace meets at its peer. -/
def opposite (l : Nat) : Nat := if l % 2 = 0 then l + 1 else l - 1

def State.lace (s : State) (l : Nat) : Lace := lget s.lce.laces l

def State.modLace (s : State) (l : Nat) (f : Lace → Lace) : State :=
  { s with lce := { s.lce with laces := lmod s.lce.laces l f } }

def State.modTorus (s : State) (f : Torus → Torus) : State := { s with lce := f s.lce }

/-- States in which packets flow, and in which frames flow (Table 12-6). -/
def LaceState.carries : LaceState → Bool
  | .up | .narrow | .leaving => true
  | _ => false

def LaceState.framed (x : LaceState) : Bool := x = .hello || x.carries

/-- Native width of a lace, in lanes (Table 12-1). -/
def State.nativeWidth (s : State) : Nat := s.part.laceLanes

/-! ### Routes (R404 to R406) -/

/-- A module that is missing, or is to be routed around since it leaves (R413). -/
def State.gone (s : State) (p : Nat) : Bool :=
  s.lce.missing.contains p ||
    s.lce.pendingNotices.any fun n => n.notice = 2 && n.subject = p && n.effective ≤ s.fst

/-- The hop from a position on a lace is known to be down. -/
def State.hopDown (s : State) (p l : Nat) : Bool :=
  let q := neighbour p l
  let mine (x k : Nat) : Bool := s.lce.position = some x && (s.lace k).state = .down
  s.lce.lacesDown.contains (4 * p + l) || s.lce.lacesDown.contains (4 * q + opposite l) || mine p l ||
    mine q (opposite l)

/-- Some hops from a position in one direction cross no fault. -/
def State.wayClear (s : State) (l : Nat) : Nat → Nat → Bool
  | _, 0 => true
  | p, n + 1 => !s.hopDown p l && !s.gone (neighbour p l) && s.wayClear l (neighbour p l) n

/-- Direction in one dimension (R404): 0 or 1, and whether it is the other way round. `first` is the + lace of
the dimension, `plus` the number of hops that way. -/
def State.dimWay (s : State) (p first plus : Nat) : Option (Nat × Bool) :=
  if plus = 0 then some (0, false)
  else
    let a := if plus ≤ 4 then 0 else 1
    let n := if plus ≤ 4 then plus else 8 - plus
    if s.wayClear (first + a) p n then some (a, false)
    else if s.wayClear (first + 1 - a) p (8 - n) then some (1 - a, true)
    else none

/-- ROUTE of a packet (Table 12-3), or nothing where the destination is unreachable. -/
def State.route (s : State) (src dst : Nat) : Option Nat :=
  if s.gone dst then none
  else
    let turn := 8 * (src / 8) + dst % 8
    match s.dimWay src 0 ((dst % 8 + 8 - src % 8) % 8), s.dimWay turn 2 ((dst / 8 + 8 - src / 8) % 8) with
    | some (x, dx), some (y, dy) => some (x + 2 * y + 8 * ofBit (dx || dy))
    | _, _ => none

/-- The lace on which a packet leaves a position: X first, then Y. -/
def PacketLace (h : PacketHeader) (p : Nat) : Option Nat :=
  if h.dest % 8 != p % 8 then some (bits h.route 0 0)
  else if h.dest / 8 != p / 8 then some (2 + bits h.route 1 1)
  else none

/-- Whether a hop crosses between positions 7 and 0. -/
def crossesDateline (p l : Nat) : Bool :=
  match l with
  | 0 => p % 8 = 7
  | 1 => p % 8 = 0
  | 2 => p / 8 = 7
  | _ => p / 8 = 0

/-- A packet's VC on a lace, and its ROUTE with DATELINE (R405). `turned` says that it now leaves X for Y. -/
def vcOn (h : PacketHeader) (p l : Nat) (turned : Bool) : Nat × PacketHeader :=
  let date := (bit h.route 2 && !turned) || crossesDateline p l
  (2 * h.mclass + ofBit date, { h with route := h.route - 4 * bits h.route 2 2 + 4 * ofBit date })

/-! ### The sending side of a lace (R395, R397) -/

/-- Slots that a packet takes in the receive buffer. -/
def Packet.slots (p : Packet) : Nat := 1 + p.flits.length

/-- The slots of an item (R393, R394). -/
def LaceTx.slots : LaceTx → List TxSlot
  | .packet p => .header p.vc p.header :: p.flits.map (TxSlot.data p.vc)
  | .control m => [.control m]

/-- Frames that an item takes: 38 slots each. -/
def LaceTx.frames (x : LaceTx) : Nat := ceilDiv x.slots.length 38

/-- Frames held for replay. -/
def Lace.held (a : Lace) : Nat := a.replayBuffer.length

/-- The credits of a packet, taken from one pool that covers it in full (R397). -/
def Lace.debit (a : Lace) (p : Packet) : Option Lace :=
  if p.slots ≤ a.dedicated.getD p.vc 0 then some { a with dedicated := a.dedicated.modify p.vc (· - p.slots) }
  else if p.slots ≤ a.shared then some { a with shared := a.shared - p.slots }
  else none

/-- A frame of these slots goes out, with up to four credit returns; the replay buffer holds it (R391, R395). -/
def Lace.sendFrame (a : Lace) (slots : List TxSlot) : Lace :=
  let f : TxFrame := { seq := a.txSeq, ack := (a.rxSeq + 65535) % 65536, epoch := a.linkEpoch, narrow := a.halfWidth
                       credits := a.creditReturns.take 4
                       slots := slots ++ List.replicate (38 - slots.length) .idle }
  { a with txSeq := (a.txSeq + 1) % 65536, replayBuffer := a.replayBuffer ++ [f], creditReturns := a.creditReturns.drop 4 }

/-- Frames of an item that are left to send. -/
def Lace.sendSlots : Nat → Lace → List TxSlot → Lace
  | 0, a, _ => a
  | n + 1, a, xs => Lace.sendSlots n (a.sendFrame (xs.take 38)) (xs.drop 38)

/-- An item goes out, in frames that carry no other: DESIGN CHOICE, safe (log entry 47). A packet in transit leaves the
receive buffer that held it. -/
def Lace.emit (a : Lace) (x : LaceTx) : Lace :=
  let b := Lace.sendSlots x.frames a x.slots
  match x with
  | .packet p =>
    { b with flitsSent := sat 64 (b.flitsSent + p.flits.length)
             freed := b.freed ++ (p.origin.map fun o => (o.1, o.2.1, o.2.2, p.slots)).toList }
  | .control _ => b

/-- What waits goes out in order where it can; a VC without credits holds back no other, and no message. -/
def Lace.drain (a : Lace) : Lace :=
  let room (b : Lace) (x : LaceTx) : Bool := b.held + x.frames ≤ 256
  let step (r : Lace × List LaceTx × List Nat) (x : LaceTx) : Lace × List LaceTx × List Nat :=
    let (b, left, stuck) := r
    match x with
    | .control _ => if b.state.framed && room b x then (b.emit x, left, stuck) else (b, left ++ [x], stuck)
    | .packet p =>
      if b.state.carries && room b x && !stuck.contains p.vc then
        match b.debit p with
        | some c => (c.emit x, left, stuck)
        | none => (b, left ++ [x], p.vc :: stuck)
      else (b, left ++ [x], p.vc :: stuck)
  let r := a.waiting.foldl step ({ a with waiting := [] }, [], [])
  { r.1 with waiting := r.2.1 }

/-- Slots of receive buffers go back to their pools (R397). -/
def State.freeSlots (s : State) (xs : List (Nat × Nat × Bool × Nat)) : State :=
  xs.foldl (fun (s : State) c => s.modLace c.1 fun a => { a with creditReturns := a.creditReturns ++ [c.2] }) s

/-- What waits on a lace goes out where it can. -/
def State.laceDrain (s : State) (l : Nat) : State :=
  let a := (s.lace l).drain
  (s.modLace l fun _ => { a with freed := [] }).freeSlots a.freed

def State.laceSend (s : State) (l : Nat) (x : LaceTx) : State :=
  (s.modLace l fun a => { a with waiting := a.waiting ++ [x] }).laceDrain l

/-- A control message on one lace, and on every lace in HELLO or later but one (R402). -/
def State.sendControl (s : State) (l : Nat) (m : ControlMsg) : State :=
  if (s.lace l).state.framed then s.laceSend l (.control m) else s

def State.flood (s : State) (except_ : Nat) (m : ControlMsg) : State :=
  (List.range 4).foldl (fun t l => if l = except_ then t else t.sendControl l m) s

/-! ### Packets -/

/-- A SPAN_FAULT for a span is due (R412). -/
def State.oweFault (s : State) (tag : Nat) : State :=
  if s.lce.faultDue.contains tag then s else s.modTorus fun t => { t with faultDue := t.faultDue ++ [tag] }

/-- An unreachable packet is discarded at injection (R406). -/
def State.unreachable (s : State) (h : PacketHeader) : State :=
  let t := s.modTorus fun t => { t with unreachable := sat 32 (t.unreachable + 1) }
  (t.raise 0x090A h.dest h.spanTag 1).oweFault h.spanTag

/-- A packet goes out on a lace; one that meets a lace that is DOWN is discarded, and its slots are returned
(R406). -/
def State.forward (s : State) (h : PacketHeader) (flits : List Flit) (p l : Nat) (turned : Bool)
    (origin : Option (Nat × Nat × Bool)) : State :=
  if (s.lace l).state = .down then
    ((s.modLace l fun a => { a with discarded := sat 32 (a.discarded + 1) }).freeSlots
      (origin.map fun o => (o.1, o.2.1, o.2.2, 1 + flits.length)).toList).oweFault h.spanTag
  else
    let (vc, h) := vcOn h p l turned
    s.laceSend l (.packet { vc := vc, header := h, flits := flits, origin := origin })

/-- Injection (R404 to R406). -/
def State.inject (s : State) (h : PacketHeader) (flits : List Flit) : State :=
  match s.lce.position with
  | none => s.unreachable h
  | some p =>
    match s.route p h.dest with
    | none => s.unreachable h
    | some r =>
      let h := { h with src := p, route := r, flits := flits.length, spanTag := s.lce.spanTag }
      match PacketLace h p with
      | none => s
      | some l =>
        let t := if bit r 3 then s.modTorus fun t => { t with detoured := sat 64 (t.detoured + 1) } else s
        t.forward h flits p l false none

/-- A SYNC packet (Table 12-3). -/
def State.sendSync (s : State) (dest op object arg : Nat) : State :=
  s.inject { dest := dest, src := 0, route := 0, mclass := 3, flits := 0, object := object, op := op, arg := arg } []

/-! ### The span (R373, R408, R409) -/

/-- Members in ascending position; the module alone where the mask is 0. -/
def Torus.members (t : Torus) : List Nat :=
  if t.spanMask = 0 then t.position.toList else (List.range 64).filter fun p => bit t.spanMask p

/-- The fault-free route between two positions: shorter way in X, then in Y, + when equal (R373). -/
def freeRoute (src dst : Nat) : List Nat :=
  let dx := (dst % 8 + 8 - src % 8) % 8
  let dy := (dst / 8 + 8 - src / 8) % 8
  let go (l n : Nat) (p : Nat) : List Nat := (List.range n).map fun i => (List.range (i + 1)).foldl (fun q _ => neighbour q l) p
  let xs := if dx ≤ 4 then go 0 dx src else go 1 (8 - dx) src
  let turn := xs.getLastD src
  xs ++ (if dy ≤ 4 then go 2 dy turn else go 3 (8 - dy) turn)

/-- LCE_SPAN_ROOT: the member with the smallest position. -/
def Torus.root (t : Torus) : Nat := t.members.headD 0

/-- The parent of a member in the span tree, and the children of the module. -/
def Torus.parentOf (t : Torus) (m : Nat) : Option Nat :=
  if m = t.root then none else (freeRoute m t.root).find? fun p => t.members.contains p

def Torus.children (t : Torus) : List Nat :=
  match t.position with
  | none => []
  | some p => t.members.filter fun m => m != p && t.parentOf m = some p

/-- LCE_MEMBER_INDEX. -/
def Torus.memberIndex (t : Torus) : Nat :=
  match t.position with
  | none => 0
  | some p => (t.members.findIdx? (· = p)).getD 0

/-- Routes between the members, by pair. -/
def State.spanRoutes (s : State) : List (Nat × Nat × Option Nat) :=
  let ms := s.lce.members
  (ms.flatMap fun a => (ms.filter (· != a)).map fun b => (a, b)).map fun p => (p.1, p.2, s.route p.1 p.2)

/-- A route is detoured or unreachable. -/
def routeBad (r : Option Nat) : Bool := match r with
  | none => true
  | some v => bit v 3

/-- A member's route that uses a lace of this module which is not UP. -/
def State.ownHopWeak (s : State) : Bool :=
  match s.lce.position with
  | none => false
  | some p => (List.range 4).any fun l =>
    (s.lace l).state != .up && (s.spanRoutes.any fun r =>
      let path := r.1 :: freeRoute r.1 r.2.1
      (path.zip (path.drop 1)).any fun h => (h.1 = p && h.2 = neighbour p l) || (h.2 = p && h.1 = neighbour p l))

/-- LCE_SPAN_STATE as the view of the module gives it (Table 12-7). -/
def State.spanNow (s : State) : SpanState :=
  let ms := s.lce.members
  if ms.length ≤ 1 then .intact
  else if ms.any fun m => s.lce.missing.contains m then .broken
  else if s.lce.spanState = .forming && !(ms.all fun m => s.lce.position = some m || s.lce.hellos.contains (m, s.lce.spanTag, s.lce.spanMask)) then
    .forming
  else if s.spanRoutes.any (fun r => routeBad r.2.2) || s.ownHopWeak then .detoured
  else .intact

/-- The span state follows, with its event when it changes. -/
def State.followSpan (s : State) : State :=
  let n := s.spanNow
  if n = s.lce.spanState then s
  else (s.modTorus fun t => { t with spanState := n }).raise 0x0909 (s.lce.position.getD 0) s.lce.spanTag 0

/-- Some route of the span is newly detoured or lost between two views (R412). -/
def newlyBad (before after : List (Nat × Nat × Option Nat)) : Bool :=
  (before.zip after).any fun e => !routeBad e.1.2.2 && routeBad e.2.2.2

end Sys2Proof.Machine
end

