-- ==== Sys2Proof/Machine/SyncCore.lean ====
section
/-! DEFINITION. Sync objects (chapter 11): their homes, waits, barrier nodes and breaks, window pairs, and the loss
of an owner. Hops inside the module take effect within the command that makes them. -/

namespace Sys2Proof.Machine

/-! ### Objects and their homes (R360, R361) -/

/-- An object of this module: of a tile (key 4 × site + index) or of a bank (key 512 × pair + index). -/
structure ObjRef where
  bank : Bool
  key : Nat
  deriving DecidableEq, Repr, Inhabited

def State.obj (s : State) (r : ObjRef) : SyncObj := kgetD (if r.bank then s.syn.banks else s.syn.tiles) r.key {}

/-- An object in the reset state is not listed. -/
def putObj (m : KMap SyncObj) (k : Nat) (o : SyncObj) : KMap SyncObj := if o = {} then kdel m k else kset m k o

def State.setObj (s : State) (r : ObjRef) (o : SyncObj) : State :=
  if r.bank then { s with syn := { s.syn with banks := putObj s.syn.banks r.key o } }
  else { s with syn := { s.syn with tiles := putObj s.syn.tiles r.key o } }

def State.modObj (s : State) (r : ObjRef) (f : SyncObj → SyncObj) : State := s.setObj r (f (s.obj r))

/-- Window pair of the running pass's step; 8 where none runs. -/
def State.pairOf (s : State) (step : Nat) : Option Nat := s.syn.pairs.findIdx? (· = some step)
def State.currentPair (s : State) : Nat := ((s.planner.running.bind fun r => s.pairOf r.entry.step)).getD 8

/-- Module of a span object's number (Table 11-1). -/
def objectModule (n : Nat) : Nat := bits n 29 27 + 8 * bits n 26 24

/-- Number of an object of this module (Table 11-1). -/
def State.numberOf (s : State) (r : ObjRef) : Nat :=
  if !r.bank then r.key / 4 * 2 ^ 14 + r.key % 4
  else if r.key / 512 = 7 then
    let p := s.lce.position.getD 0
    2 ^ 31 + p % 8 * 2 ^ 27 + p / 8 * 2 ^ 24 + r.key % 512
  else 2 ^ 30 + r.key % 512

/-- The object of this module that a number names to a station of the running pass; `none` for one of another
module. -/
def State.localObj (s : State) (n : Nat) : Option ObjRef :=
  match bits n 31 30 with
  | 0 => some { bank := false, key := 4 * bits n 23 14 + bits n 1 0 }
  | 1 => some { bank := true, key := 512 * s.currentPair + bits n 8 0 }
  | _ => if s.lce.position = some (objectModule n) then some { bank := true, key := 512 * 7 + bits n 8 0 } else none

/-! ### SYNC stations (R365) -/

structure SyncOp where
  opcode : Nat
  object : Nat
  arg : Nat
  guard : Nat
  ports : Nat
  consume : Bool
  location : Nat
  deriving DecidableEq, Repr, Inhabited

def syncOpOf (d : StationDesc) : Option Operation → Option SyncOp
  | some (.sync c o a) => some { opcode := c, object := o, arg := field a 0 4, guard := field a 4 2,
                                 ports := field a 6 1, consume := bit (field a 7 1) 0, location := d.location }
  | _ => none

def State.syncOp (s : State) (i : Nat) : Option SyncOp :=
  match s.fab.desc? i, s.fab.image? with
  | some d, some m => syncOpOf d (m.operation d)
  | _, _ => none

/-- SYNC stations of an image with their operations. -/
def Image.syncOps (m : Image) : List (Nat × SyncOp) :=
  m.stations.zipIdx.filterMap fun x => (syncOpOf x.1 (m.operation x.1)).map fun o => (x.2, o)

/-- The tile object of an ARRIVE or BARRIER operation. -/
def SyncOp.barrier (o : SyncOp) : Bool := o.opcode = 3 || o.opcode = 4
def SyncOp.tileKey (o : SyncOp) : Nat := 4 * bits o.object 23 14 + bits o.object 1 0

/-! ### Participants -/

def State.part? (s : State) (k : Nat) : Participant := kgetD s.syn.participants k {}
def State.modPart (s : State) (k : Nat) (f : Participant → Participant) : State :=
  { s with syn := { s.syn with participants := kset s.syn.participants k (f (s.part? k)) } }

/-- The tile at an input may move, behind a status token where there is a cause (R375). -/
def Participant.free (p : Participant) (cause : Nat) : Participant :=
  { p with pass := true, registered := false, heldSince := none, heldBefore := 0
           token := if cause = 0 then p.token else some cause }

/-- A wait on an object of another module ends, which the join guard counter counts as progress (R103). -/
def State.freeRemote (s : State) (k cause : Nat) : State := (s.modPart k fun p => p.free cause).progress

/-- A tile is held; its guard timer runs (R374). -/
def State.hold (s : State) (k : Nat) : State :=
  s.modPart k fun p => { p with heldSince := some (p.heldSince.getD s.clock) }

/-! ### Waits (R368, R369) -/

/-- A wait of a saved pass is recorded (R385). -/
def State.recordRelease (s : State) (k cause : Nat) : State :=
  let add (c : SavedContext) : SavedContext :=
    if c.releases.contains (k, cause) then c else { c with releases := c.releases ++ [(k, cause)] }
  { s with syn := { s.syn with context := s.syn.context.map add } }

/-- Whether a wait at a bank object is that of the saved pass. -/
def State.waitSaved (s : State) (r : ObjRef) (w : WaitReg) : Bool :=
  r.bank && match s.syn.context with
    | none => false
    | some c => r.key / 512 = c.pair || (r.key / 512 = 7 && !(s.part? (4 * w.station + w.input)).registered)

/-- A wait ends: the tile is freed here, or its module is told: release (OP 3), or a break (OP 8). -/
def State.endWait (s : State) (r : ObjRef) (w : WaitReg) (cause : Nat) : State :=
  let k := 4 * w.station + w.input
  if s.lce.position.getD 0 = w.module then
    if s.waitSaved r w then s.recordRelease k cause else s.modPart k fun p => p.free cause
  else if cause = 0 then s.sendSync w.module 3 (s.numberOf r) w.threshold
  else s.sendSync w.module 8 (s.numberOf r) cause

/-- The waits of an object whose condition holds end in order; CONSUME subtracts at that moment. -/
def State.serveWaits (s : State) (r : ObjRef) : State :=
  (s.obj r).waits.foldl (fun t w =>
    let o := t.obj r
    if w.threshold ≤ o.value then
      (t.setObj r { o with value := if w.consume then o.value - w.threshold else o.value
                           waits := o.waits.erase w }).endWait r w 0
    else t) s

/-- A SIGNAL at its object (R368). -/
def State.signal (s : State) (r : ObjRef) (amount : Nat) : State :=
  let o := s.obj r
  if o.state = .broken then s
  else
    let v := o.value + amount
    let t := s.setObj r { o with value := sat 32 v }
    let t := if 2 ^ 32 ≤ v then { t with syn := { t.syn with saturated := sat 32 (t.syn.saturated + 1) } } else t
    t.serveWaits r

/-- Order of waits: by input at a tile object, of registration at a bank object. -/
def addWait (bank : Bool) (w : WaitReg) (ws : List WaitReg) : List WaitReg :=
  if bank then ws ++ [w]
  else ws.takeWhile (fun x => 4 * x.station + x.input < 4 * w.station + w.input) ++ [w] ++
    ws.dropWhile (fun x => 4 * x.station + x.input < 4 * w.station + w.input)

/-- A wait is registered at its object and served where it holds; a broken object breaks it at once. -/
def State.registerWait (s : State) (r : ObjRef) (w : WaitReg) : State :=
  let o := s.obj r
  if o.state = .broken then s.endWait r w o.cause
  else (s.setObj r { o with waits := addWait r.bank w o.waits }).serveWaits r

/-! ### Barrier nodes (R370 to R372) -/

/-- What reaches a node: an arrival (from a tile object of a quadrant, or of a child), a look at its count, a
release, a look at its answers, an answer, a reopen, a break. -/
inductive NodeMsg where
  | arrived (quadrant : Option Nat) | count | release | look | answered | reopen | broke (cause : Nat)
  deriving DecidableEq, Repr

/-- Parent of a node in this module, and whether its parent is in another module. -/
def State.parentRef (s : State) (r : ObjRef) : Option ObjRef :=
  let o := s.obj r
  if r.bank || o.root then none
  else some { bank := true, key := 512 * (if bits o.parent 31 30 = 2 then 7 else s.currentPair) + bits o.parent 8 0 }

/-- Tile objects under a bank node: those of the running pass, and how many a saved pass holds. -/
def State.tileChildren (s : State) (r : ObjRef) : List ObjRef :=
  if !r.bank then []
  else if r.key / 512 != 7 && r.key / 512 != s.currentPair then []
  else (s.syn.tiles.filter fun e => e.2.barrier && !e.2.root && e.2.parent = s.numberOf r).map fun e =>
    { bank := false, key := e.1 }

def State.savedChildren (s : State) (r : ObjRef) : Nat :=
  match s.syn.context with
  | none => 0
  | some c =>
    if !r.bank || (r.key / 512 != 7 && r.key / 512 != c.pair) then 0
    else (c.tileObjs.filter fun e => e.2.barrier && !e.2.root && e.2.parent = s.numberOf r).length

/-- Offset of bank nodes among the recorded releases of a saved context. -/
def nodeRelease : Nat := 2 ^ 20

/-- Inputs that take part in a tile object. -/
def State.participantsOf (s : State) (key : Nat) : List Nat :=
  match s.fab.image? with
  | none => []
  | some m => m.syncOps.flatMap fun e =>
    if e.2.barrier && e.2.tileKey = key then ((List.range 4).filter fun b => bit e.2.ports b).map (4 * e.1 + ·) else []

/-- Modules that are children of a span node here, and the parent. -/
def State.spanChildren (s : State) (o : SyncObj) : List Nat := if o.spanNode then s.lce.children else []
def State.spanParent (s : State) (o : SyncObj) : Option Nat :=
  if o.spanNode then s.lce.position.bind s.lce.parentOf else none

/-- A message of the tree to modules: the number of the node at each. -/
def State.toModules (s : State) (ms : List Nat) (op : Nat) (r : ObjRef) (arg : Nat) : State :=
  ms.foldl (fun t m => t.sendSync m op (2 ^ 31 + m % 8 * 2 ^ 27 + m / 8 * 2 ^ 24 + r.key % 512) arg) s

/-- Dies whose every quadrant with a target has forwarded (R372). -/
def SyncObj.dieFull (o : SyncObj) (die : Nat) : Bool :=
  (List.range 4).all fun i => o.quadTarget.getD (4 * die + i) 0 ≤ o.quadArrived.getD (4 * die + i) 0

def State.nodeStep (s : State) (m : NodeMsg) (r : ObjRef) : State × List (NodeMsg × ObjRef) :=
  let o := s.obj r
  let up := s.parentRef r
  match m with
  | .arrived q =>
    if o.state != .opn then (s, [])
    else
      match q with
      | none => (s.setObj r { o with value := sat 32 (o.value + 1) }, [(.count, r)])
      | some q =>
        let x := { o with quadArrived := o.quadArrived.modify q fun v => min 255 (v + 1) }
        let v := if x.dieFull (q / 4) && !o.dieFull (q / 4) then o.value + 1 else o.value
        (s.setObj r { x with value := v }, [(.count, r)])
  | .count =>
    if o.state != .opn || o.target = 0 || o.value < o.target then (s, [])
    else if o.root then (s.setObj r { o with state := .releasing, answers := 0 }, [(.release, r)])
    else
      let t := s.setObj r { o with state := .complete }
      match up with
      | some p => (t, [(.arrived (some (locQuad (r.key / 4 * 16))), p)])
      | none => (t.toModules (s.spanParent o).toList 4 r 0, [])
  | .release =>
    if o.state = .broken then (s, [])
    else
      let t := s.setObj r { o with state := .releasing, answers := 0 }
      if r.bank then
        let t := t.toModules (s.spanChildren o) 5 r 0
        let t := if s.savedChildren r = 0 then t else t.recordRelease (nodeRelease + r.key) 0
        (t, (s.tileChildren r).map (fun c => (NodeMsg.release, c)) ++ [(.look, r)])
      else
        let t := (s.participantsOf r.key).foldl (fun t k =>
          if (t.part? k).arrived then t.modPart k fun p => p.free 0 else t) t
        (t, [(.look, r)])
  | .look =>
    let left := if r.bank then o.answers = (s.tileChildren r).length + s.savedChildren r + (s.spanChildren o).length
      else (s.participantsOf r.key).all fun k => !(s.part? k).arrived
    if o.state != .releasing || !left then (s, [])
    else if o.root then (s, [(.reopen, r)])
    else
      let t := s.setObj r { o with state := .reopening }
      match up with
      | some p => (t, [(.answered, p)])
      | none => (t.toModules (s.spanParent o).toList 6 r 0, [])
  | .answered =>
    if o.state != .releasing then (s, []) else (s.setObj r { o with answers := o.answers + 1 }, [(.look, r)])
  | .reopen =>
    if o.state = .broken then (s, [])
    else
      let t := s.setObj r { o with state := .opn, phase := !o.phase, value := 0, round := (o.round + 1) % 65536
                                   quadArrived := List.replicate 8 0, answers := 0 }
      (t.toModules (s.spanChildren o) 7 r 0, (s.tileChildren r).map fun c => (.reopen, c))
  | .broke cause =>
    if o.state = .broken then (s, [])
    else
      let t := s.setObj r { o with state := .broken, cause := cause, waits := [] }
      let t := o.waits.foldl (fun t w => t.endWait r w cause) t
      let t := if r.bank then (if s.savedChildren r = 0 then t else t.recordRelease (nodeRelease + r.key) cause)
        else (s.participantsOf r.key).foldl (fun t k =>
          let p := t.part? k
          if p.heldSince.isSome && !p.pass then t.modPart k fun p => { p.free cause with arrived := false } else t) t
      let t := t.toModules ((s.spanParent o).toList ++ s.spanChildren o) 8 r cause
      (t, (up.toList ++ s.tileChildren r).map fun c => (.broke cause, c))

/-- What reaches nodes is taken in order; each message of a round reaches a node once. -/
def State.nodes : Nat → List (NodeMsg × ObjRef) → State → State
  | 0, _, s => s
  | _, [], s => s
  | f + 1, (m, r) :: ms, s =>
    let (t, more) := s.nodeStep m r
    t.nodes f (ms ++ more)

def State.nodeMsg (s : State) (m : NodeMsg) (r : ObjRef) : State := s.nodes (64 + 16 * s.syn.tiles.length) [(m, r)]

/-! ### Owners (R377) -/

/-- The objects of an owner that is reset become BROKEN with CAUSE OWNER_LOST. -/
def State.ownerLost (s : State) (rs : List ObjRef) : State :=
  let rs := rs.filter fun r => (s.obj r).state != .broken
  let pass := (s.planner.running.map fun (x : PassRun) => x.passNumber).getD 0
  let t := { s with syn := { s.syn with ownerLosses := sat 32 (s.syn.ownerLosses + rs.length) } }
  let t := rs.foldl (fun t r => t.raise 0x0802 (s.numberOf r) pass 1) t
  rs.foldl (fun t r => t.nodeMsg (.broke 1) r) t

def State.pairObjs (s : State) (p : Nat) : List ObjRef :=
  (s.syn.banks.filter fun e => e.1 / 512 = p).map fun e => { bank := true, key := e.1 }

def State.tileObjs (s : State) : List ObjRef := s.syn.tiles.map fun e => { bank := false, key := e.1 }

/-- The span's own objects break for a fault of it, and a saved context is to be discarded (R412, R415). -/
def State.spanBroken (s : State) (tag : Nat) : State :=
  if tag = s.lce.spanTag && 1 < s.lce.members.length then
    let lose (c : SavedContext) : SavedContext := { c with lost := true }
    let t := { s with syn := { s.syn with context := s.syn.context.map lose } }
    (t.ownerLost ((List.range 8).flatMap t.pairObjs ++ t.tileObjs)).breakPass
  else s

/-- A SPAN_FAULT that is due goes out. -/
def State.settleFault (s : State) (tag : Nat) : State :=
  let here := s.lce.position.getD 0
  let seq := s.lce.noticeSeq
  let t := s.modTorus fun t =>
    { t with faultDue := t.faultDue.erase tag, noticeSeq := (t.noticeSeq + 1) % 65536, seen := t.seen ++ [(here, seq)] }
  (t.flood 4 (.spanFault here seq tag 0)).spanBroken tag

def State.settleFaults : Nat → State → State
  | 0, s => s
  | f + 1, s =>
    match s.lce.faultDue with
    | [] => s
    | tag :: _ => (s.settleFault tag).settleFaults f

/-- The faults of packets that this command has lost. -/
def State.torusDone (s : State) : State := s.settleFaults 8

/-- A member of the span is lost: span nodes break, and waits registered there end (Table 11-6). -/
def State.memberLost (s : State) (m : Nat) : State :=
  let t := s.ownerLost (s.pairObjs 7)
  let at_ (ops : List (Nat × SyncOp)) (k : Nat) : Bool :=
    match ops.find? fun e => e.1 = k / 4 with
    | some e => bits e.2.object 31 30 = 2 && objectModule e.2.object = m
    | none => false
  let live := ((t.fab.image?.map Image.syncOps).getD [])
  let t := (t.syn.participants.filter fun e => e.2.registered && at_ live e.1).foldl (fun t e =>
    let n := ((live.find? fun x => x.1 = e.1 / 4).map (·.2.object)).getD 0
    let t := { t with syn := { t.syn with ownerLosses := sat 32 (t.syn.ownerLosses + 1) } }
    (t.raise 0x0802 n ((t.planner.running.map fun (x : PassRun) => x.passNumber).getD 0) 1).freeRemote e.1 1) t
  match t.syn.context with
  | none => t
  | some c =>
    let ops := ((List.range 4).findSome? fun n =>
      let x := t.fab.slot n
      if x.lastId = c.lastId then x.image.map Image.syncOps else none).getD []
    (c.participants.filter fun e => e.2.registered && at_ ops e.1).foldl (fun t e => t.recordRelease e.1 1) t

/-! ### Window pairs (R362, R367) -/

/-- SYN_PAIRS_BOUND. -/
def Sync.bound (y : Sync) : Nat := (y.pairs.filter (·.isSome)).length

/-- The pair that a step would take. -/
def State.freePair (s : State) (cls : Nat) : Option Nat :=
  let order := if cls = 0 then [0, 1, 2, 3, 4, 5, 6] else [2, 3, 4, 5, 6]
  order.find? fun p => (lget s.syn.pairs p).isNone

/-- Tile objects of a pass at its start (R363, R367). -/
def State.freshTiles (s : State) (m : Image) : KMap SyncObj :=
  m.syncOps.foldl (fun t e =>
    let o := e.2
    if !o.barrier then t
    else
      let root := o.arg = 0xFFFFFFFF
      let here := s.lce.position.getD 0
      let parent := if root then 0xFFFFFFFF
        else if bit o.arg 31 then 2 ^ 31 + here % 8 * 2 ^ 27 + here / 8 * 2 ^ 24 + bits o.arg 8 0
        else 2 ^ 30 + bits o.arg 8 0
      kset t o.tileKey { target := popcount8 (o.ports % 16), parent := parent, barrier := true, root := root }) []

/-- QUAD_TARGET of each bank barrier that tile objects name, in a pair or across the span. -/
def barrierTargets (tiles : KMap SyncObj) (span : Bool) : KMap (List Nat) :=
  (tiles.filter fun e => !e.2.root && (bits e.2.parent 31 30 = 2) = span).foldl (fun (m : KMap (List Nat)) e =>
    let b := bits e.2.parent 8 0
    kset m b ((kgetD m b (List.replicate 8 0)).modify (locQuad (e.1 / 4 * 16)) (· + 1))) []

/-- Dies that hold tile objects of a barrier. -/
def diesOf (q : List Nat) : Nat := ofBit ((q.take 4).any (· != 0)) + ofBit ((q.drop 4).any (· != 0))

/-- The span node of a barrier, with the children it counts (R367, R373). -/
def State.spanNode (s : State) (quads : List Nat) (o : SyncObj) : SyncObj :=
  let parent := s.lce.position.bind s.lce.parentOf
  { o with barrier := true, spanNode := true, root := parent.isNone, quadTarget := quads
           target := diesOf quads + s.lce.children.length
           parent := match parent with
             | none => 0xFFFFFFFF
             | some p => 2 ^ 31 + p % 8 * 2 ^ 27 + p / 8 * 2 ^ 24 + bits o.parent 8 0 }

/-- A step's first pass is issued: a pair is bound, its objects cleared, its barriers given their targets; the span
pair's barriers get theirs too. -/
def State.bindPair (s : State) (step cls : Nat) (m : Image) : State :=
  match s.freePair cls with
  | none => s
  | some p =>
    let tiles := s.freshTiles m
    let clear (b : KMap SyncObj) (k : Nat) : KMap SyncObj := kdrop b (512 * k) (512 * k + 512)
    let banks := clear s.syn.banks p
    let banks := (barrierTargets tiles false).foldl (fun b e =>
      kset b (512 * p + e.1) { barrier := true, root := true, parent := 0xFFFFFFFF, quadTarget := e.2
                               target := diesOf e.2 }) banks
    let t := { s with syn := { s.syn with pairs := s.syn.pairs.set p (some step), banks := banks } }
    (barrierTargets tiles true).foldl (fun t e =>
      let r : ObjRef := { bank := true, key := 512 * 7 + e.1 }
      (t.modObj r fun o => t.spanNode e.2 { o with parent := e.1 }).nodeMsg .count r) t

/-- A pair is released: its broken objects leave that state (Table 11-3). -/
def State.releasePair (s : State) (step : Nat) : State :=
  match s.pairOf step with
  | none => s
  | some p =>
    { s with syn := { s.syn with pairs := s.syn.pairs.set p none
                                 banks := s.syn.banks.filter fun e => !(e.1 / 512 = p && e.2.state = .broken) } }

/-- A step is voided, fails or ends unsealed: its pair's objects break, and the pair is released. -/
def State.loseStep (s : State) (step : Nat) : State :=
  match s.pairOf step with
  | none => s
  | some p => ((s.ownerLost (s.pairObjs p)).releasePair step).torusDone

/-! ### The record of an object (Table 11-2) -/

def SyncObj.flags (o : SyncObj) (saved : Bool) : Nat :=
  ofBit o.phase + 2 * ofBit o.barrier + 4 * ofBit o.root + 8 * ofBit saved + 16 * ofBit o.spanNode

/-- WAITERS: waits registered, and arrivals held. -/
def SyncObj.waiters (o : SyncObj) : Nat := min 255 o.waits.length

def SyncObj.bytes (o : SyncObj) (saved : Bool) : List Byte :=
  le 4 o.value ++ le 2 o.target ++ le 2 o.round ++ le 4 o.parent ++ le 1 o.state.code ++
    le 1 (o.flags saved) ++ le 1 o.cause ++ le 1 o.waiters ++ (o.quadArrived.map (BitVec.ofNat 8 ·)) ++
    (o.quadTarget.map (BitVec.ofNat 8 ·))

/-- SYN_BANK_DUMP: the banks of die 0, then of die 1, each window by window. -/
def State.bankDump (s : State) : List Byte :=
  (List.range 4096).flatMap fun i =>
    let key := 512 * (i % 2048 / 256) + 256 * (i / 2048) + i % 256
    (s.obj { bank := true, key := key }).bytes ((s.syn.context.map fun c => decide (c.pair = key / 512)).getD false)

end Sys2Proof.Machine
end

