-- ==== Sys2Proof/Machine/DispatchCore.lean ====
section
/-! DEFINITION. The sending side of expert dispatch (chapter 13): uplinks, messages, stations, and the cancelling of a
batch. -/

namespace Sys2Proof.Machine

def State.modDsp (s : State) (f : Dispatch → Dispatch) : State := { s with dsp := f s.dsp }

def State.uplink (s : State) (u : Nat) : Uplink := lget s.dsp.uplinks u

def State.modUplink (s : State) (u : Nat) (f : Uplink → Uplink) : State :=
  s.modDsp fun d => { d with uplinks := lmod d.uplinks u f }

/-- ARG1 of a DSP event: BATCH_ID and GEN (R441). -/
def Dispatch.eventArg (d : Dispatch) : Nat := d.batchId.getD 0 * 65536 + d.gen

/-- DSP_ADDRESS as a number. -/
def State.dspAddress (s : State) : Nat := ofBe (s.blob Reg.DSP_ADDRESS)

/-- The host entry of a source address (R435). -/
def State.hostAt (s : State) (source : Nat) : Option (Nat × HostEntry) :=
  s.dsp.hosts.find? fun h => h.2.valid && h.2.address = source

/-! ### Uplinks (R421) -/

/-- An uplink to a switch, by the parity of DISPATCH_NO where two lead there; the next switch's where it is not
UP. -/
def State.uplinkTo (s : State) (sw no : Nat) : Option Nat :=
  (List.range 16).findSome? fun k =>
    let us := (List.range s.part.uplinks).filter fun u => s.part.switchOfUplink u = (sw + k) % 16
    (us[no % us.length]?).bind fun u => if (s.uplink u).state = .up then some u else none

/-- Datagrams that a payload takes. -/
def fragmentsOf (payload : List Byte) : Nat := if 8192 < payload.length then 2 else 1

/-- A message of a TYPE goes out towards a switch, in two fragments where its payload needs them; with no uplink UP it
is lost. -/
def State.dspSend (s : State) (sw dest type : Nat) (m : DispatchMsg) : State :=
  match s.uplinkTo sw m.dispatchNo with
  | none => s
  | some u => s.modUplink u fun x =>
    { x with txFrames := sat 64 (x.txFrames + fragmentsOf m.payload), lastSent := some (type, dest, m) }

/-- A message of the module's own to a host. -/
def State.dspTo (s : State) (host type : Nat) (m : DispatchMsg) : State :=
  match kget? s.dsp.hosts host with
  | some h => s.dspSend h.switch host type m
  | none => s

/-- An answer on the uplink that brought the message. -/
def State.dspAnswer (s : State) (uplink host type : Nat) (m : DispatchMsg) : State :=
  s.dspSend (s.part.switchOfUplink uplink) host type m

/-- A header of the batch in progress (Table 13-5). -/
def State.dspMsg (s : State) (cls no credits : Nat) : DispatchMsg :=
  { source := s.dspAddress, good := true, cls := cls, flags := 0, gen := s.dsp.gen
    batchId := s.dsp.batchId.getD 0, layer := 0, expert := 0, dispatchNo := no, rowBytes := 0, format := 0
    status := 0, credits := credits, payload := [] }

def State.passClass (s : State) : Nat := (s.planner.running.map fun (r : PassRun) => r.entry.cls).getD 0

/-! ### Stations (R432) -/

/-- Fields of Table 13-4 that both sides have, or one: layer, TOP_K or the expert, the row and where it is kept. -/
def PortOp.layer (p : PortOp) : Nat := field p.fields 0 2
def PortOp.topK (p : PortOp) : Nat := field p.fields 2 1
def PortOp.renorm (p : PortOp) : Bool := bit (field p.fields 3 1) 0
def PortOp.expert (p : PortOp) : Nat := field p.fields 2 2
def PortOp.rowBytes (p : PortOp) : Nat := field p.fields 4 2
def PortOp.rowFormat (p : PortOp) : Nat := field p.fields 6 1
def PortOp.rowRoom (p : PortOp) : Nat := field p.fields 12 4 / p.rowBytes
def PortOp.closeCycles (p : PortOp) : Nat := field p.fields 16 4
def PortOp.rowFlits (p : PortOp) : Nat := p.rowBytes / 64

/-- Dispatch stations of the active last, by direction. -/
def State.dspStations (s : State) (direction : Nat) : List (Nat × PortOp) :=
  (List.range s.fab.stations.length).filterMap fun i =>
    match s.fab.portOp? i with
    | some p => if p.target = 5 && p.direction = direction then some (i, p) else none
    | none => none

/-! ### Cancelling a batch (R437) -/

/-- A batch is cancelled: GEN rises, every host dispatched to hears of it, and credits still out belong to the old
generation (R437). `keep` leaves the choices to be sent again (R439). -/
def State.cancelBatch (s : State) (keep : Bool) : State :=
  match s.dsp.batchId with
  | none => s
  | some id =>
    let d := s.dsp
    let since := s.clock
    let out := d.choices.filter fun c => c.sent && c.result.isNone && c.host != 0xFFFF
    let t := s.modDsp fun d =>
      { d with gen := (d.gen + 1) % 65536
               cancelled := d.cancelled ++ out.map fun c => { batch := id, gen := c.gen, host := c.host, no := c.no, since := since }
               choices := if keep then d.choices.map fun c =>
                   if c.result.isSome then c else { c with sent := false, resent := false, gen := (d.gen + 1) % 65536 }
                 else []
               rows := if keep then d.rows else []
               arrivals := d.arrivals.filter fun a => a.host != 0xFFFF || a.taken
               sentTo := d.sentTo.map fun (e : Nat × Nat) => (e.1, 0), endSent := false }
    (d.sentTo.map (·.1)).foldl (fun t h => t.dspTo h 4 (t.dspMsg t.passClass 0 0)) t

/-- Whether the running pass is that of a last with dispatch stations. -/
def State.poolPass (s : State) : Bool :=
  match s.planner.running with
  | none => false
  | some r => ((s.store.active.bind fun a => a.lasts.find? fun l => l.lastId = r.entry.lastId).map (·.pool)).getD false

/-- The pass is voided: its batch with it. -/
def State.voidBatch (s : State) : State := if s.poolPass then s.cancelBatch false else s

/-! ### Windows (R425, R427) -/

/-- The window that starts at an FST, for passes of a class. -/
def State.windowAt (s : State) (fst cls : Nat) : Option WindowEntry :=
  s.dsp.windows.find? fun w => w.start = slotOf fst && w.kind = (if cls = 0 then 0 else 1) && cls < 3 && fst % 65536 = 0

/-- Whether the pool pass may transmit: its window is open, or it has overrun and goes on until it ends (R426); so does
one that resumes, whose window is past: DEDUCED, unsafe (log entry 48). -/
def State.mayTransmit (s : State) : Bool :=
  match s.dsp.batchId, s.planner.running with
  | some b, some r =>
    s.syn.phase = .none && s.fab.state = .running &&
      (r.entry.resume || r.planEnd < s.clock || (s.tb.frame % 2 ^ 24 = b / 256 &&
        s.dsp.windows.any fun w => w.start = b % 256 && w.start ≤ s.tb.slot && s.tb.slot < w.start + w.length))
  | _, _ => false

/-- Whether a pass of a last may be planned: one with dispatch stations needs a role, a start at a window of its class
and a cost that the window holds. -/
def State.poolFits (s : State) (l : StagedLast) (cls cost : Nat) (notBefore : Option Nat) : Bool :=
  !l.pool || (s.reg Reg.DSP_ROLE != 0 &&
    ((notBefore.bind fun f => s.windowAt f cls).any fun w => cost ≤ 156000 * w.length))

/-- Planning cycles of the KIND 0 windows of a frame. -/
def State.windowCycles (s : State) : Nat :=
  156000 * ((s.dsp.windows.filter fun w => w.kind = 0).map (·.length)).sum

/-- Whether class-0 passes may send to experts that the map places elsewhere (R427). -/
def State.windowsInForce (s : State) : Bool :=
  s.reg Reg.DSP_WINDOWS_CONFIRMED = 1 && s.dsp.expertMap.any fun e => e.host != 0xFFFF

end Sys2Proof.Machine
end

