-- ==== Sys2Proof/Machine/Steps.lean ====
section
/-! DEFINITION. Steps and passes in the plan: worst-case costs (R57, R64, R65), what the end of a pass does to its
step, voids and reruns (R106, R503 to R506, R630, R631), and a step that fails (R353). -/

namespace Sys2Proof.Machine

/-! ### Costs (R56, R57) -/

/-- Planning cycles of a slot and of a frame (R56). -/
def slotCycles : Nat := 156000
def frameCycles : Nat := 24960000

/-- Where the class-3 share of a frame begins (R60). -/
def State.class3Start (s : State) : Nat := frameCycles - s.planner.class3Min * 24960

/-- The smallest bucket that is at least a value. -/
def bucketOf (bounds : List Nat) (v : Nat) : Option Nat := (List.range bounds.length).find? fun i => v ≤ bounds.getD i 0

/-- The cell of a pass: its buckets and W, none where no supported cell covers it (R57, R225). -/
def Wcet.at_ (w : Wcet) (rows context : Nat) : Option (Nat × Nat × Nat) :=
  match bucketOf w.batch rows, bucketOf w.context context with
  | some b, some c => ((w.cells.getD b []).getD c none).map fun v => (b, c, v)
  | _, _ => none

/-- A staged last by LAST_ID, and the safe variant of a last (Table 7-16). -/
def Resident.last? (r : Resident) (id : Nat) : Option StagedLast := r.lasts.find? (·.lastId = id)
def State.staged? (s : State) (id : Nat) : Option StagedLast := s.store.active.bind (·.last? id)
def State.safeOf? (s : State) (id : Nat) : Option StagedLast :=
  s.store.active.bind fun r => r.lasts.find? fun l => l.safe && l.safeOf = id && bit l.placement s.mask

/-- The image of the resident set under the working mask with the same PASS_KIND and layer range (R504). -/
def State.sameRole? (s : State) (l : StagedLast) : Option StagedLast :=
  if bit l.placement s.mask then some l
  else s.store.active.bind fun r => r.lasts.find? fun x =>
    bit x.placement s.mask && x.spillPlan = l.spillPlan && x.passKind = l.passKind && x.layerFirst = l.layerFirst &&
      x.layerCount = l.layerCount && x.safe = l.safe

/-- Distinct adapters of rows (P[2] of R225). -/
def adapterRuns (rows : List PassRow) : Nat :=
  ((rows.filterMap fun r => if r.adapter = 0xFFFF then none else some r.adapter).eraseDups).length

/-- The longest context of rows at the end of their pass (P[1]). -/
def longest (rows : List PassRow) : Nat := rows.foldl (fun m r => max m (r.position + 1)) 0

/-- A pass entry costed again from a last's table at stretch `k`; none where no supported cell covers it. -/
def PlanEntry.costed (e : PlanEntry) (l : StagedLast) (k : Nat) : Option PlanEntry :=
  if l.maxAdapterRuns < adapterRuns e.rows then none
  else (l.wcet.at_ e.rows.length (longest e.rows)).map fun c =>
    { e with lastId := l.lastId, batchBucket := c.1, contextBucket := c.2.1, w := c.2.2, cost := costAt k c.2.2 }

/-- Whether an entry is a pass. -/
def PlanEntry.isPass (e : PlanEntry) : Bool := e.kind = .prefill || e.kind = .decode

/-- A pass of a last that has stalled in these buckets runs on the safe variant (R107). -/
def State.withSafe (s : State) (e : PlanEntry) : PlanEntry :=
  if s.fab.safeSet.contains (e.lastId, e.batchBucket, e.contextBucket) then
    ((s.safeOf? e.lastId).bind fun l => e.costed l s.pwr.k).getD e
  else e

/-- The entry as the plan costs it: on the safe variant from the frame after the stall on (R107). -/
def State.costSafe (s : State) (e : PlanEntry) : PlanEntry :=
  if s.fab.safeNew.contains (e.lastId, e.batchBucket, e.contextBucket) then e else s.withSafe e

/-- An unstarted entry costed again (R64, R65); one that resumes a saved pass by R384. -/
def State.recost (s : State) (e : PlanEntry) : PlanEntry :=
  if e.resume then
    let swap := if s.fab.activeLast = e.lastId then 0 else ((s.staged? e.lastId).map (·.swapCycles)).getD 0
    { e with cost := costAt s.pwr.k (48000 + swap + e.w) }
  else if e.isPass then
    ((((s.staged? e.lastId).bind s.sameRole?).bind fun l => e.costed l s.pwr.k).map s.costSafe).getD e
  else { e with cost := costAt s.pwr.k e.w }

/-- Planning cycles of the frame that are behind, the running entry's remaining cost included. -/
def State.planBase (s : State) : Nat :=
  let at_ := s.tb.slot * slotCycles + min slotCycles s.tb.cyc
  match s.planner.running with
  | some r => max at_ (at_ + r.entry.cost - (s.tb.now - r.start))
  | none => at_

/-- Earliest start of an entry in the frame. -/
def State.startAt (s : State) (pos : Nat) (e : PlanEntry) : Nat :=
  match e.notBefore with
  | some f => if frameOf f = s.tb.frame then max pos (slotOf f * slotCycles) else pos
  | none => pos

/-- The latest end that an entry may have (R59, R64). -/
def State.endLimit (s : State) (e : PlanEntry) : Nat := if e.cls = 3 then frameCycles else s.class3Start

/-- Entries that end in time, and those that move to the next frame in their order (R64): class 0 stays, and a step
whose earlier pass has moved moves with it. `gone` are the steps that have. -/
def State.fitFrom (s : State) : List Nat → Nat → List PlanEntry → List PlanEntry × List PlanEntry
  | _, _, [] => ([], [])
  | gone, pos, e :: es =>
    let stop := s.startAt pos e + e.cost
    let follows := !e.rows.isEmpty && gone.contains e.step
    if e.cls = 0 && e.isPass || (stop ≤ s.endLimit e && !follows) then
      let (a, b) := State.fitFrom s gone stop es
      (e :: a, b)
    else
      let (a, b) := State.fitFrom s (e.step :: gone) pos es
      (a, e :: b)

def State.fit (s : State) (pos : Nat) (es : List PlanEntry) : List PlanEntry × List PlanEntry := s.fitFrom [] pos es

/-- Unstarted entries costed again: all of them after a fence (R65), those of class 1 to 3 after a cap change
(R64); the ones that no longer fit move. -/
def State.recostPlan (s : State) (fence : Bool) : State :=
  let plan := s.planner.plan.map fun e => if fence || e.cls != 0 || !e.isPass then s.recost e else e
  let (a, b) := s.fit s.planBase plan
  { s with planner := { s.planner with plan := a, moved := s.planner.moved ++ b } }

/-! ### Steps -/

/-- A step by number, and a change of it. -/
def Planner.stepOf (p : Planner) (n : Nat) : Option StepRun := p.steps.find? (·.number = n)
def Planner.modStep (p : Planner) (n : Nat) (f : StepRun → StepRun) : Planner :=
  { p with steps := p.steps.map fun x => if x.number = n then f x else x }
def State.modStep (s : State) (n : Nat) (f : StepRun → StepRun) : State :=
  { s with planner := s.planner.modStep n f }

/-- Groups of rows, ascending in order of appearance. -/
def groupsOf (rows : List PassRow) : List Nat := (rows.map fun r => groupOf r.stream).eraseDups

/-- The GROUP of an event about a pass: its group where all rows belong to one (R623). -/
def passEventGroup (rows : List PassRow) : Nat :=
  match groupsOf rows with
  | [g] => g
  | _ => 0xFF

/-- ARG0 of an event about a pass: the buckets. -/
def PlanEntry.bucketArg (e : PlanEntry) : Nat := 256 * e.batchBucket + e.contextBucket

/-- A step leaves: its unstarted entries with it, and its window pair (R362). -/
def State.dropStep (s : State) (n : Nat) : State :=
  let p := s.planner
  let other (e : PlanEntry) : Bool := !(e.isPass && e.step = n)
  { s.releasePair n with planner := { p with plan := p.plan.filter other, moved := p.moved.filter other
                                             steps := p.steps.filter (·.number != n) } }

/-- Rows that satisfy a condition on their step and stream leave every step that is planned, running or saved. -/
def State.dropRowsOf (s : State) (gone : Nat → Nat → Bool) : State :=
  let keep (e : PlanEntry) : PlanEntry := { e with rows := e.rows.filter fun r => !gone e.step r.stream }
  let live (l : List PlanEntry) : List PlanEntry := l.filterMap fun e =>
    if e.isPass && !e.rows.isEmpty && (keep e).rows.isEmpty then none else some (keep e)
  let p := s.planner
  let steps := (p.steps.map fun x => { x with entries := live x.entries }).filter fun x =>
    !x.entries.isEmpty || (p.running.any fun r => r.entry.step = x.number)
  let t := { s with planner := { p with plan := live p.plan, moved := live p.moved, steps := steps
                                        running := p.running.map fun r => { r with entry := keep r.entry } } }
  (p.steps.filter fun x => !(steps.any fun y => y.number = x.number)).foldl (fun t x => t.loseStep x.number) t

/-- Rows of streams leave every step (R512). -/
def State.dropRows (s : State) (gone : Nat → Bool) : State := s.dropRowsOf fun _ k => gone k

/-- A step is reported failed: the turn of each of its streams ends with STEP_FAILED (R353), and the chunks that were
planned behind it leave the plan. -/
def State.failStep (s : State) (n : Nat) : State :=
  match s.planner.stepOf n with
  | none => s
  | some x =>
    let t := ((s.loseStep n).dropStep n).raise 0x0D0D 0 s.ras.recordSeq n
    let t := t.dropRowsOf fun step k => n < step && x.streams.contains k
    x.streams.foldl (fun t k => t.failTurn k Status.STEP_FAILED) t

/-- Where a rerun stands in the plan (R631). -/
def insertRerun (cls : Nat) (es plan : List PlanEntry) : List PlanEntry :=
  if cls = 0 then es ++ plan
  else plan.takeWhile (fun e => e.cls < cls) ++ es ++ plan.dropWhile (fun e => e.cls < cls)

/-- A voided step is run again from its first pass (R106, R504, R630). `f` gives each entry the last that it runs
on. A step with no entry left is dropped. -/
def State.rerunStep (s : State) (n : Nat) (f : PlanEntry → PlanEntry) : State :=
  match s.planner.stepOf n with
  | none => s
  | some x =>
    let es := (x.entries.map f).filter fun e => !e.rows.isEmpty
    let keep (l : List PlanEntry) : List PlanEntry := l.filter fun e => !(e.isPass && e.step = n)
    let p := s.planner
    let s := s.loseStep n
    if es.isEmpty then s.dropStep n
    else
      let y : StepRun := { x with entries := es, passes := 0, wcet := 0, outputs := [], started := false,
                                  complete := false }
      { s with planner :=
          { p with plan := insertRerun x.cls es (keep p.plan), moved := keep p.moved,
                   steps := p.steps.map fun z => if z.number = n then y else z } }

/-- A rerun on each pass's own last, or the one of the new resident set (R504, R630). -/
def State.rerunOwn (s : State) (n : Nat) : State := s.rerunStep n s.recost

/-- A rerun on the safe variant of the last that stalled (R106): the step fails where it has none. A pass for which the
safe variant's table has no supported cell runs on its own last, of which the spec says nothing: DESIGN CHOICE, unsafe
(log entry 38). -/
def State.rerunSafe (s : State) (n last : Nat) : State :=
  match s.safeOf? last with
  | none => s.failStep n
  | some l =>
    let t := { s with fab := { s.fab with safeReruns := sat 32 (s.fab.safeReruns + 1) } }
    (t.rerunStep n fun e => if e.lastId = last then (e.costed l s.pwr.k).getD e else s.recost e).modStep n
      fun x => { x with safeRuns := x.safeRuns + 1 }

/-! ### The end of a pass -/

/-- Strikes of the pass have had their events and records (R516). -/
def State.closeStrikes (s : State) (step actions : Nat) : State :=
  (List.range 8).foldl (fun t q =>
    let x := lget t.ras.quads q
    if x.passStrikes.isEmpty then t
    else
      let fence := if x.state = .fencing then actFence else 0
      let t := t.modQuad q fun y => { y with passStrikes := [] }
      (t.record { source := 0x0F, causeClass := 6, quadrant := some q, die := some (q / 4), stepSeq := step
                  actions := actions ||| actStrike ||| fence, strikes := x.strikes.length }).raise 0x0D04 q
        (t.ras.recordSeq + 1) step) s

/-- Records of the causes that tainted a pass, with the ACTIONS that its end decided; the record of a cause in a
quadrant that was struck is the strike's (R516, R530). -/
def State.taintRecords (s : State) (causes : List RecordInfo) (step actions groups : Nat) : State :=
  causes.foldl (fun t c =>
    let q := c.quadrant.getD 8
    let x := lget t.ras.quads q
    let struck := c.quadrant.isSome && !x.passStrikes.isEmpty
    let extra := if struck then actStrike ||| (if x.state = .fencing then actFence else 0) else 0
    let mine := if c.causeClass = 2 then (if c.groups = 0 then groups else c.groups) else 0
    let t1 := t.record { c with actions := c.actions ||| actions ||| extra |||
                                  (if mine = 0 then 0 else actReset)
                                stepSeq := step, groups := mine
                                strikes := if struck then x.strikes.length else c.strikes }
    if struck then
      (t1.modQuad q fun y => { y with passStrikes := [] }).raise 0x0D04 q t1.ras.recordSeq step
    else t1) s

/-- Groups that the STREAM causes of a pass charge (R511). -/
def PassRun.charged (p : PassRun) : List Nat :=
  let named := p.taints.filterMap fun c => if c.source = 6 then c.group else none
  let other := p.taints.any fun c => c.causeClass = 2 && c.source != 6
  let rest := if !other then [] else if p.poisoned.isEmpty then groupsOf p.entry.rows else p.poisoned
  (named ++ rest).eraseDups

/-- The shard that a WEIGHT cause of a pass refetches (R504, R508). -/
def PassRun.refetch (p : PassRun) : Option Nat := p.taints.findSome? fun c => if c.causeClass = 3 then c.shard else none

/-- A group mask of groups. -/
def groupMask (gs : List Nat) : Nat := (gs.map (2 ^ ·)).sum

/-- The causes of a pass are recorded and charged; `voided` and `failed` are what becomes of its step. -/
def State.settlePass (s : State) (p : PassRun) (voided failed : Bool) : State :=
  let gs := p.charged
  let actions := (if voided then actVoided else 0) ||| (if failed then actFailed else if voided then actRerun else 0)
  let t := s.taintRecords p.taints p.entry.step actions (groupMask gs)
  let other := (p.taints.find? fun c => c.causeClass = 2 && c.source != 6).map (·.source)
  let why (g : Nat) : Nat := if p.taints.any fun c => c.source = 6 && c.group = some g then 6 else other.getD 6
  (gs.foldl (fun (t : State) g => t.askReset g (why g)) t).closeStrikes p.entry.step actions

/-- Streams of named groups (FFFFh for all) fail in a step (R376): their turns end, and their rows leave it. -/
def State.failGroups (s : State) (n : Nat) (gs : List Nat) : State :=
  let mine := ((s.planner.stepOf n).map StepRun.streams).getD []
  let hit (k : Nat) : Bool := gs.contains 0xFFFF || gs.contains (groupOf k)
  if mine.all hit then s.failStep n
  else
    let s := s.dropRowsOf fun step k => n < step && hit k && mine.contains k
    let t := (mine.filter hit).foldl (fun t k => t.failTurn k Status.STEP_FAILED) s
    t.modStep n fun x => { x with entries := x.entries.map fun e =>
      { e with rows := e.rows.filter fun r => !hit r.stream } }

/-- The pass is over for its step (R503 to R505): a clean pass counts; a tainted one voids the step, which runs
again once, or fails; a pass broken otherwise voids it too (R353, R376, R379, R438). -/
def State.endPass (s : State) (p : PassRun) : State :=
  let n := p.entry.step
  let now := s.tb.now
  let clean := p.taints.isEmpty && !p.broken && p.tokens.isEmpty
  let t := if clean then s else s.voidBatch
  let t := { t with planner := { t.planner with running := none } }
  let t := t.modStep n fun x =>
    { x with passes := x.passes + 1, wcet := x.wcet + p.entry.w, lastEnd := now }
  let voids : Nat := ((t.planner.stepOf n).map (·.voids)).getD 0
  let tokenVoids : Nat := ((t.planner.stepOf n).map (·.tokenVoids)).getD 0
  if clean then
    (t.settlePass p false false).modStep n fun x => { x with complete := p.entry.lastPass }
  else if p.taints.isEmpty && p.tokens.isEmpty then (t.settlePass p true false).rerunOwn n
  else if p.taints.isEmpty then
    if 1 ≤ tokenVoids || s.lce.spanState != .intact then
      let t := (t.settlePass p true true).failGroups n p.tokens
      if (t.planner.stepOf n).isSome then t.rerunOwn n else t
    else ((t.settlePass p true false).rerunOwn n).modStep n fun x => { x with tokenVoids := x.tokenVoids + 1 }
  else
    let failed : Bool := decide (1 ≤ voids)
    let t := t.settlePass p true failed
    let t := { t with ras := { t.ras with stepsVoided := sat 32 (t.ras.stepsVoided + 1) } }
    let t := t.raise 0x0D01 0 t.ras.recordSeq n
    if failed then
      { t with ras := { t.ras with stepsFailed := sat 32 (t.ras.stepsFailed + 1) } }.failStep n
    else
      (t.rerunOwn n).modStep n fun x => { x with voids := x.voids + 1, waitShard := p.refetch }

end Sys2Proof.Machine
end

