-- ==== Sys2Proof/Machine/FabricCore.lean ====
section
/-! DEFINITION. The fabric outside the firing rule (chapter 3): flits and credits in flight, the join guard, the
snapshot, voiding, swaps, sampling, and the comparisons of the matrix engines (R156 to R160). -/

namespace Sys2Proof.Machine

/-! ### Tiles -/

/-- The place of a tile in a record (Table 16-6). -/
def tileInfo (loc : Nat) (r : RecordInfo) : RecordInfo :=
  { r with die := some (locDie loc), quadrant := some (locQuad loc), x := some (locX loc), y := some (locY loc) }

/-- A double-bit error in a tile's memory or queue buffer taints the pass and strikes the quadrant (R500, R515). -/
def State.tileError (s : State) (source loc : Nat) : State :=
  (s.strike (locQuad loc) .stream source).detect (tileInfo loc { source := source, causeClass := 2 })

/-- Fields of a control token (Table 3-2). -/
def Flit.tokenKind (x : Flit) : Nat := if x.kind = .control then field x.bytes 0 1 else 0
def Flit.tokenIndex (x : Flit) : Nat := field x.bytes 1 1
def Flit.tokenSeq (x : Flit) : Nat := field x.bytes 4 4

/-! ### A station's ports -/

def StationDesc.inPort (d : StationDesc) (p : Nat) : Nat := d.inQ.getD p 0xFFFF
def StationDesc.outPort (d : StationDesc) (p : Nat) : Nat := d.outQ.getD p 0xFFFF

/-- Flits at an input, and the credits that a station holds on an output (R95). -/
def Fabric.input (f : Fabric) (d : StationDesc) (p : Nat) : List Flit :=
  ((f.queue? (d.inPort p)).map fun (q : QueueRun) => q.buffer).getD []

def Fabric.credit (f : Fabric) (d : StationDesc) (p : Nat) : Nat :=
  ((f.queue? (d.outPort p)).map fun (q : QueueRun) => q.credits).getD 0

/-- Inputs that an entry needs and outputs that it writes, as (port, count). -/
def SeqEntry.needs (q : SeqEntry) : List (Nat × Nat) := (q.consume.zipIdx.filter (·.1 != 0)).map fun e => (e.2, e.1)
def SeqEntry.writes (q : SeqEntry) : List (Nat × Nat) := (q.produce.zipIdx.filter (·.1 != 0)).map fun e => (e.2, e.1)

/-! ### What a station's next firing needs -/

/-- The sequence entry that a station fires next: entries whose repeat count is zero are skipped (R224). -/
def seqSkip (params : List Nat) (q : Sequence) : Nat → Nat → Nat
  | 0, e => e
  | f + 1, e =>
    if repeatOf params ((lget q.entries e).rpt) = 0 then
      seqSkip params q f (if e + 1 < q.entries.length then e + 1 else q.loopStart)
    else e

def Fabric.seqEntry (f : Fabric) (i : Nat) : Nat × SeqEntry :=
  match f.desc? i, f.image? with
  | some d, some m =>
    let q := m.sequence d
    let e := seqSkip f.params q (q.entries.length + 1) (lget f.stations i).entry
    (e, lget q.entries e)
  | _, _ => (0, default)

/-- Repetitions of the entry that a station is in, and the one it fires next; 0 where every entry of the sequence has a
repeat count of zero, and then the station has no firing (R224). -/
def Fabric.repeats (f : Fabric) (i : Nat) : Nat := repeatOf f.params (f.seqEntry i).2.rpt

/-- The station that consumes, and the one that produces, a queue. -/
def Fabric.consumerOf (f : Fabric) (q : Nat) : Option (Nat × Nat) :=
  f.image?.bind fun m => m.stations.zipIdx.findSome? fun s =>
    (s.1.inQ.findIdx? (· = q)).map fun p => (s.2, p)

def Fabric.producerOf (f : Fabric) (q : Nat) : Option (Nat × Nat) :=
  f.image?.bind fun m => m.stations.zipIdx.findSome? fun s =>
    (s.1.outQ.findIdx? (· = q)).map fun p => (s.2, p)

/-! ### Flits and credits in flight (R79, R93) -/

/-- The SRAM region that stores a spill queue: base and depth in flits, of a STORE station's operation (R86). -/
def Operation.spillRegion : Operation → Option (Nat × Nat)
  | .store 2 base _ depth _ _ => some (base, depth)
  | _ => none

def Fabric.spillRegion (f : Fabric) (i : Nat) : Option (Nat × Nat) :=
  match f.desc? i, f.image? with
  | some d, some m => if d.kind = .store then (m.operation d).bind Operation.spillRegion else none
  | _, _ => none

/-- Place of flit number `n` of a spill queue in its region, which it goes round. -/
def spillAt (base depth n : Nat) : Nat := base + 64 * (n % depth)

/-- Bytes of a flit that a spill queue stores in SRAM; the sideband is kept beside it. -/
def State.spillStore (s : State) (tile base depth n : Nat) (x : Flit) : State :=
  { s with mem := { s.mem with sram := writeBytes s.mem.sram (sramAt tile (spillAt base depth n)) x.bytes } }

def State.spillLoad (s : State) (tile base depth n : Nat) (x : Flit) : Flit :=
  { x with payload := payloadOf ((List.range 64).map fun j => readByte s.mem.sram (sramAt tile (spillAt base depth n) + j)) }

/-- The SRAM region of a STORE station configured as a spill queue is the storage of the queue at its input (R86): flits
go from the queue buffer into the region while it has room. That this is no firing is DEDUCED: with a storage filled by
firings alone, one that also produces could never take in what the other side does not take; safe (log entry 39). -/
def State.spillIn (s : State) (i : Nat) : State :=
  match s.fab.spillRegion i, s.fab.desc? i with
  | some (base, depth), some d =>
    let st := s.station i
    let xs := (s.fab.input d 0).take (depth - st.fifo.length)
    let tile := locTile d.location
    let t := xs.zipIdx.foldl (fun (t : State) e => t.spillStore tile base depth (st.writePos + e.2) e.1) s
    { t with fab := (t.fab.dequeue (d.inPort 0) xs.length).modStation i fun y =>
      { y with fifo := y.fifo ++ xs.map fun x => { x with payload := 0 }, writePos := y.writePos + xs.length } }
  | _, _ => s

/-- A flit that has entered a spill queue's buffer goes on into SRAM. -/
def State.spillQueueIn (s : State) (queue : Nat) : State :=
  if (s.fab.queue? queue).any (·.spill) then
    match s.fab.consumerOf queue with
    | some (i, _) => s.spillIn i
    | none => s
  else s

/-- FLIT_DELIVERED: the flit enters the queue buffer; an error of a link counts in no quadrant (R515). -/
def execFlitDelivered (cyc queue : Nat) (ecc : EccEvent) (s : State) : Host.Outcome State Fault Refusal :=
  match (s.fab.queue? queue).bind fun q => q.inFlight.head? with
  | none => .next s
  | some x =>
    let s := (s.stamp cyc).progress
    let bad := ecc = .uncorrectable
    let t := { s with fab := s.fab.modQueue queue fun q =>
      { q with inFlight := q.inFlight.drop 1, buffer := q.buffer ++ [{ x with poison := x.poison || bad }] } }
    let t := t.spillQueueIn queue
    match ecc with
    | .clean => .next t
    | .corrected =>
      let t := { t with fab := { t.fab with meshCorrected := sat 32 (t.fab.meshCorrected + 1) } }
      .next (t.correctedError (ceLink queue) { source := 0x11, causeClass := 0, die := some (locDie queue) })
    | .uncorrectable =>
      .next (t.detect { source := 5, causeClass := 2, die := some (locDie queue), x := some (locX queue)
                        y := some (locY queue) })

/-- CREDIT_RETURNED. -/
def execCreditReturned (queue : Nat) (s : State) : Host.Outcome State Fault Refusal :=
  match s.fab.queue? queue with
  | none => .next s
  | some q =>
    if q.returning = 0 then .next s
    else .next { s with fab := s.fab.modQueue queue fun q =>
      { q with returning := q.returning - 1, credits := q.credits + 1 } }

/-! ### What waits for what -/

/-- Inputs that the next firing of a welt takes a flit from, and outputs that it writes one to (Table 3-5). An unbound
ROUTE or SELECT with no token to go by needs its control queue. -/
def Fabric.weltPorts (f : Fabric) (i : Nat) (d : StationDesc) (operation outs : Nat) (rot : List Nat) :
    List Nat × List Nat :=
  let st := lget f.stations i
  let steered (ins : Nat → Nat) (out : Nat → List Nat) : List Nat × List Nat :=
    match st.bound, (f.input d 4).head? with
    | some b, _ => ([ins b], out b)
    | none, some c =>
      if c.tokenKind != 1 then ([4], List.range outs)
      else
        let b := if c.tokenIndex = 0xFF then 4 else c.tokenIndex
        ([4, ins b], out b)
    | none, none => ([4], [])
  match operation with
  | 0 => ([0], List.range outs)
  | 1 => steered (fun _ => 0) fun b => if b = 4 then [] else [b]
  | 2 => steered id fun _ => [0]
  | _ =>
    let len := max 1 rot.length
    match ((List.range len).map (st.rotation + ·)).find? fun k => !st.ended.contains (rot.getD (k % len) 0) with
    | some k => ([rot.getD (k % len) 0], [0])
    | none => ([], [])

/-- What the next firing of a station that moves flits by a port takes and writes, as (port, count). A SYNC station
fires each input by itself (R365). -/
def Fabric.firing (f : Fabric) (i port : Nat) : List (Nat × Nat) × List (Nat × Nat) :=
  match f.desc? i, f.image? with
  | some d, some m =>
    match d.kind, m.operation d with
    | .welt, some (.welt operation _ outs rot) =>
      let (a, b) := f.weltPorts i d operation outs rot
      (a.map fun p => (p, 1), b.map fun p => (p, 1))
    | .sync, _ => ([(port, 1)], [(port, 1)])
    | _, _ => if f.repeats i = 0 then ([], []) else ((f.seqEntry i).2.needs, (f.seqEntry i).2.writes)
  | _, _ => ([], [])

/-- Flits that a STORE station holds for its spill queue, and the depth of that queue (R86). -/
def Fabric.spillHeld (f : Fabric) (q : Nat) : List Flit × Nat :=
  match f.consumerOf q with
  | some (i, _) =>
    let depth := match f.desc? i, f.image? with
      | some d, some m => match m.operation d with
        | some (.store _ _ _ n _ _) => n
        | _ => 0
      | _, _ => 0
    ((lget f.stations i).fifo, depth)
  | none => ([], 0)

/-- The flits of a queue: for a spill queue those that SRAM holds (R86). -/
def Fabric.flitsOf (f : Fabric) (q : QueueRun) : List Flit := if q.spill then (f.spillHeld q.number).1 else q.buffer

/-- Occupancy and depth of a queue as the sampler sees them. -/
def Fabric.level (f : Fabric) (q : QueueRun) : Nat × Nat :=
  ((f.flitsOf q).length, if q.spill then (f.spillHeld q.number).2 else q.depth)

/-- Whether the next firing of a station lacks room on an output, or data at an input. -/
def Fabric.lacksRoom (f : Fabric) (d : StationDesc) (e : Nat × Nat) : Bool := f.credit d e.1 < e.2

def Fabric.lacksData (f : Fabric) (d : StationDesc) (e : Nat × Nat) : Bool :=
  ((f.queue? (d.inPort e.1)).map fun q => (f.flitsOf q).length).getD 0 < e.2

/-- Whether the producer of a queue waits for room on it, and whether on it alone (R112, R123). -/
def Fabric.waitsRoom (f : Fabric) (q : QueueRun) (alone : Bool) : Bool :=
  match f.producerOf q.number with
  | some (i, p) => match f.desc? i with
    | some d =>
      let (ins, outs) := f.firing i p
      (outs.any fun e => e.1 = p && f.lacksRoom d e) &&
        (!alone || (outs.all fun e => e.1 = p || !f.lacksRoom d e) && ins.all fun e => !f.lacksData d e)
    | none => false
  | none => false

/-- Whether the consumer of a queue waits for data from it, and whether from it alone (R112, R123). -/
def Fabric.waitsData (f : Fabric) (q : QueueRun) (alone : Bool) : Bool :=
  match f.consumerOf q.number with
  | some (i, p) => match f.desc? i with
    | some d =>
      let (ins, outs) := f.firing i p
      (ins.any fun e => e.1 = p && f.lacksData d e) &&
        (!alone || (ins.all fun e => e.1 = p || !f.lacksData d e) && outs.all fun e => !f.lacksRoom d e)
    | none => false
  | none => false

/-! ### The snapshot (R104, R109, R111, R112) -/

def FlitKind.code : FlitKind → Nat
  | .data => 0 | .control => 1 | .status => 2 | .reserved => 3

/-- One 8-byte entry of Table 3-7. The KIND of the head flit of an empty queue, which has none, reads 0: DESIGN CHOICE,
unsafe (log entry 38). -/
def Fabric.snapEntry (f : Fabric) (q : QueueRun) : List Byte :=
  let (n, d) := f.level q
  let (n, d) := if q.spill then (n / 64, d / 64) else (n, d)
  let head := (((f.flitsOf q).head?).map fun x => x.kind.code).getD 0
  le 2 q.number ++ le 1 n ++ le 1 d ++ le 1 q.credits ++
    le 1 (ofBit (f.waitsRoom q false) + 2 * ofBit (f.waitsData q false) + 4 * ofBit q.spill + 8 * head) ++ le 2 0

/-- The queue-depth snapshot of a cause. -/
def State.snapshotBytes (s : State) (cause : Nat) : List Byte :=
  let f := s.fab
  le 8 s.fst ++ le 8 f.activeLast ++ le 8 f.passCount ++ le 1 cause ++ le 1 (f.activeSlot.getD 0xFF) ++
    le 2 f.queues.length ++ le 4 (s.reg Reg.FAB_JOIN_GUARD) ++ f.queues.flatMap f.snapEntry

/-- The snapshot is captured, or lost while one is held (R111). -/
def State.capture (s : State) (cause : Nat) : State :=
  if s.fab.snapshot.isSome then
    { s with fab := { s.fab with snapLost := sat 32 (s.fab.snapLost + 1) } }
  else { s with fab := { s.fab with snapshot := some (s.snapshotBytes cause), snapFst := s.fst } }

/-- FAB_SNAP_RELEASE (R111). -/
def execFabSnapRelease (value : Nat) (s : State) : Host.Outcome State Fault Refusal :=
  if value = 1 then .next ({ s with fab := { s.fab with snapshot := none } }.status Status.OK)
  else .next (s.status Status.VALUE_RANGE)

/-! ### Stalls and voiding (R103 to R108) -/

/-- Whether a PORT station has an external request outstanding (R103): a read, a write, or an activation row sent to
another host whose result has not come. -/
def State.externalOut (s : State) : Bool :=
  s.fab.stations.any (fun x => x.reads.any (fun r => !r.wants.isEmpty || !r.ask.isEmpty) || x.writes != 0) ||
    s.dsp.choices.any fun c => c.sent && c.result.isNone && c.host != 0xFFFF

/-- Whether a wait is pending on an object outside the module (R103). -/
def State.remoteWait (s : State) : Bool :=
  s.syn.participants.any fun e => e.2.registered &&
    ((s.syncOp (e.1 / 4)).map fun o => (s.localObj o.object).isNone).getD false

/-- Host writes of stations whose pass is void belong to no station any more. -/
def HostReq.detach : HostReq → HostReq
  | .output k _ => .output k 0xFFFF
  | r => r

def HostAccess.detach (a : HostAccess) : HostAccess :=
  match a.write, a.req with
  | true, .window _ => { a with req := .window 0xFFFF }
  | _, r => { a with req := r.detach }

def HostLink.detach (h : HostLink) : HostLink :=
  let one (o : HostOutstanding) : HostOutstanding := { o with access := o.access.detach }
  { h with modules := h.modules.map fun m => { m with outstanding := m.outstanding.map one }
           waitTranslation := h.waitTranslation.map HostAccess.detach, waitCredit := h.waitCredit.map one }

/-- The stations keep only the store and host reads that voiding waits for; HBM reads are waited for at the insoles,
reads on a lace are cancelled (R105). -/
def State.cancelReads (s : State) : State :=
  let keep (x : StationRun) (i : Nat) : StationRun :=
    let ext := match s.fab.portOp? i with
      | some p => p.target = 2 || p.target = 3
      | none => false
    let rs := if ext then (x.reads.filter fun r => !r.wants.isEmpty).map fun r => { r with cancelled := true } else []
    { reads := rs }
  let stations := s.fab.stations.zipIdx.map fun x => keep x.1 x.2
  let engine (r : Requester) : Requester := match r with
    | .station _ => .engine
    | .engine => .engine
  { s with fab := { s.fab with stations := stations }, hlk := s.hlk.detach
           mem := { s.mem with reads := s.mem.reads.map fun r => { r with cancelled := r.cancelled || r.requester != .engine }
                               writes := s.mem.writes.map fun w => { w with requester := engine w.requester } }
           syn := { s.syn with remoteGen := (s.syn.remoteGen + 1) % 256 } }

/-- Every queue is empty, with all its credits (R105, R116). -/
def QueueRun.empty (q : QueueRun) : QueueRun :=
  { q with credits := q.depth, buffer := [], inFlight := [], returning := 0 }

/-- The fabric is VOIDING for a cause of Table 3-7: actions 1, 2 and 4 of R105, the reads still to come. The join guard
counter keeps its value (R103); after a stall, whose value would stall the next pass at once, it is zero: DESIGN CHOICE,
unsafe (log entry 38). -/
def State.startVoid (s : State) (cause : Nat) : State :=
  let pair := s.pairObjs s.currentPair
  let t := (s.ownerLost (s.tileObjs ++ pair)).torusDone.voidBatch.cancelReads
  { t with fab := { t.fab with state := .voiding, queues := t.fab.queues.map QueueRun.empty
                               guardHeld := if cause = 1 then 0 else s.clock - s.fab.guardZero }
           syn := { t.syn with participants := [], tiles := [] }
           planner := { t.planner with running := t.planner.running.map fun r => { r with voidCause := cause } } }

/-- Whether an external read is still to complete (R105, action 3). -/
def State.voidPending (s : State) : Bool :=
  s.mem.reads.any (·.cancelled) || s.fab.stations.any fun x => x.reads.any fun r => r.cancelled

/-- Quadrants that hold stations of the stalled queues, which are taken to be the queues that hold flits: the spec does
not say which they are. DESIGN CHOICE, unsafe (log entry 38). -/
def State.stalledQuads (s : State) : List Nat :=
  ((s.fab.queues.filter fun q => !(s.fab.flitsOf q).isEmpty).flatMap fun q =>
    let loc (o : Option (Nat × Nat)) : List Nat :=
      ((o.bind fun e => s.fab.desc? e.1).map fun d => locQuad d.location).toList
    loc (s.fab.producerOf q.number) ++ loc (s.fab.consumerOf q.number)).eraseDups

/-- A stall on a safe variant (R108): the event and a strike for each quadrant that it names. -/
def State.stallSafe (s : State) (r : PassRun) (quads : List Nat) : State :=
  let t := s.raiseFor 0x0104 (passEventGroup r.entry.rows) (r.entry.bucketArg + 65536 * groupMask quads)
    r.entry.lastId r.passNumber
  quads.foldl (fun t q => t.strike q .stall 0x0F) t

/-- A join has not flowed (R104), or a welt has found a mismatch (R100, R101): event, snapshot, voiding, and the
safe variant for what comes (R107). -/
def State.stall (s : State) (cause : Nat) : State :=
  match s.planner.running with
  | none => s
  | some r =>
    let code := if cause = 1 then 0x0101 else 0x0102
    let key := (r.entry.lastId, r.entry.batchBucket, r.entry.contextBucket)
    let f := s.fab
    let safe := ((s.staged? r.entry.lastId).map (·.safe)).getD false
    let f := { f with stallCount := if cause = 1 then sat 32 (f.stallCount + 1) else f.stallCount
                      pairMismatch := if cause = 1 then f.pairMismatch else sat 32 (f.pairMismatch + 1)
                      safeSet := if safe || f.safeSet.contains key then f.safeSet else f.safeSet ++ [key]
                      safeNew := if safe || f.safeSet.contains key then f.safeNew else f.safeNew ++ [key] }
    let t := { s with fab := f }.raiseFor code (passEventGroup r.entry.rows) r.entry.bucketArg r.entry.lastId
      r.passNumber
    let t := if safe && cause = 1 then t.stallSafe r s.stalledQuads else t
    (t.capture cause).startVoid cause

/-- FABRIC_STALL (R103, R104): FAB_JOIN_GUARD cycles of a running pass without progress, and nothing outside the
fabric to wait for. -/
def execFabricStall (cyc : Nat) (s : State) : Host.Outcome State Fault Refusal :=
  let t := s.stamp cyc
  if s.fab.state = .running && s.syn.phase = .none && !s.externalOut && !s.remoteWait &&
      t.fab.guardZero + s.reg Reg.FAB_JOIN_GUARD ≤ t.clock then .next (t.stall 1)
  else .next s

/-- The running pass of a step whose fabric part is void (R106, R108, R109): a tainted one charges its groups; the
step runs again on the safe variant, or fails where the pass ran on one already. -/
def State.voidedPass (s : State) (r : PassRun) : State :=
  let safe := ((s.staged? r.entry.lastId).map (·.safe)).getD false
  let n := r.entry.step
  let t := { s with planner := { s.planner with running := none } }
  let t := t.settlePass r true safe
  if safe then t.failStep n else t.rerunSafe n r.entry.lastId

/-- Flits that remain in the queues and spill queues (R109). -/
def Fabric.residueCount (f : Fabric) : Nat :=
  (f.queues.map fun q => q.buffer.length + q.inFlight.length + (if q.spill then (f.flitsOf q).length else 0)).sum

/-- Flits remain at the end of a pass (R109). -/
def State.residue (s : State) (r : PassRun) (n : Nat) : State :=
  let t := { s with fab := { s.fab with residue := sat 32 (s.fab.residue + n) } }
  let t := t.raiseFor 0x0103 (passEventGroup r.entry.rows) (r.entry.bucketArg + 65536 * sat 16 n) r.entry.lastId
    r.passNumber
  (t.capture 3).startVoid 3

/-! ### Swaps (R116 to R119) -/

/-- Change a slot. -/
def Fabric.setSlot (f : Fabric) (n : Nat) (x : Slot) : Fabric :=
  match n with
  | 0 => { f with slot0 := x }
  | 1 => { f with slot1 := x }
  | 2 => { f with slot2 := x }
  | _ => { f with slot3 := x }

/-- Queues of an image before a pass, in ascending number (R112). -/
def Image.freshQueues (i : Image) : List QueueRun :=
  (sortBy (·.queue) i.queues).map fun d =>
    let spill := (i.stations.find? fun s => s.inQ.contains d.queue).bind i.operation
    { number := d.queue, depth := d.depth, credits := d.depth
      spill := match spill with
        | some (.store role _ _ _ _ _) => role = 2
        | _ => false }

/-- Regions that the accumulator plans of an image zero at a swap. -/
def Image.zeroed (i : Image) : List (Nat × Nat) :=
  (i.die0.plans ++ i.die1.plans).flatMap fun p =>
    ((List.range 16).filter fun g => bit p.zeroMask g).map fun g => (locTile p.location, g)

/-- An engine with a region set to zero, open and unmarked. -/
def Engine.zeroRegion (e : Engine) (tile g : Nat) : Engine :=
  let lo := accKey tile g 0 0
  { e with acc := kdrop e.acc lo (lo + 4096)
           overflowed := e.overflowed.filter fun k => !(lo ≤ k && k < lo + 4096)
           closed := e.closed.filter (· != regionKey tile g)
           marked := e.marked.filter (· != regionKey tile g) }

/-- A slot's section of a histogram bank cleared (R125). -/
def HistBank.clearSlot (b : HistBank) (n last : Nat) : HistBank :=
  { b with counts := kdrop b.counts (n * 2 ^ 18) ((n + 1) * 2 ^ 18), samples := kdel b.samples n
           lastIds := kset b.lastIds n last }

/-- A swap to a slot starts from IDLE; one to the active slot is ignored (R118), one to a slot that is not READY is
refused with FAB_SLOT_NOT_READY (R120). -/
def State.startSwap (s : State) (n : Nat) : State :=
  if s.fab.state ≠ .idle || s.fab.activeSlot = some n then s
  else if (s.fab.slot n).state ≠ .ready then s.status Status.FAB_SLOT_NOT_READY
  else { s with fab := { s.fab with state := .swapping, swapTarget := some n } }

/-- The incoming last is active, and the join guard counter zero (Table 3-9). -/
def State.endSwap (s : State) (n : Nat) : State :=
  let f := s.fab
  let f := match f.activeSlot with
    | some o => f.setSlot o { f.slot o with state := .ready }
    | none => f
  let x := f.slot n
  match x.image with
  | none => s
  | some img =>
    let f := f.setSlot n { x with state := .active }
    let f := { f with state := .idle, activeSlot := some n, swapTarget := none, queues := img.freshQueues
                      stations := img.stations.map fun _ => {}
                      swapLast := swapCyclesOf x.die0Bytes x.die1Bytes, guardHeld := 0
                      histAcc := f.histAcc.clearSlot n x.lastId }
    { s with fab := f, mxe := img.zeroed.foldl (fun (e : Engine) (g : Nat × Nat) => e.zeroRegion g.1 g.2) s.mxe
             syn := { s.syn with tiles := [], participants := [] } }.progress

/-! ### Sampling (R122 to R124) -/

/-- The bin of an occupancy (R123). -/
def histBin (occupancy depth : Nat) : Nat :=
  if occupancy = 0 then 0 else if depth ≤ occupancy then 7 else 1 + 6 * (occupancy - 1) / (depth - 1)

/-- Key of a count: slot, queue number, column. -/
def histKey (slot queue column : Nat) : Nat := slot * 2 ^ 18 + queue * 16 + column

/-- Whether a sample is due: a whole number of FAB_SAMPLE_INTERVAL cycles after the start of the pass (R122). -/
def State.sampleDue (s : State) : Bool :=
  match s.planner.running with
  | some r => r.start < s.tb.now && (s.tb.now - r.start) % s.fab.histAcc.interval = 0
  | none => false

/-- QUEUE_SAMPLE: every queue of the active last is counted while a pass runs, at the instants of R122. -/
def execQueueSample (cyc : Nat) (s : State) : Host.Outcome State Fault Refusal :=
  match s.fab.state, s.fab.activeSlot, (s.stamp cyc).sampleDue with
  | .running, some n, true =>
    let s := s.stamp cyc
    let f := s.fab
    let up (m : KMap Nat) (k : Nat) : KMap Nat := kcount m k fun v => sat 32 (v + 1)
    let counts := f.queues.foldl (fun m q =>
      let (k, d) := f.level q
      let m := up m (histKey n q.number (histBin k d))
      let m := if f.waitsRoom q true then up m (histKey n q.number 8) else m
      if f.waitsData q true then up m (histKey n q.number 9) else m) f.histAcc.counts
    .next { s with fab := { f with histAcc :=
      { f.histAcc with counts := counts, samples := up f.histAcc.samples n
                       lastIds := kset f.histAcc.lastIds n f.activeLast } } }
  | _, _, _ => .next s

/-! ### Comparisons (R156 to R160) -/

def CheckKind.code : CheckKind → Nat
  | .outputVector => 1 | .use => 2 | .row => 3 | .column => 4 | .redundant => 5

/-- Whether the two sides differ as R157 and R159 say, and whether the comparison is skipped. -/
def compareSides (tol : Nat) (c : Comparison) : Bool × Bool :=
  if c.integer || c.kind = .redundant then (c.expected != c.computed, false)
  else
    let x := num32 c.expected
    let y := num32 c.computed
    if x.isNan || x.isInf || y.isNan || y.isInf then (false, true)
    else (((num32 c.gross).scale (-(tol : Int))).lt ((y.add x.neg).abs), false)

/-- The lower-numbered quarter of a redundant pair: Q0 with Q3 and Q1 with Q2 in APART, the upper pair with the lower in
PAIR (R159, R160). -/
def MatmulOp.pairQuarter (op : MatmulOp) (q : Nat) : Nat :=
  if op.arrayMode = 0 then min (q % 4) (3 - q % 4) else q % 2

/-- A comparison of an operation: whether it is an integer one follows from the formats (R157), and the quarter that a
redundant one names is the lower of its pair (Table 4-7). -/
def MatmulOp.comparison (op : MatmulOp) (c : Comparison) : Comparison :=
  { c with integer := op.fmtStream ≤ 1, quarter := if c.kind = .redundant then op.pairQuarter c.quarter else c.quarter }

/-- Whether an operation makes comparisons of a kind (Table 4-6, R159). -/
def MatmulOp.compares (op : MatmulOp) (k : CheckKind) : Bool :=
  match k with
  | .outputVector | .use => op.stationary ≠ 2
  | .row | .column => op.stationary = 2
  | .redundant => op.redundant

/-- Sub-array of a quarter. -/
def MatmulOp.subOf (op : MatmulOp) (quarter : Nat) : Nat :=
  match op.arrayMode with
  | 0 => quarter
  | 1 => quarter / 2
  | _ => 0

/-- The regions that received the failed outputs of a quarter (R158): for an output vector those of the last vector that
was complete; for a use, row or column check those of the last whole use, which the check follows by D + 8 steps, or of
the running one where there is none before it. -/
def failedRegions (op : MatmulOp) (m : MatmulRun) (c : Comparison) : List Nat :=
  let mine := m.wrote.filter fun w => w.2.1 = op.subOf c.quarter
  let at_ (use : Nat) : List Nat := ((mine.filter (·.1 = use)).map (·.2.2)).eraseDups
  if c.kind = .outputVector || c.kind = .redundant then (mine.head?.map fun w => at_ w.1).getD []
  else if (at_ (m.uses - 1)).isEmpty then at_ m.uses else at_ (m.uses - 1)

/-- The mismatch record (Table 4-7). -/
def State.mismatchRecord (s : State) (op : MatmulOp) (loc region passes : Nat) (c : Comparison) : List Byte :=
  let modes := op.arrayMode + 4 * op.stationary + 16 * ofBit op.redundant
  let index := if c.kind = .outputVector || c.kind = .use then 0xFF else c.index
  le 8 s.fst ++ le 8 s.fab.activeLast ++ le 8 s.fab.passCount ++ le 1 (locDie loc) ++ le 1 (locX loc) ++
    le 1 (locY loc) ++ le 1 c.quarter ++ le 1 (CheckKind.code c.kind) ++ le 1 modes ++ le 1 region ++ le 1 index ++
    le 4 c.expected.toNat ++ le 4 c.computed.toNat ++
    le 4 (if c.integer || c.kind = .redundant then 0 else c.gross.toNat) ++ le 4 passes

/-- A failed comparison (R158, R160, R515). -/
def State.mismatch (s : State) (op : MatmulOp) (loc : Nat) (m : MatmulRun) (c : Comparison) : State :=
  let regions := failedRegions op m c
  let e := regions.foldl (fun e g => e.mark (regionKey (locTile loc) g)) s.mxe
  let bump (b : Bool) (v : Nat) : Nat := if b then sat 32 (v + 1) else v
  let passes := sat 32 (e.passMismatches + 1)
  let rec_ := s.mismatchRecord op loc (regions.headD 0) passes c
  let e := { e with vectorMismatches := bump (c.kind = .outputVector || c.kind = .row) e.vectorMismatches
                    useMismatches := bump (c.kind = .use || c.kind = .column) e.useMismatches
                    redundantMismatches := bump (c.kind = .redundant) e.redundantMismatches
                    quadMismatches := e.quadMismatches.modify (locQuad loc) fun v => sat 32 (v + 1)
                    passMismatches := passes
                    record := if e.record.isSome then e.record else some rec_
                    recordsLost := bump e.record.isSome e.recordsLost }
  let rows := s.passRows
  let t := { s with mxe := e }.raiseFor 0x0201 (passEventGroup rows)
    (locY loc + 256 * locX loc + 65536 * locDie loc + 2 ^ 17 * c.quarter + 2 ^ 24 * CheckKind.code c.kind)
    s.fab.activeLast s.fab.passCount
  (t.strike (locQuad loc) .arith (if c.kind = .redundant then 2 else 1)).detect (tileInfo loc
    { source := if c.kind = .redundant then 2 else 1, causeClass := 1, detail := rec_ })

/-- CHECKSUM_COMPARE (R156 to R159). The checksum comparisons of the operation's stationary choice run in CHECKED mode, the
redundant one in a redundant last whatever the mode. -/
def execChecksumCompare (cyc : Nat) (c : Comparison) (s : State) : Host.Outcome State Fault Refusal :=
  match s.fab.desc? c.station, s.fab.image? with
  | some d, some img =>
    match img.operation d with
    | some (.matmul op) =>
      let c := op.comparison c
      let runs := s.fab.state = .running && op.compares c.kind && (c.kind = .redundant || s.mxe.checkMode = 1)
      if !runs then .next s
      else
        let s := s.stamp cyc
        let (bad, skip) := compareSides s.mxe.checkTol c
        if skip then .next { s with mxe := { s.mxe with skipped := sat 32 (s.mxe.skipped + 1) } }
        else if bad then .next (s.mismatch op d.location (s.station c.station).matmul c)
        else .next s
    | _ => .next s
  | _, _ => .next s

/-- MXE_REC_RELEASE (R160). -/
def execMxeRecRelease (value : Nat) (s : State) : Host.Outcome State Fault Refusal :=
  if value = 1 then .next ({ s with mxe := { s.mxe with record := none } }.status Status.OK)
  else .next (s.status Status.VALUE_RANGE)

end Sys2Proof.Machine
end

