-- ==== Sys2Proof/Machine/HostLink.lean ====
section
/-! DEFINITION. The host link (chapter 14): windows and translation of an access of host memory (R449 to R452), the
UCIe modules and their credits (R443 to R448), the chain of writes that follow one another (R453, R461), what a
completed or failed access does (R459, Table 14-8), and the link's own commands. -/

namespace Sys2Proof.Machine

/-! ### Accesses -/

/-- Bytes that an access reads or writes. -/
def HostAccess.length (a : HostAccess) : Nat := 64 * a.chunks - a.headSkip - a.tailSkip

/-- First host-link offset that an access touches. -/
def HostAccess.first (a : HostAccess) : Nat := a.offset + a.headSkip

/-- The access that reads or writes bytes from an offset on, within 64 chunks. -/
def hostAccess (die : Nat) (write : Bool) (at_ n : Nat) (bytes : List Byte) (req : HostReq) : HostAccess :=
  let base := at_ / 64 * 64
  let chunks := ceilDiv (at_ + n - base) 64
  { die := die, write := write, offset := base, chunks := chunks, headSkip := at_ - base
    tailSkip := base + 64 * chunks - (at_ + n), bytes := bytes, req := req }

/-- Writes of bytes from an offset on, cut where an offset is a multiple of 4,096, so that each has at most 64
chunks (R446) and lies in one page of 2 MiB. -/
def hostWrites (die : Nat) (req : HostReq) : Nat → Nat → List Byte → List HostAccess
  | 0, _, _ => []
  | fuel + 1, at_, bs =>
    if bs.isEmpty then []
    else
      let n := min bs.length (4096 - at_ % 4096)
      hostAccess die true at_ n (bs.take n) req :: hostWrites die req fuel (at_ + n) (bs.drop n)

/-! ### Windows (R449, R450, R627) -/

/-- Base and size of a window. -/
def State.window (s : State) (w : Nat) : Nat × Nat := (s.reg (Reg.HLK_WIN_BASE + w), s.reg (Reg.HLK_WIN_SIZE + w))

/-- The window that holds an access whole. -/
def State.windowOf (s : State) (a : HostAccess) : Option Nat :=
  (List.range 4).find? fun w =>
    let (base, size) := s.window w
    base ≤ a.first && a.first + a.length ≤ base + size && size != 0

/-- Offset of completion ring `g` in the completion window. -/
def State.compBase (s : State) (g : Nat) : Nat :=
  s.reg Reg.SRV_COMP_BASE + g * (128 + 64 * s.reg Reg.SRV_COMP_UNITS)

/-- Whether an offset of the completion window is the CONSUMER field of a configured ring. -/
def State.consumerField (s : State) (o : Nat) : Bool :=
  (s.reg Reg.SRV_COMP_UNITS != 0 && (List.range 32).any fun g => o = s.compBase g + 0x40) ||
    (s.reg Reg.SRV_EVENT_ENTRIES != 0 && o = s.reg Reg.SRV_EVENT_BASE + 0x40) ||
    s.srv.streams.any fun e => o = e.2.outOffset + 0x40

/-- Whether a window allows an access (Table 14-5). -/
def State.windowAllows (s : State) (w : Nat) (a : HostAccess) : Bool :=
  let o := a.first - (s.window w).1
  match w, a.write with
  | 0, true =>
    s.reg Reg.SRV_INTAKE_ENTRIES != 0 && o = s.reg Reg.SRV_INTAKE_BASE + 0x40 && a.length = 4
  | 1, false => s.consumerField (a.offset - (s.window 1).1) && a.chunks = 1
  | 3, true => false
  | _, _ => true

/-! ### Messages and flits (R445, R446) -/

/-- A message: the fields of its header (Table 14-3) and its data chunks. -/
structure HostMessage where
  op : Nat
  status : Nat := 0
  tag : Nat
  chunks : Nat
  flags : Nat := 0
  headSkip : Nat := 0
  tailSkip : Nat := 0
  address : Nat
  data : List (List Byte) := []
  deriving DecidableEq, Repr, Inhabited

/-- The 16 bytes of a message header (Table 14-3). -/
def HostMessage.header (m : HostMessage) : List Byte :=
  le 1 m.op ++ le 1 m.status ++ le 2 m.tag ++ le 1 m.chunks ++ le 1 m.flags ++ le 1 m.headSkip ++ le 1 m.tailSkip ++
    le 8 m.address

/-- Headers and data chunks laid out, three of each to a flit, in 240 bytes: header slots at 00h, 10h and 20h, chunks at
30h, 70h and B0h, with zeros where there is none (R445). -/
def layFlits (headers chunks : List (List Byte)) : List (List Byte) :=
  (List.range (max (ceilDiv headers.length 3) (ceilDiv chunks.length 3))).map fun k =>
    ((List.range 3).flatMap fun j => padTo ((headers.getD (3 * k + j) []).take 16) 16) ++
      (List.range 3).flatMap fun j => padTo ((chunks.getD (3 * k + j) []).take 64) 64

/-- The flits of a message. That each message begins a flit, with the other header slots idle, is a DESIGN CHOICE, safe (log
entry 45): R445 lets up to three share one. -/
def HostMessage.flits (m : HostMessage) : List (List Byte) := layFlits [m.header] m.data

/-- Chunks of a byte string. -/
def dataChunks (n : Nat) (bs : List Byte) : List (List Byte) := (List.range n).map fun k => padTo (slice bs (64 * k) 64) 64

/-- MEM_WRITE and MEM_READ (Table 14-4). The bytes that HEAD_SKIP and TAIL_SKIP leave out are sent as zeros. -/
def HostOutstanding.message (o : HostOutstanding) : HostMessage :=
  let a := o.access
  if a.write then
    { op := 1, tag := o.tag, chunks := a.chunks, headSkip := a.headSkip, tailSkip := a.tailSkip, address := o.address
      data := dataChunks a.chunks (List.replicate a.headSkip 0 ++ a.bytes) }
  else { op := 2, tag := o.tag, chunks := a.chunks, address := o.address }

/-- READ_DATA and WRITE_ACK to the host: one answer, which is the FINAL one. -/
def WinReply.message (r : WinReply) : HostMessage :=
  let n := r.data.length / 64
  if r.isRead then
    { op := 3, status := r.status, tag := r.tag, chunks := n, flags := 2, address := r.offset, data := dataChunks n r.data }
  else { op := 4, status := r.status, tag := r.tag, chunks := 0, address := r.offset }

/-! ### Modules and credits (R446 to R448, R628) -/

def State.module (s : State) (m : Nat) : UcieModule := lget s.hlk.modules m

def State.modModule (s : State) (m : Nat) (f : UcieModule → UcieModule) : State :=
  { s with hlk := { s.hlk with modules := lmod s.hlk.modules m f } }

/-- The module that an access takes; none while the link is down. -/
def HostLink.moduleFor (h : HostLink) (die offset : Nat) : Option Nat :=
  let b := offset / 4096 % 2
  [2 * die + b, 2 * die + 1 - b, 2 * (1 - die) + b, 2 * (1 - die) + 1 - b].find? fun m =>
    (lget h.modules m).state = .active

/-- The lowest TAG that is free on a module. -/
def UcieModule.freeTag (u : UcieModule) : Option Nat :=
  (List.range 1024).find? fun t => !(u.outstanding.any (·.tag = t))

/-- Whether a message of `chunks` data chunks can be sent. -/
def UcieModule.canSend (u : UcieModule) (chunks : Nat) : Bool := 1 ≤ u.headerCredits && chunks ≤ u.chunkCredits

/-- Send a request at an HPA, or let it wait for credits or a TAG; none while the link is down. -/
def HostLink.send (h : HostLink) (now : Nat) (o : HostOutstanding) : Option HostLink :=
  (h.moduleFor o.access.die o.access.offset).map fun m =>
    let u := lget h.modules m
    let chunks := if o.access.write then o.access.chunks else 0
    match u.freeTag, u.canSend chunks with
    | some t, true =>
      let x : HostOutstanding := { o with tag := t, sentAt := now }
      let v : UcieModule :=
        { u with outstanding := u.outstanding ++ [x], headerCredits := u.headerCredits - 1
                 chunkCredits := u.chunkCredits - chunks, txBytes := sat 64 (u.txBytes + 64 * chunks)
                 txFlits := x.message.flits }
      { h with modules := h.modules.set m v }
    | _, _ => { h with waitCredit := h.waitCredit ++ [o] }

/-! ### What becomes of an access -/

/-- A seal that is not yet committed is given up: its step runs again (R353, R461). -/
def State.unseal (s : State) (step : Nat) : State :=
  match s.srv.sealing.find? (·.step = step) with
  | none => s
  | some x =>
    let comp := x.saved.foldl (fun (m : KMap CompRing) (e : Nat × Nat) =>
      kset m e.1 { kgetD m e.1 {} with producer := e.2 }) s.srv.comp
    let mine (a : HostAccess) : Bool := match a.req with
      | .seal k _ => k = step
      | _ => false
    let t := { s with srv := { s.srv with sealing := s.srv.sealing.filter (·.step != step), comp := comp }
                      hlk := { s.hlk with ordered := s.hlk.ordered.filter fun a => !mine a, orderedBusy := false } }
    t.rerunOwn step

/-- An event record could not be written: it has reached the log only (R354). -/
def State.loseEvent (s : State) : State :=
  let v := s.srv
  { s with srv := { v with eventQueue := v.eventQueue.drop 1, eventsPending := sat 32 (v.eventsPending + 1)
                           eventsLost := sat 32 (v.eventsLost + 1) }
           hlk := { s.hlk with orderedBusy := false } }

/-- A station's write is over. -/
def State.stationWrote (s : State) (i : Nat) : State := s.modStation i fun x => { x with writes := x.writes - 1 }

/-- A failed access (Table 14-8, R461) of a requester other than the translation. -/
def State.hostFailed (s : State) (a : HostAccess) : State :=
  let again : State := { s with hlk := { s.hlk with orderedBusy := false } }
  match a.req with
  | .seal step _ =>
    match s.srv.sealing.find? (·.step = step) with
    | some x => if x.committed then again else s.unseal step
    | none => again
  | .notice | .zeroing | .intakeConsumer => again
  | .event _ => s.loseEvent
  | .output step i =>
    let t := (s.stationWrote i).progress
    match s.planner.running with
    | some r => if r.entry.step = step then t.breakPass else t
    | none => t
  | .window i =>
    if a.write then (s.stationWrote i).progress
    else ((s.modStation i fun x => { x with reads := arrive a.offset [] true x.reads }).portEmit i).progress
  | .translation _ _ => s

/-- An access is refused: nothing is sent, and HLK_ACCESS is raised with the window (R450, R451). -/
def State.refuseAccess (s : State) (a : HostAccess) : State :=
  let t := { s with hlk := { s.hlk with accessFaults := sat 32 (s.hlk.accessFaults + 1) } }
  t.raise 0x0B06 ((s.windowOf a).getD 0) a.offset 0

/-- A refused access has failed. -/
def State.hostRefused (s : State) (a : HostAccess) : State := (s.refuseAccess a).hostFailed a

/-- A read of an index field of a ring, whose value the boundary brings (log entry 9): refused where its window does not
allow it (R449, R450, R627), and then `f` is not done. -/
def State.indexRead (s : State) (w o : Nat) (f : State → State) : State :=
  let a := hostAccess 0 false ((s.window w).1 + o) 4 [] .notice
  if s.windowOf a = some w && s.windowAllows w a then f s else s.refuseAccess a

/-- The cached translation of an entry on a die, and the cache with it used last. -/
def attHit (cache : List AttEntry) (entry : Nat) : Option (AttEntry × List AttEntry) :=
  (cache.find? (·.entry = entry)).map fun e => (e, e :: cache.filter (·.entry != entry))

def HostLink.att (h : HostLink) (die : Nat) : List AttEntry := if die = 0 then h.att0 else h.att1
def HostLink.setAtt (h : HostLink) (die : Nat) (c : List AttEntry) : HostLink :=
  if die = 0 then { h with att0 := c } else { h with att1 := c }

/-- HPA that an entry gives an offset (R451). -/
def attHpa (bits_ : BitVec 64) (offset : Nat) : Nat := bits bits_.toNat 51 21 * 2 ^ 21 + offset % 2 ^ 21

/-- An access with its translation: sent where the entry allows it. -/
def State.hostTranslated (s : State) (a : HostAccess) (e : BitVec 64) : State :=
  if !bit e.toNat 0 || !bit e.toNat (if a.write then 2 else 1) then s.hostRefused a
  else match s.hlk.send s.clock { tag := 0, address := attHpa e a.offset, access := a } with
    | some h => { s with hlk := h }
    | none => s.hostFailed a

/-- An access within its window is translated, by the cache or after a read of the table (R452). -/
def State.hostTranslate (s : State) (a : HostAccess) : State :=
  let i := a.offset / 2 ^ 21
  if s.reg Reg.HLK_ATT_ENTRIES ≤ i then s.hostRefused a
  else match attHit (s.hlk.att a.die) i with
  | some (e, c) => { s with hlk := s.hlk.setAtt a.die c }.hostTranslated a e.bits
  | none =>
    if s.hlk.waitTranslation.any fun x => x.die = a.die && x.offset / 2 ^ 21 = i then
      { s with hlk := { s.hlk with waitTranslation := s.hlk.waitTranslation ++ [a] } }
    else
      let r : HostAccess := { die := a.die, write := false, offset := a.offset, chunks := 1, headSkip := 0
                              tailSkip := 0, bytes := [], req := .translation a.die i }
      let entryAt := s.reg Reg.HLK_ATT_BASE + 8 * i
      match s.hlk.send s.clock { tag := 0, address := entryAt / 64 * 64, access := r } with
      | some h => { s with hlk := { h with waitTranslation := h.waitTranslation ++ [a]
                                           attMisses := sat 64 (h.attMisses + 1) } }
      | none => s.hostFailed a

/-- An access of host memory begins. -/
def State.hostIssue (s : State) (a : HostAccess) : State :=
  if a.write && s.pwr.presenceBroken then s
  else match s.windowOf a with
  | some w => if s.windowAllows w a then s.hostTranslate a else s.hostRefused a
  | none => s.hostRefused a

/-! ### Writes that follow one another (R346, R354, R453, R461) -/

/-- Offset in host-link space of a place in a window. -/
def State.inWindow (s : State) (w o : Nat) : Nat := (s.window w).1 + o

/-- The record of the oldest event that waits, and the PRODUCER that publishes it. -/
def State.eventWrite (s : State) (e : Event) (index : Bool) : HostAccess :=
  let base := s.inWindow 1 (s.reg Reg.SRV_EVENT_BASE)
  if index then hostAccess 0 true base 4 (le 4 ((s.srv.eventProducer + 1) % 2 ^ 32)) (.event true)
  else hostAccess 0 true (base + 0x80 + s.srv.eventProducer % max 1 (s.reg Reg.SRV_EVENT_ENTRIES) * 32) 32 e.bytes
    (.event false)

/-- The next write of the chain is issued, where none is outstanding: held writes first, then events. -/
def State.pump (s : State) : State :=
  if s.hlk.orderedBusy || !s.hlk.up then s
  else match s.hlk.ordered, s.srv.eventQueue with
    | a :: _, _ => { s with hlk := { s.hlk with orderedBusy := true } }.hostIssue a
    | [], e :: _ => { s with hlk := { s.hlk with orderedBusy := true } }.hostIssue (s.eventWrite e false)
    | [], [] => s

/-- Writes join the chain. -/
def State.chain (s : State) (ws : List HostAccess) : State :=
  { s with hlk := { s.hlk with ordered := s.hlk.ordered ++ ws } }

/-- The head of the chain is acknowledged. -/
def State.chainDone (s : State) : State :=
  { s with hlk := { s.hlk with ordered := s.hlk.ordered.drop 1, orderedBusy := false } }

/-- The write of CONSUMER of the intake ring (R337, R627). -/
def State.consumerWrite (s : State) : HostAccess :=
  hostAccess 0 true (s.inWindow 0 (s.reg Reg.SRV_INTAKE_BASE + 0x40)) 4 (le 4 s.srv.intake.consumer) .intakeConsumer

/-- The intake read is over (R332); CONSUMER is written when no copy of it is under way (R337). -/
def State.endRead (s : State) : State :=
  let k := s.srv.intake
  let due := k.copyDue && k.copying.isEmpty
  let t := { s with srv := { s.srv with intake := { k with left := 0, copyDue := k.copyDue && !due } } }
  if due then t.chain [t.consumerWrite] else t

/-- Entry number `i` of a chunk of the translation table. -/
def attEntry (data : List Byte) (address i base : Nat) : BitVec 64 :=
  BitVec.ofNat 64 (field data (base + 8 * i - address) 8)

/-- A translation has come, or has failed: the accesses that waited for it go on. Only a VALID entry is cached. -/
def State.translationDone (s : State) (die entry : Nat) (e : BitVec 64) : State :=
  let mine (a : HostAccess) : Bool := a.die = die && a.offset / 2 ^ 21 = entry
  let ws := s.hlk.waitTranslation.filter mine
  let c := s.hlk.att die
  let c := if bit e.toNat 0 then { entry := entry, bits := e } :: c.take 1023 else c
  let t := { s with hlk := { s.hlk with waitTranslation := s.hlk.waitTranslation.filter fun a => !mine a
                                        }.setAtt die c }
  ws.foldl (fun t a => t.hostTranslated a e) t

/-- A completed access. -/
def State.hostDone (s : State) (a : HostAccess) (address : Nat) (data : List Byte) : State :=
  match a.req with
  | .seal step index =>
    let t := s.chainDone
    if index then
      { t with srv := { t.srv with sealing := t.srv.sealing.map fun x =>
          if x.step = step then { x with committed := true } else x } }
    else t
  | .notice | .zeroing | .intakeConsumer => s.chainDone
  | .event false =>
    match s.srv.eventQueue with
    | e :: _ => s.hostIssue (s.eventWrite e true)
    | [] => { s with hlk := { s.hlk with orderedBusy := false } }
  | .event true =>
    { s with srv := { s.srv with eventProducer := (s.srv.eventProducer + 1) % 2 ^ 32
                                 eventQueue := s.srv.eventQueue.drop 1 }
             hlk := { s.hlk with orderedBusy := false } }
  | .output _ i => (s.stationWrote i).progress
  | .window i =>
    if a.write then (s.stationWrote i).progress
    else ((s.modStation i fun x => { x with reads := arrive a.offset data false x.reads }).portEmit i).progress
  | .translation die entry =>
    s.translationDone die entry (attEntry data address entry (s.reg Reg.HLK_ATT_BASE))

/-- A failed access of any requester. -/
def State.hostLost (s : State) (a : HostAccess) : State :=
  match a.req with
  | .translation die entry => s.translationDone die entry 0
  | _ => s.hostFailed a

/-! ### Answers (R446, R459) -/

/-- A message of the host leaves the module's buffers, and its credits go back with a CREDIT message, which takes none
itself: DEDUCED, unsafe (log entry 49). -/
def UcieModule.took (u : UcieModule) (chunks : Nat) : UcieModule := { u with creditSent := (1, chunks) }

/-- The CREDIT message that a module sent last (Tables 14-3, 14-4). -/
def UcieModule.creditMessage (u : UcieModule) : HostMessage :=
  { op := 8, tag := 0, chunks := 0, address := u.creditSent.1 + 2 ^ 16 * u.creditSent.2 }

/-- Data of an answer that R446 does not allow: no whole chunks, or not those that are still to come. -/
def HostOutstanding.badData (o : HostOutstanding) (final : Bool) (n : Nat) : Bool :=
  let total := o.received.length + n
  n = 0 || n % 64 != 0 || (if final then total != 64 * o.access.chunks else 64 * o.access.chunks ≤ total)

/-- An outstanding request of a module by TAG. -/
def UcieModule.find (u : UcieModule) (tag : Nat) (write : Bool) : Option HostOutstanding :=
  u.outstanding.find? fun o => o.tag = tag && o.access.write == write

/-- The request is no longer outstanding. -/
def UcieModule.close (u : UcieModule) (tag : Nat) : UcieModule :=
  { u with outstanding := u.outstanding.filter (·.tag != tag) }

/-! ### The link and its modules go up and down (R444, R456, R458, R460) -/

/-- The store operation in progress ends. -/
def State.finishOp (s : State) (result : Nat) : State :=
  { s with store := { s.store with opState := if result = Status.OK then .done else .failed, opResult := result } }

/-- An install, repair or adapter install cannot read its bundle (Table 9-10). -/
def State.loseBundle (s : State) : State :=
  if s.store.opState = .running && (s.store.opCmd = 1 || s.store.opCmd = 3 || s.store.opCmd = 5) then
    s.finishOp 0x0108
  else s

/-- The link has gone down: accesses that wait fail, a store operation that reads a bundle ends, and seals that are not
committed are given up (R323, R353, R460). -/
def State.linkDown (s : State) : State :=
  let t := { s with hlk := { s.hlk with up := false, orderedBusy := false, waitTranslation := [], waitCredit := [] } }
  let t := (s.hlk.waitCredit.map (·.access) ++ s.hlk.waitTranslation).foldl State.hostLost t
  let t := (t.srv.sealing.filter fun x => !x.committed).foldl (fun t x => t.unseal x.step) t
  let t := t.srv.eventQueue.foldl (fun t _ => t.loseEvent) t
  t.loseBundle.endRead.raise 0x0B03 0 0 0

/-- Whether a write is one of a seal. -/
def HostAccess.ofSeal (a : HostAccess) : Bool := match a.req with
  | .seal _ _ => true
  | _ => false

/-- Writes held while the link was down: those of seals go first, then the others in order (R461). -/
def heldOrder (ws : List HostAccess) : List HostAccess := ws.filter HostAccess.ofSeal ++ ws.filter fun a => !a.ofSeal

/-- The link's state follows its modules. -/
def State.linkState (s : State) : State :=
  let up := s.hlk.modules.any fun u => u.state = .active
  if up && !s.hlk.up then
    ({ s with hlk := { s.hlk with up := true, ordered := heldOrder s.hlk.ordered } }.raise 0x0B04 0 0 0).pump
  else if !up && s.hlk.up then s.linkDown
  else s

/-- The requests of a module that goes DOWN or OFF fail (R458). -/
def State.failModule (s : State) (m : Nat) (next : UcieState) : State :=
  let u := s.module m
  let t := s.modModule m fun x => { x with state := next, speed := 0, outstanding := [], waitReplies := []
                                           headerCredits := 256, chunkCredits := 2048, slow := false, retrainFails := []
                                           downSince := s.uptime }
  u.outstanding.foldl (fun t o => t.hostLost o.access) t

/-- A module goes DOWN. -/
def State.moduleDown (s : State) (m : Nat) : State :=
  ((s.failModule m .down).raise 0x0B01 m 0 0).linkState.pump

/-- A protocol error on a module (R456). -/
def State.protocolError (s : State) (m : Nat) : State :=
  if (s.module m).state = .off then s else (s.raise 0x0B07 m 0 0).moduleDown m

/-! ### Answers of the host -/

/-- READ_DATA (R446, R459). An answer to no outstanding request is discarded; one whose data does not fit its request
breaks the protocol (R456). -/
def execReadData (cyc module tag status : Nat) (poison final : Bool) (data : List Byte) (s : State) :
    Host.Outcome State Fault Refusal :=
  match (s.module module).find tag false with
  | none => .next s
  | some o =>
    let t := (s.stamp cyc).modModule module fun u =>
      { u.took (data.length / 64) with rxBytes := sat 64 (u.rxBytes + data.length) }
    if status ≠ 0 || poison then
      let t := t.modModule module fun u => u.close tag
      let t := { t with hlk := { t.hlk with readErrors := sat 32 (t.hlk.readErrors + 1) } }
      .next (t.hostLost o.access).pump
    else if o.badData final data.length then .next (t.protocolError module)
    else if final then
      .next ((t.modModule module fun u => u.close tag).hostDone o.access o.address (o.received ++ data)).pump
    else
      .next (t.modModule module fun u => { u with outstanding := u.outstanding.map fun x =>
        if x.tag = tag then { x with received := x.received ++ data } else x })

/-- WRITE_ACK (R446, R459). -/
def execWriteAck (cyc module tag status : Nat) (s : State) : Host.Outcome State Fault Refusal :=
  match (s.module module).find tag true with
  | none => .next s
  | some o =>
    let t := (s.stamp cyc).modModule module fun u => (u.close tag).took 0
    if status = 0 then .next (t.hostDone o.access o.address []).pump
    else
      let t := { t with hlk := { t.hlk with writeErrors := sat 32 (t.hlk.writeErrors + 1) } }
      .next (t.hostLost o.access).pump

/-- Whether a request has been out for as many microseconds as a timeout allows. -/
def State.hostLate (s : State) (o : HostOutstanding) (micros : Nat) : Bool := o.sentAt + 1250 * micros ≤ s.clock

/-- HOST_READ_TIMEOUT (R459). -/
def execHostReadTimeout (cyc module tag : Nat) (s : State) : Host.Outcome State Fault Refusal :=
  match (s.module module).find tag false with
  | none => .next s
  | some o =>
    let t := s.stamp cyc
    if !t.hostLate o (s.reg Reg.HLK_READ_TIMEOUT) then .next s
    else
      let t := t.modModule module fun u => u.close tag
      let t := { t with hlk := { t.hlk with readErrors := sat 32 (t.hlk.readErrors + 1) } }
      .next ((t.raise 0x0B05 module o.access.offset 0).hostLost o.access).pump

/-- HOST_WRITE_TIMEOUT (R459). -/
def execHostWriteTimeout (cyc module tag : Nat) (s : State) : Host.Outcome State Fault Refusal :=
  match (s.module module).find tag true with
  | none => .next s
  | some o =>
    let t := s.stamp cyc
    if !t.hostLate o (s.reg Reg.HLK_WRITE_TIMEOUT) then .next s
    else
      let t := t.modModule module fun u => u.close tag
      let t := { t with hlk := { t.hlk with writeErrors := sat 32 (t.hlk.writeErrors + 1) } }
      .next ((t.raise 0x0B05 module o.access.offset 0).hostLost o.access).pump

/-! ### Answers to the host -/

/-- Chunks of an answer. -/
def WinReply.chunks (r : WinReply) : Nat := r.data.length / 64

/-- An answer is sent, or waits for credits (R447). -/
def UcieModule.answer (u : UcieModule) (r : WinReply) : UcieModule :=
  if u.waitReplies.isEmpty && u.canSend r.chunks then
    { u with reply := some r, headerCredits := u.headerCredits - 1, chunkCredits := u.chunkCredits - r.chunks
             txBytes := sat 64 (u.txBytes + r.data.length), txFlits := r.message.flits }
  else { u with waitReplies := u.waitReplies ++ [r] }

/-- Answers that waited go out in order while credits last. -/
def UcieModule.answerMore : Nat → UcieModule → UcieModule
  | 0, u => u
  | f + 1, u =>
    match u.waitReplies with
    | r :: rs => if u.canSend r.chunks then
        UcieModule.answerMore f ({ u with waitReplies := [] }.answer r |> fun v => { v with waitReplies := rs })
      else u
    | [] => u

/-- Requests that waited for credits are sent again in order. -/
def HostLink.sendMore (h : HostLink) (now : Nat) : HostLink :=
  h.waitCredit.foldl (fun g o => (g.send now o).getD g) { h with waitCredit := [] }

/-- CREDIT of the host link (R447): never more than the grant. -/
def execUcieCredit (cyc module headers chunks : Nat) (s : State) : Host.Outcome State Fault Refusal :=
  onUnit (module < 4) (
    let t := (s.stamp cyc).modModule module fun u =>
      UcieModule.answerMore u.waitReplies.length
        { u with headerCredits := min 256 (u.headerCredits + headers)
                 chunkCredits := min 2048 (u.chunkCredits + chunks) }
    { t with hlk := t.hlk.sendMore t.clock })

/-! ### Module states (R443, R444, R456, R458, R460) -/

/-- UCIE_TRAINING_COMPLETE (R443, R444): a module that fails at 32 GT/s trains once at 16 GT/s. -/
def execUcieTrainingComplete (cyc module : Nat) (success : Bool) (speed repaired : Nat) (s : State) :
    Host.Outcome State Fault Refusal :=
  onUnit (module < 4) (
    if (s.module module).state ≠ .training then s
    else
      let s := s.stamp cyc
      if success && (speed = 32 || speed = 16) then
        ((s.modModule module fun u => { u with state := .active, speed := speed, repaired := sat 8 repaired }).raise
          0x0B02 module 0 0).linkState
      else if speed = 32 && !(s.module module).slow then s.modModule module fun u => { u with slow := true }
      else s.moduleDown module)

/-- UCIE_TRAINING_RETRY (R444): 160 slots after the module went DOWN. -/
def execUcieTrainingRetry (module : Nat) (s : State) : Host.Outcome State Fault Refusal :=
  onUnit (module < 4) (
    if (s.module module).state = .down && (s.module module).downSince + 160 ≤ s.uptime then
      s.modModule module fun u => { u with state := .training, retrains := sat 32 (u.retrains + 1) }
    else s)

/-- UCIE_CRC_ERROR (R458). -/
def execUcieCrcError (cyc module : Nat) (recovered : Bool) (s : State) : Host.Outcome State Fault Refusal :=
  onUnit (module < 4) (
    if (s.module module).state ≠ .active then s
    else
      let t := (s.stamp cyc).modModule module fun u =>
        { u with crcErrors := sat 32 (u.crcErrors + 1), replays := sat 32 (u.replays + 1) }
      if recovered then t
      else
        ((t.modModule module fun u => { u with state := .retrain, retrains := sat 32 (u.retrains + 1) }).raise
          0x0B08 module 0 0).linkState)

/-- UCIE_RETRAIN_COMPLETE (R458): flits in flight survive; after the third failure within 1 s the module is DOWN,
before it another retraining begins. That a retraining may replace lanes (Table 14-1) and HLK_REPAIRED_LANES shows it is
DEDUCED, unsafe (log entry 49). -/
def execUcieRetrainComplete (cyc module : Nat) (success : Bool) (repaired : Nat) (s : State) :
    Host.Outcome State Fault Refusal :=
  onUnit (module < 4) (
    if (s.module module).state ≠ .retrain then s
    else
      let s := s.stamp cyc
      if success then (s.modModule module fun u => { u with state := .active, repaired := sat 8 repaired }).linkState
      else
        let fails := (s.clock :: (s.module module).retrainFails).filter fun x => s.clock < x + 1250000000
        if 3 ≤ fails.length then s.moduleDown module
        else s.modModule module fun u => { u with retrains := sat 32 (u.retrains + 1), retrainFails := fails })

/-- UCIE_PROTOCOL_ERROR. -/
def execUcieProtocolError (cyc module : Nat) (s : State) : Host.Outcome State Fault Refusal :=
  onUnit (module < 4) ((s.stamp cyc).protocolError module)

/-- HOST_DIE_RESET (Table 14-9): every module that is not OFF goes DOWN. -/
def execHostDieReset (cyc : Nat) (s : State) : Host.Outcome State Fault Refusal :=
  .next ((List.range 4).foldl (fun t m =>
    if (t.module m).state = .off || (t.module m).state = .down then t else t.moduleDown m) (s.stamp cyc))

/-- The HL domain switches off (Table 14-9): every module is OFF. -/
def State.linkOff (s : State) : State :=
  ((List.range 4).foldl (fun t m => t.failModule m .off) s).linkState

/-- The HL domain is ON: every module trains (R444). -/
def State.linkOn (s : State) : State :=
  { s with hlk := { s.hlk with modules := s.hlk.modules.map fun u =>
      if u.state = .off then { u with state := .training } else u } }

/-! ### Apertures (R456, Table 14-7) -/

/-- Byte `i` of the readable histogram bank (Table 3-10). -/
def HistBank.byte (b : HistBank) (i : Nat) : Byte :=
  let mask := (b.samples.map fun e => 2 ^ e.1).sum
  if i < 64 then
    (le 4 b.seq ++ le 4 b.interval ++ le 8 b.start ++ le 8 b.stop ++ le 1 mask ++ le 39 0).getD i 0
  else
    let n := (i - 64) / 655424
    let o := (i - 64) % 655424
    if o < 64 then (le 8 (kgetD b.lastIds n 0) ++ le 4 (kgetD b.samples n 0) ++ le 52 0).getD o 0
    else
      let q := (o - 64) / 40
      let c := (o - 64) % 40
      (le 4 (kgetD b.counts (histKey n q (c / 4)) 0)).getD (c % 4) 0

/-- A slot of the dictionary window as its 4,096 bytes (R457), and back. -/
def DictSlot.bytes (d : DictSlot) : List Byte :=
  le 4 d.seq ++ le 4 d.doneSeq ++ padTo (d.request.take 2040) 2040 ++ padTo (d.response.take 2048) 2048

def DictSlot.ofBytes (b : List Byte) : DictSlot :=
  { seq := field b 0 4, doneSeq := field b 4 4, request := slice b 8 2040, response := slice b 0x800 2048 }

/-- The telemetry sequence. -/
def State.telemetry (s : State) : List Byte :=
  padTo (le 4 (s.fab.histRead.map (·.seq) |>.getD 0) ++ le 1 (ofBit s.fab.snapshot.isSome) ++
    le 1 (ofBit s.mxe.record.isSome)) 64

/-- `n` bytes of an aperture; none where they do not lie within one range of Table 14-7. -/
def State.aperture (s : State) (o n : Nat) : Option (List Byte) :=
  let within (lo size : Nat) : Bool := lo ≤ o && o + n ≤ lo + size
  if within 0 0x10000 then
    some ((List.range n).map fun i => ((lget s.hlk.slots ((o + i) / 4096)).bytes).getD ((o + i) % 4096) 0)
  else if within 0x1000000 0x300000 then
    some ((List.range n).map fun i =>
      let j := o + i - 0x1000000
      match s.fab.histRead with
      | some b => if j < 2621760 then b.byte j else 0
      | none => 0)
  else if within 0x1300000 0x21000 then some (slice (s.fab.snapshot.getD []) (o - 0x1300000) n)
  else if within 0x1340000 0x40 then some (slice (s.mxe.record.getD []) (o - 0x1340000) n)
  else if within 0x1341000 0x20 then some (slice s.fab.loadFault (o - 0x1341000) n)
  else if within 0x1342000 0x800 then some (slice (s.srv.log.flatMap Event.bytes) (o - 0x1342000) n)
  else if within 0x13F0000 0x40 then some (slice s.telemetry (o - 0x13F0000) n)
  else none

/-- A refused access of an aperture. -/
def State.apertureFault (s : State) (m offset : Nat) (r : WinReply) : State :=
  let t := { s with hlk := { s.hlk with accessFaults := sat 32 (s.hlk.accessFaults + 1) } }
  (t.modModule m fun u => u.answer { r with status := 2, data := [] }).raise 0x0B06 m offset 0

/-- WIN_WRITE (R446, R456). -/
def execWinWrite (cyc module tag offset headSkip tailSkip : Nat) (data : List Byte) (s : State) :
    Host.Outcome State Fault Refusal :=
  onUnit (module < 4) (
    if (s.module module).state ≠ .active then s
    else
      let s := s.stamp cyc
      if offset % 64 ≠ 0 || 1024 ≤ tag || 64 ≤ headSkip || 64 ≤ tailSkip || data.length ≠ 64 then
        s.protocolError module
      else
        let s := s.modModule module fun u => { u.took 1 with rxBytes := sat 64 (u.rxBytes + 64) }
        let r : WinReply := { tag := tag, isRead := false, status := 0, data := [], offset := offset }
        if offset < 0x10000 then
          let part := (data.take (64 - tailSkip)).drop headSkip
          let slots := lmod s.hlk.slots (offset / 4096) fun d =>
            DictSlot.ofBytes (splice d.bytes (offset % 4096 + headSkip) part)
          { s with hlk := { s.hlk with slots := slots } }.modModule module fun u => u.answer r
        else s.apertureFault module offset r)

/-- WIN_READ (R446, R456). -/
def execWinRead (cyc module tag offset chunks : Nat) (s : State) : Host.Outcome State Fault Refusal :=
  onUnit (module < 4) (
    if (s.module module).state ≠ .active then s
    else
      let s := s.stamp cyc
      if offset % 64 ≠ 0 || 1024 ≤ tag || chunks = 0 || 64 < chunks then s.protocolError module
      else
        let s := s.modModule module fun u => u.took 0
        let r : WinReply := { tag := tag, isRead := true, status := 0, data := [], offset := offset }
        match s.aperture offset (64 * chunks) with
        | some b => s.modModule module fun u => u.answer { r with data := b }
        | none => s.apertureFault module offset r)

/-! ### Invalidation (R452) -/

/-- Drop the cached entries of a window, or all (FFh). -/
def State.attDrop (s : State) (w : Nat) : State :=
  let keep (e : AttEntry) : Bool :=
    if w = 0xFF then false
    else
      let (base, size) := s.window w
      !(base ≤ e.entry * 2 ^ 21 && e.entry * 2 ^ 21 < base + size)
  let old (o : HostOutstanding) : HostOutstanding := { o with oldTranslation := true }
  { s with hlk := { s.hlk with
      att0 := s.hlk.att0.filter keep
      att1 := s.hlk.att1.filter keep
      invPending := s.hlk.invPending + 1
      modules := s.hlk.modules.map fun u => { u with outstanding := u.outstanding.map old }
      waitCredit := s.hlk.waitCredit.map old } }

/-- ATT_INVALIDATE. -/
def execAttInvalidate (value : Nat) (s : State) : Host.Outcome State Fault Refusal :=
  if value ≤ 3 || value = 0xFF then .next (((s.attDrop value).setReg Reg.HLK_ATT_INVALIDATE value).status Status.OK)
  else .next (s.status Status.VALUE_RANGE)

/-- Whether an access translated before an invalidation is outstanding. -/
def HostLink.oldOut (h : HostLink) : Bool :=
  h.waitCredit.any (·.oldTranslation) || h.modules.any fun u => u.outstanding.any (·.oldTranslation)

/-- ATT_INVALIDATE_COMPLETE. -/
def execAttInvalidateComplete (s : State) : Host.Outcome State Fault Refusal :=
  if s.hlk.invPending = 0 || s.hlk.oldOut then .next s
  else .next { s with hlk := { s.hlk with invPending := s.hlk.invPending - 1, invSeq := (s.hlk.invSeq + 1) % 2 ^ 32 } }

end Sys2Proof.Machine
end

