-- ==== Sys2Proof/Machine/Admission.lean ====
section
/-! DEFINITION. Admission of class 0 (R71 to R74, R625): the two decode templates, the prefill ledger, and what
becomes of streams that lose or regain class 0. -/

namespace Sys2Proof.Machine

/-! ### Costs at the floor (R57, R58, R625) -/

/-- The lasts that one step runs: of the package's lasts that are no safe variant and can be placed under a mask,
those of a PASS_KIND (1 prefill, 2 decode; 3 serves both). -/
def Resident.stepLasts (r : Resident) (mask kind : Nat) : List StagedLast :=
  r.lasts.filter fun l => !l.safe && l.spillPlan = r.plan && bit l.placement mask && (l.passKind = kind || l.passKind = 3)

/-- Rows are ordered by adapter, with rows without one last (FFFFh), then by stream (R340). -/
def Member.before (a b : Member) : Bool :=
  a.adapter < b.adapter || (a.adapter = b.adapter && a.stream < b.stream)

/-- Cost of one pass, none where it falls in no supported cell. -/
def StagedLast.passCost (l : StagedLast) (k rows context runs : Nat) : Option Nat :=
  if l.maxAdapterRuns < runs then none else (l.wcet.at_ rows context).map fun c => costAt k c.2.2

/-- The least of two costs. -/
def least (a b : Option Nat) : Option Nat :=
  match a, b with
  | some x, some y => some (min x y)
  | some x, none => some x
  | none, y => y

/-- The cheapest last pass over the newest members: `hist` holds each member with the least cost before it. -/
def lastPassCost (l : StagedLast) (k : Nat) : Nat → Nat → List Nat → List (Member × Option Nat) → Option Nat
  | _, _, _, [] => none
  | rows, context, adapters, (m, before) :: rest =>
    let rows := rows + 1
    let context := max context m.context
    let adapters := if m.adapter = 0xFFFF || adapters.contains m.adapter then adapters else m.adapter :: adapters
    let here := match l.passCost k rows context adapters.length, before with
      | some c, some b => some (c + b)
      | _, _ => none
    least here (lastPassCost l k rows context adapters rest)

/-- The least summed cost of consecutive passes of a last over ordered members (R58, R625). -/
def splitCost (l : StagedLast) (k : Nat) (ms : List Member) : Option Nat :=
  (ms.foldl (fun (p : List (Member × Option Nat) × Option Nat) m =>
    let hist := (m, p.2) :: p.1
    (hist, lastPassCost l k 0 0 [] hist)) ([], some 0)).2

/-- Sum of costs, none where one is. -/
def sumCosts (cs : List (Option Nat)) : Option Nat :=
  cs.foldl (fun a c => match a, c with
    | some x, some y => some (x + y)
    | _, _ => none) (some 0)

/-- Insert a member in row order. -/
def insertMember (m : Member) : List Member → List Member
  | [] => [m]
  | x :: xs => if m.before x then m :: x :: xs else x :: insertMember m xs

def sortMembers (ms : List Member) : List Member := ms.foldl (fun l m => insertMember m l) []

/-- The masks that the test costs (R625): with SRV_FENCE_RESERVE at 1 and at least seven quadrants, those one
fence away that some image can be placed on; else the working mask. -/
def State.testMasks (s : State) (reserve : Bool) (r : Resident) : List Nat :=
  if reserve && 7 ≤ s.ras.workingQuads then
    (((List.range 8).filter fun q => bit s.mask q).map fun q => s.mask - 2 ^ q).filter fun m =>
      r.lasts.any fun l => bit l.placement m
  else [s.mask]

/-- The worst of a cost over the masks of the test. -/
def worstCost (masks : List Nat) (f : Nat → Option Nat) : Option Nat :=
  masks.foldl (fun a m => match a, f m with
    | some x, some y => some (max x y)
    | _, _ => none) (some 0)

/-- cost_decode of R71: one decode step over members. No member costs nothing. -/
def State.costDecode (s : State) (reserve : Bool) (r : Resident) (ms : List Member) : Option Nat :=
  if ms.isEmpty then some 0
  else worstCost (s.testMasks reserve r) fun m =>
    match r.stepLasts m 2 with
    | [] => none
    | ls => sumCosts (ls.map fun l => splitCost l s.floorK (sortMembers ms))

/-- cost_pf of R71: one chunk of `units` input units, at the context it reaches. -/
def State.costPrefill (s : State) (reserve : Bool) (r : Resident) (units context runs : Nat) : Option Nat :=
  worstCost (s.testMasks reserve r) fun m =>
    match r.stepLasts m 1 with
    | [] => none
    | ls => sumCosts (ls.map fun l => l.passCost s.floorK units context runs)

/-! ### The test (R71) -/

/-- What the test is made for: a stream, its prompt from a context on, and the context it may reach. -/
structure Ask where
  stream : Nat
  adapter : Nat
  prompt : Nat
  context : Nat
  maxContext : Nat
  deriving DecidableEq, Repr, Inhabited

/-- Class-0 streams that a parity's template counts, without one stream; those that have ended since the last frame
boundary still count (R74). -/
def State.templateOf (s : State) (parity except_ : Nat) : List Member :=
  (s.srv.streams.filterMap fun e =>
    if e.2.cls = 0 && e.2.parity = some parity && e.1 != except_ then
      some { stream := e.1, adapter := e.2.adapter, context := e.2.maxContext }
    else none) ++ (s.planner.leaving.filter fun e => e.1 = parity).map (·.2)

/-- cap0 of R71. -/
def State.cap0 (s : State) : Nat :=
  let own := s.reg Reg.SRV_CLASS0_SHARE * 24960
  if s.windowsInForce then min own s.windowCycles else own

/-- Load of a frame's template. -/
def Planner.template (p : Planner) (frame : Nat) : Nat := if frame % 2 = 0 then p.templateEven else p.templateOdd

/-- Prompt chunks of at most 256, each with the context at its end. -/
def chunksOf : Nat → Nat → Nat → List (Nat × Nat)
  | 0, _, _ => []
  | f + 1, left, context =>
    if left = 0 then [] else (min 256 left, context + min 256 left) :: chunksOf f (left - 256) (context + min 256 left)

/-- Place chunks in the earliest frames up to `last` (R71): the plan by frame, and the frame of the last chunk. -/
def placeChunks (cap0 : Nat) (load : Nat → Nat) (last : Nat) : Nat → KMap Nat → List Nat → Option (KMap Nat × Nat)
  | g, plan, [] => some (plan, g)
  | g, plan, c :: cs =>
    match ((List.range (last + 1 - g)).map (g + ·)).find? fun h => load h + kgetD plan h 0 + c ≤ cap0 with
    | some h => placeChunks cap0 load last h (kset plan h (kgetD plan h 0 + c)) cs
    | none => none

/-- What the test yields: the ledger and the template to adopt, and the parity. -/
structure Grant where
  plan : KMap Nat
  load : Nat
  parity : Nat
  deriving DecidableEq, Repr, Inhabited

/-- The test in a given parity, or in the one that the first token's frame gives; `a` is the frame of the read.
The status is that of a refusal. Where no chunk is left to place (R73), R71 names no frame s of a last chunk: s is
then a + 1, so that template and ledger are held to meet in the frames after it. DESIGN CHOICE, unsafe (log entry
37). -/
def State.testClass0 (s : State) (reserve : Bool) (r : Resident) (q : Ask) (a : Nat) (parity : Option Nat) :
    Except Nat Grant :=
  if s.tb.state ≠ .locked then .error Status.TIME_HOLDOVER
  else
    let runs := if q.adapter = 0xFFFF then 0 else 1
    let costs := (chunksOf (q.prompt + 1) q.prompt q.context).map fun c => s.costPrefill reserve r c.1 c.2 runs
    if costs.any Option.isNone then .error Status.CLASS0_NO_CAPACITY
    else
      let cs := costs.map (·.getD 0)
      let p := s.planner
      let load (g : Nat) : Nat := p.template g + kgetD p.ledger g 0
      match placeChunks s.cap0 load (a + 4) (a + 1) [] cs with
      | none => .error Status.CLASS0_NO_CAPACITY
      | some (plan, first) =>
        let par := parity.getD (first % 2)
        let me : Member := { stream := q.stream, adapter := q.adapter, context := q.maxContext }
        match s.costDecode reserve r (me :: s.templateOf par q.stream) with
        | none => .error Status.CLASS0_NO_CAPACITY
        | some d =>
          let clash := ((List.range 5).map (a + ·)).any fun g =>
            first < g && g ≤ a + 4 && g % 2 = par && s.cap0 < d + kgetD p.ledger g 0 + kgetD plan g 0
          if clash || s.cap0 < d then .error Status.CLASS0_NO_CAPACITY
          else .ok { plan := plan, load := d, parity := par }

/-- Counts of one map added to another. -/
def addCounts (m plus : KMap Nat) : KMap Nat := plus.foldl (fun m e => kset m e.1 (kgetD m e.1 0 + e.2)) m

/-- The state with a grant taken: ledger, template and the stream's parity. -/
def State.adopt (s : State) (n : Nat) (g : Grant) : State :=
  let p := s.planner
  let ledger := addCounts p.ledger g.plan
  let p := { p with ledger := ledger
                    templateEven := if g.parity = 0 then g.load else p.templateEven
                    templateOdd := if g.parity = 0 then p.templateOdd else g.load }
  { s with planner := p }.modStream n fun x =>
    { x with parity := some g.parity
             parkDue := false
             reserved := addCounts x.reserved g.plan }

/-- The templates as the streams that hold a parity make them; a cost that no cell gives leaves a template at
its value. -/
def State.retemplate (s : State) : State :=
  match s.store.active with
  | none => { s with planner := { s.planner with templateEven := 0, templateOdd := 0 } }
  | some r =>
    let reserve := s.reg Reg.SRV_FENCE_RESERVE = 1
    let p := s.planner
    { s with planner :=
        { p with templateEven := (s.costDecode reserve r (s.templateOf 0 8192)).getD p.templateEven,
                 templateOdd := (s.costDecode reserve r (s.templateOf 1 8192)).getD p.templateOdd } }

/-- Input units of a turn still to prefill, the carried token included. -/
def Turn.total (u : Turn) : Nat := u.units + (if u.carry.isSome then 1 else 0)
def Turn.left (u : Turn) : Nat := u.total - u.consumed

/-- What the test counts for a stream as it stands. -/
def Stream.ask (n : Nat) (x : Stream) : Ask :=
  { stream := n, adapter := x.adapter, prompt := (x.turn.map Turn.left).getD 0, context := x.context
    maxContext := x.maxContext }

/-! ### Losing and regaining class 0 (R53, R72, R73) -/

/-- A stream's class changes, with its NOTICE (R67). -/
def State.setClass (s : State) (n cls : Nat) (cause : Option Nat) : State :=
  (s.modStream n fun x =>
    { x with cls := cls, downgraded := cause, parity := if cls = 0 then x.parity else none
             reserved := if cls = 0 then x.reserved else [] }).notifyLater
    { stream := n, status := Status.CLASS_CHANGED, reqTag := 0, kind := 0, flags := 0, data := cls }

/-- Streams grouped, in the order of their groups' first appearance. -/
def byGroup (ns : List Nat) : List (Nat × List Nat) :=
  ((ns.map groupOf).eraseDups).map fun g => (g, ns.filter fun n => groupOf n = g)

/-- Class-0 streams become class 1, and CLASS0_DOWNGRADE names each group (Table 10-11-b). -/
def State.downgrade (s : State) (ns : List Nat) (cause : Nat) : State :=
  let t := ns.foldl (fun t n => t.setClass n 1 (some cause)) s
  (byGroup ns).foldl (fun t g => t.raiseFor 0x0705 g.1 g.2.length cause 0) t.retemplate

/-- Streams of class 0 that are not ending. -/
def State.class0 (s : State) : List Nat :=
  (s.srv.streams.filter fun e => e.2.cls = 0 && e.2.state != .ending).map (·.1)

/-- A list of streams in the order of their original acceptance FST. -/
def State.byAcceptance (s : State) (ns : List Nat) : List Nat :=
  let key (n : Nat) : Nat := ((s.stream? n).map (·.acceptFst)).getD 0
  let rec ins (n : Nat) : List Nat → List Nat
    | [] => [n]
    | m :: ms => if key n < key m then n :: m :: ms else m :: ins n ms
  ns.foldl (fun l n => ins n l) []

/-- Admission of one stream again at a frame boundary: first in the parity of the frame of its last seal, then in
the other; a stream with no sealed output in its turn takes the parity that R71 gives (R73). -/
def State.retest (s : State) (r : Resident) (n : Nat) (x : Stream) (a : Nat) : Except Nat Grant :=
  let reserve := s.reg Reg.SRV_FENCE_RESERVE = 1
  let q := x.ask n
  match x.lastSeal, (x.turn.map (·.outputs)).getD 0 with
  | some f, _ + 1 =>
    match s.testClass0 reserve r q a (some (f % 2)) with
    | .ok g => .ok g
    | .error _ => s.testClass0 reserve r q a (some (1 - f % 2))
  | _, _ => s.testClass0 reserve r q a none

/-- Admission runs again (R72): from empty templates and ledger, each class-0 stream in the order of acceptance
is kept if it passes in its parity, and becomes class 1 if not. In HOLDOVER, where Table 2-3 keeps the guarantee of
streams already admitted, the line of R71 that asks for LOCKED is passed over: DESIGN CHOICE, unsafe (log entry
37). -/
def State.readmit (s : State) (cause : Nat) : State :=
  let ns := s.byAcceptance s.class0
  match s.store.active with
  | none => s.downgrade ns cause
  | some r =>
    if s.ras.workingQuads < 6 then s.downgrade ns cause
    else
      let reserve := s.reg Reg.SRV_FENCE_RESERVE = 1
      let empty := ns.foldl (fun (t : State) n => t.modStream n fun x => { x with parity := none, reserved := [] })
        { s with planner := { s.planner with templateEven := 0, templateOdd := 0, ledger := [] } }
      let (t, lost) := ns.foldl (fun (p : State × List Nat) n =>
        match s.stream? n with
        | none => p
        | some x =>
          let held := s.tb.state
          let u := { p.1 with tb := { p.1.tb with state := .locked } }
          match u.testClass0 reserve r (x.ask n) (s.tb.frame - 1) x.parity with
          | .ok g =>
            let v := u.adopt n g
            ({ v with tb := { v.tb with state := held } }, p.2)
          | .error _ => (p.1, p.2 ++ [n])) (empty, [])
      t.downgrade lost cause

/-- Streams that R73 offers admission again: their span is INTACT or they have none. -/
def State.restorable (s : State) : List Nat :=
  s.byAcceptance ((s.srv.streams.filter fun e => e.2.cls = 1 && e.2.downgraded.isSome && e.2.state != .ending).map
    (·.1))

/-- Whether admission is offered again at this frame boundary (R73). -/
def State.mayRestore (s : State) : Bool :=
  s.tb.state = .locked && s.lce.spanState = .intact && 6 ≤ s.ras.workingQuads

/-- R73 at a frame boundary. -/
def State.restore (s : State) : State :=
  match s.store.active with
  | none => s
  | some r =>
    if !s.mayRestore then s
    else
      let (t, back) := s.restorable.foldl (fun (p : State × List Nat) n =>
        match p.1.stream? n with
        | none => p
        | some x =>
          match p.1.retest r n x (s.tb.frame - 1) with
          | .ok g => ((p.1.setClass n 0 none).adopt n g, p.2 ++ [n])
          | .error _ => p) (s, [])
      (byGroup back).foldl (fun t g => t.raiseFor 0x0706 g.1 g.2.length 0 0) t

/-- At a frame boundary reservations that have ended are released (R74): those of ended streams, of streams parked
since the last one, of frames gone by, and prefill of streams whose turn has sealed its first output. What a turn
that came to a parked stream was granted anew stays. -/
def State.releaseReservations (s : State) : State :=
  let settle (x : Stream) : Stream :=
    if x.parkDue then { x with parity := none, reserved := [], parkDue := false }
    else if x.cls = 0 && (x.turn.map (·.outputs)).getD 1 = 0 then
      { x with reserved := x.reserved.filter fun e => s.tb.frame ≤ e.1 }
    else { x with reserved := [] }
  let streams := s.srv.streams.map fun (e : Nat × Stream) => (e.1, settle e.2)
  let ledger := streams.foldl (fun m (e : Nat × Stream) => addCounts m e.2.reserved) []
  { s with srv := { s.srv with streams := streams }
           planner := { s.planner with ledger := ledger, leaving := [] } }.retemplate

/-- Class-0 loads of both templates and of the ledger's frames, which are the next four (Table 2-7, R75). -/
def State.class0Loads (s : State) : List Nat :=
  let p := s.planner
  [p.templateEven, p.templateOdd] ++ (p.ledger.filter fun e => e.1 != s.tb.frame).map fun e => e.2 + p.template e.1

/-- SRV_CLASS0_HEADROOM: the smallest room over templates and ledger. Until the first frame opens it reads 0, its
default in Table 2-7: DESIGN CHOICE, unsafe (log entry 37). -/
def State.headroom (s : State) : Nat :=
  if s.tb.state = .acquiring then 0 else s.cap0 - s.class0Loads.foldl max 0

end Sys2Proof.Machine
end

