-- ==== Sys2Proof/Machine/Packages.lean ====
section
/-! DEFINITION. Model manifests, shard manifests, adapter manifests and bundles as bytes (R241, R244, R292, R298), and
what a package must satisfy (R242). -/

namespace Sys2Proof.Machine

/-! ### Manifests (Tables 7-16 and 9-3) -/

def parseLastEntry (e : List Byte) : LastEntry :=
  { digest := slice e 0 48, role := field e 0x30 1, quadrants := field e 0x31 1, dieQuads := field e 0x32 1
    spillPlan := field e 0x33 1, safe := bit (field e 0x34 1) 0, residentSafe := bit (field e 0x34 1) 1
    shard := field e 0x38 4, offset := field e 0x3C 4 }

def parseTensorEntry (e : List Byte) : TensorEntry :=
  { shard := field e 0 4, offset := field e 8 8, bytes := field e 0x10 8, format := field e 0x18 1
    die := field e 0x19 1, stackMask := field e 0x1A 2 }

def parseSpillPlan (e : List Byte) : SpillPlan :=
  { plan := field e 0 1
    ranges := (List.range (min 4 (field e 1 1))).map fun i => (field e (4 + 4 * i) 2, field e (6 + 4 * i) 2)
    hbm0 := field e 0x18 8, hbm1 := field e 0x20 8 }

def parseAdapter (e : List Byte) : AdapterRec :=
  { id := field e 0 2, rank := field e 2 1, format := field e 3 1, tensorFirst := field e 4 4
    layerFirst := field e 8 2, layerCount := field e 0x0A 2, base := field e 0x0C 8 }

/-- The last table of a manifest, as records of a size. -/
def lastRecords (bs : List Byte) (size : Nat) : List (List Byte) :=
  records (bs.drop (field bs 0x50 4)) size (field bs 0x32 2)

/-- The manifest at the head of a bundle, with its signature block. -/
def manifestBytes (bundle : List Byte) : List Byte := bundle.take (field bundle 0x60 4 + 160)

/-- A manifest. In an adapter manifest the last table holds the adapter records (R244). -/
def parseManifest (adapters : Bool) (bs : List Byte) : Manifest :=
  { tag := field bs 8 8
    digest := sigDigest bs
    name := if adapters then List.replicate 32 0 else slice bs 0x10 32
    layers := field bs 0x30 2
    maxContext := field bs 0x3C 4
    hbm0 := field bs 0x40 8
    hbm1 := field bs 0x48 8
    lasts := if adapters then [] else (lastRecords bs 64).map parseLastEntry
    tensors := (records (bs.drop (field bs 0x54 4)) 32 (field bs 0x34 4)).map parseTensorEntry
    spills := if adapters then [] else
      (records (bs.drop (field bs 0x58 4)) 48 (min 4 (field bs 0x38 2))).map parseSpillPlan
    adapters := if adapters then (lastRecords bs 32).map parseAdapter else []
    signer := sigSigner bs
    keySerial := sigSerial bs }

/-- The shards that a manifest lists, with no bytes yet (Table 9-3). -/
def parseShards (bs : List Byte) : List Shard :=
  let sm := bs.drop (field bs 0x5C 4)
  (records (sm.drop 0x20) 64 (min 65534 (field sm 4 4))).map fun e =>
    { digest := slice e 0 48, size := field e 0x30 4, kind := field e 0x34 1, die := field e 0x35 1
      expert := field e 0x36 2, optional := bit (field e 0x38 1) 0, present := false, corrupt := false, data := [] }

/-- The entry limits and zero bytes of a shard manifest (Table 9-3). -/
def shardManifestOk (sm : List Byte) : Bool :=
  let es := records (sm.drop 0x20) 64 (min 65534 (field sm 4 4))
  field sm 0 4 = 0x44524853 && 1 ≤ field sm 4 4 && field sm 4 4 ≤ 65534 && zeros sm 0x10 16 &&
    field sm 8 8 = (es.map fun e => field e 0x30 4).sum &&
    es.all fun e => 1 ≤ field e 0x30 4 && field e 0x30 4 ≤ 268435456 && 1 ≤ field e 0x34 1 && field e 0x34 1 ≤ 4 &&
      (field e 0x35 1 ≤ 1 || field e 0x35 1 = 0xFF) && bits (field e 0x38 1) 7 1 = 0 && zeros e 0x39 7

/-- The limits and zero bytes of a model manifest (Table 7-16). -/
def modelManifestOk (bs : List Byte) : Bool :=
  1 ≤ field bs 0x30 2 && field bs 0x30 2 ≤ 1024 && 1 ≤ field bs 0x32 2 && field bs 0x32 2 ≤ 128 &&
    1 ≤ field bs 0x34 4 && field bs 0x34 4 ≤ 16777215 && field bs 0x38 2 ≤ 4 && field bs 0x3C 4 ≤ 32768 &&
    zeros bs 6 2 && zeros bs 0x3A 2 && zeros bs 0x64 28 &&
    (lastRecords bs 64).all (fun e => zeros e 0x35 3 && field e 0x33 1 ≤ 4) &&
    (records (bs.drop (field bs 0x54 4)) 32 (field bs 0x34 4)).all (fun e =>
      zeros e 4 4 && zeros e 0x1C 4 && (field e 0x19 1 ≤ 1 || field e 0x19 1 = 0xFF)) &&
    (records (bs.drop (field bs 0x58 4)) 48 (field bs 0x38 2)).all fun e =>
      1 ≤ field e 0 1 && field e 0 1 ≤ 4 && 1 ≤ field e 1 1 && field e 1 1 ≤ 4 && zeros e 2 2 && zeros e 0x14 4 &&
        zeros e 0x28 8

/-- A manifest, of a model or of an adapter set, is laid out as R241, R244 and R292 say. That a manifest outside these
limits is refused with PKG_INVALID is DEDUCED, safe (log entry 43). -/
def manifestFormat (adapters : Bool) (bs : List Byte) : Bool :=
  field bs 0 4 = 0x4B505143 && bits (field bs 4 2) 15 8 = 1 && shardManifestOk (bs.drop (field bs 0x5C 4)) &&
    (adapters || modelManifestOk bs)

/-! ### Bundles (R298) -/

/-- The next multiple of 4,096. -/
def pageUp (n : Nat) : Nat := ceilDiv n 4096 * 4096

/-- The shards of a bundle, with the bytes found for each in turn, and the length that they require. An entry that
`want` does not name has no place in the bundle. -/
def bundleShards (want : Nat → Shard → Bool) (bundle : List Byte) :
    Nat → Nat → List Shard → List (Shard × List Byte) × Nat
  | at_, _, [] => ([], at_)
  | at_, n, x :: xs =>
    if want n x then
      let start := pageUp at_
      let (ys, stop) := bundleShards want bundle (start + x.size) (n + 1) xs
      ((x, slice bundle start x.size) :: ys, stop)
    else
      let (ys, stop) := bundleShards want bundle at_ (n + 1) xs
      ((x, []) :: ys, stop)

/-! ### Images of a package -/

/-- The bytes of the image of a last entry. -/
def lastImage (shards : List Shard) (e : LastEntry) : List Byte :=
  let b := (lget shards e.shard).data.drop e.offset
  b.take (field b 8 4)

/-- The image of a last entry, kept in HBM while its package is staged (R243). -/
def stagedLast (shards : List Shard) (e : LastEntry) : StagedLast :=
  let b := lastImage shards e
  let h := imageHeader b
  { lastId := imageLastId b, bytes := b, passKind := h.passKind, placement := h.placement, spillPlan := e.spillPlan
    safe := e.safe, residentSafe := e.residentSafe, safeOf := h.safeOf, swapCycles := h.swapCycles
    imageSize := h.imageSize, maxAdapterRuns := h.maxAdapterRuns, layerFirst := h.layerFirst
    layerCount := h.layerCount, wcet := imageWcet b
    pool := (parseImage b).stations.any fun d => match (parseImage b).operation d with
      | some (.port target _ _ _) => target = 5
      | _ => false }

/-! ### R242 -/

/-- Working masks with six, seven or eight bits. -/
def servingMasks : List Nat := (List.range 256).filter fun m => 6 ≤ ((List.range 8).filter (bit m)).length

/-- Each layer of a model is covered exactly once by images of these kinds. -/
def coversOnce (layers : Nat) (kinds : List Nat) (ls : List StagedLast) : Bool :=
  let mine := ls.filter fun l => kinds.contains l.passKind
  mine.all (fun l => l.layerFirst + l.layerCount ≤ layers) &&
    (List.range layers).all fun n =>
      (mine.filter fun l => l.layerFirst ≤ n && n < l.layerFirst + l.layerCount).length = 1

/-- Bytes of a die's section of an image. -/
def StagedLast.dieSize (l : StagedLast) (die : Nat) : Nat :=
  if die = 0 then (imageHeader l.bytes).die0Bytes else (imageHeader l.bytes).die1Bytes

/-- Items 1 to 3 of R242 for a spill plan and a mask. -/
def residentSetOk (layers : Nat) (ls : List StagedLast) (plan mask : Nat) : Bool :=
  let set := ls.filter fun l => !l.safe && l.spillPlan = plan && bit l.placement mask
  let safes := ls.filter fun l => l.safe && set.any fun x => x.lastId = l.safeOf
  !set.isEmpty && coversOnce layers [1, 3] set && coversOnce layers [2, 3] set &&
    set.length + (if safes.isEmpty then 0 else 1) ≤ 4 &&
    (List.range 2).all fun die =>
      (set.map (·.dieSize die)).sum + (safes.map (·.dieSize die)).foldl max 0 ≤ 8 * 2 ^ 20

/-- A last streams from the store only layers of its own that a range of the plan names (R242, R243). Which of its layers it
streams an image does not say, so what is asked is that the ranges name one: DEDUCED, unsafe (log entry 43). -/
def Manifest.streamsNamed (m : Manifest) (plan : Nat) (l : StagedLast) : Bool :=
  !(imageHeader l.bytes).storeStreamed || m.spills.any fun p => p.plan = plan && p.ranges.any fun r =>
    r.1 < l.layerFirst + l.layerCount && l.layerFirst < r.1 + r.2

/-- R242. -/
def packageOk (m : Manifest) (shards : List Shard) : Bool :=
  let ls := m.lasts.map (stagedLast shards)
  (List.range (m.spills.length + 1)).all (fun v => servingMasks.all (residentSetOk m.layers ls v)) &&
    ls.all (fun l => !l.safe || ls.any fun x => !x.safe && x.lastId = l.safeOf && x.placement = l.placement) &&
    ls.all (fun l => l.spillPlan = 0 || (imageHeader l.bytes).storeStreamed && m.streamsNamed l.spillPlan l) &&
    m.spills.all fun p => p.ranges.all fun r => r.1 + r.2 ≤ m.layers

/-! ### R244 -/

/-- The base that an adapter manifest names. -/
def Manifest.base (m : Manifest) : Nat := (m.adapters.head?.map (·.base)).getD 0

/-- An adapter manifest keeps R244, beside the adapters that its base has already. -/
def adaptersOk (bs : List Byte) (m : Manifest) (taken : List Nat) : Bool :=
  let ids := m.adapters.map (·.id)
  (lastRecords bs 32).all (fun e => zeros e 0x14 12) &&
    m.adapters.all (fun a => a.id ≤ 4095 && 1 ≤ a.rank && a.rank ≤ 64 && a.base = m.base &&
      a.tensorFirst < m.tensors.length && !taken.contains a.id) &&
    ids.eraseDups.length = ids.length && ids.length + taken.length ≤ 4096

end Sys2Proof.Machine
end

