-- ==== Sys2Proof/Machine/Plan.lean ====
section
/-! DEFINITION. The slot plan (R55 to R63, R311, R340, R345): a proposal of Iandaol's policy becomes an entry when
every rule of the plan allows it; the plan of a frame, and tail fill. -/

namespace Sys2Proof.Machine

/-! ### Deadlines (R68, R69, R344) -/

/-- FIRST_DEADLINE and TOKEN_DEADLINE in force: a stream opened as class 0 keeps 4 and 2. -/
def Stream.deadlines (x : Stream) (u : Turn) : Nat × Nat :=
  if x.openedCls = 0 then (4, 2) else (u.firstDeadline, u.tokenDeadline)

/-- FST at which the next output is due; none in class 2. -/
def Stream.deadline (x : Stream) : Option Nat :=
  match x.turn with
  | none => none
  | some u =>
    if x.cls = 2 then none
    else
      let (first, token) := x.deadlines u
      if u.outputs = 0 then u.accepted.map fun a => fstOf (a + first) 0 0
      else x.lastSeal.map fun f => fstOf (f + 1 + token) 0 0

/-! ### Room (R345, R348) -/

/-- Units free in a completion ring. -/
def CompRing.room (r : CompRing) (units : Nat) : Nat := units - (r.producer + 2 ^ 32 - r.consumer) % 2 ^ 32

/-- Units that a record of `need` units takes, with the PAD that keeps it from wrapping (R347). -/
def CompRing.need (r : CompRing) (units need : Nat) : Nat :=
  let left := units - r.producer % units
  if left < need then left + need else need

/-- Units of a record with this many entries. -/
def recordUnits (count : Nat) : Nat := ceilDiv (64 + 16 * count) 64

/-- Whether a group's completion ring has room for a full step record; no ring, no room. -/
def State.compRoom (s : State) (g : Nat) : Bool :=
  let units := s.reg Reg.SRV_COMP_UNITS
  let r := kgetD s.srv.comp g {}
  units != 0 && r.need units (recordUnits 256) ≤ r.room units

/-- Whether a stream's output ring has a free entry. -/
def Stream.outRoom (x : Stream) : Bool := (x.outProducer + 2 ^ 32 - x.outConsumer) % 2 ^ 32 < x.outEntries

/-- Streams in a turn without room are held, and SRV_RING_FULL is raised once for each hold. -/
def State.holdFull (s : State) : State :=
  s.srv.streams.foldl (fun t (e : Nat × Stream) =>
    if e.2.state != .active then t
    else if !e.2.outRoom || !s.compRoom (groupOf e.1) then
      let why := if e.2.outRoom then 2 else 1
      if e.2.held then t
      else (t.modStream e.1 fun y => { y with held := true }).raiseFor 0x0709 (groupOf e.1) e.1 why 0
    else if e.2.held then t.modStream e.1 fun y => { y with held := false }
    else t) s

/-! ### Frames for appends (R277) -/

/-- Whether the active package keeps KV. -/
def State.keepsKv (s : State) : Bool := s.pageBytes != 0

/-- Give a stream frames for pages up to a position; none where frames are short or a page is not RESIDENT. -/
def State.allocPages (s : State) (n upTo : Nat) : Option State :=
  if !s.keepsKv then some s
  else
    (List.range (ceilDiv upTo 64)).foldl (fun (o : Option State) page =>
      o.bind fun t =>
        match kget? t.pages.table (pageKey n page) with
        | some e => if e.state = .resident then some t else none
        | none => match t.pages.freeFrames with
          | [] => none
          | f :: fs =>
            let e : PageEntry := { frame := f, group := groupOf n, state := .resident }
            some { t with pages := { t.pages with freeFrames := fs
                                                  table := kset t.pages.table (pageKey n page) e } }) (some s)

/-! ### From a proposal to an entry -/

/-- A turn is accepted (R336): the frame that its acceptance boundary opens. -/
def State.acceptTurn (s : State) (n : Nat) : State :=
  s.modStream n fun x =>
    { x with state := if x.state = .pending || x.state = .idle then .active else x.state
             acceptFst := if x.acceptFst = 0 then s.tb.boundaryFst else x.acceptFst
             epoch := if x.acceptFst = 0 then s.store.epoch else x.epoch
             turn := x.turn.map fun u => { u with accepted := some s.tb.frame } }

/-- The epoch that a stream's next step uses (R317, R318). -/
def State.epochOf (s : State) (x : Stream) : Nat := if x.pin then x.epoch else s.store.epoch

/-- Whether a row fits its stream, with `left` input units to prefill from a context on (R340, R342): the positions
and the chunk of a prefill row, the one position of a decode row. -/
def rowFits (r : PassRow) (phase left context : Nat) : Bool :=
  if phase = 0 then
    1 ≤ left && 1 ≤ r.units && r.units ≤ min 256 left && context ≤ r.position &&
      r.position < context + r.units &&
      (r.output = (r.units = left && r.position + 1 = context + r.units))
  else left = 0 && r.units = 0 && r.position = context && r.output

/-- Whether another step lets a stream enter a step of a class and phase: the prefill of a class-0 turn may be planned
several chunks ahead, one step for each, as the ledger of R71 holds them. -/
def StepRun.admits (y : StepRun) (cls phase step n : Nat) : Bool :=
  y.number = step || !y.streams.contains n || (cls = 0 && phase = 0 && y.cls = 0 && y.phase = 0)

/-- Whether Iandaol may plan a row now. -/
def State.rowReady (s : State) (cls phase epoch step : Nat) (r : PassRow) : Bool :=
  match s.stream? r.stream with
  | none => false
  | some x =>
    match x.turn with
    | none => false
    | some u =>
      let ahead := s.aheadUnits step r.stream
      x.state = .active && x.cls = cls && x.adapter = r.adapter && u.accepted.isSome && u.copied &&
        !u.copyFailed && !x.held && !x.heldSwitch && s.epochOf x = epoch &&
        rowFits r phase (u.left - ahead) (x.context + ahead) &&
        (kgetD s.srv.notices (groupOf r.stream) []).isEmpty && (kget? s.ras.resetGroups (groupOf r.stream)).isNone &&
        x.cancelAsked.isNone &&
        s.planner.steps.all fun y => y.admits cls phase step r.stream

/-- Rows are in the order of R340. -/
def rowBefore (a b : PassRow) : Bool :=
  a.adapter < b.adapter ||
    (a.adapter = b.adapter && (a.stream < b.stream || (a.stream = b.stream && a.position < b.position)))

def rowsOrdered : List PassRow → Bool
  | a :: b :: rs => rowBefore a b && rowsOrdered (b :: rs)
  | _ => true

/-- Shards of a manifest that a last reads, from HBM or from the store. -/
def StagedLast.shardsRead (l : StagedLast) (m : Manifest) : List Nat :=
  let i := parseImage l.bytes
  ((i.die0.gens ++ i.die1.gens).filter fun g => g.space = 1 || g.space = 2).filterMap fun g =>
    (m.tensors[g.tensor]?).map (·.shard)

/-- Whether Iandaol plans any step now (R235, R321, R353, R514). -/
def State.mayPlan (s : State) (epoch : Nat) : Bool :=
  s.boot.state = .serving && s.ras.service = .serving && s.hlk.up && 6 ≤ s.ras.workingQuads &&
    match s.store.resident? epoch with
    | some r => !r.lost
    | none => false

/-- Whether Iandaol lays out new work: not once the drain is effective, nor while the domains stop. -/
def State.planning (s : State) : Bool := !s.pwr.drainEffective && s.pwr.stopping.isNone

/-- Phase of a pass proposal: 0 prefill, 1 decode. -/
def phaseOf : EntryKind → Nat
  | .decode => 1
  | _ => 0

/-- The context of a row's stream before its step, and at the end of it. -/
def State.rowStart (s : State) (step : Nat) (r : PassRow) : Nat := s.sealedOf r.stream + s.aheadUnits step r.stream
def State.rowEnd (s : State) (step : Nat) (r : PassRow) : Nat := s.rowStart step r + max 1 r.units

/-- Whether rows are counted as the batch axis of a table counts them (R225, Table 7-11): on the tokens axis a
prefill row is one position, the chunk's positions follow one another over the passes of its last, and the last pass
leaves none out; else each stream has one row, which ends its chunk. `before` are the rows of earlier passes. -/
def State.axisFits (s : State) (axis phase step : Nat) (before rows : List PassRow) (last : Bool) : Bool :=
  let same (l : List PassRow) (r : PassRow) : Nat := (l.filter fun q => q.stream = r.stream).length
  if phase = 0 && axis = 1 then
    let all := before ++ rows
    (rows.zipIdx.all fun e => e.1.position = s.rowStart step e.1 + same (before ++ rows.take e.2) e.1) &&
      (!last || all.all fun r => same all r = r.units)
  else rows.all fun r => same rows r = 1 && (phase != 0 || r.position + 1 = s.rowEnd step r)

/-- The step of a pass proposal: an open one with the same class, phase and epoch, or the next number. -/
def State.stepFor (s : State) (p : Proposal) (epoch : Nat) : Option StepRun :=
  match s.planner.stepOf p.step with
  | some x =>
    if x.cls = p.cls && x.phase = phaseOf p.kind && x.epoch = epoch && !x.complete &&
        !(x.entries.any (·.lastPass)) then some x else none
  | none =>
    if p.step = s.srv.stepSeq then
      some { number := p.step, cls := p.cls, phase := phaseOf p.kind, epoch := epoch,
             packageTag := s.store.packageTag }
    else none

/-- Whether a last is of the resident set in force, and the plan names what it streams from the store (R243). -/
def State.inForce (s : State) (l : StagedLast) : Bool :=
  !l.safe && bit l.placement s.mask && s.store.active.any fun r => l.spillPlan = r.plan && r.manifest.streamsNamed r.plan l

/-- A host plans a pool pass with no rows of its own in every window in which the pool runs (R425). -/
def State.poolEntry (s : State) (p : Proposal) : Option (State × PlanEntry) :=
  match s.staged? p.lastId with
  | none => none
  | some l =>
    let e : PlanEntry :=
      { kind := p.kind, cls := p.cls, lastId := p.lastId, batchBucket := 0, contextBucket := 0, w := 0, cost := 0
        rows := [], context := 0, step := 0, lastPass := true, notBefore := p.notBefore }
    if l.pool && 2 ≤ s.reg Reg.DSP_ROLE && p.cls ≤ 2 && s.inForce l && s.mayPlan s.store.epoch then
      ((e.costed l s.pwr.k).filter fun e => s.poolFits l e.cls e.cost e.notBefore).map fun e => (s, e)
    else none

/-- Turns of the rows that tail fill takes up (R62) are accepted. -/
def State.tailTurns (s : State) (rows : List PassRow) : State :=
  rows.foldl (fun t r =>
    match t.stream? r.stream with
    | some y => if y.cls != 0 && (y.turn.any fun u => u.accepted.isNone && u.copied) && y.state != .parked then
        t.acceptTurn r.stream else t
    | none => t) s

/-- A pass as proposed, made an entry: none where the state does not allow it. -/
def State.entryOf (s : State) (epoch : Nat) (p : Proposal) : Option (State × PlanEntry) :=
  let want := phaseOf p.kind + 1
  let ready := p.rows.all fun r => s.rowReady p.cls (phaseOf p.kind) epoch p.step r
  let sameParity := p.cls != 0 || ((p.rows.map fun r =>
    ((s.stream? r.stream).bind (·.parity))).eraseDups).length ≤ 1
  if !(s.mayPlan epoch && rowsOrdered p.rows && ready && sameParity && p.cls ≤ 2) then none
  else
    let l := match s.staged? p.lastId with
      | some l =>
        if (l.passKind = want || l.passKind = 3) && s.inForce l then some l else none
      | none => none
    match l, s.stepFor p epoch with
    | some l, some step =>
      let e : PlanEntry :=
        { kind := p.kind, cls := p.cls, lastId := p.lastId, batchBucket := 0, contextBucket := 0, w := 0
          cost := 0, rows := p.rows, context := longest p.rows, step := p.step, lastPass := p.lastPass
          notBefore := p.notBefore }
      let before := (step.entries.filter fun x => x.lastId = p.lastId).flatMap (·.rows)
      if !s.axisFits l.wcet.axis (phaseOf p.kind) p.step before p.rows p.lastPass then none
      else match ((e.costed l s.pwr.k).map s.costSafe).filter fun e => s.poolFits l e.cls e.cost e.notBefore with
      | none => none
      | some e =>
        let s1 := p.rows.foldl (fun (o : Option State) r => o.bind fun t => t.allocPages r.stream (s.rowEnd p.step r))
          (some s)
        s1.map fun t =>
          let steps := if (t.planner.stepOf p.step).isSome then t.planner.steps else t.planner.steps ++ [step]
          let t := { t with srv := { t.srv with stepSeq := max t.srv.stepSeq (p.step + 1) }
                            planner := { t.planner with steps := steps } }
          (t.modStep p.step fun y => { y with entries := y.entries ++ [e] }, e)
    | _, _ => none

/-- A pass proposal becomes an entry. With `tail`, turns that wait for their boundary are accepted now (R336). -/
def State.passEntry (s : State) (tail : Bool) (p : Proposal) : Option (State × PlanEntry) :=
  match p.rows.head?.bind fun r => s.stream? r.stream with
  | none => if p.rows.isEmpty then s.poolEntry p else none
  | some x => (if tail then s.tailTurns p.rows else s).entryOf (s.epochOf x) p

/-- A maintenance entry (class 3): LAST_ID holds the quadrants whose awl runs a slice, and the context its bound
in nominal cycles (R526, R629). -/
def State.maintenanceEntry (s : State) (p : Proposal) : PlanEntry :=
  { kind := .maintenance, cls := 3, lastId := p.lastId, batchBucket := 0, contextBucket := 0, w := p.context
    cost := costAt s.pwr.k p.context, rows := [], context := p.context, step := 0, lastPass := true
    notBefore := p.notBefore }

/-- The image that a switch needs first: of the incoming package, the first that is no safe variant and has a
placement under the working mask. -/
def State.firstIncoming (s : State) : Option StagedLast :=
  s.store.staged.bind fun r => r.lasts.find? fun l =>
    !l.safe && l.spillPlan = r.plan && bit l.placement s.mask

/-- The switch entry (R311). -/
def State.switchEntry (s : State) (l : StagedLast) : PlanEntry :=
  let w := if s.store.loadedAhead.isSome then l.swapCycles
    else 1250000 + 156250 * ceilDiv l.imageSize 1048576 + l.swapCycles
  { kind := .switchEntry, cls := 0, lastId := l.lastId, batchBucket := 0, contextBucket := 0, w := w
    cost := costAt s.pwr.k w, rows := [], context := 0, step := 0, lastPass := true, notBefore := none }

/-- Whether the switch entry is due (R311). -/
def State.switchDue (s : State) : Option StagedLast :=
  if s.store.switchState = .staged && s.store.switchKind = 1 &&
      !(s.planner.plan.any fun e => e.kind = .switchEntry) &&
      (s.store.switchForce || !(s.srv.streams.any fun e => e.2.packageTag = s.store.packageTag)) then
    s.firstIncoming
  else none

/-! ### The plan of a frame -/

/-- Place of an entry in the order of R60: class-0 prefill, class-0 decode, a model switch, classes 1, 2 and 3. -/
def rankOf (kind : EntryKind) (cls : Nat) : Nat :=
  match kind, cls with
  | .maintenance, _ => 5
  | .switchEntry, _ => 2
  | .prefill, 0 => 0
  | .decode, 0 => 1
  | _, 1 => 3
  | _, 2 => 4
  | _, _ => 5

/-- What may stand in a frame's plan: an entry of the last frame's that has not started, or a proposal. -/
inductive PlanItem where
  | old (e : PlanEntry) | new (p : Proposal)
  deriving DecidableEq, Repr

def PlanItem.rank : PlanItem → Nat
  | .old e => rankOf e.kind e.cls
  | .new p => rankOf p.kind p.cls

def PlanItem.rows : PlanItem → List PassRow
  | .old e => e.rows
  | .new p => p.rows

/-- The earliest deadline of rows' streams. -/
def State.rowsDeadline (s : State) (rows : List PassRow) : Nat :=
  (rows.filterMap fun r => (s.stream? r.stream).bind Stream.deadline).foldl min (2 ^ 64)

/-- The stream that a pass is taken for: that of its first row. -/
def State.headStream (s : State) (rows : List PassRow) : Option Stream := rows.head?.bind fun r => s.stream? r.stream

/-- Class-2 items take tenants in turn, from the one after the tenant served first in the frame before; within a
tenant they stand in order of acceptance FST (R344). -/
def State.inTurns (s : State) (xs : List PlanItem) : List PlanItem :=
  let tenant (x : PlanItem) : Nat := ((s.headStream x.rows).map (·.tenant)).getD 0
  let xs := sortBy (fun x => ((s.headStream x.rows).map (·.acceptFst)).getD 0) xs
  let rounds := xs.zipIdx.map fun e => (e.1, ((xs.take e.2).filter fun y => tenant y = tenant e.1).length)
  (sortBy (fun e => e.2 * 1024 + (tenant e.1 + 1023 - s.planner.lastTenant) % 1024) rounds).map (·.1)

/-- Quadrants of the working mask whose targeted awl run waits (R516). -/
def State.targetedQuads (s : State) : List Nat :=
  (List.range 8).filter fun q => (lget s.ras.quads q).state.inMask && !(lget s.ras.quads q).targeted.isEmpty

/-- Whether an item runs slices in one of the quadrants. -/
def PlanItem.runsIn (quads : List Nat) (x : PlanItem) : Bool :=
  match x with
  | .old e => e.kind = .maintenance && quads.any fun q => bit e.lastId q
  | .new p => p.kind = .maintenance && quads.any fun q => bit p.lastId q

/-- Items of classes 1 to 3 in the order of R60; in class 3 the targeted awl runs go before other work (R516). -/
def State.orderItems (s : State) (xs : List PlanItem) : List PlanItem :=
  let last := xs.filter fun x => x.rank = 5
  sortBy (fun x => s.rowsDeadline x.rows) (xs.filter fun x => x.rank = 3) ++
    s.inTurns (xs.filter fun x => x.rank = 4) ++ last.filter (PlanItem.runsIn s.targetedQuads) ++
    last.filter fun x => !x.runsIn s.targetedQuads

/-- The slice of the targeted runs that no item of the plan takes: its tests are those that the class-3 share holds
(R516, R629). -/
def State.targetedRun (s : State) (xs : List PlanItem) : List Proposal :=
  let quads := s.targetedQuads.filter fun q => !xs.any (PlanItem.runsIn [q])
  let share := frameCycles * s.planner.class3Min / 1000 * 16 / max 1 s.pwr.k
  let w := (quads.map fun q => sliceCycles (fitTests share (lget s.ras.quads q).targeted)).foldl max 0
  if w = 0 || !s.planning then []
  else [{ kind := .maintenance, cls := 3, lastId := (quads.map fun q => 2 ^ q).sum, rows := [], context := w, step := 0
          lastPass := true, notBefore := none }]

/-- Where a plan ends, from what is behind in the frame on. -/
def State.planEnd (s : State) (plan : List PlanEntry) : Nat :=
  plan.foldl (fun pos e => s.startAt pos e + e.cost) s.planBase

/-- Whether an entry follows a pass of its step that has moved to the next frame. -/
def State.followsMoved (s : State) (e : PlanEntry) : Bool :=
  !e.rows.isEmpty && s.planner.moved.any fun m => m.isPass && m.step = e.step

/-- An entry stands behind the plan, or, in tail fill, ahead of its class-3 entries. The tenant that class 2 serves
first is kept (R344). -/
def State.putEntry (s : State) (tail : Bool) (e : PlanEntry) : State :=
  let p := s.planner
  let front (x : PlanEntry) : Bool := !tail || x.cls != 3
  let tenant := if e.cls = 2 then (s.headStream e.rows).map (·.tenant) else none
  { s with planner := { p with plan := p.plan.takeWhile front ++ e :: p.plan.dropWhile front
                               firstTenant := p.firstTenant <|> tenant } }

/-- Whether an entry may stand there: it ends in time (R59, R62), as do the entries behind it, and the plan holds at
most 1,024 (R55). -/
def State.entryFits (s : State) (tail : Bool) (e : PlanEntry) : Bool :=
  let front := s.planner.plan.takeWhile fun x => !tail || x.cls != 3
  let limit := if e.cls = 0 && e.isPass then frameCycles else s.endLimit e
  s.planEnd (front ++ [e]) ≤ limit && s.planEnd (s.putEntry tail e).planner.plan ≤ frameCycles &&
    s.planner.plan.length < 1024 && !s.followsMoved e

/-- Try a proposal: it becomes an entry of the plan where the rules let it. -/
def State.tryProposal (s : State) (tail : Bool) (p : Proposal) : State :=
  let accept (t : State) (e : PlanEntry) : State := if t.entryFits tail e then t.putEntry tail e else s
  match p.kind with
  | .prefill | .decode =>
    if tail && (p.cls = 0 || p.cls = 3) then s
    else match s.passEntry tail p with
      | some (t, e) => accept t e
      | none => s
  | .maintenance => if tail then s else accept s (s.maintenanceEntry p)
  | .switchEntry => s

/-- An entry left over stands in the plan, or moves on to the next frame. -/
def State.placeOld (s : State) (e : PlanEntry) : State :=
  if s.entryFits false e then s.putEntry false e
  else { s with planner := { s.planner with moved := s.planner.moved ++ [e] } }

def State.placeItem (s : State) : PlanItem → State
  | .old e => s.placeOld e
  | .new p => s.tryProposal false p

/-- Class-0 steps that a plan holds without their last pass are taken out again (R59). -/
def State.dropDangling (s : State) : State :=
  let open_ := (s.planner.steps.filter fun x =>
    x.cls = 0 && !x.started && !x.complete && !(x.entries.any (·.lastPass))).map (·.number)
  open_.foldl State.dropStep s

/-! ### The class-0 work that is due (R68 to R71) -/

/-- A cost, and the passes that give it. -/
abbrev Split : Type := Option (Nat × List (List PassRow))

def cheaper (a b : Split) : Split :=
  match a, b with
  | some x, some y => if y.1 < x.1 then some y else some x
  | some x, none => some x
  | none, y => y

/-- The cheapest last pass over the newest rows; `hist` holds each row with the cheapest passes before it. -/
def lastPassOf (l : StagedLast) (k : Nat) : List PassRow → List (PassRow × Split) → Split
  | _, [] => none
  | seg, (r, before) :: rest =>
    let seg := r :: seg
    let here : Split := match l.passCost k seg.length (longest seg) (adapterRuns seg), before with
      | some c, some (b, ps) => some (c + b, ps ++ [seg])
      | _, _ => none
    cheaper here (lastPassOf l k seg rest)

/-- Ordered rows in the consecutive passes of a last that cost least (R58). -/
def splitRows (l : StagedLast) (k : Nat) (rows : List PassRow) : Split :=
  (rows.foldl (fun (p : List (PassRow × Split) × Split) r =>
    let hist := (r, p.2) :: p.1
    (hist, lastPassOf l k [] hist)) ([], some (0, []))).2

/-- The pass proposals of one step over the lasts that it runs in turn; `rows` are those of a batch axis. None where a
last has no supported cell for them. -/
def State.stepProposals (s : State) (kind : EntryKind) (rows : Nat → List PassRow) : List Proposal :=
  match s.store.active with
  | none => []
  | some r =>
    let ls := r.stepLasts s.mask (phaseOf kind + 1)
    let parts := ls.map fun l => (splitRows l s.pwr.k (rows l.wcet.axis)).map fun c => c.2.map fun p => (l.lastId, p)
    if parts.any Option.isNone then []
    else
      let ps := (parts.map fun x => x.getD []).flatten
      ps.zipIdx.map fun e =>
        { kind := kind, cls := 0, lastId := e.1.1, rows := e.1.2, context := 0, step := s.srv.stepSeq
          lastPass := e.2 + 1 = ps.length, notBefore := none }

/-- A class-0 step of the module's own enters the plan whole, or not at all (R59). -/
def State.tryStep (s : State) (ps : List Proposal) : State :=
  let t := ps.foldl (fun t p => t.tryProposal false p) s
  if (t.planner.stepOf s.srv.stepSeq).any fun x => x.entries.length = ps.length then t else s

/-- The decode row of a stream. -/
def Stream.decodeRow (n : Nat) (x : Stream) : PassRow :=
  { stream := n, adapter := x.adapter, position := x.context, units := 0, output := true }

/-- Rows in the order of R340. -/
def insertRow (r : PassRow) : List PassRow → List PassRow
  | [] => [r]
  | q :: qs => if rowBefore r q then r :: q :: qs else q :: insertRow r qs

/-- Class-0 streams of the frame's parity that wait for their next token and that no step holds, by epoch (R68). -/
def State.dueDecode (s : State) (epoch : Nat) : List Nat :=
  (s.srv.streams.filter fun e =>
    e.2.cls = 0 && e.2.parity = some (s.tb.frame % 2) && s.epochOf e.2 = epoch &&
      s.rowReady 0 1 epoch s.srv.stepSeq (e.2.decodeRow e.1)).map (·.1)

/-- One decode step over streams. -/
def State.planDecode (s : State) (ns : List Nat) : State :=
  let rows := (ns.filterMap fun n => (s.stream? n).map fun x => x.decodeRow n).foldl (fun l r => insertRow r l) []
  s.tryStep (s.stepProposals .decode fun _ => rows)

/-- The decode steps of the frame: the due streams of an epoch in one step; where that does not fit, as it may outside
the conditions of Table 2-6, each stream alone in order of deadline. -/
def State.planDecodes (s : State) : State :=
  let epochs := (s.srv.streams.map fun e => s.epochOf e.2).eraseDups
  epochs.foldl (fun (t : State) epoch =>
    let ns := t.dueDecode epoch
    if ns.isEmpty then t
    else
      let u := t.planDecode ns
      if u.srv.stepSeq != t.srv.stepSeq then u
      else (sortBy (fun n => ((t.stream? n).bind Stream.deadline).getD 0) ns).foldl (fun t n => t.planDecode [n]) t) s

/-- The rows of a chunk on a batch axis. -/
def chunkRows (n adapter start units left axis : Nat) : List PassRow :=
  let row (i : Nat) : PassRow :=
    { stream := n, adapter := adapter, position := start + i, units := units
      output := units = left && i + 1 = units }
  if axis = 1 then (List.range units).map row else [row (units - 1)]

/-- Cost at the floor of the chunks of a stream that wait in the plan, and how many they are. -/
def State.chunksPlanned (s : State) (n : Nat) : Nat × Nat :=
  s.planner.steps.foldl (fun p y =>
    let units := y.unitsOf n
    if y.phase != 0 || y.started || units = 0 then p
    else
      let c := (s.store.active.bind fun r => s.costPrefill (s.reg Reg.SRV_FENCE_RESERVE = 1) r units
        (longest (y.rows.filter fun q => q.stream = n)) (adapterRuns y.rows)).getD 0
      (p.1 + c, p.2 + 1)) (0, 0)

/-- The chunks of a stream that the ledger holds for this frame are planned, one step each (R69, R71); where it holds
none any more, one chunk. The fuel bounds the chunks. -/
def State.planChunks (s : State) (n : Nat) : Nat → State
  | 0 => s
  | fuel + 1 =>
    match s.stream? n, s.store.active with
    | some x, some r =>
      let left := ((x.turn.map Turn.left).getD 0) - s.aheadUnits s.srv.stepSeq n
      let start := x.context + s.aheadUnits s.srv.stepSeq n
      let units := min 256 left
      let cost := (s.costPrefill (s.reg Reg.SRV_FENCE_RESERVE = 1) r units (start + units)
        (if x.adapter = 0xFFFF then 0 else 1)).getD 0
      let (used, count) := s.chunksPlanned n
      let due := used + cost ≤ kgetD x.reserved s.tb.frame 0 ||
        (count = 0 && !(x.reserved.any fun e => s.tb.frame ≤ e.1))
      if left = 0 || !due then s
      else
        let t := s.tryStep (s.stepProposals .prefill (chunkRows n x.adapter start units left))
        if t.srv.stepSeq = s.srv.stepSeq then s else State.planChunks t n fuel
    | _, _ => s

/-- Class-0 streams whose prompt is not yet prefilled, in order of deadline. -/
def State.duePrefill (s : State) : List Nat :=
  sortBy (fun n => ((s.stream? n).bind Stream.deadline).getD 0)
    ((s.srv.streams.filter fun e => e.2.cls = 0 && (e.2.turn.any fun u => u.accepted.isSome && u.left != 0)).map (·.1))

/-- The class-0 passes of a plan in the order of R60: prefill, then decode, each by deadline, the passes of a step
together. -/
def State.sortClass0 (s : State) : State :=
  let p := s.planner
  let due (e : PlanEntry) : Nat := s.rowsDeadline (((p.stepOf e.step).map StepRun.rows).getD e.rows)
  let zero (e : PlanEntry) : Bool := e.cls = 0 && e.isPass
  let key (e : PlanEntry) : Nat := (rankOf e.kind 0 * 2 ^ 65 + due e) * 2 ^ 64 + e.step
  { s with planner := { p with plan := sortBy key (p.plan.filter zero) ++ p.plan.filter fun e => !zero e } }

/-- The class-0 part of a plan: what Iandaol's policy proposes, and then the chunks and decode rows that the bounds of
R68 and R69 ask for and that the proposals leave out. How these are laid out is the model's choice, as policy is
Iandaol's (R3): DESIGN CHOICE, safe (log entry 37). -/
def State.planClass0 (s : State) (ps : List Proposal) : State :=
  let t := (ps.foldl (fun t p => t.tryProposal false p) s).dropDangling
  let t := if t.planning then (t.duePrefill.foldl (fun t n => t.planChunks n 9) t).planDecodes else t
  t.sortClass0

/-- The switch entry stands behind class 0 where it ends in time (R59, R60, R311). -/
def State.planSwitch (s : State) (left : List PlanEntry) : State :=
  match left.find? fun e => e.kind = .switchEntry with
  | some e => s.placeOld e
  | none => match s.switchDue with
    | some l =>
      let e := s.switchEntry l
      if s.entryFits false e then s.putEntry false e else s
    | none => s

/-- The plan is fixed at a frame boundary (R55, R60): class 0, then the switch entry, then classes 1 to 3. Entries of
the last frame that have not started take their place among those of the new one. -/
def State.fixPlan (s : State) (ps : List Proposal) : State :=
  let s := s.holdFull
  let p := s.planner
  let left := p.plan ++ p.moved
  let zero (e : PlanEntry) : Bool := e.cls = 0 && e.isPass
  let s := { s with planner := { p with plan := left.filter zero, moved := []
                                        lastTenant := p.firstTenant.getD p.lastTenant, firstTenant := none } }
  let s := s.planClass0 (ps.filter fun x => rankOf x.kind x.cls ≤ 1)
  let s := s.planSwitch left
  let items := ((left.filter fun e => !zero e && e.kind != .switchEntry).map PlanItem.old) ++ ps.map PlanItem.new
  let items := items ++ (s.targetedRun items).map PlanItem.new
  let s := (s.orderItems items).foldl State.placeItem s
  { s with planner := { s.planner with planned := s.planner.plan.length, planFrame := s.tb.boundaryFst } }

/-- Tail fill at another slot boundary (R62). -/
def State.tailFill (s : State) (ps : List Proposal) : State :=
  let s := s.holdFull
  (s.orderItems (ps.map PlanItem.new)).foldl (fun t x => match x with
    | .new p => t.tryProposal true p
    | .old _ => t) s

/-! ### WCET_OVERRUN and HOLDOVER_LIMIT -/

/-- WCET_OVERRUN (R66): a pass still runs at its planned worst-case end. It goes on, and the event names the last and
the buckets once. -/
def execWcetOverrun (cyc : Nat) (s : State) : Host.Outcome State Fault Refusal :=
  match s.planner.running with
  | none => .next s
  | some r =>
    let s := s.stamp cyc
    if r.overrun || !r.entry.isPass || s.clock < r.planEnd then .next s
    else
      let t := { s with planner := { s.planner with running := some { r with overrun := true } } }
      .next (t.raiseFor 0x0707 (passEventGroup r.entry.rows) r.entry.bucketArg r.entry.lastId r.passNumber)

/-- HOLDOVER_LIMIT (R53): every class-0 stream becomes class 1 at once. -/
def execHoldoverLimit (s : State) : Host.Outcome State Fault Refusal :=
  if s.tb.state = .holdover && 16000 ≤ s.tb.holdSlots then
    let t := { s with tb := { s.tb with state := .holdoverLimit } }
    let ns := t.class0
    .next ((t.raise 0x0704 ns.length 0 0).downgrade ns 1)
  else .next s

end Sys2Proof.Machine
end

