-- ==== Sys2Proof/Machine/Intake.lean ====
section
/-! DEFINITION. The intake (chapter 10): the checks of a record (R335), what each KIND does (R334, R338, R351), the
copies of inputs (R337), and the acceptance of turns at a frame boundary (R336, R338, R310). -/

namespace Sys2Proof

/-! ### The fields of a record (R333, R335) -/

/-- Bytes of an input. -/
def IntakeRecord.inputBytes (r : IntakeRecord) : Nat :=
  if r.inputFormat = 0 then 4 * r.inputUnits else r.inputRowBytes * r.inputUnits

/-- A deadline pair: both from 1 to 255 where they are used, both zero elsewhere. -/
def IntakeRecord.deadlinesOk (r : IntakeRecord) (used : Bool) : Bool :=
  if used then 1 ≤ r.firstDeadline && r.firstDeadline ≤ 255 && 1 ≤ r.tokenDeadline && r.tokenDeadline ≤ 255
  else r.firstDeadline = 0 && r.tokenDeadline = 0

/-- Fields of an input that OPEN and APPEND share. -/
def IntakeRecord.inputOk (r : IntakeRecord) : Bool :=
  r.inputFormat ≤ 1 && r.stopCount ≤ 4 && r.inputOffset % 64 = 0 && 1 ≤ r.inputUnits && 1 ≤ r.maxNew &&
    r.maxNew ≤ 32768 && r.inputBytes ≤ 67108864 &&
    (if r.inputFormat = 1 then 1 ≤ r.inputRowBytes && r.inputRowBytes % 64 = 0 else r.inputRowBytes = 0)

/-- FLAGS of a KIND (Table 10-3). -/
def IntakeRecord.flagsOk (r : IntakeRecord) : Bool :=
  match r.kind with
  | 1 => r.flags < 8
  | 2 => r.flags = 0 || r.flags = 4
  | 3 => r.flags < 2
  | _ => r.flags = 0

/-- Whether the fields that only OPEN uses are zero. -/
def IntakeRecord.noOpen (r : IntakeRecord) : Bool :=
  r.tenant = 0 && r.cls = 0 && r.maxContext = 0 && r.adapter = 0 && r.seed = 0 && r.temperature = 0 && r.outOffset = 0 &&
    r.outEntries = 0 && r.outEntryBytes = 0 && r.packageTag = 0

/-- Whether the fields that only OPEN and APPEND use are zero. -/
def IntakeRecord.noInput (r : IntakeRecord) : Bool :=
  r.inputFormat = 0 && r.stopCount = 0 && r.inputOffset = 0 && r.inputUnits = 0 && r.maxNew = 0 && r.inputRowBytes = 0 &&
    r.firstDeadline = 0 && r.tokenDeadline = 0 && r.stops.all (· == 0)

/-- Reserved bytes and the fields that the KIND does not use are zero (R333). -/
def IntakeRecord.clean (r : IntakeRecord) : Bool :=
  r.reserved && r.flagsOk &&
    match r.kind with
    | 1 => true
    | 2 => r.noOpen
    | _ => r.noOpen && r.noInput

/-- Fields that only OPEN uses. -/
def IntakeRecord.openOk (r : IntakeRecord) : Bool :=
  r.tenant ≤ 1023 && r.cls ≤ 2 && r.outOffset % 64 = 0 && 16 ≤ r.outEntries && r.outEntries ≤ 65536 &&
    2 ^ r.outEntries.log2 = r.outEntries &&
    (r.outEntryBytes = 8 || (64 ≤ r.outEntryBytes && r.outEntryBytes ≤ 65536 && r.outEntryBytes % 64 = 0)) &&
    (r.temperature.toNat ≤ 0x41800000 || r.temperature = 0x80000000) && r.deadlinesOk (r.cls = 1)

end Sys2Proof

namespace Sys2Proof.Machine

/-! ### The read -/

/-- A record may be processed: a read is in progress, no seal is, and the record is the next one (R331, R332). -/
def State.takesRecord (s : State) : Bool := s.srv.intake.left != 0 && s.srv.sealing.isEmpty

def State.modIntake (s : State) (f : Intake → Intake) : State :=
  { s with srv := { s.srv with intake := f s.srv.intake } }

/-- A record has been taken or refused; the read ends with its last record. -/
def State.recordDone (s : State) : State :=
  let t := s.modIntake fun k =>
    { k with consumer := (k.consumer + 1) % 2 ^ 32, left := k.left - 1, copyDue := true
             records := sat 64 (k.records + 1) }
  if t.srv.intake.left = 0 then t.endRead else t

/-- The notice of a record (R348). -/
def State.answer (s : State) (r : IntakeRecord) (status flags : Nat) : State :=
  s.notify { stream := r.stream, status := status, reqTag := r.reqTag, kind := r.kind, flags := flags, data := 0 }

/-- SRV_INTAKE_FAULT (R331, R335). -/
def State.intakeFault (s : State) (index why : Nat) : State :=
  (s.modIntake fun k => { k with faults := sat 32 (k.faults + 1) }).raise 0x0708 index s.srv.intake.producer why

/-! ### Turns -/

/-- The turn that a record asks for. -/
def State.turnOf (s : State) (r : IntakeRecord) (carry : Option Nat) (untested : Bool) : Turn :=
  { reqTag := r.reqTag, kind := r.kind, format := r.inputFormat, rowBytes := r.inputRowBytes, units := r.inputUnits
    maxNew := r.maxNew, stops := r.stops.take r.stopCount, lateDiscard := bit r.flags 2
    firstDeadline := r.firstDeadline, tokenDeadline := r.tokenDeadline, readFrame := s.srv.intake.frame
    buffer := r.inputBytes, carry := carry, untested := untested }

/-- A tenant's budget; FFFFFFFFh is unlimited (R339). -/
def State.overBudget (s : State) (tenant units : Nat) : Bool :=
  let b := kgetD s.srv.budgets tenant 0xFFFFFFFF
  b != 0xFFFFFFFF && b < kgetD s.srv.tenantUsed tenant 0 + units

def State.charge (s : State) (tenant units : Nat) : State :=
  { s with srv := { s.srv with tenantUsed := kcount s.srv.tenantUsed tenant fun n => sat 32 (n + units) } }

/-- Whether an input fits the free part of the input buffer, 64 MiB (R337). -/
def State.bufferFits (s : State) (r : IntakeRecord) : Bool := s.srv.intake.bufferUsed + r.inputBytes ≤ 67108864

/-- An input is taken: it is charged, holds buffer and is copied. -/
def State.takeInput (s : State) (r : IntakeRecord) (tenant : Nat) : State :=
  (s.charge tenant r.inputUnits).modIntake fun k =>
    { k with bufferUsed := k.bufferUsed + r.inputBytes, copying := k.copying ++ [r.stream] }

/-- A record is refused: nothing changes but the tenant's refusal count. -/
def State.refuse (s : State) (r : IntakeRecord) (status : Nat) : State :=
  let n := s.srv.budgetRefusals
  let t := { s with srv := { s.srv with
    budgetRefusals := if status = Status.BUDGET_EXHAUSTED then sat 32 (n + 1) else n } }
  (t.answer r status 0).recordDone

/-! ### Packages (R310) -/

/-- The package that an OPEN names, and whether the request is held for the switch; or a refusal. -/
def State.packageFor (s : State) (tag : Nat) : Except Nat (Resident × Bool) :=
  let switching := s.store.switchKind = 1 && s.store.switchState != .idle
  if switching && tag = s.store.switchTarget then
    match s.store.switchState, s.store.staged with
    | .staged, some r | .switching, some r => .ok (r, true)
    | _, _ => .error Status.MODEL_SWITCHING
  else
    match s.store.active with
    | some r => if tag = s.store.packageTag then
        (if switching then .error Status.MODEL_SWITCHING else .ok (r, false)) else .error Status.NO_MODEL
    | none => .error Status.NO_MODEL

/-- Whether a package has an adapter that streams may select. -/
def Resident.hasAdapter (r : Resident) (a : Nat) : Bool := a = 0xFFFF || r.adapters.contains a

/-! ### OPEN -/

/-- Steps 3 to 7 of R335 for an OPEN. -/
def State.checkOpen (s : State) (r : IntakeRecord) : Except Nat (Resident × Bool) :=
  if !r.clean || !r.inputOk || !r.openOk then .error Status.FIELD_INVALID
  else match s.packageFor r.packageTag with
    | .error e => .error e
    | .ok (p, held) =>
      if !p.hasAdapter r.adapter then .error Status.ADAPTER_UNKNOWN
      else if p.manifest.maxContext < r.maxContext || r.maxContext < r.inputUnits then .error Status.CONTEXT_LIMIT
      else if s.overBudget r.tenant r.inputUnits then .error Status.BUDGET_EXHAUSTED
      else if r.cls = 0 && !held && 2048 < r.inputUnits then .error Status.INPUT_TOO_LONG
      else .ok (p, held)

/-- The stream that an OPEN creates. -/
def State.streamOf (s : State) (r : IntakeRecord) (held : Bool) : Stream :=
  { state := .pending, cls := r.cls, openedCls := r.cls, tenant := r.tenant, keep := bit r.flags 0
    pin := bit r.flags 1, heldSwitch := held, adapter := r.adapter, packageTag := r.packageTag
    maxContext := r.maxContext, seed := r.seed, temperature := r.temperature, outOffset := r.outOffset
    outEntries := r.outEntries, outEntryBytes := r.outEntryBytes
    turn := some (s.turnOf r none (held && r.cls = 0)) }

/-- An OPEN is taken. -/
def State.takeOpen (s : State) (r : IntakeRecord) (held : Bool) : State :=
  let x := s.streamOf r held
  { s with srv := { s.srv with streams := kset s.srv.streams r.stream x } }.takeInput r r.tenant

/-- Step 8 of R335: the test of R71 for the stream of a record, in a frame. -/
def State.testFor (s : State) (p : Resident) (q : Ask) (parity : Option Nat) (frame : Nat) : Except Nat Grant :=
  s.testClass0 (s.reg Reg.SRV_FENCE_RESERVE = 1) p q frame parity

/-- OPEN (R334, R335, R310). -/
def execOpenStream (cyc : Nat) (r : IntakeRecord) (s : State) : Host.Outcome State Fault Refusal :=
  if !s.takesRecord || r.kind ≠ 1 then .next s
  else
    let s := s.stamp cyc
    if r.ringSeq ≠ s.srv.intake.consumer % 65536 then .next s.endRead.pump
    else if 8191 < r.stream then .next (s.intakeFault s.srv.intake.consumer 2).recordDone.pump
    else if (s.stream? r.stream).isSome then .next (s.refuse r Status.STREAM_IN_USE).pump
    else match s.checkOpen r with
      | .error e => .next (s.refuse r e).pump
      | .ok (p, held) =>
        if !s.bufferFits r then .next s.endRead.pump
        else if held || r.cls ≠ 0 then
          let t := s.takeOpen r held
          .next (if r.cls = 0 then t else t.answer r Status.ACCEPTED 0).recordDone.pump
        else
          let q : Ask := { stream := r.stream, adapter := r.adapter, prompt := r.inputUnits, context := 0
                           maxContext := r.maxContext }
          match s.testFor p q none s.srv.intake.frame with
          | .error e => .next (s.refuse r e).pump
          | .ok g => .next (((s.takeOpen r held).adopt r.stream g).answer r Status.ADMITTED 0).recordDone.pump

/-! ### APPEND (R338) -/

/-- Whether a turn is in progress or waits for its acceptance. -/
def Stream.busy (x : Stream) : Bool := x.turn.isSome || !x.queued.isEmpty

/-- The package that a stream runs. -/
def State.packageOf (s : State) (x : Stream) : Option Resident :=
  if x.packageTag = s.store.packageTag then s.store.active else none

/-- Checks 5 and 6 of R335 for a turn: adapter, and the context with the carried token. -/
def State.checkTurn (s : State) (x : Stream) (units : Nat) : Except Nat Unit :=
  if !((s.packageOf x).any fun p => p.hasAdapter x.adapter) then .error Status.ADAPTER_UNKNOWN
  else if x.maxContext < x.context + units + (if x.lastToken.isSome && !x.busy then 1 else 0) then
    .error Status.CONTEXT_LIMIT
  else .ok ()

/-- Steps 2 to 7 of R335 for an APPEND. -/
def State.checkAppend (s : State) (x : Stream) (r : IntakeRecord) : Except Nat Unit :=
  if x.state = .pending || x.state = .ending then .error Status.NO_STREAM
  else if x.busy && 4 ≤ x.queued.length then .error Status.STREAM_BUSY
  else if !r.clean || !r.inputOk || !r.deadlinesOk (x.openedCls = 1) then .error Status.FIELD_INVALID
  else match s.checkTurn x r.inputUnits with
    | .error e => .error e
    | .ok _ =>
      if s.overBudget x.tenant r.inputUnits then .error Status.BUDGET_EXHAUSTED
      else if x.cls = 0 && !x.busy && 2048 < r.inputUnits then .error Status.INPUT_TOO_LONG
      else .ok ()

/-- A PARKED stream unparks ahead of a turn (R278): at once, or after a park in progress. -/
def State.wantUnpark (s : State) (n tag : Nat) : State :=
  match kget? s.pages.moves n with
  | some m => if m.out then s.modStream n fun y => { y with unparkAsked := some tag } else s
  | none => s.startUnpark n tag

/-- The turn of an APPEND becomes the stream's next turn, or queues. -/
def State.takeAppend (s : State) (r : IntakeRecord) (x : Stream) : State :=
  let t := s.modStream r.stream fun y =>
    if y.busy then { y with queued := y.queued ++ [s.turnOf r none (y.cls = 0)] }
    else { y with turn := some (s.turnOf r y.lastToken false) }
  let t := t.takeInput r x.tenant
  if x.state = .parked && !x.busy then t.wantUnpark r.stream r.reqTag else t

/-- APPEND (R334, R335, R338). -/
def execAppend (cyc : Nat) (r : IntakeRecord) (s : State) : Host.Outcome State Fault Refusal :=
  if !s.takesRecord || r.kind ≠ 2 then .next s
  else
    let s := s.stamp cyc
    if r.ringSeq ≠ s.srv.intake.consumer % 65536 then .next s.endRead.pump
    else if 8191 < r.stream then .next (s.intakeFault s.srv.intake.consumer 2).recordDone.pump
    else match s.stream? r.stream with
      | none => .next (s.refuse r Status.NO_STREAM).pump
      | some x =>
        match s.checkAppend x r with
        | .error e => .next (s.refuse r e).pump
        | .ok _ =>
          if !s.bufferFits r then .next s.endRead.pump
          else if x.cls ≠ 0 || x.busy then
            let t := s.takeAppend r x
            .next (if x.cls = 0 then t else t.answer r Status.ACCEPTED 0).recordDone.pump
          else
            let carry := if x.lastToken.isSome then 1 else 0
            let q : Ask := { stream := r.stream, adapter := x.adapter, prompt := r.inputUnits + carry
                             context := x.context, maxContext := x.maxContext }
            match s.packageOf x with
            | none => .next (s.refuse r Status.NO_MODEL).pump
            | some p =>
              match s.testFor p q (if x.state = .idle then x.parity else none) s.srv.intake.frame with
              | .error e => .next (s.refuse r e).pump
              | .ok g => .next (((s.takeAppend r x).adopt r.stream g).answer r Status.ADMITTED 0).recordDone.pump

/-! ### NOP, CANCEL, CLOSE, PARK, UNPARK -/

/-- NOP (R334): no notice; a KIND above 6 is refused, and so is a non-zero reserved byte (R333). -/
def execNop (cyc : Nat) (r : IntakeRecord) (s : State) : Host.Outcome State Fault Refusal :=
  if !s.takesRecord || (1 ≤ r.kind && r.kind ≤ 6) then .next s
  else
    let s := s.stamp cyc
    if r.ringSeq ≠ s.srv.intake.consumer % 65536 then .next s.endRead.pump
    else if 8191 < r.stream then .next (s.intakeFault s.srv.intake.consumer 2).recordDone.pump
    else if r.kind ≠ 0 || !r.clean then .next (s.refuse r Status.FIELD_INVALID).pump
    else .next s.recordDone.pump

/-- Whether a step of a stream is in flight: it has started and is not sealed (R351). -/
def State.inFlight (s : State) (n : Nat) : Bool :=
  s.planner.steps.any fun x => x.started && x.streams.contains n

/-- Turns that queue are dropped, and their buffer with them. -/
def State.dropQueued (s : State) (n : Nat) : State :=
  match s.stream? n with
  | none => s
  | some x => (s.freeBuffer (x.queued.map (·.buffer)).sum).modStream n fun y => { y with queued := [] }

/-- A CANCEL that takes effect at once (R351, R357): what it does, and the flags of its notice. -/
def State.cancelNow (s : State) (n : Nat) (x : Stream) (turnOnly : Bool) : State × Nat :=
  let s := (s.dropRows fun k => k = n).dropQueued n
  if x.state = .pending || !turnOnly then (s.dropStream n, noticeFlags (x.inTurn || x.state = .pending) true)
  else if x.state = .parked then
    ((s.freeBuffer ((x.turn.map (·.buffer)).getD 0)).modStream n fun y => { y with turn := none }
      , noticeFlags x.inTurn false)
  else if x.inTurn then
    let ends := !x.keep || x.closeAsked.isSome
    (s.endTurn n, noticeFlags true ends)
  else (s, 0)

/-- CANCEL (R334, R351). -/
def execCancel (cyc : Nat) (r : IntakeRecord) (s : State) : Host.Outcome State Fault Refusal :=
  if !s.takesRecord || r.kind ≠ 3 then .next s
  else
    let s := s.stamp cyc
    if r.ringSeq ≠ s.srv.intake.consumer % 65536 then .next s.endRead.pump
    else if 8191 < r.stream then .next (s.intakeFault s.srv.intake.consumer 2).recordDone.pump
    else
      let gone := match s.stream? r.stream with
        | none => true
        | some x => x.state = .ending
      if !r.clean then .next (s.refuse r Status.FIELD_INVALID).pump
      else match gone, s.stream? r.stream with
        | false, some x =>
          if s.inFlight r.stream then
            .next (((s.dropQueued r.stream).modStream r.stream fun y =>
              { y with cancelAsked := some (bit r.flags 0) }).answer r Status.ACCEPTED 0).recordDone.pump
          else
            let (t, flags) := s.cancelNow r.stream x (bit r.flags 0)
            .next (t.answer r Status.CANCELLED flags).recordDone.pump
        | _, _ => .next (s.answer r Status.ALREADY_COMPLETE 0).recordDone.pump

/-- CLOSE (R334). -/
def execClose (cyc : Nat) (r : IntakeRecord) (s : State) : Host.Outcome State Fault Refusal :=
  if !s.takesRecord || r.kind ≠ 4 then .next s
  else
    let s := s.stamp cyc
    if r.ringSeq ≠ s.srv.intake.consumer % 65536 then .next s.endRead.pump
    else if 8191 < r.stream then .next (s.intakeFault s.srv.intake.consumer 2).recordDone.pump
    else match s.stream? r.stream with
      | none => .next (s.refuse r Status.NO_STREAM).pump
      | some x =>
        if x.state = .ending then .next (s.refuse r Status.NO_STREAM).pump
        else if !r.clean then .next (s.refuse r Status.FIELD_INVALID).pump
        else if x.busy then
          .next ((s.modStream r.stream fun y => { y with closeAsked := some r.reqTag }).answer r Status.ACCEPTED 0
            ).recordDone.pump
        else .next ((s.dropStream r.stream).answer r Status.COMPLETE (noticeFlags false true)).recordDone.pump

/-- PARK (R334, R278, R626). -/
def execPark (cyc : Nat) (r : IntakeRecord) (s : State) : Host.Outcome State Fault Refusal :=
  if !s.takesRecord || r.kind ≠ 5 then .next s
  else
    let s := s.stamp cyc
    if r.ringSeq ≠ s.srv.intake.consumer % 65536 then .next s.endRead.pump
    else if 8191 < r.stream then .next (s.intakeFault s.srv.intake.consumer 2).recordDone.pump
    else match s.stream? r.stream with
      | none => .next (s.refuse r Status.NO_STREAM).pump
      | some x =>
        if x.state = .ending || x.state = .pending then .next (s.refuse r Status.NO_STREAM).pump
        else if !r.clean then .next (s.refuse r Status.FIELD_INVALID).pump
        else
          let ask : State := s.modStream r.stream fun y => { y with parkAsked := some r.reqTag }
          let t :=
            if x.state = .parked then
              if !x.busy && (kget? s.pages.moves r.stream).isNone && !(s.pages.residentPages r.stream).isEmpty then
                ask.askPark r.stream
              else s
            else if x.busy then ask
            else ask.askPark r.stream
          .next (t.answer r Status.ACCEPTED 0).recordDone.pump

/-- UNPARK (R334, R278). -/
def execUnpark (cyc : Nat) (r : IntakeRecord) (s : State) : Host.Outcome State Fault Refusal :=
  if !s.takesRecord || r.kind ≠ 6 then .next s
  else
    let s := s.stamp cyc
    if r.ringSeq ≠ s.srv.intake.consumer % 65536 then .next s.endRead.pump
    else if 8191 < r.stream then .next (s.intakeFault s.srv.intake.consumer 2).recordDone.pump
    else match s.stream? r.stream with
      | none => .next (s.refuse r Status.NO_STREAM).pump
      | some x =>
        if x.state ≠ .parked then .next (s.refuse r Status.NO_STREAM).pump
        else if !r.clean then .next (s.refuse r Status.FIELD_INVALID).pump
        else .next ((s.wantUnpark r.stream r.reqTag).answer r Status.ACCEPTED 0).recordDone.pump

/-! ### Input copies (R337) -/

/-- The next input of a stream that is being copied has come, or its copy has failed. -/
def Stream.copyIn (x : Stream) (failed : Bool) : Stream :=
  let mark (u : Turn) : Turn := { u with copied := true, copyFailed := failed }
  if x.turn.any fun u => !u.copied then { x with turn := x.turn.map mark }
  else { x with queued := x.queued.takeWhile (·.copied) ++
      match x.queued.dropWhile (·.copied) with
      | u :: us => mark u :: us
      | [] => [] }

/-- Turns whose copy has failed end with INPUT_READ_ERROR. -/
def State.copyFailed (s : State) (n : Nat) : State :=
  match s.stream? n with
  | none => s
  | some x =>
    let lost := x.queued.filter (·.copyFailed)
    let t := (s.freeBuffer (lost.map (·.buffer)).sum).modStream n fun y =>
      { y with queued := y.queued.filter (!·.copyFailed) }
    let t := lost.foldl (fun (t : State) u => t.notifyLater
      { stream := n, status := Status.INPUT_READ_ERROR, reqTag := u.reqTag, kind := u.kind
        flags := noticeFlags true false, data := 0 }) t
    if x.turn.any (·.copyFailed) then (t.dropRows fun k => k = n).failTurn n Status.INPUT_READ_ERROR else t

/-- INPUT_COPY_COMPLETE (R337): CONSUMER is written once every copy of the read is complete. `failed` lists the copies that
failed, by their place among those of the read, which are in ring order. -/
def execInputCopyComplete (cyc : Nat) (failed : List Nat) (s : State) : Host.Outcome State Fault Refusal :=
  let k := s.srv.intake
  if k.left ≠ 0 || k.copying.isEmpty then .next s
  else
    let t := k.copying.zipIdx.foldl (fun (t : State) e =>
      t.modStream e.1 fun x => x.copyIn (failed.contains e.2)) (s.stamp cyc)
    let t := k.copying.eraseDups.foldl State.copyFailed t
    .next (t.modIntake fun k => { k with copying := [] }).endRead.pump

/-! ### Acceptance at a frame boundary (R336, R338, R310) -/

/-- The test of R71 that a turn still waits for, with the frame that the boundary closes. -/
def State.lateTest (s : State) (n : Nat) (x : Stream) : Except Nat State :=
  match s.packageOf x with
  | none => .error Status.NO_MODEL
  | some p =>
    match s.testFor p (x.ask n) x.parity (s.tb.frame - 1) with
    | .ok g => .ok (s.adopt n g)
    | .error e => .error e

/-- A turn that fails its second check is dropped (R338). -/
def State.dropTurn (s : State) (n status : Nat) (u : Turn) : State :=
  ((s.freeBuffer u.buffer).modStream n fun y => { y with turn := none }).notify
    { stream := n, status := status, reqTag := u.reqTag, kind := u.kind, flags := 0, data := 0 }

/-- What a stream does when its turn is over and no turn is left to queue (R350). -/
def State.afterTurns (s : State) (n : Nat) : State :=
  match s.stream? n with
  | none => s
  | some x =>
    if x.closeAsked.isSome then s.endStream n Status.COMPLETE
    else if x.state = .pending && !x.keep then s.dropStream n
    else
      let t := s.modStream n fun y => { y with state := if y.state = .pending then .idle else y.state }
      if x.parkAsked.isSome then t.askPark n else t

/-- The stream's turn, checked where it still has to be, is accepted; where it fails, the next queued turn is tried.
The fuel bounds the turns. -/
def State.acceptNext (s : State) (n : Nat) : Nat → State
  | 0 => s
  | fuel + 1 =>
    match s.stream? n with
    | none => s
    | some x =>
      match x.turn, x.queued with
      | some u, _ =>
        if u.accepted.isSome then s
        else if !u.untested then s.acceptTurn n
        else
          let checked : Except Nat State :=
            if x.cls = 0 then (if 2048 < u.units then .error Status.INPUT_TOO_LONG else s.lateTest n x) else .ok s
          match checked with
          | .ok t => (t.acceptTurn n).notify
              { stream := n, status := if x.cls = 0 then Status.ADMITTED else Status.ACCEPTED, reqTag := u.reqTag
                kind := u.kind, flags := 0, data := 0 }
          | .error e =>
            let t := s.dropTurn n e u
            if x.queued.isEmpty then t.afterTurns n else State.acceptNext t n fuel
      | none, u :: rest =>
        let v : Turn := { u with carry := x.lastToken }
        let y : Stream := { x with queued := rest }
        match s.checkTurn { y with queued := [] } u.units with
        | .ok _ => State.acceptNext (s.modStream n fun _ => { y with turn := some v }) n fuel
        | .error e =>
          let t := (s.modStream n fun _ => y).dropTurn n e u
          if rest.isEmpty then t.afterTurns n else State.acceptNext t n fuel
      | none, [] => s

/-- Whether a stream's next turn is accepted at this frame boundary: it was read in an earlier frame, and the
stream is neither parked nor held for a switch. -/
def State.acceptDue (s : State) (x : Stream) : Bool :=
  let due (u : Turn) : Bool := u.accepted.isNone && u.readFrame < s.tb.frame
  (x.state = .pending || x.state = .idle) && !x.heldSwitch &&
    match x.turn, x.queued with
    | some u, _ => due u
    | none, u :: _ => due u
    | none, [] => false

/-- Every turn that is due is accepted, in ascending stream number. -/
def State.acceptAll (s : State) : State :=
  s.srv.streams.foldl (fun (t : State) (e : Nat × Stream) =>
    if s.acceptDue e.2 then t.acceptNext e.1 6 else t) s

end Sys2Proof.Machine
end

