-- ==== Sys2Proof/Machine/Seal.lean ====
section
/-! DEFINITION. Completion (chapter 10): the seal of a step (R346 to R352), NOTICE records (R348), ring geometry
(R358), and the slow-down sums (R356). -/

namespace Sys2Proof.Machine

/-! ### Placing records in a completion ring (R347) -/

/-- A completion record's header (Table 10-7). -/
def recordHeader (kind group units count phase cls stepSeq fst epoch passes cycles wcet tag : Nat) : List Byte :=
  le 1 kind ++ le 1 group ++ le 2 units ++ le 2 count ++ le 1 phase ++ le 1 cls ++ le 8 stepSeq ++ le 8 fst ++
    le 4 epoch ++ le 2 passes ++ le 2 0 ++ le 4 cycles ++ le 4 wcet ++ le 8 tag ++ le 16 0

/-- Offset of unit `i` of completion ring `g` in host-link space. -/
def State.unitAt (s : State) (g i : Nat) : Nat :=
  s.inWindow 1 (s.compBase g + 0x80 + 64 * (i % max 1 (s.reg Reg.SRV_COMP_UNITS)))

/-- Writes that put a record into ring `g` from its PRODUCER on, behind a PAD where it would wrap, and the ring
after it. -/
def State.putRecord (s : State) (g : Nat) (req : HostReq) (bytes : List Byte) : List HostAccess × CompRing :=
  let ring : CompRing := kgetD s.srv.comp g {}
  let units := s.reg Reg.SRV_COMP_UNITS
  let need := ceilDiv bytes.length 64
  let left := units - ring.producer % max 1 units
  let body := padTo bytes (64 * need)
  let write (i : Nat) (b : List Byte) : List HostAccess := hostWrites 0 req (b.length + 1) (s.unitAt g i) b
  if left < need then
    let pad := padTo (recordHeader 3 g left 0 0 0 0 s.fst 0 0 0 0 s.store.packageTag) (64 * left)
    (write ring.producer pad ++ write (ring.producer + left) body,
      { ring with producer := (ring.producer + left + need) % 2 ^ 32 })
  else (write ring.producer body, { ring with producer := (ring.producer + need) % 2 ^ 32 })

/-- The write of PRODUCER of completion ring `g`. -/
def State.compProducer (s : State) (g value : Nat) (req : HostReq) : List HostAccess :=
  hostWrites 0 req 2 (s.inWindow 1 (s.compBase g)) (le 4 value)

/-- Whether a record of so many entries has room in ring `g` now. -/
def State.recordFits (s : State) (g entries : Nat) : Bool :=
  let units := s.reg Reg.SRV_COMP_UNITS
  let ring : CompRing := kgetD s.srv.comp g {}
  units != 0 && ring.need units (recordUnits entries) ≤ ring.room units

/-! ### NOTICE records (R348) -/

/-- The 16 bytes of a NOTICE entry (Table 10-9). -/
def Notice.bytes (n : Notice) : List Byte :=
  le 2 n.stream ++ le 2 n.status ++ le 4 n.reqTag ++ le 1 n.kind ++ le 1 n.flags ++ le 2 0 ++ le 4 n.data

/-- NOTICE_WRITE: the waiting entries of a group leave as one record (at most 256 entries) once its ring has room,
no read is in progress, and no seal is. -/
def execNoticeWrite (cyc group : Nat) (s : State) : Host.Outcome State Fault Refusal :=
  onUnit (group < 32) (
    let all : List Notice := kgetD s.srv.notices group []
    let ns := all.take 256
    if ns.isEmpty || s.srv.intake.left != 0 || !s.srv.sealing.isEmpty || !s.recordFits group ns.length then s
    else
      let s := s.stamp cyc
      let b := recordHeader 2 group (recordUnits ns.length) ns.length 0 0 0 s.fst 0 0 0 0 s.store.packageTag ++
        ns.flatMap Notice.bytes
      let (ws, ring) := s.putRecord group .notice b
      let rest := all.drop 256
      let t := { s with srv := { s.srv with
        notices := if rest.isEmpty then kdel s.srv.notices group else kset s.srv.notices group rest
        comp := kset s.srv.comp group ring } }
      (t.chain (ws ++ t.compProducer group ring.producer .notice)).pump)

/-! ### What a seal decides (R350 to R352) -/

/-- Whether a step produces an output for a stream. -/
def StepRun.outputRow (x : StepRun) (n : Nat) : Option PassRow := x.rows.find? fun r => r.stream = n && r.output

/-- What the seal of a step decides for one of its streams; none where it has ended meanwhile. -/
def State.sealRow (s : State) (x : StepRun) (n : Nat) : Option SealRow :=
  match s.stream? n with
  | none => none
  | some y =>
    match y.turn with
    | none => none
    | some u =>
      if y.state != .active then none
      else
        let out := x.outputRow n
        let got : Option StepOutput := x.outputs.find? (·.stream = n)
        let token := ((got.map (·.token)).getD 0)
        let truncated := (got.map (·.truncated)).getD false
        let plain : SealRow := { stream := n, reqTag := u.reqTag, entry := false, units := x.unitsOf n }
        match y.cancelAsked, out with
        | some turnOnly, some r =>
          some { plain with entry := true, outStatus := Status.SUPPRESSED, token := token, position := r.position + 1
                            turnEnd := true, streamEnd := !turnOnly || !y.keep || y.closeAsked.isSome
                            endStatus := Status.CANCELLED, output := true, suppressed := true, turnOnly := turnOnly }
        | some turnOnly, none =>
          some { plain with entry := true, outStatus := Status.SUPPRESSED, position := y.context, turnEnd := true
                            streamEnd := !turnOnly || !y.keep || y.closeAsked.isSome
                            endStatus := Status.CANCELLED, suppressed := true, turnOnly := turnOnly }
        | none, none => some plain
        | none, some r =>
          let late := match y.deadline with
            | some d => d ≤ s.fst
            | none => false
          let discard := late && u.lateDiscard
          let full := y.maxContext ≤ r.position + 2
          let done := (got.any fun o => o.tensor.isEmpty && u.stops.contains o.token) || u.maxNew ≤ u.outputs + 1
          let ends := full || done
          some { plain with entry := true, outStatus := if discard then Status.LATE_DISCARDED else 0, token := token
                            position := r.position + 1, late := late, turnEnd := ends
                            streamEnd := ends && y.endsWithTurn, truncated := truncated
                            endStatus := if !ends then 0 else if full then Status.CONTEXT_FULL else Status.COMPLETE
                            output := true, delivered := !discard }

/-- FLAGS of a STEP entry (Table 10-8). -/
def SealRow.flags (r : SealRow) : Nat :=
  ofBit r.late + 2 * ofBit r.turnEnd + 4 * ofBit r.streamEnd + 8 * ofBit r.truncated

/-- The 16 bytes of a STEP entry. -/
def SealRow.bytes (r : SealRow) : List Byte :=
  le 2 r.stream ++ le 2 r.outStatus ++ le 4 r.token ++ le 4 r.position ++ le 1 r.flags ++ le 1 0 ++ le 2 r.endStatus

/-- Offset of the entry at PRODUCER of a stream's output ring. -/
def State.outputAt (s : State) (x : Stream) : Nat :=
  s.inWindow 1 (x.outOffset + 0x80 + x.outProducer % max 1 x.outEntries * x.outEntryBytes)

/-- Writes of FLAGS and of PRODUCER for a delivered output. -/
def State.flagWrite (s : State) (step : Nat) (r : SealRow) : List HostAccess :=
  match s.stream? r.stream with
  | some x =>
    let at_ := s.outputAt x + (if x.outEntryBytes = 8 then 6 else 8)
    hostWrites 0 (.seal step false) 2 at_ (le 1 r.flags)
  | none => []

def State.outProducerWrite (s : State) (step : Nat) (r : SealRow) : List HostAccess :=
  match s.stream? r.stream with
  | some x =>
    hostWrites 0 (.seal step true) 2 (s.inWindow 1 x.outOffset) (le 4 ((x.outProducer + 1) % 2 ^ 32))
  | none => []

/-- Nominal fabric cycles from a step's first pass start to its last pass end. -/
def StepRun.cycles (x : StepRun) : Nat := x.lastEnd - x.firstStart

/-- The writes of a step's seal in the order of R346, and the completion rings after them. -/
def State.sealWrites (s : State) (x : StepRun) (rows : List SealRow) : List HostAccess × KMap CompRing :=
  let es := rows.filter (·.entry)
  let gs := (es.map fun r => groupOf r.stream).eraseDups
  let (recs, comp) := gs.foldl (fun (p : List HostAccess × KMap CompRing) g =>
    let mine := es.filter fun r => groupOf r.stream = g
    let b := recordHeader 1 g (recordUnits mine.length) mine.length x.phase x.cls x.number s.fst x.epoch x.passes
      (x.cycles % 2 ^ 32) (x.wcet % 2 ^ 32) s.store.packageTag ++ mine.flatMap SealRow.bytes
    let (ws, ring) := s.putRecord g (.seal x.number false) b
    (p.1 ++ ws, kset p.2 g ring)) ([], s.srv.comp)
  let outs := rows.filter (·.delivered)
  let idx := gs.flatMap fun g => s.compProducer g (kgetD comp g {}).producer (.seal x.number true)
  (recs ++ outs.flatMap (s.flagWrite x.number) ++ outs.flatMap (s.outProducerWrite x.number) ++ idx, comp)

/-- Whether an earlier step that holds one of a step's streams is not yet sealed. -/
def State.sealsAfter (s : State) (x : StepRun) : Bool :=
  s.planner.steps.any fun y => y.number < x.number && y.streams.any fun n => x.streams.contains n

/-- SEAL_START (R332, R346): the step's last pass has ended, no read is in progress, and every group with an entry
has room. The chunks of one stream seal in their order. -/
def execSealStart (cyc step : Nat) (s : State) : Host.Outcome State Fault Refusal :=
  match s.planner.stepOf step with
  | none => .next s
  | some x =>
    if !x.complete || s.sealsAfter x || s.srv.intake.left ≠ 0 || !s.srv.sealing.isEmpty || !s.hlk.up then .next s
    else
      let s := s.stamp cyc
      let rows := x.streams.filterMap (s.sealRow x)
      let es := rows.filter (·.entry)
      let gs := (es.map fun r => groupOf r.stream).eraseDups
      if gs.any fun g => !s.recordFits g (es.filter fun r => groupOf r.stream = g).length then .next s
      else
        let (ws, comp) := s.sealWrites x rows
        let y : Seal := { step := step, fst := s.fst, rows := rows, committed := gs.isEmpty
                          saved := gs.map fun g => (g, (kgetD s.srv.comp g {}).producer) }
        let t := { s with srv := { s.srv with sealing := s.srv.sealing ++ [y], comp := comp } }
        .next (t.chain ws).pump

/-! ### The seal is complete -/

/-- TOKENS of the pages of a stream follow its context (Table 8-6). -/
def Pages.setTokens (p : Pages) (n context : Nat) : Pages :=
  { p with table := p.table.map fun e =>
      if e.1 / 512 = n then (e.1, { e.2 with tokens := min 64 (context - 64 * (e.1 % 512)) }) else e }

/-- A sealed row: context, counts, and the end of the turn. -/
def State.applyRow (s : State) (r : SealRow) : State :=
  match s.stream? r.stream with
  | none => s
  | some x =>
    let s := if r.suppressed || r.turnEnd then s.dropRows fun k => k = r.stream else s
    if r.suppressed then
      let t := s.dropQueued r.stream
      if r.turnOnly then t.endTurn r.stream else t.dropStream r.stream
    else
      let phase0 := r.units != 0
      let context := x.context + (if phase0 then r.units else 1)
      let used := x.turn.any fun u => u.consumed + r.units = u.total
      let t := s.modStream r.stream fun y =>
        { y with context := context
                 outProducer := if r.delivered then (y.outProducer + 1) % 2 ^ 32 else y.outProducer
                 lastSeal := if r.output then some s.tb.frame else y.lastSeal
                 lastToken := if r.output then some r.token else if phase0 then none else y.lastToken
                 turn := y.turn.map fun u =>
                   { u with consumed := u.consumed + r.units
                            outputs := if r.output then u.outputs + 1 else u.outputs
                            buffer := if used then 0 else u.buffer } }
      let t := if used then t.freeBuffer ((x.turn.map (·.buffer)).getD 0) else t
      let t := { t with pages := t.pages.setTokens r.stream context }
      let t := if r.output then t.charge x.tenant 1 else t
      if r.turnEnd then t.endTurn r.stream else t

/-- The sums of a group over a budget window (R356). -/
def GroupSum.add (g : GroupSum) (cycles wcet late discarded : Nat) : GroupSum :=
  { cycles := g.cycles + cycles, wcet := g.wcet + wcet, steps := g.steps + 1, late := g.late + late
    lateDiscarded := g.lateDiscarded + discarded, worst := max g.worst (cycles - wcet) }

/-- SEAL_COMPLETE (R346): every write of the seal has been acknowledged. -/
def execSealComplete (cyc step : Nat) (s : State) : Host.Outcome State Fault Refusal :=
  let writing := s.hlk.ordered.any fun a => match a.req with
    | .seal k _ => k = step
    | _ => false
  match s.srv.sealing.find? (·.step = step), s.planner.stepOf step with
  | some y, some x =>
    if writing then .next s
    else
      let s := s.stamp cyc
      let rows := y.rows
      let count (f : SealRow → Bool) : Nat := (rows.filter f).length
      let gs := (rows.map fun r => groupOf r.stream).eraseDups
      let sums := gs.foldl (fun (m : KMap GroupSum) g =>
        let mine := rows.filter fun r => groupOf r.stream = g
        let late := (mine.filter fun r => r.late && r.delivered).length
        let disc := (mine.filter fun r => r.late && !r.delivered).length
        kset m g ((kgetD m g {}).add x.cycles x.wcet late disc)) s.srv.sums
      let v := s.srv
      let t := { s with srv := { v with sealing := v.sealing.filter (·.step != step), sums := sums
                                        stepsSealed := sat 64 (v.stepsSealed + 1)
                                        outputsLate := sat 32 (v.outputsLate + count fun r => r.late)
                                        outputsSuppressed := sat 32 (v.outputsSuppressed + count fun r => r.suppressed) }
                        planner := { s.planner with steps := s.planner.steps.filter (·.number != step) } }
      .next ((rows.foldl State.applyRow t).releasePair step).pump
  | _, _ => .next s

/-! ### Ring geometry (R358) -/

/-- The zeros that a ring commit writes. -/
def State.zeroWrites (s : State) (ring : Nat) : List HostAccess :=
  match ring with
  | 0 => if s.reg Reg.SRV_INTAKE_ENTRIES = 0 then []
    else hostWrites 0 .zeroing 2 (s.inWindow 0 (s.reg Reg.SRV_INTAKE_BASE + 0x40)) (le 4 0)
  | 1 => if s.reg Reg.SRV_COMP_UNITS = 0 then []
    else (List.range 32).flatMap fun g => s.compProducer g 0 .zeroing
  | _ => if s.reg Reg.SRV_EVENT_ENTRIES = 0 then []
    else hostWrites 0 .zeroing 2 (s.inWindow 1 (s.reg Reg.SRV_EVENT_BASE)) (le 4 0)

/-- A ring has a new geometry: its indices are zero on both sides. -/
def State.zeroRing (s : State) (ring : Nat) : State :=
  let v := s.srv
  let t : State := match ring with
    | 0 => s.modIntake fun k => { k with consumer := 0, producer := 0 }
    | 1 => { s with srv := { v with comp := [] } }
    | _ => { s with srv := { v with eventProducer := 0, eventConsumer := 0 } }
  (t.chain (t.zeroWrites ring)).pump

/-- Whether a value lies in the range of an object of ring geometry. -/
def ringRange (p : Part) (sub value : Nat) : Bool :=
  match objRow 0x4010 sub with
  | some r => r.range.holds p value
  | none => false

/-- The commit of an object of ring geometry, subindices 01h to 07h of 4010h (R358), where `before` is the state before
the commit; its ring is zeroed where `zero` says so. -/
def State.commitRing (s before : State) (sub value : Nat) (zero : Bool) : State :=
  let key := 0x401000 + sub
  let ring := if sub ≤ 2 then 0 else if sub ≤ 5 then 1 else 2
  if !ringRange s.part sub value then s.status Status.VALUE_RANGE
  else if sub = 3 then (s.setReg key value).status Status.OK
  else if ring ≤ 1 && before.reg key != value && s.anyStream then s.status Status.SRV_RING_IN_USE
  else if zero then ((s.setReg key value).zeroRing ring).status Status.OK
  else (s.setReg key value).status Status.OK

/-- RING_CONFIG_COMMIT. -/
def execRingConfigCommit (sub value : Nat) (s : State) : Host.Outcome State Fault Refusal :=
  onUnit (1 ≤ sub && sub ≤ 7) (s.commitRing s sub value true)

/-! ### The budget window (R339, R356) -/

/-- SLOWDOWN of a group. -/
def GroupSum.slowdown (g : GroupSum) : Nat := if g.wcet = 0 then 0 else sat 16 (1000 * g.cycles / g.wcet)

/-- The 16 bytes of a group's report (Table 10-15). -/
def GroupSum.bytes (g : GroupSum) : List Byte :=
  le 2 g.slowdown ++ le 2 (sat 16 g.late) ++ le 2 (sat 16 g.lateDiscarded) ++ le 2 0 ++ le 4 (sat 32 g.steps) ++
    le 4 (sat 32 g.worst)

/-- A frame boundary opens a new budget window: the report of the old one is readable, and use starts at zero. -/
def State.newWindow (s : State) : State :=
  let w := s.tb.frame / 50
  if w = s.srv.window then s
  else
    let v := s.srv
    { s with srv := { v with window := w, tenantUsed := [], report := v.sums, sums := [], reportSeq := v.window % 2 ^ 32
                             } }.raise 0x070B v.window 0 0

end Sys2Proof.Machine
end

