-- ==== Sys2Proof/Machine/ExpertDispatch.lean ====
section
/-! DEFINITION. Expert dispatch (chapter 13): uplinks, tables, claims, the two sides of a dispatch PORT station, and
the dispatch messages. -/

namespace Sys2Proof.Machine

/-! ### Returns and losses (R429, R430, R436, R438) -/

/-- The window counts against a host once, and enough windows in a row make it LOST (R424). -/
def State.countLoss (s : State) (host : Nat) : State :=
  if s.dsp.lossNow.contains host then s
  else
    let t := s.modDsp fun d => { d with lossNow := d.lossNow ++ [host], lossRun := kcount d.lossRun host (· + 1) }
    if host < 4096 && s.reg Reg.DSP_HOST_LOSS_WINDOWS ≤ kgetD t.dsp.lossRun host 0 && !s.dsp.lost.contains host then
      (t.modDsp fun d => { d with lost := d.lost ++ [host] }).raise 0x0A04 host t.dsp.eventArg 0
    else t

/-- A return is lost: the step is voided, and run again under a new GEN (R438). -/
def State.returnLost (s : State) (c : Choice) : State :=
  let t := s.modDsp fun d => { d with returnsLost := sat 32 (d.returnsLost + 1) }
  let t := (t.raise 0x0A03 c.host t.dsp.eventArg c.no).countLoss c.host
  if t.fab.state = .running then t.startVoid 5 else t.cancelBatch false

/-- A choice counts as dropped (R428, R430). -/
def State.dropChoice (s : State) (station row rank : Nat) : State :=
  let hit (r : DispatchRow) : Bool := r.station = station && r.row = row
  let rows := s.dsp.rows.map fun r => if hit r then { r with kept := r.kept.set rank false } else r
  let skip := rows.any fun r => hit r && !(r.kept.contains true)
  s.modDsp fun d => { d with rows := rows, drops := sat 64 (d.drops + 1)
                             skips := if skip then sat 64 (d.skips + 1) else d.skips }

/-- A credit of a host comes back. -/
def Dispatch.credit (d : Dispatch) (host n : Nat) : Dispatch :=
  if host = 0xFFFF then d else { d with inUse := kcount d.inUse host (· - n) }

/-- The RETURN of an open choice is taken (R430, R435, R436). -/
def State.closeChoice (s : State) (c : Choice) (status : Nat) (payload : List Byte) : State :=
  let t := s.progress.modDsp fun d =>
    { d.credit c.host 1 with returns := sat 64 (d.returns + 1), closedNos := d.closedNos ++ [c.no] }
  let without (d : Dispatch) : Dispatch := { d with choices := d.choices.filter (·.no != c.no) }
  match status with
  | 0 | 3 =>
    let t := t.modDsp fun d => { d with choices := d.choices.map fun x =>
      if x.no = c.no then { x with result := some (payload, status = 3) } else x }
    if status = 3 then t.detect { source := 0x0D, causeClass := 5 } else t
  | 4 => (t.modDsp without).returnLost c
  | _ => (t.modDsp without).dropChoice c.station c.row c.rank

/-! ### The serve side (R434) -/

/-- Rows that have arrived for an expert in the batch. -/
def Dispatch.arrivalsFor (d : Dispatch) (layer expert : Nat) : List Arrival :=
  d.arrivals.filter fun a => a.layer = layer && a.expert = expert

/-- What a dispatch meets at this module: the status that refuses it, if any (R430, R434). -/
def State.serveRefusal (s : State) (m : DispatchMsg) : Option Nat :=
  let role := s.reg Reg.DSP_ROLE
  let entry := s.dsp.serveMap.find? fun e => e.layer = m.layer && e.expert = m.expert
  match entry, (s.dspStations 1).find? fun e => e.2.layer = m.layer && e.2.expert = m.expert with
  | some e, some (i, _) =>
    if s.dsp.batchId != some m.batchId || s.dsp.closedStations.contains i || s.fab.state != .running then some 4
    else if role < 2 && m.source != s.dspAddress then some 2
    else if e.capacity ≤ (s.dsp.arrivalsFor m.layer m.expert).length then some 1
    else none
  | some _, none => some 4
  | none, _ => some 2

/-- A refusal as a host is counted and raised. -/
def State.serveRefused (s : State) (host status : Nat) (m : DispatchMsg) : State :=
  let t := s.modDsp fun d => { d with refused := sat 32 (d.refused + 1) }
  match status with
  | 1 => t.raise 0x0A05 host t.dsp.eventArg m.dispatchNo
  | 2 => t.raise 0x0A06 host t.dsp.eventArg m.dispatchNo
  | _ => t

def arrivalOf (host uplink : Nat) (m : DispatchMsg) : Arrival :=
  { host := host, no := m.dispatchNo, gen := m.gen, layer := m.layer, expert := m.expert, cls := m.cls
    flags := m.flags, uplink := uplink, row := m.payload, poison := false, taken := false }

/-- The batch closes when every peer that sends has ended and its dispatches have come (R434); the module's own dispatch
side, whose choices of HOST FFFFh come here under the same rules (R433), has ended too. -/
def State.serveEnds (s : State) : State :=
  let peers := s.dsp.hosts.filter fun h => h.2.valid && h.2.sends
  let done := peers.all fun h =>
    match kget? s.dsp.ends h.1 with
    | some n => n ≤ kgetD s.dsp.arrived h.1 0
    | none => false
  if done && (s.dsp.endSent || (s.dspStations 0).isEmpty) && s.dsp.batchId.isSome then
    s.modDsp fun d => { d with closedStations := (d.closedStations ++ (s.dspStations 1).map (·.1)).eraseDups }
  else s

/-- Flit `k` of what a serve station sends: rows in arrival order, in data tiles of 64 rows, the last one filled with
pad rows once the batch is closed; `none` where the row has not come. -/
def State.serveFlit (s : State) (i k : Nat) : Option (Flit × Nat) :=
  match s.fab.portOp? i with
  | none => none
  | some p =>
    let rf := p.rowFlits
    let row := k / rf
    let tile := 64 * rf
    let xs := s.dsp.arrivalsFor p.layer p.expert
    let flit (bytes : List Byte) (poison : Bool) : Flit :=
      { kind := .data, first := k % tile = 0, last := k % tile = tile - 1, poison := poison
        seq := k / tile % 256, payload := payloadOf bytes }
    match xs[row]? with
    | some a => some (flit (slice a.row (64 * (k % rf)) 64) a.poison, row)
    | none =>
      if s.dsp.closedStations.contains i && row / 64 * 64 < xs.length then
        some ({ flit [] false with pads := BitVec.ofNat 512 (2 ^ 512 - 1) }, row)
      else none

/-- Arrivals that an expert tile has taken: the first so many of an expert. -/
def takeArrivals (layer expert : Nat) : Nat → List Arrival → List Arrival
  | _, [] => []
  | n, a :: as =>
    if a.layer = layer && a.expert = expert then
      { a with taken := a.taken || n != 0 } :: takeArrivals layer expert (n - 1) as
    else a :: takeArrivals layer expert n as

/-- A serve station sends what it may, against credits that its firings took. -/
def State.serveEmit (i : Nat) : Nat → State → State
  | 0, s => s
  | f + 1, s =>
    let x := s.station i
    match x.writeFlit, s.serveFlit i x.writePos, (s.fab.desc? i).bind fun (d : StationDesc) => d.outQ.head?,
      s.fab.portOp? i with
    | w + 1, some (flit, row), some q, some p =>
      let t := { s with fab := s.fab.send q [flit] }
      let t := t.modStation i fun x => { x with writeFlit := w, writePos := x.writePos + 1 }
      (t.modDsp fun d => { d with arrivals := takeArrivals p.layer p.expert (row + 1) d.arrivals }).serveEmit i f
    | _, _, _, _ => s

/-! ### The dispatch side (R428, R433) -/

/-- The effective quota of an expert and its host (R424). A class-0 row uses a remote expert only while the windows
are confirmed (R427). -/
def State.quota (s : State) (layer expert : Nat) : Nat × Nat :=
  match s.dsp.expertMap.find? fun e => e.layer = layer && e.expert = expert with
  | none => (0, 0xFFFE)
  | some e =>
    let epoch := s.passEpoch
    let zero := ((s.store.resident? epoch).map fun r => r.expertsZero.contains expert).getD false
    let off := e.host = 0xFFFE || (e.host = 0xFFFF && zero) || s.dsp.lost.contains e.host ||
      (e.host < 4096 && !((kget? s.dsp.hosts e.host).any fun h => h.valid && h.serves)) ||
      (e.host != 0xFFFF && s.passClass = 0 && s.reg Reg.DSP_WINDOWS_CONFIRMED != 1)
    (if off then 0 else e.quota, e.host)

/-- Whether a kept choice may be sent: a return row is free, and a credit of the host is held. -/
def State.maySend (s : State) (c : Choice) : Bool :=
  let room := ((s.fab.portOp? c.station).map PortOp.rowRoom).getD 0
  let used := (s.dsp.choices.filter fun x => x.station = c.station && x.sent).length
  used < room && (c.host = 0xFFFF || s.mayTransmit && kgetD s.dsp.inUse c.host 0 < ((kget? s.dsp.hosts c.host).map (·.credits)).getD 0)

/-- A dispatch of the module to itself arrives at its own serve station (R433). -/
def State.deliverOwn (s : State) (c : Choice) (m : DispatchMsg) : State :=
  match s.serveRefusal m with
  | some status => (s.serveRefused 0xFFFF status m).closeChoice c status []
  | none => s.modDsp fun d => { d with arrivals := d.arrivals ++ [arrivalOf 0xFFFF 0 m] }

/-- A choice is sent: to its host, or to the serve station of the module itself. -/
def State.sendChoice (s : State) (c : Choice) : State :=
  let sent (x : Choice) : Choice := if x.no = c.no then { x with sent := true, sentAt := s.clock } else x
  let t := s.modDsp fun d =>
    { d with choices := d.choices.map sent, dispatches := sat 64 (d.dispatches + 1)
             inUse := if c.host = 0xFFFF then d.inUse else kcount d.inUse c.host (· + 1)
             sentTo := if c.host = 0xFFFF then d.sentTo else kcount d.sentTo c.host (· + 1) }
  let m := { c.msg with gen := s.dsp.gen }
  if c.host != 0xFFFF then t.dspTo c.host 1 m else t.deliverOwn c m

/-- Kept choices that wait are sent in order. -/
def State.sendChoices (s : State) : State :=
  (s.dsp.choices.filter fun c => !c.sent).foldl (fun t c => if t.maySend c then t.sendChoice c else t) s

/-- Key of the claims on an expert in the running step (R428). -/
def State.claimKey (s : State) (layer expert : Nat) : Nat :=
  2 ^ 32 * (s.planner.running.map fun (r : PassRun) => r.entry.step).getD 0 + 65536 * layer + expert

/-- A row is taken (R428, R502): its choices are claimed in rank order. -/
def State.takeRow (s : State) (i : Nat) (p : PortOp) (flits : List Flit) : State :=
  let head := (flits.headD default).bytes
  let count := min p.topK (field head 0x30 1)
  let poison := anyPoison flits
  let row := (s.station i).readPos
  let experts := (List.range p.topK).map fun k => field head (2 * k) 2
  let gates := (List.range count).map fun k => BitVec.ofNat 32 (field head (0x10 + 4 * k) 4)
  let t := s.modStation i fun x => { x with readPos := row + 1 }
  let fresh : DispatchRow := { station := i, row := row, count := count, experts := experts, gates := gates
                               kept := (List.range p.topK).map fun k => !poison && k < count, poison := poison }
  let t := t.modDsp fun d => { d with rows := d.rows ++ [fresh] }
  if poison then t
  else
    let payload := flitBytes (flits.drop 1)
    let claim (t : State) (k : Nat) : State :=
      let e := experts.getD k 0
      let key := t.claimKey p.layer e
      let (quota, host) := t.quota p.layer e
      if kgetD t.dsp.claims key 0 < quota then
        let m := { t.dspMsg t.passClass t.dsp.nextNo 0 with
          layer := p.layer, expert := e, rowBytes := p.rowBytes, format := p.rowFormat, payload := payload
          flags := if fragmentsOf payload = 2 then 4 else 0 }
        let c : Choice := { no := t.dsp.nextNo, gen := t.dsp.gen, host := host, layer := p.layer, expert := e
                            station := i, row := row, rank := k, sentAt := 0, resent := false, sent := false, msg := m }
        t.modDsp fun d => { d with claims := kcount d.claims key (· + 1), nextNo := d.nextNo + 1
                                   choices := d.choices ++ [c] }
      else t.dropChoice i row k
    ((List.range count).foldl claim t).sendChoices

/-- Rows whose flits have all come are taken in order. -/
def State.takeRows (i : Nat) (p : PortOp) : Nat → State → State
  | 0, s => s
  | f + 1, s =>
    let n := 1 + p.rowFlits
    let x := s.station i
    if x.fifo.length < n then s
    else ((s.modStation i fun x => { x with fifo := x.fifo.drop n }).takeRow i p (x.fifo.take n)).takeRows i p f

/-- The kept weight of a rank as the row leaves (R429). -/
def DispatchRow.weight (r : DispatchRow) (renorm : Bool) (k : Nat) : BitVec 32 :=
  let w := r.gates.getD k 0
  let kept := (List.range r.gates.length).filter fun j => r.kept.getD j false
  if !(r.kept.getD k false) then 0
  else if !renorm || kept.length = r.gates.length then w
  else Config.renorm w r.gates (kept.map fun j => r.gates.getD j 0)

/-- Result of a rank: `none` while it is still out, zeros for one that is not kept. -/
def Dispatch.rankResult (d : Dispatch) (r : DispatchRow) (k : Nat) : Option (List Byte × Bool) :=
  if !(r.kept.getD k false) then some ([], false)
  else (d.choices.find? fun c => c.station = r.station && c.row = r.row && c.rank = k).bind (·.result)

/-- Flit `k` of a row that leaves a dispatch station. -/
def State.returnFlit (s : State) (p : PortOp) (r : DispatchRow) (k : Nat) : Flit :=
  let rf := p.rowFlits
  let total := 1 + p.topK * rf
  let rank := (k - 1) / rf
  let body : List Byte × Bool :=
    if k = 0 then
      (r.experts.flatMap (le 2 ·) |> (padTo · 16) |> (· ++ (List.range p.topK).flatMap fun j =>
        le 4 (r.weight p.renorm j).toNat) |> (padTo · 48) |> (· ++ le 1 r.count), r.poison)
    else
      let x := (s.dsp.rankResult r rank).getD ([], false)
      (slice x.1 (64 * ((k - 1) % rf)) 64, x.2 || r.poison)
  { kind := .data, first := k = 0, last := k = total - 1, poison := body.2, seq := r.row % 256
    payload := payloadOf body.1 }

/-- A dispatch station sends what it may of its oldest row, once every kept choice of that has returned. -/
def State.returnEmit (i : Nat) : Nat → State → State
  | 0, s => s
  | f + 1, s =>
    let x := s.station i
    match x.writeFlit, s.dsp.rows.find? (fun r => r.station = i),
      (s.fab.desc? i).bind fun (d : StationDesc) => d.outQ.head?, s.fab.portOp? i with
    | w + 1, some r, some q, some p =>
      if !((List.range p.topK).all fun k => (s.dsp.rankResult r k).isSome) then s
      else
        let ends := x.writePos + 1 = 1 + p.topK * p.rowFlits
        let t := { s with fab := s.fab.send q [s.returnFlit p r x.writePos] }
        let t := t.modStation i fun x => { x with writeFlit := w, writePos := if ends then 0 else x.writePos + 1 }
        let gone (c : Choice) : Bool := c.station = i && c.row = r.row
        let t := if ends then (t.modDsp fun d => { d with rows := d.rows.erase r
                                                          choices := d.choices.filter fun c => !gone c }).sendChoices
          else t
        t.returnEmit i f
    | _, _, _, _ => s

/-- The dispatcher has sent all of a batch, once END_OF_PASS has come to each of its stations: BATCH_END to every host
that serves (Table 13-5). -/
def State.batchEnds (s : State) : State :=
  let mine := s.dspStations 0
  if s.dsp.endSent || mine.isEmpty || !(mine.all fun e => (s.station e.1).passEnded) ||
      s.dsp.choices.any (fun c => !c.sent) then s
  else
    ((s.dsp.hosts.filter fun h => h.2.valid && h.2.serves).foldl (fun t h =>
      t.dspTo h.1 3 (t.dspMsg t.passClass (kgetD t.dsp.sentTo h.1 0) 0))
      (s.modDsp fun d => { d with endSent := true })).serveEnds

/-- Stations of both sides send what has become ready. -/
def State.dspAdvance (s : State) : State :=
  let t := (s.dspStations 0).foldl (fun t e => t.returnEmit e.1 65536) s.sendChoices.batchEnds
  (t.dspStations 1).foldl (fun t e => t.serveEmit e.1 65536) t

/-- Result rows reach a serve station: each pairs with its arrival by position and is returned (R434). -/
def State.serveResults (i : Nat) (p : PortOp) : Nat → State → State
  | 0, s => s
  | f + 1, s =>
    let x := s.station i
    let n := p.rowFlits
    if x.fifo.length < n || n = 0 then s
    else
      let row := x.fifo.take n
      let t := s.modStation i fun x => { x with fifo := x.fifo.drop n, readPos := x.readPos + 1 }
      let t := match (t.dsp.arrivalsFor p.layer p.expert)[x.readPos]? with
        | none => t
        | some a =>
          let status := if anyPoison row then 3 else 0
          let t := t.modDsp fun d => { d with served := sat 64 (d.served + 1) }
          let bytes := (flitBytes row).take p.rowBytes
          if a.host = 0xFFFF then
            if a.gen < t.dsp.gen then t.modDsp fun d => { d with staleReturns := sat 32 (d.staleReturns + 1) }
            else match t.dsp.choices.find? fun (c : Choice) => c.no = a.no && c.gen = a.gen && c.result.isNone with
            | some c => t.closeChoice c status bytes
            | none => t.modDsp fun d => { d with duplicates := sat 32 (d.duplicates + 1) }
          else t.dspAnswer a.uplink a.host 2
            { t.dspMsg a.cls a.no 1 with gen := a.gen, layer := a.layer, expert := a.expert, rowBytes := p.rowBytes
                                         format := p.rowFormat, status := status, payload := bytes }
      t.serveResults i p f

/-! ### Messages (R419, R435) -/

/-- A frame with a dispatch message arrives on an uplink: what is left of it after the checks of R419 and R435. -/
def State.dspFrame (s : State) (uplink : Nat) (f : FrameCheck) (m : DispatchMsg) : State × Option (Nat × HostEntry) :=
  if (s.uplink uplink).state != .up then (s, none)
  else if f.tagged || f.extension || !f.checksumGood || !f.addressed then
    (s.modUplink uplink fun x => { x with rxDiscards := sat 32 (x.rxDiscards + 1) }, none)
  else
    let t := s.modUplink uplink fun x => { x with rxFrames := sat 64 (x.rxFrames + 1) }
    match (if m.good then t.hostAt m.source else none) with
    | some h => (t, some h)
    | none => (t.modDsp fun d => { d with unknownSource := sat 32 (d.unknownSource + 1) }, none)

/-- The bytes of a message in one or two fragments: `none` until the second has come (R435). Fragments of RETURNs are
kept apart from those of DISPATCHes. -/
def State.gather (s : State) (host : Nat) (ret : Bool) (m : DispatchMsg) : State × Option (List Byte) :=
  let no := m.dispatchNo + 2 ^ 32 * ofBit ret
  if !bit m.flags 2 then (s, some m.payload)
  else if !bit m.flags 1 then
    (s.modDsp fun d => { d with fragments :=
      (d.fragments.filter fun x => !(x.1 = host && x.2.1 = no)) ++ [(host, no, m.payload)] }, none)
  else
    match s.dsp.fragments.find? fun x => x.1 = host && x.2.1 = no with
    | none => (s, none)
    | some x => (s.modDsp fun d => { d with fragments := d.fragments.erase x }, some (x.2.2 ++ m.payload))

/-- DISPATCH (R434). -/
def execDispatch (cyc uplink : Nat) (f : FrameCheck) (m : DispatchMsg) (s : State) :
    Host.Outcome State Fault Refusal :=
  onUnit (uplink < s.part.uplinks) <|
    let r := (s.stamp cyc).dspFrame uplink f m
    let t := r.1
    match r.2 with
    | none => t
    | some (h, _) =>
      let g := t.gather h false m
      let t := g.1
      match g.2 with
      | none => t
      | some bytes =>
        let m := { m with payload := bytes }
        match t.serveRefusal m with
        | some status =>
          (t.serveRefused h status m).dspAnswer uplink h 2
            { t.dspMsg m.cls m.dispatchNo 1 with gen := m.gen, batchId := m.batchId, layer := m.layer
                                                 expert := m.expert, rowBytes := m.rowBytes, format := m.format
                                                 status := status }
        | none =>
          let known := t.dsp.arrivals.any fun a => a.host = h && a.no = m.dispatchNo && a.gen = m.gen
          (t.modDsp fun d =>
            { d with arrivals := d.arrivals ++ [arrivalOf h uplink m]
                     arrived := if known then d.arrived else kcount d.arrived h (· + 1) }).serveEnds.dspAdvance

/-- RETURN (R436, R437). -/
def execReturnMsg (cyc uplink : Nat) (f : FrameCheck) (m : DispatchMsg) (s : State) :
    Host.Outcome State Fault Refusal :=
  onUnit (uplink < s.part.uplinks) <|
    let r := (s.stamp cyc).dspFrame uplink f m
    let t := r.1
    match r.2 with
    | none => t
    | some (h, _) =>
      let duplicate (t : State) : State := t.modDsp fun d => { d with duplicates := sat 32 (d.duplicates + 1) }
      let old := t.dsp.cancelled.find? fun x =>
        x.batch = m.batchId && x.gen = m.gen && x.host = h && x.no = m.dispatchNo
      if (t.dsp.batchId = some m.batchId && m.gen < t.dsp.gen) || old.isSome then
        let t := t.modDsp fun d => { d with staleReturns := sat 32 (d.staleReturns + 1) }
        match old with
        | some x => (t.modDsp fun d => { d.credit h 1 with cancelled := d.cancelled.erase x }).sendChoices
        | none => duplicate t
      else
        match t.dsp.choices.find? fun c => c.no = m.dispatchNo && c.host = h && c.sent && c.result.isNone &&
            c.gen = m.gen && t.dsp.batchId = some m.batchId with
        | none => duplicate t
        | some c =>
          let g := t.gather h true m
          match g.2 with
          | none => g.1
          | some bytes => (g.1.closeChoice c m.status bytes).dspAdvance

/-- BATCH_END (R434). -/
def execBatchEnd (cyc uplink : Nat) (f : FrameCheck) (m : DispatchMsg) (s : State) :
    Host.Outcome State Fault Refusal :=
  onUnit (uplink < s.part.uplinks) <|
    let r := (s.stamp cyc).dspFrame uplink f m
    let t := r.1
    match r.2 with
    | none => t
    | some (h, _) =>
      if t.dsp.batchId != some m.batchId then t
      else (t.modDsp fun d => { d with ends := kset d.ends h m.dispatchNo }).serveEnds.dspAdvance

/-- DISPATCH_CANCEL (R437): arrivals that have not entered an expert tile are discarded, and one CREDIT counts
them. -/
def execDispatchCancel (cyc uplink : Nat) (f : FrameCheck) (m : DispatchMsg) (s : State) :
    Host.Outcome State Fault Refusal :=
  onUnit (uplink < s.part.uplinks) <|
    let r := (s.stamp cyc).dspFrame uplink f m
    let t := r.1
    match r.2 with
    | none => t
    | some (h, _) =>
      if t.dsp.batchId != some m.batchId then
        t.dspAnswer uplink h 5 { t.dspMsg m.cls 0 0 with gen := m.gen, batchId := m.batchId }
      else
        let gone (a : Arrival) : Bool := a.host = h && !a.taken && a.gen < m.gen
        let n := (t.dsp.arrivals.filter gone).length
        let t := t.modDsp fun d => { d with arrivals := d.arrivals.filter fun a => !gone a
                                            arrived := kset d.arrived h 0, ends := kdel d.ends h }
        t.dspAnswer uplink h 5 { t.dspMsg m.cls 0 n with gen := m.gen }

/-- CREDIT (R436): credits of cancelled dispatches come back; more than are out are duplicates. -/
def execCredit (cyc uplink : Nat) (f : FrameCheck) (m : DispatchMsg) (s : State) :
    Host.Outcome State Fault Refusal :=
  onUnit (uplink < s.part.uplinks) <|
    let r := (s.stamp cyc).dspFrame uplink f m
    let t := r.1
    match r.2 with
    | none => t
    | some (h, _) =>
      let mine := (t.dsp.cancelled.filter fun x => x.host = h && x.batch = m.batchId && x.gen < m.gen).take m.credits
      let t := t.modDsp fun d =>
        { d.credit h mine.length with
          cancelled := d.cancelled.filter fun x => !mine.contains x
          duplicates := if mine.length < m.credits then sat 32 (d.duplicates + 1) else d.duplicates }
      t.dspAdvance

/-- UPLINK_NEIGHBOR_SOLICITATION (R419). -/
def execUplinkNeighborSolicitation (uplink target : Nat) (s : State) : Host.Outcome State Fault Refusal :=
  onUnit (uplink < s.part.uplinks) <|
    if (s.uplink uplink).state = .up && target = s.dspAddress then
      s.modUplink uplink fun x => { x with advertised := x.advertised + 1, rxFrames := sat 64 (x.rxFrames + 1)
                                           txFrames := sat 64 (x.txFrames + 1) }
    else s

/-! ### Timers (R434, R437, R438) -/

/-- RETURN_TIMEOUT: a choice is sent once more, then lost. -/
def execReturnTimeout (cyc dispatchNo : Nat) (s : State) : Host.Outcome State Fault Refusal :=
  let t := s.stamp cyc
  match t.dsp.choices.find? fun c => c.no = dispatchNo && c.sent && c.result.isNone with
  | none => .next s
  | some c =>
    if t.clock < c.sentAt + 1024 * s.reg Reg.DSP_RETURN_TIMEOUT then .next s
    else if c.resent then
      .next ((t.modDsp fun d => { d with choices := d.choices.filter (·.no != c.no) }).returnLost c)
    else
      let t := t.modDsp fun d =>
        { d with resends := sat 32 (d.resends + 1), choices := d.choices.map fun x =>
            if x.no = c.no then { x with resent := true, sentAt := t.clock } else x }
      let m := { c.msg with gen := t.dsp.gen, flags := c.msg.flags ||| 1 }
      .next (if c.host = 0xFFFF then (t.deliverOwn c m).dspAdvance else t.dspTo c.host 1 m)

/-- CREDIT_GRACE_EXPIRY: credits of a cancelled generation that are still out DSP_CREDIT_GRACE slots after the cancel
are reclaimed. -/
def execCreditGraceExpiry (cyc gen : Nat) (s : State) : Host.Outcome State Fault Refusal :=
  let s := s.stamp cyc
  let due (x : CancelledChoice) : Bool := x.gen = gen && x.since + 156250 * s.reg Reg.DSP_CREDIT_GRACE ≤ s.clock
  let mine := s.dsp.cancelled.filter due
  let t := mine.foldl (fun t x => t.modDsp fun d => d.credit x.host 1) s
  .next (t.modDsp fun d => { d with cancelled := d.cancelled.filter fun x => !due x
                                    closedNos := d.closedNos ++ mine.map fun x => x.no
                                    reclaimed := sat 32 (d.reclaimed + mine.length) }).dspAdvance

/-- SERVE_BATCH_CLOSE: the pass has reached CLOSE_CYCLES of a serve station. -/
def execServeBatchClose (cyc station : Nat) (s : State) : Host.Outcome State Fault Refusal :=
  let t := s.stamp cyc
  match s.planner.running, (s.dspStations 1).find? fun e => e.1 = station with
  | some r, some (i, p) =>
    if s.fab.state != .running || s.dsp.closedStations.contains i || t.tb.now < r.start + p.closeCycles then .next s
    else .next (t.modDsp fun d => { d with closedStations := d.closedStations ++ [i] }).dspAdvance
  | _, _ => .next s

/-! ### Uplink state and tables (R418, R423) -/

/-- UPLINK_UP. -/
def execUplinkUp (cyc uplink : Nat) (s : State) : Host.Outcome State Fault Refusal :=
  onUnit (uplink < s.part.uplinks) <|
    if (s.uplink uplink).state = .down then
      let t := (s.stamp cyc).modUplink uplink fun x => { x with state := .up, cause := 0 }
      t.raise 0x0A02 uplink t.dsp.eventArg 0
    else s

/-- An uplink goes DOWN. -/
def State.uplinkDown (s : State) (u cause : Nat) : State :=
  if (s.uplink u).state = .up then
    let t := s.modUplink u fun x => { x with state := .down, cause := cause }
    t.raise 0x0A01 u t.dsp.eventArg 0
  else s

/-- UPLINK_DOWN. -/
def execUplinkDown (cyc uplink cause : Nat) (s : State) : Host.Outcome State Fault Refusal :=
  onUnit (uplink < s.part.uplinks) ((s.stamp cyc).uplinkDown uplink cause)

/-- Entries of the tables, `none` where malformed (Table 13-2). -/
def parseHosts (bs : List Byte) : Option (KMap HostEntry) :=
  let es := pieces 32 (bs.length / 32) bs
  let ok (e : List Byte) : Bool :=
    let flags := field e 19 1
    field e 18 1 ≤ 15 && flags < 8 && zeros e 22 2 && zeros e 29 3 && field e 28 1 < 64 &&
      (!bit flags 0 || (1 ≤ field e 20 2 && field e 20 2 ≤ 4096))
  if bs.length % 32 = 0 && es.length ≤ 4096 && es.all ok then
    some (es.zipIdx.map fun e =>
      let flags := field e.1 19 1
      (e.2, { address := ofBe (slice e.1 0 16), port := field e.1 16 2, switch := field e.1 18 1, valid := bit flags 0
              sends := bit flags 1, serves := bit flags 2, credits := field e.1 20 2, rackId := field e.1 24 4
              position := field e.1 28 1 }))
  else none

def parseMap (bs : List Byte) : Option (List MapEntry) :=
  let es := pieces 8 (bs.length / 8) bs
  let ok (e : List Byte) : Bool :=
    (field e 4 2 < 4096 || 0xFFFE ≤ field e 4 2) && field e 6 2 ≤ 1024
  if bs.length % 8 = 0 && es.length ≤ 65536 && es.all ok then
    some (es.map fun e => { layer := field e 0 2, expert := field e 2 2, host := field e 4 2, quota := field e 6 2 })
  else none

def parseServe (bs : List Byte) : Option (List ServeEntry) :=
  let es := pieces 8 (bs.length / 8) bs
  let ok (e : List Byte) : Bool := 1 ≤ field e 4 2 && field e 4 2 ≤ 4096 && zeros e 6 2
  if bs.length % 8 = 0 && es.length ≤ 4096 && es.all ok then
    some (es.map fun e => { layer := field e 0 2, expert := field e 2 2, capacity := field e 4 2 })
  else none

/-- Windows must not overlap. -/
def windowsApart : List WindowEntry → Bool
  | [] => true
  | w :: ws => ws.all (fun x => w.start + w.length ≤ x.start || x.start + x.length ≤ w.start) && windowsApart ws

def parseWindows (bs : List Byte) : Option (List WindowEntry) :=
  let es := pieces 4 (bs.length / 4) bs
  let ok (e : List Byte) : Bool :=
    field e 0 1 ≤ 159 && 1 ≤ field e 1 1 && field e 0 1 + field e 1 1 ≤ 160 && field e 2 1 ≤ 1 && zeros e 3 1
  let ws := es.map fun e => { start := field e 0 1, length := field e 1 1, kind := field e 2 1 : WindowEntry }
  if bs.length % 4 = 0 && es.length ≤ 32 && es.all ok && windowsApart ws then some ws else none

/-- DSP_TABLE_COMMIT (R423): a well-formed table applies from the plan of the next frame; new windows run admission
again (R427). -/
def execDspTableCommit (sub : Nat) (bytes : List Byte) (s : State) : Host.Outcome State Fault Refusal :=
  let bad := s.status Status.DSP_TABLE_INVALID
  let good (t : State) : State := (t.setBlob (Reg.DSP_ROLE + sub - 1) bytes).status Status.OK
  onUnit (6 ≤ sub && sub ≤ 9) <|
    match sub with
    | 6 => match parseHosts bytes with
      | some h => good (s.modDsp fun d => { d with nextHosts := some h })
      | none => bad
    | 7 => match parseMap bytes with
      | some m => good (s.modDsp fun d => { d with nextMap := some m })
      | none => bad
    | 8 => match parseServe bytes with
      | some m => good (s.modDsp fun d => { d with nextServe := some m })
      | none => bad
    | _ => match parseWindows bytes with
      | some w =>
        let t := s.modDsp fun d => { d with nextWindows := some w }
        good (if w = s.dsp.windows && s.dsp.nextWindows.isNone then t
          else { t with planner := { t.planner with rerun := some 2 } })
      | none => bad

/-- Committed tables come into force with a frame's plan (R63, R423); hosts committed again are no longer LOST
(R424). -/
def State.applyTables (s : State) : State :=
  s.modDsp fun d =>
    { d with hosts := d.nextHosts.getD d.hosts, expertMap := d.nextMap.getD d.expertMap
             serveMap := d.nextServe.getD d.serveMap, windows := d.nextWindows.getD d.windows
             nextHosts := none, nextMap := none, nextServe := none, nextWindows := none
             lost := if d.nextHosts.isSome then [] else d.lost
             lossRun := if d.nextHosts.isSome then [] else d.lossRun }

/-! ### Pool passes (R424, R425, R437) -/

/-- BATCH_ID of a window that starts at an FST. -/
def batchIdOf (fst : Nat) : Nat := frameOf fst % 2 ^ 24 * 256 + slotOf fst

/-- The next window of the pool begins: hosts that lost no return in the last one start again (R424). -/
def State.closeWindow (s : State) : State :=
  s.modDsp fun d => { d with lossRun := d.lossRun.filter fun e => d.lossNow.contains e.1, lossNow := [] }

/-- A pool pass is issued: the batch of its window opens, or goes on under its GEN. -/
def State.openBatch (s : State) (id step : Nat) (fresh : Bool) : State :=
  let same := s.dsp.batchId = some id
  let s := if same then s else s.closeWindow
  let live (e : Nat × Nat) : Bool :=
    !(fresh && e.1 / 2 ^ 32 = step) && (e.1 / 2 ^ 32 = step || s.planner.steps.any fun x => x.number = e.1 / 2 ^ 32)
  s.modDsp fun d =>
    { d with batchId := some id, gen := if same then d.gen else 0
             nextNo := if same then d.nextNo else 0, closedNos := if same then d.closedNos else []
             claims := d.claims.filter live, endSent := false, choices := [], rows := []
             sentTo := if same then d.sentTo else [], arrivals := [], ends := if same then d.ends else []
             arrived := if same then d.arrived else [], closedStations := [], fragments := [] }

/-- DSP_HOST_STATE of a host. -/
def Dispatch.hostState (d : Dispatch) (h : Nat) : Nat :=
  if d.lost.contains h then 2 else if (kget? d.hosts h).any (·.valid) then 1 else 0

end Sys2Proof.Machine
end

