-- ==== Sys2Proof/Machine/Store.lean ====
section
/-! DEFINITION. The weight store (R284 to R303): its catalogue, the store operations, the reads of PORT stations, wear
and patrol. -/

namespace Sys2Proof.Machine

/-! ### Extents and the catalogue (R285, R293 to R295) -/

/-- Extents of 1 MiB of a shard, and those of shard `n` that lie on a stack (R293). -/
def Shard.extents (x : Shard) : Nat := ceilDiv x.size 1048576
def extentsOn (n count stack : Nat) : Nat :=
  let first := (stack + 8 - n % 8) % 8
  if first < count then (count - first - 1) / 8 + 1 else 0

/-- Extents of shards on a stack: of those present, or of those that a condition names. -/
def shardsOn (shards : List Shard) (stack : Nat) (p : Shard → Bool) : Nat :=
  (shards.zipIdx.map fun e => if p e.1 then extentsOn e.2 e.1.extents stack else 0).sum

/-- STO_EXTENTS_USED. -/
def Store.extentsUsed (t : Store) (stack : Nat) : Nat :=
  (t.catalogue.map fun p => shardsOn p.shards stack (·.present)).sum +
    (if stack = 0 || stack = 4 then Config.catalogueExtents else 0)

/-- Free extents of a stack, and STO_BYTES_FREE. -/
def Store.extentsFree (t : Store) (stack : Nat) : Nat := 953674 - t.extentsUsed stack
def Store.bytesFree (t : Store) : Nat := ((List.range 8).map t.extentsFree).sum * 1048576

/-- A package or adapter set by its tag. -/
def Store.package? (t : Store) (tag : Nat) : Option StoredPackage := t.catalogue.find? fun p => p.manifest.tag = tag

/-- CORRUPT and MISSING of an entry. -/
def StoredPackage.corrupt (p : StoredPackage) : Nat := (p.shards.filter (·.corrupt)).length
def StoredPackage.missing (p : StoredPackage) : Nat := (p.shards.filter fun x => !x.present).length

/-- Adapter sets of a base, and their adapters. -/
def Store.setsOf (t : Store) (base : Nat) : List StoredPackage := t.catalogue.filter fun p => p.kind = 2 && p.baseTag = base
def Store.adaptersOf (t : Store) (base : Nat) : List Nat := (t.setsOf base).flatMap fun p => p.manifest.adapters.map (·.id)

/-- A catalogue entry (Table 9-4). -/
def Store.entryBytes (t : Store) (p : StoredPackage) : List Byte :=
  let held := ((List.range 8).map fun k => shardsOn p.shards k (·.present)).sum
  le 8 p.manifest.tag ++ le 1 p.kind ++ le 1 (if p.corrupt = 0 then 1 else 2) ++ le 1 p.manifest.signer ++ le 1 0 ++
    le 4 p.shards.length ++ le 8 (held * 1048576) ++ le 8 p.baseTag ++ slice p.manifest.name 0 32 ++
    le 2 p.missing ++ le 2 p.corrupt ++
    le 2 (if p.kind = 1 then (t.adaptersOf p.manifest.tag).length else 0) ++ le 10 0

/-- STO_CATALOGUE. -/
def Store.catalogueBytes (t : Store) : List Byte :=
  le 4 t.catalogue.length ++ le 4 t.catalogueSeq ++ le 8 0 ++ t.catalogue.flatMap t.entryBytes

/-- An entry put in its place by tag. -/
def insertPackage (x : StoredPackage) : List StoredPackage → List StoredPackage
  | [] => [x]
  | y :: ys =>
    if x.manifest.tag < y.manifest.tag then x :: y :: ys
    else if x.manifest.tag = y.manifest.tag then x :: ys
    else y :: insertPackage x ys

/-- A new version of the catalogue (R294). -/
def Store.setCatalogue (t : Store) (c : List StoredPackage) : Store :=
  { t with catalogue := c, catalogueSeq := (t.catalogueSeq + 1) % 2 ^ 32 }

/-- Change a shard of a package. -/
def Store.modShard (t : Store) (tag n : Nat) (f : Shard → Shard) : Store :=
  t.setCatalogue (t.catalogue.map fun p => if p.manifest.tag = tag then { p with shards := lmod p.shards n f } else p)

/-- A shard's store copy is marked corrupt, and its package becomes DEGRADED (R303, R307). -/
def State.markCorrupt (s : State) (tag n : Nat) : State :=
  match (s.store.package? tag).bind fun p => p.shards[n]? with
  | none => s
  | some x =>
    if x.corrupt || !x.present then s
    else { s with store := s.store.modShard tag n fun y => { y with corrupt := true } }.raise 0x0604 n tag 0

/-! ### Stacks -/

def Store.stack (t : Store) (n : Nat) : StoreStack := lget t.flash n
def State.modStoreStack (s : State) (n : Nat) (f : StoreStack → StoreStack) : State :=
  { s with store := { s.store with flash := lmod s.store.flash n f } }

def StoreStackState.serves : StoreStackState → Bool
  | .ready | .readOnly => true
  | .off | .init | .failed => false

/-- A read that touches an erase block counts once in each 1 ms window (R290). -/
def StoreStack.touch (x : StoreStack) (block window : Nat) : StoreStack :=
  if kget? x.touched block = some window then x
  else { x with touched := kset x.touched block window, disturb := kcount x.disturb block fun v => sat 32 (v + 1) }

/-- The logical extent that holds extent `i` of shard `n` of a package, and the erase block that it lies in. -/
def extentAt (tag n i : Nat) : Nat := Config.storeExtent ((n + i) % 8) tag (2 ^ 20 * n + i) % 953674
def Store.blockAt (t : Store) (tag n i : Nat) : Nat :=
  Config.storeBlock ((n + i) % 8) (t.stack ((n + i) % 8)).relocations (extentAt tag n i) % max 1 Config.storeBlocks

/-- Bytes of extent `i` of a shard are read, for whatever requester: the stack counts them and touches the block. -/
def State.readExtent (s : State) (tag n i bytes : Nat) : State :=
  s.modStoreStack ((n + i) % 8) fun x =>
    { x.touch (s.store.blockAt tag n i) (s.uptime / 8) with readBytes := sat 64 (x.readBytes + bytes) }

/-- A whole shard is read from the store. -/
def State.readShard (s : State) (tag n : Nat) : State :=
  let x := (((s.store.package? tag).bind fun p => p.shards[n]?)).getD default
  (List.range x.extents).foldl (fun (s : State) i => s.readExtent tag n i (min 1048576 (x.size - 1048576 * i))) s

/-- Every shard that a package holds is read, as the read-back of what was programmed does (R300). -/
def State.readBack (s : State) (tag : Nat) (p : Nat → Shard → Bool) : State :=
  let xs := ((s.store.package? tag).map (·.shards)).getD []
  ((xs.zipIdx.filter fun e => e.1.present && p e.2 e.1).map (·.2)).foldl (fun (s : State) n => s.readShard tag n) s

/-- Every stack is READY or READ_ONLY. -/
def Store.allServe (t : Store) : Bool := t.flash.all (·.state.serves)

/-- Every stack that holds an extent of a shard serves. -/
def Store.reaches (t : Store) (n : Nat) (x : Shard) : Bool :=
  (List.range 8).all fun k => extentsOn n x.extents k = 0 || (t.stack k).state.serves

/-- The reserve for relocation: 0.5 % of the stack's blocks (R289). -/
def relocationReserve : Nat := ceilDiv Config.storeBlocks 200

/-! ### Operations (R296 to R302) -/

/-- An accepted operation starts. -/
def State.startOp (s : State) (cmd tag length : Nat) : State :=
  { s with store := { s.store with opState := .running, opCmd := cmd, opResult := 0, opProgress := 0
                                   opTag := tag, opLength := length } }

/-- Whether a bundle's address and length are in range: a page of the host-memory range. -/
def sourceOk (source length : Nat) : Bool :=
  source % 4096 = 0 && 0x100000000000 ≤ source && source + length ≤ 0x140000000000

/-- The packages whose weights are in HBM or on their way there. -/
def Store.inUse (t : Store) : List Nat :=
  (t.active.toList ++ t.staged.toList ++ t.old.toList ++ (t.staging.map (·.target)).toList).map (·.manifest.tag)

/-- The module has come up (Table 18-3). -/
def State.isUp (s : State) : Bool := s.boot.state = .ready || s.boot.state = .serving

/-- The store's objects are served: during start-up, once its first stack of a group is READY (Table 18-8). -/
def State.storeReady (s : State) : Bool :=
  s.isUp || (s.store.stack 0).state.serves || (s.store.stack 4).state.serves

/-- What refuses the commit of a store operation. -/
def State.opRefusal (s : State) (cmd source tag length : Nat) : Option Nat :=
  let found (kind : Nat) : Bool := s.store.catalogue.any fun p => p.manifest.tag = tag && (kind = 0 || p.kind = kind)
  if !s.storeReady then some Status.NOT_READY
  else if s.store.opState = .running then some Status.STO_BUSY
  else if (cmd = 1 || cmd = 3 || cmd = 5) && !sourceOk source length then some Status.VALUE_RANGE
  else if (cmd = 1 || cmd = 2) && !s.store.installMode then some Status.STO_MODE_REQUIRED
  else match cmd with
    | 2 =>
      if !found 1 then some Status.STO_NOT_FOUND
      else if s.store.inUse.contains tag || !(s.store.setsOf tag).isEmpty || s.store.packageTag = tag then
        some Status.STO_IN_USE
      else none
    | 4 =>
      if !found 2 then some Status.STO_NOT_FOUND
      else
        let p := ((s.store.package? tag).map fun p => (p.baseTag, p.manifest.adapters.map (·.id))).getD (0, [])
        if s.srv.streams.any fun e => e.2.packageTag = p.1 && p.2.contains e.2.adapter then some Status.STO_IN_USE
        else none
    | 5 => if found 0 then none else some Status.STO_NOT_FOUND
    | _ => none

/-- The commit of a store operation: the objects take their values, and the operation runs. -/
def State.commitOp (s : State) (cmd source tag length : Nat) : State :=
  match s.opRefusal cmd source tag length with
  | some e => s.status e
  | none =>
    let t := s.setReg Reg.STO_OP_CMD cmd
    let t := if cmd = 2 || cmd = 4 then t
      else (t.setReg Reg.STO_OP_SOURCE source).setReg Reg.STO_OP_LENGTH length
    let t := if cmd = 1 || cmd = 3 then t else t.setReg Reg.STO_OP_TAG tag
    (t.startOp cmd tag length).status Status.OK

def execStoreInstall (source length : Nat) (s : State) : Host.Outcome State Fault Refusal :=
  .next (s.commitOp 1 source 0 length)

def execStoreDelete (tag : Nat) (s : State) : Host.Outcome State Fault Refusal := .next (s.commitOp 2 0 tag 0)

def execAdapterInstall (source length : Nat) (s : State) : Host.Outcome State Fault Refusal :=
  .next (s.commitOp 3 source 0 length)

def execAdapterDelete (tag : Nat) (s : State) : Host.Outcome State Fault Refusal := .next (s.commitOp 4 0 tag 0)

def execStoreRepair (tag source length : Nat) (s : State) : Host.Outcome State Fault Refusal :=
  .next (s.commitOp 5 source tag length)

/-- STO_MODE_SET (R296). -/
def State.commitMode (s : State) (value : Nat) : State :=
  let spill := s.store.active.any fun r => r.plan != 0
  if 1 < value then s.status Status.VALUE_RANGE
  else if value = 1 && (spill || s.store.switchState != .idle) then s.status Status.STO_IN_USE
  else ({ s with store := { s.store with installMode := value = 1 } }.setReg Reg.STO_MODE value).status Status.OK

def execStoModeSet (value : Nat) (s : State) : Host.Outcome State Fault Refusal := .next (s.commitMode value)

/-! ### Half-frames that staging withdraws (R305) -/

/-- Half-frames that hold a share of bytes on each die, by the half-pages of the template in force; none while no
package is staged. -/
def State.framesFor (s : State) (share0 share1 : Nat) : Nat :=
  match s.store.active with
  | none => 0
  | some r =>
    let need (share die : Nat) : Nat :=
      let half := (lget r.manifest.tensors die).bytes
      if half = 0 then 0 else ceilDiv share half
    max (need share0 0) (need share1 1)

/-- Withdraw frames, the lowest first. -/
def Pages.withdraw (p : Pages) (n : Nat) : List Nat × Pages :=
  (p.freeFrames.take n, { p with freeFrames := p.freeFrames.drop n, framesTotal := p.framesTotal - n })

/-- Frames rejoin the pool. -/
def Pages.rejoin (p : Pages) (fs : List Nat) : Pages :=
  { p with freeFrames := fs.foldl freeFrame p.freeFrames, framesTotal := p.framesTotal + fs.length }

/-- Bytes of the tensors of a manifest on a die. -/
def Manifest.tensorBytes (m : Manifest) (die : Nat) : Nat :=
  (m.tensors.map fun e => if e.shard != 0xFFFFFFFF && (e.die = die || e.die = 0xFF) then e.bytes else 0).sum

/-! ### An operation completes (R300, R302, R322) -/

/-- Too few free extents, a stack that takes no programs, or one that is off (R289, R300). -/
def Store.noRoom (t : Store) (shards : List Shard) (p : Shard → Bool) : Option Nat :=
  let need (k : Nat) : Nat := shardsOn shards k p
  if (List.range 8).any fun k => t.extentsFree k < need k then some Status.STO_FULL
  else if (List.range 8).any fun k => 0 < need k && !(t.stack k).state.serves then some Status.STO_STORE_OFF
  else if (List.range 8).any fun k => 0 < need k && (t.stack k).state = .readOnly then some Status.STO_READ_ONLY
  else none

/-- A shard with the bytes that the bundle brings; the slot of an absent optional shard holds zeros. -/
def Shard.fill (x : Shard) (b : List Byte) : Shard :=
  if x.optional && b.all (· == 0) then { x with present := false, data := [] }
  else { x with present := true, corrupt := false, data := b, patrolFails := 0 }

/-- Whether every shard present matches its digest. -/
def digestsMatch (shards : List Shard) : Bool := shards.all fun x => !x.present || sha384 x.data = x.digest

/-- Bytes programmed. -/
def programmed (shards : List Shard) : Nat := ((shards.filter (·.present)).map (·.size)).sum

/-- Bytes programmed when a shard has not matched its digest: those up to it, its own included. -/
def programmedUntil : List Shard → Nat
  | [] => 0
  | x :: xs => (if x.present then x.size else 0) +
      if x.present && sha384 x.data != x.digest then 0 else programmedUntil xs

/-- A store operation ends where a shard of its source does not match its digest: what it has programmed is freed again. -/
def State.digestFailed (s : State) (shards : List Shard) : State :=
  { s with store := { s.store with opProgress := programmedUntil shards } }.finishOp Status.STO_DIGEST

/-- The manifest of a bundle, its filled shards and whether the bundle is too short for them, which shows only as they are
programmed (R300); or what is wrong with the manifest. -/
def State.readBundle (s : State) (adapters : Bool) (b : List Byte) : Except Nat (List Byte × List Shard × Bool) × State :=
  let mb := manifestBytes b
  if b.length < 0x80 + 160 || b.length < field b 0x60 4 + 160 then (.error Status.STO_SOURCE_ERROR, s)
  else
    let (ok, t) := s.verify .manifest mb
    if !ok then (.error Status.STO_SIGNATURE, t)
    else if !manifestFormat adapters mb then (.error Status.PKG_INVALID, t)
    else
      let (xs, need) := bundleShards (fun _ _ => true) b mb.length 0 (parseShards mb)
      (.ok (mb, xs.map fun e => e.1.fill e.2, decide (b.length < need)), t)

/-- INSTALL: the checks of R300 in their order. -/
def State.installOp (s : State) (b : List Byte) : State :=
  match s.readBundle false b with
  | (.error e, t) => t.finishOp e
  | (.ok (mb, shards, short), t) =>
    let m := parseManifest false mb
    if !packageOk m shards || shards.any (fun x => x.optional && x.kind != 3) then
      t.finishOp (if short then Status.STO_SOURCE_ERROR else Status.PKG_INVALID)
    else if (t.store.package? m.tag).isSome then t.finishOp Status.STO_TAG_EXISTS
    else match t.store.noRoom shards (·.present) with
      | some e => t.finishOp e
      | none =>
        if short then t.finishOp Status.STO_SOURCE_ERROR
        else if !digestsMatch shards then t.digestFailed shards
        else
          let x : StoredPackage := { manifest := m, kind := 1, baseTag := 0, shards := shards }
          let c := t.store.setCatalogue (insertPackage x t.store.catalogue)
          ({ t with store := { c with opProgress := programmed shards } }.readBack m.tag fun _ _ => true).finishOp Status.OK

/-- Whether adapters of a base belong to weights that are resident, or staged for a model switch. -/
def Store.liveBase (t : Store) (base : Nat) : Bool :=
  t.active.isSome && t.packageTag = base || t.switchKind = 1 && t.staged.any fun r => r.manifest.tag = base

/-- Whether a model switch is staging a base. -/
def Store.stagingBase (t : Store) (base : Nat) : Bool :=
  t.switchKind = 1 && t.staging.any fun g => g.target.manifest.tag = base

/-- Change the set of weights that a base's adapters belong to. -/
def Store.modBase (t : Store) (base : Nat) (f : Resident → Resident) : Store :=
  if t.active.isSome && t.packageTag = base then { t with active := t.active.map f }
  else { t with staged := t.staged.map f }

/-- The staging of an adapter set behind its base starts (R322): its shards arrive like those of a package. Behind a base
that is itself being staged they are read after the others: DEDUCED, safe (log entry 44). -/
def Store.stageAdapters (t : Store) (base tag : Nat) (ids shards frames : List Nat) : Store :=
  let add (r : Resident) : Resident := { r with adapterFrames := r.adapterFrames ++ frames }
  if t.liveBase base then
    let u := t.modBase base add
    { u with adapterLoads := u.adapterLoads ++ [{ tag := tag, left := shards, ids := ids }] }
  else { t with staging := t.staging.map fun g =>
    { g with order := g.order ++ shards.map fun n => (tag, n)
             target := { add g.target with adapters := g.target.adapters ++ ids } } }

/-- ADAPTER_INSTALL. A set that cannot be staged for want of frames is not installed: DEDUCED, safe (log entry 44). -/
def State.adapterOp (s : State) (b : List Byte) : State :=
  match s.readBundle true b with
  | (.error e, t) => t.finishOp e
  | (.ok (mb, shards, short), t) =>
    let m := parseManifest true mb
    let st := t.store
    if !(st.catalogue.any fun p => p.kind = 1 && p.manifest.tag = m.base) then t.finishOp Status.STO_NOT_FOUND
    else if !adaptersOk mb m (st.adaptersOf m.base) then t.finishOp Status.PKG_INVALID
    else if (st.package? m.tag).isSome then t.finishOp Status.STO_TAG_EXISTS
    else match st.noRoom shards (·.present) with
      | some e => t.finishOp e
      | none =>
        let stages := st.liveBase m.base || st.stagingBase m.base
        let n := if stages then t.framesFor (m.tensorBytes 0) (m.tensorBytes 1) else 0
        if t.pages.freeFrames.length < n then t.finishOp Status.STO_NO_ROOM
        else if short then t.finishOp Status.STO_SOURCE_ERROR
        else if !digestsMatch shards then t.digestFailed shards
        else
          let x : StoredPackage := { manifest := m, kind := 2, baseTag := m.base, shards := shards }
          let (fs, p) := t.pages.withdraw n
          let c := st.setCatalogue (insertPackage x st.catalogue)
          let c := if stages then
              c.stageAdapters m.base m.tag (m.adapters.map (·.id)) ((shards.zipIdx.filter (·.1.present)).map (·.2)) fs
            else c
          ({ t with store := { c with opProgress := programmed shards }, pages := p }.readBack m.tag fun _ _ => true
            ).finishOp Status.OK

/-- REPAIR (R302): the bundle brings the corrupt and missing shards only, and replaces them in one step. -/
def State.repairOp (s : State) (b : List Byte) : State :=
  match s.store.package? s.store.opTag with
  | none => s.finishOp Status.STO_NOT_FOUND
  | some p =>
    let want (x : Shard) : Bool := x.corrupt || !x.present
    let (xs, need) := bundleShards (fun _ x => want x) b (manifestBytes b).length 0 p.shards
    if b.length < field b 0x60 4 + 160 || b.length < need then s.finishOp Status.STO_SOURCE_ERROR
    else
      let shards := xs.map fun e => if want e.1 then e.1.fill e.2 else e.1
      match s.store.noRoom p.shards want with
      | some e => s.finishOp e
      | none =>
        let new := ((xs.zip shards).filter fun e => want e.1.1).map (·.2)
        if !digestsMatch new then s.digestFailed new
        else
          let c := s.store.setCatalogue (insertPackage { p with shards := shards } s.store.catalogue)
          ({ s with store := { c with opProgress := programmed new } }.readBack p.manifest.tag fun k _ =>
            (p.shards[k]?).any want).finishOp Status.OK

/-- DELETE and ADAPTER_DELETE: adapters of the set are no longer selectable. -/
def State.deleteOp (s : State) : State :=
  let gone := ((s.store.package? s.store.opTag).map fun p => (p.baseTag, p.manifest.adapters.map (·.id))).getD (0, [])
  let drop (o : Option Resident) : Option Resident := o.map fun r =>
    if gone.1 = s.store.packageTag || r.manifest.tag = gone.1 then
      { r with adapters := r.adapters.filter (!gone.2.contains ·), adaptersNext := r.adaptersNext.filter (!gone.2.contains ·) }
    else r
  let c := s.store.setCatalogue (s.store.catalogue.filter fun p => p.manifest.tag != s.store.opTag)
  { s with store := { c with active := drop c.active, staged := drop c.staged, old := drop c.old
                             adapterLoads := c.adapterLoads.filter (·.tag != s.store.opTag)
                             staging := c.staging.map fun (g : Staging) => { g with target := (drop (some g.target)).getD g.target } }
    }.finishOp Status.OK

/-- Whether the bundle of the operation lies in the bulk window (R449). -/
def State.bundleInside (s : State) : Bool :=
  let o := s.reg Reg.STO_OP_SOURCE - 0x100000000000
  let (base, size) := s.window 3
  base ≤ o && o + s.store.opLength ≤ base + size

/-- A bundle read outside the bulk window is refused (R450), and the operation fails (Table 14-8). -/
def State.bundleRefused (s : State) : State :=
  let t := { s with hlk := { s.hlk with accessFaults := sat 32 (s.hlk.accessFaults + 1) } }
  (t.raise 0x0B06 0 (s.reg Reg.STO_OP_SOURCE - 0x100000000000) 0).finishOp Status.STO_SOURCE_ERROR

/-- STORE_OP_COMPLETE. With the host link down the bundle cannot be read (Table 9-10). -/
def execStoreOpComplete (cyc : Nat) (bundle : BundleRead) (s : State) : Host.Outcome State Fault Refusal :=
  if s.store.opState ≠ .running then .next s
  else
    let s := s.stamp cyc
    let b := bundle.bytes.take s.store.opLength
    match s.store.opCmd with
    | 2 | 4 => .next s.deleteOp
    | cmd =>
      if bundle.readError || !s.hlk.up then .next (s.finishOp Status.STO_SOURCE_ERROR)
      else if !s.bundleInside then .next s.bundleRefused
      else match cmd with
        | 1 => .next (s.installOp b)
        | 3 => .next (s.adapterOp b)
        | _ => .next (s.repairOp b)

/-! ### Reads of PORT stations (R286 to R290) -/

/-- The PORT station whose store read has this identifier, with the read. -/
def State.storeRead? (s : State) (id : Nat) : Option (Nat × PortRead) :=
  (List.range s.fab.stations.length).findSome? fun i =>
    if (s.fab.portOp? i).any fun p => p.target = 2 then
      ((s.station i).reads.find? fun r => r.wants.contains id).map fun r => (i, r)
    else none

/-- A store read of station `i` for a shard could not be delivered: its pages did not decode, or a stack of it has failed. -/
def State.storeReadLost (s : State) (failed : Bool) (stack logical tag shard : Nat) : State :=
  (if failed then s else s.raise 0x0601 stack logical tag).detect
    { source := 9, causeClass := 3, shard := some shard, storeStack := some stack, epoch := s.passEpoch }

/-- What a store read of station `i` brings goes on as flits (R95). -/
def State.storeReadDone (s : State) (i read : Nat) (got : List Host.Cell) (bad : Bool) : State :=
  ((s.modStation i fun x =>
    { x with reads := x.reads.map fun y =>
        if y.wants.contains read then { y with wants := y.wants.erase read, got := got, poison := y.poison || bad }
        else y }).portEmit i).progress

/-- STORE_READ_COMPLETE (R286): the bytes of the tensor in the store, or POISON. -/
def execStoreReadComplete (cyc read retries : Nat) (decoded : Bool) (s : State) : Host.Outcome State Fault Refusal :=
  match s.storeRead? read with
  | none => .next s
  | some (i, r) =>
    let s := s.stamp cyc
    let at_ := (r.elems.flatMap fun e => (e.map (·.2)).getD []).eraseDups
    let res := s.store.resident? s.passEpoch
    let tensor := (s.fab.portGen i).1.tensor
    let t := (res.bind fun x => x.manifest.tensors[tensor]?).getD default
    let tag := (res.map fun x => x.manifest.tag).getD 0
    let data := (((s.store.package? tag).bind fun p => p.shards[t.shard]?).map (·.data)).getD []
    let extents := (at_.map fun a => (t.offset + a) / 1048576).eraseDups
    let extent := (t.offset + at_.headD 0) / 1048576
    let stack := (t.shard + extent) % 8
    let logical := extentAt tag t.shard extent
    let failed := extents.any fun i => (s.store.stack ((t.shard + i) % 8)).state = .failed
    let bad := failed || !decoded
    let s := extents.foldl (fun (s : State) i =>
      s.readExtent tag t.shard i (at_.filter fun a => (t.offset + a) / 1048576 = i).length) s
    let s := s.modStoreStack stack fun x =>
      { x with retries := sat 32 (x.retries + min 3 retries)
               uncorrectable := if !failed && !decoded then sat 32 (x.uncorrectable + 1) else x.uncorrectable }
    let got := at_.foldl (fun (m : List Host.Cell) a => writeByte m a (data.getD (t.offset + a) 0)) []
    .next ((if bad then s.storeReadLost failed stack logical tag t.shard else s).storeReadDone i read got bad)

/-! ### Stacks: start, wear, patrol, failure -/

/-- BLOCK_RELOCATE (R289, R290). Whether the old block joins the spares again or is retired is open: DESIGN CHOICE,
safe (log entry 24). A READ_ONLY stack draws on its reserve. -/
def execBlockRelocate (cyc stack block : Nat) (s : State) : Host.Outcome State Fault Refusal :=
  onUnit (stack < 8) (
    let x := s.store.stack stack
    if !x.state.serves || kgetD x.disturb block 0 < s.reg Reg.STO_DISTURB_LIMIT then s
    else
      let s := s.stamp cyc
      if x.state = .readOnly && x.spareBlocks = 0 then s.raise 0x0602 stack 0 0
      else
        let (v, s) := s.draw
        let spare := if x.state = .readOnly then x.spareBlocks - 1 else x.spareBlocks - v % 2
        s.modStoreStack stack fun x =>
          { x with disturb := kdel x.disturb block, touched := kdel x.touched block
                   relocations := sat 32 (x.relocations + 1), spareBlocks := spare
                   state := if spare ≤ relocationReserve then .readOnly else x.state })

/-- The highest Record ID of the persistent log. -/
def Ras.lastRecord (r : Ras) : Nat := (r.persist.map fun b => field b 96 8).foldl max 0

/-- STO_STACK_INIT_COMPLETE (R291). Stacks 0 and 4 hold the pushed awl sets, which are resident from then on, and the
persistent log, from whose Record IDs RAS_RECORD_SEQ goes on (R536, Table 18-9). -/
def execStoStackInitComplete (stack spareBlocks wear : Nat) (s : State) : Host.Outcome State Fault Refusal :=
  onUnit (stack < 8) (
    if (s.store.stack stack).state = .init then
      let t := s.modStoreStack stack fun x =>
        { x with state := if spareBlocks ≤ relocationReserve then .readOnly else .ready
                 spareBlocks := spareBlocks % 2 ^ 32, wear := wear % 256 }
      if stack % 4 ≠ 0 then t
      else { t with ras := { t.ras with sets := if t.ras.sets.isEmpty then t.ras.storedSets else t.ras.sets
                                        recordSeq := max t.ras.recordSeq t.ras.lastRecord } }
    else s)

/-- The failed patrol reads in a row of a shard. -/
def State.setPatrolFails (s : State) (tag shard n : Nat) : State :=
  { s with store := { s.store with catalogue := s.store.catalogue.map fun p =>
      if p.manifest.tag = tag then { p with shards := lmod p.shards shard fun y => { y with patrolFails := n } } else p } }

/-- STORE_PATROL (R303): three failed reads in a row mark a shard corrupt. -/
def execStorePatrol (cyc tag shard : Nat) (matched : Bool) (s : State) : Host.Outcome State Fault Refusal :=
  match (s.store.package? tag).bind fun p => p.shards[shard]? with
  | none => .next s
  | some x =>
    if !x.present || x.corrupt || !s.store.reaches shard x then .next s
    else
      let n := if matched then 0 else x.patrolFails + 1
      let t := ((s.stamp cyc).readShard tag shard).setPatrolFails tag shard (n % 3)
      .next (if n < 3 then t else t.markCorrupt tag shard)

end Sys2Proof.Machine
end

