-- ==== Sys2Proof/Machine/Sync.lean ====
section
/-! DEFINITION. The operations of SYNC stations, the messages of the span's sync tree, guard timers, and contexts:
pre-emption, save, restore and discard (chapter 11). -/

namespace Sys2Proof.Machine

/-! ### Tiles at SYNC stations (R365, R366) -/

/-- The operation that the tile at the head of an enabled input of a running SYNC station meets; `none` where
there is no such tile, or it is already free to move. -/
def State.syncHead (s : State) (station input opcode : Nat) : Option SyncOp :=
  let q := ((s.fab.desc? station).bind fun (d : StationDesc) => d.inQ[input]?).bind s.fab.queue?
  match s.syncOp station, q.bind fun (q : QueueRun) => q.buffer.head? with
  | some o, some x =>
    if s.fab.state = .running && s.syn.phase = .none && input < 4 && bit o.ports input && o.opcode = opcode &&
        x.kind = .data && x.first && !(s.part? (4 * station + input)).pass then some o
    else none
  | _, _ => none

/-- An operation on a BROKEN object passes at once, the first on each input behind a status token (R375). -/
def State.passBroken (s : State) (k cause : Nat) : State :=
  s.modPart k fun p =>
    if p.tokenSent then p.free 0 else { p.free cause with tokenSent := true }

/-- SYNC_SIGNAL. -/
def execSyncSignal (cyc station input : Nat) (s : State) : Host.Outcome State Fault Refusal :=
  match s.syncHead station input 1 with
  | none => .next s
  | some o =>
    let s := s.stamp cyc
    let k := 4 * station + input
    match s.localObj o.object with
    | some r =>
      if (s.obj r).state = .broken then .next (s.passBroken k (s.obj r).cause)
      else .next ((s.signal r o.arg).modPart k fun p => p.free 0).torusDone
    | none => .next ((s.sendSync (objectModule o.object) 1 o.object o.arg).modPart k fun p => p.free 0).torusDone

/-- SYNC_WAIT: the wait registers at the object's home, and is over at once where the condition holds. -/
def execSyncWait (cyc station input : Nat) (s : State) : Host.Outcome State Fault Refusal :=
  match s.syncHead station input 2 with
  | none => .next s
  | some o =>
    let s := s.stamp cyc
    let k := 4 * station + input
    let w : WaitReg := { module := s.lce.position.getD 0, station := station, input := input
                         threshold := o.arg, consume := o.consume }
    let held := ((s.hold k).modPart k fun p => { p with registered := true })
    match s.localObj o.object with
    | some r =>
      if (s.obj r).state = .broken then .next (s.passBroken k (s.obj r).cause)
      else if (s.part? k).registered then .next s
      else .next (held.registerWait r w).torusDone
    | none =>
      if (s.part? k).registered then .next s
      else .next (held.sendSync (objectModule o.object) 2 o.object (o.arg + 2 ^ 32 * ofBit o.consume)).torusDone

/-- An arrival at a tile object (R370): counted where the object is OPEN and the phases agree; else the tile is
held. -/
def State.arriveAt (s : State) (k : Nat) (o : SyncOp) (moves : Bool) : State :=
  let r : ObjRef := { bank := false, key := o.tileKey }
  let x := s.obj r
  let p := s.part? k
  if x.state = .broken then s.passBroken k x.cause
  else if x.state = .opn && p.phase = x.phase && !p.arrived then
    let t := s.modPart k fun p => { p with phase := !p.phase, arrived := true }
    let t := if moves then t.modPart k fun p => p.free 0 else t.hold k
    (t.nodeMsg (.arrived none) r).torusDone
  else s.hold k

/-- SYNC_ARRIVE. -/
def execSyncArrive (cyc station input : Nat) (s : State) : Host.Outcome State Fault Refusal :=
  match s.syncHead station input 3 with
  | none => .next s
  | some o => .next ((s.stamp cyc).arriveAt (4 * station + input) o true)

/-- SYNC_BARRIER. -/
def execSyncBarrier (cyc station input : Nat) (s : State) : Host.Outcome State Fault Refusal :=
  match s.syncHead station input 4 with
  | none => .next s
  | some o => .next ((s.stamp cyc).arriveAt (4 * station + input) o false)

/-- A tile has left an input of a SYNC station (R371). -/
def State.tileLeft (s : State) (station input : Nat) : State :=
  let t := s.modPart (4 * station + input) fun p => { p with pass := false, arrived := false }
  match t.syncOp station with
  | some o => if o.barrier then (t.nodeMsg .look { bank := false, key := o.tileKey }).torusDone else t
  | none => t

/-! ### Messages of the span (R368 to R375, R385) -/

/-- The object of the span pair that a number of this module names. -/
def spanRef (object : Nat) : ObjRef := { bank := true, key := 512 * 7 + bits object 8 0 }

/-- A node that other modules reach before a pass here has named it counts its children alone. -/
def State.openNode (s : State) (object : Nat) : State :=
  let r := spanRef object
  if (s.obj r).barrier then s
  else s.modObj r fun o => s.spanNode (List.replicate 8 0) { o with parent := bits object 8 0 }

/-- Inputs that wait at an object of another module, in a running and in a saved pass. -/
def State.waitingAt (s : State) (object : Nat) (threshold : Option Nat) : List Nat :=
  (s.syn.participants.filter fun e => e.2.registered &&
    ((s.syncOp (e.1 / 4)).map fun o => o.object = object && (threshold.isNone || threshold = some o.arg)).getD false).map
      (·.1)

def State.savedAt (s : State) (object : Nat) (threshold : Option Nat) : List Nat :=
  match s.syn.context with
  | none => []
  | some c =>
    let ops := ((List.range 4).findSome? fun n =>
      let x := s.fab.slot n
      if x.lastId = c.lastId then x.image.map Image.syncOps else none).getD []
    (c.participants.filter fun e => e.2.registered && ops.any fun o =>
      o.1 = e.1 / 4 && o.2.object = object && (threshold.isNone || threshold = some o.2.arg)).map (·.1)

/-- A release of one wait at another module's object. -/
def State.waitReleased (s : State) (object threshold : Nat) : State :=
  match s.waitingAt object (some threshold), s.savedAt object (some threshold) with
  | k :: _, _ => s.freeRemote k 0
  | [], k :: _ => s.recordRelease k 0
  | [], [] => s

/-- A break of an object: of this module's node, or of an object elsewhere that tiles here wait at. -/
def State.broken (s : State) (object cause : Nat) : State :=
  if s.lce.position = some (objectModule object) && bits object 31 30 = 2 then
    s.nodeMsg (.broke cause) (spanRef object)
  else
    let t := (s.waitingAt object none).foldl (fun t k => t.freeRemote k cause) s
    (s.savedAt object none).foldl (fun t k => t.recordRelease k cause) t

/-- A SYNC packet for this module (Table 12-3). -/
def State.syncPacket (s : State) (h : PacketHeader) : State :=
  let r := spanRef h.object
  (match h.op with
  | 1 => s.signal r (h.arg % 2 ^ 32)
  | 2 => s.registerWait r { module := h.src, station := 0, input := 0, threshold := h.arg % 2 ^ 32
                            consume := bit h.arg 32 }
  | 3 => s.waitReleased h.object (h.arg % 2 ^ 32)
  | 4 => (s.openNode h.object).nodeMsg (.arrived none) r
  | 5 => s.nodeMsg .release r
  | 6 => s.nodeMsg .answered r
  | 7 => s.nodeMsg .reopen r
  | 8 => s.broken h.object h.arg
  | _ => s).torusDone

/-- SPAN_SIGNAL (R368). -/
def execSpanSignal (cyc object amount : Nat) (s : State) : Host.Outcome State Fault Refusal :=
  .next ((s.stamp cyc).signal (spanRef object) (amount % 2 ^ 32)).torusDone

/-- REGISTER (R369). -/
def execRegister (cyc object : Nat) (w : WaitReg) (s : State) : Host.Outcome State Fault Refusal :=
  .next ((s.stamp cyc).registerWait (spanRef object) w).torusDone

/-- WAIT_RELEASE (R369): the tile that waits at this input goes on; one of a saved pass, at its restore (R385). -/
def execWaitRelease (cyc station input : Nat) (s : State) : Host.Outcome State Fault Refusal :=
  let s := s.stamp cyc
  let k := 4 * station + input
  let mine := ((s.syncOp station).map fun o => o.opcode = 2 && (s.localObj o.object).isNone).getD false
  if (s.part? k).registered && mine then .next (s.freeRemote k 0)
  else
    match s.syn.context with
    | some c => if (kgetD c.participants k {}).registered then .next (s.recordRelease k 0) else .next s
    | none => .next s

/-- ARRIVE (R371): a child module's arrival. -/
def execArrive (cyc object : Nat) (s : State) : Host.Outcome State Fault Refusal :=
  .next (((s.stamp cyc).openNode object).nodeMsg (.arrived none) (spanRef object)).torusDone

/-- Whether a node of the span pair is in a state. -/
def State.nodeIn (s : State) (object : Nat) (x : NodeState) : Bool := (s.obj (spanRef object)).state = x

/-- RELEASE (R371): a COMPLETE node goes to RELEASING. -/
def execRelease (cyc object : Nat) (s : State) : Host.Outcome State Fault Refusal :=
  let s := s.stamp cyc
  if s.nodeIn object .complete then .next (s.nodeMsg .release (spanRef object)).torusDone else .next s

/-- RELEASED (R371): a child module's answer. -/
def execReleased (cyc object : Nat) (s : State) : Host.Outcome State Fault Refusal :=
  .next ((s.stamp cyc).nodeMsg .answered (spanRef object)).torusDone

/-- REOPEN (R371): a REOPENING node starts its next round. -/
def execReopen (cyc object : Nat) (s : State) : Host.Outcome State Fault Refusal :=
  let s := s.stamp cyc
  if s.nodeIn object .reopening then .next (s.nodeMsg .reopen (spanRef object)).torusDone else .next s

/-- BREAK (R375). -/
def execBreakNode (cyc object cause : Nat) (s : State) : Host.Outcome State Fault Refusal :=
  .next ((s.stamp cyc).broken object cause).torusDone

/-! ### Guard timers (R374, R375) -/

/-- Cycles that a guard allows, with the default in force when the running pass was issued (R387). -/
def State.guardLimit (s : State) (o : SyncOp) : Nat :=
  1024 * (if o.guard = 0 then (s.planner.running.map fun (r : PassRun) => r.guardDefault).getD (s.reg Reg.SYN_GUARD_DEFAULT)
    else o.guard)

/-- The guard timer of a held tile. -/
def State.guardTime (s : State) (p : Participant) : Nat :=
  match p.heldSince with
  | none => 0
  | some h => s.clock - h + p.heldBefore

/-- GUARD_EXPIRED: the object becomes BROKEN. -/
def execGuardExpired (cyc station input : Nat) (s : State) : Host.Outcome State Fault Refusal :=
  let k := 4 * station + input
  let t := s.stamp cyc
  let p := t.part? k
  match t.syncOp station with
  | none => .next s
  | some o =>
    if p.heldSince.isNone || p.pass || t.syn.phase != .none || t.guardTime p < t.guardLimit o then .next s
    else
      let t := { t with syn := { t.syn with guardExpiries := sat 32 (t.syn.guardExpiries + 1) } }
      let t := t.raise 0x0801 o.object ((t.planner.running.map fun (r : PassRun) => r.passNumber).getD 0) 2
      let r := if o.barrier then some { bank := false, key := o.tileKey } else t.localObj o.object
      match r with
      | some r => .next (t.nodeMsg (.broke 2) r).torusDone
      | none => .next ((t.sendSync (objectModule o.object) 8 o.object 2).freeRemote k 2).torusDone

/-! ### Contexts (R379 to R386) -/

/-- Lace reads outstanding in the running pass. -/
def State.laceReads (s : State) : Nat :=
  (s.fab.stations.zipIdx.map fun e =>
    if (s.fab.portOp? e.2).any (fun p => p.target = 4) then
      ((e.1.reads.filter fun r => !r.wants.isEmpty).map (·.id)).eraseDups.length
    else 0).sum

/-- A read or write is outstanding that a save waits for (R380, steps 2 and 3). -/
def State.saveWaits (s : State) : Bool :=
  s.fab.stations.zipIdx.any fun e =>
    let lace := (s.fab.portOp? e.2).any fun p => p.target = 4
    e.1.writes != 0 || (!lace && e.1.reads.any fun r => !r.wants.isEmpty || !r.ask.isEmpty)

/-- At a frame boundary a pass of class 1 to 3 gives up the fabric: it is pre-empted, or voided
(R379, R439). -/
def State.endHold (s : State) : State :=
  match s.planner.running with
  | none => s
  | some r =>
    if r.entry.cls = 0 || !r.entry.isPass || s.fab.state != .running || s.syn.phase != .none then s
    else if r.preemptMode = 1 && s.syn.context.isNone && (s.dspStations 1).isEmpty then
      let s := if s.poolPass then s.cancelBatch true else s
      { s.stopGuard with syn := { s.syn with phase := .saving, preemptStart := s.clock
                                             remoteGen := (s.syn.remoteGen + 1) % 256 } }
    else s.startVoid 4

/-- The plan entry that resumes the saved pass, placed like a rerun (R384); none is planned while the host link is
down (Table 11-8). -/
def State.planResume (s : State) : State :=
  let p := s.planner
  match s.syn.context with
  | none => s
  | some c =>
    if !s.hlk.up || p.plan.any (·.resume) || p.moved.any (·.resume) then s
    else
      let e := s.recost { c.run.entry with resume := true }
      let (a, b) := s.fit s.planBase (insertRerun e.cls [e] p.plan)
      { s with planner := { p with plan := a, moved := p.moved ++ b } }

/-- CONTEXT_SAVED: the image is in the context area and the fabric is IDLE (R380). -/
def execContextSaved (cyc saveCycles : Nat) (s : State) : Host.Outcome State Fault Refusal :=
  match s.planner.running with
  | none => .next s
  | some r =>
    if s.syn.phase != .saving || s.saveWaits then .next s
    else
      let s := s.stamp cyc
      let f := s.fab
      let stop (p : Participant) : Participant := { p with heldBefore := s.guardTime p }
      let ctx : SavedContext :=
        { run := r, saveFst := s.tb.fst, mask := s.mask, remoteGen := s.syn.remoteGen, queues := f.queues, stations := f.stations, params := f.params, acc := s.mxe.acc
          sets := s.mxe.sets, setPads := s.mxe.setPads
          closed := s.mxe.closed, marked := s.mxe.marked, setSeen := s.mxe.setSeen, overflowed := s.mxe.overflowed, sram := s.mem.sram
          lastId := r.entry.lastId, pair := s.currentPair, reads := s.laceReads, guard := f.guardHeld
          elapsed := s.tb.now - r.start, checkMode := s.mxe.checkMode, checkTol := s.mxe.checkTol
          passMismatches := s.mxe.passMismatches, saveCycles := saveCycles, releases := []
          batch := { batchId := s.dsp.batchId, gen := s.dsp.gen, nextNo := s.dsp.nextNo, choices := s.dsp.choices
                     rows := s.dsp.rows, sentTo := s.dsp.sentTo, closedNos := s.dsp.closedNos }
          participants := s.syn.participants.map fun e => (e.1, stop e.2), tileObjs := s.syn.tiles }
      let t := { s with
        fab := { f with state := .idle, queues := f.queues.map QueueRun.empty, stations := f.stations.map fun _ => {} }
        syn := { s.syn with tiles := [], participants := [], phase := .none, context := some ctx
                            preemptions := sat 32 (s.syn.preemptions + 1) }
        planner := { s.planner with running := none } }
      .next (t.raiseFor 0x0803 (passEventGroup r.entry.rows) r.entry.step r.passNumber saveCycles).planResume

/-- A REQ packet of a lace PORT station (R407). -/
def State.sendReq (s : State) (i number offset : Nat) : State :=
  match s.fab.portOp? i with
  | none => s
  | some p =>
    let dest := s.lce.members.getD (field p.fields 0 1) (s.lce.position.getD 0)
    s.inject { dest := dest, src := 0, route := 0, mclass := 1, flits := 0
               tag := s.syn.remoteGen * 2 ^ 24 + number % 2 ^ 24, arg := offset, gen := p.gen } []

/-- Reads on a lace are issued again under the generation in force (R381, R384). -/
def State.reissue (s : State) : State :=
  s.fab.stations.zipIdx.foldl (fun t e =>
    if (s.fab.portOp? e.2).any (fun p => p.target = 4) then
      (((e.1.reads.filter fun r => !r.wants.isEmpty).map fun r => (r.id, r.offset)).eraseDups).foldl
        (fun t r => t.sendReq e.2 r.1 r.2) t
    else t) s

/-- A release recorded for the saved pass takes effect (R385). -/
def State.applyRelease (s : State) (x : Nat × Nat) : State :=
  if nodeRelease ≤ x.1 then
    let r : ObjRef := { bank := true, key := x.1 - nodeRelease }
    let m : NodeMsg := if x.2 = 0 then .release else .broke x.2
    (s.tileChildren r).foldl (fun t c => t.nodeMsg m c) s
  else s.modPart x.1 fun p => p.free x.2

/-- The saved pass as it runs again, with the planned end of the entry that resumes it (R66). -/
def State.resumedRun (s : State) (c : SavedContext) : PassRun :=
  { c.run with planEnd := (s.planner.running.getD c.run).planEnd }

/-- The restore of the saved context starts (R384). -/
def State.startRestore (s : State) (c : SavedContext) : State :=
  { s with syn := { s.syn with phase := .restoring }
           planner := { s.planner with running := some (s.resumedRun c) }
           fab := { s.fab with state := .running } }

/-- The batch of a pool pass that resumes: its choices go out again under their new GEN (R439). -/
def State.resumeBatch (s : State) (b : SavedBatch) : State :=
  if s.poolPass then
    (s.modDsp fun d => { d with batchId := b.batchId, gen := b.gen, nextNo := b.nextNo, choices := b.choices, rows := b.rows
                                sentTo := b.sentTo, closedNos := b.closedNos, endSent := false }).dspAdvance
  else s

/-- CONTEXT_RESTORED (R384, steps 3 to 6). -/
def execContextRestored (cyc : Nat) (s : State) : Host.Outcome State Fault Refusal :=
  match s.syn.context with
  | none => .next s
  | some c =>
    if s.syn.phase != .restoring then .next s
    else
      let s := s.stamp cyc
      let go (p : Participant) : Participant := { p with heldSince := p.heldSince.map fun _ => s.clock }
      let t := { s with
        fab := { s.fab with queues := c.queues, stations := c.stations, params := c.params
                            guardZero := s.clock - c.guard }
        mxe := { s.mxe with acc := c.acc, sets := c.sets, setPads := c.setPads, closed := c.closed, marked := c.marked, setSeen := c.setSeen, overflowed := c.overflowed
                            checkMode := c.checkMode, checkTol := c.checkTol, passMismatches := c.passMismatches }
        mem := { s.mem with sram := c.sram }
        syn := { s.syn with tiles := c.tileObjs, participants := c.participants.map fun (e : Nat × Participant) => (e.1, go e.2)
                            phase := .none, context := none }
        planner := { s.planner with running := some { s.resumedRun c with start := s.tb.now - c.elapsed } } }
      let t := c.releases.foldl State.applyRelease (t.reissue.resumeBatch c.batch)
      .next (t.raiseFor 0x0804 (passEventGroup c.run.entry.rows) c.run.entry.step c.run.passNumber c.saveCycles).torusDone

/-- A saved context is discarded (Table 11-8): its objects break, and `f` says what becomes of its step. -/
def State.discardContext (s : State) (f : State → Nat → State) : State :=
  match s.syn.context with
  | none => s
  | some c =>
    let n := c.run.entry.step
    let t := s.raiseFor 0x0805 (passEventGroup c.run.entry.rows) n c.run.passNumber 1
    let t := t.loseStep n
    let p := t.planner
    let t := { t with syn := { t.syn with context := none, phase := .none }
                      planner := { p with plan := p.plan.filter fun e => !e.resume
                                          moved := p.moved.filter fun e => !e.resume } }
    f t n

end Sys2Proof.Machine
end

