-- ==== Sys2Proof/Machine/Lace.lean ====
section
/-! DEFINITION. Laces (chapter 12): frames and packets received, bringing a lace up and down, notices, the span's
commit, and the laser inputs. -/

namespace Sys2Proof.Machine

/-! ### A lace goes down, a module is missing (R411, R413) -/

/-- What a change of the fault view does to the span: its state follows, and a route that is newly bad breaks it
(R409, R412). -/
def State.viewChanged (s before : State) : State :=
  let t := if newlyBad before.spanRoutes s.spanRoutes then s.oweFault s.lce.spanTag else s
  t.followSpan.torusDone

/-- A module is declared missing (R411, R377). -/
def State.declareMissing (s : State) (p : Nat) : State :=
  if s.lce.missing.contains p then s
  else
    let t := s.modTorus fun t => { t with missing := t.missing ++ [p]
                                          pendingNotices := t.pendingNotices.filter fun n => n.subject != p }
    let t := t.raise 0x0906 p t.lce.spanTag 0
    if t.lce.members.contains p && 1 < t.lce.members.length then t.memberLost p else t

/-- A LOST notice: the hop is down, and a module with all four laces lost is missing. -/
def State.applyLost (s : State) (p l : Nat) : State :=
  let t := s.modTorus fun t =>
    { t with lacesDown := if t.lacesDown.contains (4 * p + l) then t.lacesDown else t.lacesDown ++ [4 * p + l] }
  if (List.range 4).all fun k => t.lce.lacesDown.contains (4 * p + k) then t.declareMissing p else t

/-- A LINK_NOTICE of this module goes out on every lace. -/
def State.sendNotice (s : State) (notice subject lace effective : Nat) : State :=
  let here := s.lce.position.getD 0
  let seq := s.lce.noticeSeq
  let t := s.modTorus fun t => { t with noticeSeq := (seq + 1) % 65536, seen := t.seen ++ [(here, seq)] }
  t.flood 4 (.linkNotice { origin := here, seq := seq, notice := notice, subject := subject, lace := lace
                           effective := effective })

/-- Packets that a lace holds: those waiting, with the headers of all of them. -/
def Lace.queued (a : Lace) : List Packet :=
  a.waiting.filterMap fun x => match x with
    | .packet p => some p
    | .control _ => none

def Lace.packets (a : Lace) : List PacketHeader :=
  ((a.replayBuffer.flatMap (·.slots)).filterMap fun x => match x with
    | .header _ h => some h
    | _ => none) ++ a.queued.map (·.header)

/-- A lace that has gone down or off: nothing held, and full credits for its next training. -/
def Lace.cleared (a : Lace) (state : LaceState) (cause : Nat) : Lace :=
  let n : Lace := {}
  { a with state := state, cause := cause, width := 0, txSeq := 0, rxSeq := 0, replayBuffer := [], awaitReplay := false
           waiting := [], dedicated := n.dedicated, shared := n.shared, creditReturns := [], receiving := []
           discarded := sat 32 (a.discarded + a.packets.length), retrainFails := [], replayTimes := []
           ackSent := false, ackReceived := false, peerGood := false, helloWait := 0, narrowSlots := 0 }

/-- A lace goes DOWN (R411): its packets are discarded, and every module hears of it. -/
def State.laceDown (s : State) (l cause : Nat) (notice : Bool) : State :=
  let a := s.lace l
  if a.state = .down || a.state = .off then s
  else
    let lost := a.packets
    let t := (s.modLace l fun a => { a.cleared .down cause with wasDown := true, downSince := s.uptime }).freeSlots
      (a.queued.filterMap fun p => p.origin.map fun o => (o.1, o.2.1, o.2.2, p.slots))
    let t := (lost.map fun h => h.spanTag).foldl State.oweFault t
    let t := if cause = 2 || cause = 4 then t else t.raise 0x0902 l cause lost.length
    let t := match s.lce.position, notice with
      | some p, true => (t.sendNotice 1 (neighbour p l) (opposite l) t.fst).applyLost (neighbour p l) (opposite l)
      | _, _ => t
    t.viewChanged s

/-! ### Training (R395, R401, R403, R411) -/

/-- A training begins; each after the first counts, once (R401, Table 12-10). -/
def Lace.train (a : Lace) (now : Nat) : Lace :=
  { a with state := .training, trainings := a.trainings + 1, retrainCounted := false, trainStart := now
           retrains := if a.trainings = 0 || a.retrainCounted then a.retrains else sat 32 (a.retrains + 1) }

/-- A lace retrains: it stays on its routes, and what it holds waits; FRAME_SEQ, the frames held and the credits go on
in the new LINK_EPOCH: DEDUCED, unsafe (log entry 47). -/
def State.retrain (s : State) (l : Nat) : State := s.modLace l fun a => { a.train s.clock with awaitReplay := false }

/-- A replay is asked for, by either end; more than 16 within 1 ms retrain the lace. -/
def State.noteReplay (s : State) (l : Nat) : State :=
  let now := s.clock
  let t := s.modLace l fun a => { a with replayTimes := (now :: a.replayTimes).filter fun x => now < x + 1250000 }
  if 16 < (t.lace l).replayTimes.length then t.retrain l else t

/-- LCE_REPLAYS. -/
def State.countReplay (s : State) (l : Nat) : State :=
  s.modLace l fun a => { a with replays := sat 32 (a.replays + 1) }

/-- LACE_LIGHT_DETECTED (R401): a DARK lace trains, and so does one that is DOWN for want of light, of its peer or
after errors. -/
def execLaceLightDetected (lace : Nat) (s : State) : Host.Outcome State Fault Refusal :=
  onUnit (lace < 4) <|
    let a := s.lace lace
    if a.state = .dark || (a.state = .down && a.cause != 4 && a.cause != 5) then
      s.modLace lace fun a => a.train s.clock
    else s

/-- LACE_TRAINING_COMPLETE: a new LINK_EPOCH, and HELLO. -/
def execLaceTrainingComplete (cyc lace : Nat) (s : State) : Host.Outcome State Fault Refusal :=
  onUnit (lace < 4) <|
    if (s.lace lace).state = .training then
      let native := s.nativeWidth
      (s.stamp cyc).modLace lace fun a =>
        { a with state := .hello, cause := 0, linkEpoch := (a.linkEpoch + 1) % 65536
                 width := if a.halfWidth then native / 2 else native
                 ackSent := false, ackReceived := false, peerGood := false, helloWait := 0 }
    else s

/-- LACE_TRAINING_TIMEOUT: back to DARK, with LCE_RETRAINS counted; the third failed retrain within 1 s takes the lace
DOWN (R401, R411). That the training which follows is the one counted is DEDUCED, unsafe (log entry 47). -/
def execLaceTrainingTimeout (cyc lace : Nat) (s : State) : Host.Outcome State Fault Refusal :=
  onUnit (lace < 4) <|
    let a := s.lace lace
    let now := (s.stamp cyc).clock
    if a.state != .training || now < a.trainStart + 50000000 then s
    else
      let s := s.stamp cyc
      let fails := if 1 < a.trainings then (now :: a.retrainFails).filter fun x => now < x + 1250000000 else []
      let t := s.modLace lace fun a => { a with retrainFails := fails }
      if 3 ≤ fails.length then t.laceDown lace 3 true
      else t.modLace lace fun a => { a with state := .dark, retrains := sat 32 (a.retrains + 1), retrainCounted := true }

/-- LACE_MISWIRED_RETRY (R402). -/
def execLaceMiswiredRetry (lace : Nat) (s : State) : Host.Outcome State Fault Refusal :=
  onUnit (lace < 4) <|
    if (s.lace lace).state = .down && (s.lace lace).cause = 4 && (s.lace lace).downSince + 160 ≤ s.uptime then
      s.modLace lace fun a => a.train s.clock
    else s

/-- RING_HEATER_STEP (R403): a failed lane retrains the lace at half width. -/
def execRingHeaterStep (cyc lace : Nat) (step failed : Bool) (rxPower : Int) (s : State) :
    Host.Outcome State Fault Refusal :=
  onUnit (lace < 4) <|
    if !(s.lace lace).state.framed then s
    else
      let t := (s.stamp cyc).modLace lace fun a =>
        { a with rxPowerMin := rxPower, ringAdjusts := if step then sat 32 (a.ringAdjusts + 1) else a.ringAdjusts }
      if failed then (t.modLace lace fun a => { a with halfWidth := true }).retrain lace else t

/-- LACE_LIGHT_LOST (R411). -/
def execLaceLightLost (cyc lace : Nat) (s : State) : Host.Outcome State Fault Refusal :=
  onUnit (lace < 4) <|
    let a := s.lace lace
    if a.state.framed then (s.stamp cyc).laceDown lace 1 true
    else if a.state = .training then s.modLace lace fun a => { a with state := .dark }
    else s

/-! ### HELLO (R402) -/

/-- The fields of this module's HELLO on a lace. -/
def State.helloOf (s : State) (l : Nat) : HelloMsg :=
  { position := s.lce.position.getD 0, rackId := s.lce.rackId, lace := l, width := (s.lace l).width, sendFst := s.fst }

/-- HELLO: HELLO_ACK in HELLO or later, with the position known; else NOT_READY, whose RETRY_AFTER is 8 while the lace
trains and is open otherwise. -/
def execHello (cyc lace : Nat) (m : HelloMsg) (s : State) : Host.Outcome State Fault Refusal :=
  onUnit (lace < 4) <|
    let s := s.stamp cyc
    let x := (s.lace lace).state
    if x.framed && s.lce.position.isSome then
      (s.sendControl lace (.helloAck (s.helloOf lace) m.sendFst)).modLace lace fun a => { a with ackSent := true }
    else if x = .training then s.laceSend lace (.control (.notReady 8))
    else if x.framed then
      let (v, t) := s.draw
      t.sendControl lace (.notReady (1 + v % 8000))
    else s

/-- Fabric cycles since frame 0 of an FST. -/
def fstCycles (fst : Nat) : Nat :=
  (frameOf fst * 160 + slotOf fst) * 156250 + fst % 65536 * 156250 / 65536

/-- HELLO_ACK: half the round trip is the latency; the position, the rack and the lace number must be those of the
neighbour, and the widths must agree. -/
def execHelloAck (cyc lace : Nat) (m : HelloMsg) (echoFst : Nat) (s : State) : Host.Outcome State Fault Refusal :=
  onUnit (lace < 4) <|
    if (s.lace lace).state != .hello then s
    else
      let s := s.stamp cyc
      let t := s.modLace lace fun a =>
        { a with peer := m.position, latency := (fstCycles s.fst - fstCycles echoFst) / 2 }
      let placed := match s.lce.position with
        | some p => m.position = neighbour p lace && m.rackId = s.lce.rackId && m.lace = opposite lace
        | none => false
      if placed then
        t.modLace lace fun a => { a with ackReceived := true, peerGood := m.width = a.width }
      else if s.lce.position.isNone then t
      else (t.raise 0x0904 lace 4 0).laceDown lace 4 false

/-- NOT_READY. -/
def execNotReady (lace retryAfter : Nat) (s : State) : Host.Outcome State Fault Refusal :=
  onUnit (lace < 4) <|
    if (s.lace lace).state = .hello then s.modLace lace fun a => { a with helloWait := retryAfter } else s

/-! ### Packets that arrive (R394, R404, R407) -/

/-- A flit from its payload and sideband (Table 3-1). -/
def flitOf (payload : Payload) (sideband : BitVec 16) : Flit :=
  let b := sideband.toNat
  { kind := match bits b 15 14 with
      | 0 => .data
      | 1 => .control
      | 2 => .status
      | _ => .reserved
    first := bit b 13, last := bit b 12, poison := bit b 11, seq := b % 256, payload := payload }

/-- The lace PORT station at a logical location (R233). -/
def State.stationAt (s : State) (channel : Nat) : Option Nat :=
  let loc := placeLoc s.mask channel
  (List.range s.fab.stations.length).find? fun i =>
    match s.fab.desc? i, s.fab.portOp? i with
    | some d, some p => d.location = loc && p.target = 4
    | _, _ => false

/-- A station that takes DATA packets sends them on against the credits that its firings took. -/
def State.laceEmit (s : State) (i : Nat) : State :=
  let x := s.station i
  let n := min x.owed.length x.fifo.length
  match (s.fab.desc? i).bind fun (d : StationDesc) => d.outQ.head? with
  | some q =>
    if n = 0 then s
    else
      let fs := (List.zip (x.fifo.take n) x.owed).map fun e => { e.1 with poison := e.1.poison || e.2 }
      ({ s with fab := s.fab.send q fs }.modStation i fun x =>
        { x with fifo := x.fifo.drop n, owed := x.owed.drop n }).progress
  | none => s

/-- POISON on a packet from a lace is a REMOTE cause (Table 16-6). -/
def State.lacePoison (s : State) (flits : List Flit) : State :=
  if anyPoison flits then s.detect { source := 0x0E, causeClass := 5 } else s

/-- A DATA packet. -/
def State.dataPacket (s : State) (h : PacketHeader) (flits : List Flit) : State :=
  match s.stationAt h.channel with
  | none => s
  | some i =>
    if s.fab.state != .running then s
    else ((s.lacePoison flits).modStation i fun x => { x with fifo := x.fifo ++ flits }).laceEmit i

/-- Flits of a response, given to the reads that wait for its number. -/
def fillReads (n : Nat) : List PortRead → List Flit → List PortRead
  | r :: rs, x :: xs =>
    if r.id = n && !r.wants.isEmpty then
      { r with wants := [], got := writeBytes [] 0 x.bytes, poison := r.poison || x.poison } :: fillReads n rs xs
    else r :: fillReads n rs (x :: xs)
  | rs, _ => rs

/-- An RSP packet: one of another generation is discarded (R381). -/
def State.rspPacket (s : State) (h : PacketHeader) (flits : List Flit) : State :=
  if h.tag / 2 ^ 24 != s.syn.remoteGen then { s with syn := { s.syn with stale := sat 32 (s.syn.stale + 1) } }
  else
    let n := h.tag % 2 ^ 24
    match (List.range s.fab.stations.length).find? fun i =>
        (s.fab.portOp? i).any (fun p => p.target = 4) && (s.station i).reads.any fun r => r.id = n && !r.wants.isEmpty with
    | none => s
    | some i =>
      (((s.lacePoison flits).modStation i fun x => { x with reads := fillReads n x.reads flits }).portEmit i).progress

/-- Flits of an answer, numbered from `k` on: bytes of the tensor at these addresses, read through the insoles; POISON where
a sector cannot be delivered clean. -/
def State.answerFlits (at_ : Nat → Nat) (first size total : Nat) : Nat → Nat → State → List Flit × State
  | 0, _, s => ([], s)
  | n + 1, k, s =>
    let (bytes, bad, t) := s.readBytesNow 0xFFFF false
      ((List.range (min 64 (size - first - 64 * k))).map fun j => at_ (first + 64 * k + j))
    let (fs, t) := State.answerFlits at_ first size total n (k + 1) t
    ({ kind := .data, first := k = 0, last := k + 1 = total, poison := bad, seq := 0, payload := payloadOf bytes } :: fs, t)

/-- Flits of an answer from a tensor in the store (R286); POISON where a stack that holds bytes of a flit has failed. -/
def State.storeAnswer (s : State) (e : TensorEntry) (first n : Nat) : List Flit × State :=
  let tag := (s.store.active.map fun r => r.manifest.tag).getD 0
  let data := (((s.store.package? tag).bind fun p => p.shards[e.shard]?).map (·.data)).getD []
  let from_ (k : Nat) : Nat := e.offset + first + 64 * k
  let size (k : Nat) : Nat := min 64 (e.bytes - first - 64 * k)
  let t := (List.range n).foldl (fun (s : State) k => s.readExtent tag e.shard (from_ k / 1048576) (size k)) s
  ((List.range n).map fun k =>
    { kind := .data, first := k = 0, last := k + 1 = n, seq := 0, payload := payloadOf ((data.drop (from_ k)).take (size k))
      poison := (s.store.stack ((e.shard + from_ k / 1048576) % 8)).state = .failed }, t)

/-- A REQ packet: bytes of the tensor of this module's generator GEN, from the byte offset on, up to 256 flits or its
end, which is DEDUCED, unsafe (log entry 47), since a REQ names no length; a generator that names no tensor has no
byte offset in one, and is not answered. The CHANNEL of the answer is open: DESIGN CHOICE, safe (log entry 25). -/
def State.reqPacket (s : State) (h : PacketHeader) : State :=
  let gen := s.fab.image?.bind fun m => (m.gen? 0 h.gen).or (m.gen? 1 h.gen)
  let t := gen.bind fun g => (s.store.active.bind fun r => r.manifest.tensors[g.tensor]?).map fun e => (g, e)
  match t with
  | none => s
  | some (g, e) =>
    if g.space != 1 && g.space != 2 then s
    else
      let n := min 256 (ceilDiv (e.bytes - h.arg) 64)
      let (fs, s) :=
        if g.space = 1 then s.answerFlits (tensorMpa s.part s.passEpoch 0 g.tensor e) h.arg e.bytes n n 0
        else s.storeAnswer e h.arg n
      let (v, s) := s.draw
      s.inject { dest := h.src, src := 0, route := 0, mclass := 2, flits := n, channel := v % 65536, tag := h.tag } fs

/-- A whole packet has arrived on a lace: for this module, or on its way (R404). Its slots go back, when it is consumed
or sent on, to a pool that the frame does not name (R397): DESIGN CHOICE, safe (log entry 25). -/
def State.packetIn (s : State) (l vc : Nat) (h : PacketHeader) (flits : List Flit) : State :=
  let (v, s) := s.draw
  let shared := decide (v % 2 = 1)
  match s.lce.position.bind fun p => (PacketLace h p).map fun out => (p, out) with
  | some (p, out) => s.forward h flits p out (l < 2 && 2 ≤ out) (some (l, vc, shared))
  | none =>
    let s := s.freeSlots [(l, vc, shared, 1 + flits.length)]
    match h.mclass with
    | 0 => s.dataPacket h flits
    | 1 => s.reqPacket h
    | 2 => s.rspPacket h flits
    | _ => s.syncPacket h

/-- A slot of an accepted frame. -/
def State.slotIn (s : State) (l : Nat) (x : LaceSlot) : State :=
  match x with
  | .idle | .control => s
  | .header vc h =>
    if h.flits = 0 then s.packetIn l vc h []
    else s.modLace l fun a => { a with receiving := kset a.receiving vc (h, []) }
  | .data vc payload sideband =>
    match kget? (s.lace l).receiving vc with
    | none => s
    | some (h, fs) =>
      let fs := fs ++ [flitOf payload sideband]
      if fs.length < h.flits then s.modLace l fun a => { a with receiving := kset a.receiving vc (h, fs) }
      else (s.modLace l fun a => { a with receiving := kdel a.receiving vc }).packetIn l vc h fs

/-- Frames up to ACK_SEQ have been received (R395). -/
def Lace.acked (a : Lace) (ack : Nat) : Lace :=
  { a with replayBuffer := a.replayBuffer.filter fun f => !((ack + 65536 - f.seq) % 65536 < 32768) }

/-- Credits that a frame returns (R397). -/
def Lace.credited (a : Lace) (cs : List (Nat × Bool × Nat)) : Lace :=
  cs.foldl (fun a c =>
    if c.2.1 then { a with shared := min 10176 (a.shared + c.2.2) }
    else { a with dedicated := a.dedicated.modify c.1 fun v => min 264 (v + c.2.2) }) a

/-- A discarded frame counts in LCE_FEC_UNCORRECTABLE where its code failed, else as replayed (R392); the first frame
lacking is asked for once (R395). -/
def State.frameLost (s : State) (l : Nat) (code : Bool) : State :=
  let a := s.lace l
  let t := if code then s.modLace l fun a => { a with fecUncorrectable := sat 32 (a.fecUncorrectable + 1) }
    else s.countReplay l
  if a.awaitReplay then t
  else ((t.modLace l fun a => { a with awaitReplay := true }).sendControl l (.replayReq a.rxSeq)).noteReplay l

/-- LACE_FRAME_RECEIVED (R392 to R397). -/
def execLaceFrameReceived (cyc lace : Nat) (f : LaceFrame) (s : State) : Host.Outcome State Fault Refusal :=
  onUnit (lace < 4) <|
    let a := s.lace lace
    if !a.state.framed then s
    else
      let s := (s.stamp cyc).modLace lace fun a => { a with fecCorrected := sat 64 (a.fecCorrected + f.corrected) }
      if !f.correctable then s.frameLost lace true
      else if !f.crcGood || f.linkEpoch != a.linkEpoch || f.frameSeq != a.rxSeq || (a.awaitReplay && !f.replay) then
        s.frameLost lace false
      else
        let t := s.modLace lace fun a =>
          ({ a with rxSeq := (a.rxSeq + 1) % 65536, awaitReplay := false }.acked f.ackSeq).credited f.credits
        let t := if a.state.carries then f.slots.foldl (fun t x => t.slotIn lace x) t else t
        (t.laceDrain lace).torusDone

/-- REPLAY_REQ (R395). -/
def execReplayReq (cyc lace fromSeq : Nat) (s : State) : Host.Outcome State Fault Refusal :=
  onUnit (lace < 4) <|
    let a := s.lace lace
    if !a.state.framed then s
    else
      let s := s.stamp cyc
      if (a.txSeq + 65536 - fromSeq) % 65536 ≤ a.held then (s.countReplay lace).noteReplay lace
      else s.retrain lace

/-! ### Notices (R402, R409, R411 to R414) -/

/-- A message that is forwarded once is new (R402). -/
def State.firstSeen (s : State) (origin seq : Nat) : Bool := !s.lce.seen.contains (origin, seq)

def State.see (s : State) (origin seq : Nat) : State := s.modTorus fun t => { t with seen := t.seen ++ [(origin, seq)] }

/-- RETURNED: its routes wait for EFFECTIVE (R414); the first lace of a missing module to return raises
LCE_MODULE_RETURNED. -/
def State.hearReturned (s : State) (m : LinkNoticeMsg) : State :=
  let first := s.lce.missing.contains m.subject && !s.lce.pendingNotices.any fun n => n.notice = 3 && n.subject = m.subject
  let t := s.modTorus fun x => { x with pendingNotices := x.pendingNotices ++ [m] }
  if first then t.raise 0x0908 m.subject t.lce.spanTag 0 else t

/-- LINK_NOTICE. -/
def execLinkNotice (cyc lace : Nat) (m : LinkNoticeMsg) (s : State) : Host.Outcome State Fault Refusal :=
  onUnit (lace < 4) <|
    if !(s.lace lace).state.framed || !s.firstSeen m.origin m.seq then s
    else
      let s := s.stamp cyc
      let t := (s.see m.origin m.seq).flood lace (.linkNotice m)
      match m.notice with
      | 1 => (t.applyLost m.subject m.lace).viewChanged s
      | 2 => t.modTorus fun x => { x with pendingNotices := x.pendingNotices ++ [m] }
      | 3 => t.hearReturned m
      | _ => t

/-- GOODBYE (R411, R413). -/
def execGoodbye (cyc lace position : Nat) (s : State) : Host.Outcome State Fault Refusal :=
  onUnit (lace < 4) <|
    if !(s.lace lace).state.framed then s
    else
      let s := s.stamp cyc
      let t := s.laceDown lace 2 false
      ((t.declareMissing position).raise 0x0907 position t.lce.spanTag 0).viewChanged s

/-- SPAN_HELLO (R409). -/
def execSpanHello (cyc lace origin tag mask : Nat) (s : State) : Host.Outcome State Fault Refusal :=
  onUnit (lace < 4) <|
    if !(s.lace lace).state.framed then s
    else
      let s := s.stamp cyc
      let t := if s.lce.seenHello.contains (origin, tag) then s
        else (s.modTorus fun t => { t with seenHello := t.seenHello ++ [(origin, tag)] }).flood lace
          (.spanHello origin tag mask)
      let t := t.modTorus fun x =>
        { x with hellos := if x.hellos.contains (origin, tag, mask) then x.hellos else x.hellos ++ [(origin, tag, mask)] }
      t.followSpan

/-- SPAN_FAULT (R412). -/
def execSpanFault (cyc lace origin seq tag subject : Nat) (s : State) : Host.Outcome State Fault Refusal :=
  onUnit (lace < 4) <|
    if !(s.lace lace).state.framed || !s.firstSeen origin seq then s
    else
      let t := ((s.stamp cyc).see origin seq).flood lace (.spanFault origin seq tag subject)
      (t.spanBroken tag).torusDone

/-! ### The span's commit (R408) -/

/-- SPAN_COMMIT. -/
def execSpanCommit (mask tag : Nat) (s : State) : Host.Outcome State Fault Refusal :=
  let shape := mask = 0 ||
    (s.lce.position.any fun p => bit mask p) && s.lce.missing.all fun p => !bit mask p
  if 2 ^ 64 ≤ mask || 2 ^ 32 ≤ tag then .next (s.status Status.VALUE_RANGE)
  else if !shape then .next (s.status Status.LCE_SPAN_SHAPE)
  else if s.anyStream then .next (s.status Status.LCE_SPAN_IN_USE)
  else
    let t := s.modTorus fun t => { t with spanMask := mask, spanTag := tag, spanState := .forming }
    let t := { t with syn := { t.syn with banks := kdrop t.syn.banks (512 * 7) (512 * 8), spanBound := true } }
    let here := t.lce.position.getD 0
    let t := if t.lce.members.length ≤ 1 then t
      else (t.modTorus fun t => { t with seenHello := t.seenHello ++ [(here, tag)] }).flood 4 (.spanHello here tag mask)
    .next (t.followSpan.status Status.OK)

/-! ### Leaving (R413) -/

/-- The laces of a module that is asked to leave. -/
def State.startLeaving (s : State) (effective : Nat) : State :=
  let t := s.sendNotice 2 (s.lce.position.getD 0) 0 effective
  (List.range 4).foldl (fun t l => t.modLace l fun a =>
    if a.state = .up || a.state = .narrow then { a with state := .leaving } else a) t

/-- LEAVING_DRAINED: buffers are empty and frames acknowledged from EFFECTIVE on; GOODBYE, and the lace stops. -/
def execLeavingDrained (cyc lace : Nat) (s : State) : Host.Outcome State Fault Refusal :=
  onUnit (lace < 4) <|
    let a := s.lace lace
    if a.state = .leaving && s.pwr.drainEffective && a.waiting.isEmpty && a.replayBuffer.isEmpty then
      let t := (s.stamp cyc).sendControl lace (.goodbye (s.lce.position.getD 0))
      t.modLace lace fun a => { a with state := .down, cause := 2, wasDown := true }
    else s

/-! ### Slot and frame boundaries (R402, R403, R413, R414) -/

/-- A lace whose handshake is complete comes up (R402, R403). -/
def State.laceUp (s : State) (l : Nat) : State :=
  let a := s.lace l
  let narrow := a.width < s.nativeWidth
  let t := (s.modLace l fun a =>
    { a with state := if narrow then .narrow else .up, narrowSlots := 0, wasDown := false }).laceDrain l
  let t := t.raise (if narrow then 0x0903 else 0x0901) l 0 0
  let t := match a.wasDown, s.lce.position with
    | true, some p =>
      let at_ := fstOf (s.tb.frame + 2) 0 0
      let m : LinkNoticeMsg := { origin := p, seq := t.lce.noticeSeq, notice := 3, subject := neighbour p l
                                 lace := opposite l, effective := at_ }
      (t.sendNotice 3 (neighbour p l) (opposite l) at_).hearReturned m
    | _, _ => t
  t.followSpan

/-- What a lace does at a slot boundary: a HELLO, or UP. Idle frames have carried the credit returns. -/
def State.laceSlot (s : State) (l : Nat) : State :=
  let a := s.lace l
  let s := s.modLace l fun a => { a with creditReturns := [] }
  match a.state with
  | .hello =>
    if a.ackSent && a.ackReceived && a.peerGood then s.laceUp l
    else if a.helloWait = 0 then s.sendControl l (.hello (s.helloOf l))
    else s.modLace l fun a => { a with helloWait := a.helloWait - 1 }
  | .narrow => s.modLace l fun a => { a with narrowSlots := a.narrowSlots + 1 }
  | _ => s

/-- A NARROW lace tries its native width again at a frame boundary (R403). -/
def State.laceWiden (s : State) (l : Nat) : State :=
  if (s.lace l).state = .narrow && 8000 ≤ (s.lace l).narrowSlots then
    (s.modLace l fun a => { a with halfWidth := false }).retrain l
  else s

/-- A RETURNED notice whose EFFECTIVE has come (R414). -/
def State.applyReturned (s : State) (m : LinkNoticeMsg) : State :=
  s.modTorus fun t =>
    { t with lacesDown := t.lacesDown.filter (· != 4 * m.subject + m.lace)
             missing := t.missing.filter (· != m.subject)
             pendingNotices := t.pendingNotices.filter fun n => n != m && !(n.notice = 2 && n.subject = m.subject) }

/-- The routes of the span as they were before this frame boundary: a module whose leaving takes effect at it was not
yet routed around (R413). -/
def State.routesBefore (s : State) : List (Nat × Nat × Option Nat) :=
  (s.modTorus fun t => { t with pendingNotices := t.pendingNotices.filter fun n =>
    !(n.notice = 2 && fstOf (s.tb.frame - 1) 0 0 < n.effective) }).spanRoutes

/-- Laces and routes at a slot boundary; at a frame boundary, a pass of a span whose routes change is broken, and a
route that is newly detoured breaks the span (R412 to R414). -/
def State.laceBoundary (s : State) (frame : Bool) : State :=
  let t := (List.range 4).foldl State.laceSlot s
  if !frame then t.torusDone
  else
    let t := (List.range 4).foldl State.laceWiden t
    let before := t.routesBefore
    let due := t.lce.pendingNotices.filter fun n => n.notice = 3 && n.effective ≤ t.fst
    let t := due.foldl State.applyReturned t
    let after := t.spanRoutes
    let t := if (before != after && t.planner.running.isSome) || newlyBad before after then t.oweFault t.lce.spanTag else t
    t.followSpan.torusDone

/-! ### Eyelets and lasers (R390, R417, R418) -/

/-- Laces and uplinks of an eyelet of the part. -/
def State.lacesOf (s : State) (e : Nat) : List Nat := (List.range 4).filter fun l => s.part.eyeletOfLace l = e
def State.uplinksOf (s : State) (e : Nat) : List Nat :=
  (List.range s.part.uplinks).filter fun u => s.part.eyeletOfUplink u = e

/-- An eyelet switches on, or off. -/
def State.eyeletOn (s : State) (e : Nat) : State :=
  let t := (s.lacesOf e).foldl (fun t l => t.modLace l fun a =>
    if a.state = .off then { a with state := .dark, cause := 0 } else a) s
  (s.uplinksOf e).foldl (fun t u => t.modUplink u fun x => if x.state = .off then { x with state := .down } else x) t

def State.eyeletOff (s : State) (e : Nat) : State :=
  let t := (s.lacesOf e).foldl (fun t l => t.modLace l fun a => { a.cleared .off 0 with wasDown := a.wasDown }) s
  ((s.uplinksOf e).foldl (fun t u => t.modUplink u fun x => { x with state := .off, cause := 0 }) t).viewChanged s

/-- LASER_INPUT_LOST. -/
def execLaserInputLost (cyc eyelet input : Nat) (s : State) : Host.Outcome State Fault Refusal :=
  onUnit (eyelet < s.part.eyelets && input < 2) <|
    let s := s.stamp cyc
    let t := s.modTorus fun t =>
      if input = 0 then { t with laserA := t.laserA.set eyelet false } else { t with laserB := t.laserB.set eyelet false }
    if t.lce.laserA.getD eyelet false || t.lce.laserB.getD eyelet false then t.raise 0x0905 eyelet 0 0
    else
      let t := (t.lacesOf eyelet).foldl (fun t l => t.laceDown l 5 true) t
      (t.uplinksOf eyelet).foldl (fun t u => t.uplinkDown u 5) t

/-- LASER_INPUT_RETURN. -/
def execLaserInputReturn (cyc eyelet input : Nat) (s : State) : Host.Outcome State Fault Refusal :=
  onUnit (eyelet < s.part.eyelets && input < 2) <|
    let s := s.stamp cyc
    let t := s.modTorus fun t =>
      if input = 0 then { t with laserA := t.laserA.set eyelet true } else { t with laserB := t.laserB.set eyelet true }
    (t.lacesOf eyelet).foldl (fun t l => t.modLace l fun a =>
      if a.state = .down && a.cause = 5 then { a with state := .dark, cause := 0 } else a) t

/-- LCE_LASER_STATE. -/
def State.laserState (s : State) : Nat :=
  ((List.range 6).map fun e =>
    let n := ofBit (s.lce.laserA.getD e false) + ofBit (s.lce.laserB.getD e false)
    (if s.part.eyelets ≤ e then 3 else 2 - n) * 4 ^ e).sum

end Sys2Proof.Machine
end

