-- ==== Sys2Proof/Machine/TableRom.lean ====
section
/-! DEFINITION. The table functions of the vector chain (R182, Table 5-6): the ROM as a free value that meets the
error bounds and is monotone where R182 says so. -/

namespace Sys2Proof.Machine

/-- The exact value of a finite number. -/
def Num.rat : Num → Option ℚ
  | .fin n m e => some ((if n then -1 else 1) * m * 2 ^ e)
  | _ => none

/-- The real number that an FP32 pattern holds. -/
def Holds (v : BitVec 32) (r : ℝ) : Prop := ∃ q : ℚ, (num32 v).rat = some q ∧ (q : ℝ) = r

/-- The largest finite FP32 value. -/
def maxF32 : ℚ := (2 ^ 24 - 1) * 2 ^ 104

/-- A pattern holds a number within `bound` of `y`. -/
def Near (v : BitVec 32) (y bound : ℝ) : Prop := ∃ r, Holds v r ∧ |r - y| ≤ bound

/-- The error bound of a table function at a finite operand `a` (Table 5-6). Where the exact result has no FP32
neighbour that could meet a relative bound (a reciprocal beyond the normal range), the table bounds nothing. -/
def TableBound (code : Nat) (a : ℝ) (v : BitVec 32) : Prop :=
  match code with
  | 0x20 => Real.exp a ≤ (maxF32 : ℝ) → Near v (Real.exp a)
      (if (2 : ℝ) ^ (-126 : ℤ) ≤ Real.exp a then (2 : ℝ) ^ (-21 : ℤ) * Real.exp a else (2 : ℝ) ^ (-147 : ℤ))
  | 0x21 => 0 < a → Near v (Real.logb 2 a)
      (if 1 / 2 ≤ a ∧ a ≤ 2 then (2 : ℝ) ^ (-21 : ℤ) else (2 : ℝ) ^ (-21 : ℤ) * |Real.logb 2 a|)
  | 0x22 | 0x23 => (2 : ℝ) ^ (-126 : ℤ) ≤ |1 / a| → |1 / a| ≤ (maxF32 : ℝ) →
      Near v (1 / a) ((2 : ℝ) ^ (-22 : ℤ) * |1 / a|)
  | 0x24 => 0 < a → Near v (1 / √a) ((2 : ℝ) ^ (-22 : ℤ) * (1 / √a))
  | 0x25 => Near v (a * ProbabilityTheory.cdf (ProbabilityTheory.gaussianReal 0 1) a)
      ((2 : ℝ) ^ (-20 : ℤ) * max 1 |a|)
  | 0x26 => Near v (a / (1 + Real.exp (-a))) ((2 : ℝ) ^ (-20 : ℤ) * max 1 |a|)
  | 0x27 => Near v (Real.tanh a) ((2 : ℝ) ^ (-21 : ℤ)) ∧ ∃ r, Holds v r ∧ |r| ≤ 1
  | _ => True

/-- A table ROM: results of the functions 20h to 27h on FP32 patterns. EXP and TANH are monotone non-decreasing (R182), and
EXP takes 0 to 1 (R190). -/
structure TableRom where
  result : Nat → BitVec 32 → BitVec 32
  bound : ∀ code x a, Holds x a → TableBound code a (result code x)
  monotone : ∀ code, code = 0x20 ∨ code = 0x27 → ∀ x y a b r t, Holds x a → Holds y b → a ≤ b →
    Holds (result code x) r → Holds (result code y) t → r ≤ t
  expZero : ∀ x, Holds x 0 → Holds (result 0x20 x) 1

/-- The ROM of the module: where there is one it meets the bounds of R182, and no more is known of it. A free value
(log entry 18; DESIGN CHOICE, safe). -/
opaque Config.rom : Option TableRom

/-- Results where `Config.rom` gives none. A free value (log entry 18; DESIGN CHOICE, safe). -/
opaque Config.rawTable : Nat → BitVec 32 → BitVec 32

/-- A table function of Table 5-6 on an FP32 pattern, by function code 20h to 27h. -/
def Config.tableFn (code : Nat) (x : BitVec 32) : BitVec 32 :=
  match Config.rom with
  | some r => r.result code x
  | none => Config.rawTable code x

end Sys2Proof.Machine
end

