-- ==== Sys2Proof/Machine/Chain.lean ====
section
/-! DEFINITION. The vector chain (chapter 5): entry and exit conversions, the eight stages, lane masks, row
statistics, and what one firing of a CHAIN station does. -/

namespace Sys2Proof.Machine

/-! ### Faults and sub-words -/

/-- Faults of a lane (R178, R180, R182). -/
structure LaneFault where
  overflow : Bool := false
  invalid : Bool := false
  range : Bool := false
  deriving DecidableEq, Repr, Inhabited

def LaneFault.both (a b : LaneFault) : LaneFault :=
  { overflow := a.overflow || b.overflow, invalid := a.invalid || b.invalid, range := a.range || b.range }

/-- Width of a sub-word and rows per firing of a lane form (R170): 0 WORD, 1 PACK16, 2 PACK8. -/
def subWidth (form : Nat) : Nat := if form = 0 then 32 else if form = 1 then 16 else 8
def rowsOf (form : Nat) : Nat := 32 / subWidth form

/-- A result: the value and its faults. -/
abbrev LaneResult := Nat × LaneFault

/-- An integer saturated to `w` bits signed (R178). -/
def satInt (w : Nat) (i : Int) : LaneResult :=
  let hi : Int := (2 ^ (w - 1) : Nat) - 1
  let lo : Int := -(2 ^ (w - 1) : Nat)
  let v := max lo (min hi i)
  (ofSigned w v, { overflow := decide (v ≠ i) })

/-- An FP32 result (R180): a NaN is canonical, and INVALID where no operand was a NaN. -/
def fpOut (nanIn : Bool) (x : Num) : LaneResult :=
  if x.isNan then (canonicalNan.toNat, { invalid := !nanIn })
  else
    let r := round32 x
    (r.1.toNat, { overflow := r.2 })

/-- The exact value of a lane as FP32. -/
def laneNum (v : Nat) : Num := num32 (BitVec.ofNat 32 v)

/-! ### RAND and the table functions (R181, R182) -/

/-- mix(a, b). -/
def mix32 (a b : BitVec 32) : BitVec 32 :=
  let x := a ^^^ (b * 0x9E3779B9)
  let x := (x ^^^ (x >>> 16)) * 0x85EBCA6B
  let x := (x ^^^ (x >>> 13)) * 0xC2B2AE35
  x ^^^ (x >>> 16)

/-- RAND. For the largest k the nearest FP32 value is 1, which R181 excludes: that one value is free among the
patterns strictly between 0 and 1 (log entry 18). -/
def randValue (a b : BitVec 32) : Nat :=
  let m := mix32 a b
  let k := m.toNat % 2 ^ 24
  if k = 2 ^ 24 - 1 then 1 + Config.randTop m % 0x3F7FFFFF
  else (round32 (.fin false (2 * k + 1) (-25))).1.toNat

/-- A table function by code on an FP32 pattern, with its faults (Table 5-6); e^0 is 1 (R190). -/
def tableFunction (code : Nat) (v : BitVec 32) : LaneResult :=
  let x := num32 v
  let free : LaneResult := ((Config.tableFn code v).toNat, {})
  let inf : Nat := 0x7F800000
  let sign : Nat := if x.isNeg then 0x80000000 else 0
  let bad : LaneResult := (canonicalNan.toNat, { invalid := true })
  if x.isNan then (canonicalNan.toNat, {})
  else match code with
    | 0x20 =>
      if x.isInf then (if x.isNeg then (0, {}) else (inf, {}))
      else if x.isZero then (0x3F800000, {})
      else if (Num.fin false 887228 0).lt (x.mul (.fin false 10000 0)) then (inf, { range := true })
      else free
    | 0x21 =>
      if x.isZero then (0xFF800000, { range := true })
      else if x.isNeg then bad
      else if x.isInf then (inf, {})
      else free
    | 0x22 =>
      if x.isZero then (inf + sign, { range := true })
      else if x.isInf then (sign, {})
      else free
    | 0x23 =>
      if x.isZero then (0, {})
      else if x.isInf then (sign, {})
      else free
    | 0x24 =>
      if x.isZero then (if x.isNeg then free else (inf, { range := true }))
      else if x.isNeg then bad
      else if x.isInf then (0, {})
      else free
    | 0x27 =>
      if !(x.abs.mul (.fin false 100 0)).lt (.fin false 901 0) then (0x3F800000 + sign, {})
      else free
    | _ => if x.isInf then (if x.isNeg then (0, {}) else (inf, {})) else free

/-! ### Stage functions (Table 5-5) -/

/-- Whether NEG flips the sign of an operand: FP32 functions, and a CMP that compares as FP32. -/
def negApplies (func compare : Nat) : Bool :=
  (0x14 ≤ func && func ≤ 0x19) || (0x20 ≤ func && func ≤ 0x27) || (func = 0x10 && compare = 2)

/-- A COND B by COND and COMPARE (R178). -/
def condHolds (w cond compare a b : Nat) : Bool :=
  let eq := match compare with
    | 2 => (laneNum a).eqv (laneNum b)
    | _ => a == b
  let lt := match compare with
    | 0 => decide (toSigned w a < toSigned w b)
    | 1 => decide (a < b)
    | _ => (laneNum a).lt (laneNum b)
  let nan := compare = 2 && ((laneNum a).isNan || (laneNum b).isNan)
  match cond with
  | 0 => eq
  | 1 => !eq
  | 2 => lt
  | 3 => lt || eq
  | 4 => !nan && !lt && !eq
  | _ => !nan && !lt

/-- Smaller (or larger) of two FP32 values; −0 < +0; a NaN yields the other operand. -/
def fpPick (larger : Bool) (a b : Nat) : LaneResult :=
  let x := laneNum a
  let y := laneNum b
  if x.isNan && y.isNan then (canonicalNan.toNat, {})
  else if x.isNan then (b, {})
  else if y.isNan then (a, {})
  else
    let aLess := x.lt y || (x.eqv y && x.isNeg && !y.isNeg)
    if aLess = larger then (b, {}) else (a, {})

/-- FP32 to INT32, to nearest even. -/
def floatToInt (v : Nat) : LaneResult :=
  match laneNum v with
  | .nan => (0, { invalid := true })
  | .inf n => (if n then 0x80000000 else 0x7FFFFFFF, { overflow := true })
  | .fin n m e =>
    let q : Nat := if 0 ≤ e then m * 2 ^ e.toNat
      else
        let d := 2 ^ (-e).toNat
        let q := m / d
        let r := m % d
        if 2 * r < d then q else if d < 2 * r then q + 1 else q + q % 2
    satInt 32 (if n then -(q : Int) else q)

/-- One stage function on a sub-word of `w` bits; `p` is the predicate of the lane. -/
def stageFunction (w func cond compare : Nat) (imm a b c : Nat) (p : Bool) : LaneResult :=
  let sa := toSigned w a
  let sb := toSigned w b
  let fa := laneNum a
  let fb := laneNum b
  match func with
  | 0x00 => (a, {})
  | 0x01 => satInt w (sa + sb)
  | 0x02 => satInt w (sa - sb)
  | 0x03 => satInt w (sa * sb)
  | 0x04 =>
    let s := imm % 64
    let h : Int := if s = 0 then 0 else (2 ^ (s - 1) : Nat)
    satInt w ((sa * sb + h) / (2 ^ s : Nat))
  | 0x05 => (if sa ≤ sb then a else b, {})
  | 0x06 => (if sa ≤ sb then b else a, {})
  | 0x07 => satInt w sa.natAbs
  | 0x08 => (Nat.land a b, {})
  | 0x09 => (Nat.lor a b, {})
  | 0x0A => (Nat.xor a b, {})
  | 0x0B => (if w ≤ b then 0 else a * 2 ^ b % 2 ^ w, {})
  | 0x0C => (if w ≤ b then 0 else a / 2 ^ b, {})
  | 0x0D => (ofSigned w (sa / (2 ^ min b w : Nat)), {})
  | 0x0E =>
    if b = 0 then (a, {})
    else
      let r := satInt w (sa + (2 ^ (min b (w + 1) - 1) : Nat))
      (ofSigned w (toSigned w r.1 / (2 ^ min b w : Nat)), r.2)
  | 0x10 => (ofBit (condHolds w cond compare a b), {})
  | 0x11 => (if p then a else b, {})
  | 0x12 => (a, {})
  | 0x14 => fpOut (fa.isNan || fb.isNan) (fa.add fb)
  | 0x15 => fpOut (fa.isNan || fb.isNan) (fa.mul fb)
  | 0x16 => fpOut (fa.isNan || fb.isNan || (laneNum c).isNan) ((fa.mul fb).add (laneNum c))
  | 0x17 => fpPick false a b
  | 0x18 => fpPick true a b
  | 0x19 => floatToInt a
  | 0x1A => fpOut false (Num.ofInt (toSigned 32 a))
  | 0x1B => (randValue (BitVec.ofNat 32 a) (BitVec.ofNat 32 b), {})
  | f => tableFunction f (BitVec.ofNat 32 a)

/-! ### Lanes -/

/-- The 64 lanes, each a list of sub-words, the lowest-numbered row first. -/
abbrev Lanes := List (List Nat)

def laneAt (l : Lanes) (j k : Nat) : Nat := (l.getD j []).getD k 0

/-- What the stages of a firing read besides the lanes that flow. -/
structure ChainCtx where
  form : Nat
  in0 : Lanes
  in1 : Lanes
  rowvec : List (BitVec 32)
  colvec : List (BitVec 32)
  limvec : List (BitVec 32)
  row : Nat
  colBase : Nat
  deriving DecidableEq, Repr, Inhabited

/-- Sub-word `k` of an operand source in lane `j` (Table 5-4). A 32-bit source gives its own sub-words; the
column and limit vectors give the element of the sub-word's own row. -/
def ChainCtx.source (x : ChainCtx) (prev : Lanes) (imm : BitVec 32) (src j k : Nat) : Nat :=
  let w := subWidth x.form
  let sub (v : Nat) : Nat := v / 2 ^ (w * k) % 2 ^ w
  match src with
  | 0 => laneAt prev j k
  | 1 => laneAt x.in0 j k
  | 2 => laneAt x.in1 j k
  | 3 => sub (x.rowvec.getD j 0).toNat
  | 4 => (x.colvec.getD (x.row + k) 0).toNat % 2 ^ w
  | 5 => sub imm.toNat
  | 6 => laneAt x.in0 ((j + 32) % 64) k
  | 7 => laneAt x.in1 ((j + 32) % 64) k
  | 8 => laneAt prev ((j + 32) % 64) k
  | 9 => sub ((x.colBase + j) % 2 ^ 32)
  | _ => (x.limvec.getD (x.row + k) 0).toNat % 2 ^ w

/-- What flows from stage to stage: values, predicates, enables, and the faults of each row so far. -/
structure ChainFlow where
  lanes : Lanes
  pred : List (List Bool)
  enable : List (List Bool)
  faults : List LaneFault
  deriving DecidableEq, Repr, Inhabited

def boolAt (l : List (List Bool)) (j k : Nat) : Bool := (l.getD j []).getD k false

/-- Faults of rows: those of enabled lanes only (R184). -/
def rowFaults (n : Nat) (enable : List (List Bool)) (f : Nat → Nat → LaneFault) (was : List LaneFault) :
    List LaneFault :=
  (List.range n).map fun k =>
    (List.range 64).foldl (fun acc j => if boolAt enable j k then acc.both (f j k) else acc)
      (was.getD k {})

/-- One stage (R175 to R179, R184). -/
def ChainCtx.stage (x : ChainCtx) (s : ChainStage) (y : ChainFlow) : ChainFlow :=
  let w := subWidth x.form
  let n := rowsOf x.form
  let neg := negApplies s.func s.compare
  let arg (o : ChainSrc) (j k : Nat) : Nat :=
    let v := x.source y.lanes s.imm o.source j k
    if o.neg && neg then Nat.xor v 0x80000000 else v
  let out (j k : Nat) : LaneResult :=
    stageFunction w s.func s.cond s.compare s.imm.toNat (arg s.a j k) (arg s.b j k) (arg s.c j k)
      (boolAt y.pred j k)
  let res := (List.range 64).map fun j => (List.range n).map fun k => out j k
  let at_ (j k : Nat) : LaneResult := (res.getD j []).getD k (0, {})
  { lanes := res.map fun l => l.map (·.1)
    pred := if s.func = 0x10 then res.map fun l => l.map fun r => r.1 == 1 else y.pred
    enable := if s.func = 0x12 then
        (List.range 64).map fun j => (List.range n).map fun k => boolAt y.enable j k && boolAt y.pred j k
      else y.enable
    faults := rowFaults n y.enable (fun j k => (at_ j k).2) y.faults }

/-! ### Entry and masks (R171, R183) -/

/-- A lane value of an entry element. -/
def entryValue (fmt v : Nat) : Nat :=
  if fmt = 10 then v
  else if isIntFormat fmt then ofSigned 32 (toSigned (formatBits fmt) v)
  else (round32 (decodeElement fmt v)).1.toNat

/-- Bytes of one entry row of 64 elements. -/
def entryRowBytes (fmt : Nat) : Nat := 8 * formatBits fmt

/-- Lanes from the bytes of a row group. -/
def entryLanes (form fmt : Nat) (bs : List Byte) : Lanes :=
  (List.range 64).map fun j => (List.range (rowsOf form)).map fun k =>
    let raw := element bs (formatBits fmt) (64 * k + j)
    if form = 0 then entryValue fmt raw else raw

/-- Whether lane `j` of a row is enabled (Table 5-7); `mask` is the row's mask word. COLUMN and the limit are INT32
(Table 5-4). -/
def laneEnabled (p : ChainProgram) (x : ChainCtx) (row j mask : Nat) : Bool :=
  row < p.validRows && j < p.validLanes &&
  (!p.maskLimit || (BitVec.ofNat 32 (x.colBase + j)).slt (x.limvec.getD row 0)) &&
  (!p.maskInput || bit mask j)

/-! ### Row statistics (R187 to R189) -/

/-- Result of the statistics on one row: the state, the lanes, α, and faults. -/
structure StatResult where
  stat : RowStat
  lanes : List (BitVec 32)
  alpha : BitVec 32 := 0
  fault : LaneFault := {}
  deriving DecidableEq, Repr, Inhabited

def negInf : BitVec 32 := 0xFF800000
def oneF32 : BitVec 32 := 0x3F800000

/-- The larger of two FP32 patterns. -/
def max32 (a b : BitVec 32) : BitVec 32 := BitVec.ofNat 32 (fpPick true a.toNat b.toNat).1

/-- EXP of a difference, which is rounded to FP32 as every lane value is (R180; log entry 19: DEDUCED, unsafe). -/
def expDiff (x m : BitVec 32) : BitVec 32 :=
  BitVec.ofNat 32 (tableFunction 0x20 (round32 ((num32 x).add (num32 m).neg)).1).1

/-- The sum of terms, two at a time: which two, and whether their sum is rounded, is free, since Table 5-8 gives no
order of additions (log entry 19: DESIGN CHOICE, safe). -/
def sumTerms (key : List (BitVec 32)) : Nat → List Num → Num
  | 0, ts => ts.headD Num.zero
  | fuel + 1, ts =>
    if ts.length ≤ 1 then ts.headD Num.zero
    else
      let (a, b, rounded) := Config.sumPair key ts.length
      let i := a % ts.length
      let rest := ts.eraseIdx i
      let j := b % rest.length
      let z := (ts.getD i Num.zero).add (rest.getD j Num.zero)
      sumTerms key fuel ((if rounded then num32 (round32 z).1 else z) :: rest.eraseIdx j)

/-- A row sum in FP32: the state's term and the lanes. -/
def rowTotal (state : Num) (xs : List (BitVec 32)) : BitVec 32 :=
  (round32 (sumTerms xs xs.length (state :: xs.map num32))).1

/-- The term s × α (Table 5-8), rounded or not before it is added (log entry 19: DESIGN CHOICE, safe). -/
def scaledSum (s alpha : BitVec 32) : Num :=
  let z := (num32 s).mul (num32 alpha)
  if Config.sumProduct then num32 (round32 z).1 else z

/-- Update the state of a row by ROWSTAT_MODE (Table 5-8). `en` gives the enabled lanes. -/
def rowStat (mode colBase : Nat) (st : RowStat) (x : List (BitVec 32)) (en : List Bool) : StatResult :=
  let used := (x.zip en).map fun p => if p.2 then p.1 else negInf
  let sums := (x.zip en).map fun p => if p.2 then p.1 else 0
  match mode with
  | 1 =>
    let bad := (x.zip en).any fun p => p.2 && ((num32 p.1).isNan || ((num32 p.1).isInf && !(num32 p.1).isNeg))
    if bad || (num32 st.m).isNan then
      { stat := { st with m := canonicalNan, s := canonicalNan }
        lanes := (x.zip en).map fun p => if p.2 then canonicalNan else 0
        alpha := canonicalNan
        fault := { invalid := en.any id } }
    else
      let m := used.foldl max32 st.m
      let alpha := if (num32 m).eqv (num32 st.m) then oneF32 else if st.m = negInf then 0 else expDiff st.m m
      let ps := (x.zip en).map fun p => if p.2 then expDiff p.1 m else 0
      { stat := { st with m := m, s := rowTotal (scaledSum st.s alpha) ps }, lanes := ps, alpha := alpha
        fault := { invalid := m = negInf && en.any id } }
  | 2 => { stat := { st with s := rowTotal (num32 st.s) sums }, lanes := x }
  | 3 => { stat := { st with m := used.foldl max32 st.m }, lanes := x }
  | 4 =>
    let step (a : RowStat) (q : BitVec 32 × Nat) : RowStat :=
      if (num32 a.m).lt (num32 q.1) then { a with m := q.1, index := BitVec.ofNat 32 (colBase + q.2) } else a
    { stat := used.zipIdx.foldl step st, lanes := x
      fault := { invalid := (x.zip en).any fun p => p.2 && (num32 p.1).isNan } }
  | _ => { stat := st, lanes := x }

/-! ### Exit (R172, R173) -/

/-- NaN of a narrow format from a lane that holds one; none where NaN gives +0 and INVALID. -/
def exitNan (fmt : Nat) (neg : Bool) : Option Nat :=
  match fmt with
  | 2 => some (0x7F + 0x80 * ofBit neg)
  | 3 => some 0x7E
  | 7 => some 0x7FC0
  | 8 => some 0x7E00
  | _ => none

/-- Convert a WORD lane to the exit format (Table 5-3). -/
def exitValue (fmt v : Nat) : LaneResult :=
  if fmt = 10 then (v, {})
  else if isIntFormat fmt then satInt (formatBits fmt) (toSigned 32 v)
  else match fpFormat fmt with
    | none => (0, {})
    | some f =>
      let x := laneNum v
      if x.isNan then
        match exitNan fmt (bit v 31) with
        | some n => (n, {})
        | none => (0, { invalid := true })
      else
        let r := f.encode (decide (fmt ≠ 7 ∧ fmt ≠ 8)) 0 x
        (r.bits, { overflow := r.overflow })

/-- ⌊log2⌋ of a positive finite value. -/
def floorLog2 : Num → Int
  | .fin _ m e => (Nat.log2 m : Int) + e
  | _ => 0

/-- E of R173: exponent of the largest normal value of an element format. -/
def mxEmax (fmt : Nat) : Int :=
  match fmt with
  | 2 => 8 | 3 => 15 | 4 => 2 | 5 => 4 | _ => 2

/-- The scale and elements of one MX block of lanes, with its fault (R173). -/
def mxBlock (fmt : Nat) (vs : List Nat) (en : List Bool) : Byte × List LaneResult :=
  let used := (vs.zip en).filterMap fun p => if p.2 then some (laneNum p.1).abs else none
  let amax := used.foldl (fun a x => if a.isNan || x.isNan then .nan else if a.lt x then x else a) Num.zero
  if amax.isNan || amax.isInf then (0xFF, vs.map fun _ => (0, { invalid := true }))
  else if amax.isZero then (0x7F, vs.map fun _ => (0, {}))
  else
    let e := max 0 (min 254 (floorLog2 amax - mxEmax fmt + 127))
    (BitVec.ofNat 8 e.toNat, (vs.zip en).map fun p =>
      if p.2 then
        match fpFormat fmt with
        | some f =>
          let r := f.encode true 0 ((laneNum p.1).scale (127 - e))
          (r.bits, { overflow := r.overflow })
        | none => (0, {})
      else (0, {}))

/-- One row at the exit: its elements, its scales and its faults. -/
def exitRow (p : ChainProgram) (vs : List Nat) (en : List Bool) : List Nat × List Byte × LaneFault :=
  let n := p.exitLanes
  let vs := vs.take n
  let en := en.take n
  let faults (rs : List LaneResult) : LaneFault :=
    (rs.zip en).foldl (fun a q => if q.2 then a.both q.1.2 else a) {}
  if p.exitMx then
    let blocks := (List.range (n / 32)).map fun b => mxBlock p.exitFormat ((vs.drop (32 * b)).take 32)
      ((en.drop (32 * b)).take 32)
    let rs := blocks.flatMap (·.2)
    (rs.map (·.1), blocks.map (·.1), faults rs)
  else
    let rs := (vs.zip en).map fun q =>
      if q.2 || p.maskFill then (if p.laneForm = 0 then exitValue p.exitFormat q.1 else (q.1, {})) else (0, {})
    (rs.map (·.1), [], faults rs)

/-! ### A firing (R166, R177, R185, R186) -/

/-- What a firing of a CHAIN station has to work with. -/
structure ChainIn where
  prog : ChainProgram
  /-- Program 0 to 3 of the station, and MARKS. -/
  sub : Nat
  marks : Nat
  produce0 : Nat
  produce1 : Nat
  in0 : List Flit
  in1 : List Flit
  vectors : List Flit
  masks : List Flit
  deriving DecidableEq, Repr, Inhabited

/-- What one firing yields. -/
structure ChainOut where
  run : ChainRun
  counters : ChainCounters
  out0 : List Flit := []
  out1 : List Flit := []
  deriving DecidableEq, Repr, Inhabited

/-- The 64 elements of a broadcast vector. -/
def vectorOf (bs : List Byte) : List (BitVec 32) :=
  (List.range 64).map fun i => BitVec.ofNat 32 (field bs (4 * i) 4)

/-- Whether a program reads a source. -/
def ChainProgram.reads (p : ChainProgram) (src : Nat) : Bool :=
  p.stages.any fun s => s.a.source = src || s.b.source = src || s.c.source = src

/-- A staging register with the flits that a firing consumes. -/
def PortStage.take (g : PortStage) (fs : List Flit) : PortStage :=
  { bytes := g.bytes ++ flitBytes fs, poison := g.poison || anyPoison fs
    last := (fs.getLast?.map (·.last)).getD g.last }

/-- A staging register after a firing used `n` bytes. Where the firing ends its tile and the newest flit was the last of
the input's, what is left is the zero fill of R82. -/
def PortStage.drop (g : PortStage) (n : Nat) (ends : Bool) : PortStage :=
  let bytes := if ends && g.last then [] else g.bytes.drop n
  { bytes := bytes, poison := g.poison && !bytes.isEmpty, last := g.last && !bytes.isEmpty }

/-- New broadcast vectors: those that the program uses, in the order ROWVEC, COLVEC, LIMVEC (R177). What they do not use
of input 2 stays in its staging register (R167). -/
def ChainIn.broadcast (x : ChainIn) (m : ChainRun) : ChainRun :=
  if !bit x.marks 2 then m
  else
    let next (m : ChainRun) (used : Bool) (f : ChainRun → List (BitVec 32) → ChainRun) : ChainRun :=
      if used && 256 ≤ m.staging2.bytes.length then
        { f m (vectorOf m.staging2.bytes) with staging2 := m.staging2.drop 256 false }
      else m
    let m := next m (x.prog.reads 3) fun m v => { m with rowvec := v }
    let m := next m (x.prog.reads 4) fun m v => { m with colvec := v }
    next m (x.prog.reads 10 || x.prog.maskLimit) fun m v => { m with limvec := v }

/-- Data flits of a byte string: `n` flits from `bs`, the first with FIRST and, at the end of a tile, the
last with LAST. -/
def dataFlits (n : Nat) (bs : List Byte) (first ends poison : Bool) (seq : Nat) : List Flit :=
  (List.range n).map fun i =>
    { kind := .data, first := first && i = 0, last := ends && i + 1 = n, poison := poison, seq := seq % 256,
      payload := payloadOf ((bs.drop (64 * i)).take 64) }

/-- State of row `i` of the tile, reset first in the first tile of a series (R187). -/
def ChainIn.statOf (x : ChainIn) (m : ChainRun) (i : Nat) : RowStat :=
  if bit x.marks 0 then {} else kgetD m.stats i {}

/-- Rows of side vectors that the end of a tile emits (R187), as (bytes, poison). -/
def ChainIn.sideTiles (x : ChainIn) (m : ChainRun) : List (List Byte × Bool) :=
  let rows := List.range 64
  let poison := m.stats.any fun p => p.2.poison
  let vec (f : Nat → BitVec 32) : List Byte := rows.flatMap fun i => le 4 (f i).toNat
  let st (i : Nat) : RowStat := kgetD m.stats i {}
  let lastTile := bit x.marks 1
  match x.prog.rowstat with
  | 1 =>
    (vec fun i => kgetD m.alphas i 0, poison) ::
      (if lastTile then [(vec fun i => (st i).s, poison), (vec fun i => (st i).m, poison)] else [])
  | 2 => if lastTile then [(vec fun i => (st i).s, poison)] else []
  | 3 => if lastTile then [(vec fun i => (st i).m, poison)] else []
  | 4 => if lastTile then [(vec fun i => (st i).index, poison), (vec fun i => (st i).m, poison)] else []
  | _ => []

/-- Flits of the side tiles that wait. -/
def sideFlits (ts : List (List Byte × Bool)) (sent : Nat) : List (List Byte × Bool × Bool × Bool) :=
  (ts.flatMap fun t =>
    let n := max 1 (ceilDiv t.1.length 64)
    (List.range n).map fun i => ((t.1.drop (64 * i)).take 64, t.2, i == 0, i + 1 == n)).drop sent

/-- Flits that whole side tiles take. -/
def sideSize (t : List Byte × Bool) : Nat := max 1 (ceilDiv t.1.length 64)

/-- Side tiles sent whole are dropped. -/
def dropSent : List (List Byte × Bool) → Nat → List (List Byte × Bool) × Nat
  | [], _ => ([], 0)
  | t :: ts, n => if sideSize t ≤ n then dropSent ts (n - sideSize t) else (t :: ts, n)

/-- A poisoned firing marks the state of the rows it touches (R186). -/
def markRows (stats : KMap RowStat) (row n : Nat) : KMap RowStat :=
  (List.range n).foldl (fun t k => kset t (row + k) { kgetD t (row + k) {} with poison := true }) stats

/-- One firing. None where it would send side flits that do not exist yet. The row statistics of stage 7 run under the
enables that the row entered the stage with (R184). -/
def ChainIn.fire (x : ChainIn) (m0 : ChainRun) (cnt : ChainCounters) (seq0 seq1 : Nat) : Option ChainOut :=
  let p := x.prog
  let n := rowsOf p.laneForm
  let m := { m0 with staging0 := m0.staging0.take x.in0, staging1 := m0.staging1.take x.in1
                     staging2 := m0.staging2.take x.vectors, staging3 := m0.staging3.take x.masks }
  let b0 := n * entryRowBytes p.entryFmt0
  let b1 := n * entryRowBytes p.entryFmt1
  let use1 := b1 ≤ m.staging1.bytes.length
  let vectorPoison := bit x.marks 2 && m.staging2.poison
  let poison := anyPoison x.in0 || anyPoison x.in1 || anyPoison x.vectors || anyPoison x.masks || vectorPoison ||
    m.staging0.poison || (use1 && m.staging1.poison) || (p.maskInput && m.staging3.poison)
  let m := x.broadcast m
  let row := m.row.getD x.sub 0
  let tile := if bit x.marks 0 && row = 0 then 0 else m.tile.getD x.sub 0
  let ctx : ChainCtx :=
    { form := p.laneForm
      in0 := entryLanes p.laneForm p.entryFmt0 (slice m.staging0.bytes 0 b0)
      in1 := entryLanes p.laneForm p.entryFmt1 (if use1 then slice m.staging1.bytes 0 b1 else [])
      rowvec := m.rowvec, colvec := m.colvec, limvec := m.limvec, row := row, colBase := 64 * tile }
  let enable := (List.range 64).map fun j => (List.range n).map fun k =>
    laneEnabled p ctx (row + k) j (field m.staging3.bytes (8 * k) 8)
  let entry : ChainFlow := { lanes := ctx.in0, pred := [], enable := enable, faults := [] }
  let flow6 := (p.stages.take 7).foldl (fun y s => ctx.stage s y) entry
  let flow := (p.stages.drop 7).foldl (fun y s => ctx.stage s y) flow6
  let rows := (List.range n).map fun k =>
    let vs := (List.range 64).map fun j => laneAt flow.lanes j k
    let en7 := (List.range 64).map fun j => boolAt flow6.enable j k
    let en := (List.range 64).map fun j => boolAt flow.enable j k
    let st := x.statOf m (row + k)
    let st := { st with poison := st.poison || poison }
    let r := rowStat p.rowstat (64 * tile) st (vs.map (BitVec.ofNat 32)) en7
    let lanes := if p.rowstat = 1 then r.lanes.map (·.toNat) else vs
    let ex := exitRow p lanes en
    (r, ex, ((flow.faults.getD k {}).both r.fault).both ex.2.2)
  let ends := p.tileRows ≤ row + n
  let stats :=
    if p.rowstat = 0 then (if poison then markRows m.stats row n else m.stats)
    else rows.zipIdx.foldl (fun t q => kset t (row + q.2) q.1.1.stat) m.stats
  let alphas := if p.rowstat = 0 then m.alphas
    else rows.zipIdx.foldl (fun t q => kset t (row + q.2) q.1.1.alpha) m.alphas
  let bytes := packElements (formatBits p.exitFormat) (rows.flatMap fun q => q.2.1.1)
  let out := m.out ++ bytes
  let scales := m.scales ++ rows.flatMap fun q => q.2.1.2.1
  let m := { m with staging0 := m.staging0.drop b0 ends
                    staging1 := if use1 then m.staging1.drop b1 ends else m.staging1
                    staging3 := if p.maskInput then m.staging3.drop (8 * n) ends else m.staging3
                    stats := stats, alphas := alphas, scales := if ends then [] else scales }
  let outPoison := m0.outPoison || poison
  let sides := if ends then
      x.sideTiles m ++ (if p.exitMx then [(scales, outPoison)] else []) else []
  let m := { m with side := m.side ++ sides
                    row := m.row.set x.sub (if ends then 0 else row + n)
                    tile := m.tile.set x.sub (if ends then tile + 1 else tile)
                    alphas := if ends && p.rowstat ≠ 0 then [] else m.alphas }
  let waiting := sideFlits m.side m.sideSent
  if waiting.length < x.produce1 then none
  else
    let done := ends && out.length ≤ 64 * x.produce0
    let f0 := dataFlits x.produce0 out m0.outFirst done outPoison seq0
    let tileStarts := (waiting.take x.produce1).zipIdx.map fun q =>
      ((waiting.take q.2).filter fun t => t.2.2.2).length
    let f1 := ((waiting.take x.produce1).zip tileStarts).map fun q =>
      ({ kind := .data, first := q.1.2.2.1, last := q.1.2.2.2, poison := q.1.2.1 || poison, seq := (seq1 + q.2) % 256
         payload := payloadOf q.1.1 } : Flit)
    let left := dropSent m.side (m.sideSent + x.produce1)
    let any (f : LaneFault → Bool) : Nat := (rows.filter fun q => f q.2.2).length
    let cnt := { cnt with rows := sat 64 (cnt.rows + n)
                          overflowRows := sat 32 (cnt.overflowRows + any (·.overflow))
                          invalidRows := sat 32 (cnt.invalidRows + any (·.invalid))
                          rangeRows := sat 32 (cnt.rangeRows + any (·.range))
                          poisonRows := sat 32 (cnt.poisonRows + if poison then n else 0) }
    some { run := { m with out := if done then [] else out.drop (64 * x.produce0)
                           outFirst := if x.produce0 = 0 then m0.outFirst else done
                           outPoison := outPoison && !(done || (out.length ≤ 64 * x.produce0))
                           side := left.1, sideSent := left.2 }
           counters := cnt, out0 := f0, out1 := f1 }

end Sys2Proof.Machine
end

