-- ==== Sys2Proof/Machine/Loader.lean ====
section
/-! DEFINITION. The configuration store and its loader (R234 to R240): requests, loads, the freeing of a slot, and the
reload after the working mask has changed. -/

namespace Sys2Proof.Machine

/-! ### Images (R243) -/

/-- Staged lasts that a load can name: those of the active package, then those of the incoming one. -/
def State.stagedLasts (s : State) : List StagedLast :=
  ((s.store.active.map (·.lasts)).getD []) ++ if s.store.switchKind = 1 then (s.store.staged.map (·.lasts)).getD [] else []

/-- The manifest of a package that is staged or being staged, by its tag. -/
def State.manifestOf (s : State) (tag : Nat) : Option Manifest :=
  if tag = s.store.packageTag then s.store.baseManifest
  else
    let m := (s.store.staged.map (·.manifest)).orElse fun _ => s.store.staging.map fun (x : Staging) => x.target.manifest
    m.filter fun m => m.tag = tag

/-! ### Slots (R236, R237) -/

def slotLimit : Nat := 8 * 2 ^ 20

/-- Bytes of a die's sections in slots other than `n`. -/
def Fabric.bytesBut (f : Fabric) (n die : Nat) : Nat :=
  (((List.range 4).filter (· != n)).map fun k => if die = 0 then (f.slot k).die0Bytes else (f.slot k).die1Bytes).sum

/-- EMPTY and IDLE follow from whether a last is resident (Table 3-8). -/
def Fabric.settle (f : Fabric) : Fabric :=
  let any := (List.range 4).any fun k => (f.slot k).state = .ready || (f.slot k).state = .active
  if f.state = .empty && any then { f with state := .idle }
  else if f.state = .idle && !any then { f with state := .empty }
  else f

/-- What refuses a load of a last into a slot. The slot that a swap under way makes active counts as active: DESIGN
CHOICE, unsafe (log entry 38). -/
def Fabric.loadRefusal (f : Fabric) (n : Nat) (h : ImageHeader) : Option Nat :=
  match (f.slot n).state with
  | .loading => some Status.FAB_SLOT_BUSY
  | .active => some Status.FAB_SLOT_ACTIVE
  | _ =>
    if f.swapTarget = some n then some Status.FAB_SLOT_ACTIVE
    else if slotLimit < f.bytesBut n 0 + h.die0Bytes || slotLimit < f.bytesBut n 1 + h.die1Bytes then
      some Status.FAB_STORE_FULL
    else none

/-- A load is accepted: it waits its turn, and the slot's section of the accumulating bank is cleared (R125, R237). -/
def State.acceptLoad (s : State) (n image : Nat) (h : ImageHeader) : State :=
  let f := s.fab
  let f := f.setSlot n { state := .loading, die0Bytes := h.die0Bytes, die1Bytes := h.die1Bytes }
  { s with fab := { f with loadQueue := f.loadQueue ++ [(n, image)], histAcc := f.histAcc.clearSlot n 0 }.settle }

/-- LOAD_REQUEST (R237). -/
def execLoadRequest (slot image : Nat) (s : State) : Host.Outcome State Fault Refusal :=
  onUnit (slot < 4) <|
    match s.stagedLasts[image]? with
    | none => s.status Status.VALUE_RANGE
    | some l =>
      let h := imageHeader l.bytes
      match s.fab.loadRefusal slot h with
      | some e => s.status e
      | none => (s.acceptLoad slot image h).status Status.OK

/-- SLOT_FREE_REQUEST (R237). -/
def execSlotFreeRequest (slot : Nat) (s : State) : Host.Outcome State Fault Refusal :=
  onUnit (slot < 4) <|
    match (s.fab.slot slot).state with
    | .active => s.status Status.FAB_SLOT_ACTIVE
    | .loading => s.status Status.FAB_SLOT_BUSY
    | _ =>
      if s.fab.swapTarget = some slot then s.status Status.FAB_SLOT_ACTIVE
      else
      let ahead := if s.store.loadedAhead = some slot then none else s.store.loadedAhead
      { s with fab := (s.fab.setSlot slot {}).settle, store := { s.store with loadedAhead := ahead } }.status Status.OK

/-! ### A load (R238 to R240) -/

/-- LOAD_BEGIN: the next image in request order. -/
def execLoadBegin (s : State) : Host.Outcome State Fault Refusal :=
  match s.fab.loading, s.fab.loadQueue with
  | none, x :: xs => .next { s with fab := { s.fab with loading := some x, loadQueue := xs } }
  | _, _ => .next s

/-- The load-fault record (Table 7-15). -/
def faultRecord (fst lastId slot : Nat) (e : LoadFault) : List Byte :=
  le 8 fst ++ le 8 lastId ++ le 2 e.code ++ le 1 slot ++ le 1 e.die ++ le 2 e.type ++ le 2 0 ++ le 4 e.index ++
    le 1 e.batch ++ le 1 e.context ++ le 2 0

/-- The die whose eyelets carry a lace, X on die 0 and Y on die 1 (R25), and that of the uplinks to a rack switch (Tables
1-1 and 13-1). -/
def dieOfLace (l : Nat) : Nat := l / 2
def dieOfSwitch (k : Nat) : Nat := k / 8

/-- Where lace and dispatch PORT stations send under the span and the dispatch tables in force (R404, R421). -/
def State.bridgeEnv (s : State) : BridgeEnv :=
  { laces := s.lce.members.map fun q => s.lce.position.bind fun p => (s.route p q).bind fun r =>
      (PacketLace { dest := q, src := p, route := r, mclass := 0, flits := 0, channel := 0 } p).map dieOfLace
    dispatch := s.dsp.expertMap.filterMap fun e =>
      if 0xFFFE ≤ e.host then none else (kget? s.dsp.hosts e.host).map fun h => (e.layer, dieOfSwitch h.switch)
    serve := (s.dsp.hosts.filter fun h => h.2.valid && h.2.sends).map fun h => dieOfSwitch h.2.switch }

/-- Validation of an image: its signature is judged once its format has been accepted (R239, R589). -/
def State.validateImage (s : State) (bs : List Byte) : Except LoadFault Image × State :=
  let env : LoadEnv := { manifest := s.manifestOf (imageHeader bs).packageTag, mask := s.mask, bridge := s.bridgeEnv }
  let early : Option LoadFault := match validate bs true env with
    | .error e => if e.code ≤ 2 then some e else none
    | .ok _ => none
  match early with
  | some e => (.error e, s)
  | none =>
    let (ok, t) := s.verify .last bs
    (validate bs ok env, t)

/-- A load has failed. -/
def State.loadFailed (s : State) (n lastId : Nat) (e : LoadFault) : State :=
  let f := s.fab
  let f := f.setSlot n { state := .faulted }
  { s with fab := { f with loadFaults := sat 32 (f.loadFaults + 1)
                           loadFault := faultRecord s.fst (if e.code ≤ 2 then 0 else lastId) n e }
           mxe := if e.code = 22 then { s.mxe with budgetFaults := sat 32 (s.mxe.budgetFaults + 1) } else s.mxe }

/-- An image is in its slot. One that a switch needs first was loaded ahead, or is made active now (R312, R313), but not
while a fence or an unfence waits (R121). -/
def State.loadReady (s : State) (n image : Nat) (m : Image) : State :=
  let f := s.fab
  let f := f.setSlot n { f.slot n with state := .ready, lastId := m.lastId, image := some m }
  let f := { f with histAcc := { f.histAcc with lastIds := kset f.histAcc.lastIds n m.lastId } }
  let t := { s with fab := { f with loads := sat 32 (f.loads + 1) }.settle }
  let incoming := ((t.store.active.map (·.lasts.length)).getD 0) ≤ image
  if !incoming then t
  else if t.store.switchState = .switching && !t.fencePending then t.startSwap n
  else { t with store := { t.store with loadedAhead := some n } }

/-- LOAD_COMPLETE. -/
def execLoadComplete (cyc : Nat) (s : State) : Host.Outcome State Fault Refusal :=
  match s.fab.loading with
  | none => .next s
  | some (n, k) =>
    let s := s.stamp cyc
    let s := { s with fab := { s.fab with loading := none } }
    match s.stagedLasts[k]? with
    | none => .next { s with fab := s.fab.setSlot n {} }
    | some l =>
      let r := s.validateImage l.bytes
      match r.1 with
      | .ok m => .next (r.2.loadReady n k m)
      | .error e => .next (r.2.loadFailed n l.lastId e)

/-! ### The reload (R234, R313) -/

/-- Every slot is FREE, and every load abandoned. -/
def State.emptySlots (s : State) : State :=
  { s with fab := { s.fab with state := .empty, activeSlot := none, swapTarget := none, slot0 := {}, slot1 := {}
                               slot2 := {}, slot3 := {}, loadQueue := [], loading := none, queues := []
                               stations := [] }
           store := { s.store with loadedAhead := none } }

/-- Ask for an image in a FREE slot with room, unless it is resident or asked for already. -/
def State.loadInto (s : State) (image : Nat) (l : StagedLast) : State :=
  let f := s.fab
  let held := (List.range 4).any fun k => (f.slot k).lastId = l.lastId && (f.slot k).image.isSome
  let asked := (f.loadQueue ++ f.loading.toList).any fun e => e.2 = image
  if held || asked then s
  else
    let h := imageHeader l.bytes
    match (List.range 4).find? fun k => (f.slot k).state = .free && (f.loadRefusal k h).isNone with
    | some k => s.acceptLoad k image h
    | none => s

/-- Images of the active package under the working mask: the one that the first unstarted pass needs, a safe variant
where the pass runs on one, the rest of the
resident set, then the safe variants marked for residence. -/
def State.reloadOrder (s : State) : List (Nat × StagedLast) :=
  match s.store.active with
  | none => []
  | some r =>
    let fits := (r.lasts.zipIdx.filter fun e => bit e.1.placement s.mask && e.1.spillPlan = r.plan).map fun e => (e.2, e.1)
    let want := (s.planner.plan.find? PlanEntry.isPass).map fun e => (s.withSafe e).lastId
    let rest := fits.filter fun e => some e.2.lastId != want
    (fits.filter fun e => some e.2.lastId = want) ++ (rest.filter fun e => !e.2.safe) ++
      rest.filter fun e => e.2.safe && e.2.residentSafe

def State.reload (s : State) : State := s.reloadOrder.foldl (fun (t : State) e => t.loadInto e.1 e.2) s

end Sys2Proof.Machine
end

