-- ==== Sys2Proof/Machine/Switch.lean ====
section
/-! DEFINITION. Staging, model switches, weight epochs, and the refetch and scrub of shards (R304 to R323). -/

namespace Sys2Proof.Machine

/-! ### What a staging reads (R306, R322) -/

/-- The stored package of a tag and the adapter sets of its base, where a model staging brings them. -/
def Store.stagingSets (t : Store) (tag : Nat) (epochOnly : Bool) : List StoredPackage :=
  (t.package? tag).toList ++ if epochOnly then [] else t.setsOf tag

/-- Shards in the order in which a staging reads them, as (package, shard number). An epoch switch reads weight
shards only (R316). -/
def Store.stagingOrder (t : Store) (tag : Nat) (epochOnly : Bool) : List (Nat × Nat) :=
  (t.stagingSets tag epochOnly).flatMap fun p =>
    (p.shards.zipIdx.filter fun e => e.1.present && !(epochOnly && e.1.kind = 2)).map fun e => (p.manifest.tag, e.2)

/-- Tensors that the images of a spill plan stream from the store. -/
def streamedTensors (ls : List StagedLast) (plan : Nat) : List Nat :=
  (ls.filter fun l => l.spillPlan = plan).flatMap fun l =>
    let i := parseImage l.bytes
    ((i.die0.gens ++ i.die1.gens).filter fun g => g.space = 2).map (·.tensor)

/-- Shards kept in HBM: those with a tensor that the plan does not stream. -/
def keptShards (m : Manifest) (ls : List StagedLast) (plan : Nat) : List Nat :=
  let streamed := if plan = 0 then [] else streamedTensors ls plan
  ((m.tensors.zipIdx.filter fun e => e.1.shard < 0xFFFFFFFE && !streamed.contains e.2).map fun e => e.1.shard).eraseDups

/-- Bytes of a tensor's shard written where the tensor is placed, 64 at a time. -/
def State.placeTensor (s : State) (epoch number : Nat) (e : TensorEntry) (data : List Byte) : State :=
  ((List.range 2).filter fun d => e.die = d || e.die = 0xFF).foldl (fun (s : State) die =>
    (List.range (ceilDiv e.bytes 64)).foldl (fun (s : State) i =>
      s.engineWrite (tensorMpa s.part epoch die number e (64 * i))
        ((data.drop (e.offset + 64 * i)).take (min 64 (e.bytes - 64 * i)))) s) s

/-- The tensors of a shard of the package written where they are placed. -/
def State.placeShard (s : State) (r : Resident) (n : Nat) (data : List Byte) : State :=
  let streamed := if r.plan = 0 then [] else streamedTensors r.lasts r.plan
  (r.manifest.tensors.zipIdx.filter fun e => e.1.shard = n && !streamed.contains e.2).foldl (fun (s : State) e =>
    s.placeTensor r.epoch e.2 e.1 data) s

/-- The tensors of a shard of an adapter set written where they are placed (R322). -/
def State.placeAdapters (s : State) (m : Manifest) (n : Nat) (data : List Byte) : State :=
  m.adapters.foldl (fun (s : State) a =>
    (((m.tensors.drop a.tensorFirst).take (m.tensorsOf a)).zipIdx.filter fun e => e.1.shard = n).foldl
      (fun (s : State) e => s.placeTensor 0 (adapterNumber m.tag a.id e.2) e.1 data) s) s

/-! ### Requests (R304, R305, R309, R315) -/

/-- HBM_BYTES of a manifest on a die under a spill plan. -/
def Manifest.hbm (m : Manifest) (plan die : Nat) : Option Nat :=
  if plan = 0 then some (if die = 0 then m.hbm0 else m.hbm1)
  else (m.spills.find? fun p => p.plan = plan).map fun p => if die = 0 then p.hbm0 else p.hbm1

/-- HBM of a die outside the system region. -/
def hbmOutside (p : Part) (die : Nat) : Nat :=
  (if die = 0 then p.firstStackDie1 else p.hbmStacks - p.firstStackDie1) * 0xC00000000 - 0x40000000

/-- The context area that a staging withdraws from each die's pool (R382). -/
def contextAreaBytes : Nat := 240 * 2 ^ 20

/-- The plan that a request takes: the lowest allowed one that fits on both dies. -/
def choosePlan (p : Part) (m : Manifest) (images asked : Nat) : Option Nat :=
  let fits (v : Nat) : Bool := (List.range 2).all fun die =>
    match m.hbm v die with
    | some n => n + images ≤ hbmOutside p die
    | none => false
  (List.range 5).find? fun v => (asked = 0xFF || asked = v) && fits v

/-- R315. -/
def epochCompatible (new old : Manifest) : Bool :=
  new.lasts.map (·.digest) = old.lasts.map (·.digest) && new.spills = old.spills &&
    new.tensors.take 2 = old.tensors.take 2 &&
    new.tensors.map (fun e => (e.format, e.bytes, e.die, e.stackMask)) =
      old.tensors.map (fun e => (e.format, e.bytes, e.die, e.stackMask))

/-- Whether the parking area lies within its window with pages of a size (R280). -/
def State.areaFits (s : State) (page : Nat) : Bool :=
  s.reg Reg.MEM_PARK_BASE + s.reg Reg.MEM_PARK_SLOTS * page ≤ (s.window 2).2

/-- The staging that a request starts, and how many half-frames it withdraws; or what refuses the commit. -/
def State.switchPlan (s : State) (kind target asked : Nat) : Except Nat (Resident × Nat) :=
  if !s.isUp then .error Status.NOT_READY
  else if s.store.switchState != .idle then .error Status.STO_BUSY
  else match (s.store.package? target).filter fun p => p.kind = 1 with
    | none => .error Status.STO_NOT_FOUND
    | some p =>
      let m := p.manifest
      if !s.store.allServe then .error Status.STO_STORE_OFF
      else if !packageOk m p.shards then .error Status.PKG_INVALID
      else if kind = 2 && !(s.store.active.any fun r => epochCompatible m r.manifest) then
        .error Status.STO_EPOCH_INCOMPATIBLE
      else if kind = 2 && s.store.old.isSome then .error Status.STO_EPOCH_BUSY
      else
        let lasts := if kind = 2 then (s.store.active.map (·.lasts)).getD [] else m.lasts.map (stagedLast p.shards)
        let images := if kind = 2 then 0 else (lasts.map (·.bytes.length)).sum
        match choosePlan s.part m images asked with
        | none => .error Status.STO_NO_FIT
        | some v =>
          let n := s.framesFor ((m.hbm v 0).getD 0) ((m.hbm v 1).getD 0) + s.framesFor contextAreaBytes contextAreaBytes
          if s.pages.freeFrames.length < n then .error Status.STO_NO_ROOM
          else if kind = 1 && !s.areaFits m.pageBytes then .error Status.STO_PARK_AREA
          else
            .ok ({ epoch := s.store.epoch + 1, manifest := m, plan := v, lasts := lasts
                   kept := keptShards m lasts v
                   adapters := if kind = 2 then (s.store.active.map (·.adapters)).getD [] else s.store.adaptersOf target
                   expertsZero := (p.shards.filter fun x => x.kind = 3 && !x.present).map (·.expert)
                   withdrawn := [] }, n)

/-- A request is committed (R309, R315): its staging starts. -/
def State.commitSwitch (s : State) (kind target mode asked : Nat) : State :=
  if 1 < mode || (4 < asked && asked != 0xFF) then s.status Status.VALUE_RANGE
  else match s.switchPlan kind target asked with
    | .error e => s.status e
    | .ok (r, n) =>
      let (fs, p) := s.pages.withdraw n
      let x : Staging := { epochOnly := kind = 2, order := s.store.stagingOrder target (kind = 2), next := 0, attempts := 0
                           target := { r with withdrawn := fs } }
      let t := { s with pages := p
                        store := { s.store with switchState := .staging, switchKind := kind, switchTarget := target
                                                switchForce := mode = 1, switchPlan := asked, switchResult := 0
                                                staging := some x, staged := none, stagedTag := target
                                                stageBytes := 0 } }
      ((((t.setReg Reg.STO_SWITCH_KIND kind).setReg Reg.STO_SWITCH_TARGET target).setReg Reg.STO_SWITCH_MODE mode).setReg
        Reg.STO_SWITCH_PLAN asked).status Status.OK

/-- MODEL_SWITCH_REQUEST. -/
def execModelSwitchRequest (target mode plan : Nat) (s : State) : Host.Outcome State Fault Refusal :=
  .next (s.commitSwitch 1 target mode plan)

/-- EPOCH_SWITCH_REQUEST. -/
def execEpochSwitchRequest (target plan : Nat) (s : State) : Host.Outcome State Fault Refusal :=
  .next (s.commitSwitch 2 target (s.reg Reg.STO_SWITCH_MODE) plan)

/-! ### A switch ends without taking place (R307, R314, R323) -/

/-- Slots and loads of the incoming package are given back. -/
def State.dropIncoming (s : State) : State :=
  let base := (s.store.active.map (·.lasts.length)).getD 0
  let loads := (s.fab.loadQueue ++ s.fab.loading.toList).filter fun e => base ≤ e.2
  let slots := loads.map (·.1) ++ s.store.loadedAhead.toList
  let f := slots.foldl (fun (f : Fabric) n => f.setSlot n {}) s.fab
  { s with fab := { f with loadQueue := f.loadQueue.filter fun e => e.2 < base
                           loading := f.loading.filter fun e => e.2 < base }.settle
           store := { s.store with loadedAhead := none } }

/-- A held request is refused (R314). -/
def State.refuseHeld (s : State) : State :=
  s.srv.streams.foldl (fun (t : State) (e : Nat × Stream) =>
    if !e.2.heldSwitch then t
    else (t.dropStream e.1).notifyLater
      { stream := e.1, status := Status.MODEL_SWITCHING, reqTag := (e.2.turn.map (·.reqTag)).getD 0, kind := 1
        flags := noticeFlags true true, data := 0 }) s

/-- Adapter sets go on being staged only behind weights that are held. -/
def Store.dropLoads (t : Store) : Store :=
  { t with adapterLoads := t.adapterLoads.filter fun a => (t.package? a.tag).any fun p => t.liveBase p.baseTag }

/-- The switch ends with a result: withdrawn frames return, and the active model goes on unchanged. -/
def State.endSwitch (s : State) (result : Nat) : State :=
  let held := ((s.store.staging.map (·.target)).orElse fun _ => s.store.staged)
  let fs := (held.map fun r => r.withdrawn ++ r.adapterFrames).getD []
  let t := if s.store.switchKind = 1 then s.dropIncoming.refuseHeld else s
  let other (e : PlanEntry) : Bool := e.kind != .switchEntry
  { t with pages := t.pages.rejoin fs
           planner := { t.planner with plan := t.planner.plan.filter other, moved := t.planner.moved.filter other }
           store := { t.store with switchState := .idle, switchResult := result, staging := none, staged := none
                                   stagedTag := 0 }.dropLoads }

/-- SWITCH_CANCEL (R314). -/
def State.commitCancel (s : State) (value : Nat) : State :=
  if value = 1 then
    if s.store.switchState = .staging || s.store.switchState = .staged then
      ((s.endSwitch Status.STO_CANCELLED).setReg Reg.STO_SWITCH_CANCEL 1).status Status.OK
    else s.status Status.ALREADY_SWITCHED
  else if value = 0 then (s.setReg Reg.STO_SWITCH_CANCEL 0).status Status.OK
  else s.status Status.VALUE_RANGE

def execSwitchCancel (value : Nat) (s : State) : Host.Outcome State Fault Refusal := .next (s.commitCancel value)

/-- A store group is off, or a stack has FAILED (Table 9-10). -/
def State.storeLost (s : State) : State :=
  if s.store.switchState = .staging then s.endSwitch Status.STO_STORE_OFF else s

/-- STORE_STACK_FAILURE (R291): shards with an extent on the stack are corrupt. -/
def execStoreStackFailure (cyc stack : Nat) (s : State) : Host.Outcome State Fault Refusal :=
  onUnit (stack < 8) (
    if !(s.store.stack stack).state.serves then s
    else
      let t := ((s.stamp cyc).modStoreStack stack fun x => { x with state := .failed }).raise 0x0603 stack 0 0
      let hit := s.store.catalogue.flatMap fun p =>
        (p.shards.zipIdx.filter fun e => 0 < extentsOn e.2 e.1.extents stack).map fun e => (p.manifest.tag, e.2)
      (hit.foldl (fun (t : State) e => t.markCorrupt e.1 e.2) t).storeLost)

/-! ### Staging (R306, R307) -/

/-- The store's part of the state changed. -/
def State.modStore (s : State) (f : Store → Store) : State :=
  { s with store := f s.store }

/-- `n` more shard digests found wrong (STO_DIGEST_MISMATCHES, R301). -/
def State.mismatched (s : State) (n : Nat) : State :=
  s.modStore fun x => { x with mismatches := sat 32 (x.mismatches + n) }

/-- Change the staging in progress. -/
def State.modStaging (s : State) (f : Staging → Staging) : State :=
  { s with store := { s.store with staging := s.store.staging.map f } }

/-- Adapters of a set that have a tensor in a shard. -/
def Manifest.adaptersIn (m : Manifest) (shard : Nat) : List Nat :=
  (m.adapters.filter fun a => ((m.tensors.drop a.tensorFirst).take (m.tensorsOf a)).any (·.shard = shard)).map (·.id)

/-- A shard has failed its third read. -/
def State.shardFailed (s : State) (tag n : Nat) (x : Shard) (set : Bool) : State :=
  let t := s.markCorrupt tag n
  let on (f : Resident → Resident) : State :=
    t.modStaging fun g => { g with next := g.next + 1, attempts := 0, target := f g.target }
  if set then
    let bad := ((s.store.package? tag).map fun p => p.manifest.adaptersIn n).getD []
    on fun r => { r with adapters := r.adapters.filter (!bad.contains ·) }
  else if x.kind = 3 then on fun r => { r with expertsZero := (r.expertsZero ++ [x.expert]).eraseDups }
  else t.endSwitch Status.STO_SHARD_CORRUPT

/-- A shard of an adapter set arrives behind a base that is held (R322). The set's adapters become selectable at the slot
boundary after its last shard; one with a shard that fails its reads does not. -/
def State.adapterArrival (s : State) (a : AdapterLoad) (rest : List AdapterLoad) (n : Nat) (readable : Bool) : State :=
  match s.store.package? a.tag with
  | none => { s with store := { s.store with adapterLoads := rest } }
  | some p =>
    let x := lget p.shards n
    let good := readable && x.present && !x.corrupt
    let s := s.readShard a.tag n
    let t := if good then s.placeAdapters p.manifest n x.data else s.mismatched 1
    let put (t : State) (b : AdapterLoad) : State := t.modStore fun y => { y with adapterLoads := b :: rest }
    if !good && a.attempts < 2 then put t { a with attempts := a.attempts + 1 }
    else
      let t := if good then t else t.markCorrupt a.tag n
      let ids := if good then a.ids else a.ids.filter (!(p.manifest.adaptersIn n).contains ·)
      let left := a.left.filter (· != n)
      if left.isEmpty then
        t.modStore fun y => { y with adapterLoads := rest }.modBase p.baseTag fun r =>
          { r with adaptersNext := r.adaptersNext ++ ids }
      else put t { a with left := left, attempts := 0, ids := ids }

/-- The next shard of a staging arrives. -/
def State.stagingArrival (s : State) (g : Staging) (owner n : Nat) (readable : Bool) : State :=
  let tag := g.target.manifest.tag
  match (s.store.package? owner).bind fun p => (p.shards[n]?).map fun x => (p, x) with
  | none => s.modStaging fun g => { g with next := g.next + 1, attempts := 0 }
  | some (p, x) =>
    let s := s.readShard owner n
    let t := s.modStore fun y => { y with stageBytes := y.stageBytes + x.size }
    if readable && !x.corrupt then
      let t := if owner != tag then t.placeAdapters p.manifest n x.data
        else if g.target.kept.contains n then t.placeShard g.target n x.data else t
      t.modStaging fun g => { g with next := g.next + 1, attempts := 0 }
    else
      let t := t.mismatched 1
      if g.attempts < 2 then t.modStaging fun g => { g with attempts := g.attempts + 1 }
      else t.shardFailed owner n x (owner != tag)

/-- SHARD_ARRIVAL. A refetch goes before it (R320, R323). Of an adapter set and a switch that are being staged at once the
set's shard arrives first: DESIGN CHOICE, unsafe (log entry 44). -/
def execShardArrival (cyc : Nat) (readable : Bool) (s : State) : Host.Outcome State Fault Refusal :=
  let waits := (s.store.active.toList ++ s.store.old.toList).any fun r => r.refetching.any (!r.refetched.contains ·)
  if waits then .next s
  else match s.store.adapterLoads with
    | a :: rest =>
      match a.left with
      | n :: _ => .next ((s.stamp cyc).adapterArrival a rest n readable)
      | [] => .next { s with store := { s.store with adapterLoads := rest } }
    | [] =>
      match s.store.staging with
      | none => .next s
      | some g =>
        match g.order[g.next]? with
        | none => .next s
        | some (owner, n) => .next ((s.stamp cyc).stagingArrival g owner n readable)

/-- While the switch is STAGED, its first image is loaded into a FREE slot with room (R312). -/
def State.loadAhead (s : State) : State :=
  if s.store.switchKind = 1 && s.store.switchState = .staged && s.store.loadedAhead.isNone then
    match s.firstIncoming with
    | none => s
    | some l =>
      let base := (s.store.active.map (·.lasts.length)).getD 0
      match (s.store.staged.map (·.lasts)).bind fun ls => ls.findIdx? fun x => x.lastId = l.lastId with
      | some k =>
        if (s.fab.loadQueue ++ s.fab.loading.toList).any fun e => e.2 = base + k then s
        else match (List.range 4).find? fun n => (s.fab.slot n).state = .free &&
            (s.fab.loadRefusal n (imageHeader l.bytes)).isNone with
          | some n => s.acceptLoad n (base + k) (imageHeader l.bytes)
          | none => s
      | none => s
  else s

/-- STAGING_COMPLETE. -/
def execStagingComplete (cyc : Nat) (s : State) : Host.Outcome State Fault Refusal :=
  match s.store.staging with
  | none => .next s
  | some g =>
    if g.next < g.order.length then .next s
    else
      let s := s.stamp cyc
      let t := { s with store := { s.store with switchState := .staged, staging := none, staged := some g.target
                                                stageDone := s.fst } }
      .next (t.raise 0x0605 g.target.plan g.target.manifest.tag t.store.stageBytes).loadAhead

/-! ### The switch entry (R313) -/

/-- Load the first incoming image now; indices of incoming images begin at `base`. -/
def State.loadFirst (t : State) (base : Nat) : State :=
  match t.firstIncoming with
  | none => t
  | some l =>
    match (t.store.staged.map (·.lasts)).bind fun ls => ls.findIdx? fun x => x.lastId = l.lastId with
    | some k => t.loadInto (base + k) l
    | none => t

/-- The commit point: the outgoing streams end, its slots are freed, and the incoming image is loaded unless it was
loaded ahead. -/
def State.commitPoint (s : State) : State :=
  let out := ((s.srv.streams.filter fun e => e.2.packageTag = s.store.packageTag && !e.2.heldSwitch).map (·.1))
  let t := { s with store := { s.store with switchState := .switching } }
  let t := t.discardContext State.dropStep
  let t := ((t.planner.steps.filter fun x => !(t.srv.sealing.any fun y => y.step = x.number)).map (·.number)).foldl
    State.dropStep t
  let t := out.foldl (fun (t : State) n => t.endStream n Status.MODEL_SWITCHED) t
  let base := (t.store.active.map (·.lasts.length)).getD 0
  let keep := ((t.fab.loadQueue ++ t.fab.loading.toList).filter fun e => base ≤ e.2).map (·.1) ++ t.store.loadedAhead.toList
  let f := ((List.range 4).filter (!keep.contains ·)).foldl (fun (f : Fabric) n => f.setSlot n {}) t.fab
  let f := { f with activeSlot := none, queues := [], stations := []
                    loadQueue := f.loadQueue.filter fun e => base ≤ e.2
                    loading := f.loading.filter fun e => base ≤ e.2 }.settle
  let t := { t with fab := f }
  match t.store.loadedAhead with
  | some n => t.startSwap n
  | none => t.loadFirst base

/-- Bytes of the safe variants of a package (R273). As R304 does with the images, they are taken from each die. -/
def safeBytes (r : Resident) : Nat := ((r.lasts.filter (·.safe)).map (·.bytes.length)).sum

/-- Half-frame pairs that HBM holds beside a package's weights, its safe variants and the context area (R273, R382), and
those that its weight region makes. -/
def poolFrames (p : Part) (r : Resident) : Nat :=
  let half (die : Nat) : Nat := (lget r.manifest.tensors die).bytes
  let n (die : Nat) : Nat :=
    (hbmOutside p die - (r.manifest.hbm r.plan die).getD 0 - safeBytes r - contextAreaBytes) / half die
  min (2 ^ 20) (if half 0 = 0 then n 1 else if half 1 = 0 then n 0 else min (n 0) (n 1))

def regionFrames (r : Resident) : Nat :=
  let half (die : Nat) : Nat := (lget r.manifest.tensors die).bytes
  let n (die : Nat) : Nat := (r.manifest.hbm r.plan die).getD 0 / half die
  if half 0 = 0 then n 1 else if half 1 = 0 then n 0 else min (n 0) (n 1)

/-- Loads of the incoming package by their index once it is the active one. -/
def Fabric.rebase (f : Fabric) (base : Nat) : Fabric :=
  let g (e : Nat × Nat) : Nat × Nat := (e.1, e.2 - base)
  { f with loadQueue := f.loadQueue.map g, loading := f.loading.map g }

/-- SWITCH_COMPLETE: the pool is rebuilt, the new values are in force, and the rest of the resident set is loaded. -/
def execSwitchComplete (cyc : Nat) (s : State) : Host.Outcome State Fault Refusal :=
  let moving := s.pages.table.any fun e => e.2.state = .movingOut || e.2.state = .movingIn
  match s.store.staged with
  | none => .next s
  | some r =>
    if s.store.switchState ≠ .switching || s.fab.state ≠ .idle || s.fab.activeSlot.isNone || moving then .next s
    else
      let s := s.stamp cyc
      let epoch := (s.store.epoch + 1) % 2 ^ 32
      let old := s.store.packageTag
      let base := (s.store.active.map (·.lasts.length)).getD 0
      let n := poolFrames s.part r
      let quads := s.ras.workingQuads
      let r' : Resident := { r with epoch := epoch, withdrawn := [], adapterFrames := [], region := regionFrames r
                                    adapters := (r.adapters ++ r.adaptersNext).eraseDups, adaptersNext := [] }
      let t := { s with
        fab := { s.fab.rebase base with safeSet := [], safeNew := [] }
        pages := { s.pages with table := [], framesTotal := n, freeFrames := List.range n, moves := [], frameWait := []
                                parkAsked := [] }
        planner := { s.planner with running := none }
        srv := { s.srv with streams := s.srv.streams.map fun (e : Nat × Stream) => (e.1, { e.2 with heldSwitch := false }) }
        store := { s.store with switchState := .idle, switchResult := Status.OK, staged := none, stagedTag := 0
                                active := some r', old := none, packageTag := r.manifest.tag
                                baseManifest := some r.manifest, epoch := epoch, loadedAhead := none
                                capacityStep := if 6 ≤ quads then quads else 0 }.dropLoads }
      .next ((t.raise 0x0606 epoch r.manifest.tag old).reload)

/-! ### Epochs (R316 to R318) -/

/-- A staged epoch commits at a slot boundary. A step that has not started and whose rows now differ in their epoch
is planned anew. -/
def State.epochCommit (s : State) : State :=
  match s.store.active, s.store.staged with
  | some a, some r =>
    if s.store.switchKind = 2 && s.store.switchState = .staged && r.refetching.isEmpty then
      let epoch := (s.store.epoch + 1) % 2 ^ 32
      let new : Resident := { r with epoch := epoch, lasts := a.lasts, adapters := a.adapters
                                     adaptersNext := a.adaptersNext, adapterFrames := a.adapterFrames }
      let t := { s with store := { s.store with active := some new, old := some { a with adapterFrames := [] }
                                                staged := none, epoch := epoch, switchState := .idle
                                                switchResult := Status.OK, stagedTag := 0 } }
      let epochs (x : StepRun) : List Nat :=
        ((x.streams.filterMap t.stream?).map t.epochOf).eraseDups
      let mixed := t.planner.steps.filter fun x => !x.started && 1 < (epochs x).length
      let t := (mixed.map (·.number)).foldl State.dropStep t
      { t with planner := { t.planner with steps := t.planner.steps.map fun x =>
          if x.started then x else { x with epoch := (epochs x).headD epoch } } }
    else s
  | _, _ => s

/-- STO_EPOCH_PINS: streams pinned to the older epoch. -/
def State.epochPins (s : State) : Nat :=
  match s.store.old with
  | some o => (s.srv.streams.filter fun e => e.2.pin && e.2.epoch = o.epoch).length
  | none => 0

/-- The older epoch is released at a slot boundary: no pin and no step needs it. Its half-frames return, or its weight
region is divided into new ones. -/
def State.epochRelease (s : State) : State :=
  match s.store.old with
  | none => s
  | some o =>
    if s.epochPins = 0 && !(s.planner.steps.any fun x => x.epoch = o.epoch) then
      let others := s.store.active.toList ++ s.store.staged.toList ++ (s.store.staging.map (·.target)).toList ++ [o]
      let first := s.pages.framesTotal + (others.map fun r => r.withdrawn.length + r.adapterFrames.length).sum
      let new := (List.range o.region).map (first + ·)
      { s with pages := s.pages.rejoin (o.withdrawn ++ new), store := { s.store with old := none } }.raise 0x0607
        o.epoch o.manifest.tag 0
    else s

/-- What staging and refetches make available at a slot boundary (R320, R322). -/
def Resident.boundary (r : Resident) : Resident :=
  { r with refetching := r.refetching.filter (!r.refetched.contains ·), refetched := []
           adapters := (r.adapters ++ r.adaptersNext).eraseDups, adaptersNext := [] }

def Store.boundary (t : Store) : Store :=
  { t with active := t.active.map Resident.boundary, old := t.old.map Resident.boundary
           staged := t.staged.map Resident.boundary }

/-! ### Refetch and scrub (R319 to R321) -/

/-- A shard is lost: no pass of the package runs until it is staged again (R321). -/
def State.shardLost (s : State) (r : Resident) (n : Nat) : State :=
  let t := s.raise 0x0608 n r.manifest.tag 0
  let t := { t with store := t.store.modResident r.epoch fun x =>
      { x with lost := true, refetching := x.refetching.filter (· != n) } }
  let mine := (t.srv.streams.filter fun e => !e.2.heldSwitch && t.epochOf e.2 = r.epoch).map (·.1)
  mine.foldl (fun (t : State) k => t.endStream k Status.WEIGHTS_LOST) t

/-- A refetch has ended: its copy is rewritten, or there is none. -/
def State.refetched (s : State) (r : Resident) (n : Nat) (valid staged : Bool) : State :=
  let x := (((s.store.package? r.manifest.tag).bind fun p => p.shards[n]?)).getD default
  let mod (t : State) (f : Resident → Resident) : State :=
    t.modStore fun y => if staged then { y with staged := y.staged.map f } else y.modResident r.epoch f
  let good := valid && x.present && !x.corrupt && s.store.reaches n x
  let s := (s.modStore fun y => { y with refetches := sat 32 (y.refetches + 1) }).readShard r.manifest.tag n
  if good then
    mod (s.placeShard r n x.data) fun y => { y with refetched := y.refetched ++ [n] }
  else
    let t := (s.mismatched 3).markCorrupt r.manifest.tag n
    if x.kind = 3 then
      mod t fun y => { y with refetching := y.refetching.filter (· != n)
                              expertsZero := (y.expertsZero ++ [x.expert]).eraseDups }
    else if staged then t.endSwitch Status.STO_SHARD_CORRUPT
    else t.shardLost r n

/-- SHARD_REFETCH_COMPLETE, of the first staged set that waits for the shard. -/
def execShardRefetchComplete (cyc shard : Nat) (valid : Bool) (s : State) : Host.Outcome State Fault Refusal :=
  let waits (r : Resident) : Bool := r.refetching.contains shard && !r.refetched.contains shard
  match (s.store.active.toList ++ s.store.old.toList).find? waits, s.store.staged.filter waits with
  | some r, _ => .next ((s.stamp cyc).refetched r shard valid false)
  | none, some r => .next ((s.stamp cyc).refetched r shard valid true)
  | none, none => .next s

/-- Whether the bytes read so far are the ones wanted, and the next `n`, from `mpa` on within one sector, are `want`. -/
def State.lineMatches (p : Bool × State) (mpa n : Nat) (want : List Byte) : Bool × State :=
  let x := p.2.readNow mpa 0xFFFF 0xFF true
  (p.1 && decide ((x.1.drop (mpa % 64)).take n = want), x.2.2)

/-- The stream engines read the copies of a tensor of a kept shard, like every access through the insoles; whether they agree
with the shard's bytes, and the state. -/
def State.copyMatches (s : State) (r : Resident) (number : Nat) (e : TensorEntry) (data : List Byte) : Bool × State :=
  ((List.range 2).filter fun d => e.die = d || e.die = 0xFF).foldl (fun (p : Bool × State) die =>
    (List.range (ceilDiv e.bytes 64)).foldl (fun (p : Bool × State) i =>
      let k := min 64 (e.bytes - 64 * i)
      State.lineMatches p (tensorMpa s.part r.epoch die number e (64 * i)) k (slice data (e.offset + 64 * i) k)) p)
    (true, s)

/-- The resident copies of a kept shard. -/
def State.copiesMatch (s : State) (r : Resident) (n : Nat) (data : List Byte) : Bool × State :=
  let streamed := if r.plan = 0 then [] else streamedTensors r.lasts r.plan
  (r.manifest.tensors.zipIdx.filter fun e => e.1.shard = n && !streamed.contains e.2).foldl (fun (p : Bool × State) e =>
    let x := p.2.copyMatches r e.2 e.1 data
    (p.1 && x.1, x.2)) (true, s)

/-- Slots of STO_DIGEST_SCRUB_HOURS. -/
def State.scrubPeriod (s : State) : Nat := s.reg Reg.STO_DIGEST_SCRUB_HOURS * 3600 * 8000

/-- Whether the digest scrub may begin: the period has passed since it last did. -/
def State.scrubDue (s : State) : Bool :=
  match s.store.scrubStart with
  | none => true
  | some t => t + s.scrubPeriod ≤ s.uptime

/-- The digest scrub takes its next kept shard (R319): one in each maintenance entry, and one pass in each period. -/
def State.digestScrub (s : State) : State :=
  let all := (s.store.active.toList ++ s.store.old.toList).flatMap fun r => r.kept.map fun n => (r, n)
  if s.store.scrubNext = 0 && !s.scrubDue then s
  else match all[s.store.scrubNext]? with
  | none => { s with store := { s.store with scrubNext := 0 } }
  | some (r, n) =>
    let data := (((s.store.package? r.manifest.tag).bind fun p => p.shards[n]?).map (·.data)).getD []
    let ends := decide (all.length ≤ s.store.scrubNext + 1)
    let t := { s with store := { s.store with scrubNext := if ends then 0 else s.store.scrubNext + 1
                                              scrubStart := if s.store.scrubNext = 0 then some s.uptime else s.store.scrubStart
                                              scrubDone := if ends then s.fst else s.store.scrubDone } }
    let (ok, t) := t.copiesMatch r n data
    if ok then t
    else (t.mismatched 1).detect
      { source := 0x0A, causeClass := 3, shard := some n, epoch := r.epoch }

/-! ### Abandoned on EJECT_REQ or with a store group (R323) -/

def State.abandonOp (s : State) : State :=
  if s.store.opState = .running then s.finishOp Status.STO_ABANDONED else s

def State.abandonStaging (s : State) : State :=
  if s.store.switchState = .staging then s.endSwitch Status.STO_ABANDONED else s

end Sys2Proof.Machine
end

