-- ==== Sys2Proof/Machine/Reliability.lean ====
section
/-! DEFINITION. Reliability commands (chapter 16): strikes, fences and unfences, group resets, the claim mode, the awl
engines and the persistent log. -/

namespace Sys2Proof.Machine

def State.quad (s : State) (q : Nat) : Quadrant := lget s.ras.quads q

/-! ### Strikes (R517) -/

/-- STRIKE_EXPIRE: the oldest strike is RAS_STRIKE_WINDOW frames old. -/
def execStrikeExpire (quadrant : Nat) (s : State) : Host.Outcome State Fault Refusal :=
  onUnit (quadrant < 8) (
    match (s.quad quadrant).strikes with
    | f :: fs =>
      if frameOf f + s.reg Reg.RAS_STRIKE_WINDOW ≤ s.tb.frame then s.modQuad quadrant fun x => { x with strikes := fs }
      else s
    | [] => s)

/-! ### Fence and unfence (R520 to R524) -/

/-- The commit of RAS_FENCE_CMD for a quadrant. -/
def State.commitFence (s : State) (q value : Nat) : State :=
  let x := s.quad q
  let set (t : State) : State := (t.setReg (Reg.RAS_FENCE_CMD + 256 * q) value).status Status.OK
  match value with
  | 0 => set s
  | 1 =>
    if x.state = .working || x.state = .suspect then
      set (s.modQuad q fun y => { y with state := .fencing, cause := 3, source := 0 })
    else s.status Status.VALUE_STATE
  | 2 =>
    if x.state = .fenced && x.awlClean then set (s.modQuad q fun y => { y with state := .unfencing })
    else s.status Status.VALUE_STATE
  | _ => s.status Status.VALUE_RANGE

def execFenceCmd (cyc quadrant : Nat) (s : State) : Host.Outcome State Fault Refusal :=
  onUnit (quadrant < 8) ((s.stamp cyc).commitFence quadrant 1)

def execUnfenceCmd (cyc quadrant : Nat) (s : State) : Host.Outcome State Fault Refusal :=
  onUnit (quadrant < 8) ((s.stamp cyc).commitFence quadrant 2)

/-- A run of every DESTRUCTIVE test starts (R527); one with no test passes at once. -/
def Quadrant.startRun (x : Quadrant) (tests : List (Nat × AwlTest)) : Quadrant :=
  { x with run := tests, running := !tests.isEmpty, runFailed := false, awlClean := tests.isEmpty }

/-- RAS_SERVICE_STATE follows the working mask (R235, R522). -/
def State.judgeService (s : State) : State :=
  if s.ras.service = .outOfService then s
  else if 6 ≤ s.ras.workingQuads then { s with ras := { s.ras with service := .serving, degradedRaised := false } }
  else
    let t := { s with ras := { s.ras with service := .noStep, degradedRaised := true } }
    let t := if s.ras.service = .noStep then t else t.raise 0x0105 s.mask 0 0
    if s.ras.degradedRaised then t else t.raise 0x0D0B 0 s.ras.recordSeq 0

/-- The images that a new working mask needs: in a model switch the first incoming one (R234, R313). -/
def State.reloadAll (s : State) : State :=
  if s.store.switchState = .switching then s.loadFirst ((s.store.active.map (·.lasts.length)).getD 0)
  else s.reload.loadAhead

/-- The mask has changed: the slots are reloaded, unstarted entries costed again, saved contexts discarded, and
admission runs again at the next frame boundary (R520, R523). -/
def State.maskChanged (s : State) : State :=
  let n := s.ras.workingQuads
  let t := { s.emptySlots with store := { s.emptySlots.store with capacityStep := if 6 ≤ n then n else 0 } }
  let t := (t.discardContext fun u k => u.rerunOwn k).recostPlan true
  let t := { t with planner := { t.planner with rerun := some (if n < 6 then 4 else 2) } }
  t.reloadAll.judgeService

/-- The record and the event of a fence or an unfence of a quadrant. -/
def State.fenceRecord (s : State) (before q : Nat) (fence : Bool) : State :=
  let x := s.quad q
  let src := if fence then x.source else 0
  let t := s.record { source := src, causeClass := if src = 0 then 8 else classOf src, quadrant := some q, die := some (q / 4)
                      actions := if fence then actFence else actUnfence, maskBefore := some before
                      strikes := x.strikes.length }
  t.raise (if fence then 0x0D06 else 0x0D07) q t.ras.recordSeq 0

/-- Fences and unfences that are due take effect together (R121, R520, R524). -/
def State.applyFences (s : State) : State :=
  let fence := (List.range 8).filter fun q => (s.quad q).state = .fencing
  let free := (List.range 8).filter fun q => (s.quad q).state = .unfencing
  let idle := s.fab.state = .idle || s.fab.state = .empty
  if !idle || s.syn.phase != .none || (fence.isEmpty && free.isEmpty) then s
  else
    let before := s.mask
    let tests := s.ras.tests true
    let t := fence.foldl (fun (t : State) q => t.modQuad q fun x =>
      let y := { x with slice := [], targeted := [], cover := [], covering := false }
      if s.domainOn q then { y.startRun tests with state := .fenced } else { y with state := .off }) s
    let t := free.foldl (fun (t : State) q => t.modQuad q fun x => { x with state := .working, strikes := [] }) t
    let t := t.maskChanged
    let t := fence.foldl (fun (t : State) q => t.fenceRecord before q true) t
    free.foldl (fun (t : State) q => t.fenceRecord before q false) t

/-! ### Group resets (R512) -/

/-- One group is reset. -/
def State.resetGroup (s : State) (g source : Nat) : State :=
  let mine := (s.srv.streams.filter fun e => groupOf e.1 = g).map (·.1)
  let saved := s.syn.context.any fun c => c.run.entry.rows.any fun r => groupOf r.stream = g
  let t := mine.foldl (fun (t : State) n => t.endStream n Status.GROUP_RESET) s
  let t := t.dropRows fun n => groupOf n = g
  let t := if saved then t.discardContext fun u k => u.rerunOwn k else t
  let t := { t with ras := { t.ras with groupResets := sat 32 (t.ras.groupResets + 1) } }
  let t := t.record { source := source, causeClass := classOf source, groups := 2 ^ g, group := some g
                      actions := actReset }
  t.raiseFor 0x0D02 g g t.ras.recordSeq 0

/-- Groups charged before this slot boundary. -/
def State.resetGroups (s : State) : State :=
  s.ras.resetGroups.foldl (fun (t : State) (e : Nat × Nat) => t.resetGroup e.1 e.2)
    { s with ras := { s.ras with resetGroups := [] } }

/-! ### The claim (R499) -/

def State.claimModeNow (s : State) : Nat :=
  let checked := s.reg Reg.MXE_CHECK_MODE = 1 && 12 ≤ s.reg Reg.MXE_CHECK_TOL
  let images := (s.store.active.map (·.lasts)).getD []
  let redundant := (images.filter s.inForce).all (fun l => (imageHeader l.bytes).redundant) && s.store.active.isSome &&
    (List.range s.part.hbmStacks).all fun k => (s.insole k).mode = 1 || (s.insole k).mode = 2
  if !checked then 0 else if redundant then 2 else 1

/-! ### The awl (R525 to R529) -/

/-- A quadrant's slice of a maintenance entry: a targeted run goes before the cover, and a finished cover begins
again. -/
def Quadrant.startSlice (x : Quadrant) (all : List (Nat × AwlTest)) (w : Nat) : Quadrant :=
  if !x.targeted.isEmpty then
    let t := fitTests w x.targeted
    { x with slice := t, targeted := x.targeted.drop t.length, covering := false }
  else
    let cover := if x.cover.isEmpty then all else x.cover
    let t := fitTests w cover
    { x with slice := t, cover := cover.drop t.length, covering := true }

/-- Slices start in the quadrants of a mask that are in the working mask. -/
def State.startSlices (s : State) (quads w : Nat) : State :=
  let all := s.ras.tests false
  (List.range 8).foldl (fun (t : State) q =>
    if bit quads q && (s.quad q).state.inMask then t.modQuad q fun x => x.startSlice all w else t) s

/-- A maintenance entry ends when its slices have: the digest scrub takes one shard in it. -/
def State.endMaintenance (s : State) : State :=
  match s.planner.running with
  | none => s
  | some r =>
    if r.entry.kind = .maintenance && s.ras.quads.all (·.slice.isEmpty) then
      { s with planner := { s.planner with running := none } }.digestScrub
    else s

/-- DETAIL of a record of SOURCE 10h. -/
def awlDetail (set version : Nat) (t : AwlTest) (misr : BitVec 64) : List Byte :=
  le 2 set ++ le 2 version ++ le 2 t.id ++ le 2 0 ++ le 8 t.expect.toNat ++ le 8 misr.toNat

/-- SET_VERSION of a resident set; that of set 0 is the minor field of the boot ROM's version. -/
def State.setVersion (s : State) (id : Nat) : Nat :=
  if id = 0 then Config.fuse Reg.SEC_BOOT_ROM_VERSION % 65536
  else ((s.ras.sets.find? fun x => x.id = id).map (·.version)).getD 0

/-- The test of a quadrant that ends next: of its DESTRUCTIVE run, or of its slice. -/
def Quadrant.current (x : Quadrant) : Option ((Nat × AwlTest) × Bool) :=
  if x.running then x.run.head?.map fun t => (t, true) else x.slice.head?.map fun t => (t, false)

/-- AWL_TEST_COMPLETE (R527, R528). -/
def execAwlTestComplete (cyc quadrant : Nat) (misr : BitVec 64) (s : State) : Host.Outcome State Fault Refusal :=
  onUnit (quadrant < 8) (
    match (s.quad quadrant).current with
    | none => s
    | some ((set, test), destructive) =>
      let s := s.stamp cyc
      let pass : Bool := decide (misr = test.expect)
      let fst := s.fst
      let t := { s with ras := { s.ras with awlRuns := sat 32 (s.ras.awlRuns + 1)
                                            awlFails := if pass then s.ras.awlFails else sat 32 (s.ras.awlFails + 1) } }
      let t := t.modQuad quadrant fun x =>
        let x := { x with lastResult := if pass then 1 else 2, lastTest := 65536 * set + test.id }
        if destructive then
          let failed := x.runFailed || !pass
          let rest := x.run.drop 1
          { x with run := rest, running := !rest.isEmpty, runFailed := failed, awlClean := rest.isEmpty && !failed }
        else
          let rest := x.slice.drop 1
          { x with slice := rest
                   coverDone := if rest.isEmpty && x.cover.isEmpty && x.covering then fst else x.coverDone }
      let t := if pass then t
        else
          let before := (t.quad quadrant).state
          let t := t.judge quadrant 2 0x10
          let asked : Bool := decide ((t.quad quadrant).state = .fencing ∧ before ≠ .fencing)
          let t := t.record { source := 0x10, causeClass := 7, quadrant := some quadrant, die := some (quadrant / 4)
                              actions := if asked then actFence else 0
                              detail := awlDetail set (s.setVersion set) test misr }
          t.raise 0x0D08 quadrant t.ras.recordSeq 0
      t.endMaintenance)

/-- The commit of RAS_AWL_RUN_CMD for a quadrant. -/
def State.commitAwlRun (s : State) (q value : Nat) : State :=
  let set (t : State) : State := (t.setReg (Reg.RAS_AWL_RUN_CMD + 256 * q) value).status Status.OK
  match value with
  | 0 => set s
  | 1 => set (s.modQuad q fun x => { x with targeted := s.ras.tests false })
  | 2 =>
    if (s.quad q).state = .fenced then set (s.modQuad q fun x => x.startRun (s.ras.tests true))
    else s.status Status.VALUE_STATE
  | _ => s.status Status.VALUE_RANGE

def execAwlRunTargeted (quadrant : Nat) (s : State) : Host.Outcome State Fault Refusal :=
  onUnit (quadrant < 8) (s.commitAwlRun quadrant 1)

def execAwlRunDestructive (quadrant : Nat) (s : State) : Host.Outcome State Fault Refusal :=
  onUnit (quadrant < 8) (s.commitAwlRun quadrant 2)

/-- A pattern-set image (Table 16-4). -/
def parseAwlSet (b : List Byte) : AwlSet :=
  { id := field b 8 2, version := field b 0x0A 2, size := field b 0x0C 4
    tests := (records (b.drop (field b 0x14 4)) 32 (min 1024 (field b 0x10 2))).map fun e =>
      { id := field e 0 2, target := field e 2 1, destructive := field e 3 1 = 1, cycles := field e 4 4
        expect := BitVec.ofNat 64 (field e 0x10 8) } }

/-- Magic, version and ranges of the header. -/
def awlFormat (b : List Byte) : Bool :=
  field b 0 4 = 0x504C5741 && bits (field b 4 2) 15 8 = 1 && 1 ≤ field b 8 2 && field b 8 2 ≤ 65534 &&
    field b 0x0C 4 = b.length && 1 ≤ field b 0x10 2 && field b 0x10 2 ≤ 1024 && zeros b 0x12 2 && zeros b 0x18 40

/-- Sets in ascending SET_ID. -/
def insertSet (x : AwlSet) : List AwlSet → List AwlSet
  | [] => [x]
  | y :: ys => if x.id < y.id then x :: y :: ys else if x.id = y.id then x :: ys else y :: insertSet x ys

/-- The commit of RAS_AWL_LOAD (R529). -/
def State.commitAwlSet (s : State) (b : List Byte) : State :=
  let (ok, t) := s.verify .awlSet b
  let x := parseAwlSet b
  let others := t.ras.sets.filter fun y => y.id != x.id
  let older := t.ras.sets.any fun y => y.id = x.id && x.version < y.version
  if !ok || !awlFormat b || field b 6 2 ≠ 0x00B1 || older || 4 ≤ others.length ||
      4 * 2 ^ 20 < x.size + (others.map (·.size)).sum then t.status Status.VALUE_STATE
  else
    let sets := insertSet x t.ras.sets
    let u := { t with ras := { t.ras with sets := sets, storedSets := sets } }.setBlob Reg.RAS_AWL_LOAD b
    (u.raise 0x0D09 0 u.ras.recordSeq 0).status Status.OK

def execAwlSetLoad (cyc : Nat) (image : List Byte) (s : State) : Host.Outcome State Fault Refusal :=
  .next ((s.stamp cyc).commitAwlSet image)

/-- RAS_AWL_SETS. -/
def State.awlSetsBytes (s : State) : List Byte :=
  le 2 0 ++ le 2 (s.setVersion 0) ++ le 2 (Config.romTestCount % 1025) ++ le 1 0 ++ le 1 0 ++
    s.ras.sets.flatMap fun x => le 2 x.id ++ le 2 x.version ++ le 2 x.tests.length ++ le 1 1 ++ le 1 0

/-! ### The persistent log (R533) -/

/-- PERSIST_WRITE_COMPLETE. -/
def execPersistWriteComplete (s : State) : Host.Outcome State Fault Refusal :=
  match s.ras.persistWrite with
  | none => .next s
  | some b =>
    let r := s.ras
    .next { s with ras := { r with persist := (r.persist ++ [b]).drop (r.persist.length + 1 - 1024)
                                   persistWrite := if s.pwr.presenceBroken then none else r.persistQueue.head?
                                   persistQueue := r.persistQueue.drop 1 } }

/-- PERSIST_CLEAR. -/
def State.commitPersistClear (s : State) (value : Nat) : State :=
  let set (t : State) : State := (t.setReg Reg.RAS_PERSIST_CLEAR value).status Status.OK
  match value with
  | 0 => set s
  | 1 => set { s with ras := { s.ras with persist := [] } }
  | _ => s.status Status.VALUE_RANGE

def execPersistClear (value : Nat) (s : State) : Host.Outcome State Fault Refusal := .next (s.commitPersistClear value)

end Sys2Proof.Machine
end

