-- ==== Sys2Proof/Machine/Passes.lean ====
section
/-! DEFINITION. Plan entries run (R61, R106 to R120, R225, R313, R340 to R343, R384): a pass is issued, ends, is voided;
a swap ends. -/

namespace Sys2Proof.Machine

/-! ### The parameter block and the stream list (R225, R341 to R343) -/

/-- One entry of the stream list (Table 10-6). -/
def State.streamEntry (s : State) (r : PassRow) : List Byte :=
  let x := (s.stream? r.stream).getD default
  let key := if r.output then (mix32 x.seed (BitVec.ofNat 32 (r.position + 1))).toNat else 0
  let temp := if x.temperature = 0 || x.temperature = 0x80000000 then 0 else (Config.tempScale x.temperature).toNat
  le 2 r.stream ++ le 2 r.adapter ++ le 4 r.position ++ le 4 key ++ le 4 temp

/-- The stream list of a pass. It lies in the system region, at an offset that is the module's own. -/
def State.streamList (s : State) (rows : List PassRow) : List Byte := rows.flatMap s.streamEntry

/-- P[0] to P[15] of a pass; `offset` is P[3]. -/
def passParams (e : PlanEntry) (x : Option StepRun) (offset : Nat) : List Nat :=
  let phase := (x.map (·.phase)).getD (phaseOf e.kind)
  [e.rows.length, longest e.rows, adapterRuns e.rows, offset % 2 ^ 32, e.step % 2 ^ 32, (x.map (·.epoch)).getD 0,
   phase + 2 * ofBit e.lastPass, (x.map (·.passes)).getD 0] ++ List.replicate 8 0

/-! ### Entries -/

/-- A row's stream is still in the turn that the row was planned for. -/
def State.rowLives (s : State) (r : PassRow) : Bool :=
  match s.stream? r.stream with
  | some x => x.state = .active && x.turn.isSome
  | none => false

/-- A step whose entry is dropped: it ends with its last remaining entry, or leaves with it. -/
def State.dropEntry (s : State) (e : PlanEntry) : State :=
  match s.planner.stepOf e.step with
  | none => s
  | some x =>
    let rest := x.entries.filter (· != e)
    if rest.isEmpty then s.dropStep e.step
    else
      let n := rest.length
      let rest := rest.zipIdx.map fun y => if y.2 + 1 = n then { y.1 with lastPass := true } else y.1
      s.modStep e.step fun y => { y with entries := rest, complete := n ≤ x.passes }

/-- Whether Iandaol issues a pass of an entry's step now: it may plan, the pass reads no shard that is being refetched
(R320), and a last that streams from the store finds its stacks READY (R323). -/
def State.mayIssue (s : State) (e : PlanEntry) : Bool :=
  let epoch := ((s.planner.stepOf e.step).map (·.epoch)).getD s.store.epoch
  let l := s.staged? e.lastId
  s.mayPlan epoch &&
    (s.store.resident? epoch).any fun r => l.all fun l =>
      (r.refetching.all fun n => !(l.shardsRead r.manifest).contains n) &&
        (!(imageHeader l.bytes).storeStreamed || s.store.flash.all fun x => x.state = .ready || x.state = .readOnly)

/-- The slot that holds a last, ready or active. -/
def Fabric.slotOf? (f : Fabric) (lastId : Nat) : Option Nat :=
  (List.range 4).find? fun n =>
    ((f.slot n).state = .ready || (f.slot n).state = .active) && (f.slot n).lastId = lastId

/-- A pass as it is issued, with its number and the settings in force (R387). -/
def PassRun.latched (r : PassRun) (s : State) (n now : Nat) : PassRun :=
  { r with passNumber := n, start := now, guardDefault := s.reg Reg.SYN_GUARD_DEFAULT, preemptMode := s.reg Reg.SYN_PREEMPT_MODE }

/-- A pass is issued from IDLE with its parameter block (R115). The epoch of a step is that in force when its first
pass is issued (R317); P[3] is open: DESIGN CHOICE, safe (log entry 25). -/
def State.issuePass (s : State) : State :=
  match s.planner.running, s.fab.image? with
  | some r, some m =>
    if s.fab.state ≠ .idle then s
    else
    let e := r.entry
    let (offset, s) := s.draw
    let first := ((s.planner.stepOf e.step).map fun x => decide (x.passes = 0)).getD true
    let epoch := ((e.rows.head?.bind fun y => s.stream? y.stream).map s.epochOf).getD s.store.epoch
    let now := s.tb.now
    let s := s.modStep e.step fun x =>
      if x.started then x else { x with started := true, firstStart := now, epoch := epoch }
    let s := if (s.pairOf e.step).isNone then s.bindPair e.step e.cls m else s
    let n := sat 64 (s.fab.passCount + 1)
    let t := { s with
      fab := { s.fab with state := .running, queues := m.freshQueues, stations := m.stations.map fun _ => {}
                          params := passParams e (s.planner.stepOf e.step) offset, passCount := n }
      mxe := { s.mxe with passMismatches := 0, checkMode := s.reg Reg.MXE_CHECK_MODE, checkTol := s.reg Reg.MXE_CHECK_TOL }
      syn := { s.syn with tiles := s.freshTiles m, participants := [] }
      planner := { s.planner with running := some (r.latched s n now)
                                  passesStarted := sat 64 (s.planner.passesStarted + 1) } }.resumeGuard
    if t.poolPass then t.openBatch (batchIdOf (e.notBefore.getD t.tb.boundaryFst)) e.step first else t
  | _, _ => s

/-- A pass entry runs once its last is active. -/
def State.runPass (s : State) (e : PlanEntry) : State :=
  let t := { s with planner := { s.planner with plan := s.planner.plan.drop 1
                                                running := some { entry := e, passNumber := 0, start := s.tb.now, planEnd := s.clock + e.cost } } }
  if s.fab.activeLast = e.lastId then t.issuePass
  else match s.fab.slotOf? e.lastId with
    | some n => t.startSwap n
    | none => s

/-- The resume of the saved pass (R384). -/
def State.runResume (s : State) (e : PlanEntry) : State :=
  match s.syn.context with
  | none => { s with planner := { s.planner with plan := s.planner.plan.drop 1 } }
  | some c =>
    let t := { s with planner := { s.planner with plan := s.planner.plan.drop 1, running := some { c.run with entry := e, planEnd := s.clock + e.cost } } }
    if s.fab.activeLast = c.lastId then t.startRestore c
    else match s.fab.slotOf? c.lastId with
      | some n => t.startSwap n
      | none => s

/-- A step of class 1 to 3 with no window pair left moves to the next frame (R362). -/
def State.moveStep (s : State) (n : Nat) : State :=
  let mine (e : PlanEntry) : Bool := e.isPass && e.step = n
  let p := s.planner
  { s with planner := { p with plan := p.plan.filter fun e => !mine e, moved := p.moved ++ p.plan.filter mine } }

/-- An image that no slot holds is asked for. -/
def State.askImage (s : State) (lastId : Nat) : State :=
  match (s.store.active.map (·.lasts)).bind fun ls => ls.zipIdx.find? fun e => e.1.lastId = lastId with
  | some e => s.loadInto e.2 e.1
  | none => s

/-- The pass at the head of the plan: rows of turns that have ended leave it; it runs on the safe variant where R107
says so; an image that is not resident is asked for first. -/
def State.startPass (s : State) (e : PlanEntry) : State :=
  let live := { e with rows := e.rows.filter s.rowLives }
  if !e.rows.isEmpty && live.rows.isEmpty then
    { s with planner := { s.planner with plan := s.planner.plan.drop 1 } }.dropEntry e
  else if !s.mayIssue e then s
  else
    let s := s.modStep e.step fun x => { x with entries := x.entries.map fun y => if y = e then live else y }
    let run := { s.withSafe live with cost := live.cost }
    if (s.pairOf e.step).isNone && (s.freePair e.cls).isNone then s.moveStep e.step
    else if (s.fab.slotOf? run.lastId).isNone then s.askImage run.lastId
    else s.runPass run

/-- The switch entry starts: the commit point of a model switch (R313). -/
def State.startSwitch (s : State) (e : PlanEntry) : State :=
  if s.store.switchState ≠ .staged then { s with planner := { s.planner with plan := s.planner.plan.drop 1 } }
  else if s.store.staged.any fun r => !r.refetching.isEmpty then s
  else
    let run : PassRun := { entry := e, passNumber := 0, start := s.tb.now }
    ({ s with planner := { s.planner with plan := s.planner.plan.drop 1, running := some run } }).commitPoint

/-- A maintenance entry: awl slices, and a shard of the digest scrub (R319, R526). -/
def State.startMaintenance (s : State) (e : PlanEntry) : State :=
  let run : PassRun := { entry := e, passNumber := 0, start := s.tb.now }
  let t := { s with planner := { s.planner with plan := s.planner.plan.drop 1, running := some run } }
  (t.startSlices e.lastId e.w).endMaintenance

/-- t_w + H − 7 ms in fabric cycles of uptime (R554). -/
def State.warnLimit (s : State) : Nat := s.pwr.warnAt + (s.pwr.holdup - 7000) * 1250

/-- Whether an entry may start: nothing runs, it ends within the hold-up, and no fence, unfence, slice, save or restore holds the fabric (R61,
R121). -/
def State.entryMayStart (s : State) (e : PlanEntry) : Bool :=
  (s.fab.state = .idle || (s.fab.state = .empty && !e.isPass)) && s.planner.running.isNone && s.syn.phase = .none &&
    !s.fencePending && (s.ras.quads.all fun q => q.slice.isEmpty) &&
    (e.notBefore.all fun f => f ≤ s.fst) && (!s.pwr.warn || s.clock + e.cost < s.warnLimit)

/-- PLAN_ENTRY_START. -/
def execPlanEntryStart (cyc : Nat) (s : State) : Host.Outcome State Fault Refusal :=
  let t := s.stamp cyc
  match t.planner.plan with
  | [] => .next s
  | e :: _ =>
    if !t.entryMayStart e then .next s
    else if e.resume then .next (if t.hlk.up then t.runResume e else s)
    else match e.kind with
      | .prefill | .decode => .next (t.startPass e)
      | .switchEntry => .next (t.startSwitch e)
      | .maintenance => .next (t.startMaintenance e)

/-! ### The end of a pass (R109, R115) -/

/-- Every terminal PORT station has consumed END_OF_PASS, and every write is acknowledged. -/
def Fabric.drained (f : Fabric) : Bool :=
  f.stations.zipIdx.all fun e =>
    e.1.writes = 0 && (!((f.desc? e.2).any fun d => d.terminal) || e.1.passEnded)

/-- The fabric is IDLE, with every queue empty. -/
def State.quiesce (s : State) : State :=
  { s with fab := { s.fab with state := .idle, queues := s.fab.queues.map QueueRun.empty
                               guardHeld := if s.fab.state = .running then s.clock - s.fab.guardZero else s.fab.guardHeld
                               stations := s.fab.stations.map fun _ => {} }
           syn := { s.syn with tiles := [], participants := [] } }

/-- A pass with no step of its own gives its window pair back. -/
def State.endOwn (s : State) (r : PassRun) : State := if r.entry.rows.isEmpty then s.releasePair r.entry.step else s

/-- PASS_END. -/
def execPassEnd (cyc : Nat) (s : State) : Host.Outcome State Fault Refusal :=
  match s.planner.running with
  | none => .next s
  | some r =>
    if s.fab.state ≠ .running || s.syn.phase ≠ .none || !s.fab.drained then .next s
    else
      let s := s.stamp cyc
      let n := s.fab.residueCount
      if n ≠ 0 then .next (s.residue r n) else .next ((s.quiesce.endPass r).endOwn r)

/-- VOIDING_COMPLETE (R105, R106, R353, R379, R438). -/
def execVoidingComplete (cyc : Nat) (s : State) : Host.Outcome State Fault Refusal :=
  match s.planner.running with
  | none => .next s
  | some r =>
    if s.fab.state ≠ .voiding || s.voidPending then .next s
    else
      let t := (s.stamp cyc).quiesce
      if r.voidCause ≤ 3 then .next ((t.voidedPass r).endOwn r)
      else
        let u := { t with planner := { t.planner with running := none } }
        .next (((u.settlePass r true false).rerunOwn r.entry.step).endOwn r)

/-! ### The end of a swap -/

/-- An entry whose pass or resume may not be issued yet goes back to the head of the plan (R121). -/
def State.heldBack (s : State) (e : PlanEntry) : State :=
  { s with planner := { s.planner with plan := e :: s.planner.plan, running := none } }

/-- SWAP_COMPLETE (R116): the entry that the swap was for goes on, unless a fence or an unfence has been asked for since
(R121). -/
def execSwapComplete (cyc : Nat) (s : State) : Host.Outcome State Fault Refusal :=
  match s.fab.swapTarget with
  | none => .next s
  | some n =>
    if s.fab.state ≠ .swapping then .next s
    else
      let t := (s.stamp cyc).endSwap n
      match t.planner.running, t.syn.context with
      | some r, c =>
        if !r.entry.isPass then .next t
        else if t.fencePending then .next (t.heldBack r.entry)
        else match r.entry.resume, c with
          | true, some c => .next (t.startRestore c)
          | _, _ => .next t.issuePass
      | none, _ => .next t

end Sys2Proof.Machine
end

