-- ==== Sys2Proof/Machine/Power.lean ====
section
/-! DEFINITION. Power domains, the limiter, temperature, feeds and hot swap (chapter 17): starting and stopping a
domain, cutting it on a fault, stopping all of them in order, and the commands of the chapter but for the resets. -/

namespace Sys2Proof.Machine

/-! ### What a domain holds (Table 17-1) -/

/-- The domains of a part that is off. -/
def freshDomains (p : Part) : List Domain :=
  (List.range 20).map fun d => if p.populated d then {} else { state := .unpopulated }

/-- The quadrant of a tile number. -/
def tileQuad (t : Nat) : Nat := quadOf (t / 512) (t % 32) (t / 32 % 16)

/-- The storage of a quadrant reads as zero (R283). -/
def State.clearQuad (s : State) (q : Nat) : State :=
  { s with
    mem := { s.mem with sram := s.mem.sram.filter fun c => tileQuad (c.1 / 524288) ≠ q }
    mxe := { s.mxe with acc := s.mxe.acc.filter fun c => tileQuad (c.1 / 65536) ≠ q
                        sets := s.mxe.sets.filter fun c => tileQuad (c.1 / 2) ≠ q
                        setPads := s.mxe.setPads.filter fun c => tileQuad (c.1 / 2) ≠ q
                        closed := s.mxe.closed.filter fun k => tileQuad (k / 16) ≠ q
                        marked := s.mxe.marked.filter fun k => tileQuad (k / 16) ≠ q
                        setSeen := s.mxe.setSeen.filter fun c => tileQuad (c.1 / 65536) ≠ q
                        overflowed := s.mxe.overflowed.filter fun k => tileQuad (k / 65536) ≠ q } }

/-- The contents of an HBM stack are lost; it and its insole are in a state. -/
def State.loseStack (s : State) (n : Nat) (state : StackState) : State :=
  let lo := 68 * (n * 2 ^ 30)
  s.setInsole n { s.insole n with state := state, lines := [], plru := [] } (clearBytes s.mem.hbm lo (lo + 68 * 2 ^ 30))

/-- A stack switches off in order: its insole first writes back every dirty sector (R261). -/
def State.stackOff (s : State) (n : Nat) : State :=
  let (i, h) := flush n (s.insole n) s.mem.hbm
  (s.setInsole n i h).loseStack n .off

/-- A store group switches off (Table 9-10). -/
def State.storeOff (s : State) (g : Nat) : State :=
  let t := (List.range 4).foldl (fun (t : State) i => t.modStoreStack (4 * g + i) fun x =>
    { x with state := .off, touched := [] }) s
  t.abandonOp.storeLost

/-- What a domain holds goes into service (Table 17-4). During start-up the first run is that of set 0 (Table 18-6).
The working mask keeps its default FFh (Table 1-6) until a domain is ON: its quadrant then leaves the mask, mid-slot,
until the join of R583. DESIGN CHOICE, unsafe (log entry 36). -/
def State.unitsOn (s : State) (d : Nat) : State :=
  if d < 8 then
    let tests := if s.boot.state = .bringUp then romTests.filter fun p => p.2.destructive else s.ras.tests true
    ((s.clearQuad d).modQuad d fun x =>
      { x.startRun tests with state := .fenced, slice := [], targeted := [], cover := [], covering := false }).judgeService
  else if d < 13 then (s.part.stacksOfGroup (d - 8)).foldl (fun (t : State) n => t.loseStack n .init) s
  else if d < 15 then
    (List.range 4).foldl (fun (t : State) i => t.modStoreStack (4 * (d - 13) + i) fun x => { x with state := .init }) s
  else if d < 18 then (s.part.eyeletsOfGroup (d - 15)).foldl State.eyeletOn s
  else if d = 18 then s.linkOn
  else s

/-- What a domain holds leaves service in order. -/
def State.unitsOff (s : State) (d : Nat) : State :=
  if d < 8 then
    (s.clearQuad d).modQuad d fun x => { x with state := .off, run := [], running := false, awlClean := false, slice := [] }
  else if d < 13 then (s.part.stacksOfGroup (d - 8)).foldl State.stackOff s
  else if d < 15 then s.storeOff (d - 13)
  else if d < 18 then (s.part.eyeletsOfGroup (d - 15)).foldl State.eyeletOff s
  else if d = 18 then s.linkOff
  else s

/-! ### Starting and stopping (R539 to R542) -/

/-- A domain begins STARTING. -/
def State.startDomain (s : State) (d : Nat) : State :=
  s.modDomain d fun x => { x with state := .starting, pending := 0, minOff := false, disableAsked := false
                                  since := s.clock, starts := sat 32 (x.starts + 1) }

/-- A domain begins STOPPING. -/
def State.stopDomain (s : State) (d : Nat) : State :=
  (s.modDomain d fun x => { x with state := .stopping, disableAsked := false, pending := 0, since := s.clock }).unitsOff d

/-- Whether a domain is OFF, in FAULT or UNPOPULATED. -/
def DomainState.down : DomainState → Bool
  | .off | .fault | .unpopulated => true
  | .starting | .on | .stopping => false

/-- XU is ON, or the domain is XU (R541). -/
def State.xuFor (s : State) (d : Nat) : Bool := d = 19 || s.domainOn 19

/-- One more enable is pending. -/
def State.addPending (s : State) (d : Nat) : State :=
  s.modDomain d fun x => { x with pending := min 15 (x.pending + 1) }

/-- An enable (R540, R541), with its status. No domain is enabled while the domains are being stopped in order, or
wait for a restart. -/
def State.enableDomain (s : State) (d : Nat) : Nat × State :=
  let x := s.domain d
  if x.state = .unpopulated then (Status.NOT_PRESENT, s)
  else if !s.xuFor d || s.pwr.stopping.isSome || s.pwr.shutDown || s.pwr.ejectReady then (Status.VALUE_STATE, s)
  else match x.state with
    | .off => (Status.OK, if x.minOff then s.addPending d else s.startDomain d)
    | .fault => if x.fault = 0 then (Status.OK, s.startDomain d) else (Status.VALUE_STATE, s)
    | .stopping => (Status.OK, s.addPending d)
    | .starting | .on | .unpopulated => (Status.OK, s)

/-- Whether a disable by command is accepted (Table 17-5). -/
def State.mayDisable (s : State) (d : Nat) : Bool :=
  if d < 8 then (s.quad d).state = .fenced
  else if d < 13 then
    !s.part.systemGroups.contains (d - 8) && s.store.active.isNone && s.store.old.isNone && s.store.staged.isNone &&
      s.store.staging.isNone && !s.anyStream
  else if d < 15 then true
  else if d < 18 then false
  else if d = 18 then !s.anyStream && s.store.opState != .running
  else (List.range 19).all fun k => (s.domain k).state.down

/-- A disable by command, with its status. -/
def State.disableDomain (s : State) (d : Nat) : Nat × State :=
  let x := s.domain d
  if x.state = .unpopulated then (Status.NOT_PRESENT, s)
  else if x.pending != 0 then (Status.OK, s.modDomain d fun y => { y with pending := 0 })
  else if !s.mayDisable d then (Status.VALUE_STATE, s)
  else match x.state with
    | .on => (Status.OK, s.stopDomain d)
    | .starting => (Status.OK, s.modDomain d fun y => { y with disableAsked := true })
    | .off | .stopping | .fault | .unpopulated => (Status.OK, s)

/-- The commit of PWR_DOMAIN_CMD. -/
def State.commitDomain (s : State) (d value : Nat) : State :=
  let (e, t) := match value with
    | 0 => (Status.OK, s)
    | 1 => s.enableDomain d
    | 2 => s.disableDomain d
    | _ => (Status.VALUE_RANGE, s)
  if e = Status.OK then (t.setReg (Reg.PWR_DOMAIN_CMD + 256 * d) value).status e else s.status e

def execDomainEnable (cyc domain : Nat) (s : State) : Host.Outcome State Fault Refusal :=
  onUnit (domain < 20) ((s.stamp cyc).commitDomain domain 1)

def execDomainDisable (cyc domain : Nat) (s : State) : Host.Outcome State Fault Refusal :=
  onUnit (domain < 20) ((s.stamp cyc).commitDomain domain 2)

/-! ### Stopping all domains in order (R554, R556, R566) -/

/-- The order of a reset and of a power-fail shut-down; the two parts of that of a drain. -/
def stopOrder : List (List Nat) :=
  [[0, 1, 2, 3, 4, 5, 6, 7], [8, 9, 10, 11, 12], [15, 16, 17], [18], [13, 14], [19]]
def drainFirst : List (List Nat) := [[0, 1, 2, 3, 4, 5, 6, 7], [8, 9, 10, 11, 12], [15, 16, 17]]
def drainLast : List (List Nat) := [[18], [13, 14], [19]]

/-- The domains of a group that are up begin to stop; one that is STARTING stops when it is ON. -/
def State.stopGroup (s : State) (g : List Nat) : State :=
  g.foldl (fun (t : State) d =>
    match (t.domain d).state with
    | .on => t.stopDomain d
    | .starting => t.modDomain d fun x => { x with disableAsked := true }
    | .stopping => t.modDomain d fun x => { x with pending := 0 }
    | _ => t) s

/-- Groups that are down are passed over, and the first that is not begins to stop. Fuel bounds the groups. -/
def State.stopNext : Nat → State → State
  | 0, s => s
  | n + 1, s =>
    match s.pwr.stopLeft with
    | [] => s
    | g :: rest =>
      if g.all fun d => (s.domain d).state.down then State.stopNext n { s with pwr := { s.pwr with stopLeft := rest } }
      else s.stopGroup g

/-- After the first part of a drain PWR_EJECT_READY is raised; the second part begins once the event ring holds it,
or has lost it (R556). -/
def State.drainOn (s : State) : State :=
  match s.pwr.stopping, s.pwr.stopLeft with
  | some .eject, [] =>
    if s.pwr.ejectWritten then s
    else
      let t := if s.pwr.ejectNotices then s
        else ({ s with pwr := { s.pwr with ejectNotices := true } }.raise 0x0C09 0 s.effectiveCap s.pwr.k).pump
      if t.srv.eventQueue.isEmpty then
        State.stopNext 8 { t with pwr := { t.pwr with ejectWritten := true, stopLeft := drainLast } }
      else t
  | _, _ => s

/-- A power-fail shut-down that has stopped every domain is over: the module waits. -/
def State.shutEnds (s : State) : State :=
  match s.pwr.stopping, s.pwr.stopLeft with
  | some .powerFail, [] => { s with pwr := { s.pwr with stopping := none } }
  | _, _ => s

/-- A domain of the sequence has gone down. The end of a reset's sequence is taken by the next slot boundary or the
release of the reset pin. -/
def State.stopOn (s : State) : State :=
  if s.pwr.stopping.isSome then (State.stopNext 8 s).drainOn.shutEnds else s

/-- The domains begin to stop in an order: the running pass is lost and nothing more is planned. -/
def State.beginStop (s : State) (reason : StopReason) (order : List (List Nat)) : State :=
  let p := s.planner
  let t := { s with planner := { p with plan := [], moved := [], running := none }
                    pwr := { s.pwr with stopping := some reason, stopLeft := order } }
  let t := if p.running.isSome then t.quiesce else t
  t.stopOn

/-! ### Faults (R543, R552, R616) -/

/-- A domain's rails are cut: it is in FAULT, with an event and a record, and what it held follows. `bits_` are FAULT
bits. -/
def State.cutDomain (s : State) (d : Nat) (bits_ : BitVec 16) : State :=
  let x := s.domain d
  if x.state = .off || x.state = .unpopulated then s
  else if x.state = .fault then s.modDomain d fun y => { y with fault := y.fault ||| bits_ }
  else
    let t := s.modDomain d fun y => { y with state := .fault, fault := y.fault ||| bits_, pending := 0, minOff := false
                                             disableAsked := false }
    let t := t.raise 0x0C01 d t.effectiveCap t.pwr.k
    let pass := d < 8 && s.fab.state = .running && s.planner.running.isSome
    let fatal := (8 ≤ d && d < 13) || d = 19
    let was := (s.quad d).state
    let t := t.record
      { source := 0x12, causeClass := 4
        quadrant := if d < 8 then some d else none
        die := if d < 8 then some (d / 4) else none
        actions := (if pass then actVoided else 0) + (if d < 8 then actFence else 0) + (if fatal then actOutOfService else 0)
        detail := le 1 d ++ le 1 0 ++ le 2 (t.domain d).fault.toNat }
    if d < 8 then
      let t := t.clearQuad d
      let t := if pass then { t with syn := { t.syn with phase := .none } }.startVoid 6 else t
      t.modQuad d fun y => { y with state := if was.inMask then .fencing else .off, source := 0x12, cause := 0, run := []
                                    running := false, awlClean := false, slice := [] }
    else if d < 13 then
      let t := (s.part.stacksOfGroup (d - 8)).foldl (fun (t : State) n => (t.loseStack n .failed).raise 0x0503 n 0 0) t
      t.outOfService
    else if d = 19 then t.outOfService
    else t.unitsOff d

/-- A cut of a domain, and what follows for a sequence under way. -/
def State.failDomain (s : State) (d : Nat) (bits_ : BitVec 16) : State := (s.cutDomain d bits_).stopOn

/-- DOMAIN_RAIL_FAULT. -/
def execDomainRailFault (cyc domain : Nat) (bits : BitVec 16) (s : State) : Host.Outcome State Fault Refusal :=
  onUnit (domain < 20) (if bits &&& 0x1F = 0 then s else (s.stamp cyc).failDomain domain (bits &&& 0x1F))

/-- Bounds of Table 17-4 on STARTING and on STOPPING, in fabric cycles. -/
def startBound (d : Nat) : Nat :=
  if d < 8 then 500000 else if d < 13 then 1250000 else if d < 15 then 2500000 else if d < 18 then 1250000
  else if d = 18 then 250000 else 2500000
def stopBound (d : Nat) : Nat :=
  if d < 8 then 62500 else if d < 13 then 625000 else if d < 15 then 6250000 else if d < 18 then 125000
  else if d = 18 then 62500 else 125000

/-- DOMAIN_TIMEOUT (R541): a domain that exceeds its bound enters FAULT. -/
def execDomainTimeout (cyc domain : Nat) (s : State) : Host.Outcome State Fault Refusal :=
  onUnit (domain < 20) (
    let t := s.stamp cyc
    let took := t.clock - (s.domain domain).since
    match (s.domain domain).state with
    | .starting => if startBound domain < took then t.failDomain domain 4 else s
    | .stopping => if stopBound domain < took then t.failDomain domain 8 else s
    | _ => s)

/-- FAULT_CLEAR: a write of PWR_DOMAIN_STATUS acts on its W1C field (R560). -/
def State.clearFault (s : State) (d : Nat) (value : BitVec 32) : State :=
  s.modDomain d fun x => { x with fault := x.fault &&& ~~~(value.truncate 16) }

def execFaultClear (domain : Nat) (value : BitVec 32) (s : State) : Host.Outcome State Fault Refusal :=
  onUnit (domain < 20) (s.clearFault domain value)

/-- DOMAIN_START_COMPLETE: what the domain holds goes into service; a disable that waited stops it in the same cycle;
starts that waited for XU follow. -/
def execDomainStartComplete (cyc domain : Nat) (s : State) : Host.Outcome State Fault Refusal :=
  onUnit (domain < 20) (
    match (s.domain domain).state with
    | .starting =>
      let t := ((s.stamp cyc).modDomain domain fun x => { x with state := .on }).unitsOn domain
      if (s.domain domain).disableAsked then (t.stopDomain domain).stopOn
      else if domain = 19 then
        (List.range 19).foldl (fun (t : State) d =>
          let x := t.domain d
          if x.state = .off && x.pending != 0 && !x.minOff then t.startDomain d else t) t
      else t
    | _ => s)

/-- DOMAIN_STOP_COMPLETE. -/
def execDomainStopComplete (cyc domain : Nat) (s : State) : Host.Outcome State Fault Refusal :=
  onUnit (domain < 20) (
    match (s.domain domain).state with
    | .stopping =>
      let t := s.stamp cyc
      (t.modDomain domain fun x => { x with state := .off, minOff := true, since := t.clock }).stopOn
    | _ => s)

/-- MIN_OFF_TIME_EXPIRY: 200 µs after the stop a pending start begins. -/
def execMinOffTimeExpiry (cyc domain : Nat) (s : State) : Host.Outcome State Fault Refusal :=
  onUnit (domain < 20) (
    let x := s.domain domain
    if x.state ≠ .off || !x.minOff || (s.stamp cyc).clock < x.since + 250000 then s
    else
      let t := (s.stamp cyc).modDomain domain fun y => { y with minOff := false }
      if x.pending ≠ 0 && s.xuFor domain then t.startDomain domain else t)

/-- Every switched domain is cut, with FAULT bits, and the module is OUT_OF_SERVICE. -/
def State.cutAll (s : State) (bits_ : BitVec 16) : State :=
  ((List.range 20).foldl (fun (t : State) d => t.cutDomain d bits_) s).outOfService.stopOn

/-- THERMAL_TRIP (R552). -/
def execThermalTrip (cyc sensor : Nat) (s : State) : Host.Outcome State Fault Refusal :=
  if s.pwr.trip then .next s
  else
    let t := { s.stamp cyc with pwr := { s.pwr with trip := true } }
    .next ((t.cutAll 16).raise 0x0C06 sensor t.effectiveCap t.pwr.k)

/-- VIN_UNDERVOLTAGE (R616). -/
def execVinUndervoltage (cyc : Nat) (s : State) : Host.Outcome State Fault Refusal :=
  if s.pwr.underVoltage then .next s
  else .next ({ s.stamp cyc with pwr := { s.pwr with underVoltage := true } }.cutAll 2)

/-- VIN_CORE_LOSS: nothing of the module works until the next POWER_ON. -/
def execVinCoreLoss (s : State) : Host.Outcome State Fault Refusal :=
  .next { s with pwr := { s.pwr with underVoltage := true, coreOff := true } }

/-! ### The limiter (R546 to R551) -/

/-- The effect of a cap that has changed: σ follows, and the plan is costed again (R64, R547). -/
def State.capChanged (s : State) : State :=
  let t := s.followCap
  if t.pwr.k = s.pwr.k then t else t.recostPlan false

/-- PWR_CAP_FAST is raised when a level changes the cap. -/
def State.capFastEvent (s before : State) : State :=
  if s.sigmaCap = before.sigmaCap then s else s.raise 0x0C04 0 s.effectiveCap s.pwr.k

/-- CAP_FAST_LEVEL_CHANGE (R549): a level that does not raise the cap applies now and is costed at the next boundary;
one that raises it waits until it has been stable for a full slot. -/
def execCapFastLevelChange (cyc level : Nat) (s : State) : Host.Outcome State Fault Refusal :=
  onUnit (level < 4) (
    let s := s.stamp cyc
    let u := { s with pwr := { s.pwr with fastLevel := level, fastNext := none } }
    if level = s.pwr.fastLevel then { s with pwr := { s.pwr with fastNext := none } }
    else if u.sigmaCap ≤ s.sigmaCap then
      { u.followCap with pwr := { u.followCap.pwr with recost := true } }.capFastEvent s
    else { s with pwr := { s.pwr with fastNext := some (level, cyc == 0) } })

/-- A level that waits applies at the first boundary at which it has been stable for a full slot. -/
def State.fastBoundary (s : State) : State :=
  match s.pwr.fastNext with
  | none => s
  | some (l, false) => { s with pwr := { s.pwr with fastNext := some (l, true) } }
  | some (l, true) =>
    let t := { s with pwr := { s.pwr with fastLevel := l, fastNext := none, recost := true } }
    t.followCap.capFastEvent s

/-- The commit of PWR_CAP or of a CAP_FAST cap, subindices 01h and 03h to 05h of 6020h. -/
def State.commitCap (s : State) (sub value : Nat) : State :=
  if s.part.minCap ≤ value && value ≤ s.part.maxSustained then
    (s.setReg (0x602000 + sub) value).capChanged.status Status.OK
  else s.status Status.VALUE_RANGE

/-- The commit of PWR_GUARANTEE_FLOOR (R550), from the floor in force before: class 0 is costed at the new σ(floor). -/
def State.commitFloor (s : State) (before value : Nat) : State :=
  if value < s.part.minCap || s.part.maxSustained < value then s.status Status.VALUE_RANGE
  else if s.reg Reg.PWR_CAP < value then s.status Status.VALUE_STATE
  else
    let t := (s.setReg Reg.PWR_GUARANTEE_FLOOR value).followCap
    let t := if value < before then { t with planner := { t.planner with rerun := some 2 } } else t
    t.retemplate.status Status.OK

/-! ### Temperature (R552) -/

/-- The thermal cap at a slot boundary, from the hottest sensor in hundredths of a degree. A step is 5 % of the maximum
sustained figure, kept in half watts. -/
def State.thermalBoundary (s : State) (temperature : Int) (frame : Bool) : State :=
  let limit : Int := s.reg Reg.PWR_THERMAL_LIMIT * 100
  let p := { s.pwr with tempMax := temperature }
  let step := s.part.maxSustained / 10
  if limit < temperature then
    let t := { s with pwr := { p with thermalDrop := min (p.thermalDrop + step) (2 * (s.part.maxSustained - s.part.minCap))
                                      coolSlots := 0, thermalRaised := true, recost := true } }.followCap
    if s.pwr.thermalRaised then t else t.raise 0x0C05 0 t.effectiveCap t.pwr.k
  else
    let cool := if temperature ≤ limit - 300 then min 160 (p.coolSlots + 1) else 0
    let p := { p with coolSlots := cool, thermalRaised := false }
    if frame && cool = 160 && p.thermalDrop != 0 then
      { s with pwr := { p with thermalDrop := p.thermalDrop - step, recost := true } }.followCap
    else { s with pwr := p }

/-! ### Hold-up (R554) -/

/-- PWR_FAIL_WARN. -/
def execPwrFailWarn (cyc : Nat) (s : State) : Host.Outcome State Fault Refusal :=
  if s.pwr.warn then .next s
  else
    let s := s.stamp cyc
    let t := { s with pwr := { s.pwr with warn := true, warnAt := s.clock, warnings := sat 32 (s.pwr.warnings + 1) } }
    .next (t.raise 0x0C07 0 t.effectiveCap t.pwr.k)

/-- PWR_FAIL_WARN_CLEAR: a shut-down that has begun completes. -/
def execPwrFailWarnClear (s : State) : Host.Outcome State Fault Refusal :=
  .next { s with pwr := { s.pwr with warn := false, releasedAt := s.clock } }

/-- POWER_FAIL_SHUTDOWN, at t_w + H − 7 ms. -/
def execPowerFailShutdown (cyc : Nat) (s : State) : Host.Outcome State Fault Refusal :=
  if !s.pwr.warn || s.pwr.shutDown || (s.stamp cyc).clock < s.warnLimit then .next s
  else .next ({ s.stamp cyc with pwr := { s.pwr with shutDown := true } }.beginStop .powerFail stopOrder)

/-! ### Orderly removal (R555, R556) -/

/-- EJECT_REQ: a drain begins at the next slot boundary; not at one whose pulse has already come (R18). -/
def execEjectReq (s : State) : Host.Outcome State Fault Refusal :=
  if s.pwr.hotSwap = .inService then 
    .next { s with pwr := { s.pwr with ejectAsked := true, ejectLate := s.tb.boundaryDue && (!s.pwr.ejectAsked || s.pwr.ejectLate) } }
  else .next s

/-- The drain begins at D. While ACQUIRING no frame opens: EFFECTIVE is then the next boundary of slot 0. -/
def State.startDrain (s : State) : State :=
  if !s.pwr.ejectAsked || s.pwr.hotSwap != .inService then s
  else if s.pwr.ejectLate then { s with pwr := { s.pwr with ejectLate := false } }
  else
    let e := s.tb.frame
    let due := if s.tb.state = TbState.acquiring then 0 else e + 2
    let t : State := { s with pwr := { s.pwr with ejectAsked := false, hotSwap := .draining
                                                  drainStart := s.tb.boundaryFst, drainFrame := some due } }
    let t := t.raise 0x0C08 0 t.effectiveCap t.pwr.k
    let t : State := t.abandonOp.abandonStaging
    if t.lce.laces.any fun a => a.state = .up || a.state = .narrow then t.startLeaving (fstOf (e + 2) 0 0) else t

/-- EFFECTIVE has come: no pass is planned any more, and every stream ends. -/
def State.drainFrame (s : State) : State :=
  match s.pwr.drainFrame with
  | some f =>
    if s.pwr.hotSwap = .draining && !s.pwr.drainEffective && f ≤ s.tb.frame && s.tb.slot = 0 then
      let t := { s with pwr := { s.pwr with drainEffective := true, effectiveAt := s.clock }
                        planner := { s.planner with plan := [], moved := [] } }
      t.endAll Status.MODULE_EJECTED
    else s
  | none => s

/-- Nothing keeps the domains from being stopped: no pass, no notice, event or record that waits, no lace LEAVING. -/
def State.drained (s : State) : Bool :=
  s.pwr.drainEffective && s.pwr.stopping.isNone && s.planner.running.isNone && s.srv.noticesLater.isEmpty &&
    (s.srv.notices.all fun e => e.2.isEmpty) && s.hlk.ordered.isEmpty && s.srv.eventQueue.isEmpty &&
    s.ras.persistWrite.isNone && s.lce.laces.all fun a => a.state != .leaving

/-- What a drain does at a slot boundary. -/
def State.drainBoundary (s : State) : State :=
  if s.pwr.hotSwap ≠ .draining then s
  else if s.drained then s.beginStop .eject drainFirst
  else s.stopOn

/-- EJECT_NOTICE_TIMEOUT: notices that still wait 40 slots after EFFECTIVE are dropped. -/
def execEjectNoticeTimeout (cyc : Nat) (s : State) : Host.Outcome State Fault Refusal :=
  let n := ((s.srv.notices ++ s.srv.noticesLater).map fun e => e.2.length).sum
  if !s.pwr.drainEffective || n = 0 || (s.stamp cyc).clock < s.pwr.effectiveAt + 40 * 156250 then .next s
  else .next ({ s.stamp cyc with srv := { s.srv with notices := [], noticesLater := [] } }.raise 0x070E n 0 0)

/-- EJECT_READY: XU is OFF at the end of the drain. -/
def execEjectReady (cyc : Nat) (s : State) : Host.Outcome State Fault Refusal :=
  if s.pwr.stopping = some .eject && s.pwr.ejectWritten && (s.domain 19).state.down then
    .next { s.stamp cyc with pwr := { s.pwr with hotSwap := .readyToRemove, ejectReady := true, stopping := none
                                                 stopLeft := [] } }
  else .next s

/-! ### Surprise removal (R558) -/

/-- SURPRISE_REMOVAL: every transmitter goes dark, and no write to the store or to the host follows. -/
def execSurpriseRemoval (s : State) : Host.Outcome State Fault Refusal :=
  if s.pwr.ejectReady || s.pwr.presenceBroken then .next s
  else
    let t := { s with pwr := { s.pwr with presenceBroken := true }
                      hlk := { s.hlk with waitCredit := s.hlk.waitCredit.filter fun o => !o.access.write
                                          waitTranslation := s.hlk.waitTranslation.filter fun a => !a.write } }
    .next ((List.range 6).foldl State.eyeletOff t)

/-- FAULT_L is low (Table 21-2). -/
def State.faultLow (s : State) : Bool :=
  s.boot.state = .bootFailed || s.ras.service = .outOfService || s.pwr.trip || s.pwr.presenceBroken

end Sys2Proof.Machine
end

