-- ==== Sys2Proof/Machine/Security.lean ====
section
/-! DEFINITION. Keys, ownership, attestation, the security version and the debug lock (chapter 19). -/

namespace Sys2Proof.Machine

/-! ### Key records (R593) -/

/-- A key record (Table 19-3). -/
def parseKey (b : List Byte) : KeyRec :=
  { kind := field b 4 1, serial := field b 8 4, usage := field b 0x0C 2, seq := field b 0x10 4, key := slice b 0x20 97
    raw := b }

/-- The layout of a key record. -/
def keyFormat (b : List Byte) : Bool :=
  let x := parseKey b
  let signing := 1 ≤ x.serial && x.serial ≤ 0x7FFFFFFF
  field b 0 4 = 0x59454B4C && zeros b 5 3 && zeros b 0x0E 2 && zeros b 0x14 12 && zeros b 0x81 31 &&
    match x.kind with
    | 1 => signing && x.usage < 16
    | 2 => signing && x.usage = 0 && zeros b 0x20 97
    | 3 => x.serial = 0xFFFFFFF1 && x.usage = 0
    | _ => false

/-- A record that has passed every check is added. A ROOT_ROLL whose key hashes to the fuse of slot 1 makes it the
root. -/
def Security.addKey (c : Security) (x : KeyRec) : Security :=
  let c := { c with keySeq := max c.keySeq x.seq }
  match x.kind with
  | 1 => { c with keys := c.keys.filter (fun k => !(k.kind = 1 && k.serial = x.serial)) ++ [x] }
  | 2 => { c with keys := c.keys.filter (fun k => !(k.kind = 1 && k.serial = x.serial)) ++ [x]
                  revoked := c.revoked ++ [x.serial] }
  | _ => { c with keys := c.keys ++ [x]
                  rootSlot := if c.rootSlot = 0 && Config.sha384 x.key = Config.rootHash 1 then 1 else c.rootSlot }

/-- The records verify in order, up to the first that fails. -/
def State.verifyKeys (s : State) : List (List Byte) → Bool × State
  | [] => (true, s)
  | b :: bs =>
    let x := parseKey b
    let (ok, t) := s.verify .keyRecord b
    if ok && keyFormat b && s.sec.keySeq < x.seq && !s.sec.revoked.contains x.serial then t.verifyKeys bs else (false, t)

/-- The commit of SEC_KEY_UPDATE. -/
def State.commitKeys (s : State) (records : List Byte) : State :=
  let n := records.length / 320
  if records.length % 320 ≠ 0 || n = 0 || 64 < n then s.status Status.VALUE_RANGE
  else
    let rs := pieces 320 64 records
    let (ok, t) := s.verifyKeys rs
    if !ok then t.status Status.VALUE_STATE
    else
      let last := (rs.getLast?.map fun b => (parseKey b).serial).getD 0
      let u := { t with sec := (rs.map parseKey).foldl Security.addKey t.sec }.setBlob Reg.SEC_KEY_UPDATE records
      (u.raise 0x0E06 last u.tb.boundaryFst 0).status Status.OK

def execKeyUpdate (cyc : Nat) (records : List Byte) (s : State) : Host.Outcome State Fault Refusal :=
  .next ((s.stamp cyc).commitKeys records)

/-! ### Tickets (R595 to R597, R602) -/

/-- SEC_TICKET_NONCE. -/
def Security.nonceBytes (c : Security) : List Byte := (List.range 32).map (Config.entropy c.nonce)

/-- SEC_TICKET_NONCE takes new bytes. -/
def State.newNonce (s : State) : State := { s with sec := { s.sec with nonce := s.sec.nonce + 1 } }

/-- Layout, KIND, SERIAL and NONCE of a ticket (Table 19-4). -/
def State.ticketFits (s : State) (b : List Byte) (kind : Nat) : Bool :=
  b.length = 320 && field b 0 4 = 0x544B544C && field b 4 1 = kind && zeros b 6 2 && slice b 8 12 = serial &&
    zeros b 0x14 4 && slice b 0x18 32 = s.sec.nonceBytes && zeros b 0x99 7 &&
    (if kind = 1 then field b 5 1 < 2 else field b 5 1 = 0 && zeros b 0x38 97)

/-- The enrolment slot of the owner, 1 to 4; 0 for none. -/
def Security.ownerSlot (c : Security) : Nat :=
  ((c.owners.findIdx? fun o => match o with
    | .enrolled _ _ => true
    | _ => false).map (· + 1)).getD 0

/-- SEC_OWNER_SLOTS_FREE. -/
def Security.slotsFree (c : Security) : Nat := (c.owners.filter (· = .free)).length

/-- SEC_OWNER_KEY_HASH. -/
def Security.ownerHash (c : Security) : List Byte :=
  (c.owners.findSome? fun o => match o with
    | .enrolled h _ => some h
    | _ => none).getD []

/-- An ENROL ticket (R596). -/
def State.enrol (s : State) (b : List Byte) : State :=
  match s.sec.owners.findIdx? (· = .free) with
  | some i =>
    if s.sec.ownerSlot = 0 then
      let key := slice b 0x38 97
      let c := { s.sec with owners := s.sec.owners.set i (.enrolled (sha384 key) key), ownerFw := bit (field b 5 1) 0
                            ownerFresh := true }
      ({ s with sec := c }.raise 0x0E04 (i + 1) s.tb.boundaryFst 0).status Status.OK
    else s.status Status.VALUE_STATE
  | none => s.status Status.VALUE_STATE

/-- Whether an owner's package or adapter set is staged or staging (R597). -/
def State.ownerStaged (s : State) : Bool :=
  let held := s.store.active.toList ++ s.store.old.toList ++ s.store.staged.toList ++ (s.store.staging.map (·.target)).toList
  held.any fun r => r.manifest.signer = 2 || (s.store.setsOf r.manifest.tag).any fun p =>
    p.manifest.signer = 2 && p.manifest.adapters.any fun a => r.adapters.contains a.id

/-- A RELEASE ticket (R597). -/
def State.release (s : State) : State :=
  let n := s.sec.ownerSlot
  if n = 0 || s.ownerStaged || s.boot.signer = 2 then s.status Status.VALUE_STATE
  else
    let c := { s.sec with owners := s.sec.owners.set (n - 1) .revoked, ownerFw := false }
    ({ s with sec := c }.raise 0x0E05 n s.tb.boundaryFst 0).status Status.OK

/-- A DEBUG_UNLOCK ticket (R602). -/
def State.unlockDebug (s : State) : State :=
  { s with sec := { s.sec with debug := if s.sec.debug = DebugState.opn then .opn else .unlockPending } }.status Status.OK

/-- The commit of SEC_TICKET of a KIND, and of SEC_TICKET_COSIGN: a co-signed ticket says the same in both. The nonce
changes whatever the outcome. -/
def State.commitTicket (s : State) (kind : Nat) (ticket cosign : List Byte) : State :=
  let signed := kind = 3 && s.sec.ownerSlot != 0
  let item := match kind with
    | 1 => Item.enrol
    | 2 => Item.release
    | _ => Item.debugUnlock
  let (ok, t) := s.verify item ticket
  let (both, t) := if ok && signed then t.verify .cosign cosign else (ok, t)
  let fits := (kind = 1 || kind = 2 || kind = 3) && s.ticketFits ticket kind &&
    (!signed || (s.ticketFits cosign 3 && cosign.take 160 = ticket.take 160))
  if !ok || !both || !fits then t.newNonce.status Status.VALUE_STATE
  else
    let t := (t.setBlob Reg.SEC_TICKET ticket).newNonce
    match kind with
    | 1 => t.enrol ticket
    | 2 => t.release
    | _ => (t.setBlob Reg.SEC_TICKET_COSIGN cosign).unlockDebug

def execEnrolTicket (cyc : Nat) (ticket : List Byte) (s : State) : Host.Outcome State Fault Refusal :=
  .next ((s.stamp cyc).commitTicket 1 ticket [])

def execReleaseTicket (cyc : Nat) (ticket : List Byte) (s : State) : Host.Outcome State Fault Refusal :=
  .next ((s.stamp cyc).commitTicket 2 ticket [])

def execDebugUnlockTicket (cyc : Nat) (ticket cosign : List Byte) (s : State) : Host.Outcome State Fault Refusal :=
  .next ((s.stamp cyc).commitTicket 3 ticket cosign)

/-! ### Device identity and the certificate chain (R598, R599) -/

/-- Codes of the security states. -/
def Security.debugCode (c : Security) : Nat := DebugState.code c.debug

/-- The module's device identity key, which no reset changes. -/
def deviceKey : List Byte := Config.identityKey Config.uniqueSecret

/-- The certificate of the identity key: subject serialNumber is SEC_SERIAL, and the product CA issues it. -/
def identityCertificate : Certificate :=
  { issuer := .productCa, subject := .identity, serialNumber := some serial, key := deviceKey }

/-- The certificates that stand behind the alias certificate, leaf first: they never change. -/
def fixedChain : List Certificate :=
  [identityCertificate, { issuer := .root, subject := .productCa, key := Config.productKey },
   { issuer := .root, subject := .root, key := Config.rootKey }]

/-- The alias certificate of an attestation key. -/
def aliasCertificate (key : List Byte) : Certificate := { issuer := .identity, subject := .alias_, key := key }

/-- The attestation key takes the DIGEST of a firmware that has verified and SEC_DEBUG_STATE. -/
def Security.deriveAttestation (c : Security) (digest : List Byte) : Security :=
  { c with attestKey := some (Config.attestationKey Config.uniqueSecret digest c.debugCode) }

/-- SEC_CERT_CHAIN. Until a bank has verified there is no alias certificate in it: DESIGN CHOICE, safe (log
entry 15). -/
def Security.certChain (c : Security) : List Byte :=
  (c.attestKey.map fun k => Config.der (aliasCertificate k) c.certDraw).getD [] ++ fixedChain.flatMap (Config.der · 0)

/-! ### Attestation (R600) -/

/-- The 256 bytes that a report signs (Table 19-5), at a commit boundary. -/
def State.reportBody (s : State) (nonce : List Byte) : List Byte :=
  let c := s.sec
  let flags := ofBit (c.debug != .locked) + 2 * ofBit (c.ownerSlot != 0) + 4 * ofBit (s.boot.signer = 2) +
    8 * ofBit s.boot.trialBoot
  ascii "ATST" ++ le 2 1 ++ le 2 flags ++ serial ++ le 1 s.part.code ++ le 1 0 ++ le 2 0x00B1 ++ le 8 s.tb.boundaryFst ++
  nonce ++ le 4 (Config.fuse Reg.SEC_BOOT_ROM_VERSION) ++ le 4 s.boot.version ++ le 2 s.boot.securityVersion ++
  le 2 c.minSvn ++ le 1 s.boot.signer ++ le 1 c.ownerSlot ++ le 1 c.rootSlot ++ le 1 c.debugCode ++
  padTo s.boot.digest 48 ++ padTo c.ownerHash 48 ++ le 8 s.store.packageTag ++ le 4 s.store.epoch ++ le 1 s.mask ++
  le 1 s.ras.claimMode ++ le 2 0 ++ padTo ((s.store.baseManifest.map (·.digest)).getD []) 48 ++ le 8 s.activeTag ++
  le 4 c.keySeq ++ le 4 0

/-- The commit of SEC_ATTEST_NONCE. -/
def State.commitAttest (s : State) (nonce : List Byte) : State :=
  if nonce.length ≠ 32 then s.status Status.VALUE_RANGE
  else if s.sec.attest = .generating then s.status Status.VALUE_STATE
  else
    let t := { s with sec := { s.sec with attest := .generating, report := s.reportBody nonce } }
    (t.setBlob Reg.SEC_ATTEST_NONCE nonce).status Status.OK

def execAttestRequest (cyc : Nat) (nonce : List Byte) (s : State) : Host.Outcome State Fault Refusal :=
  .next ((s.stamp cyc).commitAttest nonce)

/-- The signature block of a report (Table 7-12): r and s are made by the attestation key. -/
def Security.attestBlock (c : Security) (body : List Byte) : List Byte :=
  le 2 1 ++ le 1 3 ++ le 1 0 ++ le 4 0 ++ sha384 body ++
    (List.range 96).map (Config.attestSignature (c.attestKey.getD []) c.signDraw) ++ le 8 0

/-- ATTEST_REPORT_READY. -/
def execAttestReportReady (cyc : Nat) (s : State) : Host.Outcome State Fault Refusal :=
  if s.sec.attest ≠ .generating then .next s
  else
    let b := s.sec.report
    let c := { s.sec with attest := .ready, report := b ++ s.sec.attestBlock b, signDraw := s.sec.signDraw + 1 }
    .next ({ s.stamp cyc with sec := c }.raise 0x0E08 0 (field b 0x18 8) 0)

/-! ### The security version (R601) -/

/-- The commit of SEC_SVN_RAISE. The minimum is a thermometer of 64 fuses. -/
def State.commitSvn (s : State) (value : Nat) : State :=
  match value with
  | 0 => (s.setReg Reg.SEC_SVN_RAISE 0).status Status.OK
  | 1 =>
    let v := s.boot.securityVersion
    if v ≤ s.sec.minSvn || 64 < v || s.boot.trialBoot then s.status Status.VALUE_STATE
    else
      let t := { s with sec := { s.sec with minSvn := v } }.setReg Reg.SEC_SVN_RAISE 1
      (t.raise 0x0E09 0 t.tb.boundaryFst 0).status Status.OK
  | _ => s.status Status.VALUE_RANGE

def execSvnRaise (cyc : Nat) (s : State) : Host.Outcome State Fault Refusal := .next ((s.stamp cyc).commitSvn 1)

end Sys2Proof.Machine
end

