-- ==== Sys2Proof/Machine/Startup.lean ====
section
/-! DEFINITION. Resets, the boot ROM and firmware, identity memories and the start-up timeline (chapter 18). -/

namespace Sys2Proof.Machine

/-! ### Resets (R562 to R567) -/

/-- Every transaction is rolled back (R491). -/
def Dict.rollBack (d : Dict) (now : Nat) : Dict :=
  let gone := d.txs.map fun x => { x with state := .rolledBack, at_ := now }
  { d with txs := [], ended := (d.ended ++ gone).drop (d.ended.length + gone.length - 32)
           rolledBack := sat 32 (d.rolledBack + gone.length) }

/-- What the flash keeps of a store stack. -/
def StoreStack.kept (x : StoreStack) : StoreStack := { wear := x.wear, spareBlocks := x.spareBlocks, disturb := x.disturb }

/-- Keys, fuses and the boot record outlive every reset; a new nonce is drawn, and no report is left. -/
def Security.afterReset (c : Security) (debug : DebugState) (zero : Bool) : Security :=
  { c with nonce := c.nonce + 1, certDraw := c.certDraw + 1, attestKey := none, attest := .idle, report := [], debug := debug
           sigFailures := if zero then 0 else c.sigFailures }

/-- The boot state at the ROM start after a reset that keeps no counter. -/
def Boot.restarted (b : Boot) (cause : Nat) (uptime : Nat) : Boot :=
  { cause := cause, count := sat 32 (b.count + 1), uptime := uptime, active := b.active, trial := b.trial
    recordSeq := b.recordSeq, bankA := b.bankA, bankB := b.bankB, running := b.running, trialBoot := b.trialBoot
    rollbackDue := b.rollbackDue, resetHeld := b.resetHeld }

/-- What a POWER_ON or MODULE reset leaves of the state but for what only a MODULE reset keeps (Table 18-2). -/
def State.cleared (s : State) (cause uptime : Nat) (debug : DebugState) : State :=
  { part := s.part, pending := s.pending, free := s.free
    store := { flash := s.store.flash.map StoreStack.kept, catalogue := s.store.catalogue
               catalogueSeq := s.store.catalogueSeq }
    ras := { persist := s.ras.persist, storedSets := s.ras.storedSets }
    lce := { laserA := s.lce.laserA, laserB := s.lce.laserB }
    dict := { lastReply := s.dict.lastReply, lastStatus := s.dict.lastStatus }
    pwr := { domains := freshDomains s.part }
    boot := s.boot.restarted cause uptime
    sec := s.sec.afterReset debug true }

/-- A POWER_ON reset. -/
def State.powerOnReset (s : State) (cause : Nat) : State :=
  s.cleared cause 0 (if s.sec.debug = DebugState.opn then .opn else .locked)

/-- A MODULE reset, once the domains have stopped: the time base and the pins go on. -/
def State.moduleReset (s : State) (cause : Nat) : State :=
  let debug := match s.sec.debug with
    | .opn => DebugState.opn
    | .unlockPending => .unlocked
    | .unlocked | .locked => .locked
  let t := s.cleared cause s.boot.uptime debug
  let d := s.dict.rollBack s.fst
  let p := s.pwr
  let t := { t with
    tb := { s.tb with armed := false, load := none, holdSlots := 0, missed := 0, outOfWindow := 0, markFaults := 0 }
    dict := { t.dict with ended := d.ended, nextId := d.nextId, plca := d.plca }
    ras := { t.ras with service := if p.underVoltage then .outOfService else .serving }
    pwr := { t.pwr with warn := p.warn, warnAt := p.warnAt, fastLevel := p.fastLevel, fastNext := p.fastNext
                        inputPower := p.inputPower, inputVoltage := p.inputVoltage, tempMax := p.tempMax
                        underVoltage := p.underVoltage } }
  let t := t.followCap
  if debug = .unlocked then t.raise 0x0E07 0 t.tb.boundaryFst 0 else t

/-- A FIRMWARE reset: the ROM starts, and everything else goes on. -/
def State.firmwareReset (s : State) : State :=
  let b := s.boot
  let debug := if s.sec.debug = DebugState.unlocked then .locked else s.sec.debug
  { s with
    planner := { s.planner with plan := [], moved := [] }
    dict := s.dict.rollBack s.fst
    sec := s.sec.afterReset debug false
    boot := { b with state := .rom, cause := 7, count := sat 32 (b.count + 1), slots := 0, begun := [], completed := []
                     loadState := if b.loadState = LoadState.running then .idle else b.loadState, loadImage := []
                     version := 0, securityVersion := 0, signer := 0, digest := [] } }

/-- Whether the module stands in a MODULE reset, and serves nothing. -/
def State.inReset (s : State) : Bool :=
  match s.pwr.stopping with
  | some (.reset _) => true
  | _ => false

/-- A MODULE reset begins: the domains stop in order (R566). A power-fail shut-down that has begun completes. -/
def State.beginReset (s : State) (cause : Nat) : State :=
  if s.pwr.shutDown || s.pwr.coreOff || s.inReset then s else s.beginStop (.reset cause) stopOrder

/-- A MODULE reset ends once every domain has stopped and MODULE_RST_L is high. -/
def State.resetOn (s : State) : State :=
  match s.pwr.stopping, s.pwr.stopLeft with
  | some (.reset cause), [] => if s.boot.resetHeld then s else s.moduleReset cause
  | _, _ => s

/-- A commanded reset begins once the COMMIT response has been sent (R563). -/
def State.beginCommanded (s : State) : State :=
  match s.boot.restart with
  | some 1 => { s with boot := { s.boot with restart := none } }.beginReset 5
  | some _ => { s with boot := { s.boot with restart := none } }.firmwareReset
  | none => s

/-- The commit of SRV_RESET_CMD (R564). That a store operation must read IDLE is DEDUCED, unsafe (log entry 27). -/
def State.commitReset (s : State) (value : Nat) : State :=
  let set (t : State) : State := (t.setReg Reg.SRV_RESET_CMD value).status Status.OK
  match value with
  | 0 => set s
  | 1 => set { s with boot := { s.boot with restart := some 1 } }
  | 2 =>
    if s.anyStream || s.store.opState != .idle || s.store.switchState != .idle || s.pwr.hotSwap != .inService then
      s.status Status.VALUE_STATE
    else set { s with boot := { s.boot with restart := some 2 } }
  | _ => s.status Status.VALUE_RANGE

def execResetModuleCmd (cyc : Nat) (s : State) : Host.Outcome State Fault Refusal :=
  .next ((s.stamp cyc).commitReset 1).beginCommanded

def execResetFirmwareCmd (cyc : Nat) (s : State) : Host.Outcome State Fault Refusal :=
  .next ((s.stamp cyc).commitReset 2).beginCommanded

/-- MODULE_RESET_PIN. -/
def execModuleResetPin (cyc : Nat) (s : State) : Host.Outcome State Fault Refusal :=
  .next ({ s.stamp cyc with boot := { s.boot with resetHeld := true } }.beginReset 4)

/-- MODULE_RST_L_RELEASE. -/
def execModuleRstLRelease (s : State) : Host.Outcome State Fault Refusal :=
  .next { s with boot := { s.boot with resetHeld := false } }.resetOn

/-- WATCHDOG_EXPIRE (R565). -/
def execWatchdogExpire (cyc : Nat) (s : State) : Host.Outcome State Fault Refusal := .next ((s.stamp cyc).beginReset 6)

/-- POWER_ON: VIN rises into the operating range. -/
def execPowerOn (s : State) : Host.Outcome State Fault Refusal := .next (s.powerOnReset 1)

/-- POWER_FAIL_RESTART (R554): the shut-down is over, the warning released and VIN in range. -/
def execPowerFailRestart (vinGood : Bool) (s : State) : Host.Outcome State Fault Refusal :=
  if s.pwr.shutDown && s.pwr.stopping.isNone && !s.pwr.warn && s.pwr.releasedAt + 1250000 ≤ s.clock && vinGood then
    .next (s.powerOnReset 2)
  else .next s

/-- EJECT_RESTART (R557). -/
def execEjectRestart (s : State) : Host.Outcome State Fault Refusal :=
  if s.pwr.hotSwap = .readyToRemove then .next (s.powerOnReset 3) else .next s

/-! ### Firmware (R571 to R578) -/

/-- The image of bank 0 (A) or 1 (B). -/
def Boot.bank (b : Boot) (n : Nat) : Option FwBank := if n = 0 then b.bankA else b.bankB
def Boot.setBank (b : Boot) (n : Nat) (x : Option FwBank) : Boot :=
  if n = 0 then { b with bankA := x } else { b with bankB := x }

/-- FW_VERSION and SECURITY_VERSION of an image (Table 18-4). -/
def fwVersion (image : List Byte) : Nat := field image 8 4
def fwSecurity (image : List Byte) : Nat := field image 0x0C 2

/-- MAGIC, FORMAT_VERSION, STEPPING and IMAGE_SIZE (R571, R573). -/
def fwHeader (image : List Byte) : Bool :=
  field image 0 4 = 0x444E4149 && bits (field image 4 2) 15 8 = 1 && field image 6 2 = 0x00B1 &&
    field image 0x10 4 = image.length && image.length ≤ 16777216

/-- An image is checked (R573). -/
def State.fwCheck (s : State) (image : List Byte) : Bool × State :=
  if !fwHeader image then (false, s)
  else
    let (ok, t) := s.verify .firmware image
    (ok && s.sec.minSvn ≤ fwSecurity image, t)

/-- Banks are tried in order; the first that verifies boots. -/
def State.tryBanks (s : State) : List Nat → Option Nat × State
  | [] => (none, s)
  | n :: ns =>
    match s.boot.bank n with
    | some x =>
      if x.valid then
        let (ok, t) := s.fwCheck x.image
        if ok then (some n, t) else t.tryBanks ns
      else s.tryBanks ns
    | none => s.tryBanks ns

/-- A bank runs: SEC_FIRMWARE_VERSION and SEC_FIRMWARE_SIGNER take their values (R576), and the attestation key is
derived (R599). -/
def State.runBank (s : State) (n : Nat) : State :=
  let image := ((s.boot.bank n).map (·.image)).getD []
  { s with boot := { s.boot with running := some n, version := fwVersion image, securityVersion := fwSecurity image
                                 signer := sigSigner image, digest := sigDigest image }
           sec := s.sec.deriveAttestation (sigDigest image) }

/-- The ROM chooses a bank (R572, R574, R575). A trial boot that a reset ended before READY is rolled back. -/
def State.chooseBank (s : State) : State :=
  let b := s.boot
  let back := b.trialBoot
  let s := { s with boot := { b with trial := false, trialBoot := false, running := none
                                     recordSeq := if b.trial then b.recordSeq + 1 else b.recordSeq
                                     rollbackDue := b.rollbackDue || back } }
  let r := if b.trial then s.tryBanks [1 - b.active] else (none, s)
  match r.1 with
  | some n => { r.2.runBank n with boot := { (r.2.runBank n).boot with trialBoot := true } }
  | none =>
    let t := if b.trial then { r.2 with boot := { r.2.boot with rollbackDue := true } } else r.2
    let q := t.tryBanks (if b.trial then [b.active] else [b.active, 1 - b.active])
    match q.1 with
    | some n => q.2.runBank n
    | none => { q.2 with boot := { q.2.boot with state := .bootFailed } }

/-- The commit of SEC_FW_LOAD (R577): the bank that is not ACTIVE is being programmed. -/
def State.commitFwLoad (s : State) (image : List Byte) : State :=
  if 16777216 < image.length then s.status Status.VALUE_RANGE
  else if s.boot.loadState = .running then s.status Status.VALUE_STATE
  else
    let (ok, t) := s.fwCheck image
    if !ok then t.status Status.VALUE_STATE
    else
      let b := t.boot.setBank (1 - t.boot.active) none
      ({ t with boot := { b with loadState := .running, loadImage := image } }.setBlob Reg.SEC_FW_LOAD image).status Status.OK

def execFwLoad (cyc : Nat) (image : List Byte) (s : State) : Host.Outcome State Fault Refusal :=
  .next ((s.stamp cyc).commitFwLoad image)

/-- FW_LOAD_COMPLETE. In BOOT_FAILED the ROM boots the image at once (R575). -/
def execFwLoadComplete (cyc : Nat) (matched : Bool) (s : State) : Host.Outcome State Fault Refusal :=
  if s.boot.loadState ≠ .running then .next s
  else
    let n := 1 - s.boot.active
    let image := s.boot.loadImage
    let b := s.boot.setBank n (some { image := image, valid := matched })
    let t := { s.stamp cyc with boot := { b with loadState := if matched then .done else .failed, loadImage := [] } }
    let t := t.raise 0x0E02 n (fwVersion image) 0
    if matched && s.boot.state = .bootFailed then
      let u := t.runBank n
      .next { u with boot := { u.boot with state := .bringUp } }
    else .next t

/-- The commit of SEC_FW_ACTIVATE (R578). -/
def State.commitActivate (s : State) (value : Nat) : State :=
  let set (trial : Bool) : State :=
    ({ s with boot := { s.boot with trial := trial, recordSeq := s.boot.recordSeq + 1 } }.setReg
      Reg.SEC_FW_ACTIVATE value).status Status.OK
  match value with
  | 0 => set false
  | 1 => if s.boot.loadState = .done then set true else s.status Status.VALUE_STATE
  | _ => s.status Status.VALUE_RANGE

def execFwActivate (s : State) : Host.Outcome State Fault Refusal := .next (s.commitActivate 1)
def execFwDeactivate (s : State) : Host.Outcome State Fault Refusal := .next (s.commitActivate 0)

/-! ### Serving (R570) -/

/-- The commit of SRV_SERVE_CMD. -/
def State.commitServe (s : State) (value : Nat) : State :=
  let set (t : State) : State := (t.setReg Reg.SRV_SERVE_CMD value).status Status.OK
  match value with
  | 1 =>
    if s.boot.state = .ready && s.reg Reg.SRV_INTAKE_ENTRIES != 0 && s.reg Reg.SRV_COMP_UNITS != 0 && s.hlk.up then
      set ({ s with boot := { s.boot with state := .serving } }.raise 0x070D 4 s.boot.cause 0)
    else s.status Status.VALUE_STATE
  | 0 =>
    if s.boot.state ≠ .serving then set s
    else if s.anyStream then s.status Status.VALUE_STATE
    else set { s with boot := { s.boot with state := .ready } }
  | _ => s.status Status.VALUE_RANGE

def execServeStart (cyc : Nat) (s : State) : Host.Outcome State Fault Refusal := .next ((s.stamp cyc).commitServe 1)
def execServeStop (s : State) : Host.Outcome State Fault Refusal := .next (s.commitServe 0)

/-! ### Identity memories (R579 to R581) -/

/-- Bytes whose sum is zero: an IPMI checksum. -/
def zeroSum (b : List Byte) : Bool := (b.map BitVec.toNat).sum % 256 = 0

/-- The data of the first record of OEM type C0h with Limfel's manufacturer ID in a multirecord area. -/
def findRecord : Nat → List Byte → Option (List Byte)
  | 0, _ => none
  | n + 1, b =>
    let len := field b 2 1
    let data := (b.drop 5).take len
    if b.length < 5 + len || !zeroSum (b.take 5) || !zeroSum (data ++ (b.drop 3).take 1) then none
    else if field b 0 1 = 0xC0 && 3 ≤ len && field data 0 3 = 0x4C6D66 then some (data.drop 3)
    else if bit (field b 1 1) 7 then none
    else findRecord n (b.drop (5 + len))

/-- The fields of the Limfel record of a memory in IPMI FRU format. -/
def limfelRecord (raw : List Byte) : Option (List Byte) :=
  if raw.length < 8 || field raw 0 1 % 16 ≠ 1 || !zeroSum (raw.take 8) || field raw 5 1 = 0 then none
  else findRecord 64 (raw.drop (8 * field raw 5 1))

/-- The record of memory `n` of Table 18-5, counted from 0. -/
def Boot.record (b : Boot) (n : Nat) : Option (List Byte) :=
  if b.idmState.getD n 0 = 1 then limfelRecord (b.idmData.getD n []) else none

/-- A byte of the tray's record. -/
def Boot.trayByte (b : Boot) (i : Nat) : Option Nat :=
  (b.record 0).bind fun r => if i < r.length then some (field r i 1) else none

/-- Position of the module in the torus (Table 18-5). -/
def Boot.position (b : Boot) : Option Nat :=
  match b.trayByte 5, b.trayByte 6, b.record 1 with
  | some tray, some bay, some r =>
    let k := 4 + 4 * tray + bay
    if tray < 16 && bay < 4 && k < r.length && field r k 1 < 64 then some (field r k 1) else none
  | _, _, _ => none

def Boot.rackId (b : Boot) : Nat := ((b.record 1).map fun r => field r 0 4).getD 0

/-- The memories are read: state and raw content. A memory that answers and has no Limfel record is faulty. -/
def State.readMemories (s : State) (ms : List (Option (List Byte))) : State :=
  let at_ (n : Nat) : Option (List Byte) := (ms.getD n none).map fun b => b.take 2048
  let code (n : Nat) : Nat := match at_ n with
    | some b => if (limfelRecord b).isSome then 1 else 2
    | none => 0
  let t := { s with boot := { s.boot with idmState := (List.range 5).map code
                                          idmData := (List.range 5).map fun n => (at_ n).getD [] } }
  (List.range 5).foldl (fun (t : State) n =>
    if code n = 2 || (n = 4 && code n = 0) then t.raise 0x0C0B (0x50 + n) 0 0 else t) t

/-- Feed type, hold-up and PLCA identity of the tray (R469, R553). -/
def State.applyTray (s : State) : State :=
  let b := s.boot
  let feed := (b.trayByte 0).getD 0
  { s with pwr := { s.pwr with feed := if feed = 1 || feed = 2 then feed else 0
                               holdup := if feed = 1 then 20000 else 10000 }
           dict := { s.dict with nodeId := (b.trayByte 1).getD 1, nodeCount := (b.trayByte 2).getD 9
                                 toTimer := (b.trayByte 3).getD 32, burst := (b.trayByte 4).getD 0 } }

/-- Position and rack of the backplane. -/
def State.applyBackplane (s : State) : State :=
  s.modTorus fun t => { t with position := s.boot.position, rackId := s.boot.rackId }

/-- The laser inputs of an absent source are lost. -/
def State.applyLasers (s : State) : State :=
  let lit (n : Nat) : List Bool := List.replicate 6 (s.boot.record n).isSome
  s.modTorus fun t => { t with laserA := lit 2, laserB := lit 3 }

/-- A node identity of 0, or not below the count, puts the port in FAULT (R469). -/
def Dict.nodeBad (d : Dict) : Bool := d.nodeId = 0 || d.nodeCount ≤ d.nodeId

/-- The field-network port starts, or starts again, with its identity; HLK_FIELD_UP as it enters IN_CYCLE. -/
def State.fieldStart (s : State) : State :=
  let d := s.dict
  if d.nodeBad then { s with dict := { d with field := .fault } }
  else if d.plca then
    { s with dict := { d with field := .inCycle, solicited := true } }.raise 0x0B0C d.nodeId 0 0
  else { s with dict := { d with field := .waitBeacon } }

/-- A changed node identity: the port leaves IN_CYCLE and re-enters WAIT_BEACON (Table 15-8). -/
def State.fieldRestart (s : State) : State :=
  if s.dict.field = .off then s
  else
    let t := if s.dict.field = .inCycle then
        { s with dict := { s.dict with beaconLosses := sat 32 (s.dict.beaconLosses + 1) } }.raise 0x0B0B s.dict.nodeId 0 0
      else s
    let state := if s.dict.nodeBad then FieldState.fault else .waitBeacon
    { t with dict := { t.dict with field := state, plca := false } }

/-- What changed memories do at the slot boundary after a reread (R581). -/
def State.applyIdentity (s : State) : State :=
  let due := s.boot.identityDue
  if due.isEmpty then s
  else
    let t := { s with boot := { s.boot with identityDue := [] } }
    let node (d : Dict) : List Nat := [d.nodeId, d.nodeCount, d.toTimer, d.burst]
    let t := if due.contains 0 then t.applyTray else t
    let t := if node t.dict != node s.dict then t.fieldRestart else t
    let t := if due.contains 0 || due.contains 1 then
        let u := t.applyBackplane
        if u.lce.position = t.lce.position && u.lce.rackId = t.lce.rackId then u
        else (List.range 4).foldl (fun (u : State) l => u.laceDown l 4 true) u
      else t
    let t := if due.contains 2 || due.contains 3 then t.applyLasers else t
    let t := if due.contains 10 || due.contains 11 then
        let u := (List.range 4).foldl (fun (u : State) l => if (u.lace l).state.carries then u.retrain l else u) t
        (List.range 32).foldl (fun (u : State) n => u.uplinkDown n 0) u
      else t
    ((due.filter (· < 5)).foldl (fun (t : State) n => t.raise 0x0C0A (0x50 + n) 0 0) t).torusDone

/-- IDENTITY_REREAD. During ROM the reads of R580 are made again. -/
def execIdentityReread (cyc : Nat) (memories : List (Option (List Byte))) (s : State) :
    Host.Outcome State Fault Refusal :=
  let b := s.boot
  let t := (s.stamp cyc).readMemories memories
  let t := { t with boot := { t.boot with idmReads := sat 32 (b.idmReads + 1) } }
  if b.state = .rom then .next t.applyTray.applyBackplane.applyLasers
  else
    let changed := (List.range 5).filter fun n => b.record n != t.boot.record n
    let grid := (changed.filter fun n => (n = 2 || n = 3) &&
      (b.record n).map (·.take 6) != (t.boot.record n).map (·.take 6)).map (8 + ·)
    .next { t with boot := { t.boot with identityDue := (b.identityDue ++ changed ++ grid).eraseDups } }

/-! ### The first second (R569, R582, R583) -/

/-- First slot of an item of Table 18-6, by row and part; none where the table has no such item. -/
def itemStart (row part : Nat) : Option Nat :=
  let one (n : Nat) : Option Nat := if part = 0 then some n else none
  let many (n k : Nat) : Option Nat := if part < k then some (n + 40 * part) else none
  match row with
  | 0 => one 0
  | 1 => one 8
  | 2 => one 240
  | 3 => one 400
  | 4 => one 720
  | 5 => one 800
  | 6 => one 840
  | 7 => many 880 5
  | 8 => many 1120 2
  | 9 => many 1200 3
  | 10 => many 1600 8
  | 11 => one 3600
  | 12 => one 6000
  | 13 => one 8000
  | _ => none

/-- Items of a row. -/
def itemParts : Nat → Nat
  | 7 => 5 | 8 => 2 | 9 => 3 | 10 => 8 | _ => 1

/-- Slot by which a row completes, where the table gives one. -/
def itemDue : Nat → Option Nat
  | 0 => some 240 | 1 => some 368 | 5 => some 816 | 6 => some 920 | 7 => some 1248 | 8 => some 3576 | 9 => some 1464
  | 10 => some 4280 | 11 => some 6000 | 12 => some 6008 | _ => none

/-- The domain that an item enables. -/
def itemDomain (row part : Nat) : Option Nat :=
  match row with
  | 5 => some 19
  | 6 => some 18
  | 7 => some (8 + part)
  | 8 => some (13 + part)
  | 9 => some (15 + part)
  | 10 => some part
  | _ => none

/-- What a domain holds has finished its own start. -/
def State.domainReady (s : State) (d : Nat) : Bool :=
  if d < 8 then !(s.quad d).running
  else if d < 13 then (s.part.stacksOfGroup (d - 8)).all fun n => (s.insole n).state != .init
  else if d < 15 then (List.range 4).all fun i => (s.store.stack (4 * (d - 13) + i)).state != .init
  else if d = 18 then s.hlk.modules.all fun u => u.state != .training
  else true

/-- Whether an item has completed, or has ended in a domain FAULT. With XU in FAULT no domain starts. -/
def State.itemDone (s : State) (row part : Nat) : Bool :=
  s.boot.cause = 7 ||
  match itemDomain row part with
  | some d =>
    match (s.domain d).state with
    | .fault | .unpopulated => true
    | .on => s.domainReady d
    | _ => (s.domain 19).state = .fault
  | none =>
    match row with
    | 11 => s.boot.begun.contains (16 * 11) && (List.range 8).all fun q => !(s.quad q).running
    | 12 => s.boot.completed.contains 12
    | 13 => true
    | _ => s.boot.begun.contains (16 * row)

/-- A row all of whose items are done. -/
def State.rowDone (s : State) (row : Nat) : Bool := (List.range (itemParts row)).all (s.itemDone row)

/-- An item has begun. -/
def State.itemBegan (s : State) (row part : Nat) : State :=
  { s with boot := { s.boot with begun := s.boot.begun ++ [16 * row + part] } }

/-- Firmware starts: BRING_UP, and a rollback is reported. After a FIRMWARE reset the items that follow are complete
at once. -/
def State.firmwareStarts (s : State) : State :=
  let b := s.boot
  let t := { s with boot := { b with state := .bringUp, rollbackDue := false
                                     rollbacks := if b.rollbackDue then sat 32 (b.rollbacks + 1) else b.rollbacks } }
  let t := if b.rollbackDue then t.raise 0x0E01 (b.running.getD 0) b.version 0 else t
  if b.cause = 7 then
    { t with boot := { t.boot with completed := [4, 5, 6, 7, 8, 9, 10, 11, 12] } }
  else t

/-- The DESTRUCTIVE tests of the pushed sets join the run of every FENCED quadrant. -/
def State.pushedRuns (s : State) : State :=
  let tests := s.ras.pushedTests.filter fun p => p.2.destructive
  if tests.isEmpty then s
  else (List.range 8).foldl (fun (t : State) q => t.modQuad q fun x =>
    if x.state ≠ .fenced then x
    else { x with run := (if x.running then x.run else []) ++ tests, running := true
                  runFailed := if x.running then x.runFailed else !x.awlClean, awlClean := false }) s

/-- BRINGUP_ITEM_START: an item begins no earlier than its slot, once. A domain is not enabled while a sensor is above
the limit or a warning stands. -/
def execBringupItemStart (cyc row part : Nat) (env : BringupEnv) (s : State) : Host.Outcome State Fault Refusal :=
  onUnit (itemStart row part).isSome (
    let b := s.boot
    let hot := (s.reg Reg.PWR_THERMAL_LIMIT : Int) * 100 < env.temperature
    if b.slots < (itemStart row part).getD 0 || b.begun.contains (16 * row + part) || b.completed.contains row then s
    else
      let t := s.stamp cyc
      match itemDomain row part with
      | some d =>
        if b.state ≠ .bringUp || hot || s.pwr.warn then s
        else
          let (e, u) := t.enableDomain d
          if e = Status.OK then u.itemBegan row part else s
      | none =>
        match row with
        | 0 => if b.state = .rom then ((t.readMemories env.memories).applyTray.applyBackplane.applyLasers).itemBegan 0 0 else s
        | 1 => if b.state = .rom && b.begun.contains 0 then t.chooseBank.itemBegan 1 0 else s
        | 2 => (if s.dict.field = .off then t.fieldStart else t).itemBegan 2 0
        | 3 => if b.state = .rom && b.running.isSome && b.begun.contains 16 then t.firmwareStarts.itemBegan 3 0 else s
        | 11 => if b.state = .bringUp then t.pushedRuns.itemBegan 11 0 else s
        | 12 => if b.state = .bringUp then t.itemBegan 12 0 else s
        | _ => t.itemBegan row 0)

/-- BRINGUP_TIMEOUT: what still runs of a row is cut with START_TIMEOUT (R569). -/
def execBringupTimeout (cyc row : Nat) (s : State) : Host.Outcome State Fault Refusal :=
  onUnit (row < 14) (
    if s.boot.slots < 40000 || s.boot.state ≠ .bringUp then s
    else
      let left := (List.range (itemParts row)).filter fun p => !s.itemDone row p
      let ds := if row = 11 then (List.range 8).filter fun q => (s.quad q).running else left.filterMap (itemDomain row)
      ds.foldl (fun (t : State) d => t.failDomain d 4) (s.stamp cyc))

/-- Quadrants whose runs passed join the working mask together. -/
def State.joinQuads (s : State) : State :=
  if s.boot.state ≠ .bringUp || !s.boot.begun.contains (16 * 12) || s.boot.completed.contains 12 then s
  else
    let qs := (List.range 8).filter fun q => (s.quad q).state = .fenced && (s.quad q).awlClean
    let t := qs.foldl (fun (t : State) q => t.modQuad q fun x => { x with state := .working, strikes := [] }) s
    { t with boot := { t.boot with completed := t.boot.completed ++ [12] } }.maskChanged

/-- Bits of SRV_BRINGUP_LATE for the rows that have overrun. -/
def State.lateRows (s : State) : Nat :=
  (((List.range 14).filter fun r =>
    (itemDue r).any fun n => n < s.boot.slots && !s.rowDone r).map fun r => 2 ^ r).sum

/-- READY is entered (R569, R574). -/
def State.becomeReady (s : State) : State :=
  let b := s.boot
  let b := if b.trialBoot then { b with active := b.running.getD b.active, trialBoot := false, recordSeq := b.recordSeq + 1 } else b
  { s with boot := { b with state := .ready, readyFst := s.tb.boundaryFst } }.raise 0x070C 3 b.cause 0

/-- What start-up does at a slot boundary. -/
def State.bootBoundary (s : State) : State :=
  let t := { s with boot := { s.boot with slots := s.boot.slots + 1 } }
  let t := if t.boot.state = .bringUp || t.boot.state = .rom then
      { t with boot := { t.boot with late := t.boot.late ||| t.lateRows } }
    else t
  let t := t.joinQuads
  let begun (r : Nat) : Bool := (List.range (itemParts r)).any fun p => t.boot.begun.contains (16 * r + p)
  let waits := (List.range 13).any fun r => !t.rowDone r && (t.boot.slots < 40000 || begun r)
  if t.boot.state = .bringUp && 8000 ≤ t.boot.slots && !waits then t.becomeReady else t

end Sys2Proof.Machine
end

