-- ==== Sys2Proof/Machine/Values.lean ====
section
/-! DEFINITION. The value in effect of every object of the dictionary (R465, R477): a configuration object holds what
was committed, and every other object is read from the state it reports. -/

namespace Sys2Proof.Machine

/-! ### Identity and communication (Tables 15-11 to 15-13) -/

/-- HLK_FIELD_MAC. -/
def fieldMac : Nat := Config.fuse Reg.HLK_FIELD_MAC % 2 ^ 48

/-- HLK_FIELD_ADDRESS: fe80::/64 with the modified EUI-64 of the MAC address (R471), in IPv6 order. -/
def fieldAddress : List Byte :=
  let m := (le 6 fieldMac).reverse
  [0xFE, 0x80, 0, 0, 0, 0, 0, 0] ++ [m.getD 0 0 ^^^ 2] ++ (m.drop 1).take 2 ++ [0xFF, 0xFE] ++ m.drop 3

/-- SEC_PART_NUMBER. -/
def partNumber : Part → String
  | .a => "LFM-CQ9A-B1" | .m => "LFM-CQ9M-B1" | .n => "LFM-CQ9N-B1"

def State.identityValue (s : State) : Nat → Nat
  | 5 => 0x00B1
  | 6 => Config.fuse Reg.SEC_MANUFACTURE_DATE
  | 7 => Config.fuse Reg.SEC_BOOT_ROM_VERSION
  | 8 => s.boot.version
  | 9 => s.boot.signer
  | 10 => s.boot.uptime
  | _ => 0

def Dict.fieldValue (d : Dict) : Nat → Nat
  | 1 => d.field.code
  | 2 => d.nodeId
  | 3 => d.nodeCount
  | 4 => d.toTimer
  | 5 => d.burst
  | 6 => fieldMac
  | 10 => d.rxFrames
  | 11 => d.txFrames
  | 12 => d.discards
  | 13 => d.beaconLosses
  | _ => 0

def Dict.value (d : Dict) : Nat → Nat
  | 1 => d.requests
  | 2 => d.errors
  | 3 => d.duplicates
  | 4 => d.txs.length
  | 6 => d.committed
  | 7 => d.refused
  | 8 => d.rolledBack
  | _ => 0

/-! ### Start-up and security (Tables 18-10 to 18-12, 19-8) -/

def Boot.value (b : Boot) : Nat → Nat
  | 1 => b.state.code
  | 4 => b.cause
  | 5 => b.count
  | 6 => b.readyFst
  | 7 => b.late
  | _ => 0

def Boot.identityMemory (b : Boot) (sub : Nat) : Nat :=
  if 1 ≤ sub && sub ≤ 5 then b.idmState.getD (sub - 1) 0 else if sub = 11 then b.idmReads else 0

/-- FW_VERSION of a bank, 0 for an invalid one. -/
def Boot.bankVersion (b : Boot) (n : Nat) : Nat :=
  match b.bank n with
  | some x => if x.valid then fwVersion x.image else 0
  | none => 0

def Boot.firmwareValue (b : Boot) : Nat → Nat
  | 1 => b.active
  | 2 => ofBit b.trial
  | 3 => b.bankVersion 1 * 2 ^ 32 + b.bankVersion 0
  | 5 => b.loadState.code
  | 7 => b.rollbacks
  | _ => 0

def Security.value (c : Security) : Nat → Nat
  | 1 => c.rootSlot
  | 2 => ofBit (c.ownerSlot != 0)
  | 3 => c.ownerSlot
  | 4 => c.slotsFree
  | 6 => ofBit c.ownerFw
  | 12 => c.keySeq
  | 15 => c.attest.code
  | 17 => DebugState.code c.debug
  | 18 => c.minSvn
  | 20 => c.sigFailures
  | _ => 0

/-! ### Composition, fabric and engine (Tables 1-6, 3-11 to 3-13, 4-8, 5-12, 6-8, 7-17) -/

/-- FAB_PEAK_FP8 scales with the quadrants that work (R32). -/
def State.compositionValue (s : State) : Nat → Nat
  | 1 => 2
  | 2 => s.ras.workingQuads
  | 3 => s.mask
  | 4 => s.part.hbmStacks
  | 5 => s.part.eyelets
  | 6 => 8
  | 7 => s.hlk.trained
  | 8 => s.part.code
  | 9 => 655360 * s.ras.workingQuads
  | _ => 0

def Fabric.value (f : Fabric) : Nat → Nat
  | 1 => f.state.code
  | 2 => f.activeSlot.getD 0xFF
  | 4 => f.swapLast
  | 5 => f.passCount
  | 6 => f.stallCount
  | 7 => f.pairMismatch
  | 8 => f.residue
  | 9 => f.safeReruns
  | 10 => f.meshCorrected
  | _ => 0

def Fabric.snapValue (f : Fabric) : Nat → Nat
  | 1 => ofBit f.snapshot.isSome
  | 2 => f.snapFst
  | 3 => f.snapLost
  | _ => 0

def Fabric.histValue (f : Fabric) : Nat → Nat
  | 3 => f.histAcc.seq
  | 4 => ofBit f.histRead.isSome
  | _ => 0

def Engine.value (e : Engine) : Nat → Nat
  | 3 => e.vectorMismatches
  | 4 => e.useMismatches
  | 5 => e.redundantMismatches
  | 6 => e.skipped
  | 7 => e.invalid
  | 8 => e.overflow
  | 9 => e.shadowStalls
  | 10 => e.feederStalls
  | 11 => e.accCorrected
  | _ => 0

def Engine.recordValue (e : Engine) : Nat → Nat
  | 1 => ofBit e.record.isSome
  | 4 => e.recordsLost
  | _ => 0

def ChainCounters.value (c : ChainCounters) : Nat → Nat
  | 1 => c.rows
  | 2 => c.overflowRows
  | 3 => c.invalidRows
  | 4 => c.rangeRows
  | 5 => c.poisonRows
  | 6 => 0x0102
  | _ => 0

def State.tilingValue (s : State) : Nat → Nat
  | 1 => s.mxe.spilled
  | 2 => s.mxe.reloaded
  | 3 => s.mem.padFlits
  | 4 => s.mxe.budgetFaults
  | _ => 0

def State.loaderValue (s : State) (sub : Nat) : Nat :=
  let f := s.fab
  if 1 ≤ sub && sub ≤ 4 then (f.slot (sub - 1)).state.code
  else if 5 ≤ sub && sub ≤ 8 then (f.slot (sub - 5)).lastId
  else match sub with
    | 9 => f.loads
    | 10 => f.loadFaults
    | 12 => s.store.packageTag
    | 13 => s.store.capacityStep
    | 14 => (s.store.active.map (·.plan)).getD 0
    | _ => 0

/-! ### Memory and store (Tables 8-8 to 8-11, 9-11 to 9-13) -/

def Memory.value (m : Memory) : Nat → Nat
  | 1 => m.sramCorrected
  | 2 => m.sramPoisoned
  | 3 => m.bankStalls
  | _ => 0

def Insole.value (n : Insole) : Nat → Nat
  | 1 => n.state.code
  | 3 => n.hits
  | 4 => n.misses
  | 5 => n.writebacks
  | 6 => n.correctedOne
  | 7 => n.correctedTwo
  | 8 => n.uncorrectable
  | 9 => n.poisonReads
  | 10 => n.degraded.length
  | 11 => n.eyeMin
  | 12 => n.eyeAdjusts
  | 13 => n.scrubDone
  | _ => 0

def Pages.value (p : Pages) : Nat → Nat
  | 1 => p.framesTotal
  | 2 => p.freeFrames.length
  | 3 => (p.table.filter fun e => e.2.state = .parked).length
  | 7 => p.bytesOut
  | 8 => p.bytesIn
  | 9 => p.skippedClean
  | 10 => p.failed
  | _ => 0

def Store.stackValue (t : Store) (n : Nat) : Nat → Nat
  | 1 => (t.stack n).state.code
  | 2 => t.extentsUsed n
  | 3 => (t.stack n).wear
  | 4 => (t.stack n).spareBlocks
  | 5 => (t.stack n).readBytes
  | 6 => (t.stack n).relocations
  | 7 => (t.stack n).retries
  | 8 => (t.stack n).uncorrectable
  | _ => 0

def Store.opValue (t : Store) : Nat → Nat
  | 6 => t.opState.code
  | 7 => t.opResult
  | 8 => t.opProgress
  | 10 => t.bytesFree
  | _ => 0

def State.switchValue (s : State) : Nat → Nat
  | 6 => s.store.switchState.code
  | 7 => s.store.switchResult
  | 8 => s.store.stagedTag
  | 9 => s.store.stageBytes
  | 10 => s.store.stageDone
  | 11 => s.store.epoch
  | 12 => (s.store.old.map (·.epoch)).getD 0
  | 13 => s.epochPins
  | 14 => s.activeTag
  | 16 => s.store.scrubDone
  | 17 => s.store.refetches
  | 18 => s.store.mismatches
  | 19 => (s.store.active.map (·.expertsZero.length)).getD 0
  | _ => 0

/-! ### Time base, planner and serving (Tables 2-4, 2-7, 10-12 to 10-15, 11-9) -/

def State.timeValue (s : State) : Nat → Nat
  | 1 => s.tb.state.code
  | 2 => s.fst
  | 3 => s.tb.holdSlots
  | 4 => s.tb.missed
  | 5 => s.tb.outOfWindow
  | 6 => s.tb.markFaults
  | 7 => ofSigned 32 s.tb.phaseError
  | 9 => ofBit s.tb.armed
  | 10 => ofBit s.tb.internalClock
  | _ => 0

def State.plannerValue (s : State) : Nat → Nat
  | 5 => s.planner.templateEven
  | 6 => s.planner.templateOdd
  | 7 => s.headroom
  | 8 => s.planner.planned
  | 9 => s.planner.planFrame
  | _ => 0

def Serving.ringValue (v : Serving) : Nat → Nat
  | 8 => v.intake.reads
  | 9 => v.intake.records
  | 10 => v.intake.faults
  | 11 => v.eventsLost
  | _ => 0

def Serving.streamValue (v : Serving) : Nat → Nat
  | 1 => v.streams.length
  | 5 => v.budgetRefusals
  | 6 => v.stepsSealed
  | 7 => v.outputsLate
  | 8 => v.outputsSuppressed
  | _ => 0

def Sync.value (y : Sync) : Nat → Nat
  | 3 => ofBit y.context.isSome
  | 4 => y.preemptions
  | 5 => y.guardExpiries
  | 6 => y.ownerLosses
  | 7 => y.stale
  | 8 => y.saturated
  | 9 => y.bound
  | _ => 0

/-! ### Laces, dispatch and the host link (Tables 12-8, 12-9, 13-7 to 13-9, 14-11, 14-12) -/

def Lace.value (a : Lace) : Nat → Nat
  | 1 => a.state.code
  | 2 => a.cause
  | 3 => a.width
  | 4 => a.latency
  | 5 => a.peer
  | 6 => a.fecCorrected
  | 7 => a.fecUncorrectable
  | 8 => a.replays
  | 9 => a.retrains
  | 10 => a.ringAdjusts
  | 11 => ofSigned 32 a.rxPowerMin
  | 12 => a.flitsSent
  | 13 => a.discarded
  | _ => 0

def State.torusValue (s : State) : Nat → Nat
  | 1 => s.lce.position.getD 0
  | 2 => s.lce.rackId
  | 3 => s.lce.spanMask
  | 4 => s.lce.spanTag
  | 5 => s.lce.spanState.code
  | 6 => s.lce.root
  | 7 => s.lce.memberIndex
  | 8 => (s.lce.missing.map (2 ^ ·)).sum
  | 9 => s.lce.unreachable
  | 10 => s.lce.detoured
  | 11 => s.laserState
  | _ => 0

def Uplink.value (u : Uplink) : Nat → Nat
  | 1 => u.state.code
  | 2 => u.cause
  | 5 => u.txFrames
  | 6 => u.rxFrames
  | 7 => u.rxDiscards
  | 8 => u.fecCorrected
  | 9 => u.fecUncorrectable
  | _ => 0

def Dispatch.value (d : Dispatch) : Nat → Nat
  | 1 => d.dispatches
  | 2 => d.drops
  | 3 => d.skips
  | 4 => d.returns
  | 5 => d.staleReturns
  | 6 => d.duplicates
  | 7 => d.resends
  | 8 => d.returnsLost
  | 9 => d.reclaimed
  | 10 => d.unknownSource
  | 11 => d.served
  | 12 => d.refused
  | _ => 0

def UcieModule.value (u : UcieModule) : Nat → Nat
  | 1 => u.state.code
  | 2 => u.speed
  | 3 => u.repaired
  | 4 => u.crcErrors
  | 5 => u.replays
  | 6 => u.retrains
  | 7 => u.txBytes
  | 8 => u.rxBytes
  | _ => 0

def HostLink.value (h : HostLink) : Nat → Nat
  | 1 => ofBit h.up
  | 5 => h.invSeq
  | 16 => h.attMisses
  | 17 => h.accessFaults
  | 18 => h.readErrors
  | 19 => h.writeErrors
  | _ => 0

/-! ### Power and reliability (Tables 17-6, 17-11 to 17-13, 16-9 to 16-13) -/

/-- PWR_DOMAIN_STATUS (Table 17-6). -/
def Domain.status (x : Domain) : Nat := x.pending % 16 * 2 ^ 20 + x.state.code * 2 ^ 16 + x.fault.toNat

def Domain.value (x : Domain) : Nat → Nat
  | 1 => x.status
  | 3 => x.power
  | 4 => x.starts
  | _ => 0

def State.capValue (s : State) : Nat → Nat
  | 6 => s.effectiveCap
  | 7 => s.pwr.k
  | 8 => s.floorK
  | 9 => s.pwr.fastLevel
  | 10 => s.pwr.inputPower
  | 11 => s.pwr.inputVoltage
  | 12 => s.pwr.breaches
  | 14 => s.thermalCap
  | 15 => ofSigned 32 s.pwr.tempMax
  | _ => 0

def Power.feedValue (p : Power) : Nat → Nat
  | 1 => p.hotSwap.code
  | 2 => p.feed
  | 3 => p.holdup
  | 4 => p.drainStart
  | 5 => p.warnings
  | _ => 0

def Ras.value (r : Ras) : Nat → Nat
  | 1 => r.claimMode
  | 2 => r.service.code
  | 3 => r.stepsVoided
  | 4 => r.stepsFailed
  | 5 => r.groupResets
  | 6 => r.weightErrors
  | _ => 0

def Quadrant.value (q : Quadrant) : Nat → Nat
  | 1 => q.state.code
  | 2 => sat 8 q.strikes.length
  | 3 => q.lastStrike
  | 5 => q.cause
  | 6 => ofBit q.awlClean
  | _ => 0

def Quadrant.awlValue (q : Quadrant) : Nat → Nat
  | 1 => q.coverDone
  | 2 => q.lastResult
  | 3 => q.lastTest
  | _ => 0

def Ras.recordValue (r : Ras) : Nat → Nat
  | 1 => r.recordSeq
  | 4 => r.recordsLost
  | _ => 0

def Ras.awlValue (r : Ras) : Nat → Nat
  | 4 => r.awlRuns
  | 5 => r.awlFails
  | _ => 0

/-! ### Every object -/

/-- The value of a read-only object of fixed length. -/
def State.readOnly (s : State) (index sub : Nat) : Nat :=
  if 0x3010 ≤ index && index < 0x301A then (s.insole (index - 0x3010)).value sub
  else if 0x3040 ≤ index && index < 0x3048 then s.store.stackValue (index - 0x3040) sub
  else if 0x5000 ≤ index && index < 0x5004 then (s.lace (index - 0x5000)).value sub
  else if 0x5020 ≤ index && index < 0x5040 then
    if sub = 3 then Config.fuse (256 * index + 3) % 2 ^ 48 else (s.uplink (index - 0x5020)).value sub
  else if 0x5050 ≤ index && index < 0x5054 then (s.module (index - 0x5050)).value sub
  else if 0x6000 ≤ index && index < 0x6014 then (s.domain (index - 0x6000)).value sub
  else if 0x6110 ≤ index && index < 0x6118 then (s.quad (index - 0x6110)).value sub
  else if 0x7010 ≤ index && index < 0x7018 then (s.quad (index - 0x7010)).awlValue sub
  else match index with
    | 0x1000 => s.identityValue sub
    | 0x1100 => s.dict.fieldValue sub
    | 0x1200 => s.dict.value sub
    | 0x1300 => s.boot.value sub
    | 0x1310 => s.boot.identityMemory sub
    | 0x1320 => s.boot.firmwareValue sub
    | 0x1800 => s.sec.value sub
    | 0x2000 => s.compositionValue sub
    | 0x2010 => s.fab.value sub
    | 0x2011 => s.fab.snapValue sub
    | 0x2012 => s.fab.histValue sub
    | 0x2020 => s.mxe.value sub
    | 0x2021 => s.mxe.quadMismatches.getD (sub - 1) 0
    | 0x2022 => s.mxe.recordValue sub
    | 0x2030 => s.chn.value sub
    | 0x2040 => s.tilingValue sub
    | 0x2050 => s.loaderValue sub
    | 0x2060 => s.syn.value sub
    | 0x3000 => s.mem.value sub
    | 0x3020 => if sub = 1 then s.mem.protections else 0
    | 0x3030 => s.pages.value sub
    | 0x3050 => s.store.opValue sub
    | 0x3060 => s.switchValue sub
    | 0x4000 => s.timeValue sub
    | 0x4001 => s.plannerValue sub
    | 0x4010 => s.srv.ringValue sub
    | 0x4011 => s.srv.streamValue sub
    | 0x4012 => if sub = 1 then s.srv.reportSeq else 0
    | 0x5010 => s.torusValue sub
    | 0x5041 => s.dsp.value sub
    | 0x5060 => s.hlk.value sub
    | 0x6020 => s.capValue sub
    | 0x6030 => s.pwr.feedValue sub
    | 0x6100 => s.ras.value sub
    | 0x6120 => s.ras.recordValue sub
    | 0x7000 => s.ras.awlValue sub
    | _ => 0

/-- The value in effect of an object of fixed length: a written object holds what was committed, but for the span,
the arming of a realignment and PWR_DOMAIN_STATUS, which the state holds; a WO object reads as zero. -/
def State.valueOf (s : State) (index sub : Nat) (access : Access) : Nat :=
  match access with
  | .ro | .rw => s.readOnly index sub
  | .wo => 0
  | .tx =>
    if (index = 0x5010 && (sub = 3 || sub = 4)) || (index = 0x4000 && sub = 9) then s.readOnly index sub
    else s.reg (256 * index + sub)

/-! ### Byte strings -/

/-- An entry of SRV_STREAM_TABLE: zero for a stream that is FREE. -/
def Stream.entry (x : Stream) : List Byte :=
  le 1 x.state.code ++ le 1 x.cls ++ le 2 x.tenant ++ le 4 x.context ++ le 4 x.epoch ++ le 2 x.adapter ++
    le 1 (ofBit x.keep + 2 * ofBit x.pin + 4 * ofBit x.held) ++ le 1 x.queued.length

/-- Entries of `n` bytes for the keys of a range, zero where a map has none. -/
def tableBytes {α : Type} (size n : Nat) (m : KMap α) (f : α → List Byte) : List Byte :=
  (List.range n).flatMap fun i => ((kget? m i).map f).getD (List.replicate size 0)

/-- The bytes of SRV_TENANT_BUDGETS until they are first committed. -/
def openBudgets : List Byte := List.replicate 4096 0xFF

/-- Source port, or slot number, of a session (Table 15-7). -/
def sessionNumber : Session → Nat
  | .field _ port => port
  | .slot n => n

def sessionKind : Session → Nat
  | .field _ _ => 0
  | .slot _ => 1

/-- DOMAIN bytes that a transaction has staged. -/
def Tx.domainBytes (x : Tx) : Nat := (x.items.map fun i => if i.domain then i.total else 0).sum

/-- A transaction entry (Table 15-7). -/
def Tx.bytes (x : Tx) : List Byte :=
  le 2 x.id ++ le 1 x.state.code ++ le 1 (sessionKind x.session) ++ le 2 (sessionNumber x.session) ++
    le 2 x.items.length ++ le 4 x.domainBytes ++ le 4 x.idle ++ le 8 x.at_ ++ le 2 x.cause ++ le 2 x.causeIndex ++
    le 1 x.causeSub ++ le 3 0

/-- HLK_TX_TABLE. -/
def Dict.table (d : Dict) : List Byte := (d.txs ++ d.ended).flatMap Tx.bytes

/-- The content in effect of a STR or DOMAIN object. -/
def State.bytesOf (s : State) (index sub : Nat) : List Byte :=
  match index, sub with
  | 0x1000, 1 => ascii "Limfel"
  | 0x1000, 2 => ascii "Celquaber CQ-9"
  | 0x1000, 3 => ascii (partNumber s.part)
  | 0x1000, 4 => serial
  | 0x1100, 7 => fieldAddress
  | 0x1200, 9 => s.dict.table
  | 0x1310, n => s.boot.idmData.getD (n - 6) []
  | 0x1800, 5 => s.sec.ownerHash
  | 0x1800, 7 => s.sec.nonceBytes
  | 0x1800, 10 => s.sec.keys.flatMap (·.raw)
  | 0x1800, 13 => s.sec.certChain
  | 0x1800, 16 => if s.sec.attest = .ready then s.sec.report else []
  | 0x2011, 4 => s.fab.snapshot.getD []
  | 0x2022, 2 => s.mxe.record.getD []
  | 0x2050, 11 => s.fab.loadFault
  | 0x2060, 10 => s.bankDump
  | 0x3050, 9 => s.store.catalogueBytes
  | 0x4010, 12 => s.srv.log.flatMap Event.bytes
  | 0x4011, 2 => if s.srv.streams.isEmpty then [] else tableBytes 16 8192 s.srv.streams Stream.entry
  | 0x4011, 3 => (kget? s.blobs Reg.SRV_TENANT_BUDGETS).getD openBudgets
  | 0x4011, 4 => tableBytes 4 1024 s.srv.tenantUsed (le 4)
  | 0x4012, 2 => if s.srv.window = 0 then [] else tableBytes 16 32 s.srv.report GroupSum.bytes
  | 0x5040, 2 => (kget? s.blobs Reg.DSP_ADDRESS).getD (List.replicate 16 0)
  | 0x5040, 14 => (List.range 4096).flatMap fun h => le 1 (s.dsp.hostState h)
  | 0x6120, 2 => s.ras.log.flatten
  | 0x6120, 3 => s.ras.persist.flatten
  | 0x7000, 3 => s.awlSetsBytes
  | _, _ => s.blob (256 * index + sub)

end Sys2Proof.Machine
end

