-- ==== Sys2Proof/Machine/Commit.lean ====
section
/-! DEFINITION. What a write of an object does (R475 to R489): when an object is served, what a value must be, the
checks and effects of each object's chapter at a commit, and a transaction's items applied whole or not at all. -/

namespace Sys2Proof.Machine

/-! ### Readiness (R467, R575, R584, R585) -/

/-- Slots until a time of Table 18-6; 80 once it has passed. -/
def retryUntil (now due : Nat) : Nat := if now < due then due - now else 80

/-- How long the subsystem of an object still takes: none where it is served. -/
def State.waitFor (s : State) (index sub : Nat) : Option Nat :=
  let n := s.boot.slots
  let within (lo hi : Nat) : Bool := lo ≤ index && index ≤ hi
  let from_ (ready : Bool) (due : Nat) : Option Nat := if ready then none else some (retryUntil n due)
  let store := (s.store.stack 0).state.serves || (s.store.stack 4).state.serves
  if s.boot.state = .bootFailed then
    if within 0x1000 0x11FF || within 0x1300 0x13FF then none else some 8000
  else if s.isUp then none
  else if index = 0x6120 && sub = 3 then from_ store 3576
  else if within 0x1000 0x13FF || within 0x1800 0x18FF || index = 0x2000 || index = 0x4000 || within 0x6000 0x6120 then
    from_ (800 ≤ n) 816
  else if within 0x3010 0x3019 then from_ (s.domainOn (Part.domainOfStack s.part (index - 0x3010))) 1248
  else if within 0x3040 0x3047 then from_ (s.store.stack (index - 0x3040)).state.serves 3576
  else if index = 0x3050 || index = 0x3060 || (index = 0x7000 && (sub = 2 || sub = 3)) then from_ store 3576
  else if within 0x5000 0x5003 then from_ (s.domainOn (Part.domainOfEyelet s.part (s.part.eyeletOfLace (index - 0x5000)))) 1464
  else if index = 0x5010 then from_ ((List.range 3).any fun g => s.domainOn (15 + g)) 1464
  else if within 0x5020 0x503F then
    from_ (s.domainOn (Part.domainOfEyelet s.part (s.part.eyeletOfUplink (index - 0x5020)))) 1464
  else if within 0x5050 0x5053 then from_ (840 ≤ n) 920
  else if index = 0x7000 then from_ (1600 ≤ n) 4280
  else if within 0x7010 0x7017 then from_ (s.domainOn (index - 0x7010)) 4280
  else from_ (816 ≤ n && s.domainOn 19) 816

/-! ### Static checks (R476, R480, R486) -/

/-- A NaN of binary32. -/
def nan32 (v : Nat) : Bool := bits v 30 23 = 255 && bits v 22 0 != 0

/-- Status of a value of a TYPE written to an object of fixed length. -/
def ObjRow.check (r : ObjRow) (p : Part) (type : Nat) (value : List Byte) : Nat :=
  let v := ofLe value
  if r.type = .domain || type ≠ r.type.code || (r.type ≠ .str && value.length ≠ r.type.size) then Status.TYPE_MISMATCH
  else if (r.type = .f32 && nan32 v) || (r.type = .fst && 160 ≤ slotOf v) || !r.range.holds p v then Status.VALUE_RANGE
  else Status.OK

/-- Status of a write of an object before its value is looked at: it is defined, present, served and writable. -/
def State.writable (s : State) (index sub : Nat) (inTx : Bool) : Nat :=
  match objRow index sub with
  | none => if sub = 0 && highestSub index != 0 then Status.ACCESS else Status.NO_OBJECT
  | some r =>
    if absent s.part index sub then Status.NOT_PRESENT
    else if (s.waitFor index sub).isSome then Status.NOT_READY
    else if r.access = .ro then Status.ACCESS
    else if r.access = .tx && !inTx then Status.TX_REQUIRED
    else Status.OK

/-! ### Staged bytes (R484) -/

/-- Whether the segments of a staged DOMAIN cover it. -/
def StagedItem.covered (x : StagedItem) : Bool :=
  (List.range x.total).all fun i => x.segments.any fun g => g.1 ≤ i && i < g.1 + g.2.length

/-- The bytes of a staged item: a value, or what the segments say, the later over the earlier. -/
def StagedItem.bytes (x : StagedItem) : List Byte :=
  if x.domain then (x.segments.foldr (fun (g : Nat × List Byte) b => splice b g.1 g.2) (List.replicate x.total 0)).take x.total
  else x.value

/-- A staged item of an object. -/
def stagedAt (xs : List StagedItem) (index sub : Nat) : Option StagedItem :=
  xs.find? fun x => x.index = index && x.sub = sub

/-- The first of the staged items that a test holds of. -/
def firstOf (xs : List StagedItem) (x : StagedItem) (p : StagedItem → Bool) : Bool :=
  (xs.find? p).any fun y => y.index = x.index && y.sub = x.sub

/-! ### Settings -/

/-- Objects whose commit is a command or is held elsewhere in the state: their value is set with its effect. -/
def isCommand (index sub : Nat) : Bool :=
  match index, sub with
  | 0x4000, _ | 0x3050, 2 | 0x3060, 1 | 0x3060, 5 | 0x5010, _ | 0x5060, 4 | 0x6120, _ | 0x1300, _ | 0x1320, _ | 0x1800, _ =>
    true
  | i, 4 => (0x6110 ≤ i && i < 0x6118) || (0x7010 ≤ i && i < 0x7018)
  | i, 2 => 0x6000 ≤ i && i < 0x6014
  | _, _ => false

/-- A staged setting is in force for the checks of every item (R489). -/
def State.preset (t : State) (x : StagedItem) : State :=
  if x.domain || isCommand x.index x.sub then t
  else match objRow x.index x.sub with
    | some r =>
      let v := ofLe x.value
      if r.access ≠ .tx then t
      else
        let u := t.setReg (256 * x.index + x.sub) v
        if x.index = 0x3050 && x.sub = 1 then { u with store := { u.store with installMode := v = 1 } } else u
    | none => t

/-- Every setting of a transaction; the templates follow the fence reserve. -/
def State.presetAll (s : State) (xs : List StagedItem) : State :=
  let t := xs.foldl State.preset s
  if (stagedAt xs 0x4001 4).isSome then t.retemplate else t

/-! ### Checks of several chapters -/

/-- R75: the share is below the class-0 load of a template or of a frame in the ledger. -/
def State.shareShort (t : State) : Bool :=
  t.reg Reg.SRV_CLASS0_SHARE * 24960 < t.class0Loads.foldl max 0

/-- R75: share and class-3 minimum exceed 1,000 per mille. -/
def State.sharesClash (t : State) : Bool := 1000 < t.reg Reg.SRV_CLASS0_SHARE + t.reg Reg.SRV_CLASS3_MIN

/-- R75: an admitted stream fails the test with the fence reserve in force. The streams are those that hold a
reservation, put to the test of R71 in the order of acceptance from empty templates and ledger, with what is left of
their prompts placed from the commit's frame; it fails for all of them while the time base is not LOCKED. DESIGN
CHOICE, unsafe (log entry 37). -/
def State.reserveFails (t : State) : Bool :=
  let ns := (t.byAcceptance t.class0).filter fun n => (t.stream? n).any fun x => x.parity.isSome
  match t.store.active with
  | none => !ns.isEmpty
  | some r =>
    let empty := ns.foldl (fun (u : State) n => u.modStream n fun x => { x with parity := none, reserved := [] })
      { t with planner := { t.planner with templateEven := 0, templateOdd := 0, ledger := [] } }
    (ns.foldl (fun (o : Option State) n =>
      o.bind fun u => match t.stream? n with
        | none => some u
        | some x => match u.testClass0 true r (x.ask n) t.tb.frame x.parity with
          | .ok g => some (u.adopt n g)
          | .error _ => none) (some empty)).isNone

/-- Whether the parking area can be where its objects and window 2 put it (R280). -/
def State.areaGood (t : State) : Bool := t.areaFits t.pageBytes

/-- Whether the windows are apart and within the 4 TiB of host-link offsets (R449). -/
def State.windowsGood (t : State) : Bool :=
  (List.range 4).all fun a =>
    let (base, size) := t.window a
    base + size ≤ 2 ^ 42 && (List.range 4).all fun b =>
      let (other, n) := t.window b
      a = b || size = 0 || n = 0 || base + size ≤ other || other + n ≤ base

/-! ### The commit of one item (R489) -/

/-- Items of the planner (R75). -/
def State.commitPlanner (t : State) (xs : List StagedItem) (sub : Nat) : State :=
  let reserve := ((stagedAt xs 0x4001 4).any fun x => ofLe x.value = 1) && t.reserveFails
  let bad := match sub with
    | 1 => t.sharesClash || t.shareShort || reserve
    | 2 => t.sharesClash
    | 4 => reserve
    | _ => false
  t.status (if bad then Status.VALUE_STATE else Status.OK)

/-- Items of the parking area (R280). -/
def State.commitPark (t before : State) (sub : Nat) : State :=
  let key := 0x303000 + sub
  let bad := (sub = 4 || sub = 5) && ((before.reg key != t.reg key && !t.pages.slotsUsed.isEmpty) || !t.areaGood)
  t.status (if bad then Status.VALUE_STATE else Status.OK)

/-- Items of a store operation: the parameters fail with the checks of the command that they take part in. -/
def State.commitStore (t : State) (xs : List StagedItem) (sub value : Nat) : State :=
  let cmd := ((stagedAt xs 0x3050 2).map fun x => ofLe x.value).getD 0
  let source := t.reg Reg.STO_OP_SOURCE
  let length := t.reg Reg.STO_OP_LENGTH
  let tag := t.reg Reg.STO_OP_TAG
  let refusal := if cmd = 0 then none else t.opRefusal cmd source tag length
  match sub with
  | 1 => t.commitMode value
  | 2 => if value = 0 then (t.setReg Reg.STO_OP_CMD 0).status Status.OK else t.commitOp value source tag length
  | 3 | 4 => t.status (if refusal = some Status.VALUE_RANGE then Status.VALUE_RANGE else Status.OK)
  | 5 => t.status (if refusal = some Status.STO_NOT_FOUND || refusal = some Status.STO_IN_USE then refusal.getD 0
    else Status.OK)
  | _ => t.status Status.OK

/-- Items of a switch, likewise. -/
def State.commitStaging (t : State) (xs : List StagedItem) (sub value : Nat) : State :=
  let kind := ((stagedAt xs 0x3060 1).map fun x => ofLe x.value).getD 0
  let target := t.reg Reg.STO_SWITCH_TARGET
  let plan := t.reg Reg.STO_SWITCH_PLAN
  let refusal : Option Nat := if kind = 0 then none else match t.switchPlan kind target plan with
    | .error e => some e
    | .ok _ => none
  let own := [Status.NOT_READY, Status.STO_BUSY, Status.STO_STORE_OFF, Status.STO_EPOCH_BUSY]
  match sub with
  | 1 =>
    if value = 0 then (t.setReg Reg.STO_SWITCH_KIND 0).status Status.OK
    else t.commitSwitch value target (t.reg Reg.STO_SWITCH_MODE) plan
  | 2 => t.status (if refusal.any fun e => !own.contains e then refusal.getD 0 else Status.OK)
  | 4 => t.status (if refusal = some Status.STO_NO_FIT || refusal = some Status.STO_NO_ROOM then refusal.getD 0 else Status.OK)
  | 5 => t.commitCancel value
  | _ => t.status Status.OK

/-- Mask and tag of the span are one commit, at the first of them. -/
def State.commitSpan (t : State) (xs : List StagedItem) (x : StagedItem) : State :=
  if firstOf xs x fun y => y.index = 0x5010 then
    let part (sub old : Nat) : Nat := ((stagedAt xs 0x5010 sub).map fun y => ofLe y.value).getD old
    outcomeState t (execSpanCommit (part 3 t.lce.spanMask) (part 4 t.lce.spanTag) t)
  else t.status Status.OK

/-- Items of dispatch (R423, R427). -/
def State.commitDispatch (t before : State) (sub : Nat) (b : List Byte) : State :=
  if 6 ≤ sub && sub ≤ 9 then outcomeState t (execDspTableCommit sub b t)
  else if sub = 2 then
    if b.length = 16 then ({ t with blobs := kset t.blobs Reg.DSP_ADDRESS b }).status Status.OK else t.status Status.VALUE_RANGE
  else
    let cleared := sub = 10 && before.reg Reg.DSP_WINDOWS_CONFIRMED = 1 && t.reg Reg.DSP_WINDOWS_CONFIRMED = 0
    (if cleared then { t with planner := { t.planner with rerun := some 2 } } else t).status Status.OK

/-- Items of the host link (Table 14-9, R280, R449, R452). -/
def State.commitLink (t : State) (sub value : Nat) : State :=
  if sub = 4 then outcomeState t (execAttInvalidate value t)
  else if 6 ≤ sub && sub ≤ 13 then
    if t.anyStream || t.store.opState = .running || !t.pages.slotsUsed.isEmpty then t.status Status.HLK_WINDOW_IN_USE
    else if !t.windowsGood || !t.areaGood then t.status Status.VALUE_STATE
    else t.status Status.OK
  else t.status Status.OK

/-- Items of the cap (R547, R550). -/
def State.commitCaps (t before : State) (xs : List StagedItem) (sub value : Nat) : State :=
  let high := t.reg Reg.PWR_CAP < t.reg Reg.PWR_GUARANTEE_FLOOR && (stagedAt xs 0x6020 2).isSome
  match sub with
  | 1 => if high then t.status Status.VALUE_STATE else t.commitCap 1 value
  | 2 => t.commitFloor (before.reg Reg.PWR_GUARANTEE_FLOOR) value
  | 3 | 4 | 5 => t.commitCap sub value
  | _ => t.status Status.OK

/-- Tickets: SEC_TICKET with SEC_TICKET_COSIGN is one commit, at the first of them. -/
def State.commitTickets (t : State) (xs : List StagedItem) (x : StagedItem) : State :=
  match stagedAt xs 0x1800 8 with
  | none => (t.setBlob Reg.SEC_TICKET_COSIGN x.bytes).status Status.OK
  | some y =>
    if firstOf xs x fun z => z.index = 0x1800 && (z.sub = 8 || z.sub = 9) then
      t.commitTicket (field y.bytes 4 1) y.bytes (((stagedAt xs 0x1800 9).map StagedItem.bytes).getD [])
    else t.status Status.OK

/-- The budgets of a commit, by tenant: FFFFFFFFh is no limit and is not listed. -/
def parseBudgets (b : List Byte) : KMap Nat :=
  (List.range 1024).filterMap fun i =>
    let v := field b (4 * i) 4
    if v = 0xFFFFFFFF then none else some (i, v)

/-- SRV_TENANT_BUDGETS applies from the next frame boundary (R339). -/
def State.commitBudgets (t : State) (b : List Byte) : State :=
  if b.length ≠ 4096 then t.status Status.VALUE_RANGE
  else { t with blobs := kset t.blobs Reg.SRV_TENANT_BUDGETS b
                srv := { t.srv with budgetsNext := some (parseBudgets b) } }.status Status.OK

/-- Check and effect of one item, with the settings of the transaction and the commands before it in force; the status
stands in the state. -/
def State.commitItem (t before : State) (xs : List StagedItem) (x : StagedItem) : State :=
  let b := x.bytes
  let v := ofLe x.value
  let i := x.index
  if 0x6000 ≤ i && i < 0x6014 then
    if x.sub = 1 then (t.clearFault (i - 0x6000) (BitVec.ofNat 32 v)).status Status.OK else t.commitDomain (i - 0x6000) v
  else if 0x6110 ≤ i && i < 0x6118 then t.commitFence (i - 0x6110) v
  else if 0x7010 ≤ i && i < 0x7018 then t.commitAwlRun (i - 0x7010) v
  else match i, x.sub with
    | 0x1300, 2 => t.commitServe v
    | 0x1300, 3 => t.commitReset v
    | 0x1320, 4 => t.commitFwLoad b
    | 0x1320, 6 => t.commitActivate v
    | 0x1800, 8 | 0x1800, 9 => t.commitTickets xs x
    | 0x1800, 11 => t.commitKeys b
    | 0x1800, 14 => t.commitAttest b
    | 0x1800, 19 => t.commitSvn v
    | 0x2011, 5 => (outcomeState t (execFabSnapRelease v t)).status Status.OK
    | 0x2022, 3 => (outcomeState t (execMxeRecRelease v t)).status Status.OK
    | 0x3030, n => t.commitPark before n
    | 0x3050, n => t.commitStore xs n v
    | 0x3060, n => t.commitStaging xs n v
    | 0x4000, 8 => outcomeState t (execFrameCountLoad v t)
    | 0x4000, 9 => outcomeState t (if v = 1 then execRealignArm t else execRealignDisarm t)
    | 0x4001, n => t.commitPlanner xs n
    | 0x4010, n =>
      let ring (k : Nat) : Nat := if k ≤ 2 then 0 else if k ≤ 5 then 1 else 2
      t.commitRing before n v (firstOf xs x fun y => y.index = 0x4010 && y.sub ≠ 3 && ring y.sub = ring n)
    | 0x4011, 3 => t.commitBudgets b
    | 0x5010, _ => t.commitSpan xs x
    | 0x5040, n => t.commitDispatch before n b
    | 0x5060, n => t.commitLink n v
    | 0x6020, n => t.commitCaps before xs n v
    | 0x6120, 5 => t.commitPersistClear v
    | 0x7000, 2 => t.commitAwlSet b
    | _, _ => t.status Status.OK

/-- The items in staging order, up to the first whose check fails: the state then, and that item with its status. -/
def State.commitItems (before : State) (xs : List StagedItem) : List StagedItem → State → State × Option (StagedItem × Nat)
  | [], t => (t, none)
  | x :: rest, t =>
    if x.domain && !x.covered then (t, some (x, Status.DOMAIN_INCOMPLETE))
    else if (before.waitFor x.index x.sub).isSome then (t, some (x, Status.NOT_READY))
    else
      let u := t.commitItem before xs x
      if u.dict.lastStatus = Status.OK then State.commitItems before xs rest u else (u, some (x, u.dict.lastStatus))

/-- Nothing of a refused commit stays but a counted signature failure with its event, and a new ticket nonce
(R589, R595). -/
def State.refusedBy (s t : State) : State :=
  let u := { s with sec := { s.sec with sigFailures := t.sec.sigFailures, nonce := t.sec.nonce }
                    dict := { s.dict with lastStatus := t.dict.lastStatus } }
  match t.srv.log.getLast? with
  | some e => if e.code = 0x0E03 && t.srv.log != s.srv.log then u.raise 0x0E03 e.arg0 e.arg1 e.arg2 else u
  | none => u

/-- Items applied whole, or not at all (R489). -/
def State.commitAll (s : State) (xs : List StagedItem) : State × Option (StagedItem × Nat) :=
  let r := State.commitItems s xs xs (s.presetAll xs)
  match r.2 with
  | none => (r.1.status Status.OK, none)
  | some f => ((s.refusedBy r.1).status f.2, some f)

/-- The transaction that claims an object (R487). -/
def State.claimer (s : State) (index sub : Nat) : Option Nat :=
  (s.dict.txs.find? fun x => (stagedAt x.items index sub).isSome).map Tx.id

/-- OBJECT_WRITE: a write of one object, checked and applied on its own. -/
def execObjectWrite (cyc index sub : Nat) (value : List Byte) (s : State) : Host.Outcome State Fault Refusal :=
  let s := s.stamp cyc
  let e := s.writable index sub true
  match objRow index sub with
  | none => .next (s.status e)
  | some r =>
    let dom := r.type = .domain
    let check := if dom then (if r.range.holds s.part value.length then Status.OK else Status.VALUE_RANGE)
      else r.check s.part r.type.code value
    if e ≠ Status.OK then .next (s.status e)
    else if check ≠ Status.OK then .next (s.status check)
    else if (s.claimer index sub).isSome then .next (s.status Status.TX_CONFLICT)
    else
      let x : StagedItem :=
        if dom then { index := index, sub := sub, domain := true, value := [], total := value.length, segments := [(0, value)] }
        else { index := index, sub := sub, domain := false, value := value }
      .next (s.commitAll [x]).1.beginCommanded

end Sys2Proof.Machine
end

