-- ==== Sys2Proof/Machine/Dictionary.lean ====
section
/-! DEFINITION. The dictionary engine and the field-network port (chapter 15): requests on both paths, their answers,
transactions, and the outcome of a commit. -/

namespace Sys2Proof.Machine

/-! ### Requests and answers (Tables 15-3, 15-4) -/

/-- The operations of Table 15-4. -/
inductive DapOp where
  | read (items : List (Nat × Nat))
  | write (items : List WriteItem)
  | readSegment (index sub offset length expectSeq : Nat)
  | writeSegment (index sub : Nat) (first : Bool) (offset total : Nat) (data : List Byte)
  | begin
  | commit (at_ : Nat)
  | rollback
  | txStatus
  deriving DecidableEq, Repr, Inhabited

def DapOp.code : DapOp → Nat
  | .read _ => 0x01
  | .write _ => 0x02
  | .readSegment .. => 0x03
  | .writeSegment .. => 0x04
  | .begin => 0x10
  | .commit _ => 0x11
  | .rollback => 0x12
  | .txStatus => 0x13

/-- Whether R475 refuses the operation while HLK_FIELD_WRITE_ENABLE is 0. -/
def DapOp.guarded : DapOp → Bool
  | .write _ | .writeSegment .. | .begin | .commit _ => true
  | .read _ | .readSegment .. | .rollback | .txStatus => false

/-- What an answer says. -/
structure Answer where
  status : Nat := 0
  retry : Nat := 0
  count : Nat := 0
  /-- TX_ID of the header where it is not that of the request. -/
  tx : Option Nat := none
  body : List Byte := []
  deriving DecidableEq, Repr, Inhabited

/-- An answer that holds a status alone. -/
def Answer.refuse (status : Nat) : Answer := { status := status }

/-- The bytes of an answer (Table 15-3). -/
def Answer.message (a : Answer) (op reqId txId : Nat) : List Byte :=
  [0x44, 0x41, 1] ++ le 1 op ++ le 4 reqId ++ le 2 (a.tx.getD txId) ++ le 2 a.status ++ le 2 a.retry ++ le 1 a.count ++
    [1] ++ le 2 a.body.length ++ le 2 0 ++ a.body

/-- A value padded with zeros to a multiple of 4 bytes (R479). -/
def pad4 (b : List Byte) : List Byte := padTo b ((b.length + 3) / 4 * 4)

/-- The message limit of R472, less the header. -/
def bodyLimit : Nat := 1212

/-- Whether an operation fits its message: at most 64 items, a segment of 1 to 1,024 bytes, and no more than the
message limit. -/
def DapOp.shaped : DapOp → Bool
  | .read items => items.length ≤ 64
  | .write items => items.length ≤ 64 && (items.map fun w => 8 + (pad4 w.value).length).sum ≤ bodyLimit
  | .readSegment _ _ _ length _ => 1 ≤ length && length ≤ 1024
  | .writeSegment _ _ _ _ _ data => 1 ≤ data.length && data.length ≤ 1024
  | .begin | .commit _ | .rollback | .txStatus => true

/-- The items of a READ. -/
def parseReads : Nat → List Byte → Option (List (Nat × Nat))
  | 0, b => if b.isEmpty then some [] else none
  | n + 1, b =>
    if b.length < 4 || field b 3 1 != 0 then none
    else (parseReads n (b.drop 4)).map fun l => (field b 0 2, field b 2 1) :: l

/-- The items of a WRITE. -/
def parseWrites : Nat → List Byte → Option (List WriteItem)
  | 0, b => if b.isEmpty then some [] else none
  | n + 1, b =>
    let len := field b 4 2
    let whole := 8 + (len + 3) / 4 * 4
    if b.length < whole || b.length < 8 || field b 6 2 != 0 || !zeros b (8 + len) (whole - 8 - len) then none
    else (parseWrites n (b.drop whole)).map fun l =>
      { index := field b 0 2, sub := field b 2 1, type := field b 3 1, value := (b.drop 8).take len } :: l

/-- The operation that a body holds. -/
def parseBody (op count : Nat) (b : List Byte) : Option DapOp :=
  match op with
  | 0x01 => (parseReads count b).map .read
  | 0x02 => (parseWrites count b).map .write
  | 0x03 =>
    if b.length != 16 || field b 3 1 != 0 || field b 10 2 != 0 then none
    else some (.readSegment (field b 0 2) (field b 2 1) (field b 4 4) (field b 8 2) (field b 12 4))
  | 0x04 =>
    if b.length < 16 || field b 14 2 != 0 || b.length != 16 + field b 12 2 then none
    else some (.writeSegment (field b 0 2) (field b 2 1) (bit (field b 3 1) 0) (field b 4 4) (field b 8 4) (b.drop 16))
  | 0x10 => if b.isEmpty then some .begin else none
  | 0x11 => if b.length = 8 then some (.commit (field b 0 8)) else none
  | 0x12 => if b.isEmpty then some .rollback else none
  | 0x13 => if b.isEmpty then some .txStatus else none
  | _ => none

/-- The operation of a message in a slot; none where it is malformed (R478). -/
def parseMessage (b : List Byte) : Option DapOp :=
  let n := field b 16 2
  if field b 0 2 != 0x4144 || field b 2 1 != 1 || bodyLimit < n || 64 < field b 14 1 then none
  else (parseBody (field b 3 1) (field b 14 1) (slice b 20 n)).bind fun o => if o.shaped then some o else none

/-! ### Transactions by name (R466, R491) -/

/-- Whether a transaction is that of a request. -/
def Tx.named (x : Tx) (rq : Request) : Bool := x.id = rq.txId && x.session = rq.session

/-- The transaction that a request names: an open one first, then the last that ended. -/
def State.txNamed (s : State) (rq : Request) : Option Tx :=
  match s.dict.txs.find? (Tx.named · rq) with
  | some x => some x
  | none => s.dict.ended.reverse.find? (Tx.named · rq)

/-- Change an open transaction. -/
def State.modTx (s : State) (id : Nat) (f : Tx → Tx) : State :=
  { s with dict := { s.dict with txs := s.dict.txs.map fun x => if x.id = id then f x else x } }

/-- A request has named its transaction: the idle count starts again. -/
def State.touchTx (s : State) (rq : Request) : State :=
  { s with dict := { s.dict with txs := s.dict.txs.map fun x => if x.named rq then { x with idle := 0 } else x } }

/-- A transaction ends; the last 32 outcomes are kept. -/
def State.endTx (s : State) (x : Tx) : State :=
  let d := s.dict
  { s with dict := { d with
      txs := d.txs.filter fun y => y.id ≠ x.id
      ended := (d.ended ++ [x]).drop (d.ended.length + 1 - 32) } }

/-- An OPEN transaction is rolled back. -/
def State.rollTx (s : State) (x : Tx) : State :=
  let t := s.endTx { x with state := .rolledBack, at_ := s.fst }
  { t with dict := { t.dict with rolledBack := sat 32 (t.dict.rolledBack + 1) } }

/-- Whether a transaction still counts as named by an operation that needs it OPEN: its status otherwise. -/
def State.openTx (s : State) (rq : Request) : Except Nat Tx :=
  match s.txNamed rq with
  | none => .error Status.TX_UNKNOWN
  | some x => if x.state = .opn then .ok x else .error Status.TX_STATE

/-! ### READ (R468, R477, R483, R487) -/

/-- DOMAIN_SEQ of a DOMAIN, moved on where its content differs from what it was when last looked at; never 0:
DESIGN CHOICE, unsafe (log entry 30). -/
def State.lookDomain (s : State) (key : Nat) (content : List Byte) : Nat × State :=
  let keep (q : Nat) : Nat × State :=
    (q, { s with dict := { s.dict with domainSeen := kset s.dict.domainSeen key (content, q) } })
  match kget? s.dict.domainSeen key with
  | none => keep 1
  | some (c, q) => if c = content then (q, s) else keep (if q + 1 = 2 ^ 32 then 1 else q + 1)

/-- Status of an object as a READ finds it, and the slots it still needs. -/
def State.readable (s : State) (index sub : Nat) : Nat × Nat :=
  if (objRow index sub).isNone && (sub ≠ 0 || highestSub index = 0) then (Status.NO_OBJECT, 0)
  else if absent s.part index (if sub = 0 then 1 else sub) then (Status.OK, 0)
  else match s.waitFor index sub with
    | some w => (Status.NOT_READY, min 8000 (max 1 w))
    | none => (Status.OK, 0)

/-- TYPE and VALUE of an object that may be read, with the items that the named transaction has staged. -/
def State.itemValue (s : State) (staged : List StagedItem) (index sub : Nat) : (Nat × List Byte) × State :=
  match objRow index sub with
  | none => ((ObjType.u8.code, le 1 (if absent s.part index 1 then 0 else highestSub index)), s)
  | some r =>
    if absent s.part index sub then ((r.type.code, List.replicate r.type.size 0), s)
    else if r.type = .domain then
      let content := s.bytesOf index sub
      let (q, t) := s.lookDomain (256 * index + sub) content
      let total := ((stagedAt staged index sub).map StagedItem.total).getD content.length
      ((r.type.code, le 4 total ++ le 4 q), t)
    else match stagedAt staged index sub with
      | some x => ((r.type.code, x.value), s)
      | none =>
        if r.type = .str then ((r.type.code, s.bytesOf index sub), s)
        else ((r.type.code, le r.type.size (s.valueOf index sub r.access)), s)

/-- One item of a READ, added to what the answer holds so far. -/
def State.readItem (staged : List StagedItem) (p : State × Answer) (i : Nat × Nat) : State × Answer :=
  let (s, a) := p
  let (e, w) := s.readable i.1 i.2
  let entry (type status : Nat) (v : List Byte) : List Byte :=
    le 2 i.1 ++ le 1 i.2 ++ le 1 type ++ le 2 status ++ le 2 v.length ++ pad4 v
  let add (t : State) (b : List Byte) : State × Answer :=
    (t, { a with status := if a.status = Status.OK then e else a.status, retry := max a.retry w, count := a.count + 1
                 body := a.body ++ b })
  if e = Status.OK then
    let ((type, v), t) := s.itemValue staged i.1 i.2
    add t (entry type e v)
  else add s (entry (((objRow i.1 i.2).map fun r => r.type.code).getD 0) e [])

/-- What a request that names a transaction sees staged. -/
def State.stagedFor (s : State) (rq : Request) : Except Nat (List StagedItem) :=
  if rq.txId = 0 then .ok []
  else match s.txNamed rq with
    | none => .error Status.TX_UNKNOWN
    | some x => .ok (if x.state = .opn || x.state = .scheduled then x.items else [])

/-- READ. -/
def State.serveRead (s : State) (rq : Request) (items : List (Nat × Nat)) : State × Answer :=
  match s.stagedFor rq with
  | .error e => (s, .refuse e)
  | .ok xs => items.foldl (State.readItem xs) (s.touchTx rq, {})

/-- Bytes of a staged DOMAIN: those that no segment covers are open: DESIGN CHOICE, safe (log entry 26). -/
def StagedItem.at_ (x : StagedItem) (n : Nat) (i : Nat) : Byte :=
  match x.segments.find? fun g => g.1 ≤ i && i < g.1 + g.2.length with
  | some g => g.2.getD (i - g.1) 0
  | none => BitVec.ofNat 8 (Config.freeValue (n + i))

/-- READ_SEGMENT (R483). -/
def State.serveReadSegment (s : State) (rq : Request) (index sub offset length expectSeq : Nat) : State × Answer :=
  match s.stagedFor rq with
  | .error e => (s, .refuse e)
  | .ok xs =>
    let s := s.touchTx rq
    let (e, w) := s.readable index sub
    if e ≠ Status.OK then (s, { status := e, retry := w })
    else match objRow index sub with
      | none => (s, .refuse Status.TYPE_MISMATCH)
      | some r =>
        if r.type ≠ .domain then (s, .refuse Status.TYPE_MISMATCH)
        else
          let content := s.bytesOf index sub
          let (q, t) := s.lookDomain (256 * index + sub) content
          let all := (stagedAt xs index sub).map fun x => (x.total, (List.range x.total).drop offset |>.take length |>.map (x.at_ s.free))
          let (total, data) := all.getD (content.length, (content.drop offset).take length)
          let t := match stagedAt xs index sub with
            | some x => { t with free := t.free + x.total }
            | none => t
          let head (data : List Byte) : List Byte :=
            le 2 index ++ le 1 sub ++ le 1 0 ++ le 4 offset ++ le 4 total ++ le 4 q ++ le 2 data.length ++ le 2 0 ++ data
          if expectSeq ≠ 0 && expectSeq ≠ q then (t, { status := Status.DOMAIN_CHANGED, body := head [] })
          else (t, { body := head data })

/-! ### WRITE and WRITE_SEGMENT (R480, R484, R486, R487) -/

/-- An item is put into a transaction, in its first position where it is there already. -/
def Tx.stage (x : Tx) (i : StagedItem) : Tx :=
  if (stagedAt x.items i.index i.sub).isSome then
    { x with items := x.items.map fun y => if y.index = i.index && y.sub = i.sub then i else y }
  else { x with items := x.items ++ [i] }

/-- One item of a WRITE in a transaction. -/
def State.stageItem (s : State) (id : Nat) (w : WriteItem) : Nat × State :=
  let e := s.writable w.index w.sub true
  match objRow w.index w.sub, s.dict.txs.find? fun x => x.id = id with
  | some r, some x =>
    let c := r.check s.part w.type w.value
    if e ≠ Status.OK then (e, s)
    else if c ≠ Status.OK then (c, s)
    else if (s.claimer w.index w.sub).any fun y => y ≠ id then (Status.TX_CONFLICT, s)
    else if (stagedAt x.items w.index w.sub).isNone && 256 ≤ x.items.length then (Status.TX_LIMIT, s)
    else (Status.OK, s.modTx id (Tx.stage · { index := w.index, sub := w.sub, domain := false, value := w.value }))
  | _, _ => (e, s)

/-- One item of a WRITE outside transactions. -/
def State.writeItem (s : State) (w : WriteItem) : Nat × State :=
  let e := s.writable w.index w.sub false
  match objRow w.index w.sub with
  | none => (e, s)
  | some r =>
    let c := r.check s.part w.type w.value
    if e ≠ Status.OK then (e, s)
    else if c ≠ Status.OK then (c, s)
    else if (s.claimer w.index w.sub).isSome then (Status.TX_CONFLICT, s)
    else
      let (t, f) := s.commitAll [{ index := w.index, sub := w.sub, domain := false, value := w.value }]
      ((f.map Prod.snd).getD Status.OK, t)

/-- The items of a WRITE in order, each with its own status. -/
def State.writeItems (one : State → WriteItem → Nat × State) (items : List WriteItem) (s : State) : State × Answer :=
  items.foldl (fun (p : State × Answer) (w : WriteItem) =>
    let (e, t) := one p.1 w
    let a := p.2
    let wait := if e = Status.NOT_READY then min 8000 (max 1 ((p.1.waitFor w.index w.sub).getD 1)) else 0
    (t, { a with status := if a.status = Status.OK then e else a.status, retry := max a.retry wait, count := a.count + 1
                 body := a.body ++ le 2 w.index ++ le 1 w.sub ++ le 1 0 ++ le 2 e ++ le 2 0 })) (s, {})

/-- WRITE. -/
def State.serveWrite (s : State) (rq : Request) (items : List WriteItem) : State × Answer :=
  if rq.txId = 0 then s.writeItems State.writeItem items
  else match s.openTx rq with
    | .error e => (s.touchTx rq, .refuse e)
    | .ok x => (s.touchTx rq).writeItems (fun t w => t.stageItem x.id w) items

/-- Whether a DOMAIN is exempt from the staging limits (R486). -/
def ownArea (index sub : Nat) : Bool := 256 * index + sub = Reg.SEC_FW_LOAD || 256 * index + sub = Reg.RAS_AWL_LOAD

/-- DOMAIN bytes that count against the limits, but for one object. -/
def Tx.limited (x : Tx) (index sub : Nat) : Nat :=
  (x.items.map fun i => if i.domain && !ownArea i.index i.sub && !(i.index = index && i.sub = sub) then i.total else 0).sum

/-- WRITE_SEGMENT (R484). -/
def State.serveWriteSegment (s : State) (rq : Request) (index sub : Nat) (first : Bool) (offset total : Nat)
    (data : List Byte) : State × Answer :=
  if rq.txId = 0 then (s, .refuse Status.TX_REQUIRED)
  else match s.openTx rq with
    | .error e => (s.touchTx rq, .refuse e)
    | .ok x =>
      let s := s.touchTx rq
      let e := s.writable index sub true
      match objRow index sub with
      | none => (s, .refuse e)
      | some r =>
        let old := stagedAt x.items index sub
        if e = Status.NOT_READY then
          (s, { status := e, retry := min 8000 (max 1 ((s.waitFor index sub).getD 1)) })
        else if e ≠ Status.OK then (s, .refuse e)
        else if r.type ≠ .domain then (s, .refuse Status.TYPE_MISMATCH)
        else if (s.claimer index sub).any fun y => y ≠ x.id then (s, .refuse Status.TX_CONFLICT)
        else
          let size := if first then total else (old.map StagedItem.total).getD 0
          if size < offset + data.length || !r.range.holds s.part size then (s, .refuse Status.VALUE_RANGE)
          else if old.isNone && 256 ≤ x.items.length then (s, .refuse Status.TX_LIMIT)
          else if first && !ownArea index sub &&
              (2 ^ 20 < x.limited index sub + total ||
                2 ^ 21 < (s.dict.txs.map fun (y : Tx) => y.limited (if y.id = x.id then index else 0x10000) sub).sum + total) then
            (s, .refuse Status.TX_LIMIT)
          else
            let kept := if first then [] else (old.map StagedItem.segments).getD []
            (s.modTx x.id (Tx.stage · { index := index, sub := sub, domain := true, value := [], total := size
                                        segments := (offset, data) :: kept }), {})

/-! ### BEGIN, COMMIT, ROLLBACK and TX_STATUS (R486, R488, R491) -/

/-- The next TX_ID that is free, from 1 to 65,535 in turn. -/
def Dict.freeId (d : Dict) : Nat :=
  (((List.range 9).map fun i => (d.nextId - 1 + i) % 65535 + 1).find? fun i => !(d.txs.any fun x => x.id = i)).getD 1

/-- BEGIN. -/
def State.serveBegin (s : State) (rq : Request) : State × Answer :=
  let d := s.dict
  if 8 ≤ d.txs.length then (s, .refuse Status.TX_LIMIT)
  else
    let id := d.freeId
    let x : Tx := { id := id, session := rq.session }
    ({ s with dict := { d with txs := d.txs ++ [x], nextId := id % 65535 + 1 } }, { tx := some id })

/-- Slots from the current boundary to AT; none where AT breaks R488. -/
def TimeBase.ahead (t : TimeBase) (at_ : Nat) : Option Nat :=
  let n := frameOf at_ * 160 + slotOf at_
  if at_ = 0 then some 1
  else if t.state = .acquiring || at_ % 2 ^ 16 ≠ 0 || 160 ≤ slotOf at_ || n ≤ t.slots || t.slots + 160 < n then none
  else some (n - t.slots)

/-- The FST of the boundary some slots ahead. -/
def TimeBase.aheadFst (t : TimeBase) (n : Nat) : Nat :=
  if t.state = .acquiring then 0 else fstOf ((t.slots + n) / 160) ((t.slots + n) % 160) 0

/-- COMMIT: an accepted one is answered at its outcome. A boundary whose actions are still to be run in this fabric
cycle is past. -/
def State.serveCommit (s : State) (rq : Request) (at_ : Nat) : State × Option Answer :=
  match s.openTx rq with
  | .error e => (s.touchTx rq, some (.refuse e))
  | .ok x =>
    let t := s.touchTx rq
    match s.tb.ahead at_ with
    | none => (t, some (.refuse Status.COMMIT_SLOT))
    | some n =>
      let u := t.modTx x.id fun y => { y with
        state := .scheduled, at_ := s.tb.aheadFst n, next := at_ = 0, due := n - 1 + ofBit s.tb.boundaryDue
        order := t.dict.commitOrder, reqId := rq.reqId }
      ({ u with dict := { u.dict with commitOrder := u.dict.commitOrder + 1 } }, none)

/-- ROLLBACK. -/
def State.serveRollback (s : State) (rq : Request) : State × Answer :=
  match s.openTx rq with
  | .error e => (s.touchTx rq, .refuse e)
  | .ok x => (s.rollTx x, {})

/-- TX_STATUS. -/
def State.serveTxStatus (s : State) (rq : Request) : State × Answer :=
  match s.txNamed rq with
  | none => (s, .refuse Status.TX_UNKNOWN)
  | some _ =>
    let t := s.touchTx rq
    (t, { body := ((t.txNamed rq).map Tx.bytes).getD [] })

/-- Serve an operation: the state after it, and the answer where it is given now. -/
def State.serve (s : State) (rq : Request) : DapOp → State × Option Answer
  | .read items => let (t, a) := s.serveRead rq items; (t, some a)
  | .write items => let (t, a) := s.serveWrite rq items; (t, some a)
  | .readSegment i j o n q => let (t, a) := s.serveReadSegment rq i j o n q; (t, some a)
  | .writeSegment i j f o n d => let (t, a) := s.serveWriteSegment rq i j f o n d; (t, some a)
  | .begin => let (t, a) := s.serveBegin rq; (t, some a)
  | .commit at_ => s.serveCommit rq at_
  | .rollback => let (t, a) := s.serveRollback rq; (t, some a)
  | .txStatus => let (t, a) := s.serveTxStatus rq; (t, some a)

/-- The request is counted and served. -/
def State.handle (s : State) (rq : Request) (op : DapOp) : State × Option Answer :=
  let t := { s with dict := { s.dict with requests := sat 64 (s.dict.requests + 1) } }
  match rq.session with
  | .field _ _ =>
    if op.guarded && s.reg Reg.HLK_FIELD_WRITE_ENABLE = 0 then (t, some (.refuse Status.ACCESS)) else t.serve rq op
  | .slot _ => t.serve rq op

/-! ### Sending answers (R457, R472, R474) -/

/-- Whether the field network carries frames of this address. -/
def State.fieldUp (s : State) : Bool :=
  s.dict.field = .inCycle && s.dict.addressUsed && !s.inReset && !s.pwr.coreOff

/-- A datagram leaves the field-network port. -/
def State.sendField (s : State) (r : Reply) : State :=
  if s.fieldUp then
    { s with dict := { s.dict with txFrames := sat 64 (s.dict.txFrames + 1), lastReply := some r } }
  else s

/-- A message goes to its session, from the port given on the field network. Field answers are kept. -/
def State.reply (s : State) (port : Nat) (session : Session) (reqId : Nat) (message : List Byte) : State :=
  match session with
  | .slot n =>
    { s with hlk := { s.hlk with slots := lmod s.hlk.slots n fun d => { d with response := message, doneSeq := d.seq } } }
  | .field _ _ =>
    let r : Reply := { session := session, reqId := reqId, port := port, bytes := message }
    ({ s with dict := { s.dict with cache := ((s.uptime, r) :: s.dict.cache).take 256 } }).sendField r

/-- A malformed message is counted; in a slot it is answered (R478). -/
def State.malformed (s : State) (session : Session) (op reqId txId : Nat) : State :=
  let t := { s with dict := { s.dict with errors := sat 32 (s.dict.errors + 1) } }
  match session with
  | .field _ _ => t
  | .slot _ => t.reply 0 session reqId ((Answer.refuse Status.MESSAGE_INVALID).message op reqId txId)

/-- A request is served and answered. An answer longer than a message may be counts as malformed. -/
def State.answerTo (s : State) (rq : Request) (op : DapOp) : State :=
  let port := s.reg Reg.HLK_FIELD_UDP_PORT
  let r := s.handle rq op
  match r.2 with
  | none => r.1
  | some a =>
    if bodyLimit < a.body.length then s.malformed rq.session op.code rq.reqId rq.txId
    else r.1.reply port rq.session rq.reqId (a.message op.code rq.reqId rq.txId)

/-- The answer kept for a field request (R474). -/
def State.cached (s : State) (rq : Request) : Option Reply :=
  (s.dict.cache.find? fun c => c.2.session = rq.session && c.2.reqId = rq.reqId && s.uptime ≤ c.1 + 8000).map Prod.snd

/-- A duplicate is answered from the cache, with FROM_CACHE set. -/
def State.sendCached (s : State) (r : Reply) : State :=
  let b := r.bytes.set 15 3
  { s with dict := { s.dict with duplicates := sat 32 (s.dict.duplicates + 1) } }.sendField { r with bytes := b }

/-- Whether a COMMIT of this name waits for its outcome. -/
def State.commitWaits (s : State) (rq : Request) : Bool :=
  s.dict.txs.any fun x => x.state = .scheduled && x.session = rq.session && x.reqId = rq.reqId

/-- A field request whose time to be answered has come. -/
def State.fieldServe (s : State) (rq : Request) (op : DapOp) : State :=
  match s.cached rq with
  | some r => s.sendCached r
  | none =>
    if s.commitWaits rq then s
    else if s.boot.slots < 800 then
      s.reply (s.reg Reg.HLK_FIELD_UDP_PORT) rq.session rq.reqId
        (({ status := Status.NOT_READY, retry := 800 - s.boot.slots } : Answer).message op.code rq.reqId rq.txId)
    else s.answerTo rq op

/-- Whether a READ may be multicast: every item is of the identity (R473). -/
def DapOp.identityRead : DapOp → Option (List (Nat × Nat))
  | .read items => if items.all fun i => 0x1000 ≤ i.1 && i.1 ≤ 0x10FF then some items else none
  | _ => none

/-- A field datagram arrives. -/
def State.fieldRequest (s : State) (rq : Request) (op : DapOp) : State :=
  if !s.fieldUp then s
  else
    let t := { s with dict := { s.dict with rxFrames := sat 64 (s.dict.rxFrames + 1) } }
    if !rq.good then { t with dict := { t.dict with discards := sat 32 (t.dict.discards + 1) } }
    else if s.boot.slots < 720 then t
    else if rq.multicast then
      match rq.allNodes, op.identityRead with
      | true, some items =>
        if !op.shaped then t.malformed rq.session op.code rq.reqId rq.txId
        else { t with dict := { t.dict with delayed := t.dict.delayed ++ [(t.uptime + t.dict.nodeId, rq, items)] } }
      | _, _ => t
    else if !op.shaped then t.malformed rq.session op.code rq.reqId rq.txId
    else t.fieldServe rq op

/-- Whether the engine takes requests from the slots (Table 18-7). -/
def State.slotsServed (s : State) : Bool :=
  960 ≤ s.boot.slots && s.boot.state != .bootFailed && s.boot.state != .rom && !s.inReset && !s.pwr.coreOff

/-- Whether a slot's request waits for the outcome of its COMMIT. -/
def State.slotWaits (s : State) (n : Nat) : Bool :=
  s.dict.txs.any fun x => x.state = .scheduled && x.session = .slot n

/-- A request arrives on its path. -/
def State.request (s : State) (rq : Request) (op : DapOp) : Host.Outcome State Fault Refusal :=
  match rq.session with
  | .field _ _ => .next (s.fieldRequest rq op).beginCommanded
  | .slot n =>
    onUnit (n < 16) <|
      if !s.slotsServed || s.slotWaits n then s
      else if !op.shaped then s.malformed rq.session op.code rq.reqId rq.txId
      else (s.answerTo rq op).beginCommanded

/-- READ. -/
def execRead (cyc : Nat) (rq : Request) (items : List (Nat × Nat)) (s : State) : Host.Outcome State Fault Refusal :=
  (s.stamp cyc).request rq (.read items)

/-- WRITE. -/
def execWrite (cyc : Nat) (rq : Request) (items : List WriteItem) (s : State) : Host.Outcome State Fault Refusal :=
  (s.stamp cyc).request rq (.write items)

/-- READ_SEGMENT. -/
def execReadSegment (cyc : Nat) (rq : Request) (index sub offset length expectSeq : Nat) (s : State) :
    Host.Outcome State Fault Refusal :=
  (s.stamp cyc).request rq (.readSegment index sub offset length expectSeq)

/-- WRITE_SEGMENT. -/
def execWriteSegment (cyc : Nat) (rq : Request) (index sub : Nat) (first : Bool) (offset total : Nat) (data : List Byte)
    (s : State) : Host.Outcome State Fault Refusal :=
  (s.stamp cyc).request rq (.writeSegment index sub first offset total data)

/-- BEGIN. -/
def execBegin (cyc : Nat) (rq : Request) (s : State) : Host.Outcome State Fault Refusal := (s.stamp cyc).request rq .begin

/-- COMMIT. -/
def execCommit (cyc : Nat) (rq : Request) (at_ : Nat) (s : State) : Host.Outcome State Fault Refusal :=
  (s.stamp cyc).request rq (.commit at_)

/-- ROLLBACK. -/
def execRollback (cyc : Nat) (rq : Request) (s : State) : Host.Outcome State Fault Refusal :=
  (s.stamp cyc).request rq .rollback

/-- TX_STATUS. -/
def execTxStatus (cyc : Nat) (rq : Request) (s : State) : Host.Outcome State Fault Refusal :=
  (s.stamp cyc).request rq .txStatus

/-- MULTICAST_READ_REPLY: the first all-nodes READ whose delay has passed. -/
def execMulticastReadReply (cyc : Nat) (s : State) : Host.Outcome State Fault Refusal :=
  let t := s.stamp cyc
  match t.dict.delayed.find? fun e => e.1 ≤ t.uptime with
  | none => .next s
  | some e =>
    let u := { t with dict := { t.dict with delayed := t.dict.delayed.erase e } }
    .next (if u.fieldUp then u.fieldServe e.2.1 (.read e.2.2) else u)

/-- DAP_MESSAGE_MALFORMED. -/
def execDapMessageMalformed (cyc : Nat) (session : Session) (reqId : Nat) (s : State) : Host.Outcome State Fault Refusal :=
  let t := s.stamp cyc
  match session with
  | .field _ _ =>
    .next (if t.fieldUp then
      let u := { t with dict := { t.dict with rxFrames := sat 64 (t.dict.rxFrames + 1) } }
      if u.boot.slots < 720 then u else u.malformed session 0 reqId 0
    else s)
  | .slot n =>
    let b := (lget t.hlk.slots n).request
    onUnit (n < 16) <|
      if t.slotsServed && !t.slotWaits n then t.malformed session (field b 3 1) reqId (field b 8 2) else s

/-- The slots in turn, each whose SEQ differs from its DONE_SEQ (R457). -/
def State.pollSlot (s : State) (n : Nat) : State :=
  let d := lget s.hlk.slots n
  if d.seq = d.doneSeq || s.slotWaits n then s
  else
    let b := d.request
    let rq : Request := { session := .slot n, reqId := field b 4 4, txId := field b 8 2 }
    match parseMessage b with
    | none => s.malformed rq.session (field b 3 1) rq.reqId rq.txId
    | some op => s.answerTo rq op

/-- DICT_SLOT_POLL. -/
def execDictSlotPoll (cyc : Nat) (s : State) : Host.Outcome State Fault Refusal :=
  if s.slotsServed then .next ((List.range 16).foldl State.pollSlot (s.stamp cyc)).beginCommanded else .next s

/-! ### The outcome of a commit (R489 to R491) -/

/-- The body of a COMMIT response. -/
def Tx.outcome (x : Tx) : List Byte := le 8 x.at_ ++ le 2 x.cause ++ le 2 x.causeIndex ++ le 1 x.causeSub ++ le 3 0

/-- A SCHEDULED transaction meets its boundary. -/
def State.decide_ (s : State) (x : Tx) : State :=
  let port := s.reg Reg.HLK_FIELD_UDP_PORT
  let now := s.tb.boundaryFst
  let r := s.commitAll x.items
  match r.2 with
  | none =>
    let y : Tx := { x with state := .committed, at_ := now }
    let u := r.1.endTx y
    { u with dict := { u.dict with committed := sat 32 (u.dict.committed + 1) } }.reply port x.session x.reqId
      (({ body := y.outcome } : Answer).message 0x11 x.reqId x.id)
  | some (i, e) =>
    let y : Tx := { x with state := .refused, at_ := now, cause := e, causeIndex := i.index, causeSub := i.sub }
    let u := r.1.endTx y
    ({ u with dict := { u.dict with refused := sat 32 (u.dict.refused + 1) } }.raise 0x0B0A x.id
      (sessionNumber x.session) 0).reply port x.session x.reqId
      (({ status := Status.COMMIT_REFUSED, body := y.outcome } : Answer).message 0x11 x.reqId x.id)

/-- Whether a transaction's boundary has come. -/
def Tx.isDue (x : Tx) (now : Nat) : Bool := x.state = .scheduled && (x.due = 0 || (!x.next && x.at_ ≤ now))

/-- A transaction put among others by the order of their COMMITs. -/
def insertTx (x : Tx) : List Tx → List Tx
  | [] => [x]
  | y :: ys => if x.order < y.order then x :: y :: ys else y :: insertTx x ys

/-- The transactions of a slot boundary, in the order of their COMMITs (R490); the others wait one slot less. -/
def State.txBoundary (s : State) : State :=
  let now := s.tb.boundaryFst
  let due := (s.dict.txs.filter (Tx.isDue · now)).foldl (fun l x => insertTx x l) []
  let t := due.foldl State.decide_ s
  let step (x : Tx) : Tx := { x with idle := sat 32 (x.idle + 1), due := x.due - 1 }
  ({ t with dict := { t.dict with txs := t.dict.txs.map step } }).beginCommanded

/-- TX_EXPIRE. -/
def execTxExpire (cyc tx : Nat) (s : State) : Host.Outcome State Fault Refusal :=
  let t := s.stamp cyc
  match t.dict.txs.find? fun x => x.id = tx && x.state = .opn && t.reg Reg.HLK_TX_IDLE_LIMIT ≤ x.idle with
  | none => .next s
  | some x => .next ((t.rollTx x).raise 0x0B09 x.id (sessionNumber x.session) 0)

/-! ### The field-network port (R469 to R471) -/

/-- PLCA_STATUS_CHANGE. -/
def execPlcaStatusChange (cyc : Nat) (status : Bool) (s : State) : Host.Outcome State Fault Refusal :=
  let t := { s.stamp cyc with dict := { s.dict with plca := status } }
  match status, s.dict.field with
  | true, .waitBeacon =>
    let sent := if s.dict.solicited then s.dict.txFrames else sat 64 (s.dict.txFrames + 1)
    .next ({ t with dict := { t.dict with field := .inCycle, solicited := true, txFrames := sent } }.raise 0x0B0C
      s.dict.nodeId 0 0)
  | false, .inCycle =>
    .next ({ t with dict := { t.dict with field := .waitBeacon, beaconLosses := sat 32 (s.dict.beaconLosses + 1) } }.raise
      0x0B0B s.dict.nodeId 0 0)
  | _, _ => .next t

/-- FIELD_ADDRESS_IN_USE. -/
def execFieldAddressInUse (s : State) : Host.Outcome State Fault Refusal :=
  if s.dict.solicited && s.dict.field != .fault && s.dict.field != .off then
    .next { s with dict := { s.dict with addressUsed := true } }
  else .next s

/-- FIELD_ADDRESS_CONFLICT. -/
def execFieldAddressConflict (cyc : Nat) (s : State) : Host.Outcome State Fault Refusal :=
  let t := s.stamp cyc
  let d := s.dict
  if d.solicited && !d.addressUsed && (d.field = .inCycle || d.field = .waitBeacon) then
    let u := { t with dict := { d with field := .fault } }.raise 0x0B0D d.nodeId 0 0
    .next (if d.field = .inCycle then u.raise 0x0B0B d.nodeId 0 0 else u)
  else .next s

/-- FIELD_NEIGHBOR_SOLICITATION. -/
def execFieldNeighborSolicitation (target : Nat) (s : State) : Host.Outcome State Fault Refusal :=
  if s.fieldUp && target = ofBe fieldAddress then
    .next { s with dict := { s.dict with advertised := s.dict.advertised + 1, rxFrames := sat 64 (s.dict.rxFrames + 1)
                                         txFrames := sat 64 (s.dict.txFrames + 1) } }
  else .next s

end Sys2Proof.Machine
end

