-- ==== Sys2Proof/Machine/Fire.lean ====
section
/-! DEFINITION. The firing rule (chapter 3) and what a firing of each kind of station does: MATMUL, CHAIN, STORE,
WELT, PORT and SYNC. -/

namespace Sys2Proof.Machine

/-! ### The firing rule -/

/-- Whether an entry may fire (R94). -/
def Fabric.ready (f : Fabric) (d : StationDesc) (q : SeqEntry) : Bool :=
  (q.needs.all fun e => e.2 ≤ (f.input d e.1).length) && q.writes.all fun e => e.2 ≤ f.credit d e.1

/-- Flits that a firing takes from an input, with the POISON of a double-bit error in its buffer (R93). -/
def Fabric.taken (f : Fabric) (d : StationDesc) (q : SeqEntry) (p : Nat) (bad : Bool) : List Flit :=
  ((f.input d p).take (q.consume.getD p 0)).map fun x => { x with poison := x.poison || bad }

/-- Every flit that a firing takes. -/
def Fabric.allTaken (f : Fabric) (d : StationDesc) (q : SeqEntry) (bad : Bool) : List Flit :=
  (List.range 5).flatMap fun p => f.taken d q p bad

/-- The next place of a station's sequence (R94, R224). -/
def Fabric.advance (f : Fabric) (i : Nat) : Fabric :=
  let (e, _) := f.seqEntry i
  let q := ((f.desc? i).bind fun (d : StationDesc) => f.image?.map fun m => m.sequence d).getD default
  f.modStation i fun x =>
    if x.done + 1 < f.repeats i then { x with entry := e, done := x.done + 1 }
    else { x with entry := if e + 1 < q.entries.length then e + 1 else q.loopStart, done := 0 }

/-- A firing starts: flits are dequeued, credits taken, and the sequence advances. -/
def State.begin (s : State) (i : Nat) (d : StationDesc) (q : SeqEntry) : State :=
  let f := q.needs.foldl (fun (f : Fabric) e => f.dequeue (d.inPort e.1) e.2) s.fab
  let f := q.writes.foldl (fun (f : Fabric) e => f.takeCredits (d.outPort e.1) e.2) f
  { s with fab := f.advance i }.progress

/-- Data tiles sent on an output are counted for TILE_SEQ (R81). -/
def countTiles (tiles : List Nat) (p : Nat) (xs : List Flit) : List Nat :=
  tiles.modify p (· + (xs.filter (·.last)).length)

/-- Send what a firing produced on an output. -/
def State.put (s : State) (i : Nat) (d : StationDesc) (p : Nat) (xs : List Flit) : State :=
  { s with fab := (s.fab.send (d.outPort p) xs).modStation i fun x => { x with tiles := countTiles x.tiles p xs } }

/-! ### What error codes find in a firing (R93, R155, R249) -/

/-- What the SRAM's check bits find in one byte a firing reads is counted and reported (R249). -/
def State.sramError (s : State) (d : StationDesc) (e : EccEvent) : State :=
  let loc := d.location
  match e with
  | .clean => s
  | .corrected =>
    let t := { s with mem := { s.mem with sramCorrected := sat 32 (s.mem.sramCorrected + 1) } }
    t.correctedError (ceMemoryTile (locTile loc)) (tileInfo loc { source := 0x11, causeClass := 0 })
  | .uncorrectable =>
    { s with mem := { s.mem with sramPoisoned := sat 32 (s.mem.sramPoisoned + 1) } }.tileError 3 loc

/-- Corrected and uncorrectable errors of the queue buffer, the accumulator and SRAM. -/
def State.fireErrors (s : State) (d : StationDesc) (env : FireEnv) : State :=
  let loc := d.location
  let s := match env.mesh with
    | .clean => s
    | .corrected =>
      let t := { s with fab := { s.fab with meshCorrected := sat 32 (s.fab.meshCorrected + 1) } }
      t.correctedError (ceLink (d.inPort 0)) (tileInfo loc { source := 0x11, causeClass := 0 })
    | .uncorrectable => s.tileError 5 loc
  let s := match env.accumulator with
    | .clean => s
    | .corrected =>
      let t := { s with mxe := { s.mxe with accCorrected := sat 32 (s.mxe.accCorrected + 1) } }
      t.correctedError (ceWorkTile (locTile loc)) (tileInfo loc { source := 0x11, causeClass := 0 })
    | .uncorrectable => s.tileError 4 loc
  env.sram.foldl (fun (s : State) e => s.sramError d e.2) s

/-- What of an environment concerns a kind of station. -/
def concerning (env : FireEnv) (k : StationKind) : FireEnv :=
  { mesh := env.mesh, accumulator := if k = .matmul then env.accumulator else .clean
    sram := if k = .store then env.sram else [], bankLost := k = .store && env.bankLost }

def badLink (env : FireEnv) : Bool := env.mesh = .uncorrectable

/-- Whether produced flit `k` carries a byte of SRAM with a double-bit error (R249). -/
def badByte (env : FireEnv) (k : Nat) : Bool := env.sram.any fun e => e.1 = k && e.2 = .uncorrectable

/-- The environment of a firing of which the flits `reads` carry bytes of SRAM. -/
def envReading (env : FireEnv) (reads : List Nat) : FireEnv :=
  { env with sram := env.sram.filter fun e => reads.contains e.1 }

/-! ### Status tokens (R97, R376) -/

/-- Copies of a status token go to the outputs that have a credit. -/
def State.sendCopies (s : State) (i : Nat) (d : StationDesc) : State :=
  match (s.station i).copy with
  | none => s
  | some c =>
    let (now, later) := c.outputs.partition fun p => 1 ≤ s.fab.credit d p
    if now.isEmpty then s
    else
      let f := now.foldl (fun (f : Fabric) p => (f.takeCredits (d.outPort p) 1).send (d.outPort p) [c.token]) s.fab
      { s with fab := f.modStation i fun x =>
        { x with copy := if later.isEmpty then none else some { c with outputs := later } } }.progress

/-- GROUP of a status or control token (Table 3-2, R84). -/
def Flit.group (x : Flit) : Nat := field x.bytes 2 2

/-- A PORT station reports a status token against its GROUP. -/
def State.reportToken (s : State) (i : Nat) (x : Flit) : State :=
  let note (r : PassRun) : PassRun := { r with tokens := r.tokens ++ [x.group] }
  { s with planner := { s.planner with running := s.planner.running.map note } }.modStation i fun y =>
    { y with muted := true }

/-- A status token at an input is dequeued, and copied to outputs. -/
def State.takeStatus (s : State) (i : Nat) (d : StationDesc) (p : Nat) (outs : List Nat) : State :=
  match (s.fab.input d p).head? with
  | none => s
  | some x =>
    let t := if d.kind = .port then s.reportToken i x else s
    let copy : Option StatusCopy := if outs.isEmpty then none else some { token := x, outputs := outs }
    let t := { t with fab := (t.fab.dequeue (d.inPort p) 1).modStation i fun y => { y with copy := copy } }
    t.progress.sendCopies i d

/-- The first of some inputs with a status token at its head. -/
def Fabric.statusAt (f : Fabric) (d : StationDesc) (ps : List Nat) : Option Nat :=
  ps.find? fun p => (f.input d p).head?.any fun x => x.kind = .status

/-! ### MATMUL and CHAIN -/

/-- The plan's events at the entry that fires (Table 7-10, R227). -/
def Fabric.planEvents (f : Fabric) (i e : Nat) (d : StationDesc) : List AccEvent :=
  let evs := ((f.image?.bind fun m => m.plan? d).map fun (b : AccBlock) => b.events).getD []
  (evs.filter fun v => v.seqEntry = e).map fun v =>
    if v.perRepeat then { v with tile := v.tile + (lget f.stations i).done } else v

/-- What a MATMUL station works with at an entry: the flits are those that the entry takes. -/
def State.matIn (s : State) (i : Nat) (d : StationDesc) (op : MatmulOp) (e : Nat) (q : SeqEntry) (bad : Bool) : MatIn :=
  { op := op, tile := locTile d.location, marks := q.marks, events := s.fab.planEvents i e d
    planned := (s.fab.image?.bind fun m => m.plan? d).isSome
    produce0 := q.produce.getD 0 0, produce1 := q.produce.getD 1 0
    stream := s.fab.taken d q 0 bad, stat := s.fab.taken d q 1 bad, reload := s.fab.taken d q 2 bad }

/-- Steps that the array holds for a set that is still loading (R140). -/
def State.shadowHeld (s : State) : State :=
  { s with mxe := { s.mxe with shadowStalls := sat 64 (s.mxe.shadowStalls + 1) } }

/-- A firing of a MATMUL station; the array holds where MatIn.fire answers none (R136, R140, R153). -/
def State.fireMatmul (s : State) (i : Nat) (d : StationDesc) (op : MatmulOp) (e : Nat) (q : SeqEntry)
    (env : FireEnv) : State :=
  let st := s.station i
  let x := s.matIn i d op e q (badLink env)
  match x.fire st.matmul s.mxe with
  | none => if x.shadowStall st.matmul then s.shadowHeld else s
  | some o =>
    let t := { s with mxe := o.eng }.modStation i fun y => { y with matmul := o.run }
    (t.begin i d q).fireErrors d { env with accumulator :=
      if env.accumulator = .corrected && o.added then .corrected else .clean }

/-- The array waits for stationary flits after a use (R140). -/
def State.loadHeld (s : State) (i : Nat) (d : StationDesc) (op : MatmulOp) (q : SeqEntry) : State :=
  let short (p : Nat) : Bool := (s.fab.input d p).length < q.consume.getD p 0
  if op.stationary ≠ 2 && (s.station i).matmul.uses ≠ 0 && short 1 && !short 0 then s.shadowHeld else s

/-- What a MATMUL station does in every cycle (R136, R141, R152): the array steps, tiles transfer, rows leave. A GANGED
array loses the step where the feeder holds no entry and the next firing would bring one. -/
def State.matmulCycle (s : State) (i : Nat) (d : StationDesc) (op : MatmulOp) (env : FireEnv) : State :=
  let st := s.station i
  let m := st.matmul
  let q := (s.fab.seqEntry i).2
  let lost := op.arrayMode = 2 && m.feeder.isEmpty && q.consume.getD 0 0 ≠ 0 && (op.stationary = 2 || m.uses ≠ 0)
  let s := if lost then { s with mxe := { s.mxe with feederStalls := sat 64 (s.mxe.feederStalls + 1) } } else s
  let x : MatIn := { s.matIn i d op 0 default false with marks := 0, events := [] }
  let o := x.advance (env.accumulator = .uncorrectable) (st.tiles.getD 0 0) (st.tiles.getD 1 0)
    { run := m, eng := s.mxe }
  let t := { s with mxe := o.eng }.modStation i fun y => { y with matmul := o.run }
  let t := (t.put i d 0 o.out0).put i d 1 o.out1
  let t := if o.out0.isEmpty && o.out1.isEmpty then t else t.progress
  t.fireErrors d { mesh := .clean, sram := [], bankLost := false, accumulator :=
    if o.rowRead || (o.added && env.accumulator = .corrected) then env.accumulator else .clean }

/-- A firing of a CHAIN station. -/
def State.fireChain (s : State) (i : Nat) (d : StationDesc) (m : Image) (q : SeqEntry) (env : FireEnv) : State :=
  let st := s.station i
  let take (p : Nat) : List Flit := s.fab.taken d q p (badLink env)
  let x : ChainIn :=
    { prog := m.program d q.sub, sub := q.sub, marks := q.marks, produce0 := q.produce.getD 0 0
      produce1 := q.produce.getD 1 0, in0 := take 0, in1 := take 1, vectors := take 2, masks := take 3 }
  match x.fire st.chain s.chn (st.tiles.getD 0 0) (st.tiles.getD 1 0) with
  | none => s
  | some o =>
    let t := { s with chn := o.counters }.modStation i fun y => { y with chain := o.run }
    (((t.begin i d q).put i d 0 o.out0).put i d 1 o.out1).fireErrors d env

/-! ### STORE (R86, R246 to R252) -/

/-- A flit is written into SRAM by a generator. -/
def State.sramWrite (s : State) (i : Nat) (d : StationDesc) (g : AddrGen) (x : Flit) : State :=
  let w := formatBits g.format
  let es := s.writeElems i (locDie d.location) g (s.station i) x
  { s with mem := { s.mem with sram := writeSram s.mem.sram (locTile d.location) (placedWrites w es) } }.modStation i
    fun y => y.wrote g x

/-- Flit `k` of a tile of `total` flits, its elements at these places of SRAM. -/
def State.sramFlit (s : State) (d : StationDesc) (g : AddrGen) (lead : Nat) (places : List Place) (k total seq : Nat)
    (poison : Bool) : Flit :=
  let w := formatBits g.format
  { kind := .data, first := k = 0, last := k + 1 = total, poison := poison, seq := seq % 256
    payload := assemble w lead (places.map (readSram s.mem.sram (locTile d.location) w))
    pads := padMarks w lead (places.map Place.marked) }

/-- Flits that a firing of a STORE station produces on output `p`: the place of each in its data tile, whose
repetitions of the entry are one block. -/
def Fabric.storeFlits (f : Fabric) (i : Nat) (q : SeqEntry) (p : Nat) : List Nat :=
  let m := q.produce.getD p 0
  (List.range m).map ((lget f.stations i).done * m + ·)

/-- A firing of a buffer or reorder STORE: consumed flits go to SRAM by WRITE_GEN, produced ones come by READ_GEN;
the repetitions of an entry read one data tile. Flits of output 1 are numbered after those of output 0. -/
def State.fireStore (s : State) (i : Nat) (d : StationDesc) (readGen writeGen : AddrGen) (q : SeqEntry)
    (env : FireEnv) : State :=
  let st := s.station i
  let n := s.fab.repeats i
  let xs := s.fab.allTaken d q (badLink env)
  let poison := anyPoison xs
  let t := xs.foldl (fun (t : State) x => t.sramWrite i d writeGen x) s
  let placed (p : Nat) : List (Nat × Nat × List Place) := (s.fab.storeFlits i q p).map fun k =>
    (k, s.flitPlaces i (locDie d.location) readGen st.readPos k (n * q.produce.getD p 0))
  let p0 := placed 0
  let p1 := placed 1
  let flits (p : Nat) (ps : List (Nat × Nat × List Place)) (from_ : Nat) : List Flit :=
    ps.zipIdx.map fun e => s.sramFlit d readGen e.1.2.1 e.1.2.2 e.1.1 (n * q.produce.getD p 0) (st.tiles.getD p 0)
      (poison || badByte env (from_ + e.2))
  let reads := (p0 ++ p1).zipIdx.filterMap fun e => if e.1.2.2.all Place.marked then none else some e.2
  let f0 := flits 0 p0 0
  let f1 := flits 1 p1 p0.length
  let most := max (q.produce.getD 0 0) (q.produce.getD 1 0)
  let t := (p0 ++ p1).foldl (fun (t : State) e => t.countPad e.2.2) t
  let t := t.modStation i fun y =>
    if n ≤ st.done + 1 && 0 < most then { y with readPos := readGen.nextPos st.readPos (n * most) } else y
  (((t.begin i d q).put i d 0 f0).put i d 1 f1).fireErrors d (envReading env reads)

/-! ### Sub-banks of SRAM (R246, R247) -/

/-- The lane bank and the line of a byte offset, and its sub-bank of the lane bank. -/
def laneBank (a : Nat) : Nat := a % 64
def sramLine (a : Nat) : Nat := a / 64
def subBank (a : Nat) : Nat × Nat := (laneBank a, sramLine a % 4)

def Place.banks : Place → List (Nat × Nat)
  | .bytes _ at_ => at_.map subBank
  | _ => []

/-- What the next firing of a STORE station claims in its first cycle, as generator number and sub-banks: each
generator moves at most one flit per cycle. -/
def State.bankClaims (s : State) (i : Nat) (d : StationDesc) (m : Image) : List (Nat × List (Nat × Nat)) :=
  let (_, q) := s.fab.seqEntry i
  let st := s.station i
  let gen (n : Nat) : AddrGen := (m.gen? (locDie d.location) n).getD default
  match m.operation d with
  | some (.store 2 base _ depth r _) =>
    if q.produce.getD 0 0 = 0 then []
    else [((gen r).location % 16, (List.range 64).map fun j => subBank (spillAt base depth st.readPos + j))]
  | some (.store _ _ _ _ r w) =>
    let p := if q.produce.getD 0 0 = 0 then 1 else 0
    let reads := ((s.fab.storeFlits i q p).take 1).map fun k =>
      ((gen r).location % 16, ((s.flitPlaces i (locDie d.location) (gen r) st.readPos k
        (s.fab.repeats i * q.produce.getD p 0)).2).flatMap Place.banks)
    let writes := ((s.fab.allTaken d q false).take 1).map fun x =>
      ((gen w).location % 16, (s.writeElems i (locDie d.location) (gen w) st x).flatMap fun e => e.1.banks)
    reads ++ writes
  | _ => []

/-- Place of a generator in the priority of a cycle: generator c mod 4 comes first. -/
def bankRank (cycle gen : Nat) : Nat := (gen + 4 - cycle % 4) % 4

/-- Whether a STORE station of a memory tile is about to fire. -/
def State.stationReady (s : State) (i : Nat) (d : StationDesc) : Bool :=
  let (_, q) := s.fab.seqEntry i
  d.kind = .store && s.fab.repeats i != 0 && (s.station i).copy.isNone && (s.fab.statusAt d (q.needs.map (·.1))).isNone && s.fab.ready d q

/-- The generators of station `i` that lose a sub-bank in this cycle: to an access of another station that this cycle has
seen, or to a station that is about to fire and comes first. That cycle c is counted from power-on is a DESIGN CHOICE,
unsafe (log entry 42). -/
def State.banksLost (s : State) (i : Nat) (d : StationDesc) (m : Image) : Nat :=
  let tile := locTile d.location
  let seen := (s.mem.claims.filter fun c => c.cycle = s.clock && c.tile = tile && c.station != i).map fun c =>
    (c.gen, c.banks)
  let others := (m.stations.zipIdx.filter fun e => e.2 != i && locTile e.1.location = tile && s.stationReady e.2 e.1).flatMap
    fun e => s.bankClaims e.2 e.1 m
  ((s.bankClaims i d m).filter fun c =>
    seen.any (fun o => o.2.any c.2.contains) ||
      others.any fun o => bankRank s.clock o.1 < bankRank s.clock c.1 && o.2.any c.2.contains).length

/-- A station makes its accesses. -/
def State.claimBanks (s : State) (i : Nat) (d : StationDesc) (m : Image) : State :=
  let new := (s.bankClaims i d m).map fun c =>
    ({ cycle := s.clock, tile := locTile d.location, station := i, gen := c.1, banks := c.2 } : BankClaim)
  { s with mem := { s.mem with claims := s.mem.claims.filter (fun c => c.cycle = s.clock) ++ new } }

/-- Cycles that generators lose (R247). -/
def State.bankStall (s : State) (n : Nat) : State :=
  { s with mem := { s.mem with bankStalls := sat 64 (s.mem.bankStalls + n) } }

/-- A firing of a spill queue (R86): it fires like every station, on the flits that its region holds. `writeFlit` counts
the flits that firings have consumed and not yet produced; what is produced leaves in order. -/
def State.fireSpill (s : State) (i : Nat) (d : StationDesc) (base depth : Nat) (q : SeqEntry) (env : FireEnv) : State :=
  let st := s.station i
  let outs := q.writes.map (·.1)
  let tile := locTile d.location
  if (st.fifo.head?.any fun x => x.kind = .status) then
    let x := (st.fifo.head?.map (s.spillLoad tile base depth st.readPos)).getD default
    let copy : Option StatusCopy := if outs.isEmpty then none else some { token := x, outputs := outs }
    let t := { s with fab := s.fab.modStation i fun y =>
      { y with fifo := y.fifo.drop 1, readPos := y.readPos + 1, copy := copy } }
    (t.progress.sendCopies i d).spillIn i
  else
    let consume := q.consume.getD 0 0
    let produce := q.produce.getD 0 0
    if st.fifo.length < st.writeFlit + consume || st.fifo.length < produce || s.fab.credit d 0 < produce then s
    else
      let xs := (st.fifo.take produce).zipIdx.map fun e =>
        let x := s.spillLoad tile base depth (st.readPos + e.2) e.1
        { x with poison := x.poison || badLink env || badByte env e.2 }
      let f := (((s.fab.takeCredits (d.outPort 0) produce).send (d.outPort 0) xs).advance i).modStation i fun y =>
        { y with fifo := y.fifo.drop produce, readPos := y.readPos + produce
                 writeFlit := y.writeFlit + consume - produce }
      ({ s with fab := f }.progress.fireErrors d (envReading env (List.range produce))).spillIn i

/-! ### WELT (R98 to R102) -/

/-- Move the head flit of an input to outputs that all hold a credit; `bad` says that what else the firing consumes
carries POISON (R93). -/
def State.moveFlit (s : State) (i : Nat) (d : StationDesc) (p : Nat) (outs : List Nat) (bad : Bool) (env : FireEnv)
    (g : StationRun → StationRun) : State :=
  match (s.fab.input d p).head? with
  | none => s
  | some x =>
    if !(outs.all fun o => 1 ≤ s.fab.credit d o) then s
    else
      let x := { x with poison := x.poison || badLink env || bad }
      let f := s.fab.dequeue (d.inPort p) 1
      let f := outs.foldl (fun (f : Fabric) o => (f.takeCredits (d.outPort o) 1).send (d.outPort o) [x]) f
      { s with fab := f.modStation i g }.progress.fireErrors d env

/-- FORK: one flit to every output. -/
def State.fireFork (s : State) (i : Nat) (d : StationDesc) (outs : Nat) (env : FireEnv) : State :=
  match s.fab.statusAt d [0] with
  | some p => s.takeStatus i d p (List.range outs)
  | none => s.moveFlit i d 0 (List.range outs) false env id

/-- A welt that a control token steers: `input` and `output` say where a tile of an index comes from and goes to. A
status token on the control queue of an unbound ROUTE, whose next firing writes an output that no token has named yet, is
copied to every output: DESIGN CHOICE, unsafe (log entry 38). -/
def State.fireSteered (s : State) (i : Nat) (d : StationDesc) (limit outs : Nat) (discards : Bool)
    (input : Nat → Nat) (output : Nat → List Nat) (env : FireEnv) : State :=
  match (s.station i).bound with
  | some b =>
    match s.fab.statusAt d [input b] with
    | some p => s.takeStatus i d p (output b)
    | none =>
      let last := ((s.fab.input d (input b)).head?.map (·.last)).getD false
      s.moveFlit i d (input b) (output b) false env fun y => { y with bound := if last then none else some b }
  | none =>
    match (s.fab.input d 4).head? with
    | none => s
    | some c =>
      if c.kind = .status then s.takeStatus i d 4 (List.range outs)
      else if c.tokenKind = 2 || c.tokenKind = 3 then s.moveFlit i d 4 (List.range outs) false env id
      else if c.tokenKind != 1 then s
      else
        let k := c.tokenIndex
        if k = 0xFF && !discards || k != 0xFF && limit ≤ k then s.stall 2
        else
          let b := if k = 0xFF then 4 else k
          match s.fab.statusAt d [input b], (s.fab.input d (input b)).head? with
          | some p, _ => s.takeStatus i d p (output b)
          | none, none => s
          | none, some x =>
            if x.kind != .data || !x.first then s
            else if !d.seqCheckOff && c.tokenSeq % 256 != x.seq then s.stall 2
            else if !((output b).all fun o => 1 ≤ s.fab.credit d o) then s
            else
              let t := { s with fab := s.fab.dequeue (d.inPort 4) 1 }
              t.moveFlit i d (input b) (output b) c.poison env fun y =>
                { y with bound := if x.last then none else some b }

/-- MERGE: whole tiles in the declared rotation, past the inputs that have ended. -/
def State.fireMerge (s : State) (i : Nat) (d : StationDesc) (ins : Nat) (rot : List Nat) (env : FireEnv) : State :=
  let st := s.station i
  let len := max 1 rot.length
  let at_ := ((List.range len).map (st.rotation + ·)).find? fun k => !st.ended.contains (rot.getD (k % len) 0)
  match at_ with
  | none => s
  | some k =>
    let p := rot.getD (k % len) 0
    match s.fab.statusAt d [p], (s.fab.input d p).head? with
    | some p, _ => s.takeStatus i d p [0]
    | none, none => s
    | none, some x =>
      if x.tokenKind = 2 then
        if ((List.range ins).all fun j => j = p || st.ended.contains j) then
          s.moveFlit i d p [0] false env fun y => { y with ended := [], rotation := k % len }
        else s.moveFlit i d p [] false env fun y => { y with ended := y.ended ++ [p], rotation := k % len }
      else if x.kind = .control then s.moveFlit i d p [0] false env id
      else s.moveFlit i d p [0] false env fun y => { y with rotation := if x.last then (k + 1) % len else k % len }

/-- A firing of a WELT station (Table 3-5). -/
def State.fireWelt (s : State) (i : Nat) (d : StationDesc) (operation ins outs : Nat) (rot : List Nat)
    (env : FireEnv) : State :=
  match operation with
  | 0 => s.fireFork i d outs env
  | 1 => s.fireSteered i d outs outs true (fun _ => 0) (fun b => if b = 4 then [] else [b]) env
  | 2 => s.fireSteered i d ins 1 false (fun b => b) (fun _ => [0]) env
  | _ => s.fireMerge i d ins rot env

/-! ### SYNC (R365, R366, R375) -/

/-- Group of the pass where its rows belong to one, else FFFFh (R375). -/
def State.tokenGroup (s : State) : Nat :=
  match groupsOf s.passRows with
  | [g] => g
  | _ => 0xFFFF

/-- The status token that precedes a released tile. -/
def statusToken (cause group object : Nat) : Flit :=
  { kind := .status, first := true, last := true, poison := false, seq := 0
    payload := payloadOf (le 2 cause ++ le 2 group ++ le 4 object) }

/-- One enabled input of a SYNC station moves at most one flit. -/
def State.fireSyncInput (i : Nat) (d : StationDesc) (o : SyncOp) (env : FireEnv) (s : State) (p : Nat) : State :=
  let k := 4 * i + p
  match (s.fab.input d p).head? with
  | none => s
  | some x =>
    if (s.station i).copy.isSome then s
    else if x.kind = .status then s.takeStatus i d p [p]
    else if s.fab.credit d p = 0 then s
    else if x.kind != .data then s.moveFlit i d p [p] false env id
    else
      let y := s.part? k
      if x.first && !y.pass then s
      else
        match (if x.first then y.token else none) with
        | some cause =>
          let f := (s.fab.takeCredits (d.outPort p) 1).send (d.outPort p) [statusToken cause s.tokenGroup o.object]
          ({ s with fab := f }.progress).modPart k fun y => { y with token := none }
        | none =>
          let t := s.moveFlit i d p [p] false env id
          if x.last then t.tileLeft i p else t

/-- A firing of a SYNC station. -/
def State.fireSync (s : State) (i : Nat) (d : StationDesc) (env : FireEnv) : State :=
  match s.syncOp i with
  | none => s
  | some o => ((List.range 4).filter fun p => bit o.ports p).foldl (State.fireSyncInput i d o env) s

/-! ### PORT reads (R87, R271, R288, R349, R407) -/

/-- Reads of another memory have the identifier of their access. -/
def PortRead.external (r : PortRead) (id : Nat) : PortRead :=
  { r with id := id, ask := [], wants := if r.ask.isEmpty then [] else [id] }

/-- Store reads of a firing, each with an identifier of its own. -/
def storeReads : Nat → List PortRead → List PortRead
  | _, [] => []
  | id, r :: rs => r.external id :: storeReads (id + 1) rs

/-- Read flits of a host window: addresses of host-link space, and the chunks that hold them. -/
def PortRead.hostRead (base : Nat) (r : PortRead) : PortRead :=
  let es := r.elems.map fun e => e.map fun (x : Nat × List Nat) => (x.1, x.2.map (base + ·))
  { r with elems := es, ask := [], wants := sectorsOf es }

/-- A flit of an answer on a lace: its bytes as they come. -/
def laceRead (number offset k total seq : Nat) (bad : Bool) : PortRead :=
  { id := number, poison := bad, width := 8, lead := 0, elems := (List.range 64).map fun j => some (0, [j]), ask := []
    wants := [number], first := k = 0, last := k + 1 = total, seq := seq, offset := offset }

/-- REQ packets for a firing, PACKET_FLITS flits each. -/
def State.laceReqs (i : Nat) (bad : Bool) (base total seq per : Nat) : Nat → Nat → Nat → State → State
  | 0, _, _, s => s
  | fuel + 1, n, k, s =>
    if n = 0 then s
    else
      let m := min n (max 1 per)
      let number := s.fab.nextRead % 2 ^ 24
      let offset := base + 64 * k
      let rs := (List.range m).map fun j => laceRead number offset (k + j) total seq bad
      let t := { s with fab := { s.fab with nextRead := s.fab.nextRead + 1 } }.modStation i fun y =>
        { y with reads := y.reads ++ rs }
      (t.sendReq i number offset).laceReqs i bad base total seq per fuel (n - m) (k + m)

/-- A read firing of a PORT station: its credits are taken, its reads are issued. A poisoned flit that it consumes
poisons what it produces (R93). -/
def State.fireRead (s : State) (i : Nat) (d : StationDesc) (p : PortOp) (q : SeqEntry) (env : FireEnv) : State :=
  let st := s.station i
  let bad := anyPoison (s.fab.allTaken d q (badLink env))
  let m := q.produce.getD 0 0
  let total := s.fab.repeats i * m
  let seq := st.tiles.getD 0 0
  let ends := decide (s.fab.repeats i ≤ st.done + 1)
  let after := if p.target = 4 then st.readPos + 64 * total else (s.fab.portGen i).1.nextPos st.readPos total
  let t := s.begin i d q
  let t := t.modStation i fun y =>
    if ends && 0 < total then { y with readPos := after, tiles := y.tiles.modify 0 (· + 1) } else y
  match p.target with
  | 4 =>
    if p.gen = 0xFFFF then (t.modStation i fun y => { y with owed := y.owed ++ List.replicate m bad }).laceEmit i
    else t.laceReqs i bad st.readPos total seq (field p.fields 2 2) m m (st.done * m)
  | n =>
    let (t, rs) := t.prepareFlits i st.readPos total seq m (st.done * m)
    let rs := rs.map fun r => { r with poison := r.poison || bad }
    match n with
    | 1 => (t.modStation i fun y => { y with reads := y.reads ++ rs }).portAdvance i
    | 2 =>
      let t := { t with fab := { t.fab with nextRead := t.fab.nextRead + m } }
      (t.modStation i fun y => { y with reads := y.reads ++ storeReads (s.fab.nextRead) rs }).portEmit i
    | _ =>
      let rs := rs.map (PortRead.hostRead (t.window (field p.fields 1 1)).1)
      let t := (t.modStation i fun y => { y with reads := y.reads ++ rs }).portEmit i
      (rs.flatMap (·.wants)).foldl (fun (t : State) a =>
        t.hostIssue (hostAccess (locDie d.location) false a 64 [] (.window i))) t

/-! ### PORT writes (R88, R115, R349, R376, R407, R511) -/

/-- Groups whose rows a poisoned flit reached a PORT station for are noted with the pass (R511). -/
def State.notePoison (s : State) (gs : List Nat) : State :=
  let note (r : PassRun) : PassRun := { r with poisoned := (r.poisoned ++ gs).eraseDups }
  { s with planner := { s.planner with running := s.planner.running.map note } }

/-- Groups of the rows that the elements of a written flit belong to; every group of the pass outside space 4. -/
def State.flitGroups (s : State) (i : Nat) (g : AddrGen) (st : StationRun) (x : Flit) : List Nat :=
  if g.space != 4 then groupsOf s.passRows
  else ((s.writtenRows i g st x).map fun e => groupOf e.1.stream).eraseDups

/-- Issue writes of host memory for a station. -/
def State.stationWrites (s : State) (i : Nat) (ws : List HostAccess) : State :=
  ws.foldl (fun (t : State) a => (t.modStation i fun y => { y with writes := y.writes + 1 }).hostIssue a) s

/-- One output of the pass: the entry at PRODUCER of the stream's output ring, and the output for the seal. A row
that produces none has nothing written. -/
def State.outputRow (s : State) (i : Nat) (d : StationDesc) (row : Nat) (tensor : Option (List Byte)) (token : Nat) :
    State :=
  match s.passRows[row]?, s.planner.running with
  | some r, some run =>
    match s.stream? r.stream with
    | none => s
    | some x =>
      if !r.output then s
      else
        let position := r.position + 1
        let room := x.outEntryBytes - 16
        let body := (tensor.getD []).take room
        let cut := decide (room < (tensor.getD []).length)
        let entry := match tensor with
          | none => le 4 token ++ le 2 position ++ le 2 0
          | some _ => le 4 position ++ le 4 body.length ++ le 8 0 ++ body
        let o : StepOutput :=
          { stream := r.stream, position := position, token := token, tensor := tensor.getD [], truncated := cut }
        let t := s.modStep run.entry.step fun y => { y with outputs := y.outputs ++ [o] }
        t.stationWrites i (hostWrites (locDie d.location) (.output run.entry.step i) 64 (s.outputAt x) entry)
  | _, _ => s

/-- A flit of outputs: sixteen tokens, or a part of a tensor row. -/
def State.outputFlit (s : State) (i : Nat) (d : StationDesc) (p : PortOp) (x : Flit) : State :=
  let st := s.station i
  if field p.fields 1 1 = 0 then
    let rows := (List.range 16).map (st.readPos + ·)
    let t := s.modStation i fun y => { y with readPos := y.readPos + 16 }
    if x.poison then
      t.notePoison ((rows.filterMap fun k => (s.passRows[k]?).map fun r => groupOf r.stream).eraseDups)
    else if st.muted then t
    else rows.zipIdx.foldl (fun (t : State) e => t.outputRow i d e.1 none (field x.bytes (4 * e.2) 4)) t
  else
    let xs := st.fifo ++ [x]
    if xs.length < field p.fields 2 2 / 64 then s.modStation i fun y => { y with fifo := xs }
    else
      let t := s.modStation i fun y => { y with fifo := [], readPos := y.readPos + 1 }
      if anyPoison xs then t.notePoison ((s.passRows[st.readPos]?).map fun r => groupOf r.stream).toList
      else if st.muted then t
      else t.outputRow i d st.readPos (some (flitBytes xs)) 0

/-- Runs of consecutive addresses. -/
def byteRuns : KMap (Byte × Byte) → List (Nat × List Byte)
  | [] => []
  | (a, b) :: ws =>
    match byteRuns ws with
    | (c, bs) :: rs => if c = a + 1 then (a, b.1 :: bs) :: rs else (a, [b.1]) :: (c, bs) :: rs
    | [] => [(a, [b.1])]

/-- A flit written into a host window. -/
def State.windowFlit (s : State) (i : Nat) (d : StationDesc) (p : PortOp) (x : Flit) : State :=
  let (g, die) := s.fab.portGen i
  let w := formatBits g.format
  let es := s.writeElems i die g (s.station i) x
  let t := s.modStation i fun y => y.wrote g x
  if x.poison then t.notePoison (groupsOf s.passRows)
  else if (s.station i).muted then t
  else
    let base := (s.window (field p.fields 1 1)).1
    (byteRuns (placedWrites w es)).foldl (fun (t : State) r =>
      t.stationWrites i (hostWrites (locDie d.location) (.window i) 64 (base + r.1) r.2)) t

/-- A flit sent to another module: a packet goes out when it is full, or its tile ends. -/
def State.laceFlit (s : State) (i : Nat) (p : PortOp) (x : Flit) : State :=
  let s := if x.poison then s.notePoison (groupsOf s.passRows) else s
  if (s.station i).muted then s
  else
    let xs := (s.station i).fifo ++ [x]
    if xs.length < field p.fields 2 2 && !x.last then s.modStation i fun y => { y with fifo := xs }
    else
      let t := s.modStation i fun y => { y with fifo := [] }
      let dest := t.lce.members.getD (field p.fields 0 1) (t.lce.position.getD 0)
      t.inject { dest := dest, src := 0, route := 0, mclass := 0, flits := 0, channel := field p.fields 4 2 } xs

/-- A data flit that a PORT station writes. -/
def State.writeFlit (s : State) (i : Nat) (d : StationDesc) (p : PortOp) (x : Flit) : State :=
  match p.target with
  | 1 =>
    let g := (s.fab.portGen i).1
    let t := if x.poison then s.notePoison (s.flitGroups i g (s.station i) x) else s
    t.hbmWriteFlit i x
  | 3 => if field p.fields 0 1 = 1 then s.outputFlit i d p x else s.windowFlit i d p x
  | 4 => s.laceFlit i p x
  | _ => s

/-- END_OF_PASS at a PORT station (R115); a dispatch side has then sent its batch. -/
def State.endOfPass (s : State) (i : Nat) (p : PortOp) : State :=
  let t := s.modStation i fun y => { y with passEnded := true }
  if p.target = 5 && p.direction = 0 then t.batchEnds else t

/-- END_OF_PASS among the flits that a firing of a PORT station has consumed. -/
def State.controls (s : State) (i : Nat) (p : PortOp) (xs : List Flit) : State :=
  if xs.any fun x => x.tokenKind = 2 then s.endOfPass i p else s

/-- A firing of a dispatch station: its flits wait for a whole row, its outputs for what can leave (R433, R434). -/
def State.fireDispatch (s : State) (i : Nat) (d : StationDesc) (p : PortOp) (q : SeqEntry) (env : FireEnv) : State :=
  let muted := (s.station i).muted
  let taken := s.fab.taken d q 0 (badLink env)
  let xs := (taken.filter (·.kind = .data)).map fun x => { x with poison := x.poison || (muted && p.direction = 0) }
  let xs := if muted && p.direction = 1 then [] else xs
  let owed := q.produce.getD 0 0
  let t := (s.begin i d q).modStation i fun y => { y with fifo := y.fifo ++ xs, writeFlit := y.writeFlit + owed }
  let t := if p.direction = 0 && anyPoison xs then t.notePoison (groupsOf s.passRows) else t
  let t := if p.direction = 0 then t.takeRows i p 64 else t.serveResults i p 64
  (t.controls i p taken).dspAdvance

/-- A write firing of a PORT station: its flits are written one after another. -/
def State.fireWrite (s : State) (i : Nat) (d : StationDesc) (p : PortOp) (q : SeqEntry) (env : FireEnv) : State :=
  let xs := s.fab.taken d q 0 (badLink env)
  (xs.foldl (fun (t : State) x => if x.kind = .data then t.writeFlit i d p x else t) (s.begin i d q)).controls i p xs

/-- A firing of a PORT station (R94). -/
def State.firePort (s : State) (i : Nat) (d : StationDesc) (p : PortOp) (q : SeqEntry) (env : FireEnv) : State :=
  if !s.fab.ready d q then s
  else
    let env := if q.needs.isEmpty then { env with mesh := .clean } else env
    (if p.target = 5 then s.fireDispatch i d p q env
     else if p.direction = 0 then (s.fireRead i d p q env).controls i p (s.fab.taken d q 0 false)
     else s.fireWrite i d p q env).fireErrors d env

/-! ### STATION_FIRE -/

/-- A station with a firing sequence is examined (R94). -/
def State.fireEntry (s : State) (i : Nat) (d : StationDesc) (m : Image) (env : FireEnv) : State :=
  let (e, q) := s.fab.seqEntry i
  let outs := q.writes.map (·.1)
  if s.fab.repeats i = 0 then s
  else
  match m.operation d with
  | some (.store 2 base _ depth _ _) =>
    let lost := if s.stationReady i d then s.banksLost i d m + ofBit env.bankLost else 0
    if d.kind != .store then s
    else if 0 < lost then s.bankStall lost
    else (s.claimBanks i d m).fireSpill i d base depth q env
  | op =>
    match s.fab.statusAt d (q.needs.map (·.1)) with
    | some p => s.takeStatus i d p outs
    | none =>
      match d.kind, op with
      | .port, _ =>
        match s.fab.portOp? i with
        | some p => s.firePort i d p q env
        | none => s
      | .matmul, some (.matmul op) =>
        if s.fab.ready d q then s.fireMatmul i d op e q env else s.loadHeld i d op q
      | .chain, _ => if s.fab.ready d q then s.fireChain i d m q env else s
      | .store, some (.store _ _ _ _ r w) =>
        let gen (n : Nat) : AddrGen := (m.gen? (locDie d.location) n).getD default
        let lost := s.banksLost i d m + ofBit env.bankLost
        if !s.fab.ready d q then s
        else if 0 < lost then s.bankStall lost
        else (s.claimBanks i d m).fireStore i d (gen r) (gen w) q env
      | _, _ => s

/-- What the examination of a station does. -/
def State.examine (s : State) (i : Nat) (d : StationDesc) (m : Image) (env : FireEnv) : State :=
  let s := match d.kind, m.operation d with
    | .matmul, some (.matmul op) => s.matmulCycle i d op env
    | _, _ => s
  if (s.station i).copy.isSome then s.sendCopies i d
  else
    match d.kind with
    | .welt =>
      match m.operation d with
      | some (.welt operation ins outs rot) => s.fireWelt i d operation ins outs rot env
      | _ => s
    | .sync => s.fireSync i d env
    | _ => s.fireEntry i d m env

/-- STATION_FIRE (R94): one station is examined; nothing starts outside a running pass. -/
def execStationFire (cyc station : Nat) (env : FireEnv) (s : State) : Host.Outcome State Fault Refusal :=
  match s.fab.desc? station, s.fab.image? with
  | some d, some m =>
    if s.fab.state != .running || s.syn.phase != .none then .next s
    else .next (((s.stamp cyc).examine station d m (concerning env d.kind)).torusDone)
  | _, _ => .next s

end Sys2Proof.Machine
end

