-- ==== Sys2Proof/Machine/Boundary.lean ====
section
/-! DEFINITION. What a slot boundary does, in the order of R490. -/

namespace Sys2Proof.Machine

/-! ### Clock, fabric and memory -/

/-- The switch back to REFCLK, and the decoder modes (R52, R263). -/
def State.clockBoundary (s : State) : State :=
  let t := s.tb
  let mode (n : Nat) (x : Insole) : Insole := { x with mode := s.reg (Reg.INS_ECC_MODE + 256 * n) }
  let back := t.refclkBack && !t.refclkLate
  { s with tb := { t with boundaryDue := false, internalClock := t.internalClock && !back
                          refclkBack := t.refclkBack && t.refclkLate, refclkLate := false }
           mem := { s.mem with insoles := s.mem.insoles.mapIdx mode }
           sec := { s.sec with ownerFresh := false } }

/-- Exchange of the histogram banks once FAB_HIST_FRAMES frames have passed (R124, R125). -/
def State.histBoundary (s : State) : State :=
  let f := s.fab
  if f.histFrames + 1 < f.histPeriod then { s with fab := { f with histFrames := f.histFrames + 1 } }
  else
    let seq := min (f.histAcc.seq + 1) (2 ^ 32 - 1)
    let resident := (List.range 4).filter fun n => (f.slot n).state = .ready || (f.slot n).state = .active
    { s with fab := { f with
        histFrames := 0, histPeriod := s.reg Reg.FAB_HIST_FRAMES
        histRead := some { f.histAcc with stop := s.tb.boundaryFst, seq := seq }
        histAcc := { interval := s.reg Reg.FAB_SAMPLE_INTERVAL, start := s.tb.boundaryFst, seq := seq
                     lastIds := resident.foldl (fun m n => kset m n (f.slot n).lastId) [] } } }

/-! ### Power (R549, R552, R555) -/

/-- Sensor readings averaged over the last slot. -/
def State.readSensors (s : State) (env : BoundaryEnv) : State :=
  let put (d : Nat) (x : Domain) : Domain := { x with power := sat 16 (env.domainPower.getD d 0) }
  { s with pwr := { s.pwr with inputPower := sat 16 env.inputPower, inputVoltage := sat 16 env.inputVoltage
                               domains := s.pwr.domains.mapIdx put } }

/-- Cap changes that apply at this boundary, and what the plan costs under them. -/
def State.capBoundary (s : State) (env : BoundaryEnv) (frame : Bool) : State :=
  let t := ((s.readSensors env).fastBoundary).thermalBoundary env.temperature frame
  if t.pwr.recost then { t with pwr := { t.pwr with recost := false } }.recostPlan false else t

/-- The drain at a boundary; a context that the drain leaves is discarded (Table 11-8). -/
def State.drainSlot (s : State) : State :=
  let t := s.startDrain.drainFrame
  let t := if t.pwr.drainEffective then t.discardContext State.failStep else t
  t.drainBoundary

/-! ### Store, sync and contexts -/

/-- Staged epochs, released ones, shards and adapters that become available (R316 to R322). -/
def State.storeBoundary (s : State) : State :=
  let t := { s with store := s.store.boundary }.epochCommit
  let before := t.store.old
  let t := t.epochRelease
  let t := if before.isSome && t.store.old.isNone then t.discardContext State.rerunOwn else t
  t.loadAhead

/-- A saved context that a span fault has marked is discarded. -/
def State.lostContext (s : State) : State :=
  if s.syn.context.any fun (c : SavedContext) => c.lost then s.discardContext State.rerunOwn else s

/-! ### Planning -/

/-- CONSUMER of a completion ring, of the output ring of a stream, and of the event ring. -/
def State.readComp (s : State) (e : Nat × Nat) : State :=
  match kget? s.srv.comp e.1 with
  | none => s
  | some r => s.indexRead 1 (s.compBase e.1 + 0x40) fun t =>
    { t with srv := { t.srv with comp := kset t.srv.comp e.1 { r with consumer := e.2 % 2 ^ 32 } } }

def State.readOutput (s : State) (e : Nat × Nat) : State :=
  match s.stream? e.1 with
  | none => s
  | some x => s.indexRead 1 (x.outOffset + 0x40) fun t => t.modStream e.1 fun y => { y with outConsumer := e.2 % 2 ^ 32 }

def State.readEvent (s : State) (consumer : Nat) : State :=
  if s.reg Reg.SRV_EVENT_ENTRIES = 0 then s
  else s.indexRead 1 (s.reg Reg.SRV_EVENT_BASE + 0x40) fun t =>
    { t with srv := { t.srv with eventConsumer := consumer % 2 ^ 32 } }

/-- Indices that the host has moved, as read at this boundary. -/
def State.readConsumers (s : State) (env : BoundaryEnv) : State :=
  if !s.hlk.up then s
  else (env.outConsumers.foldl State.readOutput (env.compConsumers.foldl State.readComp s)).readEvent env.eventConsumer

/-- Planner objects and tables committed in the last frame come into force (R63, R339, R423). -/
def State.frameObjects (s : State) : State :=
  let t := { s with planner := { s.planner with class3Min := s.reg Reg.SRV_CLASS3_MIN
                                                interval := s.reg Reg.SRV_INTAKE_INTERVAL }
                    srv := { s.srv with budgets := s.srv.budgetsNext.getD s.srv.budgets, budgetsNext := none } }
  t.applyTables

/-- Admission at a frame boundary (R72 to R74, R410, R522). -/
def State.admissionBoundary (s : State) : State :=
  let t := s.releaseReservations
  let t := match t.planner.rerun with
    | some cause => { t with planner := { t.planner with rerun := none } }.readmit cause
    | none => t
  let t := if t.lce.spanState != .intact && !t.class0.isEmpty then t.downgrade t.class0 3 else t
  t.restore

/-- The plan at a boundary: fixed at a frame boundary, filled at its tail elsewhere (R55, R62). -/
def State.planBoundary (s : State) (env : BoundaryEnv) (frame : Bool) : State :=
  let ps := if s.planning then env.proposals else []
  let s := if frame then { s with fab := { s.fab with safeNew := [] } } else s
  let t := if frame then ((s.admissionBoundary.endHold).acceptAll.newWindow).fixPlan ps else s.tailFill ps
  if t.planning then t.planResume else t

/-- Parks and unparks that are due, while their stream is in no turn and no step (R278). -/
def State.parkBoundary (s : State) : State :=
  let free (t : State) (n : Nat) : Bool :=
    ((t.stream? n).all fun x => x.turn.isNone) && !(t.planner.steps.any fun x => x.streams.contains n)
  let t := s.pages.parkAsked.foldl (fun (t : State) n => if free t n then t.startPark n else t) s
  t.srv.streams.foldl (fun (t : State) (e : Nat × Stream) =>
    match e.2.unparkAsked, kget? t.pages.moves e.1 with
    | some tag, none => (t.modStream e.1 fun y => { y with unparkAsked := none }).startUnpark e.1 tag
    | _, _ => t) t

/-! ### The intake read (R331, R332) -/

/-- Whether a boundary reads the intake ring: the plan's interval names it, and the module served before it. -/
def State.readsIntake (s : State) : Bool :=
  s.tb.slot % max 1 s.planner.interval = 0 && s.hlk.up && !s.pwr.warn && s.pwr.hotSwap = .inService &&
    s.reg Reg.SRV_INTAKE_ENTRIES != 0

/-- The read begins with PRODUCER; none where the read of it failed. -/
def State.intakeRead (s : State) (producer : Option Nat) : State :=
  match producer with
  | none => s
  | some p =>
    let k := s.srv.intake
    let n := (p + 2 ^ 32 - k.consumer) % 2 ^ 32
    let t := s.modIntake fun k => { k with producer := p % 2 ^ 32, frame := s.tb.frame, reads := sat 64 (k.reads + 1) }
    if s.reg Reg.SRV_INTAKE_ENTRIES < n then (t.modIntake fun k => { k with left := 0 }).intakeFault k.consumer 1
    else t.modIntake fun k => { k with left := min n (s.reg Reg.SRV_INTAKE_BATCH) }

/-- PRODUCER is read where the intake window allows it. -/
def State.intakeProbe (s : State) (producer : Option Nat) : State :=
  s.indexRead 0 (s.reg Reg.SRV_INTAKE_BASE) fun t => t.intakeRead producer

/-! ### The boundary -/

/-- Modules in ACTIVE (R444), and the claim (R499). -/
def State.reportBoundary (s : State) : State :=
  { s with hlk := { s.hlk with trained := (s.hlk.modules.filter fun (m : UcieModule) => m.state = .active).length }
           ras := { s.ras with claimMode := s.claimModeNow } }

/-- The actions of the time base, fences and the cap, which come first. -/
def State.earlyBoundary (s : State) (env : BoundaryEnv) (frame : Bool) : State :=
  let t := s.clockBoundary
  let t := if frame then t.histBoundary else t
  (((t.capBoundary env frame).bootBoundary).applyIdentity).drainSlot.resetOn

/-- What follows them in a module that is not in reset: fences, units, the plan, transactions, the intake read. -/
def State.lateBoundary (s : State) (env : BoundaryEnv) (frame : Bool) : State :=
  let served := s.boot.state = .serving
  let t := ((s.applyFences.resetGroups).lostContext.laceBoundary frame).storeBoundary
  let t := t.readConsumers env
  let t := (if frame then t.frameObjects else t).planBoundary env frame
  let t := t.parkBoundary
  let t := { t with srv := t.srv.dueNotices }
  let t := t.reportBoundary.txBoundary
  let t := if served && t.boot.state = .serving && t.readsIntake then t.intakeProbe env.intakeProducer else t
  t.pump

/-- SLOT_BOUNDARY: the actions of a boundary that has been placed, once. -/
def execSlotBoundary (env : BoundaryEnv) (s : State) : Host.Outcome State Fault Refusal :=
  if !s.tb.boundaryDue || s.pwr.coreOff then .next s
  else
    let frame := s.tb.slot = 0 && s.tb.state != .acquiring
    let t := s.earlyBoundary env frame
    .next (if t.inReset || t.pwr.coreOff then t else t.lateBoundary env frame)

end Sys2Proof.Machine
end

