-- ==== Sys2Proof/Machine/Memory.lean ====
section
/-! DEFINITION. Memory commands (chapter 8): HBM reads and writes complete, the patrol scrub, eye tracking, the end
of INIT, and the moves of KV pages. -/

namespace Sys2Proof.Machine

/-! ### HBM accesses -/

/-- LOCATION of the station that made a read, FFFFh for a stream engine. -/
def State.requesterLoc (s : State) : Requester → Nat
  | .station i => ((s.fab.desc? i).map (·.location)).getD 0xFFFF
  | .engine => 0xFFFF

/-- Whether an access to a sector that arrived before access `id`, one of the two a write, is still to be served (R258). -/
def State.accessWaits (s : State) (id mpa : Nat) (write : Bool) : Bool :=
  (s.mem.writes.any fun w => w.mpa = mpa && w.id < id) || write && s.mem.reads.any fun r => r.mpa = mpa && r.id < id

/-- HBM_READ_COMPLETE (R258 to R266): decoded in the mode it started with. The data of a cancelled read is
discarded (R105). The insole serves a sector's accesses in their order of arrival: before its turn the event changes
nothing (log entry 7). -/
def execHbmReadComplete (cyc read : Nat) (errors : List (Nat × Byte)) (s : State) :
    Host.Outcome State Fault Refusal :=
  match s.mem.reads.find? (·.id = read) with
  | none => .next s
  | some r =>
    if s.accessWaits read r.mpa false then .next s
    else
    let s := s.stamp cyc
    let stack := r.mpa / 2 ^ 36
    let s := { s with mem := { s.mem with reads := s.mem.reads.filter (·.id != read) } }
    let (c, n, h) := readSector stack (s.insole stack) s.mem.hbm r.mpa r.noAllocate errors
    let s := s.setInsole stack n h
    let (data, poison, s) := s.decoded stack r.mpa (s.requesterLoc r.requester) c
      (s.decodeAt stack r.mpa r.mode c)
    match r.requester, r.cancelled with
    | .station i, false =>
      .next ((s.modStation i fun x => { x with reads := arrive r.mpa data poison x.reads }).portAdvance i).progress
    | _, _ => .next s

/-- HBM_WRITE_ACCEPTED (R258, R259, R266), in the sector's order of arrival; the next sectors of the station may then
follow (R271). -/
def execHbmWriteAccepted (cyc write : Nat) (errors : List (Nat × Byte)) (s : State) :
    Host.Outcome State Fault Refusal :=
  match s.mem.writes.find? (·.id = write) with
  | none => .next s
  | some w =>
    if s.accessWaits write w.mpa true then .next s
    else
    let s := s.stamp cyc
    let stack := w.mpa / 2 ^ 36
    let s := { s with mem := { s.mem with writes := s.mem.writes.filter (·.id != write) } }
    let (n, h) := writeSector stack (s.insole stack) s.mem.hbm w.mpa w.bytes w.mask w.noAllocate w.mode errors
    let s := s.setInsole stack n h
    match w.requester with
    | .station i => .next ((s.modStation i fun x => { x with writes := x.writes - 1 }).portAdvance i).progress
    | .engine => .next s

/-- Whether a stack serves (Table 8-5). -/
def StackState.serves : StackState → Bool
  | .ready | .degraded => true
  | .off | .init | .failed => false

/-- PATROL_SCRUB_READ (R267). A marked sector counts as a read under R265; `last` ends a patrol pass. -/
def execPatrolScrubRead (cyc stack sector : Nat) (errors : List (Nat × Byte)) (last : Bool) (s : State) :
    Host.Outcome State Fault Refusal :=
  onUnit (stack < s.part.hbmStacks && sector < 0xC00000000 / 64) (
    if !(s.insole stack).state.serves then s
    else
      let s := s.stamp cyc
      let mpa := stack * 2 ^ 36 + 64 * sector
      let c := withErrors (hbmSector s.mem.hbm mpa) errors
      let d := s.decodeAt stack mpa (s.insole stack).mode c
      let t := match d with
        | .marked => s.modInsole stack fun n => { n with poisonReads := sat 32 (n.poisonReads + 1) }
        | .uncorrectable => (s.decoded stack mpa 0xFFFF c d).2.2
        | .good es =>
          let t := (s.decoded stack mpa 0xFFFF c d).2.2
          { t with mem := { t.mem with hbm := putSector t.mem.hbm mpa (addErrors c es) } }
      if last then t.modInsole stack fun n => { n with scrubDone := s.fst } else t)

/-- A pin is marked degraded (R268): a second one on its pseudo-channel fails the stack. -/
def State.degradePin (s : State) (stack pc pin eye : Nat) : State :=
  let n := s.insole stack
  if n.degraded.contains (34 * pc + pin) then s
  else
    let two := (n.badPin pc).isSome
    let t := s.modInsole stack fun n =>
      { n with degraded := n.degraded ++ [34 * pc + pin]
               state := if n.state = .ready then .degraded else n.state }
    let t := t.raise 0x0502 (stack + 256 * pc + 65536 * pin) 0 eye
    if two then t.failStack stack else t

/-- EYE_ADJUST (R268), in steps of 1/64 unit interval: the delay moves away from the side with more errors; below
0.20 the pin is retrained, below 0.10 after that it is degraded. -/
def execEyeAdjust (cyc stack pseudoChannel pin : Nat) (reading : EyeReading) (s : State) :
    Host.Outcome State Fault Refusal :=
  onUnit (stack < s.part.hbmStacks && pseudoChannel < 64 && pin < 34) (
    if !(s.insole stack).state.serves then s
    else
      let s := s.stamp cyc
      let key := 34 * pseudoChannel + pin
      let moves := reading.early + 16 < reading.late || reading.late + 16 < reading.early
      let step : Int := if reading.late < reading.early then 1 else -1
      let eye := if 5 * reading.eye < 64 then reading.retrained else reading.eye
      let t := s.modInsole stack fun n =>
        { n with delays := if moves then kset n.delays key (kgetD n.delays key 0 + step) else n.delays
                 eyeAdjusts := if moves then sat 32 (n.eyeAdjusts + 1) else n.eyeAdjusts
                 eyeMin := if n.eyeMin = 0 then eye % 256 else min n.eyeMin (eye % 256) }
      if 5 * reading.eye < 64 && 10 * eye < 64 then t.degradePin stack pseudoChannel pin eye else t)

/-- STACK_INIT_COMPLETE (R269): every sector holds zero with valid check symbols. A degraded pin stays degraded, and two on
one pseudo-channel fail the stack (R268). -/
def execStackInitComplete (stack : Nat) (s : State) : Host.Outcome State Fault Refusal :=
  onUnit (stack < s.part.hbmStacks) (
    if (s.insole stack).state = .init then
      let lo := 68 * (stack * 2 ^ 30)
      let n := s.insole stack
      let t := s.setInsole stack { n with state := if n.degraded.isEmpty then .ready else .degraded, lines := [], plru := [] }
        (clearBytes s.mem.hbm lo (lo + 68 * 2 ^ 30))
      if (List.range 64).any fun pc => 2 ≤ (n.degraded.filter fun d => d / 34 = pc).length then t.failStack stack else t
    else s)

/-! ### Page moves (R278 to R281, R626) -/

/-- Change a page table entry. -/
def Pages.mod (p : Pages) (n page : Nat) (f : PageEntry → PageEntry) : Pages :=
  { p with table := kmod p.table (pageKey n page) f }

/-- A page leaves its frame. -/
def Pages.freePage (p : Pages) (n page : Nat) (f : PageEntry → PageEntry) : Pages :=
  match kget? p.table (pageKey n page) with
  | some e => { p.mod n page f with freeFrames := freeFrame p.freeFrames e.frame }
  | none => p

/-- Raise MEM_PARK_FAILED and count it (Table 8-7). -/
def State.parkFailed (s : State) (n page row : Nat) : State :=
  { s with pages := { s.pages with failed := sat 32 (s.pages.failed + 1) } }.raiseFor 0x0402 (groupOf n) n page row

/-- A park ends before every page is PARKED (R626). -/
def State.endPark (s : State) (n : Nat) : State :=
  let moved := (s.pages.parkedPages n).length
  let tag := ((s.stream? n).bind (·.unparkTag)).getD 0
  let t := { s with pages := { s.pages with moves := kdel s.pages.moves n } }
  match s.stream? n with
  | some x =>
    if x.state = .ending then t
    else (t.modStream n fun y => { y with unparkTag := none }).notifyLater
      { stream := n, status := Status.PARK_FAILED, reqTag := tag, kind := 5, flags := 0, data := moved }
  | none => t

/-- A move is done with one page, copied or skipped: the next begins, or the park is complete. -/
def State.pageOut (s : State) (n copied : Nat) : State :=
  let p := { s.pages with moves := kmod s.pages.moves n fun m =>
      { m with left := m.left.drop 1, moved := m.moved + copied } }
  let t := { s with pages := p }
  match kget? p.moves n, s.stream? n with
  | some m, some x =>
    if !m.left.isEmpty then { t with pages := p.startOut n }
    else
      let t := { t with pages := { p with moves := kdel p.moves n } }
      if x.state = .ending then t
      else (t.modStream n fun y => { y with unparkTag := none }).notifyLater
        { stream := n, status := Status.PARKED, reqTag := x.unparkTag.getD 0, kind := 5, flags := 0, data := m.moved }
  | _, _ => t

/-- The sectors of a page, the half-page of die 0 first. -/
def State.pageSectors (s : State) (frame : Nat) : List Nat :=
  (List.range 2).flatMap fun die =>
    let t := lget ((s.store.active.map (·.manifest.tensors)).getD []) die
    (List.range (t.bytes / 64)).map fun k => frameMpa s.part die frame t (64 * k)

/-- One more sector is read: whether one so far could not be delivered clean. -/
def State.readPart (p : Bool × State) (mpa : Nat) : Bool × State :=
  (p.1 || (p.2.readNow mpa 0xFFFF 0xFF true).2.1, (p.2.readNow mpa 0xFFFF 0xFF true).2.2)

/-- A page is read for a copy to the host, as a stream-engine access (R259, R278), with whether a sector could not be
delivered clean. The bytes go to host memory, which is outside the module. -/
def State.pageRead (s : State) (frame : Nat) : Bool × State := (s.pageSectors frame).foldl State.readPart (false, s)

/-- A page that comes from its slot is written into its frame (R259, R278). -/
def State.pageWrite (s : State) (frame : Nat) (data : List Byte) : State :=
  (s.pageSectors frame).zipIdx.foldl (fun (t : State) e =>
    t.engineWrite e.1 ((List.range 64).map fun j => data.getD (64 * e.2 + j) 0)) s

/-- A page lies in its parking slot; a clean one was not copied. -/
def State.pageIn (s : State) (stream page : Nat) (clean : Bool) : State :=
  let p := s.pages.freePage stream page fun x => { x with state := .parked, hostValid := true, dirty := false }
  { s with pages := { p with skippedClean := if clean then sat 32 (p.skippedClean + 1) else p.skippedClean
                             bytesOut := if clean then p.bytesOut else sat 64 (p.bytesOut + s.pageBytes) } }

/-- A move out fails, with its row of Table 8-7: the page stays, and the park ends. -/
def State.parkBack (s : State) (stream page row : Nat) : State :=
  ((({ s with pages := s.pages.mod stream page fun x => { x with state := .resident, hostValid := false } }
    ).parkFailed stream page row).endPark stream).settleEnding stream

/-- How a move out ends (Table 8-7). -/
def State.moveOutEnds (s : State) (stream page : Nat) (clean : Bool) : MoveOutcome → State
  | .done => ((s.pageIn stream page clean).pageOut stream (if clean then 0 else 1)).settleEnding stream
  | .hbmError => (s.parkBack stream page 3).askReset (groupOf stream) 6
  | .linkDown => s.parkBack stream page 1
  | .hostError | .writeFailed => s.parkBack stream page 5

/-- PAGE_PARKED (R278, Table 8-7). The page is read as it is copied, and a sector that cannot be delivered clean stops the
move. -/
def execPageParked (cyc stream page : Nat) (outcome : MoveOutcome) (s : State) : Host.Outcome State Fault Refusal :=
  match kget? s.pages.table (pageKey stream page) with
  | none => .next s
  | some e =>
    if e.state ≠ .movingOut then .next s
    else
      let t := s.stamp cyc
      let clean := e.hostValid && !e.dirty
      let r := if outcome = .done && !clean then t.pageRead e.frame else (false, t)
      .next (r.2.moveOutEnds stream page clean (if r.1 then .hbmError else outcome))

/-- UNPARK_PAGE_START (R278): frames are taken in request order, and none while the host link is down. -/
def execUnparkPageStart (cyc stream page : Nat) (s : State) : Host.Outcome State Fault Refusal :=
  match s.pages.frameWait, s.pages.freeFrames with
  | w :: rest, f :: frames =>
    if w = (stream, page) && s.hlk.up then
      let p := { s.pages with frameWait := rest, freeFrames := frames }
      .next { s.stamp cyc with pages := p.mod stream page fun x => { x with state := .movingIn, frame := f } }
    else .next s
  | _, _ => .next s

/-- The last page of an unpark is back: the stream goes on with its turn, or is IDLE. -/
def State.unparkDone (s : State) (n : Nat) : State :=
  match s.stream? n with
  | none => s
  | some x =>
    let t := { s with pages := { s.pages with moves := kdel s.pages.moves n } }
    let moved := ((kget? s.pages.moves n).map (·.moved)).getD 0
    if x.state = .ending then t
    else
      let t := t.modStream n fun y =>
        { y with state := if y.state = .parked then .idle else y.state, unparkTag := none }
      t.notifyLater
        { stream := n, status := Status.UNPARKED, reqTag := x.unparkTag.getD 0, kind := 6, flags := 0, data := moved }

/-- A page is back in its frame. -/
def State.pageBack (s : State) (stream page : Nat) : State :=
  let p := s.pages.mod stream page fun x => { x with state := .resident, hostValid := true, dirty := false }
  { s with pages := { p with bytesIn := sat 64 (p.bytesIn + s.pageBytes)
                             moves := kmod p.moves stream fun m =>
                               { m with left := m.left.filter (· != page), moved := m.moved + 1 } } }

/-- How a move in ends (Table 8-7). -/
def State.moveInEnds (s : State) (stream page : Nat) : MoveOutcome → State
  | .done =>
    let t := s.pageBack stream page
    let left := ((kget? t.pages.moves stream).map (·.left)).getD [0]
    (if left.isEmpty then t.unparkDone stream else t).settleEnding stream
  | .linkDown =>
    let p := s.pages.freePage stream page fun x => { x with state := .parked }
    let ending := ((s.stream? stream).map (·.state)) = some .ending
    let p := if ending then p else { p with frameWait := (stream, page) :: p.frameWait }
    ({ s with pages := p }.parkFailed stream page 2).settleEnding stream
  | .hostError =>
    let p := s.pages.freePage stream page fun x => { x with state := .parked, hostValid := false }
    (({ s with pages := p }.parkFailed stream page 4).askReset (groupOf stream) 6).settleEnding stream
  | .hbmError | .writeFailed => s

/-- PAGE_UNPARKED (R278, Table 8-7), with what the slot holds. -/
def execPageUnparked (cyc stream page : Nat) (outcome : PageCopy) (s : State) :
    Host.Outcome State Fault Refusal :=
  match kget? s.pages.table (pageKey stream page) with
  | none => .next s
  | some e =>
    if e.state ≠ .movingIn then .next s
    else
      let t := s.stamp cyc
      .next ((if outcome.ending = .done then t.pageWrite e.frame outcome.data else t).moveInEnds stream page
        outcome.ending)

end Sys2Proof.Machine
end

