-- ==== Sys2Proof/Machine/Dispatch.lean ====
section
/-! DEFINITION. One arm per command: what `exec` does is the meaning that the arm calls. -/

namespace Sys2Proof.Machine

def exec (i : Instr) (s : State) : Host.Outcome State Fault Refusal :=
  match i with
  | .frefEdge refclks => Sys2Proof.Machine.execFrefEdge refclks s
  | .frefPulseClassified cyc highTime => Sys2Proof.Machine.execFrefPulseClassified cyc highTime s
  | .flywheelBoundary => Sys2Proof.Machine.execFlywheelBoundary s
  | .slotBoundary env => Sys2Proof.Machine.execSlotBoundary env s
  | .holdoverLimit => Sys2Proof.Machine.execHoldoverLimit s
  | .refclkLoss => Sys2Proof.Machine.execRefclkLoss s
  | .refclkReturn cycles => Sys2Proof.Machine.execRefclkReturn cycles s
  | .frameCountLoad value => Sys2Proof.Machine.execFrameCountLoad value s
  | .realignArm => Sys2Proof.Machine.execRealignArm s
  | .realignDisarm => Sys2Proof.Machine.execRealignDisarm s
  | .planEntryStart cyc => Sys2Proof.Machine.execPlanEntryStart cyc s
  | .passEnd cyc => Sys2Proof.Machine.execPassEnd cyc s
  | .wcetOverrun cyc => Sys2Proof.Machine.execWcetOverrun cyc s
  | .stationFire cyc station env => Sys2Proof.Machine.execStationFire cyc station env s
  | .flitDelivered cyc queue ecc => Sys2Proof.Machine.execFlitDelivered cyc queue ecc s
  | .creditReturned queue => Sys2Proof.Machine.execCreditReturned queue s
  | .fabricStall cyc => Sys2Proof.Machine.execFabricStall cyc s
  | .voidingComplete cyc => Sys2Proof.Machine.execVoidingComplete cyc s
  | .fabSnapRelease value => Sys2Proof.Machine.execFabSnapRelease value s
  | .swapComplete cyc => Sys2Proof.Machine.execSwapComplete cyc s
  | .queueSample cyc => Sys2Proof.Machine.execQueueSample cyc s
  | .checksumCompare cyc c => Sys2Proof.Machine.execChecksumCompare cyc c s
  | .mxeRecRelease value => Sys2Proof.Machine.execMxeRecRelease value s
  | .loadRequest slot image => Sys2Proof.Machine.execLoadRequest slot image s
  | .loadBegin => Sys2Proof.Machine.execLoadBegin s
  | .loadComplete cyc => Sys2Proof.Machine.execLoadComplete cyc s
  | .slotFreeRequest slot => Sys2Proof.Machine.execSlotFreeRequest slot s
  | .hbmReadComplete cyc read errors => Sys2Proof.Machine.execHbmReadComplete cyc read errors s
  | .hbmWriteAccepted cyc write errors => Sys2Proof.Machine.execHbmWriteAccepted cyc write errors s
  | .patrolScrubRead cyc stack sector errors last => Sys2Proof.Machine.execPatrolScrubRead cyc stack sector errors last s
  | .eyeAdjust cyc stack pseudoChannel pin reading => Sys2Proof.Machine.execEyeAdjust cyc stack pseudoChannel pin reading s
  | .stackInitComplete stack => Sys2Proof.Machine.execStackInitComplete stack s
  | .pageParked cyc stream page outcome => Sys2Proof.Machine.execPageParked cyc stream page outcome s
  | .unparkPageStart cyc stream page => Sys2Proof.Machine.execUnparkPageStart cyc stream page s
  | .pageUnparked cyc stream page outcome => Sys2Proof.Machine.execPageUnparked cyc stream page outcome s
  | .storeReadComplete cyc read retries decoded => Sys2Proof.Machine.execStoreReadComplete cyc read retries decoded s
  | .blockRelocate cyc stack block => Sys2Proof.Machine.execBlockRelocate cyc stack block s
  | .stoStackInitComplete stack spareBlocks wear => Sys2Proof.Machine.execStoStackInitComplete stack spareBlocks wear s
  | .stoModeSet value => Sys2Proof.Machine.execStoModeSet value s
  | .storeInstall source length => Sys2Proof.Machine.execStoreInstall source length s
  | .storeDelete tag => Sys2Proof.Machine.execStoreDelete tag s
  | .adapterInstall source length => Sys2Proof.Machine.execAdapterInstall source length s
  | .adapterDelete tag => Sys2Proof.Machine.execAdapterDelete tag s
  | .storeRepair tag source length => Sys2Proof.Machine.execStoreRepair tag source length s
  | .storeOpComplete cyc bundle => Sys2Proof.Machine.execStoreOpComplete cyc bundle s
  | .storePatrol cyc tag shard matched => Sys2Proof.Machine.execStorePatrol cyc tag shard matched s
  | .modelSwitchRequest target mode plan => Sys2Proof.Machine.execModelSwitchRequest target mode plan s
  | .epochSwitchRequest target plan => Sys2Proof.Machine.execEpochSwitchRequest target plan s
  | .switchCancel value => Sys2Proof.Machine.execSwitchCancel value s
  | .shardArrival cyc readable => Sys2Proof.Machine.execShardArrival cyc readable s
  | .stagingComplete cyc => Sys2Proof.Machine.execStagingComplete cyc s
  | .switchComplete cyc => Sys2Proof.Machine.execSwitchComplete cyc s
  | .shardRefetchComplete cyc shard valid => Sys2Proof.Machine.execShardRefetchComplete cyc shard valid s
  | .nop cyc r => Sys2Proof.Machine.execNop cyc r s
  | .openStream cyc r => Sys2Proof.Machine.execOpenStream cyc r s
  | .append cyc r => Sys2Proof.Machine.execAppend cyc r s
  | .cancel cyc r => Sys2Proof.Machine.execCancel cyc r s
  | .close cyc r => Sys2Proof.Machine.execClose cyc r s
  | .park cyc r => Sys2Proof.Machine.execPark cyc r s
  | .unpark cyc r => Sys2Proof.Machine.execUnpark cyc r s
  | .inputCopyComplete cyc failed => Sys2Proof.Machine.execInputCopyComplete cyc failed s
  | .sealStart cyc step => Sys2Proof.Machine.execSealStart cyc step s
  | .sealComplete cyc step => Sys2Proof.Machine.execSealComplete cyc step s
  | .noticeWrite cyc group => Sys2Proof.Machine.execNoticeWrite cyc group s
  | .ringConfigCommit sub value => Sys2Proof.Machine.execRingConfigCommit sub value s
  | .syncSignal cyc station input => Sys2Proof.Machine.execSyncSignal cyc station input s
  | .syncWait cyc station input => Sys2Proof.Machine.execSyncWait cyc station input s
  | .syncArrive cyc station input => Sys2Proof.Machine.execSyncArrive cyc station input s
  | .syncBarrier cyc station input => Sys2Proof.Machine.execSyncBarrier cyc station input s
  | .spanSignal cyc object amount => Sys2Proof.Machine.execSpanSignal cyc object amount s
  | .register cyc object w => Sys2Proof.Machine.execRegister cyc object w s
  | .waitRelease cyc station input => Sys2Proof.Machine.execWaitRelease cyc station input s
  | .arrive cyc object => Sys2Proof.Machine.execArrive cyc object s
  | .release cyc object => Sys2Proof.Machine.execRelease cyc object s
  | .released cyc object => Sys2Proof.Machine.execReleased cyc object s
  | .reopen cyc object => Sys2Proof.Machine.execReopen cyc object s
  | .breakNode cyc object cause => Sys2Proof.Machine.execBreakNode cyc object cause s
  | .guardExpired cyc station input => Sys2Proof.Machine.execGuardExpired cyc station input s
  | .contextSaved cyc saveCycles => Sys2Proof.Machine.execContextSaved cyc saveCycles s
  | .contextRestored cyc => Sys2Proof.Machine.execContextRestored cyc s
  | .laceFrameReceived cyc lace f => Sys2Proof.Machine.execLaceFrameReceived cyc lace f s
  | .replayReq cyc lace fromSeq => Sys2Proof.Machine.execReplayReq cyc lace fromSeq s
  | .hello cyc lace m => Sys2Proof.Machine.execHello cyc lace m s
  | .helloAck cyc lace m echoFst => Sys2Proof.Machine.execHelloAck cyc lace m echoFst s
  | .notReady lace retryAfter => Sys2Proof.Machine.execNotReady lace retryAfter s
  | .linkNotice cyc lace m => Sys2Proof.Machine.execLinkNotice cyc lace m s
  | .goodbye cyc lace position => Sys2Proof.Machine.execGoodbye cyc lace position s
  | .spanHello cyc lace origin tag mask => Sys2Proof.Machine.execSpanHello cyc lace origin tag mask s
  | .spanFault cyc lace origin seq tag subject => Sys2Proof.Machine.execSpanFault cyc lace origin seq tag subject s
  | .laceLightDetected lace => Sys2Proof.Machine.execLaceLightDetected lace s
  | .laceTrainingComplete cyc lace => Sys2Proof.Machine.execLaceTrainingComplete cyc lace s
  | .laceTrainingTimeout cyc lace => Sys2Proof.Machine.execLaceTrainingTimeout cyc lace s
  | .laceMiswiredRetry lace => Sys2Proof.Machine.execLaceMiswiredRetry lace s
  | .ringHeaterStep cyc lace step failed rxPower => Sys2Proof.Machine.execRingHeaterStep cyc lace step failed rxPower s
  | .laceLightLost cyc lace => Sys2Proof.Machine.execLaceLightLost cyc lace s
  | .laserInputLost cyc eyelet input => Sys2Proof.Machine.execLaserInputLost cyc eyelet input s
  | .spanCommit mask tag => Sys2Proof.Machine.execSpanCommit mask tag s
  | .leavingDrained cyc lace => Sys2Proof.Machine.execLeavingDrained cyc lace s
  | .uplinkUp cyc uplink => Sys2Proof.Machine.execUplinkUp cyc uplink s
  | .uplinkDown cyc uplink cause => Sys2Proof.Machine.execUplinkDown cyc uplink cause s
  | .dispatch cyc uplink f m => Sys2Proof.Machine.execDispatch cyc uplink f m s
  | .returnMsg cyc uplink f m => Sys2Proof.Machine.execReturnMsg cyc uplink f m s
  | .batchEnd cyc uplink f m => Sys2Proof.Machine.execBatchEnd cyc uplink f m s
  | .dispatchCancel cyc uplink f m => Sys2Proof.Machine.execDispatchCancel cyc uplink f m s
  | .credit cyc uplink f m => Sys2Proof.Machine.execCredit cyc uplink f m s
  | .uplinkNeighborSolicitation uplink target => Sys2Proof.Machine.execUplinkNeighborSolicitation uplink target s
  | .returnTimeout cyc dispatchNo => Sys2Proof.Machine.execReturnTimeout cyc dispatchNo s
  | .creditGraceExpiry cyc gen => Sys2Proof.Machine.execCreditGraceExpiry cyc gen s
  | .serveBatchClose cyc station => Sys2Proof.Machine.execServeBatchClose cyc station s
  | .dspTableCommit sub bytes => Sys2Proof.Machine.execDspTableCommit sub bytes s
  | .ucieTrainingComplete cyc module success speed repaired => Sys2Proof.Machine.execUcieTrainingComplete cyc module success speed repaired s
  | .ucieTrainingRetry module => Sys2Proof.Machine.execUcieTrainingRetry module s
  | .ucieCrcError cyc module recovered => Sys2Proof.Machine.execUcieCrcError cyc module recovered s
  | .ucieRetrainComplete cyc module success repaired => Sys2Proof.Machine.execUcieRetrainComplete cyc module success repaired s
  | .readData cyc module tag status poison final data => Sys2Proof.Machine.execReadData cyc module tag status poison final data s
  | .writeAck cyc module tag status => Sys2Proof.Machine.execWriteAck cyc module tag status s
  | .winWrite cyc module tag offset headSkip tailSkip data => Sys2Proof.Machine.execWinWrite cyc module tag offset headSkip tailSkip data s
  | .winRead cyc module tag offset chunks => Sys2Proof.Machine.execWinRead cyc module tag offset chunks s
  | .ucieCredit cyc module headers chunks => Sys2Proof.Machine.execUcieCredit cyc module headers chunks s
  | .ucieProtocolError cyc module => Sys2Proof.Machine.execUcieProtocolError cyc module s
  | .hostReadTimeout cyc module tag => Sys2Proof.Machine.execHostReadTimeout cyc module tag s
  | .hostWriteTimeout cyc module tag => Sys2Proof.Machine.execHostWriteTimeout cyc module tag s
  | .attInvalidate value => Sys2Proof.Machine.execAttInvalidate value s
  | .attInvalidateComplete => Sys2Proof.Machine.execAttInvalidateComplete s
  | .dictSlotPoll cyc => Sys2Proof.Machine.execDictSlotPoll cyc s
  | .read cyc rq items => Sys2Proof.Machine.execRead cyc rq items s
  | .multicastReadReply cyc => Sys2Proof.Machine.execMulticastReadReply cyc s
  | .write cyc rq items => Sys2Proof.Machine.execWrite cyc rq items s
  | .readSegment cyc rq index sub offset length expectSeq => Sys2Proof.Machine.execReadSegment cyc rq index sub offset length expectSeq s
  | .writeSegment cyc rq index sub first offset total data => Sys2Proof.Machine.execWriteSegment cyc rq index sub first offset total data s
  | .begin cyc rq => Sys2Proof.Machine.execBegin cyc rq s
  | .commit cyc rq at_ => Sys2Proof.Machine.execCommit cyc rq at_ s
  | .rollback cyc rq => Sys2Proof.Machine.execRollback cyc rq s
  | .txStatus cyc rq => Sys2Proof.Machine.execTxStatus cyc rq s
  | .txExpire cyc tx => Sys2Proof.Machine.execTxExpire cyc tx s
  | .objectWrite cyc index sub value => Sys2Proof.Machine.execObjectWrite cyc index sub value s
  | .plcaStatusChange cyc status => Sys2Proof.Machine.execPlcaStatusChange cyc status s
  | .fieldNeighborSolicitation target => Sys2Proof.Machine.execFieldNeighborSolicitation target s
  | .fieldAddressConflict cyc => Sys2Proof.Machine.execFieldAddressConflict cyc s
  | .strikeExpire quadrant => Sys2Proof.Machine.execStrikeExpire quadrant s
  | .fenceCmd cyc quadrant => Sys2Proof.Machine.execFenceCmd cyc quadrant s
  | .unfenceCmd cyc quadrant => Sys2Proof.Machine.execUnfenceCmd cyc quadrant s
  | .awlTestComplete cyc quadrant misr => Sys2Proof.Machine.execAwlTestComplete cyc quadrant misr s
  | .awlRunTargeted quadrant => Sys2Proof.Machine.execAwlRunTargeted quadrant s
  | .awlRunDestructive quadrant => Sys2Proof.Machine.execAwlRunDestructive quadrant s
  | .awlSetLoad cyc image => Sys2Proof.Machine.execAwlSetLoad cyc image s
  | .persistWriteComplete => Sys2Proof.Machine.execPersistWriteComplete s
  | .persistClear value => Sys2Proof.Machine.execPersistClear value s
  | .domainEnable cyc domain => Sys2Proof.Machine.execDomainEnable cyc domain s
  | .domainDisable cyc domain => Sys2Proof.Machine.execDomainDisable cyc domain s
  | .domainStartComplete cyc domain => Sys2Proof.Machine.execDomainStartComplete cyc domain s
  | .domainStopComplete cyc domain => Sys2Proof.Machine.execDomainStopComplete cyc domain s
  | .minOffTimeExpiry cyc domain => Sys2Proof.Machine.execMinOffTimeExpiry cyc domain s
  | .domainTimeout cyc domain => Sys2Proof.Machine.execDomainTimeout cyc domain s
  | .domainRailFault cyc domain bits => Sys2Proof.Machine.execDomainRailFault cyc domain bits s
  | .faultClear domain value => Sys2Proof.Machine.execFaultClear domain value s
  | .capFastLevelChange cyc level => Sys2Proof.Machine.execCapFastLevelChange cyc level s
  | .thermalTrip cyc sensor => Sys2Proof.Machine.execThermalTrip cyc sensor s
  | .pwrFailWarn cyc => Sys2Proof.Machine.execPwrFailWarn cyc s
  | .pwrFailWarnClear => Sys2Proof.Machine.execPwrFailWarnClear s
  | .powerFailShutdown cyc => Sys2Proof.Machine.execPowerFailShutdown cyc s
  | .powerFailRestart vinGood => Sys2Proof.Machine.execPowerFailRestart vinGood s
  | .ejectReq => Sys2Proof.Machine.execEjectReq s
  | .ejectNoticeTimeout cyc => Sys2Proof.Machine.execEjectNoticeTimeout cyc s
  | .ejectReady cyc => Sys2Proof.Machine.execEjectReady cyc s
  | .ejectRestart => Sys2Proof.Machine.execEjectRestart s
  | .surpriseRemoval => Sys2Proof.Machine.execSurpriseRemoval s
  | .vinUndervoltage cyc => Sys2Proof.Machine.execVinUndervoltage cyc s
  | .vinCoreLoss => Sys2Proof.Machine.execVinCoreLoss s
  | .powerOn => Sys2Proof.Machine.execPowerOn s
  | .moduleResetPin cyc => Sys2Proof.Machine.execModuleResetPin cyc s
  | .resetModuleCmd cyc => Sys2Proof.Machine.execResetModuleCmd cyc s
  | .resetFirmwareCmd cyc => Sys2Proof.Machine.execResetFirmwareCmd cyc s
  | .watchdogExpire cyc => Sys2Proof.Machine.execWatchdogExpire cyc s
  | .bringupItemStart cyc row part env => Sys2Proof.Machine.execBringupItemStart cyc row part env s
  | .bringupTimeout cyc row => Sys2Proof.Machine.execBringupTimeout cyc row s
  | .serveStart cyc => Sys2Proof.Machine.execServeStart cyc s
  | .serveStop => Sys2Proof.Machine.execServeStop s
  | .fwLoad cyc image => Sys2Proof.Machine.execFwLoad cyc image s
  | .fwLoadComplete cyc matched => Sys2Proof.Machine.execFwLoadComplete cyc matched s
  | .fwActivate => Sys2Proof.Machine.execFwActivate s
  | .fwDeactivate => Sys2Proof.Machine.execFwDeactivate s
  | .identityReread cyc memories => Sys2Proof.Machine.execIdentityReread cyc memories s
  | .keyUpdate cyc records => Sys2Proof.Machine.execKeyUpdate cyc records s
  | .enrolTicket cyc ticket => Sys2Proof.Machine.execEnrolTicket cyc ticket s
  | .releaseTicket cyc ticket => Sys2Proof.Machine.execReleaseTicket cyc ticket s
  | .debugUnlockTicket cyc ticket cosign => Sys2Proof.Machine.execDebugUnlockTicket cyc ticket cosign s
  | .attestRequest cyc nonce => Sys2Proof.Machine.execAttestRequest cyc nonce s
  | .attestReportReady cyc => Sys2Proof.Machine.execAttestReportReady cyc s
  | .svnRaise cyc => Sys2Proof.Machine.execSvnRaise cyc s
  | .laserInputReturn cyc eyelet input => Sys2Proof.Machine.execLaserInputReturn cyc eyelet input s
  | .moduleRstLRelease => Sys2Proof.Machine.execModuleRstLRelease s
  | .hostDieReset cyc => Sys2Proof.Machine.execHostDieReset cyc s
  | .storeStackFailure cyc stack => Sys2Proof.Machine.execStoreStackFailure cyc stack s
  | .dapMessageMalformed cyc session reqId => Sys2Proof.Machine.execDapMessageMalformed cyc session reqId s
  | .fieldAddressInUse => Sys2Proof.Machine.execFieldAddressInUse s

end Sys2Proof.Machine
end

