-- ==== Sys2Proof/WellFormed.lean ====
section
/-! DEFINITION. Which commands are well formed on a part: those whose operands name units that the part has
(R6, R9, R12, Tables 0-1, 17-1). A command that names another unit cannot reach the block. -/

namespace Sys2Proof

namespace Part

/-- Whether the part has HBM stack `n`, eyelet `n`, uplink `n`. -/
def hasStack (p : Part) (n : Nat) : Bool := n < p.hbmStacks
def hasEyelet (p : Part) (n : Nat) : Bool := n < p.eyelets
def hasUplink (p : Part) (n : Nat) : Bool := n < p.uplinks

end Part

/-- Units that every part has in the same number. -/
def isQuadrant (n : Nat) : Bool := n < 8
def isSlot (n : Nat) : Bool := n < 4
def isStoreStack (n : Nat) : Bool := n < 8
def isLace (n : Nat) : Bool := n < 4
def isUcie (n : Nat) : Bool := n < 4
def isDomain (n : Nat) : Bool := n < 20
def isGroup (n : Nat) : Bool := n < 32

/-- The host link has 16 request slots (R457). -/
def isSession : Session → Bool
  | .field _ _ => true
  | .slot n => n < 16

/-- Sectors of an HBM stack (Table 8-3). -/
def isSector (n : Nat) : Bool := n < 0xC00000000 / 64

/-- Items of Table 18-6: rows that enable several domains have a part for each. -/
def isStartItem (row part : Nat) : Bool :=
  match row with
  | 7 => part < 5
  | 8 => part < 2
  | 9 => part < 3
  | 10 => part < 8
  | _ => row < 14 && part = 0

/-- Whether the units that a command names exist on a part. -/
def Instr.wellFormed (p : Part) : Instr → Bool
  | .loadRequest slot _ => isSlot slot
  | .slotFreeRequest slot => isSlot slot
  | .patrolScrubRead _ stack sector _ _ => p.hasStack stack && isSector sector
  | .eyeAdjust _ stack pc pin _ => p.hasStack stack && pc < 64 && pin < 34
  | .stackInitComplete stack => p.hasStack stack
  | .blockRelocate _ stack _ => isStoreStack stack
  | .stoStackInitComplete stack _ _ => isStoreStack stack
  | .storeStackFailure _ stack => isStoreStack stack
  | .noticeWrite _ group => isGroup group
  | .laceFrameReceived _ lace _ => isLace lace
  | .replayReq _ lace _ => isLace lace
  | .hello _ lace _ => isLace lace
  | .helloAck _ lace _ _ => isLace lace
  | .notReady lace _ => isLace lace
  | .linkNotice _ lace _ => isLace lace
  | .goodbye _ lace _ => isLace lace
  | .spanHello _ lace _ _ _ => isLace lace
  | .spanFault _ lace _ _ _ _ => isLace lace
  | .laceLightDetected lace => isLace lace
  | .laceTrainingComplete _ lace => isLace lace
  | .laceTrainingTimeout _ lace => isLace lace
  | .laceMiswiredRetry lace => isLace lace
  | .ringHeaterStep _ lace _ _ _ => isLace lace
  | .laceLightLost _ lace => isLace lace
  | .laserInputLost _ eyelet input => p.hasEyelet eyelet && input < 2
  | .laserInputReturn _ eyelet input => p.hasEyelet eyelet && input < 2
  | .leavingDrained _ lace => isLace lace
  | .uplinkUp _ uplink => p.hasUplink uplink
  | .uplinkDown _ uplink _ => p.hasUplink uplink
  | .dispatch _ uplink _ _ => p.hasUplink uplink
  | .returnMsg _ uplink _ _ => p.hasUplink uplink
  | .batchEnd _ uplink _ _ => p.hasUplink uplink
  | .dispatchCancel _ uplink _ _ => p.hasUplink uplink
  | .credit _ uplink _ _ => p.hasUplink uplink
  | .uplinkNeighborSolicitation uplink _ => p.hasUplink uplink
  | .ucieTrainingComplete _ m _ _ _ => isUcie m
  | .ucieTrainingRetry m => isUcie m
  | .ucieCrcError _ m _ => isUcie m
  | .ucieRetrainComplete _ m _ _ => isUcie m
  | .readData _ m _ _ _ _ _ => isUcie m
  | .writeAck _ m _ _ => isUcie m
  | .winWrite _ m _ _ _ _ _ => isUcie m
  | .winRead _ m _ _ _ => isUcie m
  | .ucieCredit _ m _ _ => isUcie m
  | .ucieProtocolError _ m => isUcie m
  | .hostReadTimeout _ m _ => isUcie m
  | .hostWriteTimeout _ m _ => isUcie m
  | .strikeExpire q => isQuadrant q
  | .fenceCmd _ q => isQuadrant q
  | .unfenceCmd _ q => isQuadrant q
  | .awlTestComplete _ q _ => isQuadrant q
  | .awlRunTargeted q => isQuadrant q
  | .awlRunDestructive q => isQuadrant q
  | .domainEnable _ d => isDomain d
  | .domainDisable _ d => isDomain d
  | .domainStartComplete _ d => isDomain d
  | .domainStopComplete _ d => isDomain d
  | .minOffTimeExpiry _ d => isDomain d
  | .domainTimeout _ d => isDomain d
  | .domainRailFault _ d _ => isDomain d
  | .faultClear d _ => isDomain d
  | .capFastLevelChange _ level => level < 4
  | .bringupItemStart _ row part _ => isStartItem row part
  | .bringupTimeout _ row => row < 14
  | .ringConfigCommit sub _ => 1 ≤ sub && sub ≤ 7
  | .dspTableCommit sub _ => 6 ≤ sub && sub ≤ 9
  | .dapMessageMalformed _ session _ => isSession session
  | .read _ rq _ => isSession rq.session
  | .write _ rq _ => isSession rq.session
  | .readSegment _ rq .. => isSession rq.session
  | .writeSegment _ rq .. => isSession rq.session
  | .begin _ rq => isSession rq.session
  | .commit _ rq _ => isSession rq.session
  | .rollback _ rq => isSession rq.session
  | .txStatus _ rq => isSession rq.session
  | .frefEdge ..
  | .frefPulseClassified ..
  | .flywheelBoundary ..
  | .slotBoundary ..
  | .holdoverLimit ..
  | .refclkLoss ..
  | .refclkReturn ..
  | .frameCountLoad ..
  | .realignArm ..
  | .realignDisarm ..
  | .planEntryStart ..
  | .passEnd ..
  | .wcetOverrun ..
  | .stationFire ..
  | .flitDelivered ..
  | .creditReturned ..
  | .fabricStall ..
  | .voidingComplete ..
  | .fabSnapRelease ..
  | .swapComplete ..
  | .queueSample ..
  | .checksumCompare ..
  | .mxeRecRelease ..
  | .loadBegin ..
  | .loadComplete ..
  | .hbmReadComplete ..
  | .hbmWriteAccepted ..
  | .storeReadComplete ..
  | .stoModeSet ..
  | .storeInstall ..
  | .storeDelete ..
  | .adapterInstall ..
  | .adapterDelete ..
  | .storeRepair ..
  | .storeOpComplete ..
  | .storePatrol ..
  | .modelSwitchRequest ..
  | .epochSwitchRequest ..
  | .switchCancel ..
  | .shardArrival ..
  | .stagingComplete ..
  | .switchComplete ..
  | .shardRefetchComplete ..
  | .nop ..
  | .openStream ..
  | .append ..
  | .cancel ..
  | .close ..
  | .park ..
  | .unpark ..
  | .inputCopyComplete ..
  | .sealStart ..
  | .sealComplete ..
  | .syncSignal ..
  | .syncWait ..
  | .syncArrive ..
  | .syncBarrier ..
  | .waitRelease ..
  | .guardExpired ..
  | .contextSaved ..
  | .contextRestored ..
  | .spanCommit ..
  | .returnTimeout ..
  | .creditGraceExpiry ..
  | .serveBatchClose ..
  | .attInvalidate ..
  | .attInvalidateComplete ..
  | .dictSlotPoll ..
  | .multicastReadReply ..
  | .txExpire ..
  | .objectWrite ..
  | .plcaStatusChange ..
  | .fieldNeighborSolicitation ..
  | .fieldAddressConflict ..
  | .awlSetLoad ..
  | .persistWriteComplete ..
  | .persistClear ..
  | .thermalTrip ..
  | .pwrFailWarn ..
  | .pwrFailWarnClear ..
  | .powerFailShutdown ..
  | .powerFailRestart ..
  | .ejectReq ..
  | .ejectNoticeTimeout ..
  | .ejectReady ..
  | .ejectRestart ..
  | .surpriseRemoval ..
  | .vinUndervoltage ..
  | .vinCoreLoss ..
  | .powerOn ..
  | .moduleResetPin ..
  | .resetModuleCmd ..
  | .resetFirmwareCmd ..
  | .watchdogExpire ..
  | .serveStart ..
  | .serveStop ..
  | .fwLoad ..
  | .fwLoadComplete ..
  | .fwActivate ..
  | .fwDeactivate ..
  | .identityReread ..
  | .keyUpdate ..
  | .enrolTicket ..
  | .releaseTicket ..
  | .debugUnlockTicket ..
  | .attestRequest ..
  | .attestReportReady ..
  | .svnRaise ..
  | .moduleRstLRelease ..
  | .pageParked ..
  | .unparkPageStart ..
  | .pageUnparked ..
  | .spanSignal ..
  | .register ..
  | .arrive ..
  | .release ..
  | .released ..
  | .reopen ..
  | .breakNode ..
  | .hostDieReset ..
  | .fieldAddressInUse .. => true

end Sys2Proof
end

