-- ==== Sys2Proof/Safety.lean ====
section
/-! DEFINITION. What holds in every state that a command leaves: memories in canonical form, a legal time, settings in
order. And which commands may change which part of the state. -/

namespace Sys2Proof.Machine

/-! ### States -/

/-- Both memories are in canonical form. -/
def Memory.wf (m : Memory) : Bool := Memory.canonical m.sram && Memory.canonical m.hbm

/-- Both memories, and the SRAM of a saved context, are in canonical form. -/
def State.memoryLegal (s : State) : Prop :=
  s.mem.wf = true ∧ ∀ c, s.syn.context = some c → Memory.canonical c.sram = true

/-- FRAME and SLOT lie in the ranges of Table 2-1. -/
def State.timeLegal (s : State) : Prop := s.tb.slot < 160 ∧ s.tb.frame < 2 ^ 40

/-- The maps of configuration values list each key once, in order. -/
def State.settingsOrdered (s : State) : Prop := ksorted s.regs = true ∧ ksorted s.blobs = true

/-- The state in which a request is served: it has been counted, and these all-nodes READs wait. -/
def State.counted (s : State) (cyc : Nat) (delayed : List (Nat × Request × List (Nat × Nat))) : State :=
  { s.stamp cyc with dict := { s.dict with delayed := delayed, requests := min (2 ^ 64 - 1) (s.dict.requests + 1) } }

/-- The state with a level of the CAP_FAST pins in force. -/
def State.atLevel (s : State) (level : Nat) : State :=
  { s with pwr := { s.pwr with fastLevel := level, fastNext := none } }

end Sys2Proof.Machine

namespace Sys2Proof

/-! ### Commands -/

/-- Requests of the dictionary, which may write an object, and end in a commanded reset. -/
def Instr.requests : Instr → Bool
  | .dictSlotPoll _ | .read _ _ _ | .multicastReadReply _ | .write _ _ _ | .readSegment _ _ _ _ _ _ _
  | .writeSegment _ _ _ _ _ _ _ _ | .begin _ _ | .commit _ _ _ | .rollback _ _ | .txStatus _ _
  | .objectWrite _ _ _ _ => true
  | _ => false

/-- Commands that may end a reset: almost nothing of the state outlives one (Table 18-2). -/
def Instr.restarts : Instr → Bool
  | .powerFailRestart _ | .ejectRestart | .powerOn | .moduleRstLRelease => true
  | _ => false

/-- The boundary, at which commits take effect (R490). -/
def Instr.boundary : Instr → Bool
  | .slotBoundary _ => true
  | _ => false

/-- Commands that may write an object or restart the module. -/
def Instr.commits (c : Instr) : Bool := c.requests || c.restarts || c.boundary

/-- Commands that may change a configuration value. -/
def Instr.writesSettings : Instr → Bool
  | .frameCountLoad _ | .stoModeSet _ | .storeInstall _ _ | .storeDelete _ | .adapterInstall _ _
  | .adapterDelete _ | .storeRepair _ _ _ | .modelSwitchRequest _ _ _ | .epochSwitchRequest _ _
  | .switchCancel _ | .ringConfigCommit _ _ | .attInvalidate _ | .fenceCmd _ _ | .unfenceCmd _ _
  | .awlRunTargeted _ | .awlRunDestructive _ | .persistClear _ | .domainEnable _ _ | .domainDisable _ _
  | .resetModuleCmd _ | .resetFirmwareCmd _ | .serveStart _ | .serveStop | .fwActivate | .fwDeactivate
  | .svnRaise _ => true
  | c => c.commits

/-- Commands that may change a configuration object of type DOMAIN. -/
def Instr.writesBlobs : Instr → Bool
  | .dspTableCommit _ _ | .awlSetLoad _ _ | .fwLoad _ _ | .keyUpdate _ _ | .enrolTicket _ _
  | .releaseTicket _ _ | .debugUnlockTicket _ _ _ | .attestRequest _ _ => true
  | c => c.commits

/-- Commands that may change the boot record, the firmware banks, the start-up timeline or uptime. -/
def Instr.changesBoot : Instr → Bool
  | .frefEdge _ | .flywheelBoundary | .moduleResetPin _ | .resetModuleCmd _ | .resetFirmwareCmd _
  | .bringupItemStart _ _ _ _ | .serveStart _ | .serveStop | .fwLoad _ _ | .fwLoadComplete _ _ | .fwActivate
  | .fwDeactivate | .identityReread _ _ => true
  | c => c.commits

/-- Commands that may change keys, ownership, attestation or the debug lock. -/
def Instr.changesSecurity : Instr → Bool
  | .loadComplete _ | .storeOpComplete _ _ | .awlSetLoad _ _ | .resetModuleCmd _ | .resetFirmwareCmd _
  | .bringupItemStart _ _ _ _ | .fwLoad _ _ | .fwLoadComplete _ _ | .keyUpdate _ _ | .enrolTicket _ _ | .releaseTicket _ _
  | .debugUnlockTicket _ _ _ | .attestRequest _ _ | .attestReportReady _ | .svnRaise _ => true
  | c => c.commits

/-- Commands that may change the SRAM of the tiles. -/
def Instr.changesSram : Instr → Bool
  | .stationFire _ _ _ | .flitDelivered _ _ _ | .contextRestored _ | .domainEnable _ _ | .domainDisable _ _
  | .domainStartComplete _ _ | .domainStopComplete _ _ | .domainTimeout _ _ | .domainRailFault _ _ _
  | .thermalTrip _ _ | .powerFailShutdown _ | .vinUndervoltage _ | .moduleResetPin _ | .resetModuleCmd _
  | .resetFirmwareCmd _ | .watchdogExpire _ | .bringupTimeout _ _ => true
  | c => c.commits

/-- Commands that may change the content of HBM. -/
def Instr.changesHbm : Instr → Bool
  | .hbmReadComplete _ _ _ | .hbmWriteAccepted _ _ _ | .patrolScrubRead _ _ _ _ _ | .stackInitComplete _
  | .shardArrival _ _ | .shardRefetchComplete _ _ _ | .planEntryStart _ | .pageParked _ _ _ _ | .pageUnparked _ _ _ _
  | .awlTestComplete _ _ _ | .laceFrameReceived _ _ _ | .domainEnable _ _ | .domainDisable _ _
  | .domainStartComplete _ _ | .domainStopComplete _ _ | .domainTimeout _ _ | .domainRailFault _ _ _
  | .thermalTrip _ _ | .powerFailShutdown _ | .vinUndervoltage _ | .moduleResetPin _ | .resetModuleCmd _
  | .resetFirmwareCmd _ | .watchdogExpire _ | .bringupTimeout _ _ => true
  | c => c.commits

/-- Commands that may change FRAME or SLOT. -/
def Instr.movesTime : Instr → Bool
  | .frefEdge _ | .frefPulseClassified _ _ | .flywheelBoundary | .slotBoundary _ | .powerFailRestart _
  | .ejectRestart | .powerOn | .moduleRstLRelease => true
  | _ => false

/-- Commands that may change the transactions, open or ended. -/
def Instr.changesTransactions : Instr → Bool
  | .txExpire _ _ | .resetModuleCmd _ | .resetFirmwareCmd _ => true
  | c => c.commits

end Sys2Proof
end

