-- ==== Sys2Proof/Certificates/Slice0/Obligations.lean ====
section
/-! DEFINITION. The statements: what each command does when it completes and what it leaves alone, what every step
keeps, and which commands may change which part of the state. -/

open Sys2Proof Sys2Proof.Machine

/-- R624, R38, R45: while the time base is LOCKED or ACQUIRING, a rising edge in the window of 12,500 ± 2 REFCLK
cycles places the boundary at once. R45: an edge that is not taken at an expected position counts in
SRV_FREF_OUT_OF_WINDOW, which saturates, and places no boundary. -/
def Obligations.EdgesAreJudged : Prop :=
  (∀ (refclks : Nat) (s : State), s.tb.edge = none → (s.tb.state = .locked ∨ s.tb.state = .acquiring) →
     12498 ≤ refclks → refclks ≤ 12502 → s.tb.slot < 160 →
     ∃ t, exec (.frefEdge refclks) s = .next t ∧
       t.tb.slot = (s.tb.slot + 1) % 160 ∧ t.tb.cyc = 0 ∧ t.tb.boundaryDue = true ∧ t.tb.state = s.tb.state ∧
       t.tb.edge = some { phase := refclks, taken := true, placed := true } ∧
       (s.tb.slot < 159 → t.tb.frame = s.tb.frame ∧ t.tb.load = s.tb.load) ∧
       (s.tb.slot = 159 → s.tb.state = .locked →
         t.tb.frame = (s.tb.load.getD (s.tb.frame + 1)) % 2 ^ 40 ∧ t.tb.load = none) ∧
       t.tb.missed = s.tb.missed ∧ t.tb.outOfWindow = s.tb.outOfWindow ∧ t.tb.markFaults = s.tb.markFaults ∧
       t.boot.uptime = s.boot.uptime + 1 ∧
       { t with tb := s.tb, boot := { t.boot with uptime := s.boot.uptime } } = s) ∧
  ((∀ (refclks : Nat) (s : State), s.tb.edge = none → (s.tb.state = .acquiring → s.tb.validRun ≠ 0) →
     (refclks < 12498 ∨ 12502 < refclks) →
     exec (.frefEdge refclks) s = .next { s with tb := { s.tb with
       outOfWindow := min (2 ^ 32 - 1) (s.tb.outOfWindow + 1)
       edge := some { phase := refclks, taken := false, placed := false, miss := s.tb.missRun } } }) ∧
   (∀ (refclks : Nat) (e : FrefEdge) (s : State), s.tb.edge = some e → e.taken = false → 12498 ≤ e.phase →
     e.phase ≤ 12502 →
     exec (.frefEdge refclks) s = .next { s with tb := { s.tb with
       outOfWindow := min (2 ^ 32 - 1) (s.tb.outOfWindow + 1) } }))

/-- R37, R39, R45, R46: while LOCKED, a pulse of 8 to 24 REFCLK cycles whose edge was taken ends the run of missing
edges, counts a frame-mark fault only in slot 0, and corrects the phase by at most 16 fabric cycles; a pulse of
any other width outside 40 to 120 counts as missing, and the fourth in a row opens HOLDOVER. The phase error and
the correction are free values (log entry 12). -/
def Obligations.PulseClassifiedWhileLocked : Prop :=
  ∀ (cyc high : Nat) (e : FrefEdge) (s : State), s.tb.state = .locked → s.tb.edge = some e → e.taken = true →
    (8 ≤ high → high ≤ 24 →
      ∃ t, exec (.frefPulseClassified cyc high) s = .next t ∧
        t.tb.edge = none ∧ t.tb.missRun = 0 ∧ t.tb.validRun = s.tb.validRun + 1 ∧ t.tb.state = .locked ∧
        t.tb.markFaults = (if s.tb.slot = 0 then min (2 ^ 32 - 1) (s.tb.markFaults + 1) else s.tb.markFaults) ∧
        t.tb.missed = s.tb.missed ∧ t.tb.slot = s.tb.slot ∧ t.tb.frame = s.tb.frame ∧
        -16 ≤ t.tb.phaseCorrection ∧ t.tb.phaseCorrection ≤ 16 ∧
        { t with tb := s.tb, free := s.free } = s) ∧
    (high < 8 ∨ 24 < high ∧ high < 40 ∨ 120 < high → e.placed = true →
      ∃ t, exec (.frefPulseClassified cyc high) s = .next t ∧
        t.tb.edge = none ∧ t.tb.missed = min (2 ^ 32 - 1) (s.tb.missed + 1) ∧ t.tb.validRun = 0 ∧
        t.tb.missRun = s.tb.missRun + 1 ∧ t.tb.state = (if s.tb.missRun < 3 then .locked else .holdover) ∧
        t.tb.slot = s.tb.slot ∧ t.tb.frame = s.tb.frame ∧ t.tb.markFaults = s.tb.markFaults ∧
        { t with tb := s.tb, srv := s.srv } = s)

/-- R45, R46: a boundary of the flywheel, with no edge seen, is a missing edge; the fourth in a row opens HOLDOVER,
and from then on each one lengthens the holdover. -/
def Obligations.FlywheelPlacesBoundary : Prop :=
  ∀ (s : State), s.tb.edge = none → s.tb.slot < 160 → s.tb.state ≠ .acquiring →
    ∃ t, exec .flywheelBoundary s = .next t ∧
      t.tb.slot = (s.tb.slot + 1) % 160 ∧ t.tb.boundaryDue = true ∧ t.tb.cyc = 0 ∧
      t.tb.frame = (if s.tb.slot = 159 then (s.tb.load.getD (s.tb.frame + 1)) % 2 ^ 40 else s.tb.frame) ∧
      t.tb.missed = min (2 ^ 32 - 1) (s.tb.missed + 1) ∧ t.tb.missRun = s.tb.missRun + 1 ∧ t.tb.validRun = 0 ∧
      (s.tb.state = .locked → t.tb.state = (if s.tb.missRun < 3 then .locked else .holdover)) ∧
      (s.tb.state ≠ .locked → t.tb.state = s.tb.state ∧ t.tb.holdSlots = min (2 ^ 32 - 1) (s.tb.holdSlots + 1)) ∧
      t.boot.uptime = s.boot.uptime + 1 ∧
      { t with tb := s.tb, srv := s.srv, boot := { t.boot with uptime := s.boot.uptime } } = s

/-- R53: the holdover that has lasted 16,000 slots enters HOLDOVER_LIMIT, and no stream stays in class 0. -/
def Obligations.HoldoverLimitEndsClass0 : Prop :=
  ∀ (s : State), s.tb.state = .holdover → 16000 ≤ s.tb.holdSlots →
    ∃ t, exec .holdoverLimit s = .next t ∧ t.tb = { s.tb with state := .holdoverLimit } ∧ t.class0 = [] ∧
      (∀ n, n ∉ s.class0 → t.stream? n = s.stream? n) ∧
      t.planner.running = s.planner.running

/-- R52, R44, R49: the loss and the return of REFCLK, SRV_FRAME_COUNT_LOAD and SRV_REALIGN_CMD. -/
def Obligations.ClockAndFrameCommands : Prop :=
  (∀ s : State, exec .refclkLoss s = .next { s with tb := { s.tb with
    internalClock := true, refclkBack := false, refclkLate := false } }) ∧
  (∀ (cycles : Nat) (s : State), s.tb.internalClock = true → 1024 ≤ cycles →
    exec (.refclkReturn cycles) s = .next { s with tb := { s.tb with
      refclkBack := true, refclkLate := s.tb.boundaryDue } }) ∧
  (∀ (value : Nat) (s : State), value < 2 ^ 40 → s.srv.streams = [] → ksorted s.regs = true →
    ∃ t, exec (.frameCountLoad value) s = .next t ∧ t.tb = { s.tb with load := some value } ∧
      t.reg Reg.SRV_FRAME_COUNT_LOAD = value ∧ t.dict = { s.dict with lastStatus := 0 } ∧
      { t with tb := s.tb, regs := s.regs, dict := s.dict } = s) ∧
  (∀ (value : Nat) (s : State), value < 2 ^ 40 → s.srv.streams ≠ [] →
    exec (.frameCountLoad value) s = .next { s with dict := { s.dict with lastStatus := 7 } }) ∧
  (∀ s : State, exec .realignArm s = .next { s with tb := { s.tb with armed := true }
                                                    dict := { s.dict with lastStatus := 0 } }) ∧
  (∀ s : State, exec .realignDisarm s = .next { s with tb := { s.tb with armed := false }
                                                       dict := { s.dict with lastStatus := 0 } })

/-- R61, R115, R121, R313, R384: an entry that may start leaves the plan. A maintenance entry runs its slices, and
with none to run ends; a pass of the active last is issued, and the fabric is RUNNING; the switch entry is the
commit point of a staged switch; a resume that finds no saved context ends. -/
def Obligations.PlanEntryRuns : Prop :=
  (∀ (cyc : Nat) (e : PlanEntry) (rest : List PlanEntry) (s : State), s.planner.plan = e :: rest →
    (s.stamp cyc).entryMayStart e = true → e.resume = false → e.kind = .maintenance →
    ∃ t, exec (.planEntryStart cyc) s = .next t ∧ t = (s.stamp cyc).startMaintenance e ∧
      (s.store.scrubNext = 0 → s.scrubDue = false → t.planner.plan = rest ∧
        (e.lastId = 0 → t.planner.running = none))) ∧
  (∀ (cyc : Nat) (e : PlanEntry) (rest : List PlanEntry) (s : State), s.planner.plan = e :: rest →
    (s.stamp cyc).entryMayStart e = true → e.resume = false → e.kind = .switchEntry →
    (s.store.switchState = .staged → (s.store.staged.any fun r => !r.refetching.isEmpty) = false →
      ∃ t u : State, exec (.planEntryStart cyc) s = .next t ∧ t = u.commitPoint ∧ u.planner.plan = rest ∧
        (u.planner.running.map (·.entry)) = some e ∧ { u with planner := s.planner, tb := s.tb } = s) ∧
    (s.store.switchState ≠ .staged →
      ∃ t, exec (.planEntryStart cyc) s = .next t ∧ t.planner.plan = rest ∧
        { t with planner := s.planner, tb := s.tb } = s)) ∧
  (∀ (cyc : Nat) (e : PlanEntry) (rest : List PlanEntry) (s : State), s.planner.plan = e :: rest →
    (s.stamp cyc).entryMayStart e = true → e.resume = true → s.hlk.up = true → s.syn.context = none →
    ∃ t, exec (.planEntryStart cyc) s = .next t ∧ t.planner.plan = rest ∧
      { t with planner := s.planner, tb := s.tb } = s) ∧
  (∀ (cyc : Nat) (e : PlanEntry) (rest : List PlanEntry) (m : Image) (s : State), s.planner.plan = e :: rest →
    (s.stamp cyc).entryMayStart e = true → e.resume = false → (e.kind = .prefill ∨ e.kind = .decode) →
    e.rows.filter s.rowLives = e.rows → (s.stamp cyc).mayIssue e = true → s.fab.safeSet = [] →
    ((s.pairOf e.step).isSome = true ∨ (s.freePair e.cls).isSome = true) →
    (s.fab.slotOf? e.lastId).isSome = true → s.fab.activeLast = e.lastId → s.fab.image? = some m →
    ∃ t, exec (.planEntryStart cyc) s = .next t ∧ t.planner.plan = rest ∧ t.fab.state = .running ∧
      t.fab.passCount = min (2 ^ 64 - 1) (s.fab.passCount + 1) ∧ t.fab.queues = m.freshQueues ∧
      (t.planner.running.map fun r => (r.passNumber, r.taints, r.overrun)) =
        some (min (2 ^ 64 - 1) (s.fab.passCount + 1), [], false))

/-- R109, R115: a pass whose terminal ports have drained ends. With every queue empty and no taint the fabric is
IDLE and no pass runs; flits that remain are counted and the pass is voided. R66: a pass that goes beyond its
planned worst-case end is not aborted; WCET_OVERRUN is raised once, not before that end, and names the last and
the buckets. -/
def Obligations.PassesEndAndOverrun : Prop :=
  (∀ (cyc : Nat) (r : PassRun) (s : State), s.planner.running = some r → s.fab.state = .running →
     s.syn.phase = .none → s.fab.drained = true →
     (s.fab.residueCount = 0 → r.taints = [] → r.broken = false → r.tokens = [] →
       ∃ t, exec (.passEnd cyc) s = .next t ∧ t.planner.running = none ∧ t.fab.state = .idle ∧
         (∀ q ∈ t.fab.queues, q.buffer = [] ∧ q.inFlight = [] ∧ q.credits = q.depth)) ∧
     (s.fab.residueCount ≠ 0 →
       ∃ t, exec (.passEnd cyc) s = .next t ∧ t.fab.state = .voiding ∧
         t.fab.residue = min (2 ^ 32 - 1) (s.fab.residue + s.fab.residueCount) ∧
         t.planner.running.map (·.voidCause) = some 3)) ∧
  ((∀ (cyc : Nat) (r : PassRun) (s : State), s.planner.running = some r → r.overrun = false →
     (r.entry.kind = .prefill ∨ r.entry.kind = .decode) → r.planEnd ≤ (s.stamp cyc).clock →
     ∃ t, exec (.wcetOverrun cyc) s = .next t ∧
       t.planner = { s.planner with running := some { r with overrun := true } } ∧
       t.fab = s.fab ∧ t.tb = { s.tb with cyc := cyc } ∧
       t = State.raiseFor { s.stamp cyc with planner := t.planner } 0x0707 (passEventGroup r.entry.rows)
         (256 * r.entry.batchBucket + r.entry.contextBucket) r.entry.lastId r.passNumber) ∧
   (∀ (cyc : Nat) (r : PassRun) (s : State), s.planner.running = some r →
     r.overrun = true ∨ (s.stamp cyc).clock < r.planEnd → exec (.wcetOverrun cyc) s = .next (s.stamp cyc)))

/-- R103, R104, R111: FAB_JOIN_GUARD cycles without progress void the pass, count a stall and leave a snapshot;
FAB_SNAP_RELEASE = 1 frees the snapshot. R105, R116: voiding ends in IDLE with every queue empty and all its
credits, and a swap ends with the incoming last ACTIVE and the outgoing one READY. -/
def Obligations.StallsVoidsAndSwaps : Prop :=
  ((∀ (cyc : Nat) (r : PassRun) (s : State), s.planner.running = some r → s.fab.state = .running →
     s.syn.phase = .none → s.externalOut = false → s.remoteWait = false →
     s.fab.guardZero + s.reg Reg.FAB_JOIN_GUARD ≤ (s.stamp cyc).clock →
     ∃ t, exec (.fabricStall cyc) s = .next t ∧ t.fab.state = .voiding ∧
       t.fab.stallCount = min (2 ^ 32 - 1) (s.fab.stallCount + 1) ∧ t.fab.snapshot.isSome = true ∧
       t.fab.snapLost = (if s.fab.snapshot.isSome then min (2 ^ 32 - 1) (s.fab.snapLost + 1) else s.fab.snapLost) ∧
       t.planner.running.map (·.voidCause) = some 1) ∧
   (∀ s : State, exec (.fabSnapRelease 1) s = .next { s with fab := { s.fab with snapshot := none }
                                                             dict := { s.dict with lastStatus := 0 } }) ∧
   (∀ (v : Nat) (s : State), v ≠ 1 →
     exec (.fabSnapRelease v) s = .next { s with dict := { s.dict with lastStatus := 6 } })) ∧
  ((∀ (cyc : Nat) (r : PassRun) (s : State), s.planner.running = some r → s.fab.state = .voiding →
     s.voidPending = false → 3 < r.voidCause →
     ∃ t, exec (.voidingComplete cyc) s = .next t ∧ t.fab.state = .idle ∧ t.planner.running = none ∧
       (∀ q ∈ t.fab.queues, q.buffer = [] ∧ q.inFlight = [] ∧ q.credits = q.depth)) ∧
   (∀ (cyc n : Nat) (m : Image) (s : State), s.fab.swapTarget = some n → n < 4 → s.fab.state = .swapping →
     (s.fab.slot n).image = some m → s.planner.running = none → s.fab.activeSlot ≠ some n →
     ∃ t, exec (.swapComplete cyc) s = .next t ∧ t.fab.state = .idle ∧ t.fab.activeSlot = some n ∧
       t.fab.swapTarget = none ∧ (t.fab.slot n).state = .active ∧ (t.fab.slot n).image = some m ∧
       (∀ o, s.fab.activeSlot = some o → o < 4 → (t.fab.slot o).state = .ready) ∧ t.fab.queues = m.freshQueues))

/-- R79, R93, R86: a delivered flit enters the buffer of its queue, with POISON where its word could not be
corrected; from the buffer of a spill queue the STORE station takes it into its region of SRAM; a credit that
comes back is the producer's. R122: a sample, at a multiple of FAB_SAMPLE_INTERVAL after the start of the pass,
counts the sample of the active slot, and moves no flit; at any other cycle nothing is sampled. -/
def Obligations.FlitsCreditsAndSamples : Prop :=
  ((∀ (cyc queue : Nat) (ecc : EccEvent) (q : QueueRun) (x : Flit) (xs : List Flit) (s : State),
     s.fab.queue? queue = some q → q.inFlight = x :: xs → q.spill = false →
     ∃ t, exec (.flitDelivered cyc queue ecc) s = .next t ∧
       t.fab.queue? queue = some { q with
         inFlight := xs, buffer := q.buffer ++ [{ x with poison := x.poison || decide (ecc = .uncorrectable) }] } ∧
       (∀ k, k ≠ queue → t.fab.queue? k = s.fab.queue? k) ∧
       t.fab.meshCorrected = (if ecc = .corrected then min (2 ^ 32 - 1) (s.fab.meshCorrected + 1) else s.fab.meshCorrected) ∧
       t.fab.stations = s.fab.stations) ∧
   (∀ (cyc queue : Nat) (q : QueueRun) (x : Flit) (xs : List Flit) (s : State), s.fab.queue? queue = some q →
     q.inFlight = x :: xs → q.spill = true →
     ∃ t u : State, exec (.flitDelivered cyc queue .clean) s = .next t ∧
       u.fab.queue? queue = some { q with inFlight := xs, buffer := q.buffer ++ [{ x with poison := x.poison }] } ∧
       (∀ k, k ≠ queue → u.fab.queue? k = s.fab.queue? k) ∧ { u with fab := s.fab, tb := s.tb } = s ∧
       ((s.fab.consumerOf queue).isNone = true → t = u) ∧
       (∀ i p, s.fab.consumerOf queue = some (i, p) → t = u.spillIn i)) ∧
   (∀ (queue : Nat) (q : QueueRun) (s : State), s.fab.queue? queue = some q → q.returning ≠ 0 →
     ∃ t, exec (.creditReturned queue) s = .next t ∧
       t.fab.queue? queue = some { q with returning := q.returning - 1, credits := q.credits + 1 } ∧
       (∀ k, k ≠ queue → t.fab.queue? k = s.fab.queue? k) ∧ { t with fab := s.fab } = s)) ∧
  (∀ (cyc n : Nat) (s : State), s.fab.state = .running → s.fab.activeSlot = some n →
     (s.stamp cyc).sampleDue = true →
     ∃ t, exec (.queueSample cyc) s = .next t ∧
       kgetD t.fab.histAcc.samples n 0 = min (2 ^ 32 - 1) (kgetD s.fab.histAcc.samples n 0 + 1) ∧
       kget? t.fab.histAcc.lastIds n = some s.fab.activeLast ∧
       { t with fab := { t.fab with histAcc := s.fab.histAcc }, tb := s.tb } = s) ∧
  (∀ (cyc : Nat) (s : State), (s.stamp cyc).sampleDue = false → exec (.queueSample cyc) s = .next s)

/-- R94, R115: a PORT station whose sequence entry consumes one flit and produces none fires on an END_OF_PASS at
the head of its input: the flit is consumed, and the station has ended its pass. A reading PORT fires as it does
on any flit, and then has ended its pass too. -/
def Obligations.PortConsumesEndOfPass : Prop :=
  ∀ (cyc i : Nat) (env : FireEnv) (d : StationDesc) (m : Image) (p : PortOp) (x : Flit) (q : QueueRun) (rest : List Flit)
    (s : State), s.fab.desc? i = some d → s.fab.image? = some m → s.fab.state = .running → s.syn.phase = .none →
    i < s.fab.stations.length → (s.station i).copy = none → d.kind = .port → s.fab.portOp? i = some p → p.target ≠ 5 →
    s.fab.repeats i ≠ 0 → (s.fab.seqEntry i).2.consume = [1] → (s.fab.seqEntry i).2.produce = [] →
    s.fab.queue? (d.inPort 0) = some q → q.buffer = x :: rest → x.kind = .control → x.tokenKind = 2 →
    s.lce.faultDue = [] →
    (p.direction = 1 →
      ∃ t, exec (.stationFire cyc i env) s = .next t ∧ (t.station i).passEnded = true ∧
        t.fab.queue? (d.inPort 0) = some { q with buffer := rest, returning := q.returning + 1 } ∧
        (∀ k, k ≠ i → t.station k = s.station k)) ∧
    (p.direction = 0 →
      ∃ t u v : State, exec (.stationFire cyc i env) s = .next t ∧
        u = (s.stamp cyc).fireRead i d p (s.fab.seqEntry i).2 (concerning env .port) ∧
        v = u.modStation i (fun y => { y with passEnded := true }) ∧
        t = (v.fireErrors d (concerning env .port)).torusDone)

/-- R157 to R160, R164: a comparison that the operation and MXE_CHECK_MODE make is skipped and counted, agrees, or
counts a mismatch and leaves a record, which MXE_REC_RELEASE = 1 frees; one that they do not make changes
nothing. -/
def Obligations.ComparisonsAreJudged : Prop :=
  (∀ (cyc : Nat) (c : Comparison) (d : StationDesc) (m : Image) (op : MatmulOp) (s : State),
    s.fab.desc? c.station = some d → s.fab.image? = some m → m.operation d = some (.matmul op) →
    s.fab.state = .running → op.compares c.kind = true → (c.kind = .redundant ∨ s.mxe.checkMode = 1) →
    (compareSides s.mxe.checkTol (op.comparison c) = (false, false) →
      exec (.checksumCompare cyc c) s = .next (s.stamp cyc)) ∧
    ((compareSides s.mxe.checkTol (op.comparison c)).2 = true →
      exec (.checksumCompare cyc c) s = .next { s.stamp cyc with mxe := { s.mxe with
        skipped := min (2 ^ 32 - 1) (s.mxe.skipped + 1) } }) ∧
    (compareSides s.mxe.checkTol (op.comparison c) = (true, false) →
      ∃ t, exec (.checksumCompare cyc c) s = .next t ∧ t.mxe.record.isSome = true ∧
        t.mxe.passMismatches = min (2 ^ 32 - 1) (s.mxe.passMismatches + 1) ∧
        t.mxe.vectorMismatches = (if c.kind = .outputVector ∨ c.kind = .row then
          min (2 ^ 32 - 1) (s.mxe.vectorMismatches + 1) else s.mxe.vectorMismatches) ∧
        t.mxe.redundantMismatches = (if c.kind = .redundant then
          min (2 ^ 32 - 1) (s.mxe.redundantMismatches + 1) else s.mxe.redundantMismatches) ∧
        t.mxe.recordsLost = (if s.mxe.record.isSome then min (2 ^ 32 - 1) (s.mxe.recordsLost + 1)
          else s.mxe.recordsLost) ∧ t.fab = s.fab)) ∧
  (∀ (cyc : Nat) (c : Comparison) (d : StationDesc) (m : Image) (op : MatmulOp) (s : State),
    s.fab.desc? c.station = some d → s.fab.image? = some m → m.operation d = some (.matmul op) →
    op.compares c.kind = false ∨ (c.kind ≠ .redundant ∧ s.mxe.checkMode ≠ 1) →
      exec (.checksumCompare cyc c) s = .next s) ∧
  (∀ s : State, exec (.mxeRecRelease 1) s = .next { s with mxe := { s.mxe with record := none }
                                                           dict := { s.dict with lastStatus := 0 } }) ∧
  (∀ (v : Nat) (s : State), v ≠ 1 →
    exec (.mxeRecRelease v) s = .next { s with dict := { s.dict with lastStatus := 6 } })

/-- R236, R237, R239: a load that no rule refuses takes its slot to LOADING behind the loads before it; the loader
takes them in order; a valid image makes the slot READY and an invalid one FAULTED; a slot that is neither
ACTIVE nor LOADING can be freed. -/
def Obligations.LoaderMovesSlots : Prop :=
  (∀ (slot image : Nat) (l : StagedLast) (s : State), slot < 4 → s.stagedLasts[image]? = some l →
    s.fab.loadRefusal slot (imageHeader l.bytes) = none →
    ∃ t, exec (.loadRequest slot image) s = .next t ∧ (t.fab.slot slot).state = .loading ∧
      t.fab.loadQueue = s.fab.loadQueue ++ [(slot, image)] ∧ t.dict.lastStatus = 0 ∧
      (∀ k, k < 4 → k ≠ slot → t.fab.slot k = s.fab.slot k) ∧ { t with fab := s.fab, dict := s.dict } = s) ∧
  (∀ (x : Nat × Nat) (xs : List (Nat × Nat)) (s : State), s.fab.loading = none → s.fab.loadQueue = x :: xs →
    exec .loadBegin s = .next { s with fab := { s.fab with loading := some x, loadQueue := xs } }) ∧
  (∀ (cyc n k : Nat) (l : StagedLast) (s : State), s.fab.loading = some (n, k) → n < 4 →
    s.stagedLasts[k]? = some l →
    ∃ t, exec (.loadComplete cyc) s = .next t ∧ t.fab.loading = none ∧
      (∀ e, (s.validateImage l.bytes).1 = .error e → (t.fab.slot n).state = .faulted ∧
        t.fab.loadFaults = min (2 ^ 32 - 1) (s.fab.loadFaults + 1)) ∧
      (∀ m, (s.validateImage l.bytes).1 = .ok m → (t.fab.slot n).state = .ready ∧ (t.fab.slot n).image = some m ∧
        t.fab.loads = min (2 ^ 32 - 1) (s.fab.loads + 1))) ∧
  (∀ (slot : Nat) (s : State), slot < 4 → (s.fab.slot slot).state ≠ .active → (s.fab.slot slot).state ≠ .loading →
    s.fab.swapTarget ≠ some slot →
    ∃ t, exec (.slotFreeRequest slot) s = .next t ∧ t.fab.slot slot = {} ∧ t.dict.lastStatus = 0 ∧
      (∀ k, k < 4 → k ≠ slot → t.fab.slot k = s.fab.slot k)) ∧
  (∀ (slot : Nat) (s : State), slot < 4 → (s.fab.slot slot).state = .active ∨ ((s.fab.slot slot).state ≠ .loading ∧
      s.fab.swapTarget = some slot) →
    exec (.slotFreeRequest slot) s = .next { s with dict := { s.dict with lastStatus := 0x0302 } })

/-- R258, R259, R263, R266: an access of an insole ends, reads or writes the sector through the cache, and is no
longer outstanding; one behind an earlier access to its sector waits; a read that no error touches changes
nothing but the insole; a station's write counts down, and the station goes on. -/
def Obligations.HbmAccessesComplete : Prop :=
  (∀ (cyc read : Nat) (errors : List (Nat × Byte)) (r : SectorRead) (s : State),
    s.mem.reads.find? (·.id = read) = some r → s.accessWaits read r.mpa false = false →
    ∃ t, exec (.hbmReadComplete cyc read errors) s = .next t ∧
      t.mem.hbm = (readSector (r.mpa / 2 ^ 36) (s.insole (r.mpa / 2 ^ 36)) s.mem.hbm r.mpa r.noAllocate errors).2.2 ∧
      t.mem.sram = s.mem.sram ∧ t.regs = s.regs ∧ t.blobs = s.blobs ∧ t.boot = s.boot ∧ t.sec = s.sec ∧
      (∀ c n h, readSector (r.mpa / 2 ^ 36) (s.insole (r.mpa / 2 ^ 36)) s.mem.hbm r.mpa r.noAllocate errors = (c, n, h) →
        decodeSector r.mode (n.badPin (pseudoChannelOf r.mpa)) c = .good [] → r.requester = .engine →
        r.mpa / 2 ^ 36 < s.mem.insoles.length →
        t.insole (r.mpa / 2 ^ 36) = n ∧ (∀ k, k ≠ r.mpa / 2 ^ 36 → t.insole k = s.insole k) ∧
        t.mem.reads = s.mem.reads.filter (·.id != read) ∧ { t with mem := s.mem, tb := s.tb } = s)) ∧
  (∀ (cyc write : Nat) (errors : List (Nat × Byte)) (w : SectorWrite) (s : State),
    s.mem.writes.find? (·.id = write) = some w → s.accessWaits write w.mpa true = false →
    ∃ t u : State, exec (.hbmWriteAccepted cyc write errors) s = .next t ∧
      u.mem.hbm = (writeSector (w.mpa / 2 ^ 36) (s.insole (w.mpa / 2 ^ 36)) s.mem.hbm w.mpa w.bytes w.mask
        w.noAllocate w.mode errors).2 ∧
      u.mem.writes = s.mem.writes.filter (·.id != write) ∧ u.mem.reads = s.mem.reads ∧ u.mem.sram = s.mem.sram ∧
      (∀ k, k ≠ w.mpa / 2 ^ 36 → u.insole k = s.insole k) ∧ { u with mem := s.mem, fab := s.fab, tb := s.tb } = s ∧
      (w.requester = .engine → t = u ∧ u.fab = s.fab) ∧
      (∀ i, w.requester = .station i → t = (u.portAdvance i).progress ∧
        (i < s.fab.stations.length →
          (u.station i).writes = (s.station i).writes - 1 ∧ ∀ k, k ≠ i → u.station k = s.station k))) ∧
  (∀ (cyc id : Nat) (errors : List (Nat × Byte)) (s : State),
    (∀ r, s.mem.reads.find? (·.id = id) = some r → s.accessWaits id r.mpa false = true →
      exec (.hbmReadComplete cyc id errors) s = .next s) ∧
    (∀ w, s.mem.writes.find? (·.id = id) = some w → s.accessWaits id w.mpa true = true →
      exec (.hbmWriteAccepted cyc id errors) s = .next s))

/-- R267, R268, R269: the patrol writes a corrected sector back and notes the end of a patrol pass; the eye of a pin
is adjusted by one step away from the side with more errors, and a pin that a retraining leaves below 0.10 is
degraded; INIT leaves every sector of the stack zero and its insole empty, with the stack READY, DEGRADED where
a pin is, or FAILED where two pins of one pseudo-channel are. -/
def Obligations.StacksAreTended : Prop :=
  (∀ (cyc stack sector : Nat) (errors : List (Nat × Byte)) (last : Bool) (es : List (Nat × Nat)) (s : State),
    stack < s.part.hbmStacks → sector < 805306368 → (s.insole stack).state.serves = true →
    stack < s.mem.insoles.length →
    s.decodeAt stack (stack * 2 ^ 36 + 64 * sector) (s.insole stack).mode
      (withErrors (hbmSector s.mem.hbm (stack * 2 ^ 36 + 64 * sector)) errors) = .good es →
    ∃ t, exec (.patrolScrubRead cyc stack sector errors last) s = .next t ∧
      t.mem.hbm = putSector s.mem.hbm (stack * 2 ^ 36 + 64 * sector)
        (addErrors (withErrors (hbmSector s.mem.hbm (stack * 2 ^ 36 + 64 * sector)) errors) es) ∧
      t.mem.sram = s.mem.sram ∧ t.fab = s.fab ∧
      (t.insole stack).scrubDone = (if last then s.fst else (s.insole stack).scrubDone)) ∧
  (∀ (cyc stack pc pin : Nat) (x : EyeReading) (s : State), stack < s.part.hbmStacks → pc < 64 → pin < 34 →
    (s.insole stack).state.serves = true → stack < s.mem.insoles.length →
    (64 ≤ 5 * x.eye → ∃ t, exec (.eyeAdjust cyc stack pc pin x) s = .next t ∧
      (x.early + 16 < x.late → (t.insole stack).delays = kset (s.insole stack).delays (34 * pc + pin)
        (kgetD (s.insole stack).delays (34 * pc + pin) 0 - 1)) ∧
      (x.late + 16 < x.early → (t.insole stack).delays = kset (s.insole stack).delays (34 * pc + pin)
        (kgetD (s.insole stack).delays (34 * pc + pin) 0 + 1)) ∧
      (x.early ≤ x.late + 16 → x.late ≤ x.early + 16 → (t.insole stack).delays = (s.insole stack).delays ∧
        (t.insole stack).eyeAdjusts = (s.insole stack).eyeAdjusts) ∧
      (t.insole stack).degraded = (s.insole stack).degraded ∧ { t with mem := s.mem, tb := s.tb } = s) ∧
    (5 * x.eye < 64 → 10 * x.retrained < 64 → (s.insole stack).badPin pc = none →
      ∃ t, exec (.eyeAdjust cyc stack pc pin x) s = .next t ∧
        (t.insole stack).degraded = (s.insole stack).degraded ++ [34 * pc + pin] ∧
        (t.insole stack).state = .degraded)) ∧
  (∀ (stack : Nat) (s : State), stack < s.part.hbmStacks → stack < s.mem.insoles.length →
    (s.insole stack).state = .init →
    (∀ pc, pc < 64 → ((s.insole stack).degraded.filter fun d => d / 34 = pc).length < 2) →
    ∃ t, exec (.stackInitComplete stack) s = .next t ∧
      t.insole stack = { s.insole stack with
        state := if (s.insole stack).degraded = [] then .ready else .degraded, lines := [], plru := [] } ∧
      (∀ k, k ≠ stack → t.insole k = s.insole k) ∧
      (∀ a, readByte t.mem.hbm a = (if 68 * 2 ^ 30 * stack ≤ a ∧ a < 68 * 2 ^ 30 * (stack + 1) then 0
        else readByte s.mem.hbm a)) ∧
      { t with mem := s.mem } = s) ∧
  (∀ (stack pc : Nat) (s : State), stack < s.part.hbmStacks → stack < s.mem.insoles.length →
    (s.insole stack).state = .init → pc < 64 →
    2 ≤ ((s.insole stack).degraded.filter fun d => d / 34 = pc).length →
    ∃ t, exec (.stackInitComplete stack) s = .next t ∧ (t.insole stack).state = .failed)

/-- R278, R281, Table 8-7: the last page of a park, read where host memory has no valid copy of it, leaves its
frame, whose copy in host memory is valid; a page that is to come back takes the first free frame in request
order; and a page that is back is written to its frame and is RESIDENT with a valid copy. Which free frame is
the first is the model's choice (log entry 29). -/
def Obligations.PagesMove : Prop :=
  (∀ (cyc n page : Nat) (e : PageEntry) (m : PageMove) (x : Stream) (r s : State),
    kget? s.pages.table (pageKey n page) = some e → e.state = .movingOut → s.stream? n = some x → x.state ≠ .ending →
    kget? s.pages.moves n = some m → m.left = [page] →
    r = (if e.hostValid = true ∧ e.dirty = false then s.stamp cyc else ((s.stamp cyc).pageRead e.frame).2) →
    (e.hostValid = true ∧ e.dirty = false ∨ ((s.stamp cyc).pageRead e.frame).1 = false) →
    r.pages = s.pages → r.srv.streams = s.srv.streams →
    ∃ t, exec (.pageParked cyc n page .done) s = .next t ∧
      kget? t.pages.table (pageKey n page) = some { e with state := .parked, hostValid := true, dirty := false } ∧
      (∀ k, k ≠ pageKey n page → kget? t.pages.table k = kget? s.pages.table k) ∧
      t.pages.freeFrames = freeFrame s.pages.freeFrames e.frame ∧
      t.pages.skippedClean = (if e.hostValid = true ∧ e.dirty = false then
        min (2 ^ 32 - 1) (s.pages.skippedClean + 1) else s.pages.skippedClean) ∧
      t.pages.bytesOut = (if e.hostValid = true ∧ e.dirty = false then s.pages.bytesOut
        else min (2 ^ 64 - 1) (s.pages.bytesOut + r.pageBytes)) ∧
      { t with pages := r.pages, srv := r.srv } = r) ∧
  (∀ (cyc n page f : Nat) (rest : List (Nat × Nat)) (frames : List Nat) (s : State),
    s.pages.frameWait = (n, page) :: rest → s.pages.freeFrames = f :: frames → s.hlk.up = true →
    ∃ t, exec (.unparkPageStart cyc n page) s = .next t ∧ t.pages.frameWait = rest ∧ t.pages.freeFrames = frames ∧
      kget? t.pages.table (pageKey n page) =
        (kget? s.pages.table (pageKey n page)).map (fun e => { e with state := .movingIn, frame := f }) ∧
      (∀ k, k ≠ pageKey n page → kget? t.pages.table k = kget? s.pages.table k) ∧
      { t with pages := s.pages, tb := s.tb } = s) ∧
  (∀ (cyc n page : Nat) (data : List Byte) (e : PageEntry) (s : State),
    kget? s.pages.table (pageKey n page) = some e →
    e.state = .movingIn → (∀ x, s.stream? n = some x → x.state ≠ .ending) →
    ∃ t, exec (.pageUnparked cyc n page { ending := .done, data := data }) s = .next t ∧
      kget? t.pages.table (pageKey n page) = some { e with state := .resident, hostValid := true, dirty := false } ∧
      (∀ k, k ≠ pageKey n page → kget? t.pages.table k = kget? s.pages.table k) ∧
      t.pages.freeFrames = s.pages.freeFrames ∧
      t.pages.bytesIn = min (2 ^ 64 - 1) (s.pages.bytesIn + s.pageBytes) ∧
      t.mem = ((s.stamp cyc).pageWrite e.frame data).mem ∧
      { t with pages := s.pages, srv := s.srv, mem := s.mem, tb := s.tb } = s)

/-- R286, R289, R290, R291: a decoded read of the store is progress of the pass and changes no package; a relocation
clears the block's read-disturb count; a stack comes up READY, or READ_ONLY where no more spare blocks are left
than the reserve; a stack that fails is FAILED. Whether a relocation takes a spare block is a free value (log
entry 24). -/
def Obligations.StoreStacksAreTended : Prop :=
  (∀ (cyc read retries i : Nat) (r : PortRead) (s : State), s.storeRead? read = some (i, r) →
    (∀ x ∈ s.store.flash, x.state ≠ .failed) →
    ∃ t, exec (.storeReadComplete cyc read retries true) s = .next t ∧ t.store.catalogue = s.store.catalogue ∧
      t.fab.guardZero = (s.stamp cyc).clock ∧ { t with store := s.store, fab := s.fab, tb := s.tb } = s) ∧
  (∀ (cyc stack block : Nat) (s : State), stack < 8 → stack < s.store.flash.length →
    (s.store.stack stack).state = .ready → s.reg Reg.STO_DISTURB_LIMIT ≤ kgetD (s.store.stack stack).disturb block 0 →
    ∃ t, exec (.blockRelocate cyc stack block) s = .next t ∧
      (t.store.stack stack).disturb = kdel (s.store.stack stack).disturb block ∧
      (t.store.stack stack).relocations = min (2 ^ 32 - 1) ((s.store.stack stack).relocations + 1) ∧
      (t.store.stack stack).spareBlocks = (s.store.stack stack).spareBlocks - Config.freeValue s.free % 2 ∧
      (∀ k, k ≠ stack → t.store.stack k = s.store.stack k) ∧ t.free = s.free + 1 ∧
      { t with store := s.store, tb := s.tb, free := s.free } = s) ∧
  (∀ (stack spares wear : Nat) (s : State), stack < 8 → stack < s.store.flash.length →
    (s.store.stack stack).state = .init →
    ∃ t, exec (.stoStackInitComplete stack spares wear) s = .next t ∧
      t.store.stack stack = { s.store.stack stack with
        state := if spares ≤ relocationReserve then .readOnly else .ready
        spareBlocks := spares % 2 ^ 32, wear := wear % 256 } ∧
      (∀ k, k ≠ stack → t.store.stack k = s.store.stack k) ∧
      (stack = 0 ∨ stack = 4 → s.ras.sets = [] → t.ras.sets = s.ras.storedSets) ∧
      { t with store := s.store, ras := s.ras } = s) ∧
  (∀ (cyc stack : Nat) (s : State), stack < 8 → stack < s.store.flash.length →
    (s.store.stack stack).state.serves = true →
    ∃ t, exec (.storeStackFailure cyc stack) s = .next t ∧ (t.store.stack stack).state = .failed ∧
      (∀ k, k ≠ stack → t.store.stack k = s.store.stack k) ∧
      (s.store.switchState = .staging → t.store.switchState = .idle ∧ t.store.switchResult = Status.STO_STORE_OFF))

/-- R296, R298: STO_MODE enters and leaves INSTALL; INSTALL is refused while a switch is in progress; a store
command that no rule refuses leaves its operands in the objects and its operation RUNNING. R299, R300, R303: a
DELETE takes its package out of the catalogue; an INSTALL whose bundle passes every check puts its package in; a
bundle that cannot be read ends the operation FAILED; and the third failed patrol of a shard in a row marks it
corrupt. -/
def Obligations.StoreOperationsRun : Prop :=
  ((∀ s : State, ksorted s.regs = true → s.store.switchState = .idle → (∀ r, s.store.active = some r → r.plan = 0) →
     ∃ t, exec (.stoModeSet 1) s = .next t ∧ t.store = { s.store with installMode := true } ∧
       t.reg Reg.STO_MODE = 1 ∧ t.dict.lastStatus = Status.OK) ∧
   (∀ s : State, ksorted s.regs = true → ∃ t, exec (.stoModeSet 0) s = .next t ∧
       t.store = { s.store with installMode := false } ∧ t.reg Reg.STO_MODE = 0 ∧ t.dict.lastStatus = Status.OK) ∧
   (∀ s : State, s.store.switchState ≠ .idle →
     exec (.stoModeSet 1) s = .next { s with dict := { s.dict with lastStatus := Status.STO_IN_USE } }) ∧
   (∀ (source tag length : Nat) (s : State), ksorted s.regs = true →
     (s.opRefusal 1 source 0 length = none → ∃ t, exec (.storeInstall source length) s = .next t ∧
       t.store = { s.store with opState := .running, opCmd := 1, opResult := 0, opProgress := 0, opTag := 0
                                opLength := length } ∧
       t.reg Reg.STO_OP_CMD = 1 ∧ t.reg Reg.STO_OP_SOURCE = source ∧ t.reg Reg.STO_OP_LENGTH = length ∧
       t.dict = { s.dict with lastStatus := Status.OK } ∧
         { t with store := s.store, regs := s.regs, dict := s.dict } = s) ∧
     (s.opRefusal 2 0 tag 0 = none → ∃ t, exec (.storeDelete tag) s = .next t ∧
       t.store = { s.store with opState := .running, opCmd := 2, opResult := 0, opProgress := 0, opTag := tag
                                opLength := 0 } ∧
       t.reg Reg.STO_OP_CMD = 2 ∧ t.reg Reg.STO_OP_TAG = tag ∧
       t.dict = { s.dict with lastStatus := Status.OK } ∧
         { t with store := s.store, regs := s.regs, dict := s.dict } = s) ∧
     (s.opRefusal 3 source 0 length = none → ∃ t, exec (.adapterInstall source length) s = .next t ∧
       t.store = { s.store with opState := .running, opCmd := 3, opResult := 0, opProgress := 0, opTag := 0
                                opLength := length } ∧
       t.reg Reg.STO_OP_CMD = 3 ∧ t.reg Reg.STO_OP_SOURCE = source ∧ t.reg Reg.STO_OP_LENGTH = length ∧
       t.dict = { s.dict with lastStatus := Status.OK } ∧
         { t with store := s.store, regs := s.regs, dict := s.dict } = s) ∧
     (s.opRefusal 4 0 tag 0 = none → ∃ t, exec (.adapterDelete tag) s = .next t ∧
       t.store = { s.store with opState := .running, opCmd := 4, opResult := 0, opProgress := 0, opTag := tag
                                opLength := 0 } ∧
       t.reg Reg.STO_OP_CMD = 4 ∧ t.reg Reg.STO_OP_TAG = tag ∧
       t.dict = { s.dict with lastStatus := Status.OK } ∧
         { t with store := s.store, regs := s.regs, dict := s.dict } = s) ∧
     (s.opRefusal 5 source tag length = none → ∃ t, exec (.storeRepair tag source length) s = .next t ∧
       t.store = { s.store with opState := .running, opCmd := 5, opResult := 0, opProgress := 0, opTag := tag
                                opLength := length } ∧
       t.reg Reg.STO_OP_CMD = 5 ∧ t.reg Reg.STO_OP_TAG = tag ∧ t.reg Reg.STO_OP_SOURCE = source ∧
       t.reg Reg.STO_OP_LENGTH = length ∧
       t.dict = { s.dict with lastStatus := Status.OK } ∧
       { t with store := s.store, regs := s.regs, dict := s.dict } = s)) ∧
   (∀ (cmd source tag length : Nat) (s : State), s.storeReady = true → s.store.opState = .running →
     s.opRefusal cmd source tag length = some Status.STO_BUSY)) ∧
  ((∀ (cyc : Nat) (b : BundleRead) (s : State), s.store.opState = .running →
     (s.store.opCmd = 2 ∨ s.store.opCmd = 4) →
     ∃ t, exec (.storeOpComplete cyc b) s = .next t ∧
       t.store.catalogue = s.store.catalogue.filter (fun p => p.manifest.tag != s.store.opTag) ∧
       t.store.opState = .done ∧ t.store.opResult = Status.OK ∧
       t.store.catalogueSeq = (s.store.catalogueSeq + 1) % 2 ^ 32 ∧
       { t with store := s.store, tb := s.tb } = s) ∧
   (∀ (cyc : Nat) (b : BundleRead) (s : State), s.store.opState = .running →
     s.store.opCmd = 1 → b.readError = false → s.hlk.up = true → s.bundleInside = true →
     ∃ t, exec (.storeOpComplete cyc b) s = .next t ∧ t.store.opState ≠ .running ∧
       (t.store.opState = .failed → t.store.catalogue = s.store.catalogue) ∧
       ∀ u mb shards, (s.stamp cyc).readBundle false (b.bytes.take s.store.opLength) = (.ok (mb, shards, false), u) →
         packageOk (parseManifest false mb) shards = true → (∀ x ∈ shards, x.optional = true → x.kind = 3) →
         s.store.package? (parseManifest false mb).tag = none → s.store.noRoom shards (·.present) = none →
         digestsMatch shards = true → t.store.opState = .done ∧ t.store.opResult = Status.OK ∧
         t.store.catalogue = insertPackage
           { manifest := parseManifest false mb, kind := 1, baseTag := 0, shards := shards } s.store.catalogue) ∧
   (∀ (cyc : Nat) (b : BundleRead) (s : State), s.store.opState = .running →
     (s.store.opCmd = 1 ∨ s.store.opCmd = 3 ∨ s.store.opCmd = 5) → (b.readError = true ∨ s.hlk.up = false) →
     exec (.storeOpComplete cyc b) s = .next { s.stamp cyc with
       store := { s.store with opState := .failed, opResult := Status.STO_SOURCE_ERROR } }) ∧
   (∀ (cyc tag shard : Nat) (matched : Bool) (p : StoredPackage) (x : Shard) (s : State),
     s.store.package? tag = some p → p.shards[shard]? = some x → x.present = true → x.corrupt = false →
     s.store.reaches shard x = true →
     ∃ t y, exec (.storePatrol cyc tag shard matched) s = .next t ∧
       ((t.store.package? tag).bind fun q => q.shards[shard]?) = some y ∧
       (matched = true → y = { x with patrolFails := 0 }) ∧
       (matched = false → x.patrolFails < 2 → y = { x with patrolFails := x.patrolFails + 1 }) ∧
       (matched = false → x.patrolFails = 2 → y = { x with patrolFails := 0, corrupt := true })))

/-- R309, R314, R315: a switch request that no rule refuses starts STAGING; SWITCH_CANCEL = 1 ends a switch that is
STAGING or STAGED and is refused in every other state. R307, R312, R313, R320: a shard that arrives readable is
placed and the next is read; the last one makes the switch STAGED; SWITCH_COMPLETE puts the staged package in
force under the next epoch; and a shard whose refetch is valid is noted as refetched. -/
def Obligations.SwitchesAdvance : Prop :=
  ((∀ (target mode plan n : Nat) (r : Resident) (s : State), mode ≤ 1 → (plan ≤ 4 ∨ plan = 0xFF) →
     s.switchPlan 1 target plan = .ok (r, n) →
     ∃ t, exec (.modelSwitchRequest target mode plan) s = .next t ∧ t.store.switchState = .staging ∧
       t.store.switchKind = 1 ∧ t.store.switchTarget = target ∧ t.store.switchForce = decide (mode = 1) ∧
       t.store.staging = some { epochOnly := false, order := s.store.stagingOrder target false, next := 0, attempts := 0
                                target := { r with withdrawn := s.pages.freeFrames.take n } } ∧
       t.pages.freeFrames = s.pages.freeFrames.drop n ∧ t.store.active = s.store.active ∧
       t.store.catalogue = s.store.catalogue ∧ t.dict.lastStatus = Status.OK ∧
       { t with store := s.store, pages := s.pages, regs := s.regs, dict := s.dict } = s) ∧
   (∀ (target plan n : Nat) (r : Resident) (s : State), s.reg Reg.STO_SWITCH_MODE ≤ 1 → (plan ≤ 4 ∨ plan = 0xFF) →
     s.switchPlan 2 target plan = .ok (r, n) →
     ∃ t, exec (.epochSwitchRequest target plan) s = .next t ∧ t.store.switchState = .staging ∧
       t.store.switchKind = 2 ∧ t.store.switchTarget = target ∧
       t.store.staging = some { epochOnly := true, order := s.store.stagingOrder target true, next := 0, attempts := 0
                                target := { r with withdrawn := s.pages.freeFrames.take n } } ∧
       t.pages.freeFrames = s.pages.freeFrames.drop n ∧ t.store.active = s.store.active ∧
       t.dict.lastStatus = Status.OK ∧
         { t with store := s.store, pages := s.pages, regs := s.regs, dict := s.dict } = s) ∧
   (∀ s : State, (s.store.switchState = .staging ∨ s.store.switchState = .staged) →
     ∃ t, exec (.switchCancel 1) s = .next t ∧ t.store.switchState = .idle ∧
       t.store.switchResult = Status.STO_CANCELLED ∧ t.store.staging = none ∧ t.store.staged = none ∧
       t.store.active = s.store.active ∧ t.store.epoch = s.store.epoch ∧ t.dict.lastStatus = Status.OK) ∧
   (∀ s : State, s.store.switchState = .idle ∨ s.store.switchState = .switching →
     exec (.switchCancel 1) s = .next { s with dict := { s.dict with lastStatus := Status.ALREADY_SWITCHED } })) ∧
  ((∀ (cyc owner n : Nat) (g : Staging) (x : Shard) (s : State), s.store.staging = some g →
     g.order[g.next]? = some (owner, n) → s.store.adapterLoads = [] →
     (∀ r ∈ s.store.active.toList ++ s.store.old.toList, ∀ k ∈ r.refetching, k ∈ r.refetched) →
     ((s.store.package? owner).bind fun p => p.shards[n]?) = some x →
     (x.corrupt = false → ∃ t, exec (.shardArrival cyc true) s = .next t ∧
       t.store.staging = some { g with next := g.next + 1, attempts := 0 } ∧
       t.store.stageBytes = s.store.stageBytes + x.size ∧ t.store.mismatches = s.store.mismatches) ∧
     (g.attempts < 2 → ∃ t, exec (.shardArrival cyc false) s = .next t ∧
       t.store.staging = some { g with attempts := g.attempts + 1 } ∧
       t.store.mismatches = min (2 ^ 32 - 1) (s.store.mismatches + 1) ∧
       { t with store := s.store, tb := s.tb } = s)) ∧
   (∀ (cyc : Nat) (g : Staging) (s : State), s.store.staging = some g →
     g.order.length ≤ g.next →
     ∃ t, exec (.stagingComplete cyc) s = .next t ∧ t.store.switchState = .staged ∧ t.store.staging = none ∧
       t.store.staged = some g.target ∧ t.store.stageDone = s.fst ∧ t.store.active = s.store.active) ∧
   (∀ (cyc : Nat) (r : Resident) (s : State), s.store.staged = some r → s.store.switchState = .switching →
     s.fab.state = .idle → s.fab.activeSlot.isSome = true →
     (∀ e ∈ s.pages.table, e.2.state ≠ .movingOut ∧ e.2.state ≠ .movingIn) →
     ∃ t, exec (.switchComplete cyc) s = .next t ∧ t.store.switchState = .idle ∧ t.store.switchResult = Status.OK ∧
       t.store.staged = none ∧ t.store.old = none ∧ t.store.epoch = (s.store.epoch + 1) % 2 ^ 32 ∧
       t.store.packageTag = r.manifest.tag ∧ t.store.active.map (·.manifest) = some r.manifest ∧
       t.store.active.map (·.epoch) = some ((s.store.epoch + 1) % 2 ^ 32) ∧
       t.pages.framesTotal = poolFrames s.part r ∧ t.pages.freeFrames = List.range (poolFrames s.part r) ∧
       t.pages.table = []) ∧
   (∀ (cyc shard : Nat) (r : Resident) (p : StoredPackage) (x : Shard) (s : State), s.store.active = some r →
     shard ∈ r.refetching → shard ∉ r.refetched → s.store.package? r.manifest.tag = some p →
     p.shards[shard]? = some x → x.present = true → x.corrupt = false → s.store.reaches shard x = true →
     ∃ t, exec (.shardRefetchComplete cyc shard true) s = .next t ∧
       t.store.refetches = min (2 ^ 32 - 1) (s.store.refetches + 1) ∧
       t.store.active = some { r with refetched := r.refetched ++ [shard] } ∧
       t.store.catalogue = s.store.catalogue))

/-- R334, R335, R338, R352, Table 10-3: an OPEN and an APPEND that pass every check are taken: the stream of the
record has its turn, or queues it behind the one in progress, the record is counted, and the ring's CONSUMER
advances. The writes that are held for host memory go on as `State.pump` says. -/
def Obligations.OpenAndAppendAreTaken : Prop :=
  (∀ (cyc : Nat) (r : IntakeRecord) (p : Resident) (held : Bool) (s : State), s.srv.intake.left ≠ 0 →
    s.srv.sealing = [] → r.kind = 1 → r.ringSeq = s.srv.intake.consumer % 65536 → r.stream ≤ 8191 →
    s.stream? r.stream = none → (s.stamp cyc).checkOpen r = .ok (p, held) → s.bufferFits r = true →
    ((held = true ∨ r.cls ≠ 0) →
      ∃ t u : State, exec (.openStream cyc r) s = .next t ∧ t = u.pump ∧
        u.stream? r.stream = some (s.streamOf r held) ∧
        (∀ k, k ≠ r.stream → u.stream? k = s.stream? k) ∧
        u.srv.intake.consumer = (s.srv.intake.consumer + 1) % 2 ^ 32 ∧
        u.srv.intake.left = s.srv.intake.left - 1 ∧
        u.srv.intake.records = min (2 ^ 64 - 1) (s.srv.intake.records + 1) ∧
        u.srv.intake.bufferUsed = s.srv.intake.bufferUsed + r.inputBytes ∧
        (r.cls ≠ 0 → kgetD u.srv.notices (groupOf r.stream) [] = kgetD s.srv.notices (groupOf r.stream) [] ++
          [{ stream := r.stream, status := Status.ACCEPTED, reqTag := r.reqTag, kind := r.kind, flags := 0, data := 0 }]) ∧
        { u with srv := s.srv, hlk := s.hlk, tb := s.tb } = s) ∧
    (∀ g : Grant, held = false → r.cls = 0 →
      (s.stamp cyc).testFor p { stream := r.stream, adapter := r.adapter, prompt := r.inputUnits, context := 0
                                maxContext := r.maxContext } none s.tb.frame = .ok g →
      ∃ t u : State, exec (.openStream cyc r) s = .next t ∧ t = u.pump ∧
        u.stream? r.stream = some { s.streamOf r false with parity := some g.parity
                                                            reserved := addCounts [] g.plan } ∧
        u.planner.ledger = addCounts s.planner.ledger g.plan ∧
        u.srv.intake.consumer = (s.srv.intake.consumer + 1) % 2 ^ 32 ∧
        kgetD u.srv.notices (groupOf r.stream) [] = kgetD s.srv.notices (groupOf r.stream) [] ++
          [{ stream := r.stream, status := Status.ADMITTED, reqTag := r.reqTag, kind := r.kind, flags := 0
             data := 0 }])) ∧
  (∀ (cyc : Nat) (r : IntakeRecord) (x : Stream) (s : State), s.srv.intake.left ≠ 0 → s.srv.sealing = [] →
    r.kind = 2 → r.ringSeq = s.srv.intake.consumer % 65536 → r.stream ≤ 8191 → s.stream? r.stream = some x →
    (s.stamp cyc).checkAppend x r = .ok () → s.bufferFits r = true → x.state ≠ .parked →
    (x.busy = false → x.cls ≠ 0 →
      ∃ t u : State, exec (.append cyc r) s = .next t ∧ t = u.pump ∧
        u.stream? r.stream = some { x with turn := some (s.turnOf r x.lastToken false) } ∧
        (∀ k, k ≠ r.stream → u.stream? k = s.stream? k) ∧
        u.srv.intake.consumer = (s.srv.intake.consumer + 1) % 2 ^ 32 ∧
        u.srv.intake.bufferUsed = s.srv.intake.bufferUsed + r.inputBytes ∧
        { u with srv := s.srv, hlk := s.hlk, tb := s.tb } = s) ∧
    (x.busy = true →
      ∃ t u : State, exec (.append cyc r) s = .next t ∧ t = u.pump ∧
        u.stream? r.stream = some { x with queued := x.queued ++ [s.turnOf r none (decide (x.cls = 0))] } ∧
        (∀ k, k ≠ r.stream → u.stream? k = s.stream? k) ∧
        u.srv.intake.consumer = (s.srv.intake.consumer + 1) % 2 ^ 32 ∧
        { u with srv := s.srv, hlk := s.hlk, tb := s.tb } = s))

/-- R331, R334, R335, R351, R278: NOP, CANCEL, CLOSE, PARK and UNPARK records that are taken: a NOP changes only the
ring; a CANCEL of a step in flight waits for its seal and drops the queued turns; one of no turn in progress
ends the stream; a CLOSE or PARK of a busy stream waits for the turn's end, and otherwise acts; an UNPARK of a
stream with no PARKED page makes it IDLE, and of one with such pages asks for their frames in ascending order.
R332, R335, R331: no record is taken between reads or during a seal; a record whose RING_SEQ is not the next one
ends the read and changes no stream. -/
def Obligations.OtherRecordsAreTaken : Prop :=
  (∀ (cyc : Nat) (r : IntakeRecord) (s : State), s.srv.intake.left ≠ 0 → s.srv.sealing = [] →
     r.ringSeq = s.srv.intake.consumer % 65536 → r.stream ≤ 8191 → r.clean = true →
     (r.kind = 0 → ∃ t u : State, exec (.nop cyc r) s = .next t ∧ t = u.pump ∧ u.srv.streams = s.srv.streams ∧
       u.srv.notices = s.srv.notices ∧ u.srv.intake.consumer = (s.srv.intake.consumer + 1) % 2 ^ 32 ∧
       u.srv.intake.records = min (2 ^ 64 - 1) (s.srv.intake.records + 1) ∧
       u.srv.intake.left = s.srv.intake.left - 1 ∧ { u with srv := s.srv, hlk := s.hlk, tb := s.tb } = s) ∧
     (∀ x, s.stream? r.stream = some x → x.state ≠ .ending →
       (r.kind = 3 → s.inFlight r.stream = true → ∃ t u : State, exec (.cancel cyc r) s = .next t ∧ t = u.pump ∧
         u.stream? r.stream = some { x with queued := [], cancelAsked := some (bit r.flags 0) } ∧
         (∀ k, k ≠ r.stream → u.stream? k = s.stream? k) ∧
         u.srv.intake.consumer = (s.srv.intake.consumer + 1) % 2 ^ 32 ∧
         { u with srv := s.srv, hlk := s.hlk, tb := s.tb } = s) ∧
       (r.kind = 3 → s.planner.steps = [] → bit r.flags 0 = false → s.pages.moving r.stream = false →
         ∃ t u : State, exec (.cancel cyc r) s = .next t ∧ t = u.pump ∧
           u.srv.streams.length + 1 = s.srv.streams.length ∧
           (∀ k, k ≠ r.stream → u.stream? k = s.stream? k) ∧ u.pages = s.pages.release r.stream ∧
           u.srv.intake.consumer = (s.srv.intake.consumer + 1) % 2 ^ 32) ∧
       (r.kind = 4 → x.busy = true → ∃ t u : State, exec (.close cyc r) s = .next t ∧ t = u.pump ∧
         u.stream? r.stream = some { x with closeAsked := some r.reqTag } ∧
         (∀ k, k ≠ r.stream → u.stream? k = s.stream? k) ∧ { u with srv := s.srv, hlk := s.hlk, tb := s.tb } = s) ∧
       (r.kind = 4 → x.busy = false → s.pages.moving r.stream = false →
         ∃ t u : State, exec (.close cyc r) s = .next t ∧ t = u.pump ∧
         u.srv.streams = kdel s.srv.streams r.stream ∧ u.pages = s.pages.release r.stream ∧
         u.planner = (s.leaveTemplate r.stream x).planner ∧
         { u with srv := s.srv, pages := s.pages, planner := s.planner, hlk := s.hlk, tb := s.tb } = s) ∧
       (r.kind = 5 → x.state = .active ∨ x.state = .idle → ∃ t u : State, exec (.park cyc r) s = .next t ∧
         t = u.pump ∧
         u.stream? r.stream = some { x with parkAsked := some r.reqTag } ∧
         (∀ k, k ≠ r.stream → u.stream? k = s.stream? k) ∧
         u.pages = (if x.busy then s.pages else { s.pages with
           parkAsked := s.pages.parkAsked.filter (· != r.stream) ++ [r.stream] }) ∧
         { u with srv := s.srv, pages := s.pages, hlk := s.hlk, tb := s.tb } = s) ∧
       (r.kind = 6 → x.state = .parked → kget? s.pages.moves r.stream = none →
         ∃ t u : State, exec (.unpark cyc r) s = .next t ∧ t = u.pump ∧
           (s.pages.parkedPages r.stream = [] → u.stream? r.stream = some { x with state := .idle } ∧
             u.pages = s.pages) ∧
           (s.pages.parkedPages r.stream ≠ [] → u.stream? r.stream = some { x with unparkTag := some r.reqTag } ∧
             u.pages.frameWait = s.pages.frameWait ++ (s.pages.parkedPages r.stream).map (fun p => (r.stream, p)) ∧
             u.pages.table = s.pages.table) ∧
           { u with srv := s.srv, pages := s.pages, hlk := s.hlk, tb := s.tb } = s))) ∧
  ((∀ (cyc : Nat) (r : IntakeRecord) (s : State), s.srv.intake.left = 0 ∨ s.srv.sealing ≠ [] →
     exec (.nop cyc r) s = .next s ∧ exec (.openStream cyc r) s = .next s ∧ exec (.append cyc r) s = .next s ∧
     exec (.cancel cyc r) s = .next s ∧ exec (.close cyc r) s = .next s ∧ exec (.park cyc r) s = .next s ∧
     exec (.unpark cyc r) s = .next s) ∧
   (∀ (cyc : Nat) (r : IntakeRecord) (s : State), s.srv.intake.left ≠ 0 → s.srv.sealing = [] →
     r.ringSeq ≠ s.srv.intake.consumer % 65536 → r.kind ≤ 6 →
     ∃ (t u : State) (c : Instr), exec c s = .next t ∧ t = u.pump ∧ u = (s.stamp cyc).endRead ∧
       u.srv.streams = s.srv.streams ∧
       u.srv.intake.left = 0 ∧ u.srv.intake.consumer = s.srv.intake.consumer ∧
       c = (if r.kind = 0 then .nop cyc r else if r.kind = 1 then .openStream cyc r else if r.kind = 2 then
         .append cyc r else if r.kind = 3 then .cancel cyc r else if r.kind = 4 then .close cyc r else if r.kind = 5
         then .park cyc r else .unpark cyc r)))

/-- R332, R337, R346, R348, R358: the end of the input copies leaves none waiting, and marks the turn of each input
that was read; a seal begins with its writes held in the order of R346; its end takes the step away and counts
it; waiting notices leave as one record; and an object of ring geometry takes its value. -/
def Obligations.SealsNoticesAndRings : Prop :=
  (∀ (cyc : Nat) (failed : List Nat) (s : State), s.srv.intake.left = 0 → s.srv.intake.copying ≠ [] →
    ∃ t u : State, exec (.inputCopyComplete cyc failed) s = .next t ∧ t = u.pump ∧ u.srv.intake.copying = [] ∧
      u.srv.intake.left = 0 ∧ (∀ n, n ∉ s.srv.intake.copying → u.stream? n = s.stream? n) ∧
      (failed = [] → (∀ n x, s.stream? n = some x → (x.turn.toList ++ x.queued).all (fun y => !y.copyFailed) = true) →
        (∀ n, s.srv.intake.copying.count n = 1 → u.stream? n = (s.stream? n).map fun x => x.copyIn false) ∧
        u.hlk.ordered = s.hlk.ordered ++ (if s.srv.intake.copyDue then [s.consumerWrite] else []) ∧
        { u with srv := s.srv, hlk := s.hlk, tb := s.tb } = s)) ∧
  (∀ (cyc step : Nat) (x : StepRun) (s : State), s.planner.stepOf step = some x → x.complete = true →
    s.sealsAfter x = false →
    s.srv.intake.left = 0 → s.srv.sealing = [] → s.hlk.up = true →
    (∀ q ∈ (x.streams.filterMap ((s.stamp cyc).sealRow x)).filter (·.entry), (s.stamp cyc).recordFits (groupOf q.stream)
      (((x.streams.filterMap ((s.stamp cyc).sealRow x)).filter (·.entry)).filter
        fun r => groupOf r.stream = groupOf q.stream).length = true) →
    ∃ t u : State, exec (.sealStart cyc step) s = .next t ∧ t = u.pump ∧
      u.srv.sealing.map (fun y => (y.step, y.fst, y.rows)) =
        [(step, s.fst, x.streams.filterMap ((s.stamp cyc).sealRow x))] ∧
      u.hlk.ordered = s.hlk.ordered ++
        ((s.stamp cyc).sealWrites x (x.streams.filterMap ((s.stamp cyc).sealRow x))).1 ∧
      u.srv.streams = s.srv.streams ∧ { u with srv := s.srv, hlk := s.hlk, tb := s.tb } = s) ∧
  (∀ (cyc step : Nat) (y : Seal) (x : StepRun) (s : State), s.srv.sealing.find? (·.step = step) = some y →
    s.planner.stepOf step = some x → (∀ a ∈ s.hlk.ordered, ∀ i, a.req ≠ .seal step i) →
    ∃ t u : State, exec (.sealComplete cyc step) s = .next t ∧ t = u.pump ∧
      (∀ k ∈ u.planner.steps, k.number ≠ step) ∧
      ((y.rows.all fun r => !r.suppressed && !r.turnEnd) = true →
        u.planner.steps = s.planner.steps.filter (·.number != step)) ∧
      u.srv.sealing = s.srv.sealing.filter (·.step != step) ∧
      u.srv.stepsSealed = min (2 ^ 64 - 1) (s.srv.stepsSealed + 1) ∧
      u.srv.outputsLate = min (2 ^ 32 - 1) (s.srv.outputsLate + (y.rows.filter (·.late)).length) ∧
      u.srv.outputsSuppressed = min (2 ^ 32 - 1) (s.srv.outputsSuppressed + (y.rows.filter (·.suppressed)).length)) ∧
  (∀ (cyc group : Nat) (s : State), group < 32 → kgetD s.srv.notices group [] ≠ [] → s.srv.intake.left = 0 →
    s.srv.sealing = [] → s.recordFits group (min 256 (kgetD s.srv.notices group []).length) = true →
    ∃ (t u : State) (ws : List HostAccess), exec (.noticeWrite cyc group) s = .next t ∧ t = u.pump ∧
      u.hlk.ordered = s.hlk.ordered ++ ws ∧
      (256 < (kgetD s.srv.notices group []).length →
        u.srv.notices = kset s.srv.notices group ((kgetD s.srv.notices group []).drop 256)) ∧
      ((kgetD s.srv.notices group []).length ≤ 256 → u.srv.notices = kdel s.srv.notices group) ∧
      u.srv.streams = s.srv.streams ∧ { u with srv := s.srv, hlk := s.hlk, tb := s.tb } = s) ∧
  (∀ (sub value : Nat) (s : State), 1 ≤ sub → sub ≤ 7 → ringRange s.part sub value = true → s.anyStream = false →
    ksorted s.regs = true →
    ∃ t, exec (.ringConfigCommit sub value) s = .next t ∧ t.reg (0x401000 + sub) = value ∧
      (∀ k, k ≠ 0x401000 + sub → t.reg k = s.reg k) ∧ t.dict.lastStatus = Status.OK) ∧
  (∀ s : State, s.hlk.orderedBusy = true ∨ s.hlk.up = false ∨ (s.hlk.ordered = [] ∧ s.srv.eventQueue = []) →
    s.pump = s)

/-- R366, R368, R369, R375, Table 11-4: a SIGNAL on an object of this module adds its amount, saturating, and its
tile moves on; on a BROKEN object the tile passes behind a status token with the CAUSE. A WAIT registers at its
object and holds the tile. R368, R369, R375, R385: what other modules and the running pass do to an object of
the span pair: a SIGNAL adds its amount, a REGISTER joins the waits, a wait's release lets the tile move and one
of a saved pass is recorded for its restore, and a BREAK at an object that is not BROKEN goes on to its parent
and to its children in this module. -/
def Obligations.SyncOperationsMeetObjects : Prop :=
  ((∀ (cyc i p : Nat) (o : SyncOp) (r : ObjRef) (s : State), s.syncHead i p 1 = some o →
     (s.stamp cyc).localObj o.object = some r →
     ((s.obj r).state ≠ .broken → (s.obj r).waits = [] →
       (0 < (s.obj r).value + o.arg ∨ kget? (if r.bank then s.syn.banks else s.syn.tiles) r.key ≠ some {}) →
       ∃ t u : State, exec (.syncSignal cyc i p) s = .next t ∧ t = u.torusDone ∧
         (r.bank = true → u.syn.banks = putObj s.syn.banks r.key
           { s.obj r with value := min (2 ^ 32 - 1) ((s.obj r).value + o.arg) } ∧ u.syn.tiles = s.syn.tiles) ∧
         (r.bank = false → u.syn.tiles = putObj s.syn.tiles r.key
           { s.obj r with value := min (2 ^ 32 - 1) ((s.obj r).value + o.arg) } ∧ u.syn.banks = s.syn.banks) ∧
         u.part? (4 * i + p) = (s.part? (4 * i + p)).free 0 ∧
         u.syn.saturated = (if (s.obj r).value + o.arg < 2 ^ 32 then s.syn.saturated
           else min (2 ^ 32 - 1) (s.syn.saturated + 1)) ∧ { u with syn := s.syn, tb := s.tb } = s) ∧
     ((s.obj r).state = .broken → (s.part? (4 * i + p)).tokenSent = false →
       ∃ t, exec (.syncSignal cyc i p) s = .next t ∧ (t.part? (4 * i + p)).pass = true ∧
         ((s.obj r).cause ≠ 0 → (t.part? (4 * i + p)).token = some (s.obj r).cause) ∧
         { t with syn := s.syn, tb := s.tb } = s)) ∧
   (∀ (cyc i p : Nat) (o : SyncOp) (r : ObjRef) (s : State), s.syncHead i p 2 = some o →
     (s.stamp cyc).localObj o.object = some r → (s.obj r).state ≠ .broken → (s.part? (4 * i + p)).registered = false →
     (s.obj r).waits = [] → (s.obj r).value < o.arg →
     ∃ t u : State, exec (.syncWait cyc i p) s = .next t ∧ t = u.torusDone ∧
       (r.bank = true → u.syn.banks = putObj s.syn.banks r.key { s.obj r with waits := [{
         module := s.lce.position.getD 0, station := i, input := p, threshold := o.arg, consume := o.consume }] }) ∧
       (u.part? (4 * i + p)).registered = true ∧ (u.part? (4 * i + p)).heldSince.isSome = true ∧
       (u.part? (4 * i + p)).pass = (s.part? (4 * i + p)).pass ∧ { u with syn := s.syn, tb := s.tb } = s)) ∧
  ((∀ (cyc object amount : Nat) (s : State), (s.obj (spanRef object)).state ≠ .broken →
     (s.obj (spanRef object)).waits = [] →
     (0 < (s.obj (spanRef object)).value + amount % 2 ^ 32 ∨
       kget? s.syn.banks (spanRef object).key ≠ some {}) →
     ∃ t u : State, exec (.spanSignal cyc object amount) s = .next t ∧ t = u.torusDone ∧
       u.syn.banks = putObj s.syn.banks (3584 + bits object 8 0) { s.obj (spanRef object) with
         value := min (2 ^ 32 - 1) ((s.obj (spanRef object)).value + amount % 2 ^ 32) } ∧
       { u with syn := s.syn, tb := s.tb } = s) ∧
   (∀ (cyc object : Nat) (w : WaitReg) (s : State), (s.obj (spanRef object)).state ≠ .broken →
     (s.obj (spanRef object)).waits = [] → (s.obj (spanRef object)).value < w.threshold →
     ∃ t u : State, exec (.register cyc object w) s = .next t ∧ t = u.torusDone ∧
       u.syn.banks = putObj s.syn.banks (3584 + bits object 8 0) { s.obj (spanRef object) with waits := [w] } ∧
       { u with syn := s.syn, tb := s.tb } = s) ∧
   (∀ (cyc i p : Nat) (o : SyncOp) (s : State), (s.part? (4 * i + p)).registered = true →
     (s.stamp cyc).syncOp i = some o → o.opcode = 2 → (s.stamp cyc).localObj o.object = none →
     ∃ t, exec (.waitRelease cyc i p) s = .next t ∧ t.part? (4 * i + p) = (s.part? (4 * i + p)).free 0 ∧
       (∀ k, k ≠ 4 * i + p → t.part? k = s.part? k) ∧ t.syn.banks = s.syn.banks ∧
       t.fab = { s.fab with guardZero := (s.stamp cyc).clock } ∧
       { t with syn := s.syn, fab := s.fab, tb := s.tb } = s) ∧
   (∀ (cyc i p : Nat) (c : SavedContext) (s : State), (s.part? (4 * i + p)).registered = false →
     s.syn.context = some c → (kgetD c.participants (4 * i + p) {}).registered = true →
     (4 * i + p, 0) ∉ c.releases →
     ∃ t, exec (.waitRelease cyc i p) s = .next t ∧
       t.syn.context = some { c with releases := c.releases ++ [(4 * i + p, 0)] } ∧
       { t with syn := s.syn, tb := s.tb } = s) ∧
   (∀ (cyc object cause : Nat) (s : State), s.lce.position = some (objectModule object) → bits object 31 30 = 2 →
     ∃ t, exec (.breakNode cyc object cause) s = .next t ∧
       t = ((s.stamp cyc).nodeMsg (.broke cause) (spanRef object)).torusDone ∧
       ((s.obj (spanRef object)).state ≠ .broken →
         (s.nodeStep (.broke cause) (spanRef object)).2.map (·.1) =
           ((s.parentRef (spanRef object)).toList ++ s.tileChildren (spanRef object)).map (fun _ => .broke cause))))

/-- R370, R371: an arrival at an OPEN barrier of this tile takes its input's phase over; a tile that a SYNC_BARRIER
station takes is held, and one that a SYNC_ARRIVE station takes moves on. An input that has arrived is held
until the release. R371: an arrival of a child module counts at the OPEN node, which is named first; a RELEASE
takes a COMPLETE node with children to wait for to RELEASING; an answer counts there; and a REOPEN starts the
next round of a REOPENING node, OPEN with no arrival and the other phase. The messages are those of a node with
no tile object under it. -/
def Obligations.BarriersRunInRounds : Prop :=
  ((∀ (cyc i p : Nat) (o : SyncOp) (s : State), s.syncHead i p 3 = some o →
     (s.obj ⟨false, o.tileKey⟩).state = .opn → (s.part? (4 * i + p)).phase = (s.obj ⟨false, o.tileKey⟩).phase →
     (s.part? (4 * i + p)).arrived = false →
     ∃ t u : State, exec (.syncArrive cyc i p) s = .next t ∧
       t = (u.nodeMsg (.arrived none) ⟨false, o.tileKey⟩).torusDone ∧
       u.part? (4 * i + p) =
         { (s.part? (4 * i + p)).free 0 with phase := !(s.part? (4 * i + p)).phase, arrived := true } ∧
       { u with syn := s.syn, tb := s.tb } = s) ∧
   (∀ (cyc i p : Nat) (o : SyncOp) (s : State), s.syncHead i p 4 = some o →
     (s.obj ⟨false, o.tileKey⟩).state = .opn → (s.part? (4 * i + p)).phase = (s.obj ⟨false, o.tileKey⟩).phase →
     (s.part? (4 * i + p)).arrived = false →
     ∃ t u : State, exec (.syncBarrier cyc i p) s = .next t ∧
       t = (u.nodeMsg (.arrived none) ⟨false, o.tileKey⟩).torusDone ∧
       (u.part? (4 * i + p)).arrived = true ∧ (u.part? (4 * i + p)).pass = (s.part? (4 * i + p)).pass ∧
       (u.part? (4 * i + p)).heldSince.isSome = true ∧ { u with syn := s.syn, tb := s.tb } = s) ∧
   (∀ (r : ObjRef) (s : State), (s.obj r).state = .opn →
     s.nodeStep (.arrived none) r =
       (s.setObj r { s.obj r with value := min (2 ^ 32 - 1) ((s.obj r).value + 1) }, [(.count, r)]))) ∧
  ((∀ (cyc object : Nat) (s : State), (s.obj (spanRef object)).state = .opn →
    (s.obj (spanRef object)).barrier = true →
     ((s.obj (spanRef object)).target = 0 ∨
       min (2 ^ 32 - 1) ((s.obj (spanRef object)).value + 1) < (s.obj (spanRef object)).target) →
     ∃ t u : State, exec (.arrive cyc object) s = .next t ∧ t = u.torusDone ∧
       u.syn.banks = putObj s.syn.banks (3584 + bits object 8 0) { s.obj (spanRef object) with
         value := min (2 ^ 32 - 1) ((s.obj (spanRef object)).value + 1) } ∧
       { u with syn := s.syn, tb := s.tb } = s) ∧
   (∀ (cyc object : Nat) (s : State), (s.obj (spanRef object)).state = .complete → s.syn.tiles = [] →
     s.syn.context = none → s.spanChildren (s.obj (spanRef object)) ≠ [] → (s.obj (spanRef object)).barrier = true →
     ∃ t u : State, exec (.release cyc object) s = .next t ∧ t = u.torusDone ∧
       u.syn.banks = putObj s.syn.banks (3584 + bits object 8 0) { s.obj (spanRef object) with
         state := .releasing, answers := 0 } ∧ u.syn.tiles = [] ∧ u.srv.streams = s.srv.streams) ∧
   (∀ (cyc object : Nat) (s : State), (s.obj (spanRef object)).state = .releasing → s.syn.tiles = [] →
     s.syn.context = none →
     (s.obj (spanRef object)).answers + 1 < (s.spanChildren (s.obj (spanRef object))).length →
     ∃ t u : State, exec (.released cyc object) s = .next t ∧ t = u.torusDone ∧
       u.syn.banks = putObj s.syn.banks (3584 + bits object 8 0) { s.obj (spanRef object) with
         answers := (s.obj (spanRef object)).answers + 1 } ∧ { u with syn := s.syn, tb := s.tb } = s) ∧
   (∀ (cyc object : Nat) (s : State), (s.obj (spanRef object)).state = .reopening → s.syn.tiles = [] →
     ∃ t u : State, exec (.reopen cyc object) s = .next t ∧ t = u.torusDone ∧
       u.syn.banks = putObj s.syn.banks (3584 + bits object 8 0) { s.obj (spanRef object) with
         state := .opn, phase := !(s.obj (spanRef object)).phase, value := 0
         round := ((s.obj (spanRef object)).round + 1) % 65536, quadArrived := [0, 0, 0, 0, 0, 0, 0, 0], answers := 0 }))

/-- R374, R380, R381, R384: a guard that expires at an object of another module lets its tile pass behind a status
token; a saved context holds the pass and leaves the fabric IDLE with every queue empty; and its restore puts
queues, stations, accumulators and SRAM back. -/
def Obligations.GuardsAndContexts : Prop :=
  (∀ (cyc i p : Nat) (o : SyncOp) (s : State), (s.stamp cyc).syncOp i = some o →
    (s.part? (4 * i + p)).heldSince.isSome = true → (s.part? (4 * i + p)).pass = false → s.syn.phase = .none →
    s.guardLimit o ≤ (s.stamp cyc).guardTime (s.part? (4 * i + p)) →
    ∃ t u : State, exec (.guardExpired cyc i p) s = .next t ∧
      u.syn.guardExpiries = min (2 ^ 32 - 1) (s.syn.guardExpiries + 1) ∧
      { u with syn := { u.syn with guardExpiries := s.syn.guardExpiries }, srv := s.srv, tb := s.tb } = s ∧
      (o.barrier = true → t = (u.nodeMsg (.broke 2) ⟨false, o.tileKey⟩).torusDone) ∧
      (∀ r, o.barrier = false → (s.stamp cyc).localObj o.object = some r → t = (u.nodeMsg (.broke 2) r).torusDone) ∧
      (o.barrier = false → (s.stamp cyc).localObj o.object = none →
        t = ((u.sendSync (objectModule o.object) 8 o.object 2).freeRemote (4 * i + p) 2).torusDone)) ∧
  (∀ (cyc n : Nat) (r : PassRun) (s : State), s.planner.running = some r → s.syn.phase = .saving →
    s.saveWaits = false →
    ∃ (t : State) (c : SavedContext), exec (.contextSaved cyc n) s = .next t ∧ t.syn.context = some c ∧ c.run = r ∧
      c.queues = s.fab.queues ∧
      c.stations = s.fab.stations ∧ c.acc = s.mxe.acc ∧ c.sets = s.mxe.sets ∧ c.mask = s.mask ∧
      c.checkMode = s.mxe.checkMode ∧ c.checkTol = s.mxe.checkTol ∧ c.sram = s.mem.sram ∧ c.saveCycles = n ∧
        c.releases = [] ∧
      t.syn.phase = .none ∧ t.syn.preemptions = min (2 ^ 32 - 1) (s.syn.preemptions + 1) ∧ t.fab.state = .idle ∧
      t.fab.queues = s.fab.queues.map QueueRun.empty ∧ t.planner.running = none ∧ t.mem = s.mem ∧ t.mxe = s.mxe) ∧
  (∀ (cyc : Nat) (c : SavedContext) (s : State), s.syn.context = some c → s.syn.phase = .restoring →
    c.releases = [] → c.stations = [] →
    ((s.store.active.bind fun a => a.lasts.find? fun l => l.lastId = c.run.entry.lastId).map (·.pool)).getD false = false →
    ∃ t u : State, exec (.contextRestored cyc) s = .next t ∧ t = u.torusDone ∧ u.fab.queues = c.queues ∧
      u.fab.params = c.params ∧
      u.mxe.acc = c.acc ∧ u.mxe.sets = c.sets ∧ u.mxe.checkMode = c.checkMode ∧ u.mxe.checkTol = c.checkTol ∧
      u.mem = { s.mem with sram := c.sram } ∧ u.syn.context = none ∧ u.syn.phase = .none ∧
      u.syn.tiles = c.tileObjs ∧ u.planner.running.map (·.passNumber) = some c.run.passNumber) ∧
  (∀ (cyc : Nat) (c : SavedContext) (s : State), s.syn.context = some c → s.syn.phase = .restoring →
    ∃ t, exec (.contextRestored cyc) s = .next t ∧ t.mem.sram = c.sram ∧ t.mem.hbm = s.mem.hbm ∧ t.regs = s.regs)

/-- R401, R402, R403, Table 12-6: the light of a DARK lace starts its training; a training that completes opens a
new LINK_EPOCH and HELLO, and one that has lasted 40 ms goes back to DARK; a MISWIRED lace is tried again after
160 slots; a heater step counts, and a failed lane retrains the lace at half width. Every training but the first
counts in LCE_RETRAINS, once. R402: a HELLO on a lace in HELLO or later is answered with HELLO_ACK where the
position is known, and one on a lace that trains with NOT_READY; a HELLO_ACK whose position, rack and lace are
those of the neighbour completes the handshake of this side, and any other takes the lace DOWN with cause 4; a
NOT_READY says how long to wait. That a training that timed out counts in LCE_RETRAINS once is the model's
reading (log entry 47). -/
def Obligations.LacesTrainAndGreet : Prop :=
  (∀ (l : Nat) (s : State), l < 4 → l < s.lce.laces.length →
     ((s.lace l).state = .dark ∨ ((s.lace l).state = .down ∧ (s.lace l).cause ≠ 4 ∧ (s.lace l).cause ≠ 5) →
       ∃ t, exec (.laceLightDetected l) s = .next t ∧ (t.lace l).state = .training ∧
         (t.lace l).trainings = (s.lace l).trainings + 1 ∧ (t.lace l).trainStart = s.clock ∧
         (t.lace l).linkEpoch = (s.lace l).linkEpoch ∧
         (t.lace l).retrains = (if (s.lace l).trainings = 0 ∨
           (s.lace l).retrainCounted = true then (s.lace l).retrains
           else min (2 ^ 32 - 1) ((s.lace l).retrains + 1)) ∧
         (∀ k, k ≠ l → t.lace k = s.lace k) ∧ { t with lce := s.lce } = s) ∧
     (∀ cyc, (s.lace l).state = .training →
       ∃ t, exec (.laceTrainingComplete cyc l) s = .next t ∧ (t.lace l).state = .hello ∧
         (t.lace l).linkEpoch = ((s.lace l).linkEpoch + 1) % 65536 ∧
         (t.lace l).width = (if (s.lace l).halfWidth then s.nativeWidth / 2 else s.nativeWidth) ∧
         (t.lace l).ackSent = false ∧ (t.lace l).ackReceived = false ∧ (∀ k, k ≠ l → t.lace k = s.lace k) ∧
         { t with lce := s.lce, tb := s.tb } = s) ∧
     (∀ cyc, (s.lace l).state = .training → (s.lace l).trainings ≤ 1 →
       (s.lace l).trainStart + 50000000 ≤ (s.stamp cyc).clock →
       ∃ t, exec (.laceTrainingTimeout cyc l) s = .next t ∧ (t.lace l).state = .dark ∧
         (t.lace l).retrains = min (2 ^ 32 - 1) ((s.lace l).retrains + 1) ∧ (t.lace l).retrainCounted = true ∧
         (t.lace l).trainings = (s.lace l).trainings ∧
         (∀ k, k ≠ l → t.lace k = s.lace k) ∧ { t with lce := s.lce, tb := s.tb } = s) ∧
     ((s.lace l).state = .down → (s.lace l).cause = 4 → (s.lace l).downSince + 160 ≤ s.uptime →
       ∃ t, exec (.laceMiswiredRetry l) s = .next t ∧ (t.lace l).state = .training ∧
         (t.lace l).trainings = (s.lace l).trainings + 1 ∧
         (t.lace l).retrains = (if (s.lace l).trainings = 0 ∨
           (s.lace l).retrainCounted = true then (s.lace l).retrains
           else min (2 ^ 32 - 1) ((s.lace l).retrains + 1)) ∧
         (∀ k, k ≠ l → t.lace k = s.lace k) ∧ { t with lce := s.lce } = s) ∧
     (∀ cyc step failed (power : Int), (s.lace l).state.framed = true →
       ∃ t, exec (.ringHeaterStep cyc l step failed power) s = .next t ∧ (t.lace l).rxPowerMin = power ∧
         (t.lace l).ringAdjusts = (if step then min (2 ^ 32 - 1) ((s.lace l).ringAdjusts + 1)
           else (s.lace l).ringAdjusts) ∧
         (failed = true → (t.lace l).state = .training ∧ (t.lace l).halfWidth = true) ∧
         (failed = false → (t.lace l).state = (s.lace l).state ∧ (t.lace l).halfWidth = (s.lace l).halfWidth) ∧
         (∀ k, k ≠ l → t.lace k = s.lace k) ∧ { t with lce := s.lce, tb := s.tb } = s)) ∧
  (∀ (cyc l : Nat) (m : HelloMsg) (s : State), l < 4 → l < s.lce.laces.length →
     ((s.lace l).state.framed = true → s.lce.position.isSome = true →
       ∃ t, exec (.hello cyc l m) s = .next t ∧ (t.lace l).ackSent = true ∧ (t.lace l).state = (s.lace l).state ∧
         (t.lace l).ackReceived = (s.lace l).ackReceived ∧
         (∀ k, k ≠ l → t.lace k = { s.lace k with creditReturns := (t.lace k).creditReturns }) ∧
         { t with lce := s.lce, tb := s.tb } = s) ∧
     ((s.lace l).state = .training →
       ∃ t, exec (.hello cyc l m) s = .next t ∧
         (t.lace l).state = .training ∧ (t.lace l).waiting = (s.lace l).waiting ++ [.control (.notReady 8)] ∧
         (∀ k, k ≠ l → t.lace k = { s.lace k with creditReturns := (t.lace k).creditReturns }) ∧
           { t with lce := s.lce, tb := s.tb } = s) ∧
     (∀ (echo p : Nat), (s.lace l).state = .hello → s.lce.position = some p →
       (m.position = neighbour p l → m.rackId = s.lce.rackId → m.lace = opposite l →
         ∃ t, exec (.helloAck cyc l m echo) s = .next t ∧
           t.lace l = { s.lace l with peer := m.position, latency := (fstCycles s.fst - fstCycles echo) / 2
                                      ackReceived := true, peerGood := decide (m.width = (s.lace l).width) } ∧
           (∀ k, k ≠ l → t.lace k = s.lace k) ∧ { t with lce := s.lce, tb := s.tb } = s) ∧
       (m.position ≠ neighbour p l ∨ m.rackId ≠ s.lce.rackId ∨ m.lace ≠ opposite l →
         ∃ t, exec (.helloAck cyc l m echo) s = .next t ∧ (t.lace l).state = .down ∧ (t.lace l).cause = 4)) ∧
     (∀ after, (s.lace l).state = .hello →
       ∃ t, exec (.notReady l after) s = .next t ∧ t.lace l = { s.lace l with helloWait := after } ∧
         (∀ k, k ≠ l → t.lace k = s.lace k) ∧ { t with lce := s.lce } = s))

/-- R392, R394, R395: the next frame in order is accepted, and the one after it is then expected; a frame that is
not correctable, fails its CRC, is of another LINK_EPOCH or is out of order is discarded, and a replay is
awaited; a REPLAY_REQ for frames that are held counts a replay, and one for frames that are not held retrains
the lace. Seventeen replays in 1 ms retrain it too. What LCE_REPLAYS counts, and what a retraining keeps, is the
model's reading (log entry 47). -/
def Obligations.LaceFramesAreAcceptedInOrder : Prop :=
  ∀ (cyc l : Nat) (s : State), l < 4 → l < s.lce.laces.length → (s.lace l).state.framed = true →
    (∀ f : LaceFrame, f.correctable = true → f.crcGood = true → f.linkEpoch = (s.lace l).linkEpoch →
      f.frameSeq = (s.lace l).rxSeq → ((s.lace l).awaitReplay = true → f.replay = true) →
      ∃ t u : State, exec (.laceFrameReceived cyc l f) s = .next t ∧ t = u.torusDone ∧
        (u.lace l).rxSeq = ((s.lace l).rxSeq + 1) % 65536 ∧ (u.lace l).awaitReplay = false ∧
        (u.lace l).state = (s.lace l).state ∧
        (u.lace l).fecCorrected = min (2 ^ 64 - 1) ((s.lace l).fecCorrected + f.corrected)) ∧
    (∀ f : LaceFrame, f.correctable = false →
      ∃ t, exec (.laceFrameReceived cyc l f) s = .next t ∧ (t.lace l).rxSeq = (s.lace l).rxSeq ∧
        (t.lace l).fecUncorrectable = min (2 ^ 32 - 1) ((s.lace l).fecUncorrectable + 1) ∧
        ((s.lace l).awaitReplay = true ∨ (s.lace l).replayTimes.length < 16 →
          (t.lace l).awaitReplay = true ∧ (t.lace l).state = (s.lace l).state) ∧
        (∀ k, k ≠ l → t.lace k = { s.lace k with creditReturns := (t.lace k).creditReturns }) ∧
        { t with lce := s.lce, tb := s.tb } = s) ∧
    (∀ f : LaceFrame, f.correctable = true →
      (f.crcGood = false ∨ f.linkEpoch ≠ (s.lace l).linkEpoch ∨ f.frameSeq ≠ (s.lace l).rxSeq ∨
        ((s.lace l).awaitReplay = true ∧ f.replay = false)) →
      ∃ t, exec (.laceFrameReceived cyc l f) s = .next t ∧ (t.lace l).rxSeq = (s.lace l).rxSeq ∧
        (t.lace l).replays = min (2 ^ 32 - 1) ((s.lace l).replays + 1) ∧
        ((s.lace l).awaitReplay = true ∨ (s.lace l).replayTimes.length < 16 →
          (t.lace l).awaitReplay = true ∧ (t.lace l).state = (s.lace l).state) ∧
        (∀ k, k ≠ l → t.lace k = { s.lace k with creditReturns := (t.lace k).creditReturns }) ∧
          { t with lce := s.lce, tb := s.tb } = s) ∧
    (∀ seq : Nat, ((s.lace l).txSeq + 65536 - seq) % 65536 ≤ (s.lace l).held →
      ∃ t, exec (.replayReq cyc l seq) s = .next t ∧
        (t.lace l).replays = min (2 ^ 32 - 1) ((s.lace l).replays + 1) ∧
        ((s.lace l).replayTimes.length < 16 → (t.lace l).state = (s.lace l).state) ∧
        (∀ k, k ≠ l → t.lace k = s.lace k) ∧ { t with lce := s.lce, tb := s.tb } = s) ∧
    (∀ seq : Nat, (s.lace l).held < ((s.lace l).txSeq + 65536 - seq) % 65536 →
      ∃ t, exec (.replayReq cyc l seq) s = .next t ∧ (t.lace l).state = .training ∧
        (∀ k, k ≠ l → t.lace k = s.lace k) ∧ { t with lce := s.lce, tb := s.tb } = s)

/-- R402, R409, R411, R412: a notice that has not been seen is remembered; a LOST one takes the hop out of the view,
and LEAVING and RETURNED wait for their EFFECTIVE; a GOODBYE takes the lace DOWN with cause 2 and its sender out
of the span; a SPAN_HELLO is remembered; a SPAN_FAULT of this module's span breaks the running pass. R407, R408,
R409: a committed span mask takes its tag, leaves no object in the span pair and starts FORMING; a mask without
this module is refused, and so is any while a stream is not FREE. -/
def Obligations.NoticesAndSpansAreHeard : Prop :=
  (∀ (cyc l : Nat) (s : State), l < 4 → (s.lace l).state.framed = true →
     (∀ m : LinkNoticeMsg, s.firstSeen m.origin m.seq = true →
       (m.notice = 2 ∨ (m.notice = 3 ∧ m.subject ∉ s.lce.missing) → ∃ t, exec (.linkNotice cyc l m) s = .next t ∧
         t.lce.seen = s.lce.seen ++ [(m.origin, m.seq)] ∧ t.lce.pendingNotices = s.lce.pendingNotices ++ [m] ∧
         t.lce.missing = s.lce.missing ∧ t.lce.lacesDown = s.lce.lacesDown ∧
         { t with lce := s.lce, tb := s.tb } = s) ∧
       (m.notice = 3 → ∃ t, exec (.linkNotice cyc l m) s = .next t ∧ t.lce.seen = s.lce.seen ++ [(m.origin, m.seq)] ∧
         t.lce.pendingNotices = s.lce.pendingNotices ++ [m] ∧ t.lce.missing = s.lce.missing) ∧
       (m.notice = 1 → ∃ t, exec (.linkNotice cyc l m) s = .next t ∧ (m.origin, m.seq) ∈ t.lce.seen ∧
         4 * m.subject + m.lace ∈ t.lce.lacesDown)) ∧
     (∀ p : Nat, l < s.lce.laces.length → ∃ t, exec (.goodbye cyc l p) s = .next t ∧ (t.lace l).state = .down ∧
       (t.lace l).cause = 2 ∧ (t.lace l).wasDown = true ∧ p ∈ t.lce.missing) ∧
     (∀ origin tag mask : Nat, ∃ t, exec (.spanHello cyc l origin tag mask) s = .next t ∧
       (origin, tag, mask) ∈ t.lce.hellos ∧ (origin, tag) ∈ t.lce.seenHello ∧ t.syn = s.syn ∧ t.planner = s.planner) ∧
     (∀ origin seq tag subject : Nat, s.firstSeen origin seq = true →
       ∃ t, exec (.spanFault cyc l origin seq tag subject) s = .next t ∧ (origin, seq) ∈ t.lce.seen ∧
         (tag = s.lce.spanTag → 1 < s.lce.members.length →
           t.planner.running.map (·.broken) = s.planner.running.map (fun _ => true)))) ∧
  ((∀ (mask tag p : Nat) (s : State), mask < 2 ^ 64 → tag < 2 ^ 32 → s.lce.position = some p → bit mask p = true →
     (∀ q ∈ s.lce.missing, bit mask q = false) → s.anyStream = false →
     ∃ t, exec (.spanCommit mask tag) s = .next t ∧ t.lce.spanMask = mask ∧ t.lce.spanTag = tag ∧
       t.syn.banks = kdrop s.syn.banks 3584 4096 ∧ t.syn.spanBound = true ∧ t.lce.position = some p ∧
       t.dict.lastStatus = Status.OK ∧ t.fab = s.fab ∧ t.planner = s.planner) ∧
   (∀ (mask tag p : Nat) (s : State), mask < 2 ^ 64 → tag < 2 ^ 32 → s.lce.position = some p → mask ≠ 0 →
     bit mask p = false →
     exec (.spanCommit mask tag) s = .next { s with dict := { s.dict with lastStatus := Status.LCE_SPAN_SHAPE } }) ∧
   (∀ (mask tag p : Nat) (s : State), mask < 2 ^ 64 → tag < 2 ^ 32 → s.lce.position = some p → bit mask p = true →
     s.lce.missing = [] → s.anyStream = true →
     exec (.spanCommit mask tag) s = .next { s with dict := { s.dict with lastStatus := Status.LCE_SPAN_IN_USE } }))

/-- R411, R413, R418: a lace whose light is lost goes DOWN with cause 1, or back to DARK while it trains; one that
leaves goes DOWN once it is drained; the loss of both laser inputs of an eyelet takes its laces DOWN, the loss
of one leaves them as they are, and the return of one opens the laces that were DOWN for it. -/
def Obligations.LightIsLostAndReturns : Prop :=
  (∀ (cyc l : Nat) (s : State), l < 4 → l < s.lce.laces.length →
    ((s.lace l).state.framed = true → ∃ t, exec (.laceLightLost cyc l) s = .next t ∧ (t.lace l).state = .down ∧
      (t.lace l).cause = 1 ∧ (t.lace l).waiting = [] ∧ (t.lace l).replayBuffer = []) ∧
    ((s.lace l).state = .training → ∃ t, exec (.laceLightLost cyc l) s = .next t ∧
      t.lace l = { s.lace l with state := .dark } ∧ (∀ k, k ≠ l → t.lace k = s.lace k) ∧
        { t with lce := s.lce } = s) ∧
    ((s.lace l).state = .leaving → s.pwr.drainEffective = true → (s.lace l).waiting = [] →
      (s.lace l).replayBuffer = [] → ∃ t, exec (.leavingDrained cyc l) s = .next t ∧ (t.lace l).state = .down ∧
        (t.lace l).cause = 2 ∧ (t.lace l).wasDown = true ∧
        (∀ k, k ≠ l → t.lace k = { s.lace k with creditReturns := (t.lace k).creditReturns }) ∧
        { t with lce := s.lce, tb := s.tb } = s)) ∧
  (∀ (cyc e : Nat) (s : State), e < s.part.eyelets → e < s.lce.laserA.length →
    (s.lce.laserB.getD e false = true → ∃ t, exec (.laserInputLost cyc e 0) s = .next t ∧
      t.lce = { s.lce with laserA := s.lce.laserA.set e false } ∧
        { t with lce := s.lce, srv := s.srv, tb := s.tb } = s) ∧
    (s.lce.laserB.getD e false = false → ∃ t, exec (.laserInputLost cyc e 0) s = .next t ∧
      t.lce.laserA = s.lce.laserA.set e false ∧ t.lce.laserB = s.lce.laserB ∧
      ∀ l ∈ s.lacesOf e, l < s.lce.laces.length → (s.lace l).state ≠ .off → (t.lace l).state = .down) ∧
    (∃ t, exec (.laserInputReturn cyc e 0) s = .next t ∧ t.lce.laserA = s.lce.laserA.set e true ∧
      t.lce.laserB = s.lce.laserB ∧
      (∀ l ∈ s.lacesOf e, l < s.lce.laces.length → (s.lace l).state = .down → (s.lace l).cause = 5 →
        t.lace l = { s.lace l with state := .dark, cause := 0 }) ∧ { t with lce := s.lce, tb := s.tb } = s))

/-- R434, R435: a DISPATCH that comes whole from a known host is held for its expert where no rule of R434 refuses
it, and is counted as refused otherwise; a frame that R419 discards is counted and does nothing else. -/
def Obligations.DispatchesArrive : Prop :=
  ∀ (cyc up h : Nat) (e : HostEntry) (f : FrameCheck) (m : DispatchMsg) (s : State), up < s.part.uplinks →
    (s.uplink up).state = .up →
    (f.tagged = false → f.extension = false → f.checksumGood = true → f.addressed = true → m.good = true →
      s.hostAt m.source = some (h, e) → bit m.flags 2 = false →
      (s.serveRefusal m = none → ∃ t u : State, exec (.dispatch cyc up f m) s = .next t ∧ t = u.dspAdvance ∧
        u.dsp.arrivals = s.dsp.arrivals ++ [arrivalOf h up m] ∧
        kgetD u.dsp.arrived h 0 = kgetD s.dsp.arrived h 0 +
          (if s.dsp.arrivals.any (fun a => a.host = h && a.no = m.dispatchNo && a.gen = m.gen) then 0 else 1) ∧
        u.dsp.choices = s.dsp.choices ∧ u.dsp.refused = s.dsp.refused ∧ { u with dsp := s.dsp, tb := s.tb } = s) ∧
      (∀ status, s.serveRefusal m = some status → ∃ t, exec (.dispatch cyc up f m) s = .next t ∧
        t.dsp.refused = min (2 ^ 32 - 1) (s.dsp.refused + 1) ∧ t.dsp.arrivals = s.dsp.arrivals ∧
        t.dsp.arrived = s.dsp.arrived ∧ { t with dsp := s.dsp, srv := s.srv, tb := s.tb } = s)) ∧
    (up < s.dsp.uplinks.length → (f.tagged = true ∨ f.extension = true ∨ f.checksumGood = false ∨
      f.addressed = false) →
      ∃ t, exec (.dispatch cyc up f m) s = .next t ∧
        (t.uplink up).rxDiscards = min (2 ^ 32 - 1) ((s.uplink up).rxDiscards + 1) ∧
        (∀ k, k ≠ up → t.uplink k = s.uplink k) ∧ t.dsp.arrivals = s.dsp.arrivals ∧
        exec (.returnMsg cyc up f m) s = .next t ∧ exec (.batchEnd cyc up f m) s = .next t ∧
        exec (.dispatchCancel cyc up f m) s = .next t ∧ exec (.credit cyc up f m) s = .next t ∧
        { t with dsp := s.dsp, tb := s.tb } = s)

/-- R430, R434, R436, R437: the other messages from a known host: a RETURN closes its choice and brings its credit
back; BATCH_END notes how many dispatches the host has sent; DISPATCH_CANCEL discards the arrivals that no tile
has taken; CREDIT brings back credits of cancelled dispatches. R434, R436, R437, R438: a choice whose return is
late is sent once more, and is lost the second time; credits of a cancelled generation come back after the
grace; and a serve station closes its batch at CLOSE_CYCLES. -/
def Obligations.DispatchesEnd : Prop :=
  (∀ (cyc up h : Nat) (e : HostEntry) (f : FrameCheck) (m : DispatchMsg) (s : State), up < s.part.uplinks →
     (s.uplink up).state = .up → f.tagged = false → f.extension = false → f.checksumGood = true → f.addressed = true →
     m.good = true → s.hostAt m.source = some (h, e) →
     (∀ c : Choice, bit m.flags 2 = false → m.status = 0 → s.dsp.batchId = some m.batchId → s.dsp.gen ≤ m.gen →
       (∀ x ∈ s.dsp.cancelled, x.batch ≠ m.batchId ∨ x.gen ≠ m.gen ∨ x.host ≠ h ∨ x.no ≠ m.dispatchNo) →
       (s.dsp.choices.find? fun c => c.no = m.dispatchNo && c.host = h && c.sent && c.result.isNone && c.gen = m.gen &&
         s.dsp.batchId = some m.batchId) = some c →
       ∃ t u : State, exec (.returnMsg cyc up f m) s = .next t ∧ t = u.dspAdvance ∧
         u.dsp.choices = s.dsp.choices.map (fun x => if x.no = c.no then { x with result := some (m.payload, false) }
           else x) ∧
         u.dsp.returns = min (2 ^ 64 - 1) (s.dsp.returns + 1) ∧ u.dsp.closedNos = s.dsp.closedNos ++ [c.no] ∧
         (h ≠ 0xFFFF → kgetD u.dsp.inUse h 0 = kgetD s.dsp.inUse h 0 - 1) ∧
         { u with dsp := s.dsp, tb := s.tb, fab := { u.fab with guardZero := s.fab.guardZero } } = s) ∧
     (s.dsp.batchId = some m.batchId →
       (∃ t u : State, exec (.batchEnd cyc up f m) s = .next t ∧ t = u.dspAdvance ∧
         kget? u.dsp.ends h = some m.dispatchNo ∧
         (∀ k, k ≠ h → kget? u.dsp.ends k = kget? s.dsp.ends k) ∧ u.dsp.arrivals = s.dsp.arrivals ∧
         { u with dsp := s.dsp, tb := s.tb } = s) ∧
       (∃ t, exec (.dispatchCancel cyc up f m) s = .next t ∧
         t.dsp.arrivals = s.dsp.arrivals.filter (fun a => !(a.host = h && !a.taken && a.gen < m.gen)) ∧
         kgetD t.dsp.arrived h 0 = 0 ∧ t.dsp.ends = kdel s.dsp.ends h ∧ t.dsp.choices = s.dsp.choices ∧
         { t with dsp := s.dsp, tb := s.tb } = s)) ∧
     (∃ t u : State, exec (.credit cyc up f m) s = .next t ∧ t = u.dspAdvance ∧
       (∀ x ∈ u.dsp.cancelled, x ∈ s.dsp.cancelled) ∧
       (∀ x ∈ s.dsp.cancelled, x.host ≠ h ∨ x.batch ≠ m.batchId ∨ m.gen ≤ x.gen → x ∈ u.dsp.cancelled) ∧
         u.dsp.choices = s.dsp.choices ∧
       u.dsp.arrivals = s.dsp.arrivals ∧ { u with dsp := s.dsp, tb := s.tb } = s)) ∧
  ((∀ (cyc no : Nat) (c : Choice) (s : State),
     (s.dsp.choices.find? fun c => c.no = no && c.sent && c.result.isNone) = some c →
     c.sentAt + 1024 * s.reg Reg.DSP_RETURN_TIMEOUT ≤ (s.stamp cyc).clock →
     (c.resent = false → c.host = 0xFFFF → ∃ t u : State, exec (.returnTimeout cyc no) s = .next t ∧
       t = u.dspAdvance ∧
       u.dsp.resends = min (2 ^ 32 - 1) (s.dsp.resends + 1)) ∧
     (c.resent = false → c.host ≠ 0xFFFF → ∃ t, exec (.returnTimeout cyc no) s = .next t ∧
       t.dsp.resends = min (2 ^ 32 - 1) (s.dsp.resends + 1) ∧
       t.dsp.choices = s.dsp.choices.map (fun x => if x.no = c.no then
         { x with resent := true, sentAt := (s.stamp cyc).clock } else x) ∧
       t.dsp.returnsLost = s.dsp.returnsLost ∧ { t with dsp := s.dsp, tb := s.tb } = s) ∧
     (c.resent = true → ∃ t, exec (.returnTimeout cyc no) s = .next t ∧
       t.dsp.returnsLost = min (2 ^ 32 - 1) (s.dsp.returnsLost + 1) ∧ c.host ∈ t.dsp.lossNow ∧
       t.dsp.resends = s.dsp.resends)) ∧
   (∀ (cyc gen : Nat) (s : State), ∃ t u : State, exec (.creditGraceExpiry cyc gen) s = .next t ∧ t = u.dspAdvance ∧
     (∀ x, x ∈ u.dsp.cancelled ↔ x ∈ s.dsp.cancelled ∧
       (x.gen ≠ gen ∨ (s.stamp cyc).clock < x.since + 156250 * s.reg Reg.DSP_CREDIT_GRACE)) ∧
     (∀ x ∈ s.dsp.cancelled, x.gen = gen → x.since + 156250 * s.reg Reg.DSP_CREDIT_GRACE ≤ (s.stamp cyc).clock →
       x.no ∈ u.dsp.closedNos) ∧
     u.dsp.reclaimed = min (2 ^ 32 - 1) (s.dsp.reclaimed + (s.dsp.cancelled.length - u.dsp.cancelled.length)) ∧
     u.dsp.choices = s.dsp.choices ∧ { u with dsp := s.dsp, tb := s.tb } = s) ∧
   (∀ (cyc i : Nat) (p : PortOp) (r : PassRun) (s : State), s.planner.running = some r →
     (s.dspStations 1).find? (fun e => e.1 = i) = some (i, p) → s.fab.state = .running →
     i ∉ s.dsp.closedStations → r.start + p.closeCycles ≤ (s.stamp cyc).tb.now →
     ∃ t u : State, exec (.serveBatchClose cyc i) s = .next t ∧ t = u.dspAdvance ∧
       u.dsp.closedStations = s.dsp.closedStations ++ [i] ∧ u.dsp.arrivals = s.dsp.arrivals ∧
       { u with dsp := s.dsp, tb := s.tb } = s))

/-- R419, R421, R423, R427: an uplink comes UP and goes DOWN; a solicitation of the module's dispatch address is
answered and one of another address is not; a well-formed table waits for the next frame, and an ill-formed host
table is refused with DSP_TABLE_INVALID. -/
def Obligations.UplinksAndTables : Prop :=
  (∀ (cyc up : Nat) (s : State), up < s.part.uplinks → up < s.dsp.uplinks.length →
    ((s.uplink up).state = .down → ∃ t, exec (.uplinkUp cyc up) s = .next t ∧
      t.uplink up = { s.uplink up with state := .up, cause := 0 } ∧ (∀ k, k ≠ up → t.uplink k = s.uplink k) ∧
      { t with dsp := s.dsp, srv := s.srv, tb := s.tb } = s) ∧
    (∀ cause, (s.uplink up).state = .up → ∃ t, exec (.uplinkDown cyc up cause) s = .next t ∧
      t.uplink up = { s.uplink up with state := .down, cause := cause } ∧
      (∀ k, k ≠ up → t.uplink k = s.uplink k) ∧ { t with dsp := s.dsp, srv := s.srv, tb := s.tb } = s) ∧
    ((s.uplink up).state = .up → ∃ t, exec (.uplinkNeighborSolicitation up s.dspAddress) s = .next t ∧
      t.uplink up = { s.uplink up with advertised := (s.uplink up).advertised + 1
                                       rxFrames := min (2 ^ 64 - 1) ((s.uplink up).rxFrames + 1)
                                       txFrames := min (2 ^ 64 - 1) ((s.uplink up).txFrames + 1) } ∧
      (∀ k, k ≠ up → t.uplink k = s.uplink k) ∧ { t with dsp := s.dsp } = s) ∧
    (∀ target, target ≠ s.dspAddress → exec (.uplinkNeighborSolicitation up target) s = .next s)) ∧
  (∀ (b : List Byte) (s : State), b ≠ [] →
    (∀ x, parseHosts b = some x → ∃ t, exec (.dspTableCommit 6 b) s = .next t ∧
      t.dsp = { s.dsp with nextHosts := some x } ∧ kget? t.blobs (Reg.DSP_ROLE + 5) = some b ∧
      t.dict.lastStatus = Status.OK ∧ { t with dsp := s.dsp, blobs := s.blobs, dict := s.dict } = s) ∧
    (∀ x, parseMap b = some x → ∃ t, exec (.dspTableCommit 7 b) s = .next t ∧
      t.dsp = { s.dsp with nextMap := some x } ∧ kget? t.blobs (Reg.DSP_ROLE + 6) = some b ∧
      t.dict.lastStatus = Status.OK ∧ { t with dsp := s.dsp, blobs := s.blobs, dict := s.dict } = s) ∧
    (∀ x, parseServe b = some x → ∃ t, exec (.dspTableCommit 8 b) s = .next t ∧
      t.dsp = { s.dsp with nextServe := some x } ∧ kget? t.blobs (Reg.DSP_ROLE + 7) = some b ∧
      t.dict.lastStatus = Status.OK ∧ { t with dsp := s.dsp, blobs := s.blobs, dict := s.dict } = s) ∧
    (∀ x, parseWindows b = some x → ∃ t, exec (.dspTableCommit 9 b) s = .next t ∧
      t.dsp = { s.dsp with nextWindows := some x } ∧ 
      t.planner = (if x = s.dsp.windows ∧
        s.dsp.nextWindows = none then s.planner else { s.planner with rerun := some 2 }) ∧
      kget? t.blobs (Reg.DSP_ROLE + 8) = some b ∧ t.dict.lastStatus = Status.OK ∧
      { t with dsp := s.dsp, planner := s.planner, blobs := s.blobs, dict := s.dict } = s)) ∧
  (∀ (b : List Byte) (s : State), parseHosts b = none →
    exec (.dspTableCommit 6 b) s = .next { s with dict := { s.dict with lastStatus := Status.DSP_TABLE_INVALID } })

/-- R443, R444, R456, R458, Table 14-9: a UCIe module that has trained is ACTIVE at its speed; one that failed at 32
GT/s trains at 16 GT/s; one that failed there, or the third retraining in a second, a module with a protocol
error and every module at a reset of the host die go DOWN; a DOWN module trains again; a CRC error is counted
and, where it is not recovered, retrains the module. What the link as a whole does is that of `State.linkState`. -/
def Obligations.UcieModulesChangeState : Prop :=
  (∀ (cyc m : Nat) (s : State), m < 4 → m < s.hlk.modules.length →
    (∀ speed repaired, (s.module m).state = .training → speed = 16 ∨ speed = 32 →
      ∃ t u : State, exec (.ucieTrainingComplete cyc m true speed repaired) s = .next t ∧ t = u.linkState ∧
        u.module m = { s.module m with state := .active, speed := speed, repaired := min 255 repaired } ∧
        (∀ k, k ≠ m → u.module k = s.module k) ∧ { u with hlk := s.hlk, srv := s.srv, tb := s.tb } = s) ∧
    (∀ repaired, (s.module m).state = .training → (s.module m).slow = false →
      ∃ t, exec (.ucieTrainingComplete cyc m false 32 repaired) s = .next t ∧
        t.module m = { s.module m with slow := true } ∧ (∀ k, k ≠ m → t.module k = s.module k) ∧
        { t with hlk := s.hlk, tb := s.tb } = s) ∧
    (∀ speed repaired, (s.module m).state = .training → speed ≠ 32 ∨ (s.module m).slow = true →
      ∃ t, exec (.ucieTrainingComplete cyc m false speed repaired) s = .next t ∧ (t.module m).state = .down) ∧
    ((s.module m).state = .down → (s.module m).downSince + 160 ≤ s.uptime →
      ∃ t, exec (.ucieTrainingRetry m) s = .next t ∧
      t.module m = { s.module m with state := .training, retrains := min (2 ^ 32 - 1) ((s.module m).retrains + 1) } ∧
      (∀ k, k ≠ m → t.module k = s.module k) ∧ { t with hlk := s.hlk } = s) ∧
    ((s.module m).state = .active →
      (∃ t, exec (.ucieCrcError cyc m true) s = .next t ∧
        t.module m = { s.module m with crcErrors := min (2 ^ 32 - 1) ((s.module m).crcErrors + 1)
                                       replays := min (2 ^ 32 - 1) ((s.module m).replays + 1) } ∧
        (∀ k, k ≠ m → t.module k = s.module k) ∧ { t with hlk := s.hlk, tb := s.tb } = s) ∧
      (∃ t u : State, exec (.ucieCrcError cyc m false) s = .next t ∧ t = u.linkState ∧
        u.module m = { s.module m with crcErrors := min (2 ^ 32 - 1) ((s.module m).crcErrors + 1)
                                       replays := min (2 ^ 32 - 1) ((s.module m).replays + 1), state := .retrain
                                       retrains := min (2 ^ 32 - 1) ((s.module m).retrains + 1) } ∧
        { u with hlk := s.hlk, srv := s.srv, tb := s.tb } = s)) ∧
    (∀ repaired, (s.module m).state = .retrain →
      (∃ t u : State, exec (.ucieRetrainComplete cyc m true repaired) s = .next t ∧ t = u.linkState ∧
        u.module m = { s.module m with state := .active, repaired := min 255 repaired } ∧
        { u with hlk := s.hlk, tb := s.tb } = s) ∧
      (((s.module m).retrainFails.filter fun x => (s.stamp cyc).clock < x + 1250000000).length < 2 →
        ∃ t, exec (.ucieRetrainComplete cyc m false repaired) s = .next t ∧
        t.module m = { s.module m with retrains := min (2 ^ 32 - 1) ((s.module m).retrains + 1)
                                       retrainFails := (t.module m).retrainFails } ∧
        (t.module m).retrainFails.head? = some (s.stamp cyc).clock ∧ { t with hlk := s.hlk, tb := s.tb } = s) ∧
      (2 ≤ ((s.module m).retrainFails.filter fun x => (s.stamp cyc).clock < x + 1250000000).length →
        ∃ t, exec (.ucieRetrainComplete cyc m false repaired) s = .next t ∧ (t.module m).state = .down)) ∧
    ((s.module m).state ≠ .off → ∃ t, exec (.ucieProtocolError cyc m) s = .next t ∧ (t.module m).state = .down)) ∧
  (∀ (cyc : Nat) (s : State), ∃ t, exec (.hostDieReset cyc) s = .next t ∧
    ∀ m, m < 4 → m < s.hlk.modules.length → (t.module m).state = (if (s.module m).state = .off then .off else .down))

/-- R446, R459: an answer to an outstanding request ends it: the last data of a read and the acknowledgement of a
write complete the access, an error or a timeout is counted and loses it; earlier data is kept; and an answer to
no outstanding request is discarded. -/
def Obligations.HostAccessesEnd : Prop :=
  (∀ (cyc m tag : Nat) (o : HostOutstanding) (s : State), (s.module m).find tag false = some o →
    m < s.hlk.modules.length →
    (∀ data, o.badData true data.length = false →
      ∃ t u : State, exec (.readData cyc m tag 0 false true data) s = .next t ∧
      t = (u.hostDone o.access o.address (o.received ++ data)).pump ∧
      (u.module m).outstanding = (s.module m).outstanding.filter (·.tag != tag) ∧
      (u.module m).rxBytes = min (2 ^ 64 - 1) ((s.module m).rxBytes + data.length) ∧
      { u with hlk := s.hlk, tb := s.tb } = s) ∧
    (∀ data, o.badData false data.length = false →
      ∃ t, exec (.readData cyc m tag 0 false false data) s = .next t ∧
      (t.module m).outstanding = (s.module m).outstanding.map (fun x => if x.tag = tag then
        { x with received := x.received ++ data } else x) ∧ { t with hlk := s.hlk, tb := s.tb } = s) ∧
    (∀ final data, o.badData final data.length = true → (s.module m).state ≠ .off →
      ∃ t, exec (.readData cyc m tag 0 false final data) s = .next t ∧ (t.module m).state = .down) ∧
    (∀ status poison final data, status ≠ 0 ∨ poison = true →
      ∃ t u : State, exec (.readData cyc m tag status poison final data) s = .next t ∧
        t = (u.hostLost o.access).pump ∧
        (u.module m).outstanding = (s.module m).outstanding.filter (·.tag != tag) ∧
        u.hlk.readErrors = min (2 ^ 32 - 1) (s.hlk.readErrors + 1) ∧ { u with hlk := s.hlk, tb := s.tb } = s) ∧
    (o.sentAt + 1250 * s.reg Reg.HLK_READ_TIMEOUT ≤ (s.stamp cyc).clock →
      ∃ t u : State, exec (.hostReadTimeout cyc m tag) s = .next t ∧ t = (u.hostLost o.access).pump ∧
      (u.module m).outstanding = (s.module m).outstanding.filter (·.tag != tag) ∧
      u.hlk.readErrors = min (2 ^ 32 - 1) (s.hlk.readErrors + 1) ∧
      { u with hlk := s.hlk, srv := s.srv, tb := s.tb } = s)) ∧
  (∀ (cyc m tag : Nat) (o : HostOutstanding) (s : State), (s.module m).find tag true = some o →
    m < s.hlk.modules.length →
    (∃ t u : State, exec (.writeAck cyc m tag 0) s = .next t ∧ t = (u.hostDone o.access o.address []).pump ∧
      (u.module m).outstanding = (s.module m).outstanding.filter (·.tag != tag) ∧
      { u with hlk := s.hlk, tb := s.tb } = s) ∧
    (∀ status, status ≠ 0 → ∃ t u : State, exec (.writeAck cyc m tag status) s = .next t ∧
      t = (u.hostLost o.access).pump ∧
      u.hlk.writeErrors = min (2 ^ 32 - 1) (s.hlk.writeErrors + 1) ∧ { u with hlk := s.hlk, tb := s.tb } = s) ∧
    (o.sentAt + 1250 * s.reg Reg.HLK_WRITE_TIMEOUT ≤ (s.stamp cyc).clock →
      ∃ t u : State, exec (.hostWriteTimeout cyc m tag) s = .next t ∧ t = (u.hostLost o.access).pump ∧
      (u.module m).outstanding = (s.module m).outstanding.filter (·.tag != tag) ∧
      u.hlk.writeErrors = min (2 ^ 32 - 1) (s.hlk.writeErrors + 1) ∧
      { u with hlk := s.hlk, srv := s.srv, tb := s.tb } = s)) ∧
  (∀ (cyc m tag status : Nat) (poison final : Bool) (data : List Byte) (s : State),
    (s.module m).outstanding = [] → exec (.readData cyc m tag status poison final data) s = .next s ∧
      exec (.writeAck cyc m tag status) s = .next s ∧ exec (.hostReadTimeout cyc m tag) s = .next s ∧
      exec (.hostWriteTimeout cyc m tag) s = .next s)

/-- R447, R456, Table 14-7: a WIN_WRITE within the dictionary slots puts its bytes there and is answered, one
elsewhere is refused with an access fault; a WIN_READ is answered with the bytes of its range; credits come back
up to the grant; and a WIN_READ that breaks the protocol takes the module DOWN. R452, R455: HLK_ATT_INVALIDATE
drops the translations of its window, FFh those of every window, and HLK_INV_SEQ rises once every access that
was translated before has ended; another value is refused. -/
def Obligations.ApertureIsServed : Prop :=
  (∀ (cyc m tag : Nat) (s : State), m < 4 → m < s.hlk.modules.length →
     (∀ headers chunks, ∃ t u : State, exec (.ucieCredit cyc m headers chunks) s = .next t ∧
       t = { u with hlk := u.hlk.sendMore u.clock } ∧
       u.module m = UcieModule.answerMore (s.module m).waitReplies.length { s.module m with
         headerCredits := min 256 ((s.module m).headerCredits + headers)
         chunkCredits := min 2048 ((s.module m).chunkCredits + chunks) } ∧
       (∀ k, k ≠ m → u.module k = s.module k) ∧ { u with hlk := s.hlk, tb := s.tb } = s) ∧
     ((s.module m).state = .active → tag < 1024 →
       (∀ offset head tail data, offset % 64 = 0 → head < 64 → tail < 64 → data.length = 64 →
         (offset < 65536 → ∃ t, exec (.winWrite cyc m tag offset head tail data) s = .next t ∧
           t.hlk.slots = lmod s.hlk.slots (offset / 4096) (fun d => DictSlot.ofBytes
             (splice d.bytes (offset % 4096 + head) ((data.take (64 - tail)).drop head))) ∧
           t.module m = UcieModule.answer { s.module m with
               creditSent := (1, 1), rxBytes := min (2 ^ 64 - 1) ((s.module m).rxBytes + 64) }
             { tag := tag, isRead := false, status := 0, data := [], offset := offset } ∧
           (∀ k, k ≠ m → t.module k = s.module k) ∧ { t with hlk := s.hlk, tb := s.tb } = s) ∧
         (65536 ≤ offset → ∃ t, exec (.winWrite cyc m tag offset head tail data) s = .next t ∧
           t.hlk.slots = s.hlk.slots ∧ t.hlk.accessFaults = min (2 ^ 32 - 1) (s.hlk.accessFaults + 1) ∧
           { t with hlk := s.hlk, srv := s.srv, tb := s.tb } = s)) ∧
       (∀ offset chunks data, offset % 64 = 0 → 0 < chunks → chunks ≤ 64 →
         (s.stamp cyc).aperture offset (64 * chunks) = some data →
         ∃ t, exec (.winRead cyc m tag offset chunks) s = .next t ∧
           t.module m = UcieModule.answer { s.module m with creditSent := (1, 0) }
             { tag := tag, isRead := true, status := 0, data := data, offset := offset } ∧
           (∀ k, k ≠ m → t.module k = s.module k) ∧ t.hlk.slots = s.hlk.slots ∧
           { t with hlk := s.hlk, tb := s.tb } = s) ∧
       (∀ offset chunks, offset % 64 ≠ 0 ∨ chunks = 0 ∨ 64 < chunks →
         ∃ t, exec (.winRead cyc m tag offset chunks) s = .next t ∧ (t.module m).state = .down))) ∧
  ((∀ s : State, ksorted s.regs = true → ∃ t, exec (.attInvalidate 0xFF) s = .next t ∧ t.hlk.att0 = [] ∧
     t.hlk.att1 = [] ∧ t.hlk.invPending = s.hlk.invPending + 1 ∧ t.hlk.invSeq = s.hlk.invSeq ∧
     (∀ u ∈ t.hlk.modules, ∀ o ∈ u.outstanding, o.oldTranslation = true) ∧ t.reg Reg.HLK_ATT_INVALIDATE = 0xFF ∧
     t.dict.lastStatus = Status.OK ∧ { t with hlk := s.hlk, regs := s.regs, dict := s.dict } = s) ∧
   (∀ (w : Nat) (s : State), w ≤ 3 → ∃ t, exec (.attInvalidate w) s = .next t ∧
     (∀ e ∈ t.hlk.att0, e ∈ s.hlk.att0 ∧
       (e.entry * 2 ^ 21 < (s.window w).1 ∨ (s.window w).1 + (s.window w).2 ≤ e.entry * 2 ^ 21)) ∧
     t.hlk.invPending = s.hlk.invPending + 1 ∧ t.dict.lastStatus = Status.OK) ∧
   (∀ (v : Nat) (s : State), 3 < v → v ≠ 0xFF →
     exec (.attInvalidate v) s = .next { s with dict := { s.dict with lastStatus := Status.VALUE_RANGE } }) ∧
   (∀ s : State, s.hlk.invPending ≠ 0 → s.hlk.oldOut = false →
     exec .attInvalidateComplete s = .next { s with hlk := { s.hlk with
       invPending := s.hlk.invPending - 1, invSeq := (s.hlk.invSeq + 1) % 2 ^ 32 } }) ∧
   (∀ s : State, s.hlk.invPending ≠ 0 → s.hlk.oldOut = true → exec .attInvalidateComplete s = .next s))

/-- R457, R468, R477, R483, R491: requests of a host-link slot that change no object are answered in that slot,
whose DONE_SEQ follows its SEQ: a READ of one object of fixed length gives its TYPE and value; a READ_SEGMENT
gives the bytes asked for with TOTAL and DOMAIN_SEQ; a TX_STATUS tells of its transaction; and nothing outside
the dictionary and the slots changes. An all-nodes READ whose delay has passed is answered and waits no more.
The numbers that DOMAIN_SEQ takes are the model's choice (log entry 30); the statement names the function only. -/
def Obligations.ReadsAreAnswered : Prop :=
  (∀ (cyc n : Nat) (rq : Request) (s v : State), rq.session = .slot n → n < 16 → n < s.hlk.slots.length →
    s.slotsServed = true → s.slotWaits n = false → v = (s.counted cyc s.dict.delayed).touchTx rq →
    (∀ (index sub : Nat) (r : ObjRow), rq.txId = 0 → objRow index sub = some r → r.type ≠ .domain → r.type ≠ .str →
      absent s.part index sub = false → v.readable index sub = (Status.OK, 0) →
      ∃ t u : State, exec (.read cyc rq [(index, sub)]) s = .next t ∧ t = u.beginCommanded ∧
        lget u.hlk.slots n = { lget s.hlk.slots n with
          doneSeq := (lget s.hlk.slots n).seq
          response := (Answer.message { count := 1, body := (le 2 index ++ le 1 sub ++ le 1 r.type.code ++
            le 2 Status.OK ++ le 2 r.type.size ++ pad4 (le r.type.size (v.valueOf index sub r.access))) }
            1 rq.reqId 0) } ∧
        (∀ k, k ≠ n → lget u.hlk.slots k = lget s.hlk.slots k) ∧ u.dict.ended = s.dict.ended ∧
        { u with dict := s.dict, hlk := s.hlk, tb := s.tb } = s) ∧
    (∀ (index sub offset length : Nat) (r : ObjRow), rq.txId = 0 → objRow index sub = some r → r.type = .domain →
      v.readable index sub = (Status.OK, 0) → 1 ≤ length → length ≤ 1024 →
      ∃ (t u : State) (data : List Byte), exec (.readSegment cyc rq index sub offset length 0) s = .next t ∧
            t = u.beginCommanded ∧
        data = ((v.bytesOf index sub).drop offset).take length ∧
        lget u.hlk.slots n = { lget s.hlk.slots n with
          doneSeq := (lget s.hlk.slots n).seq
          response := (Answer.message { body := (le 2 index ++ le 1 sub ++ le 1 0 ++ le 4 offset ++
            le 4 (v.bytesOf index sub).length ++ le 4 (v.lookDomain (256 * index + sub) (v.bytesOf index sub)).1 ++
            le 2 data.length ++ le 2 0 ++ data) } 3 rq.reqId 0) } ∧
        { u with dict := s.dict, hlk := s.hlk, tb := s.tb } = s) ∧
    (∀ x : Tx, s.dict.txs.find? (·.id = rq.txId) = some x → x.session = rq.session →
      ∃ t u : State, exec (.txStatus cyc rq) s = .next t ∧ t = u.beginCommanded ∧
        lget u.hlk.slots n = { lget s.hlk.slots n with
          doneSeq := (lget s.hlk.slots n).seq
          response := Answer.message { body := Tx.bytes { x with idle := 0 } } 0x13 rq.reqId rq.txId } ∧
        { u with dict := s.dict, hlk := s.hlk, tb := s.tb } = s)) ∧
  (∀ (cyc : Nat) (e : Nat × Request × List (Nat × Nat)) (s : State),
    s.dict.delayed.find? (fun e => e.1 ≤ s.uptime) = some e →
    ∃ t, exec (.multicastReadReply cyc) s = .next t ∧ t.dict.delayed = s.dict.delayed.erase e ∧ t.regs = s.regs ∧
      t.blobs = s.blobs ∧ t.sec = s.sec ∧
      ∀ (address port : Nat) (a : Answer), e.2.1.session = .field address port → s.fieldUp = true →
        800 ≤ s.boot.slots → s.cached e.2.1 = none → s.commitWaits e.2.1 = false →
        ((s.counted cyc (s.dict.delayed.erase e)).serveRead e.2.1 e.2.2).2 = a →
        a.body.length ≤ bodyLimit →
        t.dict.lastReply = some { session := e.2.1.session, reqId := e.2.1.reqId
                                  port := s.reg Reg.HLK_FIELD_UDP_PORT
                                  bytes := a.message 1 e.2.1.reqId e.2.1.txId })

/-- R480, R484, R485, R486, R488, R491: BEGIN opens a transaction; WRITE and WRITE_SEGMENT in it stage their items
and change no object; COMMIT schedules it for the boundary that AT names and is not answered before; ROLLBACK
and an idle transaction's expiry end it. Outside a transaction FAB_SNAP_RELEASE is written at once, and an
object of access TX is refused with TX_REQUIRED. -/
def Obligations.TransactionsAreKept : Prop :=
  (∀ (cyc n : Nat) (rq : Request) (s : State), rq.session = .slot n → n < 16 → n < s.hlk.slots.length →
    s.slotsServed = true → s.slotWaits n = false →
    (s.dict.txs.length < 8 → ∃ t u : State, exec (.begin cyc rq) s = .next t ∧ t = u.beginCommanded ∧
      u.dict.txs = s.dict.txs ++ [{ id := s.dict.freeId, session := rq.session }] ∧
      u.dict.nextId = s.dict.freeId % 65535 + 1 ∧
      (lget u.hlk.slots n).response = Answer.message { tx := some s.dict.freeId } 0x10 rq.reqId rq.txId ∧
      { u with dict := s.dict, hlk := s.hlk, tb := s.tb } = s) ∧
    (∀ x : Tx, s.dict.txs.find? (·.id = rq.txId) = some x → x.session = rq.session → x.state = .opn → rq.txId ≠ 0 →
      (∀ (w : WriteItem) (r : ObjRow), (DapOp.write [w]).shaped = true → objRow w.index w.sub = some r →
        (s.stamp cyc).writable w.index w.sub true = Status.OK → r.check s.part w.type w.value = Status.OK →
        (∀ k, s.claimer w.index w.sub = some k → k = x.id) → x.items.length < 256 →
        ∃ (t u : State) (y : Tx), exec (.write cyc rq [w]) s = .next t ∧
            t = u.beginCommanded ∧
          u.dict.txs.find? (·.id = rq.txId) = some y ∧ y.state = .opn ∧
          stagedAt y.items w.index w.sub = some { index := w.index, sub := w.sub, domain := false, value := w.value } ∧
          { u with dict := s.dict, hlk := s.hlk, tb := s.tb } = s) ∧
      (∀ (index sub total : Nat) (data : List Byte) (r : ObjRow), 1 ≤ data.length → data.length ≤ 1024 →
        objRow index sub = some r → r.type = .domain → (s.stamp cyc).writable index sub true = Status.OK →
        s.claimer index sub = none → data.length ≤ total → r.range.holds s.part total = true →
        x.items.length < 256 → ownArea index sub = true →
        ∃ (t u : State) (y : Tx), exec (.writeSegment cyc rq index sub true 0 total data) s = .next t ∧
            t = u.beginCommanded ∧
          u.dict.txs.find? (·.id = rq.txId) = some y ∧
          stagedAt y.items index sub = some { index := index, sub := sub, domain := true, value := [], total := total
                                              segments := [(0, data)] } ∧
          { u with dict := s.dict, hlk := s.hlk, tb := s.tb } = s) ∧
      (∀ at_ k : Nat, s.tb.ahead at_ = some k →
        ∃ (t u : State) (y : Tx), exec (.commit cyc rq at_) s = .next t ∧
            t = u.beginCommanded ∧
          u.dict.txs.find? (·.id = rq.txId) = some y ∧ y.state = .scheduled ∧ y.at_ = s.tb.aheadFst k ∧
          y.due = k - 1 + ofBit s.tb.boundaryDue ∧ y.reqId = rq.reqId ∧ y.items = x.items ∧
          y.order = s.dict.commitOrder ∧ u.dict.commitOrder = s.dict.commitOrder + 1 ∧ u.hlk = s.hlk ∧
          { u with dict := s.dict, tb := s.tb } = s) ∧
      (∃ t u : State, exec (.rollback cyc rq) s = .next t ∧ t = u.beginCommanded ∧
        u.dict.txs = s.dict.txs.filter (fun y => y.id ≠ x.id) ∧
        u.dict.rolledBack = min (2 ^ 32 - 1) (s.dict.rolledBack + 1) ∧
        { u with dict := s.dict, hlk := s.hlk, tb := s.tb } = s)) ∧
    (∀ (index sub type : Nat) (value : List Byte) (r : ObjRow), rq.txId = 0 → objRow index sub = some r →
      r.access = .tx → absent s.part index sub = false → (s.stamp cyc).waitFor index sub = none →
      (DapOp.write [{ index := index, sub := sub, type := type, value := value }]).shaped = true →
      ∃ t u : State, exec (.write cyc rq [{ index := index, sub := sub, type := type, value := value }]) s = .next t ∧
        t = u.beginCommanded ∧
          (lget u.hlk.slots n).response = Answer.message { status := Status.TX_REQUIRED, count := 1, body := (le 2 index ++
          le 1 sub ++ le 1 0 ++ le 2 Status.TX_REQUIRED ++ le 2 0) } 2 rq.reqId 0 ∧
        { u with dict := s.dict, hlk := s.hlk, tb := s.tb } = s) ∧
    (rq.txId = 0 → (s.stamp cyc).writable 0x2011 5 false = Status.OK → s.claimer 0x2011 5 = none →
      ∃ t u : State, exec (.write cyc rq [{ index := 0x2011, sub := 5, type := 1, value := [1] }]) s = .next t ∧
        t = u.beginCommanded ∧ u.fab = { s.fab with snapshot := none } ∧ u.regs = s.regs)) ∧
  (∀ (cyc id : Nat) (x : Tx) (s : State),
    s.dict.txs.find? (fun x => x.id = id && x.state = .opn && s.reg Reg.HLK_TX_IDLE_LIMIT ≤ x.idle) = some x →
    ∃ t, exec (.txExpire cyc id) s = .next t ∧ t.dict.txs = s.dict.txs.filter (fun y => y.id ≠ x.id) ∧
      t.dict.rolledBack = min (2 ^ 32 - 1) (s.dict.rolledBack + 1) ∧
      { t with dict := s.dict, srv := s.srv, tb := s.tb } = s)

/-- R476, R480, R489: OBJECT_WRITE of FAB_JOIN_GUARD, MXE_CHECK_TOL or SYN_GUARD_DEFAULT sets that object and no
other; a write that R476 or R480 refuses changes no object. -/
def Obligations.ObjectWriteSetsOneObject : Prop :=
  (∀ (cyc index sub : Nat) (value : List Byte) (s : State),
    (index, sub) ∈ [(0x2010, 3), (0x2020, 2), (0x2060, 1)] → ksorted s.regs = true →
    (s.stamp cyc).writable index sub true = Status.OK →
    (∀ r, objRow index sub = some r → r.check s.part r.type.code value = Status.OK) → s.claimer index sub = none →
    ∃ t u : State, exec (.objectWrite cyc index sub value) s = .next t ∧ t = u.beginCommanded ∧
      u.reg (256 * index + sub) = ofLe value ∧ (∀ k, k ≠ 256 * index + sub → u.reg k = s.reg k) ∧
      u.dict = { s.dict with lastStatus := Status.OK } ∧
      { u with regs := s.regs, dict := s.dict, tb := s.tb } = s) ∧
  (∀ (cyc index sub : Nat) (value : List Byte) (s : State), (s.stamp cyc).writable index sub true ≠ Status.OK →
    ∃ t, exec (.objectWrite cyc index sub value) s = .next t ∧
      t.dict = { s.dict with lastStatus := (s.stamp cyc).writable index sub true } ∧
      { t with dict := s.dict, tb := s.tb } = s)

/-- R457, R469, R470, R471, R475, R478: the engine serves the slots whose SEQ differs from their DONE_SEQ in turn; a
malformed message is counted, and answered in a slot with MESSAGE_INVALID; the PLCA status, an address in use,
its conflict and a solicitation move the field port; and with HLK_FIELD_WRITE_ENABLE at 0 a BEGIN of the field
network is refused. -/
def Obligations.FieldPortAndSlots : Prop :=
  (∀ (cyc : Nat) (s : State), s.slotsServed = true →
    exec (.dictSlotPoll cyc) s = .next ((List.range 16).foldl State.pollSlot (s.stamp cyc)).beginCommanded) ∧
  (∀ (n : Nat) (s : State), s.slotWaits n = false →
    ((lget s.hlk.slots n).seq = (lget s.hlk.slots n).doneSeq → s.pollSlot n = s) ∧
    (∀ op, (lget s.hlk.slots n).seq ≠ (lget s.hlk.slots n).doneSeq →
      parseMessage (lget s.hlk.slots n).request = some op →
      s.pollSlot n = s.answerTo { session := .slot n, reqId := field (lget s.hlk.slots n).request 4 4
                                  txId := field (lget s.hlk.slots n).request 8 2 } op)) ∧
  (∀ (cyc n reqId : Nat) (s : State), n < 16 → n < s.hlk.slots.length → s.slotsServed = true → s.slotWaits n = false →
    ∃ t, exec (.dapMessageMalformed cyc (.slot n) reqId) s = .next t ∧
      t.dict = { s.dict with errors := min (2 ^ 32 - 1) (s.dict.errors + 1) } ∧
      lget t.hlk.slots n = { lget s.hlk.slots n with
        doneSeq := (lget s.hlk.slots n).seq
        response := (Answer.refuse Status.MESSAGE_INVALID).message (field (lget s.hlk.slots n).request 3 1) reqId
          (field (lget s.hlk.slots n).request 8 2) } ∧ { t with dict := s.dict, hlk := s.hlk, tb := s.tb } = s) ∧
  (∀ (cyc : Nat) (s : State), s.dict.field = .waitBeacon →
    ∃ t, exec (.plcaStatusChange cyc true) s = .next t ∧ t.dict.field = .inCycle ∧ t.dict.plca = true ∧
      t.dict.solicited = true ∧ { t with dict := s.dict, srv := s.srv, tb := s.tb } = s) ∧
  (∀ (cyc : Nat) (s : State), s.dict.field = .inCycle →
    (∃ t, exec (.plcaStatusChange cyc false) s = .next t ∧ t.dict.field = .waitBeacon ∧ t.dict.plca = false ∧
      t.dict.beaconLosses = min (2 ^ 32 - 1) (s.dict.beaconLosses + 1) ∧
      { t with dict := s.dict, srv := s.srv, tb := s.tb } = s) ∧
    (s.dict.solicited = true → s.dict.addressUsed = false →
      (∃ t, exec (.fieldAddressConflict cyc) s = .next t ∧ t.dict = { s.dict with field := .fault } ∧
        { t with dict := s.dict, srv := s.srv, tb := s.tb } = s) ∧
      exec .fieldAddressInUse s = .next { s with dict := { s.dict with addressUsed := true } }) ∧
    (s.dict.solicited = true → s.dict.addressUsed = true → exec (.fieldAddressConflict cyc) s = .next s)) ∧
  (∀ s : State, s.fieldUp = true → ∃ t, exec (.fieldNeighborSolicitation (ofBe fieldAddress)) s = .next t ∧
    t.dict.advertised = s.dict.advertised + 1 ∧ t.dict.rxFrames = min (2 ^ 64 - 1) (s.dict.rxFrames + 1) ∧
    t.dict.txFrames = min (2 ^ 64 - 1) (s.dict.txFrames + 1) ∧ { t with dict := s.dict } = s) ∧
  (∀ (cyc a p : Nat) (rq : Request) (s : State), rq.session = .field a p → rq.good = true → rq.multicast = false →
    s.fieldUp = true → 800 ≤ s.boot.slots → s.cached rq = none → s.commitWaits rq = false →
    s.reg Reg.HLK_FIELD_WRITE_ENABLE = 0 →
    ∃ t u : State, exec (.begin cyc rq) s = .next t ∧ t = u.beginCommanded ∧ u.dict.txs = s.dict.txs ∧
      u.dict.lastReply.map (·.bytes) = some ((Answer.refuse Status.ACCESS).message 0x10 rq.reqId rq.txId) ∧
      { u with dict := s.dict, tb := s.tb } = s)

/-- R515, R517, R520, R523, R527, R528: a strike leaves the window when it is RAS_STRIKE_WINDOW frames old; a FENCE
of a working or suspect quadrant starts its fencing and an UNFENCE of a fenced one with a clean awl its
unfencing, and both are refused otherwise; a test that ends with the expected MISR passes; and the two run
commands select tests. -/
def Obligations.QuadrantsAreJudged : Prop :=
  ∀ (cyc q : Nat) (s : State), q < 8 → q < s.ras.quads.length →
    (∀ f fs, (s.quad q).strikes = f :: fs →
      (frameOf f + s.reg Reg.RAS_STRIKE_WINDOW ≤ s.tb.frame → ∃ t, exec (.strikeExpire q) s = .next t ∧
        t.quad q = { s.quad q with strikes := fs } ∧ (∀ k, k ≠ q → t.quad k = s.quad k) ∧
        { t with ras := s.ras } = s) ∧
      (s.tb.frame < frameOf f + s.reg Reg.RAS_STRIKE_WINDOW → exec (.strikeExpire q) s = .next s)) ∧
    ((s.quad q).state = .working ∨ (s.quad q).state = .suspect →
      ∃ t, exec (.fenceCmd cyc q) s = .next t ∧
        t.quad q = { s.quad q with state := .fencing, cause := 3, source := 0 } ∧
        (∀ k, k ≠ q → t.quad k = s.quad k) ∧ t.dict = { s.dict with lastStatus := Status.OK } ∧
        { t with ras := s.ras, regs := s.regs, dict := s.dict, tb := s.tb } = s) ∧
    ((s.quad q).state = .fenced → (s.quad q).awlClean = true →
      ∃ t, exec (.unfenceCmd cyc q) s = .next t ∧ t.quad q = { s.quad q with state := .unfencing } ∧
        (∀ k, k ≠ q → t.quad k = s.quad k) ∧ t.dict = { s.dict with lastStatus := Status.OK } ∧
        { t with ras := s.ras, regs := s.regs, dict := s.dict, tb := s.tb } = s) ∧
    ((s.quad q).state ≠ .working → (s.quad q).state ≠ .suspect →
      exec (.fenceCmd cyc q) s = .next ((s.stamp cyc).status Status.VALUE_STATE)) ∧
    ((s.quad q).state ≠ .fenced ∨ (s.quad q).awlClean = false →
      exec (.unfenceCmd cyc q) s = .next ((s.stamp cyc).status Status.VALUE_STATE)) ∧
    (∀ set test misr, (s.quad q).current = some ((set, test), true) → s.planner.running = none →
      (misr = test.expect → ∃ t, exec (.awlTestComplete cyc q misr) s = .next t ∧ (t.quad q).lastResult = 1 ∧
        (t.quad q).lastTest = 65536 * set + test.id ∧ (t.quad q).run = (s.quad q).run.drop 1 ∧
        (t.quad q).runFailed = (s.quad q).runFailed ∧
        (t.quad q).awlClean = (((s.quad q).run.drop 1).isEmpty && !(s.quad q).runFailed) ∧
        t.ras.awlRuns = min (2 ^ 32 - 1) (s.ras.awlRuns + 1) ∧ t.ras.awlFails = s.ras.awlFails ∧
        (∀ k, k ≠ q → t.quad k = s.quad k) ∧ { t with ras := s.ras, tb := s.tb } = s) ∧
      (misr ≠ test.expect → ∃ t, exec (.awlTestComplete cyc q misr) s = .next t ∧ (t.quad q).lastResult = 2 ∧
        (t.quad q).runFailed = true ∧ (t.quad q).awlClean = false ∧
        t.ras.awlFails = min (2 ^ 32 - 1) (s.ras.awlFails + 1))) ∧
    (∃ t, exec (.awlRunTargeted q) s = .next t ∧ t.quad q = { s.quad q with targeted := s.ras.tests false } ∧
      (∀ k, k ≠ q → t.quad k = s.quad k) ∧ { t with ras := s.ras, regs := s.regs, dict := s.dict } = s) ∧
    ((s.quad q).state = .fenced → ∃ t, exec (.awlRunDestructive q) s = .next t ∧
      t.quad q = { s.quad q with run := s.ras.tests true, running := !(s.ras.tests true).isEmpty, runFailed := false
                                 awlClean := (s.ras.tests true).isEmpty } ∧
      (∀ k, k ≠ q → t.quad k = s.quad k) ∧ { t with ras := s.ras, regs := s.regs, dict := s.dict } = s) ∧
    ((s.quad q).state ≠ .fenced → exec (.awlRunDestructive q) s = .next (s.status Status.VALUE_STATE))

/-- R529, R533, R536: a pattern set that verifies, keeps the format and fits is resident and stored in ascending
SET_ID, and one that does not verify leaves the sets as they are; the record being written joins the persistent
log, which keeps the last 1,024, and RAS_PERSIST_CLEAR = 1 empties that log. -/
def Obligations.SetsAndRecordsAreKept : Prop :=
  (∀ (cyc : Nat) (b : List Byte) (s : State), awlFormat b = true → field b 6 2 = 0x00B1 →
    (∀ y ∈ s.ras.sets, y.id = (parseAwlSet b).id → y.version ≤ (parseAwlSet b).version) →
    (s.ras.sets.filter fun y => y.id != (parseAwlSet b).id).length < 4 →
    (parseAwlSet b).size + ((s.ras.sets.filter fun y => y.id != (parseAwlSet b).id).map (·.size)).sum ≤ 4 * 2 ^ 20 →
    ∃ t, exec (.awlSetLoad cyc b) s = .next t ∧
      (s.sec.verifies .awlSet b = true → t.ras.sets = insertSet (parseAwlSet b) s.ras.sets ∧
        t.ras.storedSets = t.ras.sets ∧ t.ras.quads = s.ras.quads ∧ t.dict.lastStatus = Status.OK ∧
        { t with ras := s.ras, blobs := s.blobs, srv := s.srv, dict := s.dict, tb := s.tb } = s) ∧
      (s.sec.verifies .awlSet b = false → t.ras = s.ras ∧
        t.sec.sigFailures = min (2 ^ 32 - 1) (s.sec.sigFailures + 1) ∧ t.dict.lastStatus = Status.VALUE_STATE ∧
        t.blobs = s.blobs)) ∧
  (∀ (cyc : Nat) (b : List Byte) (s : State), awlFormat b = false → ∃ t, exec (.awlSetLoad cyc b) s = .next t ∧
    t.ras = s.ras ∧ t.dict.lastStatus = Status.VALUE_STATE ∧ t.blobs = s.blobs) ∧
  (∀ (b : List Byte) (s : State), s.ras.persistWrite = some b →
    ∃ t, exec .persistWriteComplete s = .next t ∧ (s.ras.persist.length < 1024 →
      t.ras.persist = s.ras.persist ++ [b]) ∧
      (s.ras.persist.length = 1024 → t.ras.persist = s.ras.persist.drop 1 ++ [b]) ∧
      
      t.ras.persistWrite = (if s.pwr.presenceBroken then none else s.ras.persistQueue.head?) ∧
        t.ras.persistQueue = s.ras.persistQueue.drop 1 ∧
      t.ras.log = s.ras.log ∧ { t with ras := s.ras } = s) ∧
  (∀ s : State, ksorted s.regs = true → ∃ t, exec (.persistClear 1) s = .next t ∧
    t.ras = { s.ras with persist := [] } ∧ t.reg Reg.RAS_PERSIST_CLEAR = 1 ∧ t.dict.lastStatus = Status.OK ∧
    { t with ras := s.ras, regs := s.regs, dict := s.dict } = s) ∧
  (∀ (v : Nat) (s : State), 1 < v → exec (.persistClear v) s = .next (s.status Status.VALUE_RANGE))

/-- R537, R540, R541, R542, Table 17-3: an enabled domain that is OFF starts, or is pending while its minimum off
time runs; a disabled one that is ON stops, and one that is STARTING waits to be ON; a start that completes
leaves the domain ON, a quadrant's FENCED, and with the host link's no UCIe module OFF; a stop that completes
opens the minimum off time, whose end starts a pending domain. -/
def Obligations.DomainsStartAndStop : Prop :=
  ∀ (cyc d : Nat) (s : State), d < 20 → d < s.pwr.domains.length →
    ((s.domain d).state = .off → s.xuFor d = true → s.pwr.stopping = none → s.pwr.shutDown = false →
      s.pwr.ejectReady = false → ∃ t, exec (.domainEnable cyc d) s = .next t ∧
        ((s.domain d).minOff = false → t.domain d = { s.domain d with
          state := .starting, pending := 0, minOff := false, disableAsked := false, since := (s.stamp cyc).clock
          starts := min (2 ^ 32 - 1) ((s.domain d).starts + 1) }) ∧
        ((s.domain d).minOff = true → t.domain d = { s.domain d with pending := min 15 ((s.domain d).pending + 1) }) ∧
        (∀ k, k ≠ d → t.domain k = s.domain k) ∧ t.dict = { s.dict with lastStatus := Status.OK } ∧
        { t with pwr := s.pwr, regs := s.regs, dict := s.dict, tb := s.tb } = s) ∧
    ((s.domain d).state = .unpopulated →
      exec (.domainEnable cyc d) s = .next ((s.stamp cyc).status Status.NOT_PRESENT) ∧
      exec (.domainDisable cyc d) s = .next ((s.stamp cyc).status Status.NOT_PRESENT)) ∧
    ((s.domain d).pending = 0 → s.mayDisable d = true →
      ((s.domain d).state = .on → ∃ t, exec (.domainDisable cyc d) s = .next t ∧ (t.domain d).state = .stopping ∧
        t.dict.lastStatus = Status.OK) ∧
      ((s.domain d).state = .starting → ∃ t, exec (.domainDisable cyc d) s = .next t ∧
        t.domain d = { s.domain d with disableAsked := true } ∧ (∀ k, k ≠ d → t.domain k = s.domain k) ∧
        { t with pwr := s.pwr, regs := s.regs, dict := s.dict, tb := s.tb } = s)) ∧
    ((s.domain d).state = .starting → (s.domain d).disableAsked = false →
      ∃ t, exec (.domainStartComplete cyc d) s = .next t ∧ (t.domain d).state = .on ∧
        (d < 8 → d < s.ras.quads.length → (t.quad d).state = .fenced) ∧
        (d = 18 → ∀ u ∈ t.hlk.modules, u.state ≠ .off)) ∧
    ((s.domain d).state = .stopping → ∃ t u : State, exec (.domainStopComplete cyc d) s = .next t ∧ t = u.stopOn ∧
      u.domain d = { s.domain d with state := .off, minOff := true, since := (s.stamp cyc).clock } ∧ (∀ k, k ≠ d →
        u.domain k = s.domain k) ∧
      { u with pwr := s.pwr, tb := s.tb } = s) ∧
    ((s.domain d).state = .off → (s.domain d).minOff = true → (s.domain d).since + 250000 ≤ (s.stamp cyc).clock →
      ∃ t, exec (.minOffTimeExpiry cyc d) s = .next t ∧ (t.domain d).minOff = false ∧
        ((s.domain d).pending = 0 → t.domain d = { s.domain d with minOff := false }) ∧
        ((s.domain d).pending ≠ 0 → s.xuFor d = true → (t.domain d).state = .starting ∧ (t.domain d).pending = 0) ∧
        (∀ k, k ≠ d → t.domain k = s.domain k) ∧ { t with pwr := s.pwr, tb := s.tb } = s)

/-- R541, R543, R560: a domain whose start or stop times out, or whose rail fails, goes to FAULT with the FAULT bit
of its cause, which stays until it is cleared by writing 1. R552, R558, R616: a thermal trip and an undervoltage
leave no domain up and the module OUT_OF_SERVICE; the loss of the core supply is remembered; a surprise removal
turns every lace off and lets no write to the host wait. -/
def Obligations.DomainsFaultAndTrip : Prop :=
  ((∀ (cyc d : Nat) (s : State), d < 20 → d < s.pwr.domains.length →
     ((s.domain d).state = .starting → startBound d < (s.stamp cyc).clock - (s.domain d).since →
       ∃ t u : State, exec (.domainTimeout cyc d) s = .next t ∧ t = u.stopOn ∧
       (u.domain d).state = .fault ∧ (u.domain d).fault = (s.domain d).fault ||| 4 ∧
       (∀ k, k ≠ d → u.domain k = s.domain k)) ∧
     ((s.domain d).state = .stopping → stopBound d < (s.stamp cyc).clock - (s.domain d).since →
       ∃ t u : State, exec (.domainTimeout cyc d) s = .next t ∧ t = u.stopOn ∧
       (u.domain d).state = .fault ∧ (u.domain d).fault = (s.domain d).fault ||| 8 ∧
       (∀ k, k ≠ d → u.domain k = s.domain k)) ∧
     (∀ b : BitVec 16, b &&& 0x1F ≠ 0 → (s.domain d).state = .starting ∨ (s.domain d).state = .on ∨
         (s.domain d).state = .stopping →
       ∃ t u : State, exec (.domainRailFault cyc d b) s = .next t ∧ t = u.stopOn ∧ (u.domain d).state = .fault ∧
         (u.domain d).fault = (s.domain d).fault ||| (b &&& 0x1F) ∧ (u.domain d).pending = 0 ∧
         (∀ k, k ≠ d → u.domain k = s.domain k))) ∧
   (∀ (d : Nat) (v : BitVec 32) (s : State), d < 20 → d < s.pwr.domains.length →
     ∃ t, exec (.faultClear d v) s = .next t ∧
       t.domain d = { s.domain d with fault := (s.domain d).fault &&& ~~~(v.truncate 16) } ∧
       (∀ k, k ≠ d → t.domain k = s.domain k) ∧ { t with pwr := s.pwr } = s)) ∧
  ((∀ (cyc sensor : Nat) (s : State), s.pwr.trip = false →
     ∃ t, exec (.thermalTrip cyc sensor) s = .next t ∧ t.pwr.trip = true ∧ t.ras.service = .outOfService ∧
       ∀ d, d < 20 → (t.domain d).state.down = true) ∧
   (∀ (cyc : Nat) (s : State), s.pwr.underVoltage = false →
     ∃ t, exec (.vinUndervoltage cyc) s = .next t ∧ t.pwr.underVoltage = true ∧ t.ras.service = .outOfService ∧
       ∀ d, d < 20 → (t.domain d).state.down = true) ∧
   (∀ s : State, exec .vinCoreLoss s = .next { s with pwr := { s.pwr with underVoltage := true, coreOff := true } }) ∧
   (∀ s : State, s.pwr.ejectReady = false → s.pwr.presenceBroken = false →
     ∃ t, exec .surpriseRemoval s = .next t ∧ t.pwr = { s.pwr with presenceBroken := true } ∧
       (∀ l, l < 4 → l < s.lce.laces.length → (t.lace l).state = .off) ∧
       t.hlk.waitCredit = s.hlk.waitCredit.filter (fun o => !o.access.write) ∧ t.ras = s.ras))

/-- R547, R549, R554: a CAP_FAST level that does not raise the cap is in force at once, with σ, and is costed at the
next boundary; one that raises it waits. A power-fail warning sets the effective cap to 0 until it is released,
and its shut-down ends the plan. R556, R557: an ejection is asked for while the module is in service; notices
that still wait at the end of the drain are dropped; and once XU is down the module is ready to remove. -/
def Obligations.CapsAndEjection : Prop :=
  ((∀ (cyc level : Nat) (s : State), level < 4 →
     (level = s.pwr.fastLevel → exec (.capFastLevelChange cyc level) s =
       .next { s.stamp cyc with pwr := { s.pwr with fastNext := none } }) ∧
     (level ≠ s.pwr.fastLevel →
       (s.atLevel level).sigmaCap ≤ s.sigmaCap →
       ∃ t, exec (.capFastLevelChange cyc level) s = .next t ∧ t.pwr.fastLevel = level ∧ t.pwr.fastNext = none ∧
         t.pwr.recost = true ∧ t.pwr.k = sigmaOf s.part t.sigmaCap ∧ t.pwr.domains = s.pwr.domains ∧
         { t with pwr := s.pwr, srv := s.srv, tb := s.tb } = s) ∧
     (level ≠ s.pwr.fastLevel →
       s.sigmaCap < (s.atLevel level).sigmaCap →
       ∃ b, exec (.capFastLevelChange cyc level) s =
         .next { s.stamp cyc with pwr := { s.pwr with fastNext := some (level, b) } })) ∧
   (∀ (cyc : Nat) (s : State), s.pwr.warn = false →
     ∃ t, exec (.pwrFailWarn cyc) s = .next t ∧ t.pwr.warn = true ∧ t.effectiveCap = 0 ∧
       t.pwr.warnings = min (2 ^ 32 - 1) (s.pwr.warnings + 1) ∧ t.pwr.domains = s.pwr.domains ∧
       { t with pwr := s.pwr, srv := s.srv, tb := s.tb } = s) ∧
   (∀ s : State, exec .pwrFailWarnClear s = .next { s with pwr := { s.pwr with
       warn := false, releasedAt := s.clock } }) ∧
   (∀ (cyc : Nat) (s : State), s.pwr.warn = true → s.pwr.shutDown = false →
     s.warnLimit ≤ (s.stamp cyc).clock →
     ∃ t u : State, exec (.powerFailShutdown cyc) s = .next t ∧ t = u.stopOn ∧ u.planner.running = none ∧
       u.planner.plan = [] ∧
       u.planner.moved = [] ∧ u.pwr = { s.pwr with shutDown := true, stopping := some .powerFail
                                                   stopLeft := stopOrder }) ∧
   (∀ (cyc : Nat) (s : State), s.pwr.warn = false ∨ s.pwr.shutDown = true ∨ (s.stamp cyc).clock < s.warnLimit →
     exec (.powerFailShutdown cyc) s = .next s)) ∧
  ((∀ s : State, s.pwr.hotSwap = .inService → exec .ejectReq s = .next { s with pwr := { s.pwr with
       ejectAsked := true, ejectLate := s.tb.boundaryDue && (!s.pwr.ejectAsked || s.pwr.ejectLate) } }) ∧
   (∀ s : State, s.pwr.hotSwap ≠ .inService → exec .ejectReq s = .next s) ∧
   (∀ (cyc : Nat) (s : State), s.pwr.drainEffective = true →
     ((s.srv.notices ++ s.srv.noticesLater).map fun e => e.2.length).sum ≠ 0 →
     s.pwr.effectiveAt + 40 * 156250 ≤ (s.stamp cyc).clock →
     ∃ t, exec (.ejectNoticeTimeout cyc) s = .next t ∧ t.srv.notices = [] ∧ t.srv.noticesLater = [] ∧
       t.srv.streams = s.srv.streams ∧ { t with srv := s.srv, tb := s.tb } = s) ∧
   (∀ (cyc : Nat) (s : State), s.pwr.stopping = some .eject → s.pwr.ejectWritten = true →
     (s.domain 19).state.down = true →
     exec (.ejectReady cyc) s = .next { s.stamp cyc with pwr := { s.pwr with
       hotSwap := .readyToRemove, ejectReady := true, stopping := none, stopLeft := [] } }))

/-- R562, R566, R567, Table 18-2: the rise of VIN and the restarts after a power-fail shut-down and after an
ejection are POWER_ON resets: nothing is left of the time base, the settings, the streams, the fabric and the
SRAM; the store keeps its catalogue, the persistent log and the keys stay, and the boot state is that of the ROM
with its cause. R563, R564, R565, R566, Table 18-1: a MODULE reset by pin, by command or by watchdog ends the
running pass and the plan and stops the domains in the order of R566; the release of the pin ends a reset whose
domains have stopped; a FIRMWARE reset starts the ROM and lets the streams and the fabric go on. That a store
operation must read IDLE is the model's reading of R564 (log entry 27). -/
def Obligations.ResetsBegin : Prop :=
  (∀ (cause : Nat) (c : Instr) (s : State),
     (c = .powerOn ∧ cause = 1) ∨
       (c = .powerFailRestart true ∧ cause = 2 ∧ s.pwr.shutDown = true ∧ s.pwr.stopping = none ∧ s.pwr.warn = false ∧
         s.pwr.releasedAt + 1250000 ≤ s.clock) ∨
       (c = .ejectRestart ∧ cause = 3 ∧ s.pwr.hotSwap = .readyToRemove) →
     ∃ t, exec c s = .next t ∧ t.tb = {} ∧ t.regs = [] ∧ t.blobs = [] ∧ t.srv = {} ∧ t.fab = {} ∧ t.mem = {} ∧
       t.planner = {} ∧ t.syn = {} ∧ t.dsp = {} ∧ t.hlk = {} ∧ t.dict.txs = [] ∧
       t.store.catalogue = s.store.catalogue ∧ t.store.active = none ∧ t.ras.persist = s.ras.persist ∧
       t.ras.storedSets = s.ras.storedSets ∧ t.ras.sets = [] ∧ t.sec.keys = s.sec.keys ∧ t.sec.owners = s.sec.owners ∧
       t.sec.minSvn = s.sec.minSvn ∧ t.sec.nonce = s.sec.nonce + 1 ∧ t.sec.debug ≠ .unlocked ∧ t.boot.state = .rom ∧
       t.boot.cause = cause ∧ t.boot.count = min (2 ^ 32 - 1) (s.boot.count + 1) ∧ t.boot.uptime = 0 ∧
       t.boot.bankA = s.boot.bankA ∧ t.boot.bankB = s.boot.bankB ∧ t.boot.active = s.boot.active ∧ t.part = s.part ∧
       t.pending = s.pending) ∧
  ((∀ (cyc : Nat) (s : State), s.pwr.shutDown = false → s.pwr.coreOff = false → s.inReset = false →
     (∃ t u : State, exec (.moduleResetPin cyc) s = .next t ∧ t = u.stopOn ∧ u.pwr.stopping = some (.reset 4) ∧
       u.pwr.stopLeft = stopOrder ∧ u.planner.running = none ∧ u.planner.plan = [] ∧ u.boot.resetHeld = true ∧
       u.srv = s.srv ∧ u.mem = s.mem) ∧
     (∃ t u : State, exec (.watchdogExpire cyc) s = .next t ∧ t = u.stopOn ∧ u.pwr.stopping = some (.reset 6) ∧
       u.pwr.stopLeft = stopOrder ∧ u.planner.running = none ∧ u.planner.plan = [] ∧ u.boot = s.boot ∧
       u.srv = s.srv ∧ u.mem = s.mem) ∧
     (∃ t u : State, exec (.resetModuleCmd cyc) s = .next t ∧ t = u.stopOn ∧ u.pwr.stopping = some (.reset 5) ∧
       u.pwr.stopLeft = stopOrder ∧ u.planner.running = none ∧ u.planner.plan = [] ∧ u.boot.restart = none ∧
       u.dict.lastStatus = Status.OK ∧ u.srv = s.srv ∧ u.mem = s.mem)) ∧
   (∀ (cyc : Nat) (s : State), s.anyStream = true ∨ s.store.opState ≠ .idle ∨ s.store.switchState ≠ .idle ∨
     s.pwr.hotSwap ≠ .inService → s.boot.restart = none →
     exec (.resetFirmwareCmd cyc) s = .next ((s.stamp cyc).status Status.VALUE_STATE)) ∧
   (∀ (cyc : Nat) (s : State), ∃ t, exec (.resetModuleCmd cyc) s = .next t ∧ t.dict.lastStatus = Status.OK) ∧
   (∀ (cyc : Nat) (s : State), s.anyStream = false → s.store.opState = .idle → s.store.switchState = .idle →
     s.pwr.hotSwap = .inService →
     ∃ t, exec (.resetFirmwareCmd cyc) s = .next t ∧ t.boot.state = .rom ∧ t.boot.cause = 7 ∧
       t.boot.count = min (2 ^ 32 - 1) (s.boot.count + 1) ∧ t.boot.uptime = s.boot.uptime ∧ t.planner.plan = [] ∧
       t.planner.running = s.planner.running ∧ t.dict.txs = [] ∧ t.fab = s.fab ∧ t.srv = s.srv ∧ t.mem = s.mem ∧
       t.tb = { s.tb with cyc := cyc } ∧ t.pwr = s.pwr) ∧
   (∀ (cause : Nat) (s : State), s.pwr.stopping = some (.reset cause) → s.pwr.stopLeft = [] →
     ∃ t, exec .moduleRstLRelease s = .next t ∧ t.boot.state = .rom ∧ t.boot.cause = cause ∧
       t.boot.resetHeld = false ∧
       t.tb.frame = s.tb.frame ∧ t.tb.slot = s.tb.slot ∧ t.regs = [] ∧ t.mem = {} ∧ t.srv.streams = [] ∧
       t.store.catalogue = s.store.catalogue) ∧
   (∀ s : State, s.pwr.stopping = none →
     exec .moduleRstLRelease s = .next { s with boot := { s.boot with resetHeld := false } }))

/-- R568, R569, Tables 18-3 and 18-6: an item that enables a domain begins once its slot has come, and the domain
starts; the ROM's choice of a bank follows its reads; a row that has not completed at slot 40,000 has its
starting domains cut with START_TIMEOUT. -/
def Obligations.BringUpProceeds : Prop :=
  (∀ (cyc row part d : Nat) (env : BringupEnv) (s : State), itemDomain row part = some d →
    (itemStart row part).isSome = true → (itemStart row part).getD 0 ≤ s.boot.slots →
    16 * row + part ∉ s.boot.begun → row ∉ s.boot.completed → s.boot.state = .bringUp →
    env.temperature ≤ (s.reg Reg.PWR_THERMAL_LIMIT : Int) * 100 → s.pwr.warn = false → d < s.pwr.domains.length →
    (s.domain d).state = .off → (s.domain d).minOff = false → s.xuFor d = true → s.pwr.stopping = none →
    s.pwr.shutDown = false → s.pwr.ejectReady = false →
    ∃ t, exec (.bringupItemStart cyc row part env) s = .next t ∧ t.boot.begun = s.boot.begun ++ [16 * row + part] ∧
      (t.domain d).state = .starting ∧ (∀ k, k ≠ d → t.domain k = s.domain k) ∧
      { t with pwr := s.pwr, boot := s.boot, tb := s.tb } = s) ∧
  (∀ (cyc row part : Nat) (env : BringupEnv) (s : State), (itemStart row part).isSome = true →
    s.boot.slots < (itemStart row part).getD 0 ∨ 16 * row + part ∈ s.boot.begun ∨ row ∈ s.boot.completed →
    exec (.bringupItemStart cyc row part env) s = .next s) ∧
  (∀ (cyc : Nat) (env : BringupEnv) (s : State), 8 ≤ s.boot.slots → 16 ∉ s.boot.begun → 1 ∉ s.boot.completed →
    s.boot.state = .rom → 0 ∈ s.boot.begun →
    ∃ t u : State, exec (.bringupItemStart cyc 1 0 env) s = .next t ∧ u = (s.stamp cyc).chooseBank ∧
      t.boot.begun = u.boot.begun ++ [16] ∧ t.boot.running = u.boot.running ∧ t.boot.state = u.boot.state) ∧
  (∀ (cyc row part d : Nat) (s : State), row < 11 → 7 ≤ row → part < itemParts row → itemDomain row part = some d →
    40000 ≤ s.boot.slots → s.boot.state = .bringUp → s.boot.cause ≠ 7 → (s.domain d).state = .starting →
    (s.domain 19).state ≠ .fault → s.pwr.stopping = none → d < s.pwr.domains.length →
    ∃ t, exec (.bringupTimeout cyc row) s = .next t ∧ (t.domain d).state = .fault ∧
      (t.domain d).fault = (s.domain d).fault ||| 4)

/-- R570, R573, R577, R578, R579: SERVE starts in a READY module whose rings are set and whose link is up, and stops
without a stream; a firmware image that passes the checks of R573 is programmed into the bank that is not
ACTIVE, and is valid there where it read back; ACTIVATE asks for a trial of it and is refused before. -/
def Obligations.ServingAndFirmware : Prop :=
  (∀ (cyc : Nat) (s : State), s.boot.state = .ready → s.reg Reg.SRV_INTAKE_ENTRIES ≠ 0 →
    s.reg Reg.SRV_COMP_UNITS ≠ 0 → s.hlk.up = true →
    ∃ t, exec (.serveStart cyc) s = .next t ∧ t.boot = { s.boot with state := .serving } ∧
      t.dict = { s.dict with lastStatus := Status.OK } ∧ t.srv.streams = s.srv.streams ∧
      { t with boot := s.boot, srv := s.srv, regs := s.regs, dict := s.dict, tb := s.tb } = s) ∧
  (∀ (cyc : Nat) (s : State), s.boot.state ≠ .ready →
    exec (.serveStart cyc) s = .next ((s.stamp cyc).status Status.VALUE_STATE)) ∧
  (∀ s : State, s.boot.state = .serving →
    (s.anyStream = false → ∃ t, exec .serveStop s = .next t ∧ t.boot = { s.boot with state := .ready } ∧
      t.dict = { s.dict with lastStatus := Status.OK } ∧
      { t with boot := s.boot, regs := s.regs, dict := s.dict } = s) ∧
    (s.anyStream = true → exec .serveStop s = .next (s.status Status.VALUE_STATE))) ∧
  (∀ (cyc : Nat) (b : List Byte) (s : State), b.length ≤ 16777216 → s.boot.loadState ≠ .running → fwHeader b = true →
    s.sec.minSvn ≤ fwSecurity b →
    ∃ t, exec (.fwLoad cyc b) s = .next t ∧
      (s.sec.verifies .firmware b = true → t.boot.loadState = .running ∧ t.boot.loadImage = b ∧
        t.boot.bank (1 - s.boot.active) = none ∧ t.boot.active = s.boot.active ∧ t.dict.lastStatus = Status.OK ∧
        { t with boot := s.boot, blobs := s.blobs, dict := s.dict, tb := s.tb } = s) ∧
      (s.sec.verifies .firmware b = false → t.boot = s.boot ∧ t.dict.lastStatus = Status.VALUE_STATE ∧
        t.sec.sigFailures = min (2 ^ 32 - 1) (s.sec.sigFailures + 1) ∧ t.blobs = s.blobs)) ∧
  (∀ (cyc : Nat) (b : List Byte) (s : State), b.length ≤ 16777216 → s.boot.loadState = .running ∨ fwHeader b = false →
    exec (.fwLoad cyc b) s = .next ((s.stamp cyc).status Status.VALUE_STATE)) ∧
  (∀ (cyc : Nat) (matched : Bool) (s : State), s.boot.loadState = .running → s.boot.state ≠ .bootFailed →
    ∃ t, exec (.fwLoadComplete cyc matched) s = .next t ∧
      t.boot.loadState = (if matched then .done else .failed) ∧ t.boot.loadImage = [] ∧
      t.boot.bank (1 - s.boot.active) = some { image := s.boot.loadImage, valid := matched } ∧
      t.boot.running = s.boot.running ∧ { t with boot := s.boot, srv := s.srv, tb := s.tb } = s) ∧
  (∀ (cyc : Nat) (s : State), s.boot.loadState = .running → s.boot.state = .bootFailed →
    ∃ t, exec (.fwLoadComplete cyc true) s = .next t ∧ t.boot.state = .bringUp ∧
      t.boot.running = some (1 - s.boot.active) ∧ t.boot.version = fwVersion s.boot.loadImage) ∧
  (∀ s : State, (s.boot.loadState = .done → ∃ t, exec .fwActivate s = .next t ∧
      t.boot = { s.boot with trial := true, recordSeq := s.boot.recordSeq + 1 } ∧
      { t with boot := s.boot, regs := s.regs, dict := s.dict } = s) ∧
    (s.boot.loadState ≠ .done → exec .fwActivate s = .next (s.status Status.VALUE_STATE)) ∧
    (∃ t, exec .fwDeactivate s = .next t ∧
      t.boot = { s.boot with trial := false, recordSeq := s.boot.recordSeq + 1 } ∧
      { t with boot := s.boot, regs := s.regs, dict := s.dict } = s)) ∧
  (∀ (cyc : Nat) (ms : List (Option (List Byte))) (s : State), s.boot.state ≠ .rom →
    ∃ t, exec (.identityReread cyc ms) s = .next t ∧ t.boot.idmReads = min (2 ^ 32 - 1) (s.boot.idmReads + 1) ∧
      t.boot.idmData = (List.range 5).map (fun n => (((ms.getD n none).map fun b => b.take 2048)).getD []) ∧
      (∀ n ∈ s.boot.identityDue, n ∈ t.boot.identityDue) ∧ { t with boot := s.boot, srv := s.srv, tb := s.tb } = s)

/-- R589, R592 to R597, R602: key records that verify are added; an ENROL ticket that verifies and fits takes the
first free slot, a RELEASE ticket revokes the owner and a DEBUG_UNLOCK ticket waits for the next MODULE reset;
every ticket draws a new nonce, and one that does not verify changes nothing else but the count of failures.
R599, R600, R591: a nonce of 32 bytes asks for a report, which binds it; the report that is ready has its
signature block behind its 256 bytes; SVN_RAISE takes the minimum up to the security version that runs and never
down, and not in a trial boot. -/
def Obligations.TicketsAndAttestation : Prop :=
  ((∀ (cyc : Nat) (b : List Byte) (s : State), b.length % 320 = 0 → 1 ≤ b.length / 320 → b.length / 320 ≤ 64 →
     ∃ t, exec (.keyUpdate cyc b) s = .next t ∧
       (∀ u, (s.stamp cyc).verifyKeys (pieces 320 64 b) = (true, u) →
         t.sec = ((pieces 320 64 b).map parseKey).foldl Security.addKey s.sec ∧ t.dict.lastStatus = Status.OK ∧
         { t with sec := s.sec, blobs := s.blobs, srv := s.srv, dict := s.dict, tb := s.tb } = s) ∧
       (∀ u, (s.stamp cyc).verifyKeys (pieces 320 64 b) = (false, u) →
         t.sec.keys = s.sec.keys ∧ t.sec.keySeq = s.sec.keySeq ∧ t.dict.lastStatus = Status.VALUE_STATE ∧
         t.blobs = s.blobs)) ∧
   (∀ (cyc : Nat) (b : List Byte) (s : State), s.sec.ownerSlot = 0 →
     ∃ t, exec (.enrolTicket cyc b) s = .next t ∧
       (∀ i, s.sec.verifies .enrol b = true → s.ticketFits b 1 = true → s.sec.owners.findIdx? (· = .free) = some i →
         t.sec = { s.sec with owners := s.sec.owners.set i (.enrolled (sha384 (slice b 0x38 97)) (slice b 0x38 97))
                              ownerFw := bit (field b 5 1) 0, ownerFresh := true, nonce := s.sec.nonce + 1 } ∧
         t.dict.lastStatus = Status.OK ∧
         { t with sec := s.sec, blobs := s.blobs, srv := s.srv, dict := s.dict, tb := s.tb } = s) ∧
       (s.sec.verifies .enrol b = false →
         t.sec = { s.sec with sigFailures := min (2 ^ 32 - 1) (s.sec.sigFailures + 1), nonce := s.sec.nonce + 1 } ∧
         t.dict.lastStatus = Status.VALUE_STATE ∧
           { t with sec := s.sec, srv := s.srv, dict := s.dict, tb := s.tb } = s)) ∧
   (∀ (cyc : Nat) (b : List Byte) (s : State), s.sec.ownerSlot ≠ 0 → s.ownerStaged = false → s.boot.signer ≠ 2 →
     ∃ t, exec (.releaseTicket cyc b) s = .next t ∧
       (s.sec.verifies .release b = true → s.ticketFits b 2 = true →
         t.sec = { s.sec with owners := s.sec.owners.set (s.sec.ownerSlot - 1) .revoked, ownerFw := false
                              nonce := s.sec.nonce + 1 } ∧
         t.dict.lastStatus = Status.OK ∧
         { t with sec := s.sec, blobs := s.blobs, srv := s.srv, dict := s.dict, tb := s.tb } = s) ∧
       (s.sec.verifies .release b = false → t.sec.owners = s.sec.owners ∧ t.sec.nonce = s.sec.nonce + 1 ∧
         t.dict.lastStatus = Status.VALUE_STATE)) ∧
   (∀ (cyc : Nat) (b c : List Byte) (s : State), s.sec.ownerSlot = 0 → s.sec.debug ≠ .opn →
     ∃ t, exec (.debugUnlockTicket cyc b c) s = .next t ∧
       (s.sec.verifies .debugUnlock b = true → s.ticketFits b 3 = true →
         t.sec = { s.sec with debug := .unlockPending, nonce := s.sec.nonce + 1 } ∧ t.dict.lastStatus = Status.OK ∧
         { t with sec := s.sec, blobs := s.blobs, dict := s.dict, tb := s.tb } = s) ∧
       (s.sec.verifies .debugUnlock b = false → t.sec.debug = s.sec.debug ∧ t.sec.nonce = s.sec.nonce + 1 ∧
         t.dict.lastStatus = Status.VALUE_STATE))) ∧
  ((∀ (cyc : Nat) (nonce : List Byte) (s : State), nonce.length = 32 → s.sec.attest ≠ .generating →
     ∃ t, exec (.attestRequest cyc nonce) s = .next t ∧
       t.sec = { s.sec with attest := .generating, report := (s.stamp cyc).reportBody nonce } ∧
       t.dict.lastStatus = Status.OK ∧ { t with sec := s.sec, blobs := s.blobs, dict := s.dict, tb := s.tb } = s) ∧
   (∀ (cyc : Nat) (nonce : List Byte) (s : State), nonce.length ≠ 32 →
     exec (.attestRequest cyc nonce) s = .next ((s.stamp cyc).status Status.VALUE_RANGE)) ∧
   (∀ (cyc : Nat) (s : State), s.sec.attest = .generating →
     ∃ t, exec (.attestReportReady cyc) s = .next t ∧ t.sec.attest = .ready ∧
       t.sec.report = s.sec.report ++ s.sec.attestBlock s.sec.report ∧
       t.sec.signDraw = s.sec.signDraw + 1 ∧ { t with sec := s.sec, srv := s.srv, tb := s.tb } = s) ∧
   (∀ (cyc : Nat) (s : State), s.sec.minSvn < s.boot.securityVersion → s.boot.securityVersion ≤ 64 →
     s.boot.trialBoot = false →
     ∃ t, exec (.svnRaise cyc) s = .next t ∧ t.sec = { s.sec with minSvn := s.boot.securityVersion } ∧
       t.dict.lastStatus = Status.OK ∧
       { t with sec := s.sec, regs := s.regs, srv := s.srv, dict := s.dict, tb := s.tb } = s) ∧
   (∀ (cyc : Nat) (s : State), s.boot.securityVersion ≤ s.sec.minSvn ∨ s.boot.trialBoot = true →
     exec (.svnRaise cyc) s = .next ((s.stamp cyc).status Status.VALUE_STATE)))

/-- R36, R489, R490, R491: the actions of a boundary are run once, the clock first; the transactions whose boundary
has come are applied whole or not at all, and the others wait one slot less. -/
def Obligations.BoundariesRunOnce : Prop :=
  (∀ (env : BoundaryEnv) (s : State), s.tb.boundaryDue = false → exec (.slotBoundary env) s = .next s) ∧
  (∀ (env : BoundaryEnv) (s : State), s.tb.boundaryDue = true → s.pwr.coreOff = false →
    ∃ t e : State, exec (.slotBoundary env) s = .next t ∧
      e = s.earlyBoundary env (decide (s.tb.slot = 0) && s.tb.state != .acquiring) ∧
      s.clockBoundary.tb.boundaryDue = false ∧ s.clockBoundary.sec.ownerFresh = false ∧
      (e.inReset = true ∨ e.pwr.coreOff = true → t = e) ∧
      (e.inReset = false → e.pwr.coreOff = false →
        t = e.lateBoundary env (decide (s.tb.slot = 0) && s.tb.state != .acquiring))) ∧
  (∀ s : State, (∀ x ∈ s.dict.txs, x.isDue s.tb.boundaryFst = false) →
    s.txBoundary = State.beginCommanded { s with dict := { s.dict with
      txs := s.dict.txs.map fun x => { x with idle := min (2 ^ 32 - 1) (x.idle + 1), due := x.due - 1 } } }) ∧
  (∀ (x : Tx) (s u : State), s.dict.txs = [x] → x.isDue s.tb.boundaryFst = true → s.commitAll x.items = (u, none) →
    ∃ w : State, s.txBoundary = w.beginCommanded ∧ w.dict.txs = [] ∧
      w.dict.ended.getLast? = some { x with state := .committed, at_ := s.tb.boundaryFst } ∧ w.regs = u.regs ∧
      w.blobs = u.blobs) ∧
  (∀ (x : Tx) (i : StagedItem) (e : Nat) (s u : State), s.dict.txs = [x] → x.isDue s.tb.boundaryFst = true →
    s.commitAll x.items = (u, some (i, e)) →
    ∃ w : State, s.txBoundary = w.beginCommanded ∧ w.dict.txs = [] ∧
      w.dict.ended.getLast? = some { x with state := .refused, at_ := s.tb.boundaryFst, cause := e
                                            causeIndex := i.index, causeSub := i.sub } ∧
      w.regs = s.regs ∧ w.blobs = s.blobs ∧ w.store = s.store ∧ w.srv.streams = s.srv.streams ∧ w.planner = s.planner)

/-- A step takes the command at the front of the queue and carries it out on the state with the rest of the queue;
with an empty queue the block idles. No word spells a command, since the opcode table gives no row any bits. The
queue is the model's own (log entries 3 and 11). -/
def Obligations.StepTakesTheFrontCommand : Prop :=
  (∀ (c : Instr) (rest : List Instr) (s : State), s.pending = c :: rest →
    step s = exec c { s with pending := rest }) ∧
  (∀ s : State, s.pending = [] → step s = .next s) ∧
  (∀ (s : State) (nbits w : Nat), decodeTableWord nbits w = none ∧ s.withFetchWord nbits w = s)

/-- Every command whose operands name units of the part completes from every state, and no command is refused. What
each command does is said by the other statements. -/
def Obligations.CommandsComplete : Prop :=
  (∀ (c : Instr) (s : State), c.wellFormed s.part = true → ∃ t, exec c s = .next t) ∧
  (∀ (c : Instr) (s : State) (r : Refusal), exec c s ≠ .refused r)

/-- R5 and the model's queue (log entry 3): no command changes the part or the queue, and a step takes one command
off the queue and adds none. -/
def Obligations.PartAndQueueStay : Prop :=
  (∀ (c : Instr) (s t : State), exec c s = .next t → t.part = s.part ∧ t.pending = s.pending) ∧
  (∀ s t : State, step s = .next t → t.part = s.part ∧ t.pending = s.pending.tail)

/-- R269, R283: every step keeps both memories, and the SRAM of a saved context, in canonical form: addresses
strictly rising and no listed byte zero, which is what an unlisted byte reads as. That an unlisted byte reads as
zero is read from R269 and R283 (log entry 10). -/
def Obligations.MemoryStaysCanonical : Prop :=
  ∀ s t : State, step s = .next t → s.memoryLegal → t.memoryLegal

/-- R40, R42, Table 2-1: every step keeps SLOT below 160 and FRAME below 2^40. -/
def Obligations.TimeStaysLegal : Prop :=
  ∀ s t : State, step s = .next t → s.timeLegal → t.timeLegal

/-- R476: every step keeps the maps of configuration values in order with each key once, so that a written object
reads back what was written and no other object changes. -/
def Obligations.SettingsStayOrdered : Prop :=
  (∀ s t : State, step s = .next t → s.settingsOrdered → t.settingsOrdered) ∧
  (∀ (key v : Nat) (s : State), s.settingsOrdered → (s.setReg key v).settingsOrdered ∧ (s.setReg key v).reg key = v ∧
    ∀ k, k ≠ key → (s.setReg key v).reg k = s.reg k)

/-- The invariants hold in the state after reset. -/
def Obligations.ResetIsLegal : Prop :=
  State.reset.memoryLegal ∧ State.reset.timeLegal ∧ State.reset.settingsOrdered ∧ State.reset.mem.wf = true ∧
  State.reset.pending = []

/-- R36, R44, R46, R47, R50 and Chapters 15, 18, 19: a command that the lists of Safety.lean do not name leaves
FRAME and SLOT, the configuration values, the configuration objects of type DOMAIN, the boot record, or keys,
ownership, attestation and the debug lock as they are. -/
def Obligations.OnlyListedCommandsWrite : Prop :=
  ∀ (c : Instr) (s t : State), exec c s = .next t →
    (c.writesSettings = false → t.regs = s.regs ∧ ∀ k, t.reg k = s.reg k) ∧
    (c.writesBlobs = false → t.blobs = s.blobs) ∧
    (c.changesBoot = false → t.boot = s.boot) ∧
    (c.changesSecurity = false → t.sec = s.sec) ∧
    (c.movesTime = false → t.tb.slot = s.tb.slot ∧ t.tb.frame = s.tb.frame)

/-- R283, R485, R491: a command that the lists of Safety.lean do not name leaves every byte of SRAM, every byte of
HBM, or the transactions as they are. -/
def Obligations.OnlyListedCommandsStore : Prop :=
  ∀ (c : Instr) (s t : State), exec c s = .next t →
    (c.changesSram = false → ∀ a, readByte t.mem.sram a = readByte s.mem.sram a) ∧
    (c.changesHbm = false → ∀ a, readByte t.mem.hbm a = readByte s.mem.hbm a) ∧
    (c.changesTransactions = false → t.dict.txs = s.dict.txs ∧ t.dict.ended = s.dict.ended)

/-- R44, R546, R562, Tables 2-3, 3-8, 7-13, 17-3, 18-3 and the Default columns of the object tables: values that the
spec gives for the state after a POWER_ON reset. -/
def Obligations.ResetValues : Prop :=
  State.reset.tb.state = .acquiring ∧ State.reset.fst = 0 ∧ State.reset.fab.state = .empty ∧
  (∀ n, n < 4 → (State.reset.fab.slot n).state = .free) ∧ State.reset.planner.running = none ∧
  State.reset.planner.plan = [] ∧ State.reset.srv.streams = [] ∧ State.reset.store.switchState = .idle ∧
  State.reset.boot.state = .rom ∧ State.reset.boot.cause = 1 ∧ State.reset.pwr.k = 16 ∧
  (∀ d, d < 20 → (State.reset.domain d).state = .off ∨ (State.reset.domain d).state = .unpopulated) ∧
  (∀ l, l < 4 → (State.reset.lace l).state = .off) ∧ (∀ m, m < 4 → (State.reset.module m).state = .off) ∧
  (∀ a, readByte State.reset.mem.sram a = 0) ∧ State.reset.reg Reg.FAB_JOIN_GUARD = 4096 ∧
  State.reset.reg Reg.MXE_CHECK_TOL = 14 ∧ State.reset.reg Reg.RAS_STRIKE_WINDOW = 45000 ∧
  State.reset.reg Reg.HLK_TX_IDLE_LIMIT = 80000

/-- R41, R42: FRACTION is min(65,535, c × 65,536 / 156,250). FST values order as FRAME, SLOT and FRACTION do. A slot
boundary carries SLOT into FRAME, and FRAME wraps from 2^40 − 1 to 0. -/
def Obligations.FstOrdersTime : Prop :=
  (∀ t : TimeBase, t.state ≠ .acquiring →
    t.fst = t.frame * 2 ^ 24 + t.slot * 2 ^ 16 + min 65535 (t.cyc * 65536 / 156250)) ∧
  (∀ f g p q x y : Nat, p < 256 → q < 256 → x < 65536 → y < 65536 →
    (fstOf f p x < fstOf g q y ↔ f < g ∨ (f = g ∧ (p < q ∨ (p = q ∧ x < y))))) ∧
  (∀ t : TimeBase, t.state ≠ .acquiring → t.load = none →
    (t.slot < 159 → t.place.slot = t.slot + 1 ∧ t.place.frame = t.frame) ∧
    (t.slot = 159 → t.frame < 2 ^ 40 - 1 → t.place.slot = 0 ∧ t.place.frame = t.frame + 1) ∧
    (t.slot = 159 → t.frame = 2 ^ 40 - 1 → t.place.slot = 0 ∧ t.place.frame = 0))

/-- R354: an event is a record of 32 bytes that is copied into the log, which keeps the last 64; it waits for the
event ring where that has room, and with the link down or no ring it reaches only the log and is counted as
lost. -/
def Obligations.EventsAreLogged : Prop :=
  ∀ (code group arg0 arg1 arg2 : Nat) (e : Event) (s t : State), t = s.raiseFor code group arg0 arg1 arg2 →
    e = { fst := s.fst, code := code, group := group, arg0 := arg0 % 2 ^ 32, arg1 := arg1 % 2 ^ 64
          arg2 := arg2 % 2 ^ 64 } →
    e.bytes.length = 32 ∧ t.srv.log.getLast? = some e ∧ (s.srv.log.length ≤ 64 → t.srv.log.length ≤ 64) ∧
    (s.hlk.up = false ∨ s.reg Reg.SRV_EVENT_ENTRIES = 0 → t.srv.eventQueue = s.srv.eventQueue ∧
      t.srv.eventsLost = min (2 ^ 32 - 1) (s.srv.eventsLost + 1)) ∧
    (s.hlk.up = true → s.srv.eventRoom (s.reg Reg.SRV_EVENT_ENTRIES) ≠ 0 → s.srv.eventsPending = 0 →
      t.srv.eventQueue = s.srv.eventQueue ++ [e] ∧ t.srv.eventsLost = s.srv.eventsLost) ∧
    t.srv.streams = s.srv.streams ∧ { t with srv := s.srv } = s
end

