-- ==== Sys2Proof/Laws/State.lean ====
section
/-! SUPPORT. Small lemmas of the state: each named update beside each field, and `Kept`, the part of the state
that most operations leave alone, so that an operation's frame is one equation. -/

namespace Sys2Proof.Machine

/-! ### Named updates, field by field -/

section
variable (s : State)

@[simp] theorem State.stamp_tb (c : Nat) : (s.stamp c).tb = { s.tb with cyc := c } := rfl
@[simp] theorem State.draw_fst : s.draw.1 = Config.freeValue s.free := rfl
@[simp] theorem State.draw_count : s.draw.2.free = s.free + 1 := rfl
@[simp] theorem State.setReg_regs (k v : Nat) : (s.setReg k v).regs = Machine.setReg s.part s.regs k v := rfl
@[simp] theorem State.setBlob_blobs (k : Nat) (b : List Byte) :
    (s.setBlob k b).blobs = if b.isEmpty then kdel s.blobs k else kset s.blobs k b := rfl

@[simp] theorem State.stamp_part (c : Nat) : (s.stamp c).part = s.part := rfl
@[simp] theorem State.stamp_pending (c : Nat) : (s.stamp c).pending = s.pending := rfl
@[simp] theorem State.stamp_free (c : Nat) : (s.stamp c).free = s.free := rfl
@[simp] theorem State.stamp_regs (c : Nat) : (s.stamp c).regs = s.regs := rfl
@[simp] theorem State.stamp_blobs (c : Nat) : (s.stamp c).blobs = s.blobs := rfl
@[simp] theorem State.stamp_planner (c : Nat) : (s.stamp c).planner = s.planner := rfl
@[simp] theorem State.stamp_fab (c : Nat) : (s.stamp c).fab = s.fab := rfl
@[simp] theorem State.stamp_mxe (c : Nat) : (s.stamp c).mxe = s.mxe := rfl
@[simp] theorem State.stamp_chn (c : Nat) : (s.stamp c).chn = s.chn := rfl
@[simp] theorem State.stamp_mem (c : Nat) : (s.stamp c).mem = s.mem := rfl
@[simp] theorem State.stamp_pages (c : Nat) : (s.stamp c).pages = s.pages := rfl
@[simp] theorem State.stamp_store (c : Nat) : (s.stamp c).store = s.store := rfl
@[simp] theorem State.stamp_srv (c : Nat) : (s.stamp c).srv = s.srv := rfl
@[simp] theorem State.stamp_syn (c : Nat) : (s.stamp c).syn = s.syn := rfl
@[simp] theorem State.stamp_lce (c : Nat) : (s.stamp c).lce = s.lce := rfl
@[simp] theorem State.stamp_dsp (c : Nat) : (s.stamp c).dsp = s.dsp := rfl
@[simp] theorem State.stamp_hlk (c : Nat) : (s.stamp c).hlk = s.hlk := rfl
@[simp] theorem State.stamp_dict (c : Nat) : (s.stamp c).dict = s.dict := rfl
@[simp] theorem State.stamp_ras (c : Nat) : (s.stamp c).ras = s.ras := rfl
@[simp] theorem State.stamp_pwr (c : Nat) : (s.stamp c).pwr = s.pwr := rfl
@[simp] theorem State.stamp_boot (c : Nat) : (s.stamp c).boot = s.boot := rfl
@[simp] theorem State.stamp_sec (c : Nat) : (s.stamp c).sec = s.sec := rfl
@[simp] theorem State.draw_part : (s.draw).2.part = s.part := rfl
@[simp] theorem State.draw_pending : (s.draw).2.pending = s.pending := rfl
@[simp] theorem State.draw_regs : (s.draw).2.regs = s.regs := rfl
@[simp] theorem State.draw_blobs : (s.draw).2.blobs = s.blobs := rfl
@[simp] theorem State.draw_tb : (s.draw).2.tb = s.tb := rfl
@[simp] theorem State.draw_planner : (s.draw).2.planner = s.planner := rfl
@[simp] theorem State.draw_fab : (s.draw).2.fab = s.fab := rfl
@[simp] theorem State.draw_mxe : (s.draw).2.mxe = s.mxe := rfl
@[simp] theorem State.draw_chn : (s.draw).2.chn = s.chn := rfl
@[simp] theorem State.draw_mem : (s.draw).2.mem = s.mem := rfl
@[simp] theorem State.draw_pages : (s.draw).2.pages = s.pages := rfl
@[simp] theorem State.draw_store : (s.draw).2.store = s.store := rfl
@[simp] theorem State.draw_srv : (s.draw).2.srv = s.srv := rfl
@[simp] theorem State.draw_syn : (s.draw).2.syn = s.syn := rfl
@[simp] theorem State.draw_lce : (s.draw).2.lce = s.lce := rfl
@[simp] theorem State.draw_dsp : (s.draw).2.dsp = s.dsp := rfl
@[simp] theorem State.draw_hlk : (s.draw).2.hlk = s.hlk := rfl
@[simp] theorem State.draw_dict : (s.draw).2.dict = s.dict := rfl
@[simp] theorem State.draw_ras : (s.draw).2.ras = s.ras := rfl
@[simp] theorem State.draw_pwr : (s.draw).2.pwr = s.pwr := rfl
@[simp] theorem State.draw_boot : (s.draw).2.boot = s.boot := rfl
@[simp] theorem State.draw_sec : (s.draw).2.sec = s.sec := rfl
@[simp] theorem State.setReg_part (key v : Nat) : (s.setReg key v).part = s.part := rfl
@[simp] theorem State.setReg_pending (key v : Nat) : (s.setReg key v).pending = s.pending := rfl
@[simp] theorem State.setReg_free (key v : Nat) : (s.setReg key v).free = s.free := rfl
@[simp] theorem State.setReg_blobs (key v : Nat) : (s.setReg key v).blobs = s.blobs := rfl
@[simp] theorem State.setReg_tb (key v : Nat) : (s.setReg key v).tb = s.tb := rfl
@[simp] theorem State.setReg_planner (key v : Nat) : (s.setReg key v).planner = s.planner := rfl
@[simp] theorem State.setReg_fab (key v : Nat) : (s.setReg key v).fab = s.fab := rfl
@[simp] theorem State.setReg_mxe (key v : Nat) : (s.setReg key v).mxe = s.mxe := rfl
@[simp] theorem State.setReg_chn (key v : Nat) : (s.setReg key v).chn = s.chn := rfl
@[simp] theorem State.setReg_mem (key v : Nat) : (s.setReg key v).mem = s.mem := rfl
@[simp] theorem State.setReg_pages (key v : Nat) : (s.setReg key v).pages = s.pages := rfl
@[simp] theorem State.setReg_store (key v : Nat) : (s.setReg key v).store = s.store := rfl
@[simp] theorem State.setReg_srv (key v : Nat) : (s.setReg key v).srv = s.srv := rfl
@[simp] theorem State.setReg_syn (key v : Nat) : (s.setReg key v).syn = s.syn := rfl
@[simp] theorem State.setReg_lce (key v : Nat) : (s.setReg key v).lce = s.lce := rfl
@[simp] theorem State.setReg_dsp (key v : Nat) : (s.setReg key v).dsp = s.dsp := rfl
@[simp] theorem State.setReg_hlk (key v : Nat) : (s.setReg key v).hlk = s.hlk := rfl
@[simp] theorem State.setReg_dict (key v : Nat) : (s.setReg key v).dict = s.dict := rfl
@[simp] theorem State.setReg_ras (key v : Nat) : (s.setReg key v).ras = s.ras := rfl
@[simp] theorem State.setReg_pwr (key v : Nat) : (s.setReg key v).pwr = s.pwr := rfl
@[simp] theorem State.setReg_boot (key v : Nat) : (s.setReg key v).boot = s.boot := rfl
@[simp] theorem State.setReg_sec (key v : Nat) : (s.setReg key v).sec = s.sec := rfl
@[simp] theorem State.setBlob_part (key : Nat) (v : List Byte) : (s.setBlob key v).part = s.part := rfl
@[simp] theorem State.setBlob_pending (key : Nat) (v : List Byte) : (s.setBlob key v).pending = s.pending := rfl
@[simp] theorem State.setBlob_free (key : Nat) (v : List Byte) : (s.setBlob key v).free = s.free := rfl
@[simp] theorem State.setBlob_regs (key : Nat) (v : List Byte) : (s.setBlob key v).regs = s.regs := rfl
@[simp] theorem State.setBlob_tb (key : Nat) (v : List Byte) : (s.setBlob key v).tb = s.tb := rfl
@[simp] theorem State.setBlob_planner (key : Nat) (v : List Byte) : (s.setBlob key v).planner = s.planner := rfl
@[simp] theorem State.setBlob_fab (key : Nat) (v : List Byte) : (s.setBlob key v).fab = s.fab := rfl
@[simp] theorem State.setBlob_mxe (key : Nat) (v : List Byte) : (s.setBlob key v).mxe = s.mxe := rfl
@[simp] theorem State.setBlob_chn (key : Nat) (v : List Byte) : (s.setBlob key v).chn = s.chn := rfl
@[simp] theorem State.setBlob_mem (key : Nat) (v : List Byte) : (s.setBlob key v).mem = s.mem := rfl
@[simp] theorem State.setBlob_pages (key : Nat) (v : List Byte) : (s.setBlob key v).pages = s.pages := rfl
@[simp] theorem State.setBlob_store (key : Nat) (v : List Byte) : (s.setBlob key v).store = s.store := rfl
@[simp] theorem State.setBlob_srv (key : Nat) (v : List Byte) : (s.setBlob key v).srv = s.srv := rfl
@[simp] theorem State.setBlob_syn (key : Nat) (v : List Byte) : (s.setBlob key v).syn = s.syn := rfl
@[simp] theorem State.setBlob_lce (key : Nat) (v : List Byte) : (s.setBlob key v).lce = s.lce := rfl
@[simp] theorem State.setBlob_dsp (key : Nat) (v : List Byte) : (s.setBlob key v).dsp = s.dsp := rfl
@[simp] theorem State.setBlob_hlk (key : Nat) (v : List Byte) : (s.setBlob key v).hlk = s.hlk := rfl
@[simp] theorem State.setBlob_dict (key : Nat) (v : List Byte) : (s.setBlob key v).dict = s.dict := rfl
@[simp] theorem State.setBlob_ras (key : Nat) (v : List Byte) : (s.setBlob key v).ras = s.ras := rfl
@[simp] theorem State.setBlob_pwr (key : Nat) (v : List Byte) : (s.setBlob key v).pwr = s.pwr := rfl
@[simp] theorem State.setBlob_boot (key : Nat) (v : List Byte) : (s.setBlob key v).boot = s.boot := rfl
@[simp] theorem State.setBlob_sec (key : Nat) (v : List Byte) : (s.setBlob key v).sec = s.sec := rfl
@[simp] theorem State.raiseFor_part (code group arg0 arg1 arg2 : Nat) :
    (s.raiseFor code group arg0 arg1 arg2).part = s.part := by unfold State.raiseFor; rfl
@[simp] theorem State.raiseFor_pending (code group arg0 arg1 arg2 : Nat) :
    (s.raiseFor code group arg0 arg1 arg2).pending = s.pending := by unfold State.raiseFor; rfl
@[simp] theorem State.raiseFor_free (code group arg0 arg1 arg2 : Nat) :
    (s.raiseFor code group arg0 arg1 arg2).free = s.free := by unfold State.raiseFor; rfl
@[simp] theorem State.raiseFor_regs (code group arg0 arg1 arg2 : Nat) :
    (s.raiseFor code group arg0 arg1 arg2).regs = s.regs := by unfold State.raiseFor; rfl
@[simp] theorem State.raiseFor_blobs (code group arg0 arg1 arg2 : Nat) :
    (s.raiseFor code group arg0 arg1 arg2).blobs = s.blobs := by unfold State.raiseFor; rfl
@[simp] theorem State.raiseFor_tb (code group arg0 arg1 arg2 : Nat) :
    (s.raiseFor code group arg0 arg1 arg2).tb = s.tb := by unfold State.raiseFor; rfl
@[simp] theorem State.raiseFor_planner (code group arg0 arg1 arg2 : Nat) :
    (s.raiseFor code group arg0 arg1 arg2).planner = s.planner := by unfold State.raiseFor; rfl
@[simp] theorem State.raiseFor_fab (code group arg0 arg1 arg2 : Nat) :
    (s.raiseFor code group arg0 arg1 arg2).fab = s.fab := by unfold State.raiseFor; rfl
@[simp] theorem State.raiseFor_mxe (code group arg0 arg1 arg2 : Nat) :
    (s.raiseFor code group arg0 arg1 arg2).mxe = s.mxe := by unfold State.raiseFor; rfl
@[simp] theorem State.raiseFor_chn (code group arg0 arg1 arg2 : Nat) :
    (s.raiseFor code group arg0 arg1 arg2).chn = s.chn := by unfold State.raiseFor; rfl
@[simp] theorem State.raiseFor_mem (code group arg0 arg1 arg2 : Nat) :
    (s.raiseFor code group arg0 arg1 arg2).mem = s.mem := by unfold State.raiseFor; rfl
@[simp] theorem State.raiseFor_pages (code group arg0 arg1 arg2 : Nat) :
    (s.raiseFor code group arg0 arg1 arg2).pages = s.pages := by unfold State.raiseFor; rfl
@[simp] theorem State.raiseFor_store (code group arg0 arg1 arg2 : Nat) :
    (s.raiseFor code group arg0 arg1 arg2).store = s.store := by unfold State.raiseFor; rfl
@[simp] theorem State.raiseFor_syn (code group arg0 arg1 arg2 : Nat) :
    (s.raiseFor code group arg0 arg1 arg2).syn = s.syn := by unfold State.raiseFor; rfl
@[simp] theorem State.raiseFor_lce (code group arg0 arg1 arg2 : Nat) :
    (s.raiseFor code group arg0 arg1 arg2).lce = s.lce := by unfold State.raiseFor; rfl
@[simp] theorem State.raiseFor_dsp (code group arg0 arg1 arg2 : Nat) :
    (s.raiseFor code group arg0 arg1 arg2).dsp = s.dsp := by unfold State.raiseFor; rfl
@[simp] theorem State.raiseFor_hlk (code group arg0 arg1 arg2 : Nat) :
    (s.raiseFor code group arg0 arg1 arg2).hlk = s.hlk := by unfold State.raiseFor; rfl
@[simp] theorem State.raiseFor_dict (code group arg0 arg1 arg2 : Nat) :
    (s.raiseFor code group arg0 arg1 arg2).dict = s.dict := by unfold State.raiseFor; rfl
@[simp] theorem State.raiseFor_ras (code group arg0 arg1 arg2 : Nat) :
    (s.raiseFor code group arg0 arg1 arg2).ras = s.ras := by unfold State.raiseFor; rfl
@[simp] theorem State.raiseFor_pwr (code group arg0 arg1 arg2 : Nat) :
    (s.raiseFor code group arg0 arg1 arg2).pwr = s.pwr := by unfold State.raiseFor; rfl
@[simp] theorem State.raiseFor_boot (code group arg0 arg1 arg2 : Nat) :
    (s.raiseFor code group arg0 arg1 arg2).boot = s.boot := by unfold State.raiseFor; rfl
@[simp] theorem State.raiseFor_sec (code group arg0 arg1 arg2 : Nat) :
    (s.raiseFor code group arg0 arg1 arg2).sec = s.sec := by unfold State.raiseFor; rfl
@[simp] theorem State.raise_part (code arg0 arg1 arg2 : Nat) :
    (s.raise code arg0 arg1 arg2).part = s.part := State.raiseFor_part ..
@[simp] theorem State.raise_pending (code arg0 arg1 arg2 : Nat) :
    (s.raise code arg0 arg1 arg2).pending = s.pending := State.raiseFor_pending ..
@[simp] theorem State.raise_free (code arg0 arg1 arg2 : Nat) :
    (s.raise code arg0 arg1 arg2).free = s.free := State.raiseFor_free ..
@[simp] theorem State.raise_regs (code arg0 arg1 arg2 : Nat) :
    (s.raise code arg0 arg1 arg2).regs = s.regs := State.raiseFor_regs ..
@[simp] theorem State.raise_blobs (code arg0 arg1 arg2 : Nat) :
    (s.raise code arg0 arg1 arg2).blobs = s.blobs := State.raiseFor_blobs ..
@[simp] theorem State.raise_tb (code arg0 arg1 arg2 : Nat) :
    (s.raise code arg0 arg1 arg2).tb = s.tb := State.raiseFor_tb ..
@[simp] theorem State.raise_planner (code arg0 arg1 arg2 : Nat) :
    (s.raise code arg0 arg1 arg2).planner = s.planner := State.raiseFor_planner ..
@[simp] theorem State.raise_fab (code arg0 arg1 arg2 : Nat) :
    (s.raise code arg0 arg1 arg2).fab = s.fab := State.raiseFor_fab ..
@[simp] theorem State.raise_mxe (code arg0 arg1 arg2 : Nat) :
    (s.raise code arg0 arg1 arg2).mxe = s.mxe := State.raiseFor_mxe ..
@[simp] theorem State.raise_chn (code arg0 arg1 arg2 : Nat) :
    (s.raise code arg0 arg1 arg2).chn = s.chn := State.raiseFor_chn ..
@[simp] theorem State.raise_mem (code arg0 arg1 arg2 : Nat) :
    (s.raise code arg0 arg1 arg2).mem = s.mem := State.raiseFor_mem ..
@[simp] theorem State.raise_pages (code arg0 arg1 arg2 : Nat) :
    (s.raise code arg0 arg1 arg2).pages = s.pages := State.raiseFor_pages ..
@[simp] theorem State.raise_store (code arg0 arg1 arg2 : Nat) :
    (s.raise code arg0 arg1 arg2).store = s.store := State.raiseFor_store ..
@[simp] theorem State.raise_syn (code arg0 arg1 arg2 : Nat) :
    (s.raise code arg0 arg1 arg2).syn = s.syn := State.raiseFor_syn ..
@[simp] theorem State.raise_lce (code arg0 arg1 arg2 : Nat) :
    (s.raise code arg0 arg1 arg2).lce = s.lce := State.raiseFor_lce ..
@[simp] theorem State.raise_dsp (code arg0 arg1 arg2 : Nat) :
    (s.raise code arg0 arg1 arg2).dsp = s.dsp := State.raiseFor_dsp ..
@[simp] theorem State.raise_hlk (code arg0 arg1 arg2 : Nat) :
    (s.raise code arg0 arg1 arg2).hlk = s.hlk := State.raiseFor_hlk ..
@[simp] theorem State.raise_dict (code arg0 arg1 arg2 : Nat) :
    (s.raise code arg0 arg1 arg2).dict = s.dict := State.raiseFor_dict ..
@[simp] theorem State.raise_ras (code arg0 arg1 arg2 : Nat) :
    (s.raise code arg0 arg1 arg2).ras = s.ras := State.raiseFor_ras ..
@[simp] theorem State.raise_pwr (code arg0 arg1 arg2 : Nat) :
    (s.raise code arg0 arg1 arg2).pwr = s.pwr := State.raiseFor_pwr ..
@[simp] theorem State.raise_boot (code arg0 arg1 arg2 : Nat) :
    (s.raise code arg0 arg1 arg2).boot = s.boot := State.raiseFor_boot ..
@[simp] theorem State.raise_sec (code arg0 arg1 arg2 : Nat) :
    (s.raise code arg0 arg1 arg2).sec = s.sec := State.raiseFor_sec ..
@[simp] theorem State.status_part (code : Nat) : (s.status code).part = s.part := rfl
@[simp] theorem State.status_pending (code : Nat) : (s.status code).pending = s.pending := rfl
@[simp] theorem State.status_free (code : Nat) : (s.status code).free = s.free := rfl
@[simp] theorem State.status_regs (code : Nat) : (s.status code).regs = s.regs := rfl
@[simp] theorem State.status_blobs (code : Nat) : (s.status code).blobs = s.blobs := rfl
@[simp] theorem State.status_tb (code : Nat) : (s.status code).tb = s.tb := rfl
@[simp] theorem State.status_planner (code : Nat) : (s.status code).planner = s.planner := rfl
@[simp] theorem State.status_fab (code : Nat) : (s.status code).fab = s.fab := rfl
@[simp] theorem State.status_mxe (code : Nat) : (s.status code).mxe = s.mxe := rfl
@[simp] theorem State.status_chn (code : Nat) : (s.status code).chn = s.chn := rfl
@[simp] theorem State.status_mem (code : Nat) : (s.status code).mem = s.mem := rfl
@[simp] theorem State.status_pages (code : Nat) : (s.status code).pages = s.pages := rfl
@[simp] theorem State.status_store (code : Nat) : (s.status code).store = s.store := rfl
@[simp] theorem State.status_srv (code : Nat) : (s.status code).srv = s.srv := rfl
@[simp] theorem State.status_syn (code : Nat) : (s.status code).syn = s.syn := rfl
@[simp] theorem State.status_lce (code : Nat) : (s.status code).lce = s.lce := rfl
@[simp] theorem State.status_dsp (code : Nat) : (s.status code).dsp = s.dsp := rfl
@[simp] theorem State.status_hlk (code : Nat) : (s.status code).hlk = s.hlk := rfl
@[simp] theorem State.status_ras (code : Nat) : (s.status code).ras = s.ras := rfl
@[simp] theorem State.status_pwr (code : Nat) : (s.status code).pwr = s.pwr := rfl
@[simp] theorem State.status_boot (code : Nat) : (s.status code).boot = s.boot := rfl
@[simp] theorem State.status_sec (code : Nat) : (s.status code).sec = s.sec := rfl
@[simp] theorem State.modQuad_part (q : Nat) (f : Quadrant → Quadrant) : (s.modQuad q f).part = s.part := rfl
@[simp] theorem State.modQuad_pending (q : Nat) (f : Quadrant → Quadrant) : (s.modQuad q f).pending = s.pending := rfl
@[simp] theorem State.modQuad_free (q : Nat) (f : Quadrant → Quadrant) : (s.modQuad q f).free = s.free := rfl
@[simp] theorem State.modQuad_regs (q : Nat) (f : Quadrant → Quadrant) : (s.modQuad q f).regs = s.regs := rfl
@[simp] theorem State.modQuad_blobs (q : Nat) (f : Quadrant → Quadrant) : (s.modQuad q f).blobs = s.blobs := rfl
@[simp] theorem State.modQuad_tb (q : Nat) (f : Quadrant → Quadrant) : (s.modQuad q f).tb = s.tb := rfl
@[simp] theorem State.modQuad_planner (q : Nat) (f : Quadrant → Quadrant) : (s.modQuad q f).planner = s.planner := rfl
@[simp] theorem State.modQuad_fab (q : Nat) (f : Quadrant → Quadrant) : (s.modQuad q f).fab = s.fab := rfl
@[simp] theorem State.modQuad_mxe (q : Nat) (f : Quadrant → Quadrant) : (s.modQuad q f).mxe = s.mxe := rfl
@[simp] theorem State.modQuad_chn (q : Nat) (f : Quadrant → Quadrant) : (s.modQuad q f).chn = s.chn := rfl
@[simp] theorem State.modQuad_mem (q : Nat) (f : Quadrant → Quadrant) : (s.modQuad q f).mem = s.mem := rfl
@[simp] theorem State.modQuad_pages (q : Nat) (f : Quadrant → Quadrant) : (s.modQuad q f).pages = s.pages := rfl
@[simp] theorem State.modQuad_store (q : Nat) (f : Quadrant → Quadrant) : (s.modQuad q f).store = s.store := rfl
@[simp] theorem State.modQuad_srv (q : Nat) (f : Quadrant → Quadrant) : (s.modQuad q f).srv = s.srv := rfl
@[simp] theorem State.modQuad_syn (q : Nat) (f : Quadrant → Quadrant) : (s.modQuad q f).syn = s.syn := rfl
@[simp] theorem State.modQuad_lce (q : Nat) (f : Quadrant → Quadrant) : (s.modQuad q f).lce = s.lce := rfl
@[simp] theorem State.modQuad_dsp (q : Nat) (f : Quadrant → Quadrant) : (s.modQuad q f).dsp = s.dsp := rfl
@[simp] theorem State.modQuad_hlk (q : Nat) (f : Quadrant → Quadrant) : (s.modQuad q f).hlk = s.hlk := rfl
@[simp] theorem State.modQuad_dict (q : Nat) (f : Quadrant → Quadrant) : (s.modQuad q f).dict = s.dict := rfl
@[simp] theorem State.modQuad_pwr (q : Nat) (f : Quadrant → Quadrant) : (s.modQuad q f).pwr = s.pwr := rfl
@[simp] theorem State.modQuad_boot (q : Nat) (f : Quadrant → Quadrant) : (s.modQuad q f).boot = s.boot := rfl
@[simp] theorem State.modQuad_sec (q : Nat) (f : Quadrant → Quadrant) : (s.modQuad q f).sec = s.sec := rfl
@[simp] theorem State.modDomain_part (d : Nat) (f : Domain → Domain) : (s.modDomain d f).part = s.part := rfl
@[simp] theorem State.modDomain_pending (d : Nat) (f : Domain → Domain) : (s.modDomain d f).pending = s.pending := rfl
@[simp] theorem State.modDomain_free (d : Nat) (f : Domain → Domain) : (s.modDomain d f).free = s.free := rfl
@[simp] theorem State.modDomain_regs (d : Nat) (f : Domain → Domain) : (s.modDomain d f).regs = s.regs := rfl
@[simp] theorem State.modDomain_blobs (d : Nat) (f : Domain → Domain) : (s.modDomain d f).blobs = s.blobs := rfl
@[simp] theorem State.modDomain_tb (d : Nat) (f : Domain → Domain) : (s.modDomain d f).tb = s.tb := rfl
@[simp] theorem State.modDomain_planner (d : Nat) (f : Domain → Domain) : (s.modDomain d f).planner = s.planner := rfl
@[simp] theorem State.modDomain_fab (d : Nat) (f : Domain → Domain) : (s.modDomain d f).fab = s.fab := rfl
@[simp] theorem State.modDomain_mxe (d : Nat) (f : Domain → Domain) : (s.modDomain d f).mxe = s.mxe := rfl
@[simp] theorem State.modDomain_chn (d : Nat) (f : Domain → Domain) : (s.modDomain d f).chn = s.chn := rfl
@[simp] theorem State.modDomain_mem (d : Nat) (f : Domain → Domain) : (s.modDomain d f).mem = s.mem := rfl
@[simp] theorem State.modDomain_pages (d : Nat) (f : Domain → Domain) : (s.modDomain d f).pages = s.pages := rfl
@[simp] theorem State.modDomain_store (d : Nat) (f : Domain → Domain) : (s.modDomain d f).store = s.store := rfl
@[simp] theorem State.modDomain_srv (d : Nat) (f : Domain → Domain) : (s.modDomain d f).srv = s.srv := rfl
@[simp] theorem State.modDomain_syn (d : Nat) (f : Domain → Domain) : (s.modDomain d f).syn = s.syn := rfl
@[simp] theorem State.modDomain_lce (d : Nat) (f : Domain → Domain) : (s.modDomain d f).lce = s.lce := rfl
@[simp] theorem State.modDomain_dsp (d : Nat) (f : Domain → Domain) : (s.modDomain d f).dsp = s.dsp := rfl
@[simp] theorem State.modDomain_hlk (d : Nat) (f : Domain → Domain) : (s.modDomain d f).hlk = s.hlk := rfl
@[simp] theorem State.modDomain_dict (d : Nat) (f : Domain → Domain) : (s.modDomain d f).dict = s.dict := rfl
@[simp] theorem State.modDomain_ras (d : Nat) (f : Domain → Domain) : (s.modDomain d f).ras = s.ras := rfl
@[simp] theorem State.modDomain_boot (d : Nat) (f : Domain → Domain) : (s.modDomain d f).boot = s.boot := rfl
@[simp] theorem State.modDomain_sec (d : Nat) (f : Domain → Domain) : (s.modDomain d f).sec = s.sec := rfl
end

/-! ### Outcomes -/

@[simp] theorem outcomeState_next (s t : State) : outcomeState s (.next t) = t := rfl
@[simp] theorem outcomeState_fault (s : State) (r : Fault) : outcomeState s (.fault r) = s := rfl
@[simp] theorem outcomeState_onUnit (s t : State) (b : Bool) :
    outcomeState s (onUnit b t) = if b then t else s := by cases b <;> rfl
@[simp] theorem outcomeState_ite (s : State) (c : Prop) [Decidable c] (o p : Host.Outcome State Fault Refusal) :
    outcomeState s (if c then o else p) = if c then outcomeState s o else outcomeState s p := by split <;> rfl

/-- A command on a unit that exists answers a next state. -/
theorem onUnit_true {b : Bool} (h : b = true) (t : State) : onUnit b t = .next t := by simp [onUnit, h]
theorem onUnit_false {b : Bool} (h : b = false) (t : State) : onUnit b t = .fault .noSuchUnit := by
  simp [onUnit, h]

/-! ### What most operations keep -/

/-- Part, queue, configuration, start-up, keys, FST, transactions and memory bytes. -/
structure Kept where
  part : Part
  pending : List Instr
  regs : KMap Nat
  blobs : KMap (List Byte)
  boot : Boot
  sec : Security
  slot : Nat
  frame : Nat
  txs : List Tx
  ended : List Tx
  cache : List (Nat × Reply)
  sram : List Host.Cell
  hbm : List Host.Cell

def State.kept (s : State) : Kept :=
  { part := s.part, pending := s.pending, regs := s.regs, blobs := s.blobs, boot := s.boot, sec := s.sec
    slot := s.tb.slot, frame := s.tb.frame, txs := s.dict.txs, ended := s.dict.ended, cache := s.dict.cache
    sram := s.mem.sram, hbm := s.mem.hbm }

/-- Each field that `Kept` has, read through it: with these and `State.kept_mk`, `simp` shows what an operation
keeps from what the operations that it calls keep. -/
theorem State.fold_kept (s : State) :
    s.part = s.kept.part ∧ s.pending = s.kept.pending ∧ s.regs = s.kept.regs ∧ s.blobs = s.kept.blobs ∧
    s.boot = s.kept.boot ∧ s.sec = s.kept.sec ∧ s.tb.slot = s.kept.slot ∧ s.tb.frame = s.kept.frame ∧
    s.dict.txs = s.kept.txs ∧ s.dict.ended = s.kept.ended ∧ s.dict.cache = s.kept.cache ∧
    s.mem.sram = s.kept.sram ∧ s.mem.hbm = s.kept.hbm := by simp [State.kept]

/-- What a state literal keeps. -/
theorem State.kept_mk (part : Part) (pending : List Instr) (free : Nat) (regs : KMap Nat) (blobs : KMap (List Byte))
    (tb : TimeBase) (planner : Planner) (fab : Fabric) (mxe : Engine) (chn : ChainCounters) (mem : Memory)
    (pages : Pages) (store : Store) (srv : Serving) (syn : Sync) (lce : Torus) (dsp : Dispatch) (hlk : HostLink)
    (dict : Dict) (ras : Ras) (pwr : Power) (boot : Boot) (sec : Security) :
    State.kept { part := part, pending := pending, free := free, regs := regs, blobs := blobs, tb := tb
                 planner := planner, fab := fab, mxe := mxe, chn := chn, mem := mem, pages := pages, store := store
                 srv := srv, syn := syn, lce := lce, dsp := dsp, hlk := hlk, dict := dict, ras := ras, pwr := pwr
                 boot := boot, sec := sec } =
    { part := part, pending := pending, regs := regs, blobs := blobs, boot := boot, sec := sec, slot := tb.slot
      frame := tb.frame, txs := dict.txs, ended := dict.ended, cache := dict.cache, sram := mem.sram
      hbm := mem.hbm } := rfl

theorem Kept.eta (x : Kept) :
    Kept.mk x.part x.pending x.regs x.blobs x.boot x.sec x.slot x.frame x.txs x.ended x.cache x.sram x.hbm = x := rfl

@[simp] theorem State.kept_ite (c : Prop) [Decidable c] (s t : State) :
    (if c then s else t).kept = if c then s.kept else t.kept := by split <;> rfl

/-- A fold whose steps keep something of the state keeps it. -/
theorem State.keeps_foldl {α β : Type} {f : State → α → State} (g : State → β) (h : ∀ t a, g (f t a) = g t)
    (l : List α) (s : State) : g (l.foldl f s) = g s := by
  induction l generalizing s with
  | nil => rfl
  | cons a l ih => exact (ih (f s a)).trans (h s a)

/-- The same of a fold that carries something beside the state. -/
theorem State.keeps_foldl_fst {α β γ : Type} {f : State × γ → α → State × γ} (g : State → β)
    (h : ∀ p a, g (f p a).1 = g p.1) (l : List α) (p : State × γ) : g (l.foldl f p).1 = g p.1 := by
  induction l generalizing p with
  | nil => rfl
  | cons a l ih => exact (ih (f p a)).trans (h p a)

theorem State.keeps_foldl_snd {α β γ : Type} {f : γ × State → α → γ × State} (g : State → β)
    (h : ∀ p a, g (f p a).2 = g p.2) (l : List α) (p : γ × State) : g (l.foldl f p).2 = g p.2 := by
  induction l generalizing p with
  | nil => rfl
  | cons a l ih => exact (ih (f p a)).trans (h p a)

/-- The same of a fold that carries two things beside the state. -/
theorem State.keeps_foldl_thd {α β γ δ : Type} {f : γ × δ × State → α → γ × δ × State} (g : State → β)
    (h : ∀ p a, g (f p a).2.2 = g p.2.2) (l : List α) (p : γ × δ × State) : g (l.foldl f p).2.2 = g p.2.2 := by
  induction l generalizing p with
  | nil => rfl
  | cons a l ih => exact (ih (f p a)).trans (h p a)

section
variable {α γ : Type} {f : State → α → State} {k : State × γ → α → State × γ}

@[simp] theorem State.kept_foldl (h : ∀ t a, (f t a).kept = t.kept) (l : List α) (s : State) :
    (l.foldl f s).kept = s.kept := State.keeps_foldl _ h l s
@[simp] theorem State.kept_foldl_fst (h : ∀ p a, (k p a).1.kept = p.1.kept) (l : List α) (p : State × γ) :
    (l.foldl k p).1.kept = p.1.kept := State.keeps_foldl_fst _ h l p
@[simp] theorem State.part_foldl (h : ∀ t a, (f t a).kept.part = t.kept.part) (l : List α) (s : State) :
    (l.foldl f s).kept.part = s.kept.part := State.keeps_foldl (fun t => t.kept.part) h l s
@[simp] theorem State.pending_foldl (h : ∀ t a, (f t a).kept.pending = t.kept.pending) (l : List α) (s : State) :
    (l.foldl f s).kept.pending = s.kept.pending := State.keeps_foldl (fun t => t.kept.pending) h l s
@[simp] theorem State.regs_foldl (h : ∀ t a, (f t a).kept.regs = t.kept.regs) (l : List α) (s : State) :
    (l.foldl f s).kept.regs = s.kept.regs := State.keeps_foldl (fun t => t.kept.regs) h l s
@[simp] theorem State.blobs_foldl (h : ∀ t a, (f t a).kept.blobs = t.kept.blobs) (l : List α) (s : State) :
    (l.foldl f s).kept.blobs = s.kept.blobs := State.keeps_foldl (fun t => t.kept.blobs) h l s
@[simp] theorem State.boot_foldl (h : ∀ t a, (f t a).kept.boot = t.kept.boot) (l : List α) (s : State) :
    (l.foldl f s).kept.boot = s.kept.boot := State.keeps_foldl (fun t => t.kept.boot) h l s
@[simp] theorem State.sec_foldl (h : ∀ t a, (f t a).kept.sec = t.kept.sec) (l : List α) (s : State) :
    (l.foldl f s).kept.sec = s.kept.sec := State.keeps_foldl (fun t => t.kept.sec) h l s
@[simp] theorem State.slot_foldl (h : ∀ t a, (f t a).kept.slot = t.kept.slot) (l : List α) (s : State) :
    (l.foldl f s).kept.slot = s.kept.slot := State.keeps_foldl (fun t => t.kept.slot) h l s
@[simp] theorem State.frame_foldl (h : ∀ t a, (f t a).kept.frame = t.kept.frame) (l : List α) (s : State) :
    (l.foldl f s).kept.frame = s.kept.frame := State.keeps_foldl (fun t => t.kept.frame) h l s
@[simp] theorem State.txs_foldl (h : ∀ t a, (f t a).kept.txs = t.kept.txs) (l : List α) (s : State) :
    (l.foldl f s).kept.txs = s.kept.txs := State.keeps_foldl (fun t => t.kept.txs) h l s
@[simp] theorem State.ended_foldl (h : ∀ t a, (f t a).kept.ended = t.kept.ended) (l : List α) (s : State) :
    (l.foldl f s).kept.ended = s.kept.ended := State.keeps_foldl (fun t => t.kept.ended) h l s
@[simp] theorem State.cache_foldl (h : ∀ t a, (f t a).kept.cache = t.kept.cache) (l : List α) (s : State) :
    (l.foldl f s).kept.cache = s.kept.cache := State.keeps_foldl (fun t => t.kept.cache) h l s
@[simp] theorem State.sram_foldl (h : ∀ t a, (f t a).kept.sram = t.kept.sram) (l : List α) (s : State) :
    (l.foldl f s).kept.sram = s.kept.sram := State.keeps_foldl (fun t => t.kept.sram) h l s
@[simp] theorem State.hbm_foldl (h : ∀ t a, (f t a).kept.hbm = t.kept.hbm) (l : List α) (s : State) :
    (l.foldl f s).kept.hbm = s.kept.hbm := State.keeps_foldl (fun t => t.kept.hbm) h l s

end

@[simp] theorem State.stamp_kept (s : State) (c : Nat) : (s.stamp c).kept = s.kept := rfl
@[simp] theorem State.draw_kept (s : State) : s.draw.2.kept = s.kept := rfl
@[simp] theorem State.raiseFor_kept (s : State) (code group arg0 arg1 arg2 : Nat) :
    (s.raiseFor code group arg0 arg1 arg2).kept = s.kept := by simp [State.kept]
@[simp] theorem State.raise_kept (s : State) (code arg0 arg1 arg2 : Nat) :
    (s.raise code arg0 arg1 arg2).kept = s.kept := by simp [State.kept]

end Sys2Proof.Machine
end

