-- ==== Sys2Proof/Laws/Ops.lean ====
section
/-! SUPPORT. What the operations of Machine/Ops.lean leave alone. -/

namespace Sys2Proof.Machine

@[simp] theorem State.setReg_keeps (s : State) (key v : Nat) :
    (State.setReg s key v).kept.part = s.kept.part ∧ (State.setReg s key v).kept.pending = s.kept.pending ∧
    (State.setReg s key v).kept.blobs = s.kept.blobs ∧ (State.setReg s key v).kept.boot = s.kept.boot ∧
    (State.setReg s key v).kept.sec = s.kept.sec ∧ (State.setReg s key v).kept.slot = s.kept.slot ∧
    (State.setReg s key v).kept.frame = s.kept.frame ∧ (State.setReg s key v).kept.txs = s.kept.txs ∧
    (State.setReg s key v).kept.ended = s.kept.ended ∧ (State.setReg s key v).kept.cache = s.kept.cache ∧
    (State.setReg s key v).kept.sram = s.kept.sram ∧ (State.setReg s key v).kept.hbm = s.kept.hbm := by
  unfold State.setReg; simp [State.fold_kept, State.kept_mk]

@[simp] theorem State.setBlob_keeps (s : State) (key : Nat) (v : List Byte) :
    (State.setBlob s key v).kept.part = s.kept.part ∧ (State.setBlob s key v).kept.pending = s.kept.pending ∧
    (State.setBlob s key v).kept.regs = s.kept.regs ∧ (State.setBlob s key v).kept.boot = s.kept.boot ∧
    (State.setBlob s key v).kept.sec = s.kept.sec ∧ (State.setBlob s key v).kept.slot = s.kept.slot ∧
    (State.setBlob s key v).kept.frame = s.kept.frame ∧ (State.setBlob s key v).kept.txs = s.kept.txs ∧
    (State.setBlob s key v).kept.ended = s.kept.ended ∧ (State.setBlob s key v).kept.cache = s.kept.cache ∧
    (State.setBlob s key v).kept.sram = s.kept.sram ∧ (State.setBlob s key v).kept.hbm = s.kept.hbm := by
  unfold State.setBlob; simp [State.fold_kept, State.kept_mk]

@[simp] theorem State.followCap_kept (s : State) :
    (State.followCap s).kept = s.kept := by
  unfold State.followCap; simp [State.fold_kept, State.kept_mk]

@[simp] theorem State.modQuad_kept (s : State) (q : Nat) (f : Quadrant → Quadrant) :
    (State.modQuad s q f).kept = s.kept := by
  unfold State.modQuad; simp [State.fold_kept, State.kept_mk]

@[simp] theorem State.modDomain_kept (s : State) (d : Nat) (f : Domain → Domain) :
    (State.modDomain s d f).kept = s.kept := by
  unfold State.modDomain; simp [State.fold_kept, State.kept_mk]

@[simp] theorem State.status_kept (s : State) (code : Nat) :
    (State.status s code).kept = s.kept := by
  unfold State.status; simp [State.fold_kept, State.kept_mk]

end Sys2Proof.Machine
end

