-- ==== Sys2Proof/Laws/Records.lean ====
section
/-! SUPPORT. What the operations of Machine/Records.lean leave alone. -/

namespace Sys2Proof.Machine

@[simp] theorem State.record_kept (s : State) (info : RecordInfo) :
    (State.record s info).kept = s.kept := by
  unfold State.record; simp [State.fold_kept, State.kept_mk]

@[simp] theorem State.correctedError_kept (s : State) (unit : Nat) (info : RecordInfo) :
    (State.correctedError s unit info).kept = s.kept := by
  unfold State.correctedError; simp [State.fold_kept, State.kept_mk]

@[simp] theorem State.taint_kept (s : State) (t : RecordInfo) :
    (State.taint s t).kept = s.kept := by
  unfold State.taint; (repeat' split) <;> simp [State.fold_kept, State.kept_mk]

@[simp] theorem State.judge_kept (s : State) (q cause source : Nat) :
    (State.judge s q cause source).kept = s.kept := by
  unfold State.judge; (repeat' split) <;> simp [State.fold_kept, State.kept_mk]

@[simp] theorem State.strike_kept (s : State) (q : Nat) (kind : StrikeKind) (source : Nat) :
    (State.strike s q kind source).kept = s.kept := by
  unfold State.strike; simp [State.fold_kept, State.kept_mk]

end Sys2Proof.Machine
end

