-- ==== Sys2Proof/Laws/Streams.lean ====
section
/-! SUPPORT. What the operations of Machine/Streams.lean leave alone. -/

namespace Sys2Proof.Machine

@[simp] theorem State.modStream_kept (s : State) (n : Nat) (f : Stream → Stream) :
    (State.modStream s n f).kept = s.kept := by
  unfold State.modStream; simp [State.fold_kept, State.kept_mk]

@[simp] theorem State.notify_kept (s : State) (x : Notice) :
    (State.notify s x).kept = s.kept := by
  unfold State.notify; simp [State.fold_kept, State.kept_mk]

@[simp] theorem State.notifyLater_kept (s : State) (x : Notice) :
    (State.notifyLater s x).kept = s.kept := by
  unfold State.notifyLater; simp [State.fold_kept, State.kept_mk]

@[simp] theorem State.freeBuffer_kept (s : State) (n : Nat) :
    (State.freeBuffer s n).kept = s.kept := by
  unfold State.freeBuffer; simp [State.fold_kept, State.kept_mk]

@[simp] theorem State.leaveTemplate_kept (s : State) (n : Nat) (x : Stream) :
    (State.leaveTemplate s n x).kept = s.kept := by
  unfold State.leaveTemplate; dsimp only; (repeat' split) <;> simp [State.fold_kept, State.kept_mk]

@[simp] theorem State.dropStream_kept (s : State) (n : Nat) :
    (State.dropStream s n).kept = s.kept := by
  unfold State.dropStream; (repeat' split) <;> simp [State.fold_kept, State.kept_mk]

@[simp] theorem State.endStream_kept (s : State) (n status : Nat) :
    (State.endStream s n status).kept = s.kept := by
  unfold State.endStream; (repeat' split) <;> simp [State.fold_kept, State.kept_mk]

@[simp] theorem State.endAll_kept (s : State) (status : Nat) :
    (State.endAll s status).kept = s.kept := by
  unfold State.endAll; simp [State.fold_kept, State.kept_mk]

@[simp] theorem State.askPark_kept (s : State) (n : Nat) :
    (State.askPark s n).kept = s.kept := by
  unfold State.askPark; simp [State.fold_kept, State.kept_mk]

@[simp] theorem State.endTurn_kept (s : State) (n : Nat) :
    (State.endTurn s n).kept = s.kept := by
  unfold State.endTurn; (repeat' split) <;> simp [State.fold_kept, State.kept_mk]

@[simp] theorem State.failTurn_kept (s : State) (n status : Nat) :
    (State.failTurn s n status).kept = s.kept := by
  unfold State.failTurn; (repeat' split) <;> simp [State.fold_kept, State.kept_mk]

@[simp] theorem State.settleEnding_kept (s : State) (n : Nat) :
    (State.settleEnding s n).kept = s.kept := by
  unfold State.settleEnding; (repeat' split) <;> simp [State.fold_kept, State.kept_mk]

@[simp] theorem State.startPark_kept (s : State) (n : Nat) :
    (State.startPark s n).kept = s.kept := by
  unfold State.startPark; (repeat' split) <;> simp [State.fold_kept, State.kept_mk]

@[simp] theorem State.startUnpark_kept (s : State) (n tag : Nat) :
    (State.startUnpark s n tag).kept = s.kept := by
  unfold State.startUnpark; simp [State.fold_kept, State.kept_mk]

end Sys2Proof.Machine
end

