-- ==== Sys2Proof/Laws/Damage.lean ====
section
/-! SUPPORT. What the operations of Machine/Damage.lean leave alone. -/

namespace Sys2Proof.Machine

@[simp] theorem State.startRefetch_kept (s : State) (epoch shard : Nat) :
    (State.startRefetch s epoch shard).kept = s.kept := by
  unfold State.startRefetch; simp [State.fold_kept, State.kept_mk]

@[simp] theorem State.breakPass_kept (s : State) :
    (State.breakPass s).kept = s.kept := by
  unfold State.breakPass; simp [State.fold_kept, State.kept_mk]

@[simp] theorem State.askReset_kept (s : State) (group source : Nat) :
    (State.askReset s group source).kept = s.kept := by
  unfold State.askReset; simp [State.fold_kept, State.kept_mk]

@[simp] theorem State.outOfService_kept (s : State) :
    (State.outOfService s).kept = s.kept := by
  unfold State.outOfService; simp [State.fold_kept, State.kept_mk]

@[simp] theorem State.detect_kept (s : State) (info : RecordInfo) :
    (State.detect s info).kept = s.kept := by
  unfold State.detect; dsimp only; (repeat' split) <;> simp [State.fold_kept, State.kept_mk]

@[simp] theorem State.sectorLost_kept (s : State) (stack mpa : Nat) (detail : List Byte) :
    (State.sectorLost s stack mpa detail).kept = s.kept := by
  unfold State.sectorLost; dsimp only; (repeat' split) <;> simp [State.fold_kept, State.kept_mk]

end Sys2Proof.Machine
end

