-- ==== Sys2Proof/Laws/Insole.lean ====
section
/-! SUPPORT. What the operations of Machine/Insole.lean leave alone. -/

namespace Sys2Proof.Machine

@[simp] theorem State.setInsole_keeps (s : State) (stack : Nat) (n : Insole) (hbm : List Host.Cell) :
    (State.setInsole s stack n hbm).kept.part = s.kept.part ∧
    (State.setInsole s stack n hbm).kept.pending = s.kept.pending ∧
    (State.setInsole s stack n hbm).kept.regs = s.kept.regs ∧ (State.setInsole s stack n hbm).kept.blobs = s.kept.blobs ∧
    (State.setInsole s stack n hbm).kept.boot = s.kept.boot ∧ (State.setInsole s stack n hbm).kept.sec = s.kept.sec ∧
    (State.setInsole s stack n hbm).kept.slot = s.kept.slot ∧ (State.setInsole s stack n hbm).kept.frame = s.kept.frame ∧
    (State.setInsole s stack n hbm).kept.txs = s.kept.txs ∧ (State.setInsole s stack n hbm).kept.ended = s.kept.ended ∧
    (State.setInsole s stack n hbm).kept.cache = s.kept.cache ∧ (State.setInsole s stack n hbm).kept.sram = s.kept.sram := by
  unfold State.setInsole; simp [State.fold_kept, State.kept_mk]

@[simp] theorem State.modInsole_kept (s : State) (stack : Nat) (f : Insole → Insole) :
    (State.modInsole s stack f).kept = s.kept := by
  unfold State.modInsole; simp [State.fold_kept, State.kept_mk]

@[simp] theorem State.failStack_kept (s : State) (stack : Nat) :
    (State.failStack s stack).kept = s.kept := by
  unfold State.failStack; simp [State.fold_kept, State.kept_mk]

@[simp] theorem State.decoded_kept (s : State) (stack mpa location : Nat) (symbols : List Byte) (d : Decoded) :
    (State.decoded s stack mpa location symbols d).2.2.kept = s.kept := by
  unfold State.decoded; (repeat' split) <;> simp [State.fold_kept, State.kept_mk]

@[simp] theorem State.protect_kept (s : State) (kind mpa group : Nat) :
    (State.protect s kind mpa group).kept = s.kept := by
  unfold State.protect; simp [State.fold_kept, State.kept_mk]

@[simp] theorem State.engineWrite_keeps (s : State) (mpa : Nat) (data : List Byte) :
    (State.engineWrite s mpa data).kept.part = s.kept.part ∧
    (State.engineWrite s mpa data).kept.pending = s.kept.pending ∧
    (State.engineWrite s mpa data).kept.regs = s.kept.regs ∧ (State.engineWrite s mpa data).kept.blobs = s.kept.blobs ∧
    (State.engineWrite s mpa data).kept.boot = s.kept.boot ∧ (State.engineWrite s mpa data).kept.sec = s.kept.sec ∧
    (State.engineWrite s mpa data).kept.slot = s.kept.slot ∧ (State.engineWrite s mpa data).kept.frame = s.kept.frame ∧
    (State.engineWrite s mpa data).kept.txs = s.kept.txs ∧ (State.engineWrite s mpa data).kept.ended = s.kept.ended ∧
    (State.engineWrite s mpa data).kept.cache = s.kept.cache ∧ (State.engineWrite s mpa data).kept.sram = s.kept.sram := by
  unfold State.engineWrite; (repeat' split) <;> simp [State.fold_kept, State.kept_mk]

@[simp] theorem State.readNow_keeps (s : State) (mpa location group : Nat) (noAllocate : Bool) :
    (State.readNow s mpa location group noAllocate).2.2.kept.part = s.kept.part ∧
    (State.readNow s mpa location group noAllocate).2.2.kept.pending = s.kept.pending ∧
    (State.readNow s mpa location group noAllocate).2.2.kept.regs = s.kept.regs ∧
    (State.readNow s mpa location group noAllocate).2.2.kept.blobs = s.kept.blobs ∧
    (State.readNow s mpa location group noAllocate).2.2.kept.boot = s.kept.boot ∧
    (State.readNow s mpa location group noAllocate).2.2.kept.sec = s.kept.sec ∧
    (State.readNow s mpa location group noAllocate).2.2.kept.slot = s.kept.slot ∧
    (State.readNow s mpa location group noAllocate).2.2.kept.frame = s.kept.frame ∧
    (State.readNow s mpa location group noAllocate).2.2.kept.txs = s.kept.txs ∧
    (State.readNow s mpa location group noAllocate).2.2.kept.ended = s.kept.ended ∧
    (State.readNow s mpa location group noAllocate).2.2.kept.cache = s.kept.cache ∧
    (State.readNow s mpa location group noAllocate).2.2.kept.sram = s.kept.sram := by
  unfold State.readNow; (repeat' split) <;> simp [State.fold_kept, State.kept_mk]

@[simp] theorem State.readBytesNow_keeps (s : State) (location : Nat) (noAllocate : Bool) (at_ : List Nat) :
    (State.readBytesNow s location noAllocate at_).2.2.kept.part = s.kept.part ∧
    (State.readBytesNow s location noAllocate at_).2.2.kept.pending = s.kept.pending ∧
    (State.readBytesNow s location noAllocate at_).2.2.kept.regs = s.kept.regs ∧
    (State.readBytesNow s location noAllocate at_).2.2.kept.blobs = s.kept.blobs ∧
    (State.readBytesNow s location noAllocate at_).2.2.kept.boot = s.kept.boot ∧
    (State.readBytesNow s location noAllocate at_).2.2.kept.sec = s.kept.sec ∧
    (State.readBytesNow s location noAllocate at_).2.2.kept.slot = s.kept.slot ∧
    (State.readBytesNow s location noAllocate at_).2.2.kept.frame = s.kept.frame ∧
    (State.readBytesNow s location noAllocate at_).2.2.kept.txs = s.kept.txs ∧
    (State.readBytesNow s location noAllocate at_).2.2.kept.ended = s.kept.ended ∧
    (State.readBytesNow s location noAllocate at_).2.2.kept.cache = s.kept.cache ∧
    (State.readBytesNow s location noAllocate at_).2.2.kept.sram = s.kept.sram := by
  unfold State.readBytesNow; dsimp only
  exact ⟨State.keeps_foldl_thd (fun t => t.kept.part) (fun p a => by simp) _ _,
    State.keeps_foldl_thd (fun t => t.kept.pending) (fun p a => by simp) _ _,
    State.keeps_foldl_thd (fun t => t.kept.regs) (fun p a => by simp) _ _,
    State.keeps_foldl_thd (fun t => t.kept.blobs) (fun p a => by simp) _ _,
    State.keeps_foldl_thd (fun t => t.kept.boot) (fun p a => by simp) _ _,
    State.keeps_foldl_thd (fun t => t.kept.sec) (fun p a => by simp) _ _,
    State.keeps_foldl_thd (fun t => t.kept.slot) (fun p a => by simp) _ _,
    State.keeps_foldl_thd (fun t => t.kept.frame) (fun p a => by simp) _ _,
    State.keeps_foldl_thd (fun t => t.kept.txs) (fun p a => by simp) _ _,
    State.keeps_foldl_thd (fun t => t.kept.ended) (fun p a => by simp) _ _,
    State.keeps_foldl_thd (fun t => t.kept.cache) (fun p a => by simp) _ _,
    State.keeps_foldl_thd (fun t => t.kept.sram) (fun p a => by simp) _ _⟩

end Sys2Proof.Machine
end

