-- ==== Sys2Proof/Laws/Signing.lean ====
section
/-! SUPPORT. What the operations of Machine/Signing.lean leave alone. -/

namespace Sys2Proof.Machine

@[simp] theorem State.verify_keeps (s : State) (what : Item) (item : List Byte) :
    (State.verify s what item).2.kept.part = s.kept.part ∧ (State.verify s what item).2.kept.pending = s.kept.pending ∧
    (State.verify s what item).2.kept.regs = s.kept.regs ∧ (State.verify s what item).2.kept.blobs = s.kept.blobs ∧
    (State.verify s what item).2.kept.boot = s.kept.boot ∧ (State.verify s what item).2.kept.slot = s.kept.slot ∧
    (State.verify s what item).2.kept.frame = s.kept.frame ∧ (State.verify s what item).2.kept.txs = s.kept.txs ∧
    (State.verify s what item).2.kept.ended = s.kept.ended ∧ (State.verify s what item).2.kept.cache = s.kept.cache ∧
    (State.verify s what item).2.kept.sram = s.kept.sram ∧ (State.verify s what item).2.kept.hbm = s.kept.hbm := by
  unfold State.verify; (repeat' split) <;> simp [State.fold_kept, State.kept_mk]

end Sys2Proof.Machine
end

