-- ==== Sys2Proof/Laws/Generators.lean ====
section
/-! SUPPORT. What the operations of Machine/Generators.lean leave alone. -/

namespace Sys2Proof.Machine

@[simp] theorem State.countPad_kept (s : State) (places : List Place) :
    (State.countPad s places).kept = s.kept := by
  unfold State.countPad; simp [State.fold_kept, State.kept_mk]

end Sys2Proof.Machine
end

