-- ==== Sys2Proof/Laws/Ports.lean ====
section
/-! SUPPORT. What the operations of Machine/Ports.lean leave alone. -/

namespace Sys2Proof.Machine

@[simp] theorem State.modStation_kept (s : State) (i : Nat) (g : StationRun → StationRun) :
    (State.modStation s i g).kept = s.kept := by
  unfold State.modStation; simp [State.fold_kept, State.kept_mk]

@[simp] theorem State.progress_kept (s : State) :
    (State.progress s).kept = s.kept := by
  unfold State.progress; simp [State.fold_kept, State.kept_mk]

@[simp] theorem State.stopGuard_kept (s : State) :
    (State.stopGuard s).kept = s.kept := by
  unfold State.stopGuard; simp [State.fold_kept, State.kept_mk]

@[simp] theorem State.resumeGuard_kept (s : State) :
    (State.resumeGuard s).kept = s.kept := by
  unfold State.resumeGuard; simp [State.fold_kept, State.kept_mk]

@[simp] theorem State.portEmit_kept (s : State) (i : Nat) :
    (State.portEmit s i).kept = s.kept := by
  unfold State.portEmit; dsimp only; (repeat' split) <;> simp [State.fold_kept, State.kept_mk]

@[simp] theorem State.askSector_kept (s : State) (i mpa : Nat) (noAllocate : Bool) :
    (State.askSector s i mpa noAllocate).1.kept = s.kept := by
  unfold State.askSector; (repeat' split) <;> simp [State.fold_kept, State.kept_mk]

@[simp] theorem State.portIssue_kept (i maxOut : Nat) (noAllocate : Bool) (x0 : Nat) (s : State) :
    (State.portIssue i maxOut noAllocate x0 s).kept = s.kept := by
  induction x0 generalizing s with
  | zero => rfl
  | succ f ih =>
    unfold State.portIssue
    (repeat' split) <;> simp [ih, State.fold_kept, State.kept_mk]

@[simp] theorem State.sendWrite_kept (i : Nat) (noAllocate : Bool) (s : State) (x : Nat × List Byte × List Byte) :
    (State.sendWrite i noAllocate s x).kept = s.kept := by
  unfold State.sendWrite; dsimp only; (repeat' split) <;> simp [State.fold_kept, State.kept_mk]

@[simp] theorem State.writeIssue_kept (i maxOut : Nat) (noAllocate : Bool) (x0 : Nat) (s : State) :
    (State.writeIssue i maxOut noAllocate x0 s).kept = s.kept := by
  induction x0 generalizing s with
  | zero => rfl
  | succ f ih =>
    unfold State.writeIssue
    (repeat' split) <;> simp [ih, State.fold_kept, State.kept_mk]

@[simp] theorem State.portAdvance_kept (s : State) (i : Nat) :
    (State.portAdvance s i).kept = s.kept := by
  unfold State.portAdvance; (repeat' split) <;> simp [State.fold_kept, State.kept_mk]

@[simp] theorem State.prepareFlit_kept (s : State) (i base k total seq : Nat) :
    (State.prepareFlit s i base k total seq).1.kept = s.kept := by
  unfold State.prepareFlit; dsimp only; (repeat' split) <;> simp [State.fold_kept, State.kept_mk]

@[simp] theorem State.prepareFlits_kept (i base total seq : Nat) (x0 : Nat) (x1 : Nat) (s : State) :
    (State.prepareFlits i base total seq x0 x1 s).1.kept = s.kept := by
  induction x0 generalizing s x1 with
  | zero => rfl
  | succ n ih => simp [State.prepareFlits, ih]

@[simp] theorem State.dirtyPages_kept (s : State) (i : Nat) (g : AddrGen) (st : StationRun) (x : Flit) :
    (State.dirtyPages s i g st x).kept = s.kept := by
  unfold State.dirtyPages; simp [State.fold_kept, State.kept_mk]

@[simp] theorem State.hbmWriteFlit_kept (s : State) (i : Nat) (x : Flit) :
    (State.hbmWriteFlit s i x).kept = s.kept := by
  unfold State.hbmWriteFlit; dsimp only; (repeat' split) <;> simp [State.fold_kept, State.kept_mk]

end Sys2Proof.Machine
end

