-- ==== Sys2Proof/Laws/Torus.lean ====
section
/-! SUPPORT. What the operations of Machine/Torus.lean leave alone. -/

namespace Sys2Proof.Machine

@[simp] theorem State.modLace_kept (s : State) (l : Nat) (f : Lace → Lace) :
    (State.modLace s l f).kept = s.kept := by
  unfold State.modLace; simp [State.fold_kept, State.kept_mk]

@[simp] theorem State.modTorus_kept (s : State) (f : Torus → Torus) :
    (State.modTorus s f).kept = s.kept := by
  unfold State.modTorus; simp [State.fold_kept, State.kept_mk]

@[simp] theorem State.freeSlots_kept (s : State) (xs : List (Nat × Nat × Bool × Nat)) :
    (State.freeSlots s xs).kept = s.kept := by
  unfold State.freeSlots; simp [State.fold_kept, State.kept_mk]

@[simp] theorem State.laceDrain_kept (s : State) (l : Nat) :
    (State.laceDrain s l).kept = s.kept := by
  unfold State.laceDrain; simp [State.fold_kept, State.kept_mk]

@[simp] theorem State.laceSend_kept (s : State) (l : Nat) (x : LaceTx) :
    (State.laceSend s l x).kept = s.kept := by
  unfold State.laceSend; simp [State.fold_kept, State.kept_mk]

@[simp] theorem State.sendControl_kept (s : State) (l : Nat) (m : ControlMsg) :
    (State.sendControl s l m).kept = s.kept := by
  unfold State.sendControl; simp [State.fold_kept, State.kept_mk]

@[simp] theorem State.flood_kept (s : State) (except_ : Nat) (m : ControlMsg) :
    (State.flood s except_ m).kept = s.kept := by
  unfold State.flood; simp [State.fold_kept, State.kept_mk]

@[simp] theorem State.oweFault_kept (s : State) (tag : Nat) :
    (State.oweFault s tag).kept = s.kept := by
  unfold State.oweFault; simp [State.fold_kept, State.kept_mk]

@[simp] theorem State.unreachable_kept (s : State) (h : PacketHeader) :
    (State.unreachable s h).kept = s.kept := by
  unfold State.unreachable; simp [State.fold_kept, State.kept_mk]

@[simp] theorem State.forward_kept (s : State) (h : PacketHeader) (flits : List Flit) (p l : Nat) (turned : Bool) (origin : Option (Nat × Nat × Bool)) :
    (State.forward s h flits p l turned origin).kept = s.kept := by
  unfold State.forward; dsimp only; split <;> simp [State.fold_kept, State.kept_mk]

@[simp] theorem State.inject_kept (s : State) (h : PacketHeader) (flits : List Flit) :
    (State.inject s h flits).kept = s.kept := by
  unfold State.inject; dsimp only; (repeat' split) <;> simp [State.fold_kept, State.kept_mk]

@[simp] theorem State.sendSync_kept (s : State) (dest op object arg : Nat) :
    (State.sendSync s dest op object arg).kept = s.kept := by
  unfold State.sendSync; simp [State.fold_kept, State.kept_mk]

@[simp] theorem State.followSpan_kept (s : State) :
    (State.followSpan s).kept = s.kept := by
  unfold State.followSpan; simp [State.fold_kept, State.kept_mk]

end Sys2Proof.Machine
end

