-- ==== Sys2Proof/Laws/SyncCore.lean ====
section
/-! SUPPORT. What the operations of Machine/SyncCore.lean leave alone. -/

namespace Sys2Proof.Machine

@[simp] theorem State.setObj_kept (s : State) (r : ObjRef) (o : SyncObj) :
    (State.setObj s r o).kept = s.kept := by
  unfold State.setObj; simp [State.fold_kept, State.kept_mk]

@[simp] theorem State.modObj_kept (s : State) (r : ObjRef) (f : SyncObj → SyncObj) :
    (State.modObj s r f).kept = s.kept := by
  unfold State.modObj; simp [State.fold_kept, State.kept_mk]

@[simp] theorem State.modPart_kept (s : State) (k : Nat) (f : Participant → Participant) :
    (State.modPart s k f).kept = s.kept := by
  unfold State.modPart; simp [State.fold_kept, State.kept_mk]

@[simp] theorem State.freeRemote_kept (s : State) (k cause : Nat) :
    (State.freeRemote s k cause).kept = s.kept := by
  unfold State.freeRemote; simp [State.fold_kept, State.kept_mk]

@[simp] theorem State.hold_kept (s : State) (k : Nat) :
    (State.hold s k).kept = s.kept := by
  unfold State.hold; simp [State.fold_kept, State.kept_mk]

@[simp] theorem State.recordRelease_kept (s : State) (k cause : Nat) :
    (State.recordRelease s k cause).kept = s.kept := by
  unfold State.recordRelease; simp [State.fold_kept, State.kept_mk]

@[simp] theorem State.endWait_kept (s : State) (r : ObjRef) (w : WaitReg) (cause : Nat) :
    (State.endWait s r w cause).kept = s.kept := by
  unfold State.endWait; simp [State.fold_kept, State.kept_mk]

@[simp] theorem State.serveWaits_kept (s : State) (r : ObjRef) :
    (State.serveWaits s r).kept = s.kept := by
  unfold State.serveWaits; simp [State.fold_kept, State.kept_mk]

@[simp] theorem State.signal_kept (s : State) (r : ObjRef) (amount : Nat) :
    (State.signal s r amount).kept = s.kept := by
  unfold State.signal; simp [State.fold_kept, State.kept_mk]

@[simp] theorem State.registerWait_kept (s : State) (r : ObjRef) (w : WaitReg) :
    (State.registerWait s r w).kept = s.kept := by
  unfold State.registerWait; simp [State.fold_kept, State.kept_mk]

@[simp] theorem State.toModules_kept (s : State) (ms : List Nat) (op : Nat) (r : ObjRef) (arg : Nat) :
    (State.toModules s ms op r arg).kept = s.kept := by
  unfold State.toModules; simp [State.fold_kept, State.kept_mk]

@[simp] theorem State.nodeStep_kept (s : State) (m : NodeMsg) (r : ObjRef) :
    (State.nodeStep s m r).1.kept = s.kept := by
  unfold State.nodeStep; dsimp only; (repeat' split) <;> simp [State.fold_kept, State.kept_mk]

@[simp] theorem State.nodes_kept (x0 : Nat) (x1 : List (NodeMsg × ObjRef)) (s : State) :
    (State.nodes x0 x1 s).kept = s.kept := by
  induction x0 generalizing s x1 with
  | zero => rfl
  | succ f ih =>
    cases x1 with
    | nil => rfl
    | cons e ms => simp [State.nodes, ih]

@[simp] theorem State.nodeMsg_kept (s : State) (m : NodeMsg) (r : ObjRef) :
    (State.nodeMsg s m r).kept = s.kept := by
  unfold State.nodeMsg; simp [State.fold_kept, State.kept_mk]

@[simp] theorem State.ownerLost_kept (s : State) (rs : List ObjRef) :
    (State.ownerLost s rs).kept = s.kept := by
  unfold State.ownerLost; simp [State.fold_kept, State.kept_mk]

@[simp] theorem State.spanBroken_kept (s : State) (tag : Nat) :
    (State.spanBroken s tag).kept = s.kept := by
  unfold State.spanBroken; simp [State.fold_kept, State.kept_mk]

@[simp] theorem State.settleFault_kept (s : State) (tag : Nat) :
    (State.settleFault s tag).kept = s.kept := by
  unfold State.settleFault; simp [State.fold_kept, State.kept_mk]

@[simp] theorem State.settleFaults_kept (x0 : Nat) (s : State) :
    (State.settleFaults x0 s).kept = s.kept := by
  induction x0 generalizing s with
  | zero => rfl
  | succ f ih =>
    unfold State.settleFaults
    split <;> simp [ih]

@[simp] theorem State.torusDone_kept (s : State) :
    (State.torusDone s).kept = s.kept := by
  unfold State.torusDone; simp [State.fold_kept, State.kept_mk]

@[simp] theorem State.memberLost_kept (s : State) (m : Nat) :
    (State.memberLost s m).kept = s.kept := by
  unfold State.memberLost; dsimp only; (repeat' split) <;> simp [State.fold_kept, State.kept_mk]

@[simp] theorem State.bindPair_kept (s : State) (step cls : Nat) (m : Image) :
    (State.bindPair s step cls m).kept = s.kept := by
  unfold State.bindPair; (repeat' split) <;> simp [State.fold_kept, State.kept_mk]

@[simp] theorem State.releasePair_kept (s : State) (step : Nat) :
    (State.releasePair s step).kept = s.kept := by
  unfold State.releasePair; (repeat' split) <;> simp [State.fold_kept, State.kept_mk]

@[simp] theorem State.loseStep_kept (s : State) (step : Nat) :
    (State.loseStep s step).kept = s.kept := by
  unfold State.loseStep; (repeat' split) <;> simp [State.fold_kept, State.kept_mk]

end Sys2Proof.Machine
end

