-- ==== Sys2Proof/Laws/DispatchCore.lean ====
section
/-! SUPPORT. What the operations of Machine/DispatchCore.lean leave alone. -/

namespace Sys2Proof.Machine

@[simp] theorem State.modDsp_kept (s : State) (f : Dispatch → Dispatch) :
    (State.modDsp s f).kept = s.kept := by
  unfold State.modDsp; simp [State.fold_kept, State.kept_mk]

@[simp] theorem State.modUplink_kept (s : State) (u : Nat) (f : Uplink → Uplink) :
    (State.modUplink s u f).kept = s.kept := by
  unfold State.modUplink; simp [State.fold_kept, State.kept_mk]

@[simp] theorem State.dspSend_kept (s : State) (sw dest type : Nat) (m : DispatchMsg) :
    (State.dspSend s sw dest type m).kept = s.kept := by
  unfold State.dspSend; (repeat' split) <;> simp [State.fold_kept, State.kept_mk]

@[simp] theorem State.dspTo_kept (s : State) (host type : Nat) (m : DispatchMsg) :
    (State.dspTo s host type m).kept = s.kept := by
  unfold State.dspTo; (repeat' split) <;> simp [State.fold_kept, State.kept_mk]

@[simp] theorem State.dspAnswer_kept (s : State) (uplink host type : Nat) (m : DispatchMsg) :
    (State.dspAnswer s uplink host type m).kept = s.kept := by
  unfold State.dspAnswer; simp [State.fold_kept, State.kept_mk]

@[simp] theorem State.cancelBatch_kept (s : State) (keep : Bool) :
    (State.cancelBatch s keep).kept = s.kept := by
  unfold State.cancelBatch; (repeat' split) <;> simp [State.fold_kept, State.kept_mk]

@[simp] theorem State.voidBatch_kept (s : State) :
    (State.voidBatch s).kept = s.kept := by
  unfold State.voidBatch; simp [State.fold_kept, State.kept_mk]

end Sys2Proof.Machine
end

