-- ==== Sys2Proof/Laws/Steps.lean ====
section
/-! SUPPORT. What the operations of Machine/Steps.lean leave alone. -/

namespace Sys2Proof.Machine

@[simp] theorem State.recostPlan_kept (s : State) (fence : Bool) :
    (State.recostPlan s fence).kept = s.kept := by
  unfold State.recostPlan; simp [State.fold_kept, State.kept_mk]

@[simp] theorem State.modStep_kept (s : State) (n : Nat) (f : StepRun → StepRun) :
    (State.modStep s n f).kept = s.kept := by
  unfold State.modStep; simp [State.fold_kept, State.kept_mk]

@[simp] theorem State.dropStep_kept (s : State) (n : Nat) :
    (State.dropStep s n).kept = s.kept := by
  unfold State.dropStep; simp [State.fold_kept, State.kept_mk]

@[simp] theorem State.dropRowsOf_kept (s : State) (gone : Nat → Nat → Bool) :
    (State.dropRowsOf s gone).kept = s.kept := by
  unfold State.dropRowsOf; dsimp only; (repeat' split) <;> simp [State.fold_kept, State.kept_mk]

@[simp] theorem State.failStep_kept (s : State) (n : Nat) :
    (State.failStep s n).kept = s.kept := by
  unfold State.failStep; (repeat' split) <;> simp [State.fold_kept, State.kept_mk]

@[simp] theorem State.rerunStep_kept (s : State) (n : Nat) (f : PlanEntry → PlanEntry) :
    (State.rerunStep s n f).kept = s.kept := by
  unfold State.rerunStep; (repeat' split) <;> simp [State.fold_kept, State.kept_mk]

@[simp] theorem State.rerunOwn_kept (s : State) (n : Nat) :
    (State.rerunOwn s n).kept = s.kept := by
  unfold State.rerunOwn; simp [State.fold_kept, State.kept_mk]

@[simp] theorem State.rerunSafe_kept (s : State) (n last : Nat) :
    (State.rerunSafe s n last).kept = s.kept := by
  unfold State.rerunSafe; (repeat' split) <;> simp [State.fold_kept, State.kept_mk]

@[simp] theorem State.closeStrikes_kept (s : State) (step actions : Nat) :
    (State.closeStrikes s step actions).kept = s.kept := by
  unfold State.closeStrikes; simp [State.fold_kept, State.kept_mk]

@[simp] theorem State.taintRecords_kept (s : State) (causes : List RecordInfo) (step actions groups : Nat) :
    (State.taintRecords s causes step actions groups).kept = s.kept := by
  unfold State.taintRecords; simp [State.fold_kept, State.kept_mk]

@[simp] theorem State.settlePass_kept (s : State) (p : PassRun) (voided failed : Bool) :
    (State.settlePass s p voided failed).kept = s.kept := by
  unfold State.settlePass; simp [State.fold_kept, State.kept_mk]

@[simp] theorem State.failGroups_kept (s : State) (n : Nat) (gs : List Nat) :
    (State.failGroups s n gs).kept = s.kept := by
  unfold State.failGroups; simp [State.fold_kept, State.kept_mk]

@[simp] theorem State.endPass_kept (s : State) (p : PassRun) :
    (State.endPass s p).kept = s.kept := by
  unfold State.endPass; simp [State.fold_kept, State.kept_mk]

@[simp] theorem State.dropRows_kept (s : State) (gone : Nat → Bool) :
    (State.dropRows s gone).kept = s.kept := by
  unfold State.dropRows; simp [State.fold_kept, State.kept_mk]

end Sys2Proof.Machine
end

