-- ==== Sys2Proof/Laws/Admission.lean ====
section
/-! SUPPORT. What the operations of Machine/Admission.lean leave alone. -/

namespace Sys2Proof.Machine

@[simp] theorem State.adopt_kept (s : State) (n : Nat) (g : Grant) :
    (State.adopt s n g).kept = s.kept := by
  unfold State.adopt; simp [State.fold_kept, State.kept_mk]

@[simp] theorem State.retemplate_kept (s : State) :
    (State.retemplate s).kept = s.kept := by
  unfold State.retemplate; (repeat' split) <;> simp [State.fold_kept, State.kept_mk]

@[simp] theorem State.setClass_kept (s : State) (n cls : Nat) (cause : Option Nat) :
    (State.setClass s n cls cause).kept = s.kept := by
  unfold State.setClass; simp [State.fold_kept, State.kept_mk]

@[simp] theorem State.downgrade_kept (s : State) (ns : List Nat) (cause : Nat) :
    (State.downgrade s ns cause).kept = s.kept := by
  unfold State.downgrade; simp [State.fold_kept, State.kept_mk]

@[simp] theorem State.readmit_kept (s : State) (cause : Nat) :
    (State.readmit s cause).kept = s.kept := by
  unfold State.readmit
  split
  · simp [State.fold_kept, State.kept_mk]
  · dsimp only
    split
    · simp [State.fold_kept, State.kept_mk]
    · rw [State.downgrade_kept, State.kept_foldl_fst]
      · simp [State.fold_kept, State.kept_mk]
      · intro p a
        (repeat' split) <;> simp [State.fold_kept, State.kept_mk]

@[simp] theorem State.restore_kept (s : State) :
    (State.restore s).kept = s.kept := by
  unfold State.restore
  split
  · rfl
  · split
    · rfl
    · dsimp only
      rw [State.kept_foldl (by simp), State.kept_foldl_fst]
      intro p a
      (repeat' split) <;> simp [State.fold_kept, State.kept_mk]

@[simp] theorem State.releaseReservations_kept (s : State) :
    (State.releaseReservations s).kept = s.kept := by
  unfold State.releaseReservations; simp [State.fold_kept, State.kept_mk]

end Sys2Proof.Machine
end

