-- ==== Sys2Proof/Laws/FabricCore.lean ====
section
/-! SUPPORT. What the operations of Machine/FabricCore.lean leave alone. -/

namespace Sys2Proof.Machine

@[simp] theorem State.tileError_kept (s : State) (source loc : Nat) :
    (State.tileError s source loc).kept = s.kept := by
  unfold State.tileError; simp [State.fold_kept, State.kept_mk]

@[simp] theorem State.spillStore_keeps (s : State) (tile base depth n : Nat) (x : Flit) :
    (State.spillStore s tile base depth n x).kept.part = s.kept.part ∧
    (State.spillStore s tile base depth n x).kept.pending = s.kept.pending ∧
    (State.spillStore s tile base depth n x).kept.regs = s.kept.regs ∧
    (State.spillStore s tile base depth n x).kept.blobs = s.kept.blobs ∧
    (State.spillStore s tile base depth n x).kept.boot = s.kept.boot ∧
    (State.spillStore s tile base depth n x).kept.sec = s.kept.sec ∧
    (State.spillStore s tile base depth n x).kept.slot = s.kept.slot ∧
    (State.spillStore s tile base depth n x).kept.frame = s.kept.frame ∧
    (State.spillStore s tile base depth n x).kept.txs = s.kept.txs ∧
    (State.spillStore s tile base depth n x).kept.ended = s.kept.ended ∧
    (State.spillStore s tile base depth n x).kept.cache = s.kept.cache ∧
    (State.spillStore s tile base depth n x).kept.hbm = s.kept.hbm := by
  unfold State.spillStore; simp [State.fold_kept, State.kept_mk]

@[simp] theorem State.spillIn_keeps (s : State) (i : Nat) :
    (State.spillIn s i).kept.part = s.kept.part ∧ (State.spillIn s i).kept.pending = s.kept.pending ∧
    (State.spillIn s i).kept.regs = s.kept.regs ∧ (State.spillIn s i).kept.blobs = s.kept.blobs ∧
    (State.spillIn s i).kept.boot = s.kept.boot ∧ (State.spillIn s i).kept.sec = s.kept.sec ∧
    (State.spillIn s i).kept.slot = s.kept.slot ∧ (State.spillIn s i).kept.frame = s.kept.frame ∧
    (State.spillIn s i).kept.txs = s.kept.txs ∧ (State.spillIn s i).kept.ended = s.kept.ended ∧
    (State.spillIn s i).kept.cache = s.kept.cache ∧ (State.spillIn s i).kept.hbm = s.kept.hbm := by
  unfold State.spillIn; dsimp only; split <;> simp [State.fold_kept, State.kept_mk]

@[simp] theorem State.spillQueueIn_keeps (s : State) (queue : Nat) :
    (State.spillQueueIn s queue).kept.part = s.kept.part ∧
    (State.spillQueueIn s queue).kept.pending = s.kept.pending ∧
    (State.spillQueueIn s queue).kept.regs = s.kept.regs ∧ (State.spillQueueIn s queue).kept.blobs = s.kept.blobs ∧
    (State.spillQueueIn s queue).kept.boot = s.kept.boot ∧ (State.spillQueueIn s queue).kept.sec = s.kept.sec ∧
    (State.spillQueueIn s queue).kept.slot = s.kept.slot ∧ (State.spillQueueIn s queue).kept.frame = s.kept.frame ∧
    (State.spillQueueIn s queue).kept.txs = s.kept.txs ∧ (State.spillQueueIn s queue).kept.ended = s.kept.ended ∧
    (State.spillQueueIn s queue).kept.cache = s.kept.cache ∧ (State.spillQueueIn s queue).kept.hbm = s.kept.hbm := by
  unfold State.spillQueueIn; (repeat' split) <;> simp [State.fold_kept, State.kept_mk]

@[simp] theorem execFlitDelivered_keeps (cyc queue : Nat) (ecc : EccEvent) (s : State) :
    (outcomeState s (execFlitDelivered cyc queue ecc s)).kept.part = s.kept.part ∧
    (outcomeState s (execFlitDelivered cyc queue ecc s)).kept.pending = s.kept.pending ∧
    (outcomeState s (execFlitDelivered cyc queue ecc s)).kept.regs = s.kept.regs ∧
    (outcomeState s (execFlitDelivered cyc queue ecc s)).kept.blobs = s.kept.blobs ∧
    (outcomeState s (execFlitDelivered cyc queue ecc s)).kept.boot = s.kept.boot ∧
    (outcomeState s (execFlitDelivered cyc queue ecc s)).kept.sec = s.kept.sec ∧
    (outcomeState s (execFlitDelivered cyc queue ecc s)).kept.slot = s.kept.slot ∧
    (outcomeState s (execFlitDelivered cyc queue ecc s)).kept.frame = s.kept.frame ∧
    (outcomeState s (execFlitDelivered cyc queue ecc s)).kept.txs = s.kept.txs ∧
    (outcomeState s (execFlitDelivered cyc queue ecc s)).kept.ended = s.kept.ended ∧
    (outcomeState s (execFlitDelivered cyc queue ecc s)).kept.cache = s.kept.cache ∧
    (outcomeState s (execFlitDelivered cyc queue ecc s)).kept.hbm = s.kept.hbm := by
  unfold execFlitDelivered; dsimp only; (repeat' split) <;> simp [State.fold_kept, State.kept_mk]

@[simp] theorem execCreditReturned_kept (queue : Nat) (s : State) :
    (outcomeState s (execCreditReturned queue s)).kept = s.kept := by
  unfold execCreditReturned; (repeat' split) <;> simp [State.fold_kept, State.kept_mk]

@[simp] theorem State.capture_kept (s : State) (cause : Nat) :
    (State.capture s cause).kept = s.kept := by
  unfold State.capture; simp [State.fold_kept, State.kept_mk]

@[simp] theorem execFabSnapRelease_kept (value : Nat) (s : State) :
    (outcomeState s (execFabSnapRelease value s)).kept = s.kept := by
  unfold execFabSnapRelease; (repeat' split) <;> simp [State.fold_kept, State.kept_mk]

@[simp] theorem State.cancelReads_kept (s : State) :
    (State.cancelReads s).kept = s.kept := by
  unfold State.cancelReads; simp [State.fold_kept, State.kept_mk]

@[simp] theorem State.startVoid_kept (s : State) (cause : Nat) :
    (State.startVoid s cause).kept = s.kept := by
  unfold State.startVoid; simp [State.fold_kept, State.kept_mk]

@[simp] theorem State.stallSafe_kept (s : State) (r : PassRun) (quads : List Nat) :
    (State.stallSafe s r quads).kept = s.kept := by
  unfold State.stallSafe; simp [State.fold_kept, State.kept_mk]

@[simp] theorem State.stall_kept (s : State) (cause : Nat) :
    (State.stall s cause).kept = s.kept := by
  unfold State.stall; (repeat' split) <;> simp [State.fold_kept, State.kept_mk]

@[simp] theorem execFabricStall_kept (cyc : Nat) (s : State) :
    (outcomeState s (execFabricStall cyc s)).kept = s.kept := by
  unfold execFabricStall; (repeat' split) <;> simp [State.fold_kept, State.kept_mk]

@[simp] theorem State.voidedPass_kept (s : State) (r : PassRun) :
    (State.voidedPass s r).kept = s.kept := by
  unfold State.voidedPass; simp [State.fold_kept, State.kept_mk]

@[simp] theorem State.residue_kept (s : State) (r : PassRun) (n : Nat) :
    (State.residue s r n).kept = s.kept := by
  unfold State.residue; simp [State.fold_kept, State.kept_mk]

@[simp] theorem State.startSwap_kept (s : State) (n : Nat) :
    (State.startSwap s n).kept = s.kept := by
  unfold State.startSwap; simp [State.fold_kept, State.kept_mk]

@[simp] theorem State.endSwap_kept (s : State) (n : Nat) :
    (State.endSwap s n).kept = s.kept := by
  unfold State.endSwap; dsimp only; (repeat' split) <;> simp [State.fold_kept, State.kept_mk]

@[simp] theorem execQueueSample_kept (cyc : Nat) (s : State) :
    (outcomeState s (execQueueSample cyc s)).kept = s.kept := by
  unfold execQueueSample; (repeat' split) <;> simp [State.fold_kept, State.kept_mk]

@[simp] theorem State.mismatch_kept (s : State) (op : MatmulOp) (loc : Nat) (m : MatmulRun) (c : Comparison) :
    (State.mismatch s op loc m c).kept = s.kept := by
  unfold State.mismatch; simp [State.fold_kept, State.kept_mk]

@[simp] theorem execChecksumCompare_kept (cyc : Nat) (c : Comparison) (s : State) :
    (outcomeState s (execChecksumCompare cyc c s)).kept = s.kept := by
  unfold execChecksumCompare; dsimp only; (repeat' split) <;> simp [State.fold_kept, State.kept_mk]

@[simp] theorem execMxeRecRelease_kept (value : Nat) (s : State) :
    (outcomeState s (execMxeRecRelease value s)).kept = s.kept := by
  unfold execMxeRecRelease; (repeat' split) <;> simp [State.fold_kept, State.kept_mk]

end Sys2Proof.Machine
end

