-- ==== Sys2Proof/Laws/HostLink.lean ====
section
/-! SUPPORT. What the operations of Machine/HostLink.lean leave alone. -/

namespace Sys2Proof.Machine

@[simp] theorem State.modModule_kept (s : State) (m : Nat) (f : UcieModule → UcieModule) :
    (State.modModule s m f).kept = s.kept := by
  unfold State.modModule; simp [State.fold_kept, State.kept_mk]

@[simp] theorem State.unseal_kept (s : State) (step : Nat) :
    (State.unseal s step).kept = s.kept := by
  unfold State.unseal; (repeat' split) <;> simp [State.fold_kept, State.kept_mk]

@[simp] theorem State.loseEvent_kept (s : State) :
    (State.loseEvent s).kept = s.kept := by
  unfold State.loseEvent; simp [State.fold_kept, State.kept_mk]

@[simp] theorem State.stationWrote_kept (s : State) (i : Nat) :
    (State.stationWrote s i).kept = s.kept := by
  unfold State.stationWrote; simp [State.fold_kept, State.kept_mk]

@[simp] theorem State.hostFailed_kept (s : State) (a : HostAccess) :
    (State.hostFailed s a).kept = s.kept := by
  unfold State.hostFailed; (repeat' split) <;> simp [State.fold_kept, State.kept_mk]

@[simp] theorem State.refuseAccess_kept (s : State) (a : HostAccess) :
    (State.refuseAccess s a).kept = s.kept := by
  unfold State.refuseAccess; simp [State.fold_kept, State.kept_mk]

@[simp] theorem State.hostRefused_kept (s : State) (a : HostAccess) :
    (State.hostRefused s a).kept = s.kept := by
  unfold State.hostRefused; simp [State.fold_kept, State.kept_mk]

@[simp] theorem State.indexRead_kept (s : State) (w o : Nat) (f : State → State) (h : ∀ t, (f t).kept = t.kept) :
    (State.indexRead s w o f).kept = s.kept := by
  unfold State.indexRead; dsimp only; split <;> simp [h]

@[simp] theorem State.hostTranslated_kept (s : State) (a : HostAccess) (e : BitVec 64) :
    (State.hostTranslated s a e).kept = s.kept := by
  unfold State.hostTranslated; (repeat' split) <;> simp [State.fold_kept, State.kept_mk]

@[simp] theorem State.hostTranslate_kept (s : State) (a : HostAccess) :
    (State.hostTranslate s a).kept = s.kept := by
  unfold State.hostTranslate; dsimp only; (repeat' split) <;> simp [State.fold_kept, State.kept_mk]

@[simp] theorem State.hostIssue_kept (s : State) (a : HostAccess) :
    (State.hostIssue s a).kept = s.kept := by
  unfold State.hostIssue; (repeat' split) <;> simp [State.fold_kept, State.kept_mk]

@[simp] theorem State.pump_kept (s : State) :
    (State.pump s).kept = s.kept := by
  unfold State.pump; (repeat' split) <;> simp [State.fold_kept, State.kept_mk]

@[simp] theorem State.chain_kept (s : State) (ws : List HostAccess) :
    (State.chain s ws).kept = s.kept := by
  unfold State.chain; simp [State.fold_kept, State.kept_mk]

@[simp] theorem State.chainDone_kept (s : State) :
    (State.chainDone s).kept = s.kept := by
  unfold State.chainDone; simp [State.fold_kept, State.kept_mk]

@[simp] theorem State.endRead_kept (s : State) :
    (State.endRead s).kept = s.kept := by
  unfold State.endRead; simp [State.fold_kept, State.kept_mk]

@[simp] theorem State.translationDone_kept (s : State) (die entry : Nat) (e : BitVec 64) :
    (State.translationDone s die entry e).kept = s.kept := by
  unfold State.translationDone; simp [State.fold_kept, State.kept_mk]

@[simp] theorem State.hostDone_kept (s : State) (a : HostAccess) (address : Nat) (data : List Byte) :
    (State.hostDone s a address data).kept = s.kept := by
  unfold State.hostDone; (repeat' split) <;> simp [State.fold_kept, State.kept_mk]

@[simp] theorem State.hostLost_kept (s : State) (a : HostAccess) :
    (State.hostLost s a).kept = s.kept := by
  unfold State.hostLost; (repeat' split) <;> simp [State.fold_kept, State.kept_mk]

@[simp] theorem State.finishOp_kept (s : State) (result : Nat) :
    (State.finishOp s result).kept = s.kept := by
  unfold State.finishOp; simp [State.fold_kept, State.kept_mk]

@[simp] theorem State.loseBundle_kept (s : State) :
    (State.loseBundle s).kept = s.kept := by
  unfold State.loseBundle; (repeat' split) <;> simp [State.fold_kept, State.kept_mk]

@[simp] theorem State.linkDown_kept (s : State) :
    (State.linkDown s).kept = s.kept := by
  unfold State.linkDown; simp [State.fold_kept, State.kept_mk]

@[simp] theorem State.linkState_kept (s : State) :
    (State.linkState s).kept = s.kept := by
  unfold State.linkState; simp [State.fold_kept, State.kept_mk]

@[simp] theorem State.failModule_kept (s : State) (m : Nat) (next : UcieState) :
    (State.failModule s m next).kept = s.kept := by
  unfold State.failModule; simp [State.fold_kept, State.kept_mk]

@[simp] theorem State.moduleDown_kept (s : State) (m : Nat) :
    (State.moduleDown s m).kept = s.kept := by
  unfold State.moduleDown; simp [State.fold_kept, State.kept_mk]

@[simp] theorem State.protocolError_kept (s : State) (m : Nat) :
    (State.protocolError s m).kept = s.kept := by
  unfold State.protocolError; simp [State.fold_kept, State.kept_mk]

@[simp] theorem execReadData_kept (cyc module tag status : Nat) (poison final : Bool) (data : List Byte) (s : State) :
    (outcomeState s (execReadData cyc module tag status poison final data s)).kept = s.kept := by
  unfold execReadData; (repeat' split) <;> simp [State.fold_kept, State.kept_mk]

@[simp] theorem execWriteAck_kept (cyc module tag status : Nat) (s : State) :
    (outcomeState s (execWriteAck cyc module tag status s)).kept = s.kept := by
  unfold execWriteAck; (repeat' split) <;> simp [State.fold_kept, State.kept_mk]

@[simp] theorem execHostReadTimeout_kept (cyc module tag : Nat) (s : State) :
    (outcomeState s (execHostReadTimeout cyc module tag s)).kept = s.kept := by
  unfold execHostReadTimeout; (repeat' split) <;> simp [State.fold_kept, State.kept_mk]

@[simp] theorem execHostWriteTimeout_kept (cyc module tag : Nat) (s : State) :
    (outcomeState s (execHostWriteTimeout cyc module tag s)).kept = s.kept := by
  unfold execHostWriteTimeout; (repeat' split) <;> simp [State.fold_kept, State.kept_mk]

@[simp] theorem execUcieCredit_kept (cyc module headers chunks : Nat) (s : State) :
    (outcomeState s (execUcieCredit cyc module headers chunks s)).kept = s.kept := by
  unfold execUcieCredit; (repeat' split) <;> simp [State.fold_kept, State.kept_mk]

@[simp] theorem execUcieTrainingComplete_kept (cyc module : Nat) (success : Bool) (speed repaired : Nat) (s : State) :
    (outcomeState s (execUcieTrainingComplete cyc module success speed repaired s)).kept = s.kept := by
  unfold execUcieTrainingComplete; (repeat' split) <;> simp [State.fold_kept, State.kept_mk]

@[simp] theorem execUcieTrainingRetry_kept (module : Nat) (s : State) :
    (outcomeState s (execUcieTrainingRetry module s)).kept = s.kept := by
  unfold execUcieTrainingRetry; (repeat' split) <;> simp [State.fold_kept, State.kept_mk]

@[simp] theorem execUcieCrcError_kept (cyc module : Nat) (recovered : Bool) (s : State) :
    (outcomeState s (execUcieCrcError cyc module recovered s)).kept = s.kept := by
  unfold execUcieCrcError; (repeat' split) <;> simp [State.fold_kept, State.kept_mk]

@[simp] theorem execUcieRetrainComplete_kept (cyc module : Nat) (success : Bool) (repaired : Nat) (s : State) :
    (outcomeState s (execUcieRetrainComplete cyc module success repaired s)).kept = s.kept := by
  unfold execUcieRetrainComplete; (repeat' split) <;> simp [State.fold_kept, State.kept_mk]

@[simp] theorem execUcieProtocolError_kept (cyc module : Nat) (s : State) :
    (outcomeState s (execUcieProtocolError cyc module s)).kept = s.kept := by
  unfold execUcieProtocolError; (repeat' split) <;> simp [State.fold_kept, State.kept_mk]

@[simp] theorem execHostDieReset_kept (cyc : Nat) (s : State) :
    (outcomeState s (execHostDieReset cyc s)).kept = s.kept := by
  unfold execHostDieReset; (repeat' split) <;> simp [State.fold_kept, State.kept_mk]

@[simp] theorem State.linkOff_kept (s : State) :
    (State.linkOff s).kept = s.kept := by
  unfold State.linkOff; simp [State.fold_kept, State.kept_mk]

@[simp] theorem State.linkOn_kept (s : State) :
    (State.linkOn s).kept = s.kept := by
  unfold State.linkOn; simp [State.fold_kept, State.kept_mk]

@[simp] theorem State.apertureFault_kept (s : State) (m offset : Nat) (r : WinReply) :
    (State.apertureFault s m offset r).kept = s.kept := by
  unfold State.apertureFault; simp [State.fold_kept, State.kept_mk]

@[simp] theorem execWinWrite_kept (cyc module tag offset headSkip tailSkip : Nat) (data : List Byte) (s : State) :
    (outcomeState s (execWinWrite cyc module tag offset headSkip tailSkip data s)).kept = s.kept := by
  unfold execWinWrite; (repeat' split) <;> simp [State.fold_kept, State.kept_mk]

@[simp] theorem execWinRead_kept (cyc module tag offset chunks : Nat) (s : State) :
    (outcomeState s (execWinRead cyc module tag offset chunks s)).kept = s.kept := by
  unfold execWinRead; dsimp only; (repeat' split) <;> simp [State.fold_kept, State.kept_mk]

@[simp] theorem State.attDrop_kept (s : State) (w : Nat) :
    (State.attDrop s w).kept = s.kept := by
  unfold State.attDrop; simp [State.fold_kept, State.kept_mk]

@[simp] theorem execAttInvalidate_keeps (value : Nat) (s : State) :
    (outcomeState s (execAttInvalidate value s)).kept.part = s.kept.part ∧
    (outcomeState s (execAttInvalidate value s)).kept.pending = s.kept.pending ∧
    (outcomeState s (execAttInvalidate value s)).kept.blobs = s.kept.blobs ∧
    (outcomeState s (execAttInvalidate value s)).kept.boot = s.kept.boot ∧
    (outcomeState s (execAttInvalidate value s)).kept.sec = s.kept.sec ∧
    (outcomeState s (execAttInvalidate value s)).kept.slot = s.kept.slot ∧
    (outcomeState s (execAttInvalidate value s)).kept.frame = s.kept.frame ∧
    (outcomeState s (execAttInvalidate value s)).kept.txs = s.kept.txs ∧
    (outcomeState s (execAttInvalidate value s)).kept.ended = s.kept.ended ∧
    (outcomeState s (execAttInvalidate value s)).kept.cache = s.kept.cache ∧
    (outcomeState s (execAttInvalidate value s)).kept.sram = s.kept.sram ∧
    (outcomeState s (execAttInvalidate value s)).kept.hbm = s.kept.hbm := by
  unfold execAttInvalidate; (repeat' split) <;> simp [State.fold_kept, State.kept_mk]

@[simp] theorem execAttInvalidateComplete_kept (s : State) :
    (outcomeState s (execAttInvalidateComplete s)).kept = s.kept := by
  unfold execAttInvalidateComplete; (repeat' split) <;> simp [State.fold_kept, State.kept_mk]

end Sys2Proof.Machine
end

