-- ==== Sys2Proof/Laws/Plan.lean ====
section
/-! SUPPORT. What the operations of Machine/Plan.lean leave alone. -/

namespace Sys2Proof.Machine

@[simp] theorem State.holdFull_kept (s : State) :
    (State.holdFull s).kept = s.kept := by
  unfold State.holdFull; simp [State.fold_kept, State.kept_mk]

@[simp] theorem State.acceptTurn_kept (s : State) (n : Nat) :
    (State.acceptTurn s n).kept = s.kept := by
  unfold State.acceptTurn; simp [State.fold_kept, State.kept_mk]

@[simp] theorem State.tailTurns_kept (s : State) (rows : List PassRow) :
    (State.tailTurns s rows).kept = s.kept := by
  unfold State.tailTurns
  refine State.keeps_foldl State.kept (fun t r => ?_) _ _
  (repeat' split) <;> simp

/-- Pages given to a pass change nothing that `Kept` holds. -/
theorem State.allocPages_kept {s t : State} {n upTo : Nat} (h : s.allocPages n upTo = some t) :
    t.kept = s.kept := by
  have fold : ∀ (f : Option State → Nat → Option State)
      (_ : ∀ o a u, f o a = some u → ∃ v, o = some v ∧ u.kept = v.kept) (l : List Nat) (o : Option State) (u : State),
      l.foldl f o = some u → ∃ v, o = some v ∧ u.kept = v.kept := by
    intro f hf l
    induction l with
    | nil => exact fun o u hu => ⟨u, hu, rfl⟩
    | cons a l ih =>
      intro o u hu
      obtain ⟨v, hv, e⟩ := ih _ _ hu
      obtain ⟨w, hw, e'⟩ := hf o a v hv
      exact ⟨w, hw, e.trans e'⟩
  unfold State.allocPages at h
  split at h
  · cases h; rfl
  · obtain ⟨v, hv, e⟩ := fold _ (by
      intro o a u hu
      cases o with
      | none => simp at hu
      | some v =>
        refine ⟨v, rfl, ?_⟩
        simp only [Option.bind_some] at hu
        split at hu
        · split at hu
          · cases hu; rfl
          · cases hu
        · split at hu
          · cases hu
          · cases hu; simp [State.fold_kept, State.kept_mk]) _ _ _ h
    cases hv
    exact e

theorem State.entryOf_kept {s t : State} {epoch : Nat} {p : Proposal} {e : PlanEntry}
    (h : s.entryOf epoch p = some (t, e)) : t.kept = s.kept := by
  have alloc : ∀ (up : PassRow → Nat) (l : List PassRow) (o : Option State) (u : State),
      l.foldl (fun (o : Option State) r => o.bind fun t => t.allocPages r.stream (up r)) o = some u →
        ∃ v, o = some v ∧ u.kept = v.kept := by
    intro up l
    induction l with
    | nil => exact fun o u hu => ⟨u, hu, rfl⟩
    | cons a l ih =>
      intro o u hu
      obtain ⟨v, hv, e⟩ := ih _ _ hu
      cases o with
      | none => simp at hv
      | some w => exact ⟨w, rfl, e.trans (State.allocPages_kept (by simpa using hv))⟩
  unfold State.entryOf at h
  dsimp only at h
  split at h
  · cases h
  · split at h
    · split at h
      · cases h
      · split at h
        · cases h
        · obtain ⟨u, hu, he⟩ := Option.map_eq_some_iff.mp h
          obtain ⟨v, hv, k⟩ := alloc _ _ _ _ hu
          cases hv
          cases he
          rw [← k]
          simp [State.fold_kept, State.kept_mk]
    · cases h

theorem State.passEntry_kept {s t : State} {tail : Bool} {p : Proposal} {e : PlanEntry}
    (h : s.passEntry tail p = some (t, e)) : t.kept = s.kept := by
  unfold State.passEntry at h
  split at h
  · split at h
    · unfold State.poolEntry at h
      split at h
      · cases h
      · dsimp only at h
        split at h
        · obtain ⟨e', _, he⟩ := Option.map_eq_some_iff.mp h
          cases he; rfl
        · cases h
    · cases h
  · refine (State.entryOf_kept h).trans ?_
    split <;> simp

@[simp] theorem State.putEntry_kept (s : State) (tail : Bool) (e : PlanEntry) :
    (State.putEntry s tail e).kept = s.kept := by
  unfold State.putEntry; dsimp only; (repeat' split) <;> simp [State.fold_kept, State.kept_mk]

@[simp] theorem State.tryProposal_kept (s : State) (tail : Bool) (p : Proposal) :
    (State.tryProposal s tail p).kept = s.kept := by
  unfold State.tryProposal
  dsimp only
  split
  iterate 2
    · split
      · rfl
      · split
        · rename_i h
          split
          · simpa using State.passEntry_kept h
          · rfl
        · rfl
  · (repeat' split) <;> simp [State.fold_kept, State.kept_mk]
  · rfl

@[simp] theorem State.placeOld_kept (s : State) (e : PlanEntry) :
    (State.placeOld s e).kept = s.kept := by
  unfold State.placeOld; (repeat' split) <;> simp [State.fold_kept, State.kept_mk]

@[simp] theorem State.placeItem_kept (s : State) (x : PlanItem) : (State.placeItem s x).kept = s.kept := by
  cases x <;> simp [State.placeItem]

@[simp] theorem State.dropDangling_kept (s : State) :
    (State.dropDangling s).kept = s.kept := by
  unfold State.dropDangling; simp [State.fold_kept, State.kept_mk]

@[simp] theorem State.tryStep_kept (s : State) (ps : List Proposal) :
    (State.tryStep s ps).kept = s.kept := by
  unfold State.tryStep; dsimp only; (repeat' split) <;> simp [State.fold_kept, State.kept_mk]

@[simp] theorem State.planDecode_kept (s : State) (ns : List Nat) :
    (State.planDecode s ns).kept = s.kept := by
  unfold State.planDecode; simp [State.fold_kept, State.kept_mk]

@[simp] theorem State.planDecodes_kept (s : State) :
    (State.planDecodes s).kept = s.kept := by
  unfold State.planDecodes; dsimp only; (repeat' split) <;> simp [State.fold_kept, State.kept_mk]

@[simp] theorem State.planChunks_kept (n fuel : Nat) (s : State) : (State.planChunks s n fuel).kept = s.kept := by
  induction fuel generalizing s with
  | zero => rfl
  | succ f ih =>
    unfold State.planChunks
    dsimp only
    (repeat' split) <;> simp [ih]

@[simp] theorem State.sortClass0_kept (s : State) :
    (State.sortClass0 s).kept = s.kept := by
  unfold State.sortClass0; simp [State.fold_kept, State.kept_mk]

@[simp] theorem State.planClass0_kept (s : State) (ps : List Proposal) :
    (State.planClass0 s ps).kept = s.kept := by
  unfold State.planClass0; dsimp only; (repeat' split) <;> simp [State.fold_kept, State.kept_mk]

@[simp] theorem State.planSwitch_kept (s : State) (left : List PlanEntry) :
    (State.planSwitch s left).kept = s.kept := by
  unfold State.planSwitch; dsimp only; (repeat' split) <;> simp [State.fold_kept, State.kept_mk]

@[simp] theorem State.fixPlan_kept (s : State) (ps : List Proposal) :
    (State.fixPlan s ps).kept = s.kept := by
  unfold State.fixPlan; dsimp only; (repeat' split) <;> simp [State.fold_kept, State.kept_mk]

@[simp] theorem State.tailFill_kept (s : State) (ps : List Proposal) :
    (State.tailFill s ps).kept = s.kept := by
  unfold State.tailFill
  refine (State.keeps_foldl State.kept (fun t x => ?_) _ _).trans (by simp)
  cases x <;> simp

@[simp] theorem execWcetOverrun_kept (cyc : Nat) (s : State) :
    (outcomeState s (execWcetOverrun cyc s)).kept = s.kept := by
  unfold execWcetOverrun; (repeat' split) <;> simp [State.fold_kept, State.kept_mk]

@[simp] theorem execHoldoverLimit_kept (s : State) :
    (outcomeState s (execHoldoverLimit s)).kept = s.kept := by
  unfold execHoldoverLimit; (repeat' split) <;> simp [State.fold_kept, State.kept_mk]

end Sys2Proof.Machine
end

