-- ==== Sys2Proof/Laws/Intake.lean ====
section
/-! SUPPORT. What the operations of Machine/Intake.lean leave alone. -/

namespace Sys2Proof.Machine

@[simp] theorem State.modIntake_kept (s : State) (f : Intake → Intake) :
    (State.modIntake s f).kept = s.kept := by
  unfold State.modIntake; simp [State.fold_kept, State.kept_mk]

@[simp] theorem State.recordDone_kept (s : State) :
    (State.recordDone s).kept = s.kept := by
  unfold State.recordDone; simp [State.fold_kept, State.kept_mk]

@[simp] theorem State.answer_kept (s : State) (r : IntakeRecord) (status flags : Nat) :
    (State.answer s r status flags).kept = s.kept := by
  unfold State.answer; simp [State.fold_kept, State.kept_mk]

@[simp] theorem State.intakeFault_kept (s : State) (index why : Nat) :
    (State.intakeFault s index why).kept = s.kept := by
  unfold State.intakeFault; simp [State.fold_kept, State.kept_mk]

@[simp] theorem State.charge_kept (s : State) (tenant units : Nat) :
    (State.charge s tenant units).kept = s.kept := by
  unfold State.charge; simp [State.fold_kept, State.kept_mk]

@[simp] theorem State.takeInput_kept (s : State) (r : IntakeRecord) (tenant : Nat) :
    (State.takeInput s r tenant).kept = s.kept := by
  unfold State.takeInput; simp [State.fold_kept, State.kept_mk]

@[simp] theorem State.refuse_kept (s : State) (r : IntakeRecord) (status : Nat) :
    (State.refuse s r status).kept = s.kept := by
  unfold State.refuse; simp [State.fold_kept, State.kept_mk]

@[simp] theorem State.takeOpen_kept (s : State) (r : IntakeRecord) (held : Bool) :
    (State.takeOpen s r held).kept = s.kept := by
  unfold State.takeOpen; simp [State.fold_kept, State.kept_mk]

@[simp] theorem execOpenStream_kept (cyc : Nat) (r : IntakeRecord) (s : State) :
    (outcomeState s (execOpenStream cyc r s)).kept = s.kept := by
  unfold execOpenStream
  try dsimp only
  repeat' first
    | (rw [outcomeState_next]
       first
         | (simp [State.fold_kept, State.kept_mk])
         | (split <;> simp [State.fold_kept, State.kept_mk]))
    | (rw [outcomeState_onUnit]
       first
         | (simp [State.fold_kept, State.kept_mk])
         | ((repeat' split) <;> simp [State.fold_kept, State.kept_mk])
         | (dsimp only; (repeat' split) <;> simp [State.fold_kept, State.kept_mk]))
    | rfl
    | split

@[simp] theorem State.wantUnpark_kept (s : State) (n tag : Nat) :
    (State.wantUnpark s n tag).kept = s.kept := by
  unfold State.wantUnpark; (repeat' split) <;> simp [State.fold_kept, State.kept_mk]

@[simp] theorem State.takeAppend_kept (s : State) (r : IntakeRecord) (x : Stream) :
    (State.takeAppend s r x).kept = s.kept := by
  unfold State.takeAppend; simp [State.fold_kept, State.kept_mk]

@[simp] theorem execAppend_kept (cyc : Nat) (r : IntakeRecord) (s : State) :
    (outcomeState s (execAppend cyc r s)).kept = s.kept := by
  unfold execAppend
  try dsimp only
  repeat' first
    | (rw [outcomeState_next]
       first
         | (simp [State.fold_kept, State.kept_mk])
         | (split <;> simp [State.fold_kept, State.kept_mk]))
    | (rw [outcomeState_onUnit]
       first
         | (simp [State.fold_kept, State.kept_mk])
         | ((repeat' split) <;> simp [State.fold_kept, State.kept_mk])
         | (dsimp only; (repeat' split) <;> simp [State.fold_kept, State.kept_mk]))
    | rfl
    | split

@[simp] theorem execNop_kept (cyc : Nat) (r : IntakeRecord) (s : State) :
    (outcomeState s (execNop cyc r s)).kept = s.kept := by
  unfold execNop
  try dsimp only
  repeat' first
    | (rw [outcomeState_next]
       first
         | (simp [State.fold_kept, State.kept_mk])
         | (split <;> simp [State.fold_kept, State.kept_mk]))
    | (rw [outcomeState_onUnit]
       first
         | (simp [State.fold_kept, State.kept_mk])
         | ((repeat' split) <;> simp [State.fold_kept, State.kept_mk])
         | (dsimp only; (repeat' split) <;> simp [State.fold_kept, State.kept_mk]))
    | rfl
    | split

@[simp] theorem State.dropQueued_kept (s : State) (n : Nat) :
    (State.dropQueued s n).kept = s.kept := by
  unfold State.dropQueued; (repeat' split) <;> simp [State.fold_kept, State.kept_mk]

@[simp] theorem State.cancelNow_kept (s : State) (n : Nat) (x : Stream) (turnOnly : Bool) :
    (State.cancelNow s n x turnOnly).1.kept = s.kept := by
  unfold State.cancelNow; (repeat' split) <;> simp [State.fold_kept, State.kept_mk]

@[simp] theorem execCancel_kept (cyc : Nat) (r : IntakeRecord) (s : State) :
    (outcomeState s (execCancel cyc r s)).kept = s.kept := by
  unfold execCancel
  try dsimp only
  repeat' first
    | (rw [outcomeState_next]
       first
         | (simp [State.fold_kept, State.kept_mk])
         | (split <;> simp [State.fold_kept, State.kept_mk]))
    | (rw [outcomeState_onUnit]
       first
         | (simp [State.fold_kept, State.kept_mk])
         | ((repeat' split) <;> simp [State.fold_kept, State.kept_mk])
         | (dsimp only; (repeat' split) <;> simp [State.fold_kept, State.kept_mk]))
    | rfl
    | split

@[simp] theorem execClose_kept (cyc : Nat) (r : IntakeRecord) (s : State) :
    (outcomeState s (execClose cyc r s)).kept = s.kept := by
  unfold execClose
  try dsimp only
  repeat' first
    | (rw [outcomeState_next]
       first
         | (simp [State.fold_kept, State.kept_mk])
         | (split <;> simp [State.fold_kept, State.kept_mk]))
    | (rw [outcomeState_onUnit]
       first
         | (simp [State.fold_kept, State.kept_mk])
         | ((repeat' split) <;> simp [State.fold_kept, State.kept_mk])
         | (dsimp only; (repeat' split) <;> simp [State.fold_kept, State.kept_mk]))
    | rfl
    | split

@[simp] theorem execPark_kept (cyc : Nat) (r : IntakeRecord) (s : State) :
    (outcomeState s (execPark cyc r s)).kept = s.kept := by
  unfold execPark
  try dsimp only
  repeat' first
    | (rw [outcomeState_next]
       first
         | (simp [State.fold_kept, State.kept_mk])
         | (split <;> simp [State.fold_kept, State.kept_mk]))
    | (rw [outcomeState_onUnit]
       first
         | (simp [State.fold_kept, State.kept_mk])
         | ((repeat' split) <;> simp [State.fold_kept, State.kept_mk])
         | (dsimp only; (repeat' split) <;> simp [State.fold_kept, State.kept_mk]))
    | rfl
    | split

@[simp] theorem execUnpark_kept (cyc : Nat) (r : IntakeRecord) (s : State) :
    (outcomeState s (execUnpark cyc r s)).kept = s.kept := by
  unfold execUnpark
  try dsimp only
  repeat' first
    | (rw [outcomeState_next]
       first
         | (simp [State.fold_kept, State.kept_mk])
         | (split <;> simp [State.fold_kept, State.kept_mk]))
    | (rw [outcomeState_onUnit]
       first
         | (simp [State.fold_kept, State.kept_mk])
         | ((repeat' split) <;> simp [State.fold_kept, State.kept_mk])
         | (dsimp only; (repeat' split) <;> simp [State.fold_kept, State.kept_mk]))
    | rfl
    | split

@[simp] theorem State.copyFailed_kept (s : State) (n : Nat) :
    (State.copyFailed s n).kept = s.kept := by
  unfold State.copyFailed; (repeat' split) <;> simp [State.fold_kept, State.kept_mk]

@[simp] theorem execInputCopyComplete_kept (cyc : Nat) (failed : List Nat) (s : State) :
    (outcomeState s (execInputCopyComplete cyc failed s)).kept = s.kept := by
  unfold execInputCopyComplete
  try dsimp only
  repeat' first
    | (rw [outcomeState_next]
       first
         | (simp [State.fold_kept, State.kept_mk])
         | (split <;> simp [State.fold_kept, State.kept_mk]))
    | (rw [outcomeState_onUnit]
       first
         | (simp [State.fold_kept, State.kept_mk])
         | ((repeat' split) <;> simp [State.fold_kept, State.kept_mk])
         | (dsimp only; (repeat' split) <;> simp [State.fold_kept, State.kept_mk]))
    | rfl
    | split

@[simp] theorem State.dropTurn_kept (s : State) (n status : Nat) (u : Turn) :
    (State.dropTurn s n status u).kept = s.kept := by
  unfold State.dropTurn; simp [State.fold_kept, State.kept_mk]

@[simp] theorem State.afterTurns_kept (s : State) (n : Nat) :
    (State.afterTurns s n).kept = s.kept := by
  unfold State.afterTurns; (repeat' split) <;> simp [State.fold_kept, State.kept_mk]

theorem State.lateTest_kept {s t : State} {n : Nat} {x : Stream} (h : s.lateTest n x = .ok t) : t.kept = s.kept := by
  unfold State.lateTest at h
  split at h
  · cases h
  · split at h
    · cases h; simp
    · cases h

@[simp] theorem State.acceptNext_kept (s : State) (n : Nat) (x0 : Nat) :
    (State.acceptNext s n x0).kept = s.kept := by
  induction x0 generalizing s with
  | zero => rfl
  | succ f ih =>
    unfold State.acceptNext
    split
    · rfl
    · dsimp only
      split
      · split
        · rfl
        · split
          · simp
          · split
            · rename_i t h
              have k : t.kept = s.kept := by
                split at h
                · split at h
                  · cases h
                  · exact State.lateTest_kept h
                · cases h; rfl
              simp [k]
            · split <;> simp [ih]
      · split
        · simp [ih]
        · split <;> simp [ih]
      · rfl

@[simp] theorem State.acceptAll_kept (s : State) :
    (State.acceptAll s).kept = s.kept := by
  unfold State.acceptAll; simp [State.fold_kept, State.kept_mk]

end Sys2Proof.Machine
end

