-- ==== Sys2Proof/Laws/Seal.lean ====
section
/-! SUPPORT. What the operations of Machine/Seal.lean leave alone. -/

namespace Sys2Proof.Machine

@[simp] theorem execNoticeWrite_kept (cyc group : Nat) (s : State) :
    (outcomeState s (execNoticeWrite cyc group s)).kept = s.kept := by
  unfold execNoticeWrite
  try dsimp only
  repeat' first
    | (rw [outcomeState_next]
       first
         | (simp [State.fold_kept, State.kept_mk])
         | (split <;> simp [State.fold_kept, State.kept_mk]))
    | (rw [outcomeState_onUnit]
       first
         | (simp [State.fold_kept, State.kept_mk])
         | ((repeat' split) <;> simp [State.fold_kept, State.kept_mk])
         | (dsimp only; (repeat' split) <;> simp [State.fold_kept, State.kept_mk]))
    | rfl
    | split

@[simp] theorem execSealStart_kept (cyc step : Nat) (s : State) :
    (outcomeState s (execSealStart cyc step s)).kept = s.kept := by
  unfold execSealStart
  try dsimp only
  repeat' first
    | (rw [outcomeState_next]
       first
         | (simp [State.fold_kept, State.kept_mk])
         | (split <;> simp [State.fold_kept, State.kept_mk]))
    | (rw [outcomeState_onUnit]
       first
         | (simp [State.fold_kept, State.kept_mk])
         | ((repeat' split) <;> simp [State.fold_kept, State.kept_mk])
         | (dsimp only; (repeat' split) <;> simp [State.fold_kept, State.kept_mk]))
    | rfl
    | split

@[simp] theorem State.applyRow_kept (s : State) (r : SealRow) :
    (State.applyRow s r).kept = s.kept := by
  unfold State.applyRow; (repeat' split) <;> simp [State.fold_kept, State.kept_mk]

@[simp] theorem execSealComplete_kept (cyc step : Nat) (s : State) :
    (outcomeState s (execSealComplete cyc step s)).kept = s.kept := by
  unfold execSealComplete
  try dsimp only
  repeat' first
    | (rw [outcomeState_next]
       first
         | (simp [State.fold_kept, State.kept_mk])
         | (split <;> simp [State.fold_kept, State.kept_mk]))
    | (rw [outcomeState_onUnit]
       first
         | (simp [State.fold_kept, State.kept_mk])
         | ((repeat' split) <;> simp [State.fold_kept, State.kept_mk])
         | (dsimp only; (repeat' split) <;> simp [State.fold_kept, State.kept_mk]))
    | rfl
    | split

@[simp] theorem State.zeroRing_kept (s : State) (ring : Nat) :
    (State.zeroRing s ring).kept = s.kept := by
  unfold State.zeroRing; (repeat' split) <;> simp [State.fold_kept, State.kept_mk]

@[simp] theorem State.commitRing_keeps (s before : State) (sub value : Nat) (zero : Bool) :
    (State.commitRing s before sub value zero).kept.part = s.kept.part ∧
    (State.commitRing s before sub value zero).kept.pending = s.kept.pending ∧
    (State.commitRing s before sub value zero).kept.blobs = s.kept.blobs ∧
    (State.commitRing s before sub value zero).kept.boot = s.kept.boot ∧
    (State.commitRing s before sub value zero).kept.sec = s.kept.sec ∧
    (State.commitRing s before sub value zero).kept.slot = s.kept.slot ∧
    (State.commitRing s before sub value zero).kept.frame = s.kept.frame ∧
    (State.commitRing s before sub value zero).kept.txs = s.kept.txs ∧
    (State.commitRing s before sub value zero).kept.ended = s.kept.ended ∧
    (State.commitRing s before sub value zero).kept.cache = s.kept.cache ∧
    (State.commitRing s before sub value zero).kept.sram = s.kept.sram ∧
    (State.commitRing s before sub value zero).kept.hbm = s.kept.hbm := by
  unfold State.commitRing; dsimp only; (repeat' split) <;> simp [State.fold_kept, State.kept_mk]

@[simp] theorem execRingConfigCommit_keeps (sub value : Nat) (s : State) :
    (outcomeState s (execRingConfigCommit sub value s)).kept.part = s.kept.part ∧
    (outcomeState s (execRingConfigCommit sub value s)).kept.pending = s.kept.pending ∧
    (outcomeState s (execRingConfigCommit sub value s)).kept.blobs = s.kept.blobs ∧
    (outcomeState s (execRingConfigCommit sub value s)).kept.boot = s.kept.boot ∧
    (outcomeState s (execRingConfigCommit sub value s)).kept.sec = s.kept.sec ∧
    (outcomeState s (execRingConfigCommit sub value s)).kept.slot = s.kept.slot ∧
    (outcomeState s (execRingConfigCommit sub value s)).kept.frame = s.kept.frame ∧
    (outcomeState s (execRingConfigCommit sub value s)).kept.txs = s.kept.txs ∧
    (outcomeState s (execRingConfigCommit sub value s)).kept.ended = s.kept.ended ∧
    (outcomeState s (execRingConfigCommit sub value s)).kept.cache = s.kept.cache ∧
    (outcomeState s (execRingConfigCommit sub value s)).kept.sram = s.kept.sram ∧
    (outcomeState s (execRingConfigCommit sub value s)).kept.hbm = s.kept.hbm := by
  unfold execRingConfigCommit
  rw [outcomeState_onUnit]
  split <;> simp

@[simp] theorem State.newWindow_kept (s : State) :
    (State.newWindow s).kept = s.kept := by
  unfold State.newWindow; simp [State.fold_kept, State.kept_mk]

end Sys2Proof.Machine
end

