-- ==== Sys2Proof/Laws/ExpertDispatch.lean ====
section
/-! SUPPORT. What the operations of Machine/ExpertDispatch.lean leave alone. -/

namespace Sys2Proof.Machine

@[simp] theorem State.countLoss_kept (s : State) (host : Nat) :
    (State.countLoss s host).kept = s.kept := by
  unfold State.countLoss; dsimp only; (repeat' split) <;> simp [State.fold_kept, State.kept_mk]

@[simp] theorem State.returnLost_kept (s : State) (c : Choice) :
    (State.returnLost s c).kept = s.kept := by
  unfold State.returnLost; simp [State.fold_kept, State.kept_mk]

@[simp] theorem State.dropChoice_kept (s : State) (station row rank : Nat) :
    (State.dropChoice s station row rank).kept = s.kept := by
  unfold State.dropChoice; simp [State.fold_kept, State.kept_mk]

@[simp] theorem State.closeChoice_kept (s : State) (c : Choice) (status : Nat) (payload : List Byte) :
    (State.closeChoice s c status payload).kept = s.kept := by
  unfold State.closeChoice; (repeat' split) <;> simp [State.fold_kept, State.kept_mk]

@[simp] theorem State.serveRefused_kept (s : State) (host status : Nat) (m : DispatchMsg) :
    (State.serveRefused s host status m).kept = s.kept := by
  unfold State.serveRefused; (repeat' split) <;> simp [State.fold_kept, State.kept_mk]

@[simp] theorem State.serveEnds_kept (s : State) :
    (State.serveEnds s).kept = s.kept := by
  unfold State.serveEnds; simp [State.fold_kept, State.kept_mk]

@[simp] theorem State.serveEmit_kept (i : Nat) (x0 : Nat) (s : State) :
    (State.serveEmit i x0 s).kept = s.kept := by
  induction x0 generalizing s with
  | zero => rfl
  | succ f ih =>
    unfold State.serveEmit
    dsimp only
    split <;> simp [ih, State.fold_kept, State.kept_mk]

@[simp] theorem State.deliverOwn_kept (s : State) (c : Choice) (m : DispatchMsg) :
    (State.deliverOwn s c m).kept = s.kept := by
  unfold State.deliverOwn; (repeat' split) <;> simp [State.fold_kept, State.kept_mk]

@[simp] theorem State.sendChoice_kept (s : State) (c : Choice) :
    (State.sendChoice s c).kept = s.kept := by
  unfold State.sendChoice; dsimp only; (repeat' split) <;> simp [State.fold_kept, State.kept_mk]

@[simp] theorem State.sendChoices_kept (s : State) :
    (State.sendChoices s).kept = s.kept := by
  unfold State.sendChoices; simp [State.fold_kept, State.kept_mk]

@[simp] theorem State.takeRow_kept (s : State) (i : Nat) (p : PortOp) (flits : List Flit) :
    (State.takeRow s i p flits).kept = s.kept := by
  unfold State.takeRow; simp [State.fold_kept, State.kept_mk]

@[simp] theorem State.takeRows_kept (i : Nat) (p : PortOp) (x0 : Nat) (s : State) :
    (State.takeRows i p x0 s).kept = s.kept := by
  (induction x0 generalizing s <;> simp [State.takeRows, State.fold_kept, State.kept_mk, *])

@[simp] theorem State.returnEmit_kept (i : Nat) (x0 : Nat) (s : State) :
    (State.returnEmit i x0 s).kept = s.kept := by
  induction x0 generalizing s with
  | zero => rfl
  | succ f ih =>
    unfold State.returnEmit
    dsimp only
    split
    · split
      · rfl
      · rw [ih]
        split <;> simp [State.fold_kept, State.kept_mk]
    · rfl

@[simp] theorem State.batchEnds_kept (s : State) :
    (State.batchEnds s).kept = s.kept := by
  unfold State.batchEnds; simp [State.fold_kept, State.kept_mk]

@[simp] theorem State.dspAdvance_kept (s : State) :
    (State.dspAdvance s).kept = s.kept := by
  unfold State.dspAdvance; simp [State.fold_kept, State.kept_mk]

@[simp] theorem State.serveResults_kept (i : Nat) (p : PortOp) (x0 : Nat) (s : State) :
    (State.serveResults i p x0 s).kept = s.kept := by
  induction x0 generalizing s with
  | zero => rfl
  | succ f ih =>
    unfold State.serveResults
    dsimp only
    split
    · rfl
    · rw [ih]
      (repeat' split) <;> simp [State.fold_kept, State.kept_mk]

@[simp] theorem State.dspFrame_kept (s : State) (uplink : Nat) (f : FrameCheck) (m : DispatchMsg) :
    (State.dspFrame s uplink f m).1.kept = s.kept := by
  unfold State.dspFrame; dsimp only; (repeat' split) <;> simp [State.fold_kept, State.kept_mk]

@[simp] theorem State.gather_kept (s : State) (host : Nat) (ret : Bool) (m : DispatchMsg) :
    (State.gather s host ret m).1.kept = s.kept := by
  unfold State.gather; dsimp only; (repeat' split) <;> simp [State.fold_kept, State.kept_mk]

@[simp] theorem execDispatch_kept (cyc uplink : Nat) (f : FrameCheck) (m : DispatchMsg) (s : State) :
    (outcomeState s (execDispatch cyc uplink f m s)).kept = s.kept := by
  unfold execDispatch
  rw [outcomeState_onUnit]
  dsimp only
  split
  · (repeat' split) <;> simp
  · rfl

@[simp] theorem execReturnMsg_kept (cyc uplink : Nat) (f : FrameCheck) (m : DispatchMsg) (s : State) :
    (outcomeState s (execReturnMsg cyc uplink f m s)).kept = s.kept := by
  unfold execReturnMsg
  rw [outcomeState_onUnit]
  dsimp only
  split
  · (repeat' split) <;> simp
  · rfl

@[simp] theorem execBatchEnd_kept (cyc uplink : Nat) (f : FrameCheck) (m : DispatchMsg) (s : State) :
    (outcomeState s (execBatchEnd cyc uplink f m s)).kept = s.kept := by
  unfold execBatchEnd
  rw [outcomeState_onUnit]
  dsimp only
  split
  · (repeat' split) <;> simp
  · rfl

@[simp] theorem execDispatchCancel_kept (cyc uplink : Nat) (f : FrameCheck) (m : DispatchMsg) (s : State) :
    (outcomeState s (execDispatchCancel cyc uplink f m s)).kept = s.kept := by
  unfold execDispatchCancel
  rw [outcomeState_onUnit]
  dsimp only
  split
  · (repeat' split) <;> simp
  · rfl

@[simp] theorem execCredit_kept (cyc uplink : Nat) (f : FrameCheck) (m : DispatchMsg) (s : State) :
    (outcomeState s (execCredit cyc uplink f m s)).kept = s.kept := by
  unfold execCredit
  rw [outcomeState_onUnit]
  dsimp only
  split
  · (repeat' split) <;> simp
  · rfl

@[simp] theorem execUplinkNeighborSolicitation_kept (uplink target : Nat) (s : State) :
    (outcomeState s (execUplinkNeighborSolicitation uplink target s)).kept = s.kept := by
  unfold execUplinkNeighborSolicitation; (repeat' split) <;> simp [State.fold_kept, State.kept_mk]

@[simp] theorem execReturnTimeout_kept (cyc dispatchNo : Nat) (s : State) :
    (outcomeState s (execReturnTimeout cyc dispatchNo s)).kept = s.kept := by
  unfold execReturnTimeout; dsimp only; (repeat' split) <;> simp [State.fold_kept, State.kept_mk]

@[simp] theorem execCreditGraceExpiry_kept (cyc gen : Nat) (s : State) :
    (outcomeState s (execCreditGraceExpiry cyc gen s)).kept = s.kept := by
  unfold execCreditGraceExpiry; (repeat' split) <;> simp [State.fold_kept, State.kept_mk]

@[simp] theorem execServeBatchClose_kept (cyc station : Nat) (s : State) :
    (outcomeState s (execServeBatchClose cyc station s)).kept = s.kept := by
  unfold execServeBatchClose; (repeat' split) <;> simp [State.fold_kept, State.kept_mk]

@[simp] theorem execUplinkUp_kept (cyc uplink : Nat) (s : State) :
    (outcomeState s (execUplinkUp cyc uplink s)).kept = s.kept := by
  unfold execUplinkUp; (repeat' split) <;> simp [State.fold_kept, State.kept_mk]

@[simp] theorem State.uplinkDown_kept (s : State) (u cause : Nat) :
    (State.uplinkDown s u cause).kept = s.kept := by
  unfold State.uplinkDown; simp [State.fold_kept, State.kept_mk]

@[simp] theorem execUplinkDown_kept (cyc uplink cause : Nat) (s : State) :
    (outcomeState s (execUplinkDown cyc uplink cause s)).kept = s.kept := by
  unfold execUplinkDown; (repeat' split) <;> simp [State.fold_kept, State.kept_mk]

@[simp] theorem execDspTableCommit_keeps (sub : Nat) (bytes : List Byte) (s : State) :
    (outcomeState s (execDspTableCommit sub bytes s)).kept.part = s.kept.part ∧
    (outcomeState s (execDspTableCommit sub bytes s)).kept.pending = s.kept.pending ∧
    (outcomeState s (execDspTableCommit sub bytes s)).kept.regs = s.kept.regs ∧
    (outcomeState s (execDspTableCommit sub bytes s)).kept.boot = s.kept.boot ∧
    (outcomeState s (execDspTableCommit sub bytes s)).kept.sec = s.kept.sec ∧
    (outcomeState s (execDspTableCommit sub bytes s)).kept.slot = s.kept.slot ∧
    (outcomeState s (execDspTableCommit sub bytes s)).kept.frame = s.kept.frame ∧
    (outcomeState s (execDspTableCommit sub bytes s)).kept.txs = s.kept.txs ∧
    (outcomeState s (execDspTableCommit sub bytes s)).kept.ended = s.kept.ended ∧
    (outcomeState s (execDspTableCommit sub bytes s)).kept.cache = s.kept.cache ∧
    (outcomeState s (execDspTableCommit sub bytes s)).kept.sram = s.kept.sram ∧
    (outcomeState s (execDspTableCommit sub bytes s)).kept.hbm = s.kept.hbm := by
  unfold execDspTableCommit; simp [State.fold_kept, State.kept_mk]; (repeat' split) <;> simp [State.fold_kept, State.kept_mk]

@[simp] theorem State.applyTables_kept (s : State) :
    (State.applyTables s).kept = s.kept := by
  unfold State.applyTables; simp [State.fold_kept, State.kept_mk]

@[simp] theorem State.closeWindow_kept (s : State) :
    (State.closeWindow s).kept = s.kept := by
  unfold State.closeWindow; simp [State.fold_kept, State.kept_mk]

@[simp] theorem State.openBatch_kept (s : State) (id step : Nat) (fresh : Bool) :
    (State.openBatch s id step fresh).kept = s.kept := by
  unfold State.openBatch; simp [State.fold_kept, State.kept_mk]

end Sys2Proof.Machine
end

