-- ==== Sys2Proof/Laws/Store.lean ====
section
/-! SUPPORT. What the operations of Machine/Store.lean leave alone. -/

namespace Sys2Proof.Machine

@[simp] theorem State.markCorrupt_kept (s : State) (tag n : Nat) :
    (State.markCorrupt s tag n).kept = s.kept := by
  unfold State.markCorrupt; (repeat' split) <;> simp [State.fold_kept, State.kept_mk]

@[simp] theorem State.modStoreStack_kept (s : State) (n : Nat) (f : StoreStack → StoreStack) :
    (State.modStoreStack s n f).kept = s.kept := by
  unfold State.modStoreStack; simp [State.fold_kept, State.kept_mk]

@[simp] theorem State.readExtent_kept (s : State) (tag n i bytes : Nat) :
    (State.readExtent s tag n i bytes).kept = s.kept := by
  unfold State.readExtent; simp [State.fold_kept, State.kept_mk]

@[simp] theorem State.readShard_kept (s : State) (tag n : Nat) :
    (State.readShard s tag n).kept = s.kept := by
  unfold State.readShard; simp [State.fold_kept, State.kept_mk]

@[simp] theorem State.readBack_kept (s : State) (tag : Nat) (p : Nat → Shard → Bool) :
    (State.readBack s tag p).kept = s.kept := by
  unfold State.readBack; simp [State.fold_kept, State.kept_mk]

@[simp] theorem State.startOp_kept (s : State) (cmd tag length : Nat) :
    (State.startOp s cmd tag length).kept = s.kept := by
  unfold State.startOp; simp [State.fold_kept, State.kept_mk]

@[simp] theorem State.commitOp_keeps (s : State) (cmd source tag length : Nat) :
    (State.commitOp s cmd source tag length).kept.part = s.kept.part ∧
    (State.commitOp s cmd source tag length).kept.pending = s.kept.pending ∧
    (State.commitOp s cmd source tag length).kept.blobs = s.kept.blobs ∧
    (State.commitOp s cmd source tag length).kept.boot = s.kept.boot ∧
    (State.commitOp s cmd source tag length).kept.sec = s.kept.sec ∧
    (State.commitOp s cmd source tag length).kept.slot = s.kept.slot ∧
    (State.commitOp s cmd source tag length).kept.frame = s.kept.frame ∧
    (State.commitOp s cmd source tag length).kept.txs = s.kept.txs ∧
    (State.commitOp s cmd source tag length).kept.ended = s.kept.ended ∧
    (State.commitOp s cmd source tag length).kept.cache = s.kept.cache ∧
    (State.commitOp s cmd source tag length).kept.sram = s.kept.sram ∧
    (State.commitOp s cmd source tag length).kept.hbm = s.kept.hbm := by
  unfold State.commitOp; (repeat' split) <;> simp [State.fold_kept, State.kept_mk]

@[simp] theorem execStoreInstall_keeps (source length : Nat) (s : State) :
    (outcomeState s (execStoreInstall source length s)).kept.part = s.kept.part ∧
    (outcomeState s (execStoreInstall source length s)).kept.pending = s.kept.pending ∧
    (outcomeState s (execStoreInstall source length s)).kept.blobs = s.kept.blobs ∧
    (outcomeState s (execStoreInstall source length s)).kept.boot = s.kept.boot ∧
    (outcomeState s (execStoreInstall source length s)).kept.sec = s.kept.sec ∧
    (outcomeState s (execStoreInstall source length s)).kept.slot = s.kept.slot ∧
    (outcomeState s (execStoreInstall source length s)).kept.frame = s.kept.frame ∧
    (outcomeState s (execStoreInstall source length s)).kept.txs = s.kept.txs ∧
    (outcomeState s (execStoreInstall source length s)).kept.ended = s.kept.ended ∧
    (outcomeState s (execStoreInstall source length s)).kept.cache = s.kept.cache ∧
    (outcomeState s (execStoreInstall source length s)).kept.sram = s.kept.sram ∧
    (outcomeState s (execStoreInstall source length s)).kept.hbm = s.kept.hbm := by
  unfold execStoreInstall; (repeat' split) <;> simp [State.fold_kept, State.kept_mk]

@[simp] theorem execStoreDelete_keeps (tag : Nat) (s : State) :
    (outcomeState s (execStoreDelete tag s)).kept.part = s.kept.part ∧
    (outcomeState s (execStoreDelete tag s)).kept.pending = s.kept.pending ∧
    (outcomeState s (execStoreDelete tag s)).kept.blobs = s.kept.blobs ∧
    (outcomeState s (execStoreDelete tag s)).kept.boot = s.kept.boot ∧
    (outcomeState s (execStoreDelete tag s)).kept.sec = s.kept.sec ∧
    (outcomeState s (execStoreDelete tag s)).kept.slot = s.kept.slot ∧
    (outcomeState s (execStoreDelete tag s)).kept.frame = s.kept.frame ∧
    (outcomeState s (execStoreDelete tag s)).kept.txs = s.kept.txs ∧
    (outcomeState s (execStoreDelete tag s)).kept.ended = s.kept.ended ∧
    (outcomeState s (execStoreDelete tag s)).kept.cache = s.kept.cache ∧
    (outcomeState s (execStoreDelete tag s)).kept.sram = s.kept.sram ∧
    (outcomeState s (execStoreDelete tag s)).kept.hbm = s.kept.hbm := by
  unfold execStoreDelete; (repeat' split) <;> simp [State.fold_kept, State.kept_mk]

@[simp] theorem execAdapterInstall_keeps (source length : Nat) (s : State) :
    (outcomeState s (execAdapterInstall source length s)).kept.part = s.kept.part ∧
    (outcomeState s (execAdapterInstall source length s)).kept.pending = s.kept.pending ∧
    (outcomeState s (execAdapterInstall source length s)).kept.blobs = s.kept.blobs ∧
    (outcomeState s (execAdapterInstall source length s)).kept.boot = s.kept.boot ∧
    (outcomeState s (execAdapterInstall source length s)).kept.sec = s.kept.sec ∧
    (outcomeState s (execAdapterInstall source length s)).kept.slot = s.kept.slot ∧
    (outcomeState s (execAdapterInstall source length s)).kept.frame = s.kept.frame ∧
    (outcomeState s (execAdapterInstall source length s)).kept.txs = s.kept.txs ∧
    (outcomeState s (execAdapterInstall source length s)).kept.ended = s.kept.ended ∧
    (outcomeState s (execAdapterInstall source length s)).kept.cache = s.kept.cache ∧
    (outcomeState s (execAdapterInstall source length s)).kept.sram = s.kept.sram ∧
    (outcomeState s (execAdapterInstall source length s)).kept.hbm = s.kept.hbm := by
  unfold execAdapterInstall; (repeat' split) <;> simp [State.fold_kept, State.kept_mk]

@[simp] theorem execAdapterDelete_keeps (tag : Nat) (s : State) :
    (outcomeState s (execAdapterDelete tag s)).kept.part = s.kept.part ∧
    (outcomeState s (execAdapterDelete tag s)).kept.pending = s.kept.pending ∧
    (outcomeState s (execAdapterDelete tag s)).kept.blobs = s.kept.blobs ∧
    (outcomeState s (execAdapterDelete tag s)).kept.boot = s.kept.boot ∧
    (outcomeState s (execAdapterDelete tag s)).kept.sec = s.kept.sec ∧
    (outcomeState s (execAdapterDelete tag s)).kept.slot = s.kept.slot ∧
    (outcomeState s (execAdapterDelete tag s)).kept.frame = s.kept.frame ∧
    (outcomeState s (execAdapterDelete tag s)).kept.txs = s.kept.txs ∧
    (outcomeState s (execAdapterDelete tag s)).kept.ended = s.kept.ended ∧
    (outcomeState s (execAdapterDelete tag s)).kept.cache = s.kept.cache ∧
    (outcomeState s (execAdapterDelete tag s)).kept.sram = s.kept.sram ∧
    (outcomeState s (execAdapterDelete tag s)).kept.hbm = s.kept.hbm := by
  unfold execAdapterDelete; (repeat' split) <;> simp [State.fold_kept, State.kept_mk]

@[simp] theorem execStoreRepair_keeps (tag source length : Nat) (s : State) :
    (outcomeState s (execStoreRepair tag source length s)).kept.part = s.kept.part ∧
    (outcomeState s (execStoreRepair tag source length s)).kept.pending = s.kept.pending ∧
    (outcomeState s (execStoreRepair tag source length s)).kept.blobs = s.kept.blobs ∧
    (outcomeState s (execStoreRepair tag source length s)).kept.boot = s.kept.boot ∧
    (outcomeState s (execStoreRepair tag source length s)).kept.sec = s.kept.sec ∧
    (outcomeState s (execStoreRepair tag source length s)).kept.slot = s.kept.slot ∧
    (outcomeState s (execStoreRepair tag source length s)).kept.frame = s.kept.frame ∧
    (outcomeState s (execStoreRepair tag source length s)).kept.txs = s.kept.txs ∧
    (outcomeState s (execStoreRepair tag source length s)).kept.ended = s.kept.ended ∧
    (outcomeState s (execStoreRepair tag source length s)).kept.cache = s.kept.cache ∧
    (outcomeState s (execStoreRepair tag source length s)).kept.sram = s.kept.sram ∧
    (outcomeState s (execStoreRepair tag source length s)).kept.hbm = s.kept.hbm := by
  unfold execStoreRepair; (repeat' split) <;> simp [State.fold_kept, State.kept_mk]

@[simp] theorem State.commitMode_keeps (s : State) (value : Nat) :
    (State.commitMode s value).kept.part = s.kept.part ∧ (State.commitMode s value).kept.pending = s.kept.pending ∧
    (State.commitMode s value).kept.blobs = s.kept.blobs ∧ (State.commitMode s value).kept.boot = s.kept.boot ∧
    (State.commitMode s value).kept.sec = s.kept.sec ∧ (State.commitMode s value).kept.slot = s.kept.slot ∧
    (State.commitMode s value).kept.frame = s.kept.frame ∧ (State.commitMode s value).kept.txs = s.kept.txs ∧
    (State.commitMode s value).kept.ended = s.kept.ended ∧ (State.commitMode s value).kept.cache = s.kept.cache ∧
    (State.commitMode s value).kept.sram = s.kept.sram ∧ (State.commitMode s value).kept.hbm = s.kept.hbm := by
  unfold State.commitMode; dsimp only; (repeat' split) <;> simp [State.fold_kept, State.kept_mk]

@[simp] theorem execStoModeSet_keeps (value : Nat) (s : State) :
    (outcomeState s (execStoModeSet value s)).kept.part = s.kept.part ∧
    (outcomeState s (execStoModeSet value s)).kept.pending = s.kept.pending ∧
    (outcomeState s (execStoModeSet value s)).kept.blobs = s.kept.blobs ∧
    (outcomeState s (execStoModeSet value s)).kept.boot = s.kept.boot ∧
    (outcomeState s (execStoModeSet value s)).kept.sec = s.kept.sec ∧
    (outcomeState s (execStoModeSet value s)).kept.slot = s.kept.slot ∧
    (outcomeState s (execStoModeSet value s)).kept.frame = s.kept.frame ∧
    (outcomeState s (execStoModeSet value s)).kept.txs = s.kept.txs ∧
    (outcomeState s (execStoModeSet value s)).kept.ended = s.kept.ended ∧
    (outcomeState s (execStoModeSet value s)).kept.cache = s.kept.cache ∧
    (outcomeState s (execStoModeSet value s)).kept.sram = s.kept.sram ∧
    (outcomeState s (execStoModeSet value s)).kept.hbm = s.kept.hbm := by
  unfold execStoModeSet; (repeat' split) <;> simp [State.fold_kept, State.kept_mk]

@[simp] theorem State.digestFailed_kept (s : State) (shards : List Shard) :
    (State.digestFailed s shards).kept = s.kept := by
  unfold State.digestFailed; simp [State.fold_kept, State.kept_mk]

@[simp] theorem State.readBundle_keeps (s : State) (adapters : Bool) (b : List Byte) :
    (State.readBundle s adapters b).2.kept.part = s.kept.part ∧ (State.readBundle s adapters b).2.kept.pending = s.kept.pending ∧
    (State.readBundle s adapters b).2.kept.regs = s.kept.regs ∧ (State.readBundle s adapters b).2.kept.blobs = s.kept.blobs ∧
    (State.readBundle s adapters b).2.kept.boot = s.kept.boot ∧ (State.readBundle s adapters b).2.kept.slot = s.kept.slot ∧
    (State.readBundle s adapters b).2.kept.frame = s.kept.frame ∧ (State.readBundle s adapters b).2.kept.txs = s.kept.txs ∧
    (State.readBundle s adapters b).2.kept.ended = s.kept.ended ∧ (State.readBundle s adapters b).2.kept.cache = s.kept.cache ∧
    (State.readBundle s adapters b).2.kept.sram = s.kept.sram ∧ (State.readBundle s adapters b).2.kept.hbm = s.kept.hbm := by
  unfold State.readBundle; dsimp only; (repeat' split) <;> simp [State.fold_kept, State.kept_mk]

@[simp] theorem State.installOp_keeps (s : State) (b : List Byte) :
    (State.installOp s b).kept.part = s.kept.part ∧ (State.installOp s b).kept.pending = s.kept.pending ∧
    (State.installOp s b).kept.regs = s.kept.regs ∧ (State.installOp s b).kept.blobs = s.kept.blobs ∧
    (State.installOp s b).kept.boot = s.kept.boot ∧ (State.installOp s b).kept.slot = s.kept.slot ∧
    (State.installOp s b).kept.frame = s.kept.frame ∧ (State.installOp s b).kept.txs = s.kept.txs ∧
    (State.installOp s b).kept.ended = s.kept.ended ∧ (State.installOp s b).kept.cache = s.kept.cache ∧
    (State.installOp s b).kept.sram = s.kept.sram ∧ (State.installOp s b).kept.hbm = s.kept.hbm := by
  unfold State.installOp
  have h := State.readBundle_keeps s false b
  generalize s.readBundle false b = r at h ⊢
  obtain ⟨r, t⟩ := r
  cases r <;> dsimp only at h ⊢
  · simpa using h
  · (repeat' split) <;> simp [State.fold_kept, State.kept_mk] <;> simp_all [State.fold_kept]

@[simp] theorem State.adapterOp_keeps (s : State) (b : List Byte) :
    (State.adapterOp s b).kept.part = s.kept.part ∧ (State.adapterOp s b).kept.pending = s.kept.pending ∧
    (State.adapterOp s b).kept.regs = s.kept.regs ∧ (State.adapterOp s b).kept.blobs = s.kept.blobs ∧
    (State.adapterOp s b).kept.boot = s.kept.boot ∧ (State.adapterOp s b).kept.slot = s.kept.slot ∧
    (State.adapterOp s b).kept.frame = s.kept.frame ∧ (State.adapterOp s b).kept.txs = s.kept.txs ∧
    (State.adapterOp s b).kept.ended = s.kept.ended ∧ (State.adapterOp s b).kept.cache = s.kept.cache ∧
    (State.adapterOp s b).kept.sram = s.kept.sram ∧ (State.adapterOp s b).kept.hbm = s.kept.hbm := by
  unfold State.adapterOp
  have h := State.readBundle_keeps s true b
  generalize s.readBundle true b = r at h ⊢
  obtain ⟨r, t⟩ := r
  cases r <;> dsimp only at h ⊢
  · simpa using h
  · (repeat' split) <;> simp [State.fold_kept, State.kept_mk] <;> simp_all [State.fold_kept]

@[simp] theorem State.repairOp_kept (s : State) (b : List Byte) :
    (State.repairOp s b).kept = s.kept := by
  unfold State.repairOp; dsimp only; (repeat' split) <;> simp [State.fold_kept, State.kept_mk]

@[simp] theorem State.deleteOp_kept (s : State) :
    (State.deleteOp s).kept = s.kept := by
  unfold State.deleteOp; simp [State.fold_kept, State.kept_mk]

@[simp] theorem State.bundleRefused_kept (s : State) :
    (State.bundleRefused s).kept = s.kept := by
  unfold State.bundleRefused; simp [State.fold_kept, State.kept_mk]

@[simp] theorem execStoreOpComplete_keeps (cyc : Nat) (bundle : BundleRead) (s : State) :
    (outcomeState s (execStoreOpComplete cyc bundle s)).kept.part = s.kept.part ∧
    (outcomeState s (execStoreOpComplete cyc bundle s)).kept.pending = s.kept.pending ∧
    (outcomeState s (execStoreOpComplete cyc bundle s)).kept.regs = s.kept.regs ∧
    (outcomeState s (execStoreOpComplete cyc bundle s)).kept.blobs = s.kept.blobs ∧
    (outcomeState s (execStoreOpComplete cyc bundle s)).kept.boot = s.kept.boot ∧
    (outcomeState s (execStoreOpComplete cyc bundle s)).kept.slot = s.kept.slot ∧
    (outcomeState s (execStoreOpComplete cyc bundle s)).kept.frame = s.kept.frame ∧
    (outcomeState s (execStoreOpComplete cyc bundle s)).kept.txs = s.kept.txs ∧
    (outcomeState s (execStoreOpComplete cyc bundle s)).kept.ended = s.kept.ended ∧
    (outcomeState s (execStoreOpComplete cyc bundle s)).kept.cache = s.kept.cache ∧
    (outcomeState s (execStoreOpComplete cyc bundle s)).kept.sram = s.kept.sram ∧
    (outcomeState s (execStoreOpComplete cyc bundle s)).kept.hbm = s.kept.hbm := by
  unfold execStoreOpComplete; dsimp only; (repeat' split) <;> simp [State.fold_kept, State.kept_mk]

@[simp] theorem State.storeReadLost_kept (s : State) (failed : Bool) (stack logical tag shard : Nat) :
    (State.storeReadLost s failed stack logical tag shard).kept = s.kept := by
  unfold State.storeReadLost; simp

@[simp] theorem State.storeReadDone_kept (s : State) (i read : Nat) (got : List Host.Cell) (bad : Bool) :
    (State.storeReadDone s i read got bad).kept = s.kept := by
  unfold State.storeReadDone; simp

@[simp] theorem execStoreReadComplete_kept (cyc read retries : Nat) (decoded : Bool) (s : State) :
    (outcomeState s (execStoreReadComplete cyc read retries decoded s)).kept = s.kept := by
  unfold execStoreReadComplete
  split
  · simp
  · simp only [outcomeState_next, State.storeReadDone_kept]
    split <;> simp

@[simp] theorem execBlockRelocate_kept (cyc stack block : Nat) (s : State) :
    (outcomeState s (execBlockRelocate cyc stack block s)).kept = s.kept := by
  unfold execBlockRelocate; (repeat' split) <;> simp [State.fold_kept, State.kept_mk]

@[simp] theorem execStoStackInitComplete_kept (stack spareBlocks wear : Nat) (s : State) :
    (outcomeState s (execStoStackInitComplete stack spareBlocks wear s)).kept = s.kept := by
  unfold execStoStackInitComplete; (repeat' split) <;> simp [State.fold_kept, State.kept_mk]

@[simp] theorem State.setPatrolFails_kept (s : State) (tag shard n : Nat) :
    (State.setPatrolFails s tag shard n).kept = s.kept := by
  unfold State.setPatrolFails; simp [State.fold_kept, State.kept_mk]

@[simp] theorem execStorePatrol_kept (cyc tag shard : Nat) (matched : Bool) (s : State) :
    (outcomeState s (execStorePatrol cyc tag shard matched s)).kept = s.kept := by
  unfold execStorePatrol; (repeat' split) <;> simp

end Sys2Proof.Machine
end

