-- ==== Sys2Proof/Laws/Sync.lean ====
section
/-! SUPPORT. What the operations of Machine/Sync.lean leave alone. -/

namespace Sys2Proof.Machine

@[simp] theorem State.passBroken_kept (s : State) (k cause : Nat) :
    (State.passBroken s k cause).kept = s.kept := by
  unfold State.passBroken; simp [State.fold_kept, State.kept_mk]

@[simp] theorem execSyncSignal_kept (cyc station input : Nat) (s : State) :
    (outcomeState s (execSyncSignal cyc station input s)).kept = s.kept := by
  unfold execSyncSignal; dsimp only; (repeat' split) <;> simp [State.fold_kept, State.kept_mk]

@[simp] theorem execSyncWait_kept (cyc station input : Nat) (s : State) :
    (outcomeState s (execSyncWait cyc station input s)).kept = s.kept := by
  unfold execSyncWait; dsimp only; (repeat' split) <;> simp [State.fold_kept, State.kept_mk]

@[simp] theorem State.arriveAt_kept (s : State) (k : Nat) (o : SyncOp) (moves : Bool) :
    (State.arriveAt s k o moves).kept = s.kept := by
  unfold State.arriveAt; simp [State.fold_kept, State.kept_mk]

@[simp] theorem execSyncArrive_kept (cyc station input : Nat) (s : State) :
    (outcomeState s (execSyncArrive cyc station input s)).kept = s.kept := by
  unfold execSyncArrive; (repeat' split) <;> simp [State.fold_kept, State.kept_mk]

@[simp] theorem execSyncBarrier_kept (cyc station input : Nat) (s : State) :
    (outcomeState s (execSyncBarrier cyc station input s)).kept = s.kept := by
  unfold execSyncBarrier; (repeat' split) <;> simp [State.fold_kept, State.kept_mk]

@[simp] theorem State.tileLeft_kept (s : State) (station input : Nat) :
    (State.tileLeft s station input).kept = s.kept := by
  unfold State.tileLeft; dsimp only; (repeat' split) <;> simp [State.fold_kept, State.kept_mk]

@[simp] theorem State.openNode_kept (s : State) (object : Nat) :
    (State.openNode s object).kept = s.kept := by
  unfold State.openNode; simp [State.fold_kept, State.kept_mk]

@[simp] theorem State.waitReleased_kept (s : State) (object threshold : Nat) :
    (State.waitReleased s object threshold).kept = s.kept := by
  unfold State.waitReleased; (repeat' split) <;> simp [State.fold_kept, State.kept_mk]

@[simp] theorem State.broken_kept (s : State) (object cause : Nat) :
    (State.broken s object cause).kept = s.kept := by
  unfold State.broken; simp [State.fold_kept, State.kept_mk]

@[simp] theorem State.syncPacket_kept (s : State) (h : PacketHeader) :
    (State.syncPacket s h).kept = s.kept := by
  unfold State.syncPacket; (repeat' split) <;> simp [State.fold_kept, State.kept_mk]

@[simp] theorem execSpanSignal_kept (cyc object amount : Nat) (s : State) :
    (outcomeState s (execSpanSignal cyc object amount s)).kept = s.kept := by
  unfold execSpanSignal; (repeat' split) <;> simp [State.fold_kept, State.kept_mk]

@[simp] theorem execRegister_kept (cyc object : Nat) (w : WaitReg) (s : State) :
    (outcomeState s (execRegister cyc object w s)).kept = s.kept := by
  unfold execRegister; (repeat' split) <;> simp [State.fold_kept, State.kept_mk]

@[simp] theorem execWaitRelease_kept (cyc station input : Nat) (s : State) :
    (outcomeState s (execWaitRelease cyc station input s)).kept = s.kept := by
  unfold execWaitRelease; dsimp only; (repeat' split) <;> simp [State.fold_kept, State.kept_mk]

@[simp] theorem execArrive_kept (cyc object : Nat) (s : State) :
    (outcomeState s (execArrive cyc object s)).kept = s.kept := by
  unfold execArrive; (repeat' split) <;> simp [State.fold_kept, State.kept_mk]

@[simp] theorem execRelease_kept (cyc object : Nat) (s : State) :
    (outcomeState s (execRelease cyc object s)).kept = s.kept := by
  unfold execRelease; (repeat' split) <;> simp [State.fold_kept, State.kept_mk]

@[simp] theorem execReleased_kept (cyc object : Nat) (s : State) :
    (outcomeState s (execReleased cyc object s)).kept = s.kept := by
  unfold execReleased; (repeat' split) <;> simp [State.fold_kept, State.kept_mk]

@[simp] theorem execReopen_kept (cyc object : Nat) (s : State) :
    (outcomeState s (execReopen cyc object s)).kept = s.kept := by
  unfold execReopen; (repeat' split) <;> simp [State.fold_kept, State.kept_mk]

@[simp] theorem execBreakNode_kept (cyc object cause : Nat) (s : State) :
    (outcomeState s (execBreakNode cyc object cause s)).kept = s.kept := by
  unfold execBreakNode; (repeat' split) <;> simp [State.fold_kept, State.kept_mk]

@[simp] theorem execGuardExpired_kept (cyc station input : Nat) (s : State) :
    (outcomeState s (execGuardExpired cyc station input s)).kept = s.kept := by
  unfold execGuardExpired; dsimp only; (repeat' split) <;> simp [State.fold_kept, State.kept_mk]

@[simp] theorem State.endHold_kept (s : State) :
    (State.endHold s).kept = s.kept := by
  unfold State.endHold; (repeat' split) <;> simp [State.fold_kept, State.kept_mk]

@[simp] theorem State.planResume_kept (s : State) :
    (State.planResume s).kept = s.kept := by
  unfold State.planResume; (repeat' split) <;> simp [State.fold_kept, State.kept_mk]

@[simp] theorem execContextSaved_kept (cyc saveCycles : Nat) (s : State) :
    (outcomeState s (execContextSaved cyc saveCycles s)).kept = s.kept := by
  unfold execContextSaved; (repeat' split) <;> simp [State.fold_kept, State.kept_mk]

@[simp] theorem State.sendReq_kept (s : State) (i number offset : Nat) :
    (State.sendReq s i number offset).kept = s.kept := by
  unfold State.sendReq; (repeat' split) <;> simp [State.fold_kept, State.kept_mk]

@[simp] theorem State.reissue_kept (s : State) :
    (State.reissue s).kept = s.kept := by
  unfold State.reissue; simp [State.fold_kept, State.kept_mk]

@[simp] theorem State.applyRelease_kept (s : State) (x : Nat × Nat) :
    (State.applyRelease s x).kept = s.kept := by
  unfold State.applyRelease; simp [State.fold_kept, State.kept_mk]

@[simp] theorem State.startRestore_kept (s : State) (c : SavedContext) :
    (State.startRestore s c).kept = s.kept := by
  unfold State.startRestore; simp [State.fold_kept, State.kept_mk]

@[simp] theorem State.resumeBatch_kept (s : State) (b : SavedBatch) :
    (State.resumeBatch s b).kept = s.kept := by
  unfold State.resumeBatch; (repeat' split) <;> simp [State.fold_kept, State.kept_mk]

@[simp] theorem execContextRestored_keeps (cyc : Nat) (s : State) :
    (outcomeState s (execContextRestored cyc s)).kept.part = s.kept.part ∧
    (outcomeState s (execContextRestored cyc s)).kept.pending = s.kept.pending ∧
    (outcomeState s (execContextRestored cyc s)).kept.regs = s.kept.regs ∧
    (outcomeState s (execContextRestored cyc s)).kept.blobs = s.kept.blobs ∧
    (outcomeState s (execContextRestored cyc s)).kept.boot = s.kept.boot ∧
    (outcomeState s (execContextRestored cyc s)).kept.sec = s.kept.sec ∧
    (outcomeState s (execContextRestored cyc s)).kept.slot = s.kept.slot ∧
    (outcomeState s (execContextRestored cyc s)).kept.frame = s.kept.frame ∧
    (outcomeState s (execContextRestored cyc s)).kept.txs = s.kept.txs ∧
    (outcomeState s (execContextRestored cyc s)).kept.ended = s.kept.ended ∧
    (outcomeState s (execContextRestored cyc s)).kept.cache = s.kept.cache ∧
    (outcomeState s (execContextRestored cyc s)).kept.hbm = s.kept.hbm := by
  unfold execContextRestored; (repeat' split) <;> simp [State.fold_kept, State.kept_mk]

@[simp] theorem State.discardContext_kept (s : State) (f : State → Nat → State) (h : ∀ t n, (f t n).kept = t.kept) :
    (s.discardContext f).kept = s.kept := by
  unfold State.discardContext
  split
  · rfl
  · dsimp only
    rw [h]
    simp [State.fold_kept, State.kept_mk]

end Sys2Proof.Machine
end

