-- ==== Sys2Proof/Laws/Lace.lean ====
section
/-! SUPPORT. What the operations of Machine/Lace.lean leave alone. -/

namespace Sys2Proof.Machine

@[simp] theorem State.viewChanged_kept (s before : State) :
    (State.viewChanged s before).kept = s.kept := by
  unfold State.viewChanged; simp [State.fold_kept, State.kept_mk]

@[simp] theorem State.declareMissing_kept (s : State) (p : Nat) :
    (State.declareMissing s p).kept = s.kept := by
  unfold State.declareMissing; simp [State.fold_kept, State.kept_mk]

@[simp] theorem State.applyLost_kept (s : State) (p l : Nat) :
    (State.applyLost s p l).kept = s.kept := by
  unfold State.applyLost; simp [State.fold_kept, State.kept_mk]

@[simp] theorem State.sendNotice_kept (s : State) (notice subject lace effective : Nat) :
    (State.sendNotice s notice subject lace effective).kept = s.kept := by
  unfold State.sendNotice; simp [State.fold_kept, State.kept_mk]

@[simp] theorem State.laceDown_kept (s : State) (l cause : Nat) (notice : Bool) :
    (State.laceDown s l cause notice).kept = s.kept := by
  unfold State.laceDown; (repeat' split) <;> simp [State.fold_kept, State.kept_mk]

@[simp] theorem State.retrain_kept (s : State) (l : Nat) :
    (State.retrain s l).kept = s.kept := by
  unfold State.retrain; simp [State.fold_kept, State.kept_mk]

@[simp] theorem State.noteReplay_kept (s : State) (l : Nat) :
    (State.noteReplay s l).kept = s.kept := by
  unfold State.noteReplay; dsimp only; (repeat' split) <;> simp [State.fold_kept, State.kept_mk]

@[simp] theorem State.countReplay_kept (s : State) (l : Nat) :
    (State.countReplay s l).kept = s.kept := by
  unfold State.countReplay; simp [State.fold_kept, State.kept_mk]

@[simp] theorem execLaceLightDetected_kept (lace : Nat) (s : State) :
    (outcomeState s (execLaceLightDetected lace s)).kept = s.kept := by
  unfold execLaceLightDetected; (repeat' split) <;> simp [State.fold_kept, State.kept_mk]

@[simp] theorem execLaceTrainingComplete_kept (cyc lace : Nat) (s : State) :
    (outcomeState s (execLaceTrainingComplete cyc lace s)).kept = s.kept := by
  unfold execLaceTrainingComplete; (repeat' split) <;> simp [State.fold_kept, State.kept_mk]

@[simp] theorem execLaceTrainingTimeout_kept (cyc lace : Nat) (s : State) :
    (outcomeState s (execLaceTrainingTimeout cyc lace s)).kept = s.kept := by
  unfold execLaceTrainingTimeout; (repeat' split) <;> simp [State.fold_kept, State.kept_mk]

@[simp] theorem execLaceMiswiredRetry_kept (lace : Nat) (s : State) :
    (outcomeState s (execLaceMiswiredRetry lace s)).kept = s.kept := by
  unfold execLaceMiswiredRetry; (repeat' split) <;> simp [State.fold_kept, State.kept_mk]

@[simp] theorem execRingHeaterStep_kept (cyc lace : Nat) (step failed : Bool) (rxPower : Int) (s : State) :
    (outcomeState s (execRingHeaterStep cyc lace step failed rxPower s)).kept = s.kept := by
  unfold execRingHeaterStep; (repeat' split) <;> simp [State.fold_kept, State.kept_mk]

@[simp] theorem execLaceLightLost_kept (cyc lace : Nat) (s : State) :
    (outcomeState s (execLaceLightLost cyc lace s)).kept = s.kept := by
  unfold execLaceLightLost; (repeat' split) <;> simp [State.fold_kept, State.kept_mk]

@[simp] theorem execHello_kept (cyc lace : Nat) (m : HelloMsg) (s : State) :
    (outcomeState s (execHello cyc lace m s)).kept = s.kept := by
  unfold execHello; (repeat' split) <;> simp [State.fold_kept, State.kept_mk]

@[simp] theorem execHelloAck_kept (cyc lace : Nat) (m : HelloMsg) (echoFst : Nat) (s : State) :
    (outcomeState s (execHelloAck cyc lace m echoFst s)).kept = s.kept := by
  unfold execHelloAck; dsimp only; (repeat' split) <;> simp [State.fold_kept, State.kept_mk]

@[simp] theorem execNotReady_kept (lace retryAfter : Nat) (s : State) :
    (outcomeState s (execNotReady lace retryAfter s)).kept = s.kept := by
  unfold execNotReady; (repeat' split) <;> simp [State.fold_kept, State.kept_mk]

@[simp] theorem State.laceEmit_kept (s : State) (i : Nat) :
    (State.laceEmit s i).kept = s.kept := by
  unfold State.laceEmit; (repeat' split) <;> simp [State.fold_kept, State.kept_mk]

@[simp] theorem State.lacePoison_kept (s : State) (flits : List Flit) :
    (State.lacePoison s flits).kept = s.kept := by
  unfold State.lacePoison; simp [State.fold_kept, State.kept_mk]

@[simp] theorem State.dataPacket_kept (s : State) (h : PacketHeader) (flits : List Flit) :
    (State.dataPacket s h flits).kept = s.kept := by
  unfold State.dataPacket; (repeat' split) <;> simp [State.fold_kept, State.kept_mk]

@[simp] theorem State.rspPacket_kept (s : State) (h : PacketHeader) (flits : List Flit) :
    (State.rspPacket s h flits).kept = s.kept := by
  unfold State.rspPacket; dsimp only; (repeat' split) <;> simp [State.fold_kept, State.kept_mk]

@[simp] theorem State.answerFlits_keeps (at_ : Nat → Nat) (first size total x0 x1 : Nat) (s : State) :
    (State.answerFlits at_ first size total x0 x1 s).2.kept.part = s.kept.part ∧
    (State.answerFlits at_ first size total x0 x1 s).2.kept.pending = s.kept.pending ∧
    (State.answerFlits at_ first size total x0 x1 s).2.kept.regs = s.kept.regs ∧
    (State.answerFlits at_ first size total x0 x1 s).2.kept.blobs = s.kept.blobs ∧
    (State.answerFlits at_ first size total x0 x1 s).2.kept.boot = s.kept.boot ∧
    (State.answerFlits at_ first size total x0 x1 s).2.kept.sec = s.kept.sec ∧
    (State.answerFlits at_ first size total x0 x1 s).2.kept.slot = s.kept.slot ∧
    (State.answerFlits at_ first size total x0 x1 s).2.kept.frame = s.kept.frame ∧
    (State.answerFlits at_ first size total x0 x1 s).2.kept.txs = s.kept.txs ∧
    (State.answerFlits at_ first size total x0 x1 s).2.kept.ended = s.kept.ended ∧
    (State.answerFlits at_ first size total x0 x1 s).2.kept.cache = s.kept.cache ∧
    (State.answerFlits at_ first size total x0 x1 s).2.kept.sram = s.kept.sram := by
  induction x0 generalizing s x1 with
  | zero => simp [State.answerFlits]
  | succ n ih => simp [State.answerFlits, ih]

@[simp] theorem State.storeAnswer_kept (s : State) (e : TensorEntry) (first n : Nat) :
    (State.storeAnswer s e first n).2.kept = s.kept := by
  unfold State.storeAnswer; simp

@[simp] theorem State.reqPacket_keeps (s : State) (h : PacketHeader) :
    (State.reqPacket s h).kept.part = s.kept.part ∧ (State.reqPacket s h).kept.pending = s.kept.pending ∧
    (State.reqPacket s h).kept.regs = s.kept.regs ∧ (State.reqPacket s h).kept.blobs = s.kept.blobs ∧
    (State.reqPacket s h).kept.boot = s.kept.boot ∧ (State.reqPacket s h).kept.sec = s.kept.sec ∧
    (State.reqPacket s h).kept.slot = s.kept.slot ∧ (State.reqPacket s h).kept.frame = s.kept.frame ∧
    (State.reqPacket s h).kept.txs = s.kept.txs ∧ (State.reqPacket s h).kept.ended = s.kept.ended ∧
    (State.reqPacket s h).kept.cache = s.kept.cache ∧ (State.reqPacket s h).kept.sram = s.kept.sram := by
  unfold State.reqPacket; dsimp only; (repeat' split) <;> simp [State.fold_kept, State.kept_mk]

@[simp] theorem State.packetIn_keeps (s : State) (l vc : Nat) (h : PacketHeader) (flits : List Flit) :
    (State.packetIn s l vc h flits).kept.part = s.kept.part ∧
    (State.packetIn s l vc h flits).kept.pending = s.kept.pending ∧
    (State.packetIn s l vc h flits).kept.regs = s.kept.regs ∧
    (State.packetIn s l vc h flits).kept.blobs = s.kept.blobs ∧
    (State.packetIn s l vc h flits).kept.boot = s.kept.boot ∧ (State.packetIn s l vc h flits).kept.sec = s.kept.sec ∧
    (State.packetIn s l vc h flits).kept.slot = s.kept.slot ∧
    (State.packetIn s l vc h flits).kept.frame = s.kept.frame ∧
    (State.packetIn s l vc h flits).kept.txs = s.kept.txs ∧
    (State.packetIn s l vc h flits).kept.ended = s.kept.ended ∧
    (State.packetIn s l vc h flits).kept.cache = s.kept.cache ∧
    (State.packetIn s l vc h flits).kept.sram = s.kept.sram := by
  unfold State.packetIn; dsimp only; (repeat' split) <;> simp [State.fold_kept, State.kept_mk]

@[simp] theorem State.slotIn_keeps (s : State) (l : Nat) (x : LaceSlot) :
    (State.slotIn s l x).kept.part = s.kept.part ∧ (State.slotIn s l x).kept.pending = s.kept.pending ∧
    (State.slotIn s l x).kept.regs = s.kept.regs ∧ (State.slotIn s l x).kept.blobs = s.kept.blobs ∧
    (State.slotIn s l x).kept.boot = s.kept.boot ∧ (State.slotIn s l x).kept.sec = s.kept.sec ∧
    (State.slotIn s l x).kept.slot = s.kept.slot ∧ (State.slotIn s l x).kept.frame = s.kept.frame ∧
    (State.slotIn s l x).kept.txs = s.kept.txs ∧ (State.slotIn s l x).kept.ended = s.kept.ended ∧
    (State.slotIn s l x).kept.cache = s.kept.cache ∧ (State.slotIn s l x).kept.sram = s.kept.sram := by
  unfold State.slotIn; (repeat' split) <;> simp [State.fold_kept, State.kept_mk] <;> (repeat' split) <;> simp

@[simp] theorem State.frameLost_kept (s : State) (l : Nat) (code : Bool) :
    (State.frameLost s l code).kept = s.kept := by
  unfold State.frameLost; simp [State.fold_kept, State.kept_mk]

@[simp] theorem execLaceFrameReceived_keeps (cyc lace : Nat) (f : LaceFrame) (s : State) :
    (outcomeState s (execLaceFrameReceived cyc lace f s)).kept.part = s.kept.part ∧
    (outcomeState s (execLaceFrameReceived cyc lace f s)).kept.pending = s.kept.pending ∧
    (outcomeState s (execLaceFrameReceived cyc lace f s)).kept.regs = s.kept.regs ∧
    (outcomeState s (execLaceFrameReceived cyc lace f s)).kept.blobs = s.kept.blobs ∧
    (outcomeState s (execLaceFrameReceived cyc lace f s)).kept.boot = s.kept.boot ∧
    (outcomeState s (execLaceFrameReceived cyc lace f s)).kept.sec = s.kept.sec ∧
    (outcomeState s (execLaceFrameReceived cyc lace f s)).kept.slot = s.kept.slot ∧
    (outcomeState s (execLaceFrameReceived cyc lace f s)).kept.frame = s.kept.frame ∧
    (outcomeState s (execLaceFrameReceived cyc lace f s)).kept.txs = s.kept.txs ∧
    (outcomeState s (execLaceFrameReceived cyc lace f s)).kept.ended = s.kept.ended ∧
    (outcomeState s (execLaceFrameReceived cyc lace f s)).kept.cache = s.kept.cache ∧
    (outcomeState s (execLaceFrameReceived cyc lace f s)).kept.sram = s.kept.sram := by
  unfold execLaceFrameReceived; (repeat' split) <;> simp [State.fold_kept, State.kept_mk] <;> (repeat' split) <;> simp

@[simp] theorem execReplayReq_kept (cyc lace fromSeq : Nat) (s : State) :
    (outcomeState s (execReplayReq cyc lace fromSeq s)).kept = s.kept := by
  unfold execReplayReq; (repeat' split) <;> simp [State.fold_kept, State.kept_mk]

@[simp] theorem State.see_kept (s : State) (origin seq : Nat) :
    (State.see s origin seq).kept = s.kept := by
  unfold State.see; simp [State.fold_kept, State.kept_mk]

@[simp] theorem State.hearReturned_kept (s : State) (m : LinkNoticeMsg) :
    (State.hearReturned s m).kept = s.kept := by
  unfold State.hearReturned; dsimp only; (repeat' split) <;> simp [State.fold_kept, State.kept_mk]

@[simp] theorem execLinkNotice_kept (cyc lace : Nat) (m : LinkNoticeMsg) (s : State) :
    (outcomeState s (execLinkNotice cyc lace m s)).kept = s.kept := by
  unfold execLinkNotice; (repeat' split) <;> simp [State.fold_kept, State.kept_mk]

@[simp] theorem execGoodbye_kept (cyc lace position : Nat) (s : State) :
    (outcomeState s (execGoodbye cyc lace position s)).kept = s.kept := by
  unfold execGoodbye; (repeat' split) <;> simp [State.fold_kept, State.kept_mk]

@[simp] theorem execSpanHello_kept (cyc lace origin tag mask : Nat) (s : State) :
    (outcomeState s (execSpanHello cyc lace origin tag mask s)).kept = s.kept := by
  unfold execSpanHello; (repeat' split) <;> simp [State.fold_kept, State.kept_mk]

@[simp] theorem execSpanFault_kept (cyc lace origin seq tag subject : Nat) (s : State) :
    (outcomeState s (execSpanFault cyc lace origin seq tag subject s)).kept = s.kept := by
  unfold execSpanFault; (repeat' split) <;> simp [State.fold_kept, State.kept_mk]

@[simp] theorem execSpanCommit_kept (mask tag : Nat) (s : State) :
    (outcomeState s (execSpanCommit mask tag s)).kept = s.kept := by
  unfold execSpanCommit; (repeat' split) <;> simp [State.fold_kept, State.kept_mk]

@[simp] theorem State.startLeaving_kept (s : State) (effective : Nat) :
    (State.startLeaving s effective).kept = s.kept := by
  unfold State.startLeaving; simp [State.fold_kept, State.kept_mk]

@[simp] theorem execLeavingDrained_kept (cyc lace : Nat) (s : State) :
    (outcomeState s (execLeavingDrained cyc lace s)).kept = s.kept := by
  unfold execLeavingDrained; (repeat' split) <;> simp [State.fold_kept, State.kept_mk]

@[simp] theorem State.laceUp_kept (s : State) (l : Nat) :
    (State.laceUp s l).kept = s.kept := by
  unfold State.laceUp; dsimp only; (repeat' split) <;> simp [State.fold_kept, State.kept_mk]

@[simp] theorem State.laceSlot_kept (s : State) (l : Nat) :
    (State.laceSlot s l).kept = s.kept := by
  unfold State.laceSlot; dsimp only; (repeat' split) <;> simp [State.fold_kept, State.kept_mk]

@[simp] theorem State.laceWiden_kept (s : State) (l : Nat) :
    (State.laceWiden s l).kept = s.kept := by
  unfold State.laceWiden; simp [State.fold_kept, State.kept_mk]

@[simp] theorem State.applyReturned_kept (s : State) (m : LinkNoticeMsg) :
    (State.applyReturned s m).kept = s.kept := by
  unfold State.applyReturned; simp [State.fold_kept, State.kept_mk]

@[simp] theorem State.laceBoundary_kept (s : State) (frame : Bool) :
    (State.laceBoundary s frame).kept = s.kept := by
  unfold State.laceBoundary; simp [State.fold_kept, State.kept_mk]

@[simp] theorem State.eyeletOn_kept (s : State) (e : Nat) :
    (State.eyeletOn s e).kept = s.kept := by
  unfold State.eyeletOn; simp [State.fold_kept, State.kept_mk]

@[simp] theorem State.eyeletOff_kept (s : State) (e : Nat) :
    (State.eyeletOff s e).kept = s.kept := by
  unfold State.eyeletOff; simp [State.fold_kept, State.kept_mk]

@[simp] theorem execLaserInputLost_kept (cyc eyelet input : Nat) (s : State) :
    (outcomeState s (execLaserInputLost cyc eyelet input s)).kept = s.kept := by
  unfold execLaserInputLost; (repeat' split) <;> simp [State.fold_kept, State.kept_mk]

@[simp] theorem execLaserInputReturn_kept (cyc eyelet input : Nat) (s : State) :
    (outcomeState s (execLaserInputReturn cyc eyelet input s)).kept = s.kept := by
  unfold execLaserInputReturn; (repeat' split) <;> simp [State.fold_kept, State.kept_mk]

end Sys2Proof.Machine
end

