-- ==== Sys2Proof/Laws/Loader.lean ====
section
/-! SUPPORT. What the operations of Machine/Loader.lean leave alone. -/

namespace Sys2Proof.Machine

@[simp] theorem State.acceptLoad_kept (s : State) (n image : Nat) (h : ImageHeader) :
    (State.acceptLoad s n image h).kept = s.kept := by
  unfold State.acceptLoad; simp [State.fold_kept, State.kept_mk]

@[simp] theorem execLoadRequest_kept (slot image : Nat) (s : State) :
    (outcomeState s (execLoadRequest slot image s)).kept = s.kept := by
  unfold execLoadRequest; dsimp only; (repeat' split) <;> simp [State.fold_kept, State.kept_mk]

@[simp] theorem execSlotFreeRequest_kept (slot : Nat) (s : State) :
    (outcomeState s (execSlotFreeRequest slot s)).kept = s.kept := by
  unfold execSlotFreeRequest; (repeat' split) <;> simp [State.fold_kept, State.kept_mk]

@[simp] theorem execLoadBegin_kept (s : State) :
    (outcomeState s (execLoadBegin s)).kept = s.kept := by
  unfold execLoadBegin; (repeat' split) <;> simp [State.fold_kept, State.kept_mk]

@[simp] theorem State.validateImage_keeps (s : State) (bs : List Byte) :
    (State.validateImage s bs).2.kept.part = s.kept.part ∧ (State.validateImage s bs).2.kept.pending = s.kept.pending ∧
    (State.validateImage s bs).2.kept.regs = s.kept.regs ∧ (State.validateImage s bs).2.kept.blobs = s.kept.blobs ∧
    (State.validateImage s bs).2.kept.boot = s.kept.boot ∧ (State.validateImage s bs).2.kept.slot = s.kept.slot ∧
    (State.validateImage s bs).2.kept.frame = s.kept.frame ∧ (State.validateImage s bs).2.kept.txs = s.kept.txs ∧
    (State.validateImage s bs).2.kept.ended = s.kept.ended ∧ (State.validateImage s bs).2.kept.cache = s.kept.cache ∧
    (State.validateImage s bs).2.kept.sram = s.kept.sram ∧ (State.validateImage s bs).2.kept.hbm = s.kept.hbm := by
  unfold State.validateImage; dsimp only; (repeat' split) <;> simp [State.fold_kept, State.kept_mk]

@[simp] theorem State.loadFailed_kept (s : State) (n lastId : Nat) (e : LoadFault) :
    (State.loadFailed s n lastId e).kept = s.kept := by
  unfold State.loadFailed; simp [State.fold_kept, State.kept_mk]

@[simp] theorem State.loadReady_kept (s : State) (n image : Nat) (m : Image) :
    (State.loadReady s n image m).kept = s.kept := by
  unfold State.loadReady; simp [State.fold_kept, State.kept_mk]

@[simp] theorem execLoadComplete_keeps (cyc : Nat) (s : State) :
    (outcomeState s (execLoadComplete cyc s)).kept.part = s.kept.part ∧
    (outcomeState s (execLoadComplete cyc s)).kept.pending = s.kept.pending ∧
    (outcomeState s (execLoadComplete cyc s)).kept.regs = s.kept.regs ∧
    (outcomeState s (execLoadComplete cyc s)).kept.blobs = s.kept.blobs ∧
    (outcomeState s (execLoadComplete cyc s)).kept.boot = s.kept.boot ∧
    (outcomeState s (execLoadComplete cyc s)).kept.slot = s.kept.slot ∧
    (outcomeState s (execLoadComplete cyc s)).kept.frame = s.kept.frame ∧
    (outcomeState s (execLoadComplete cyc s)).kept.txs = s.kept.txs ∧
    (outcomeState s (execLoadComplete cyc s)).kept.ended = s.kept.ended ∧
    (outcomeState s (execLoadComplete cyc s)).kept.cache = s.kept.cache ∧
    (outcomeState s (execLoadComplete cyc s)).kept.sram = s.kept.sram ∧
    (outcomeState s (execLoadComplete cyc s)).kept.hbm = s.kept.hbm := by
  unfold execLoadComplete
  split
  · simp
  · dsimp only
    split
    · simp [State.fold_kept, State.kept_mk]
    · split <;> simp [State.fold_kept, State.kept_mk]

@[simp] theorem State.emptySlots_kept (s : State) :
    (State.emptySlots s).kept = s.kept := by
  unfold State.emptySlots; simp [State.fold_kept, State.kept_mk]

@[simp] theorem State.loadInto_kept (s : State) (image : Nat) (l : StagedLast) :
    (State.loadInto s image l).kept = s.kept := by
  unfold State.loadInto; dsimp only; (repeat' split) <;> simp [State.fold_kept, State.kept_mk]

@[simp] theorem State.reload_kept (s : State) :
    (State.reload s).kept = s.kept := by
  unfold State.reload; simp [State.fold_kept, State.kept_mk]

end Sys2Proof.Machine
end

