-- ==== Sys2Proof/Laws/Switch.lean ====
section
/-! SUPPORT. What the operations of Machine/Switch.lean leave alone. -/

namespace Sys2Proof.Machine

@[simp] theorem State.placeTensor_keeps (s : State) (epoch number : Nat) (e : TensorEntry) (data : List Byte) :
    (State.placeTensor s epoch number e data).kept.part = s.kept.part ∧
    (State.placeTensor s epoch number e data).kept.pending = s.kept.pending ∧
    (State.placeTensor s epoch number e data).kept.regs = s.kept.regs ∧
    (State.placeTensor s epoch number e data).kept.blobs = s.kept.blobs ∧
    (State.placeTensor s epoch number e data).kept.boot = s.kept.boot ∧
    (State.placeTensor s epoch number e data).kept.sec = s.kept.sec ∧
    (State.placeTensor s epoch number e data).kept.slot = s.kept.slot ∧
    (State.placeTensor s epoch number e data).kept.frame = s.kept.frame ∧
    (State.placeTensor s epoch number e data).kept.txs = s.kept.txs ∧
    (State.placeTensor s epoch number e data).kept.ended = s.kept.ended ∧
    (State.placeTensor s epoch number e data).kept.cache = s.kept.cache ∧
    (State.placeTensor s epoch number e data).kept.sram = s.kept.sram := by
  have h : ({ (State.placeTensor s epoch number e data).kept with hbm := [] } : Kept) = { s.kept with hbm := [] } := by
    unfold State.placeTensor
    refine State.keeps_foldl (fun t : State => ({ t.kept with hbm := [] } : Kept)) (fun t a => ?_) _ _
    refine State.keeps_foldl (fun t : State => ({ t.kept with hbm := [] } : Kept)) (fun t a => ?_) _ _
    simp
  simpa using h

@[simp] theorem State.placeShard_keeps (s : State) (r : Resident) (n : Nat) (data : List Byte) :
    (State.placeShard s r n data).kept.part = s.kept.part ∧
    (State.placeShard s r n data).kept.pending = s.kept.pending ∧
    (State.placeShard s r n data).kept.regs = s.kept.regs ∧ (State.placeShard s r n data).kept.blobs = s.kept.blobs ∧
    (State.placeShard s r n data).kept.boot = s.kept.boot ∧ (State.placeShard s r n data).kept.sec = s.kept.sec ∧
    (State.placeShard s r n data).kept.slot = s.kept.slot ∧ (State.placeShard s r n data).kept.frame = s.kept.frame ∧
    (State.placeShard s r n data).kept.txs = s.kept.txs ∧ (State.placeShard s r n data).kept.ended = s.kept.ended ∧
    (State.placeShard s r n data).kept.cache = s.kept.cache ∧
    (State.placeShard s r n data).kept.sram = s.kept.sram := by
  have h : ({ (State.placeShard s r n data).kept with hbm := [] } : Kept) = { s.kept with hbm := [] } := by
    unfold State.placeShard
    dsimp only
    refine State.keeps_foldl (fun t : State => ({ t.kept with hbm := [] } : Kept)) (fun t a => ?_) _ _
    simp
  simpa using h

@[simp] theorem State.placeAdapters_keeps (s : State) (m : Manifest) (n : Nat) (data : List Byte) :
    (State.placeAdapters s m n data).kept.part = s.kept.part ∧
    (State.placeAdapters s m n data).kept.pending = s.kept.pending ∧
    (State.placeAdapters s m n data).kept.regs = s.kept.regs ∧
    (State.placeAdapters s m n data).kept.blobs = s.kept.blobs ∧
    (State.placeAdapters s m n data).kept.boot = s.kept.boot ∧
    (State.placeAdapters s m n data).kept.sec = s.kept.sec ∧
    (State.placeAdapters s m n data).kept.slot = s.kept.slot ∧
    (State.placeAdapters s m n data).kept.frame = s.kept.frame ∧
    (State.placeAdapters s m n data).kept.txs = s.kept.txs ∧
    (State.placeAdapters s m n data).kept.ended = s.kept.ended ∧
    (State.placeAdapters s m n data).kept.cache = s.kept.cache ∧
    (State.placeAdapters s m n data).kept.sram = s.kept.sram := by
  have h : ({ (State.placeAdapters s m n data).kept with hbm := [] } : Kept) = { s.kept with hbm := [] } := by
    unfold State.placeAdapters
    refine State.keeps_foldl (fun t : State => ({ t.kept with hbm := [] } : Kept)) (fun t a => ?_) _ _
    refine State.keeps_foldl (fun t : State => ({ t.kept with hbm := [] } : Kept)) (fun t a => ?_) _ _
    simp
  simpa using h

@[simp] theorem State.commitSwitch_keeps (s : State) (kind target mode asked : Nat) :
    (State.commitSwitch s kind target mode asked).kept.part = s.kept.part ∧
    (State.commitSwitch s kind target mode asked).kept.pending = s.kept.pending ∧
    (State.commitSwitch s kind target mode asked).kept.blobs = s.kept.blobs ∧
    (State.commitSwitch s kind target mode asked).kept.boot = s.kept.boot ∧
    (State.commitSwitch s kind target mode asked).kept.sec = s.kept.sec ∧
    (State.commitSwitch s kind target mode asked).kept.slot = s.kept.slot ∧
    (State.commitSwitch s kind target mode asked).kept.frame = s.kept.frame ∧
    (State.commitSwitch s kind target mode asked).kept.txs = s.kept.txs ∧
    (State.commitSwitch s kind target mode asked).kept.ended = s.kept.ended ∧
    (State.commitSwitch s kind target mode asked).kept.cache = s.kept.cache ∧
    (State.commitSwitch s kind target mode asked).kept.sram = s.kept.sram ∧
    (State.commitSwitch s kind target mode asked).kept.hbm = s.kept.hbm := by
  unfold State.commitSwitch; (repeat' split) <;> simp [State.fold_kept, State.kept_mk]

@[simp] theorem execModelSwitchRequest_keeps (target mode plan : Nat) (s : State) :
    (outcomeState s (execModelSwitchRequest target mode plan s)).kept.part = s.kept.part ∧
    (outcomeState s (execModelSwitchRequest target mode plan s)).kept.pending = s.kept.pending ∧
    (outcomeState s (execModelSwitchRequest target mode plan s)).kept.blobs = s.kept.blobs ∧
    (outcomeState s (execModelSwitchRequest target mode plan s)).kept.boot = s.kept.boot ∧
    (outcomeState s (execModelSwitchRequest target mode plan s)).kept.sec = s.kept.sec ∧
    (outcomeState s (execModelSwitchRequest target mode plan s)).kept.slot = s.kept.slot ∧
    (outcomeState s (execModelSwitchRequest target mode plan s)).kept.frame = s.kept.frame ∧
    (outcomeState s (execModelSwitchRequest target mode plan s)).kept.txs = s.kept.txs ∧
    (outcomeState s (execModelSwitchRequest target mode plan s)).kept.ended = s.kept.ended ∧
    (outcomeState s (execModelSwitchRequest target mode plan s)).kept.cache = s.kept.cache ∧
    (outcomeState s (execModelSwitchRequest target mode plan s)).kept.sram = s.kept.sram ∧
    (outcomeState s (execModelSwitchRequest target mode plan s)).kept.hbm = s.kept.hbm := by
  unfold execModelSwitchRequest; (repeat' split) <;> simp [State.fold_kept, State.kept_mk]

@[simp] theorem execEpochSwitchRequest_keeps (target plan : Nat) (s : State) :
    (outcomeState s (execEpochSwitchRequest target plan s)).kept.part = s.kept.part ∧
    (outcomeState s (execEpochSwitchRequest target plan s)).kept.pending = s.kept.pending ∧
    (outcomeState s (execEpochSwitchRequest target plan s)).kept.blobs = s.kept.blobs ∧
    (outcomeState s (execEpochSwitchRequest target plan s)).kept.boot = s.kept.boot ∧
    (outcomeState s (execEpochSwitchRequest target plan s)).kept.sec = s.kept.sec ∧
    (outcomeState s (execEpochSwitchRequest target plan s)).kept.slot = s.kept.slot ∧
    (outcomeState s (execEpochSwitchRequest target plan s)).kept.frame = s.kept.frame ∧
    (outcomeState s (execEpochSwitchRequest target plan s)).kept.txs = s.kept.txs ∧
    (outcomeState s (execEpochSwitchRequest target plan s)).kept.ended = s.kept.ended ∧
    (outcomeState s (execEpochSwitchRequest target plan s)).kept.cache = s.kept.cache ∧
    (outcomeState s (execEpochSwitchRequest target plan s)).kept.sram = s.kept.sram ∧
    (outcomeState s (execEpochSwitchRequest target plan s)).kept.hbm = s.kept.hbm := by
  unfold execEpochSwitchRequest; (repeat' split) <;> simp [State.fold_kept, State.kept_mk]

@[simp] theorem State.dropIncoming_kept (s : State) :
    (State.dropIncoming s).kept = s.kept := by
  unfold State.dropIncoming; simp [State.fold_kept, State.kept_mk]

@[simp] theorem State.refuseHeld_kept (s : State) :
    (State.refuseHeld s).kept = s.kept := by
  unfold State.refuseHeld; simp [State.fold_kept, State.kept_mk]

@[simp] theorem State.endSwitch_kept (s : State) (result : Nat) :
    (State.endSwitch s result).kept = s.kept := by
  unfold State.endSwitch; simp [State.fold_kept, State.kept_mk]

@[simp] theorem State.commitCancel_keeps (s : State) (value : Nat) :
    (State.commitCancel s value).kept.part = s.kept.part ∧ (State.commitCancel s value).kept.pending = s.kept.pending ∧
    (State.commitCancel s value).kept.blobs = s.kept.blobs ∧ (State.commitCancel s value).kept.boot = s.kept.boot ∧
    (State.commitCancel s value).kept.sec = s.kept.sec ∧ (State.commitCancel s value).kept.slot = s.kept.slot ∧
    (State.commitCancel s value).kept.frame = s.kept.frame ∧ (State.commitCancel s value).kept.txs = s.kept.txs ∧
    (State.commitCancel s value).kept.ended = s.kept.ended ∧ (State.commitCancel s value).kept.cache = s.kept.cache ∧
    (State.commitCancel s value).kept.sram = s.kept.sram ∧ (State.commitCancel s value).kept.hbm = s.kept.hbm := by
  unfold State.commitCancel; (repeat' split) <;> simp [State.fold_kept, State.kept_mk]

@[simp] theorem execSwitchCancel_keeps (value : Nat) (s : State) :
    (outcomeState s (execSwitchCancel value s)).kept.part = s.kept.part ∧
    (outcomeState s (execSwitchCancel value s)).kept.pending = s.kept.pending ∧
    (outcomeState s (execSwitchCancel value s)).kept.blobs = s.kept.blobs ∧
    (outcomeState s (execSwitchCancel value s)).kept.boot = s.kept.boot ∧
    (outcomeState s (execSwitchCancel value s)).kept.sec = s.kept.sec ∧
    (outcomeState s (execSwitchCancel value s)).kept.slot = s.kept.slot ∧
    (outcomeState s (execSwitchCancel value s)).kept.frame = s.kept.frame ∧
    (outcomeState s (execSwitchCancel value s)).kept.txs = s.kept.txs ∧
    (outcomeState s (execSwitchCancel value s)).kept.ended = s.kept.ended ∧
    (outcomeState s (execSwitchCancel value s)).kept.cache = s.kept.cache ∧
    (outcomeState s (execSwitchCancel value s)).kept.sram = s.kept.sram ∧
    (outcomeState s (execSwitchCancel value s)).kept.hbm = s.kept.hbm := by
  unfold execSwitchCancel; (repeat' split) <;> simp [State.fold_kept, State.kept_mk]

@[simp] theorem State.storeLost_kept (s : State) :
    (State.storeLost s).kept = s.kept := by
  unfold State.storeLost; simp [State.fold_kept, State.kept_mk]

@[simp] theorem execStoreStackFailure_kept (cyc stack : Nat) (s : State) :
    (outcomeState s (execStoreStackFailure cyc stack s)).kept = s.kept := by
  unfold execStoreStackFailure; (repeat' split) <;> simp [State.fold_kept, State.kept_mk]

/-- What a change of the store's part keeps. -/
@[simp] theorem State.modStore_kept (s : State) (f : Store → Store) :
    (State.modStore s f).kept = s.kept := by
  unfold State.modStore; simp [State.fold_kept, State.kept_mk]

/-- A wrong digest changes one count alone. -/
@[simp] theorem State.mismatched_kept (s : State) (n : Nat) :
    (State.mismatched s n).kept = s.kept := by
  unfold State.mismatched; simp

@[simp] theorem State.modStaging_kept (s : State) (f : Staging → Staging) :
    (State.modStaging s f).kept = s.kept := by
  unfold State.modStaging; simp [State.fold_kept, State.kept_mk]

@[simp] theorem State.shardFailed_kept (s : State) (tag n : Nat) (x : Shard) (set : Bool) :
    (State.shardFailed s tag n x set).kept = s.kept := by
  unfold State.shardFailed; simp [State.fold_kept, State.kept_mk]

@[simp] theorem State.adapterArrival_keeps (s : State) (a : AdapterLoad) (rest : List AdapterLoad) (n : Nat) (readable : Bool) :
    (State.adapterArrival s a rest n readable).kept.part = s.kept.part ∧
    (State.adapterArrival s a rest n readable).kept.pending = s.kept.pending ∧
    (State.adapterArrival s a rest n readable).kept.regs = s.kept.regs ∧
    (State.adapterArrival s a rest n readable).kept.blobs = s.kept.blobs ∧
    (State.adapterArrival s a rest n readable).kept.boot = s.kept.boot ∧
    (State.adapterArrival s a rest n readable).kept.sec = s.kept.sec ∧
    (State.adapterArrival s a rest n readable).kept.slot = s.kept.slot ∧
    (State.adapterArrival s a rest n readable).kept.frame = s.kept.frame ∧
    (State.adapterArrival s a rest n readable).kept.txs = s.kept.txs ∧
    (State.adapterArrival s a rest n readable).kept.ended = s.kept.ended ∧
    (State.adapterArrival s a rest n readable).kept.cache = s.kept.cache ∧
    (State.adapterArrival s a rest n readable).kept.sram = s.kept.sram := by
  unfold State.adapterArrival; dsimp only; (repeat' split) <;> simp [State.fold_kept, State.kept_mk]

@[simp] theorem State.stagingArrival_keeps (s : State) (g : Staging) (owner n : Nat) (readable : Bool) :
    (State.stagingArrival s g owner n readable).kept.part = s.kept.part ∧
    (State.stagingArrival s g owner n readable).kept.pending = s.kept.pending ∧
    (State.stagingArrival s g owner n readable).kept.regs = s.kept.regs ∧
    (State.stagingArrival s g owner n readable).kept.blobs = s.kept.blobs ∧
    (State.stagingArrival s g owner n readable).kept.boot = s.kept.boot ∧
    (State.stagingArrival s g owner n readable).kept.sec = s.kept.sec ∧
    (State.stagingArrival s g owner n readable).kept.slot = s.kept.slot ∧
    (State.stagingArrival s g owner n readable).kept.frame = s.kept.frame ∧
    (State.stagingArrival s g owner n readable).kept.txs = s.kept.txs ∧
    (State.stagingArrival s g owner n readable).kept.ended = s.kept.ended ∧
    (State.stagingArrival s g owner n readable).kept.cache = s.kept.cache ∧
    (State.stagingArrival s g owner n readable).kept.sram = s.kept.sram := by
  unfold State.stagingArrival; dsimp only; (repeat' split) <;> simp [State.fold_kept, State.kept_mk]

@[simp] theorem execShardArrival_keeps (cyc : Nat) (readable : Bool) (s : State) :
    (outcomeState s (execShardArrival cyc readable s)).kept.part = s.kept.part ∧
    (outcomeState s (execShardArrival cyc readable s)).kept.pending = s.kept.pending ∧
    (outcomeState s (execShardArrival cyc readable s)).kept.regs = s.kept.regs ∧
    (outcomeState s (execShardArrival cyc readable s)).kept.blobs = s.kept.blobs ∧
    (outcomeState s (execShardArrival cyc readable s)).kept.boot = s.kept.boot ∧
    (outcomeState s (execShardArrival cyc readable s)).kept.sec = s.kept.sec ∧
    (outcomeState s (execShardArrival cyc readable s)).kept.slot = s.kept.slot ∧
    (outcomeState s (execShardArrival cyc readable s)).kept.frame = s.kept.frame ∧
    (outcomeState s (execShardArrival cyc readable s)).kept.txs = s.kept.txs ∧
    (outcomeState s (execShardArrival cyc readable s)).kept.ended = s.kept.ended ∧
    (outcomeState s (execShardArrival cyc readable s)).kept.cache = s.kept.cache ∧
    (outcomeState s (execShardArrival cyc readable s)).kept.sram = s.kept.sram := by
  unfold execShardArrival; dsimp only; (repeat' split) <;> simp [State.fold_kept, State.kept_mk]

@[simp] theorem State.loadAhead_kept (s : State) :
    (State.loadAhead s).kept = s.kept := by
  unfold State.loadAhead; (repeat' split) <;> simp [State.fold_kept, State.kept_mk]

@[simp] theorem execStagingComplete_kept (cyc : Nat) (s : State) :
    (outcomeState s (execStagingComplete cyc s)).kept = s.kept := by
  unfold execStagingComplete; (repeat' split) <;> simp [State.fold_kept, State.kept_mk]

@[simp] theorem State.loadFirst_kept (t : State) (base : Nat) :
    (State.loadFirst t base).kept = t.kept := by
  unfold State.loadFirst; (repeat' split) <;> simp [State.fold_kept, State.kept_mk]

@[simp] theorem State.commitPoint_kept (s : State) :
    (State.commitPoint s).kept = s.kept := by
  unfold State.commitPoint; dsimp only; (repeat' split) <;> simp [State.fold_kept, State.kept_mk]

@[simp] theorem execSwitchComplete_kept (cyc : Nat) (s : State) :
    (outcomeState s (execSwitchComplete cyc s)).kept = s.kept := by
  unfold execSwitchComplete; (repeat' split) <;> simp [State.fold_kept, State.kept_mk]

@[simp] theorem State.epochCommit_kept (s : State) :
    (State.epochCommit s).kept = s.kept := by
  unfold State.epochCommit; (repeat' split) <;> simp [State.fold_kept, State.kept_mk]

@[simp] theorem State.epochRelease_kept (s : State) :
    (State.epochRelease s).kept = s.kept := by
  unfold State.epochRelease; (repeat' split) <;> simp [State.fold_kept, State.kept_mk]

@[simp] theorem State.shardLost_kept (s : State) (r : Resident) (n : Nat) :
    (State.shardLost s r n).kept = s.kept := by
  unfold State.shardLost; simp [State.fold_kept, State.kept_mk]

@[simp] theorem State.refetched_keeps (s : State) (r : Resident) (n : Nat) (valid staged : Bool) :
    (State.refetched s r n valid staged).kept.part = s.kept.part ∧
    (State.refetched s r n valid staged).kept.pending = s.kept.pending ∧
    (State.refetched s r n valid staged).kept.regs = s.kept.regs ∧
    (State.refetched s r n valid staged).kept.blobs = s.kept.blobs ∧
    (State.refetched s r n valid staged).kept.boot = s.kept.boot ∧
    (State.refetched s r n valid staged).kept.sec = s.kept.sec ∧
    (State.refetched s r n valid staged).kept.slot = s.kept.slot ∧
    (State.refetched s r n valid staged).kept.frame = s.kept.frame ∧
    (State.refetched s r n valid staged).kept.txs = s.kept.txs ∧
    (State.refetched s r n valid staged).kept.ended = s.kept.ended ∧
    (State.refetched s r n valid staged).kept.cache = s.kept.cache ∧
    (State.refetched s r n valid staged).kept.sram = s.kept.sram := by
  unfold State.refetched; dsimp only; (repeat' split) <;> simp [State.fold_kept, State.kept_mk]

@[simp] theorem execShardRefetchComplete_keeps (cyc shard : Nat) (valid : Bool) (s : State) :
    (outcomeState s (execShardRefetchComplete cyc shard valid s)).kept.part = s.kept.part ∧
    (outcomeState s (execShardRefetchComplete cyc shard valid s)).kept.pending = s.kept.pending ∧
    (outcomeState s (execShardRefetchComplete cyc shard valid s)).kept.regs = s.kept.regs ∧
    (outcomeState s (execShardRefetchComplete cyc shard valid s)).kept.blobs = s.kept.blobs ∧
    (outcomeState s (execShardRefetchComplete cyc shard valid s)).kept.boot = s.kept.boot ∧
    (outcomeState s (execShardRefetchComplete cyc shard valid s)).kept.sec = s.kept.sec ∧
    (outcomeState s (execShardRefetchComplete cyc shard valid s)).kept.slot = s.kept.slot ∧
    (outcomeState s (execShardRefetchComplete cyc shard valid s)).kept.frame = s.kept.frame ∧
    (outcomeState s (execShardRefetchComplete cyc shard valid s)).kept.txs = s.kept.txs ∧
    (outcomeState s (execShardRefetchComplete cyc shard valid s)).kept.ended = s.kept.ended ∧
    (outcomeState s (execShardRefetchComplete cyc shard valid s)).kept.cache = s.kept.cache ∧
    (outcomeState s (execShardRefetchComplete cyc shard valid s)).kept.sram = s.kept.sram := by
  unfold execShardRefetchComplete; dsimp only; (repeat' split) <;> simp [State.fold_kept, State.kept_mk]

@[simp] theorem State.lineMatches_keeps (p : Bool × State) (mpa n : Nat) (want : List Byte) :
    (State.lineMatches p mpa n want).2.kept.part = p.2.kept.part ∧
    (State.lineMatches p mpa n want).2.kept.pending = p.2.kept.pending ∧
    (State.lineMatches p mpa n want).2.kept.regs = p.2.kept.regs ∧
    (State.lineMatches p mpa n want).2.kept.blobs = p.2.kept.blobs ∧
    (State.lineMatches p mpa n want).2.kept.boot = p.2.kept.boot ∧
    (State.lineMatches p mpa n want).2.kept.sec = p.2.kept.sec ∧
    (State.lineMatches p mpa n want).2.kept.slot = p.2.kept.slot ∧
    (State.lineMatches p mpa n want).2.kept.frame = p.2.kept.frame ∧
    (State.lineMatches p mpa n want).2.kept.txs = p.2.kept.txs ∧
    (State.lineMatches p mpa n want).2.kept.ended = p.2.kept.ended ∧
    (State.lineMatches p mpa n want).2.kept.cache = p.2.kept.cache ∧
    (State.lineMatches p mpa n want).2.kept.sram = p.2.kept.sram := by
  unfold State.lineMatches; simp

@[simp] theorem State.copyMatches_keeps (s : State) (r : Resident) (number : Nat) (e : TensorEntry) (data : List Byte) :
    (State.copyMatches s r number e data).2.kept.part = s.kept.part ∧
    (State.copyMatches s r number e data).2.kept.pending = s.kept.pending ∧
    (State.copyMatches s r number e data).2.kept.regs = s.kept.regs ∧
    (State.copyMatches s r number e data).2.kept.blobs = s.kept.blobs ∧
    (State.copyMatches s r number e data).2.kept.boot = s.kept.boot ∧
    (State.copyMatches s r number e data).2.kept.sec = s.kept.sec ∧
    (State.copyMatches s r number e data).2.kept.slot = s.kept.slot ∧
    (State.copyMatches s r number e data).2.kept.frame = s.kept.frame ∧
    (State.copyMatches s r number e data).2.kept.txs = s.kept.txs ∧
    (State.copyMatches s r number e data).2.kept.ended = s.kept.ended ∧
    (State.copyMatches s r number e data).2.kept.cache = s.kept.cache ∧
    (State.copyMatches s r number e data).2.kept.sram = s.kept.sram := by
  have h : ({ (State.copyMatches s r number e data).2.kept with hbm := [] } : Kept) = { s.kept with hbm := [] } := by
    unfold State.copyMatches
    refine State.keeps_foldl_snd (fun t : State => ({ t.kept with hbm := [] } : Kept)) (fun t a => ?_) _ _
    refine State.keeps_foldl_snd (fun t : State => ({ t.kept with hbm := [] } : Kept)) (fun t a => ?_) _ _
    simp
  simpa using h

@[simp] theorem State.copiesMatch_keeps (s : State) (r : Resident) (n : Nat) (data : List Byte) :
    (State.copiesMatch s r n data).2.kept.part = s.kept.part ∧
    (State.copiesMatch s r n data).2.kept.pending = s.kept.pending ∧
    (State.copiesMatch s r n data).2.kept.regs = s.kept.regs ∧
    (State.copiesMatch s r n data).2.kept.blobs = s.kept.blobs ∧
    (State.copiesMatch s r n data).2.kept.boot = s.kept.boot ∧
    (State.copiesMatch s r n data).2.kept.sec = s.kept.sec ∧
    (State.copiesMatch s r n data).2.kept.slot = s.kept.slot ∧
    (State.copiesMatch s r n data).2.kept.frame = s.kept.frame ∧
    (State.copiesMatch s r n data).2.kept.txs = s.kept.txs ∧
    (State.copiesMatch s r n data).2.kept.ended = s.kept.ended ∧
    (State.copiesMatch s r n data).2.kept.cache = s.kept.cache ∧
    (State.copiesMatch s r n data).2.kept.sram = s.kept.sram := by
  have h : ({ (State.copiesMatch s r n data).2.kept with hbm := [] } : Kept) = { s.kept with hbm := [] } := by
    unfold State.copiesMatch
    refine State.keeps_foldl_snd (fun t : State => ({ t.kept with hbm := [] } : Kept)) (fun t a => ?_) _ _
    simp
  simpa using h

@[simp] theorem State.digestScrub_keeps (s : State) :
    (State.digestScrub s).kept.part = s.kept.part ∧ (State.digestScrub s).kept.pending = s.kept.pending ∧
    (State.digestScrub s).kept.regs = s.kept.regs ∧ (State.digestScrub s).kept.blobs = s.kept.blobs ∧
    (State.digestScrub s).kept.boot = s.kept.boot ∧ (State.digestScrub s).kept.sec = s.kept.sec ∧
    (State.digestScrub s).kept.slot = s.kept.slot ∧ (State.digestScrub s).kept.frame = s.kept.frame ∧
    (State.digestScrub s).kept.txs = s.kept.txs ∧ (State.digestScrub s).kept.ended = s.kept.ended ∧
    (State.digestScrub s).kept.cache = s.kept.cache ∧ (State.digestScrub s).kept.sram = s.kept.sram := by
  unfold State.digestScrub; dsimp only; (repeat' split) <;> simp [State.fold_kept, State.kept_mk]

@[simp] theorem State.abandonOp_kept (s : State) :
    (State.abandonOp s).kept = s.kept := by
  unfold State.abandonOp; simp [State.fold_kept, State.kept_mk]

@[simp] theorem State.abandonStaging_kept (s : State) :
    (State.abandonStaging s).kept = s.kept := by
  unfold State.abandonStaging; simp [State.fold_kept, State.kept_mk]

end Sys2Proof.Machine
end

