-- ==== Sys2Proof/Laws/Reliability.lean ====
section
/-! SUPPORT. What the operations of Machine/Reliability.lean leave alone. -/

namespace Sys2Proof.Machine

@[simp] theorem execStrikeExpire_kept (quadrant : Nat) (s : State) :
    (outcomeState s (execStrikeExpire quadrant s)).kept = s.kept := by
  unfold execStrikeExpire; (repeat' split) <;> simp [State.fold_kept, State.kept_mk]

@[simp] theorem State.commitFence_keeps (s : State) (q value : Nat) :
    (State.commitFence s q value).kept.part = s.kept.part ∧ (State.commitFence s q value).kept.pending = s.kept.pending ∧
    (State.commitFence s q value).kept.blobs = s.kept.blobs ∧ (State.commitFence s q value).kept.boot = s.kept.boot ∧
    (State.commitFence s q value).kept.sec = s.kept.sec ∧ (State.commitFence s q value).kept.slot = s.kept.slot ∧
    (State.commitFence s q value).kept.frame = s.kept.frame ∧ (State.commitFence s q value).kept.txs = s.kept.txs ∧
    (State.commitFence s q value).kept.ended = s.kept.ended ∧ (State.commitFence s q value).kept.cache = s.kept.cache ∧
    (State.commitFence s q value).kept.sram = s.kept.sram ∧ (State.commitFence s q value).kept.hbm = s.kept.hbm := by
  unfold State.commitFence; dsimp only; (repeat' split) <;> simp [State.fold_kept, State.kept_mk]

@[simp] theorem execFenceCmd_keeps (cyc quadrant : Nat) (s : State) :
    (outcomeState s (execFenceCmd cyc quadrant s)).kept.part = s.kept.part ∧
    (outcomeState s (execFenceCmd cyc quadrant s)).kept.pending = s.kept.pending ∧
    (outcomeState s (execFenceCmd cyc quadrant s)).kept.blobs = s.kept.blobs ∧
    (outcomeState s (execFenceCmd cyc quadrant s)).kept.boot = s.kept.boot ∧
    (outcomeState s (execFenceCmd cyc quadrant s)).kept.sec = s.kept.sec ∧
    (outcomeState s (execFenceCmd cyc quadrant s)).kept.slot = s.kept.slot ∧
    (outcomeState s (execFenceCmd cyc quadrant s)).kept.frame = s.kept.frame ∧
    (outcomeState s (execFenceCmd cyc quadrant s)).kept.txs = s.kept.txs ∧
    (outcomeState s (execFenceCmd cyc quadrant s)).kept.ended = s.kept.ended ∧
    (outcomeState s (execFenceCmd cyc quadrant s)).kept.cache = s.kept.cache ∧
    (outcomeState s (execFenceCmd cyc quadrant s)).kept.sram = s.kept.sram ∧
    (outcomeState s (execFenceCmd cyc quadrant s)).kept.hbm = s.kept.hbm := by
  unfold execFenceCmd; simp [State.fold_kept, State.kept_mk]; (repeat' split) <;> simp [State.fold_kept, State.kept_mk]

@[simp] theorem execUnfenceCmd_keeps (cyc quadrant : Nat) (s : State) :
    (outcomeState s (execUnfenceCmd cyc quadrant s)).kept.part = s.kept.part ∧
    (outcomeState s (execUnfenceCmd cyc quadrant s)).kept.pending = s.kept.pending ∧
    (outcomeState s (execUnfenceCmd cyc quadrant s)).kept.blobs = s.kept.blobs ∧
    (outcomeState s (execUnfenceCmd cyc quadrant s)).kept.boot = s.kept.boot ∧
    (outcomeState s (execUnfenceCmd cyc quadrant s)).kept.sec = s.kept.sec ∧
    (outcomeState s (execUnfenceCmd cyc quadrant s)).kept.slot = s.kept.slot ∧
    (outcomeState s (execUnfenceCmd cyc quadrant s)).kept.frame = s.kept.frame ∧
    (outcomeState s (execUnfenceCmd cyc quadrant s)).kept.txs = s.kept.txs ∧
    (outcomeState s (execUnfenceCmd cyc quadrant s)).kept.ended = s.kept.ended ∧
    (outcomeState s (execUnfenceCmd cyc quadrant s)).kept.cache = s.kept.cache ∧
    (outcomeState s (execUnfenceCmd cyc quadrant s)).kept.sram = s.kept.sram ∧
    (outcomeState s (execUnfenceCmd cyc quadrant s)).kept.hbm = s.kept.hbm := by
  unfold execUnfenceCmd; simp [State.fold_kept, State.kept_mk]; (repeat' split) <;> simp [State.fold_kept, State.kept_mk]

@[simp] theorem State.judgeService_kept (s : State) :
    (State.judgeService s).kept = s.kept := by
  unfold State.judgeService; simp [State.fold_kept, State.kept_mk]

@[simp] theorem State.reloadAll_kept (s : State) :
    (State.reloadAll s).kept = s.kept := by
  unfold State.reloadAll; (repeat' split) <;> simp [State.fold_kept, State.kept_mk]

@[simp] theorem State.maskChanged_kept (s : State) :
    (State.maskChanged s).kept = s.kept := by
  unfold State.maskChanged; simp [State.fold_kept, State.kept_mk]

@[simp] theorem State.fenceRecord_kept (s : State) (before q : Nat) (fence : Bool) :
    (State.fenceRecord s before q fence).kept = s.kept := by
  unfold State.fenceRecord; simp [State.fold_kept, State.kept_mk]

@[simp] theorem State.applyFences_kept (s : State) :
    (State.applyFences s).kept = s.kept := by
  unfold State.applyFences; simp [State.fold_kept, State.kept_mk]

@[simp] theorem State.resetGroup_kept (s : State) (g source : Nat) :
    (State.resetGroup s g source).kept = s.kept := by
  unfold State.resetGroup; simp [State.fold_kept, State.kept_mk]

@[simp] theorem State.resetGroups_kept (s : State) :
    (State.resetGroups s).kept = s.kept := by
  unfold State.resetGroups; simp [State.fold_kept, State.kept_mk]

@[simp] theorem State.startSlices_kept (s : State) (quads w : Nat) :
    (State.startSlices s quads w).kept = s.kept := by
  unfold State.startSlices; simp [State.fold_kept, State.kept_mk]

@[simp] theorem State.endMaintenance_keeps (s : State) :
    (State.endMaintenance s).kept.part = s.kept.part ∧ (State.endMaintenance s).kept.pending = s.kept.pending ∧
    (State.endMaintenance s).kept.regs = s.kept.regs ∧ (State.endMaintenance s).kept.blobs = s.kept.blobs ∧
    (State.endMaintenance s).kept.boot = s.kept.boot ∧ (State.endMaintenance s).kept.sec = s.kept.sec ∧
    (State.endMaintenance s).kept.slot = s.kept.slot ∧ (State.endMaintenance s).kept.frame = s.kept.frame ∧
    (State.endMaintenance s).kept.txs = s.kept.txs ∧ (State.endMaintenance s).kept.ended = s.kept.ended ∧
    (State.endMaintenance s).kept.cache = s.kept.cache ∧ (State.endMaintenance s).kept.sram = s.kept.sram := by
  unfold State.endMaintenance; (repeat' split) <;> simp [State.fold_kept, State.kept_mk]

@[simp] theorem execAwlTestComplete_keeps (cyc quadrant : Nat) (misr : BitVec 64) (s : State) :
    (outcomeState s (execAwlTestComplete cyc quadrant misr s)).kept.part = s.kept.part ∧
    (outcomeState s (execAwlTestComplete cyc quadrant misr s)).kept.pending = s.kept.pending ∧
    (outcomeState s (execAwlTestComplete cyc quadrant misr s)).kept.regs = s.kept.regs ∧
    (outcomeState s (execAwlTestComplete cyc quadrant misr s)).kept.blobs = s.kept.blobs ∧
    (outcomeState s (execAwlTestComplete cyc quadrant misr s)).kept.boot = s.kept.boot ∧
    (outcomeState s (execAwlTestComplete cyc quadrant misr s)).kept.sec = s.kept.sec ∧
    (outcomeState s (execAwlTestComplete cyc quadrant misr s)).kept.slot = s.kept.slot ∧
    (outcomeState s (execAwlTestComplete cyc quadrant misr s)).kept.frame = s.kept.frame ∧
    (outcomeState s (execAwlTestComplete cyc quadrant misr s)).kept.txs = s.kept.txs ∧
    (outcomeState s (execAwlTestComplete cyc quadrant misr s)).kept.ended = s.kept.ended ∧
    (outcomeState s (execAwlTestComplete cyc quadrant misr s)).kept.cache = s.kept.cache ∧
    (outcomeState s (execAwlTestComplete cyc quadrant misr s)).kept.sram = s.kept.sram := by
  unfold execAwlTestComplete; (repeat' split) <;>
    simp [State.fold_kept, State.kept_mk, apply_ite State.kept] <;> (repeat' split) <;> simp [State.fold_kept, State.kept_mk]

@[simp] theorem State.commitAwlRun_keeps (s : State) (q value : Nat) :
    (State.commitAwlRun s q value).kept.part = s.kept.part ∧
    (State.commitAwlRun s q value).kept.pending = s.kept.pending ∧
    (State.commitAwlRun s q value).kept.blobs = s.kept.blobs ∧ (State.commitAwlRun s q value).kept.boot = s.kept.boot ∧
    (State.commitAwlRun s q value).kept.sec = s.kept.sec ∧ (State.commitAwlRun s q value).kept.slot = s.kept.slot ∧
    (State.commitAwlRun s q value).kept.frame = s.kept.frame ∧ (State.commitAwlRun s q value).kept.txs = s.kept.txs ∧
    (State.commitAwlRun s q value).kept.ended = s.kept.ended ∧ (State.commitAwlRun s q value).kept.cache = s.kept.cache ∧
    (State.commitAwlRun s q value).kept.sram = s.kept.sram ∧ (State.commitAwlRun s q value).kept.hbm = s.kept.hbm := by
  unfold State.commitAwlRun; (repeat' split) <;> simp [State.fold_kept, State.kept_mk]

@[simp] theorem execAwlRunTargeted_keeps (quadrant : Nat) (s : State) :
    (outcomeState s (execAwlRunTargeted quadrant s)).kept.part = s.kept.part ∧
    (outcomeState s (execAwlRunTargeted quadrant s)).kept.pending = s.kept.pending ∧
    (outcomeState s (execAwlRunTargeted quadrant s)).kept.blobs = s.kept.blobs ∧
    (outcomeState s (execAwlRunTargeted quadrant s)).kept.boot = s.kept.boot ∧
    (outcomeState s (execAwlRunTargeted quadrant s)).kept.sec = s.kept.sec ∧
    (outcomeState s (execAwlRunTargeted quadrant s)).kept.slot = s.kept.slot ∧
    (outcomeState s (execAwlRunTargeted quadrant s)).kept.frame = s.kept.frame ∧
    (outcomeState s (execAwlRunTargeted quadrant s)).kept.txs = s.kept.txs ∧
    (outcomeState s (execAwlRunTargeted quadrant s)).kept.ended = s.kept.ended ∧
    (outcomeState s (execAwlRunTargeted quadrant s)).kept.cache = s.kept.cache ∧
    (outcomeState s (execAwlRunTargeted quadrant s)).kept.sram = s.kept.sram ∧
    (outcomeState s (execAwlRunTargeted quadrant s)).kept.hbm = s.kept.hbm := by
  unfold execAwlRunTargeted; simp [State.fold_kept, State.kept_mk]; (repeat' split) <;> simp [State.fold_kept, State.kept_mk]

@[simp] theorem execAwlRunDestructive_keeps (quadrant : Nat) (s : State) :
    (outcomeState s (execAwlRunDestructive quadrant s)).kept.part = s.kept.part ∧
    (outcomeState s (execAwlRunDestructive quadrant s)).kept.pending = s.kept.pending ∧
    (outcomeState s (execAwlRunDestructive quadrant s)).kept.blobs = s.kept.blobs ∧
    (outcomeState s (execAwlRunDestructive quadrant s)).kept.boot = s.kept.boot ∧
    (outcomeState s (execAwlRunDestructive quadrant s)).kept.sec = s.kept.sec ∧
    (outcomeState s (execAwlRunDestructive quadrant s)).kept.slot = s.kept.slot ∧
    (outcomeState s (execAwlRunDestructive quadrant s)).kept.frame = s.kept.frame ∧
    (outcomeState s (execAwlRunDestructive quadrant s)).kept.txs = s.kept.txs ∧
    (outcomeState s (execAwlRunDestructive quadrant s)).kept.ended = s.kept.ended ∧
    (outcomeState s (execAwlRunDestructive quadrant s)).kept.cache = s.kept.cache ∧
    (outcomeState s (execAwlRunDestructive quadrant s)).kept.sram = s.kept.sram ∧
    (outcomeState s (execAwlRunDestructive quadrant s)).kept.hbm = s.kept.hbm := by
  unfold execAwlRunDestructive; simp [State.fold_kept, State.kept_mk]; (repeat' split) <;> simp [State.fold_kept, State.kept_mk]

@[simp] theorem State.commitAwlSet_keeps (s : State) (b : List Byte) :
    (State.commitAwlSet s b).kept.part = s.kept.part ∧ (State.commitAwlSet s b).kept.pending = s.kept.pending ∧
    (State.commitAwlSet s b).kept.regs = s.kept.regs ∧ (State.commitAwlSet s b).kept.boot = s.kept.boot ∧
    (State.commitAwlSet s b).kept.slot = s.kept.slot ∧ (State.commitAwlSet s b).kept.frame = s.kept.frame ∧
    (State.commitAwlSet s b).kept.txs = s.kept.txs ∧ (State.commitAwlSet s b).kept.ended = s.kept.ended ∧
    (State.commitAwlSet s b).kept.cache = s.kept.cache ∧ (State.commitAwlSet s b).kept.sram = s.kept.sram ∧
    (State.commitAwlSet s b).kept.hbm = s.kept.hbm := by
  unfold State.commitAwlSet; dsimp only; (repeat' split) <;> simp [State.fold_kept, State.kept_mk]

@[simp] theorem execAwlSetLoad_keeps (cyc : Nat) (image : List Byte) (s : State) :
    (outcomeState s (execAwlSetLoad cyc image s)).kept.part = s.kept.part ∧
    (outcomeState s (execAwlSetLoad cyc image s)).kept.pending = s.kept.pending ∧
    (outcomeState s (execAwlSetLoad cyc image s)).kept.regs = s.kept.regs ∧
    (outcomeState s (execAwlSetLoad cyc image s)).kept.boot = s.kept.boot ∧
    (outcomeState s (execAwlSetLoad cyc image s)).kept.slot = s.kept.slot ∧
    (outcomeState s (execAwlSetLoad cyc image s)).kept.frame = s.kept.frame ∧
    (outcomeState s (execAwlSetLoad cyc image s)).kept.txs = s.kept.txs ∧
    (outcomeState s (execAwlSetLoad cyc image s)).kept.ended = s.kept.ended ∧
    (outcomeState s (execAwlSetLoad cyc image s)).kept.cache = s.kept.cache ∧
    (outcomeState s (execAwlSetLoad cyc image s)).kept.sram = s.kept.sram ∧
    (outcomeState s (execAwlSetLoad cyc image s)).kept.hbm = s.kept.hbm := by
  unfold execAwlSetLoad; (repeat' split) <;> simp [State.fold_kept, State.kept_mk]

@[simp] theorem execPersistWriteComplete_kept (s : State) :
    (outcomeState s (execPersistWriteComplete s)).kept = s.kept := by
  unfold execPersistWriteComplete; (repeat' split) <;> simp [State.fold_kept, State.kept_mk]

@[simp] theorem State.commitPersistClear_keeps (s : State) (value : Nat) :
    (State.commitPersistClear s value).kept.part = s.kept.part ∧
    (State.commitPersistClear s value).kept.pending = s.kept.pending ∧
    (State.commitPersistClear s value).kept.blobs = s.kept.blobs ∧
    (State.commitPersistClear s value).kept.boot = s.kept.boot ∧
    (State.commitPersistClear s value).kept.sec = s.kept.sec ∧
    (State.commitPersistClear s value).kept.slot = s.kept.slot ∧
    (State.commitPersistClear s value).kept.frame = s.kept.frame ∧
    (State.commitPersistClear s value).kept.txs = s.kept.txs ∧
    (State.commitPersistClear s value).kept.ended = s.kept.ended ∧
    (State.commitPersistClear s value).kept.cache = s.kept.cache ∧
    (State.commitPersistClear s value).kept.sram = s.kept.sram ∧
    (State.commitPersistClear s value).kept.hbm = s.kept.hbm := by
  unfold State.commitPersistClear; (repeat' split) <;> simp [State.fold_kept, State.kept_mk]

@[simp] theorem execPersistClear_keeps (value : Nat) (s : State) :
    (outcomeState s (execPersistClear value s)).kept.part = s.kept.part ∧
    (outcomeState s (execPersistClear value s)).kept.pending = s.kept.pending ∧
    (outcomeState s (execPersistClear value s)).kept.blobs = s.kept.blobs ∧
    (outcomeState s (execPersistClear value s)).kept.boot = s.kept.boot ∧
    (outcomeState s (execPersistClear value s)).kept.sec = s.kept.sec ∧
    (outcomeState s (execPersistClear value s)).kept.slot = s.kept.slot ∧
    (outcomeState s (execPersistClear value s)).kept.frame = s.kept.frame ∧
    (outcomeState s (execPersistClear value s)).kept.txs = s.kept.txs ∧
    (outcomeState s (execPersistClear value s)).kept.ended = s.kept.ended ∧
    (outcomeState s (execPersistClear value s)).kept.cache = s.kept.cache ∧
    (outcomeState s (execPersistClear value s)).kept.sram = s.kept.sram ∧
    (outcomeState s (execPersistClear value s)).kept.hbm = s.kept.hbm := by
  unfold execPersistClear; (repeat' split) <;> simp [State.fold_kept, State.kept_mk]

end Sys2Proof.Machine
end

