-- ==== Sys2Proof/Laws/Passes.lean ====
section
/-! SUPPORT. What the operations of Machine/Passes.lean leave alone. -/

namespace Sys2Proof.Machine

@[simp] theorem State.dropEntry_kept (s : State) (e : PlanEntry) :
    (State.dropEntry s e).kept = s.kept := by
  unfold State.dropEntry; (repeat' split) <;> simp [State.fold_kept, State.kept_mk]

@[simp] theorem State.issuePass_kept (s : State) :
    (State.issuePass s).kept = s.kept := by
  unfold State.issuePass; dsimp only; (repeat' split) <;> simp [State.fold_kept, State.kept_mk]

@[simp] theorem State.runPass_kept (s : State) (e : PlanEntry) :
    (State.runPass s e).kept = s.kept := by
  unfold State.runPass; (repeat' split) <;> simp [State.fold_kept, State.kept_mk]

@[simp] theorem State.runResume_kept (s : State) (e : PlanEntry) :
    (State.runResume s e).kept = s.kept := by
  unfold State.runResume; (repeat' split) <;> simp [State.fold_kept, State.kept_mk]

@[simp] theorem State.moveStep_kept (s : State) (n : Nat) :
    (State.moveStep s n).kept = s.kept := by
  unfold State.moveStep; simp [State.fold_kept, State.kept_mk]

@[simp] theorem State.askImage_kept (s : State) (lastId : Nat) :
    (State.askImage s lastId).kept = s.kept := by
  unfold State.askImage; (repeat' split) <;> simp [State.fold_kept, State.kept_mk]

@[simp] theorem State.startPass_kept (s : State) (e : PlanEntry) :
    (State.startPass s e).kept = s.kept := by
  unfold State.startPass; simp [State.fold_kept, State.kept_mk]

@[simp] theorem State.startSwitch_kept (s : State) (e : PlanEntry) :
    (State.startSwitch s e).kept = s.kept := by
  unfold State.startSwitch; simp [State.fold_kept, State.kept_mk]

@[simp] theorem State.startMaintenance_keeps (s : State) (e : PlanEntry) :
    (State.startMaintenance s e).kept.part = s.kept.part ∧
    (State.startMaintenance s e).kept.pending = s.kept.pending ∧
    (State.startMaintenance s e).kept.regs = s.kept.regs ∧ (State.startMaintenance s e).kept.blobs = s.kept.blobs ∧
    (State.startMaintenance s e).kept.boot = s.kept.boot ∧ (State.startMaintenance s e).kept.sec = s.kept.sec ∧
    (State.startMaintenance s e).kept.slot = s.kept.slot ∧ (State.startMaintenance s e).kept.frame = s.kept.frame ∧
    (State.startMaintenance s e).kept.txs = s.kept.txs ∧ (State.startMaintenance s e).kept.ended = s.kept.ended ∧
    (State.startMaintenance s e).kept.cache = s.kept.cache ∧
    (State.startMaintenance s e).kept.sram = s.kept.sram := by
  unfold State.startMaintenance; simp [State.fold_kept, State.kept_mk]

@[simp] theorem execPlanEntryStart_keeps (cyc : Nat) (s : State) :
    (outcomeState s (execPlanEntryStart cyc s)).kept.part = s.kept.part ∧
    (outcomeState s (execPlanEntryStart cyc s)).kept.pending = s.kept.pending ∧
    (outcomeState s (execPlanEntryStart cyc s)).kept.regs = s.kept.regs ∧
    (outcomeState s (execPlanEntryStart cyc s)).kept.blobs = s.kept.blobs ∧
    (outcomeState s (execPlanEntryStart cyc s)).kept.boot = s.kept.boot ∧
    (outcomeState s (execPlanEntryStart cyc s)).kept.sec = s.kept.sec ∧
    (outcomeState s (execPlanEntryStart cyc s)).kept.slot = s.kept.slot ∧
    (outcomeState s (execPlanEntryStart cyc s)).kept.frame = s.kept.frame ∧
    (outcomeState s (execPlanEntryStart cyc s)).kept.txs = s.kept.txs ∧
    (outcomeState s (execPlanEntryStart cyc s)).kept.ended = s.kept.ended ∧
    (outcomeState s (execPlanEntryStart cyc s)).kept.cache = s.kept.cache ∧
    (outcomeState s (execPlanEntryStart cyc s)).kept.sram = s.kept.sram := by
  unfold execPlanEntryStart; dsimp only; (repeat' split) <;> simp [State.fold_kept, State.kept_mk]

@[simp] theorem State.quiesce_kept (s : State) :
    (State.quiesce s).kept = s.kept := by
  unfold State.quiesce; simp [State.fold_kept, State.kept_mk]

@[simp] theorem State.endOwn_kept (s : State) (r : PassRun) :
    (State.endOwn s r).kept = s.kept := by
  unfold State.endOwn; simp [State.fold_kept, State.kept_mk]

@[simp] theorem execPassEnd_kept (cyc : Nat) (s : State) :
    (outcomeState s (execPassEnd cyc s)).kept = s.kept := by
  unfold execPassEnd; dsimp only; (repeat' split) <;> simp [State.fold_kept, State.kept_mk]

@[simp] theorem execVoidingComplete_kept (cyc : Nat) (s : State) :
    (outcomeState s (execVoidingComplete cyc s)).kept = s.kept := by
  unfold execVoidingComplete; (repeat' split) <;> simp [State.fold_kept, State.kept_mk]

@[simp] theorem State.heldBack_kept (s : State) (e : PlanEntry) :
    (State.heldBack s e).kept = s.kept := by
  unfold State.heldBack; simp [State.fold_kept, State.kept_mk]

@[simp] theorem execSwapComplete_kept (cyc : Nat) (s : State) :
    (outcomeState s (execSwapComplete cyc s)).kept = s.kept := by
  unfold execSwapComplete; dsimp only; (repeat' split) <;> simp [State.fold_kept, State.kept_mk]

end Sys2Proof.Machine
end

