-- ==== Sys2Proof/Laws/Power.lean ====
section
/-! SUPPORT. What the operations of Machine/Power.lean leave alone. -/

namespace Sys2Proof.Machine

@[simp] theorem State.clearQuad_keeps (s : State) (q : Nat) :
    (State.clearQuad s q).kept.part = s.kept.part ∧ (State.clearQuad s q).kept.pending = s.kept.pending ∧
    (State.clearQuad s q).kept.regs = s.kept.regs ∧ (State.clearQuad s q).kept.blobs = s.kept.blobs ∧
    (State.clearQuad s q).kept.boot = s.kept.boot ∧ (State.clearQuad s q).kept.sec = s.kept.sec ∧
    (State.clearQuad s q).kept.slot = s.kept.slot ∧ (State.clearQuad s q).kept.frame = s.kept.frame ∧
    (State.clearQuad s q).kept.txs = s.kept.txs ∧ (State.clearQuad s q).kept.ended = s.kept.ended ∧
    (State.clearQuad s q).kept.cache = s.kept.cache ∧ (State.clearQuad s q).kept.hbm = s.kept.hbm := by
  unfold State.clearQuad; simp [State.fold_kept, State.kept_mk]

@[simp] theorem State.loseStack_keeps (s : State) (n : Nat) (state : StackState) :
    (State.loseStack s n state).kept.part = s.kept.part ∧ (State.loseStack s n state).kept.pending = s.kept.pending ∧
    (State.loseStack s n state).kept.regs = s.kept.regs ∧ (State.loseStack s n state).kept.blobs = s.kept.blobs ∧
    (State.loseStack s n state).kept.boot = s.kept.boot ∧ (State.loseStack s n state).kept.sec = s.kept.sec ∧
    (State.loseStack s n state).kept.slot = s.kept.slot ∧ (State.loseStack s n state).kept.frame = s.kept.frame ∧
    (State.loseStack s n state).kept.txs = s.kept.txs ∧ (State.loseStack s n state).kept.ended = s.kept.ended ∧
    (State.loseStack s n state).kept.cache = s.kept.cache ∧ (State.loseStack s n state).kept.sram = s.kept.sram := by
  unfold State.loseStack; simp [State.fold_kept, State.kept_mk]

@[simp] theorem State.stackOff_keeps (s : State) (n : Nat) :
    (State.stackOff s n).kept.part = s.kept.part ∧ (State.stackOff s n).kept.pending = s.kept.pending ∧
    (State.stackOff s n).kept.regs = s.kept.regs ∧ (State.stackOff s n).kept.blobs = s.kept.blobs ∧
    (State.stackOff s n).kept.boot = s.kept.boot ∧ (State.stackOff s n).kept.sec = s.kept.sec ∧
    (State.stackOff s n).kept.slot = s.kept.slot ∧ (State.stackOff s n).kept.frame = s.kept.frame ∧
    (State.stackOff s n).kept.txs = s.kept.txs ∧ (State.stackOff s n).kept.ended = s.kept.ended ∧
    (State.stackOff s n).kept.cache = s.kept.cache ∧ (State.stackOff s n).kept.sram = s.kept.sram := by
  unfold State.stackOff; simp [State.fold_kept, State.kept_mk]

@[simp] theorem State.storeOff_kept (s : State) (g : Nat) :
    (State.storeOff s g).kept = s.kept := by
  unfold State.storeOff; simp [State.fold_kept, State.kept_mk]

@[simp] theorem State.unitsOn_keeps (s : State) (d : Nat) :
    (State.unitsOn s d).kept.part = s.kept.part ∧ (State.unitsOn s d).kept.pending = s.kept.pending ∧
    (State.unitsOn s d).kept.regs = s.kept.regs ∧ (State.unitsOn s d).kept.blobs = s.kept.blobs ∧
    (State.unitsOn s d).kept.boot = s.kept.boot ∧ (State.unitsOn s d).kept.sec = s.kept.sec ∧
    (State.unitsOn s d).kept.slot = s.kept.slot ∧ (State.unitsOn s d).kept.frame = s.kept.frame ∧
    (State.unitsOn s d).kept.txs = s.kept.txs ∧ (State.unitsOn s d).kept.ended = s.kept.ended ∧
    (State.unitsOn s d).kept.cache = s.kept.cache := by
  unfold State.unitsOn
  split
  · simp [State.fold_kept, State.kept_mk]
  · (repeat' split) <;> simp [State.fold_kept, State.kept_mk]

@[simp] theorem State.unitsOff_keeps (s : State) (d : Nat) :
    (State.unitsOff s d).kept.part = s.kept.part ∧ (State.unitsOff s d).kept.pending = s.kept.pending ∧
    (State.unitsOff s d).kept.regs = s.kept.regs ∧ (State.unitsOff s d).kept.blobs = s.kept.blobs ∧
    (State.unitsOff s d).kept.boot = s.kept.boot ∧ (State.unitsOff s d).kept.sec = s.kept.sec ∧
    (State.unitsOff s d).kept.slot = s.kept.slot ∧ (State.unitsOff s d).kept.frame = s.kept.frame ∧
    (State.unitsOff s d).kept.txs = s.kept.txs ∧ (State.unitsOff s d).kept.ended = s.kept.ended ∧
    (State.unitsOff s d).kept.cache = s.kept.cache := by
  unfold State.unitsOff
  (repeat' split) <;> simp [State.fold_kept, State.kept_mk]

@[simp] theorem State.startDomain_kept (s : State) (d : Nat) :
    (State.startDomain s d).kept = s.kept := by
  unfold State.startDomain; simp [State.fold_kept, State.kept_mk]

@[simp] theorem State.stopDomain_keeps (s : State) (d : Nat) :
    (State.stopDomain s d).kept.part = s.kept.part ∧ (State.stopDomain s d).kept.pending = s.kept.pending ∧
    (State.stopDomain s d).kept.regs = s.kept.regs ∧ (State.stopDomain s d).kept.blobs = s.kept.blobs ∧
    (State.stopDomain s d).kept.boot = s.kept.boot ∧ (State.stopDomain s d).kept.sec = s.kept.sec ∧
    (State.stopDomain s d).kept.slot = s.kept.slot ∧ (State.stopDomain s d).kept.frame = s.kept.frame ∧
    (State.stopDomain s d).kept.txs = s.kept.txs ∧ (State.stopDomain s d).kept.ended = s.kept.ended ∧
    (State.stopDomain s d).kept.cache = s.kept.cache := by
  unfold State.stopDomain; simp [State.fold_kept, State.kept_mk]

@[simp] theorem State.addPending_kept (s : State) (d : Nat) :
    (State.addPending s d).kept = s.kept := by
  unfold State.addPending; simp [State.fold_kept, State.kept_mk]

@[simp] theorem State.enableDomain_kept (s : State) (d : Nat) :
    (State.enableDomain s d).2.kept = s.kept := by
  unfold State.enableDomain; dsimp only; (repeat' split) <;> simp [State.fold_kept, State.kept_mk]

@[simp] theorem State.disableDomain_keeps (s : State) (d : Nat) :
    (State.disableDomain s d).2.kept.part = s.kept.part ∧ (State.disableDomain s d).2.kept.pending = s.kept.pending ∧
    (State.disableDomain s d).2.kept.regs = s.kept.regs ∧ (State.disableDomain s d).2.kept.blobs = s.kept.blobs ∧
    (State.disableDomain s d).2.kept.boot = s.kept.boot ∧ (State.disableDomain s d).2.kept.sec = s.kept.sec ∧
    (State.disableDomain s d).2.kept.slot = s.kept.slot ∧ (State.disableDomain s d).2.kept.frame = s.kept.frame ∧
    (State.disableDomain s d).2.kept.txs = s.kept.txs ∧ (State.disableDomain s d).2.kept.ended = s.kept.ended ∧
    (State.disableDomain s d).2.kept.cache = s.kept.cache := by
  unfold State.disableDomain; dsimp only; (repeat' split) <;> simp [State.fold_kept, State.kept_mk]

@[simp] theorem State.commitDomain_keeps (s : State) (d value : Nat) :
    (State.commitDomain s d value).kept.part = s.kept.part ∧
    (State.commitDomain s d value).kept.pending = s.kept.pending ∧
    (State.commitDomain s d value).kept.blobs = s.kept.blobs ∧ (State.commitDomain s d value).kept.boot = s.kept.boot ∧
    (State.commitDomain s d value).kept.sec = s.kept.sec ∧ (State.commitDomain s d value).kept.slot = s.kept.slot ∧
    (State.commitDomain s d value).kept.frame = s.kept.frame ∧ (State.commitDomain s d value).kept.txs = s.kept.txs ∧
    (State.commitDomain s d value).kept.ended = s.kept.ended ∧ (State.commitDomain s d value).kept.cache = s.kept.cache := by
  unfold State.commitDomain; dsimp only; (repeat' split) <;> simp [State.fold_kept, State.kept_mk]

@[simp] theorem execDomainEnable_keeps (cyc domain : Nat) (s : State) :
    (outcomeState s (execDomainEnable cyc domain s)).kept.part = s.kept.part ∧
    (outcomeState s (execDomainEnable cyc domain s)).kept.pending = s.kept.pending ∧
    (outcomeState s (execDomainEnable cyc domain s)).kept.blobs = s.kept.blobs ∧
    (outcomeState s (execDomainEnable cyc domain s)).kept.boot = s.kept.boot ∧
    (outcomeState s (execDomainEnable cyc domain s)).kept.sec = s.kept.sec ∧
    (outcomeState s (execDomainEnable cyc domain s)).kept.slot = s.kept.slot ∧
    (outcomeState s (execDomainEnable cyc domain s)).kept.frame = s.kept.frame ∧
    (outcomeState s (execDomainEnable cyc domain s)).kept.txs = s.kept.txs ∧
    (outcomeState s (execDomainEnable cyc domain s)).kept.ended = s.kept.ended ∧
    (outcomeState s (execDomainEnable cyc domain s)).kept.cache = s.kept.cache := by
  unfold execDomainEnable; simp [State.fold_kept, State.kept_mk]; (repeat' split) <;> simp [State.fold_kept, State.kept_mk]

@[simp] theorem execDomainDisable_keeps (cyc domain : Nat) (s : State) :
    (outcomeState s (execDomainDisable cyc domain s)).kept.part = s.kept.part ∧
    (outcomeState s (execDomainDisable cyc domain s)).kept.pending = s.kept.pending ∧
    (outcomeState s (execDomainDisable cyc domain s)).kept.blobs = s.kept.blobs ∧
    (outcomeState s (execDomainDisable cyc domain s)).kept.boot = s.kept.boot ∧
    (outcomeState s (execDomainDisable cyc domain s)).kept.sec = s.kept.sec ∧
    (outcomeState s (execDomainDisable cyc domain s)).kept.slot = s.kept.slot ∧
    (outcomeState s (execDomainDisable cyc domain s)).kept.frame = s.kept.frame ∧
    (outcomeState s (execDomainDisable cyc domain s)).kept.txs = s.kept.txs ∧
    (outcomeState s (execDomainDisable cyc domain s)).kept.ended = s.kept.ended ∧
    (outcomeState s (execDomainDisable cyc domain s)).kept.cache = s.kept.cache := by
  unfold execDomainDisable; simp [State.fold_kept, State.kept_mk]; (repeat' split) <;> simp [State.fold_kept, State.kept_mk]

@[simp] theorem State.stopGroup_keeps (s : State) (g : List Nat) :
    (State.stopGroup s g).kept.part = s.kept.part ∧ (State.stopGroup s g).kept.pending = s.kept.pending ∧
    (State.stopGroup s g).kept.regs = s.kept.regs ∧ (State.stopGroup s g).kept.blobs = s.kept.blobs ∧
    (State.stopGroup s g).kept.boot = s.kept.boot ∧ (State.stopGroup s g).kept.sec = s.kept.sec ∧
    (State.stopGroup s g).kept.slot = s.kept.slot ∧ (State.stopGroup s g).kept.frame = s.kept.frame ∧
    (State.stopGroup s g).kept.txs = s.kept.txs ∧ (State.stopGroup s g).kept.ended = s.kept.ended ∧
    (State.stopGroup s g).kept.cache = s.kept.cache := by
  have h : ({ (State.stopGroup s g).kept with sram := [], hbm := [] } : Kept) = { s.kept with sram := [], hbm := [] } := by
    unfold State.stopGroup
    refine State.keeps_foldl (fun t : State => ({ t.kept with sram := [], hbm := [] } : Kept)) (fun t a => ?_) _ _
    split <;> simp
  simpa using h

@[simp] theorem State.stopNext_keeps (x0 : Nat) (s : State) :
    (State.stopNext x0 s).kept.part = s.kept.part ∧ (State.stopNext x0 s).kept.pending = s.kept.pending ∧
    (State.stopNext x0 s).kept.regs = s.kept.regs ∧ (State.stopNext x0 s).kept.blobs = s.kept.blobs ∧
    (State.stopNext x0 s).kept.boot = s.kept.boot ∧ (State.stopNext x0 s).kept.sec = s.kept.sec ∧
    (State.stopNext x0 s).kept.slot = s.kept.slot ∧ (State.stopNext x0 s).kept.frame = s.kept.frame ∧
    (State.stopNext x0 s).kept.txs = s.kept.txs ∧ (State.stopNext x0 s).kept.ended = s.kept.ended ∧
    (State.stopNext x0 s).kept.cache = s.kept.cache := by
  induction x0 generalizing s with
  | zero => simp [State.stopNext]
  | succ n ih =>
    unfold State.stopNext
    split
    · simp
    · split <;> simp [ih, State.fold_kept, State.kept_mk]

@[simp] theorem State.drainOn_keeps (s : State) :
    (State.drainOn s).kept.part = s.kept.part ∧ (State.drainOn s).kept.pending = s.kept.pending ∧
    (State.drainOn s).kept.regs = s.kept.regs ∧ (State.drainOn s).kept.blobs = s.kept.blobs ∧
    (State.drainOn s).kept.boot = s.kept.boot ∧ (State.drainOn s).kept.sec = s.kept.sec ∧
    (State.drainOn s).kept.slot = s.kept.slot ∧ (State.drainOn s).kept.frame = s.kept.frame ∧
    (State.drainOn s).kept.txs = s.kept.txs ∧ (State.drainOn s).kept.ended = s.kept.ended ∧
    (State.drainOn s).kept.cache = s.kept.cache := by
  unfold State.drainOn; dsimp only; (repeat' split) <;> simp [State.fold_kept, State.kept_mk]

@[simp] theorem State.shutEnds_kept (s : State) :
    (State.shutEnds s).kept = s.kept := by
  unfold State.shutEnds; (repeat' split) <;> simp [State.fold_kept, State.kept_mk]

@[simp] theorem State.stopOn_keeps (s : State) :
    (State.stopOn s).kept.part = s.kept.part ∧ (State.stopOn s).kept.pending = s.kept.pending ∧
    (State.stopOn s).kept.regs = s.kept.regs ∧ (State.stopOn s).kept.blobs = s.kept.blobs ∧
    (State.stopOn s).kept.boot = s.kept.boot ∧ (State.stopOn s).kept.sec = s.kept.sec ∧
    (State.stopOn s).kept.slot = s.kept.slot ∧ (State.stopOn s).kept.frame = s.kept.frame ∧
    (State.stopOn s).kept.txs = s.kept.txs ∧ (State.stopOn s).kept.ended = s.kept.ended ∧
    (State.stopOn s).kept.cache = s.kept.cache := by
  unfold State.stopOn; (repeat' split) <;> simp [State.fold_kept, State.kept_mk]

@[simp] theorem State.beginStop_keeps (s : State) (reason : StopReason) (order : List (List Nat)) :
    (State.beginStop s reason order).kept.part = s.kept.part ∧
    (State.beginStop s reason order).kept.pending = s.kept.pending ∧
    (State.beginStop s reason order).kept.regs = s.kept.regs ∧
    (State.beginStop s reason order).kept.blobs = s.kept.blobs ∧
    (State.beginStop s reason order).kept.boot = s.kept.boot ∧ (State.beginStop s reason order).kept.sec = s.kept.sec ∧
    (State.beginStop s reason order).kept.slot = s.kept.slot ∧
    (State.beginStop s reason order).kept.frame = s.kept.frame ∧ (State.beginStop s reason order).kept.txs = s.kept.txs ∧
    (State.beginStop s reason order).kept.ended = s.kept.ended ∧
    (State.beginStop s reason order).kept.cache = s.kept.cache := by
  unfold State.beginStop; simp [State.fold_kept, State.kept_mk]

@[simp] theorem State.cutDomain_keeps (s : State) (d : Nat) (bits_ : BitVec 16) :
    (State.cutDomain s d bits_).kept.part = s.kept.part ∧ (State.cutDomain s d bits_).kept.pending = s.kept.pending ∧
    (State.cutDomain s d bits_).kept.regs = s.kept.regs ∧ (State.cutDomain s d bits_).kept.blobs = s.kept.blobs ∧
    (State.cutDomain s d bits_).kept.boot = s.kept.boot ∧ (State.cutDomain s d bits_).kept.sec = s.kept.sec ∧
    (State.cutDomain s d bits_).kept.slot = s.kept.slot ∧ (State.cutDomain s d bits_).kept.frame = s.kept.frame ∧
    (State.cutDomain s d bits_).kept.txs = s.kept.txs ∧ (State.cutDomain s d bits_).kept.ended = s.kept.ended ∧
    (State.cutDomain s d bits_).kept.cache = s.kept.cache := by
  unfold State.cutDomain
  dsimp only
  (repeat' split) <;> simp [State.fold_kept, State.kept_mk]

@[simp] theorem State.failDomain_keeps (s : State) (d : Nat) (bits_ : BitVec 16) :
    (State.failDomain s d bits_).kept.part = s.kept.part ∧ (State.failDomain s d bits_).kept.pending = s.kept.pending ∧
    (State.failDomain s d bits_).kept.regs = s.kept.regs ∧ (State.failDomain s d bits_).kept.blobs = s.kept.blobs ∧
    (State.failDomain s d bits_).kept.boot = s.kept.boot ∧ (State.failDomain s d bits_).kept.sec = s.kept.sec ∧
    (State.failDomain s d bits_).kept.slot = s.kept.slot ∧ (State.failDomain s d bits_).kept.frame = s.kept.frame ∧
    (State.failDomain s d bits_).kept.txs = s.kept.txs ∧ (State.failDomain s d bits_).kept.ended = s.kept.ended ∧
    (State.failDomain s d bits_).kept.cache = s.kept.cache := by
  unfold State.failDomain; simp [State.fold_kept, State.kept_mk]

@[simp] theorem execDomainRailFault_keeps (cyc domain : Nat) (bits : BitVec 16) (s : State) :
    (outcomeState s (execDomainRailFault cyc domain bits s)).kept.part = s.kept.part ∧
    (outcomeState s (execDomainRailFault cyc domain bits s)).kept.pending = s.kept.pending ∧
    (outcomeState s (execDomainRailFault cyc domain bits s)).kept.regs = s.kept.regs ∧
    (outcomeState s (execDomainRailFault cyc domain bits s)).kept.blobs = s.kept.blobs ∧
    (outcomeState s (execDomainRailFault cyc domain bits s)).kept.boot = s.kept.boot ∧
    (outcomeState s (execDomainRailFault cyc domain bits s)).kept.sec = s.kept.sec ∧
    (outcomeState s (execDomainRailFault cyc domain bits s)).kept.slot = s.kept.slot ∧
    (outcomeState s (execDomainRailFault cyc domain bits s)).kept.frame = s.kept.frame ∧
    (outcomeState s (execDomainRailFault cyc domain bits s)).kept.txs = s.kept.txs ∧
    (outcomeState s (execDomainRailFault cyc domain bits s)).kept.ended = s.kept.ended ∧
    (outcomeState s (execDomainRailFault cyc domain bits s)).kept.cache = s.kept.cache := by
  unfold execDomainRailFault; simp [State.fold_kept, State.kept_mk]; (repeat' split) <;> simp [State.fold_kept, State.kept_mk]

@[simp] theorem execDomainTimeout_keeps (cyc domain : Nat) (s : State) :
    (outcomeState s (execDomainTimeout cyc domain s)).kept.part = s.kept.part ∧
    (outcomeState s (execDomainTimeout cyc domain s)).kept.pending = s.kept.pending ∧
    (outcomeState s (execDomainTimeout cyc domain s)).kept.regs = s.kept.regs ∧
    (outcomeState s (execDomainTimeout cyc domain s)).kept.blobs = s.kept.blobs ∧
    (outcomeState s (execDomainTimeout cyc domain s)).kept.boot = s.kept.boot ∧
    (outcomeState s (execDomainTimeout cyc domain s)).kept.sec = s.kept.sec ∧
    (outcomeState s (execDomainTimeout cyc domain s)).kept.slot = s.kept.slot ∧
    (outcomeState s (execDomainTimeout cyc domain s)).kept.frame = s.kept.frame ∧
    (outcomeState s (execDomainTimeout cyc domain s)).kept.txs = s.kept.txs ∧
    (outcomeState s (execDomainTimeout cyc domain s)).kept.ended = s.kept.ended ∧
    (outcomeState s (execDomainTimeout cyc domain s)).kept.cache = s.kept.cache := by
  unfold execDomainTimeout; simp [State.fold_kept, State.kept_mk]; (repeat' split) <;> simp [State.fold_kept, State.kept_mk]

@[simp] theorem State.clearFault_kept (s : State) (d : Nat) (value : BitVec 32) :
    (State.clearFault s d value).kept = s.kept := by
  unfold State.clearFault; simp [State.fold_kept, State.kept_mk]

@[simp] theorem execFaultClear_kept (domain : Nat) (value : BitVec 32) (s : State) :
    (outcomeState s (execFaultClear domain value s)).kept = s.kept := by
  unfold execFaultClear; (repeat' split) <;> simp [State.fold_kept, State.kept_mk]

@[simp] theorem execDomainStartComplete_keeps (cyc domain : Nat) (s : State) :
    (outcomeState s (execDomainStartComplete cyc domain s)).kept.part = s.kept.part ∧
    (outcomeState s (execDomainStartComplete cyc domain s)).kept.pending = s.kept.pending ∧
    (outcomeState s (execDomainStartComplete cyc domain s)).kept.regs = s.kept.regs ∧
    (outcomeState s (execDomainStartComplete cyc domain s)).kept.blobs = s.kept.blobs ∧
    (outcomeState s (execDomainStartComplete cyc domain s)).kept.boot = s.kept.boot ∧
    (outcomeState s (execDomainStartComplete cyc domain s)).kept.sec = s.kept.sec ∧
    (outcomeState s (execDomainStartComplete cyc domain s)).kept.slot = s.kept.slot ∧
    (outcomeState s (execDomainStartComplete cyc domain s)).kept.frame = s.kept.frame ∧
    (outcomeState s (execDomainStartComplete cyc domain s)).kept.txs = s.kept.txs ∧
    (outcomeState s (execDomainStartComplete cyc domain s)).kept.ended = s.kept.ended ∧
    (outcomeState s (execDomainStartComplete cyc domain s)).kept.cache = s.kept.cache := by
  unfold execDomainStartComplete; simp [State.fold_kept, State.kept_mk]; (repeat' split) <;> simp [State.fold_kept, State.kept_mk]

@[simp] theorem execDomainStopComplete_keeps (cyc domain : Nat) (s : State) :
    (outcomeState s (execDomainStopComplete cyc domain s)).kept.part = s.kept.part ∧
    (outcomeState s (execDomainStopComplete cyc domain s)).kept.pending = s.kept.pending ∧
    (outcomeState s (execDomainStopComplete cyc domain s)).kept.regs = s.kept.regs ∧
    (outcomeState s (execDomainStopComplete cyc domain s)).kept.blobs = s.kept.blobs ∧
    (outcomeState s (execDomainStopComplete cyc domain s)).kept.boot = s.kept.boot ∧
    (outcomeState s (execDomainStopComplete cyc domain s)).kept.sec = s.kept.sec ∧
    (outcomeState s (execDomainStopComplete cyc domain s)).kept.slot = s.kept.slot ∧
    (outcomeState s (execDomainStopComplete cyc domain s)).kept.frame = s.kept.frame ∧
    (outcomeState s (execDomainStopComplete cyc domain s)).kept.txs = s.kept.txs ∧
    (outcomeState s (execDomainStopComplete cyc domain s)).kept.ended = s.kept.ended ∧
    (outcomeState s (execDomainStopComplete cyc domain s)).kept.cache = s.kept.cache := by
  unfold execDomainStopComplete; simp [State.fold_kept, State.kept_mk]; (repeat' split) <;> simp [State.fold_kept, State.kept_mk]

@[simp] theorem execMinOffTimeExpiry_kept (cyc domain : Nat) (s : State) :
    (outcomeState s (execMinOffTimeExpiry cyc domain s)).kept = s.kept := by
  unfold execMinOffTimeExpiry; (repeat' split) <;> simp [State.fold_kept, State.kept_mk]

@[simp] theorem State.cutAll_keeps (s : State) (bits_ : BitVec 16) :
    (State.cutAll s bits_).kept.part = s.kept.part ∧ (State.cutAll s bits_).kept.pending = s.kept.pending ∧
    (State.cutAll s bits_).kept.regs = s.kept.regs ∧ (State.cutAll s bits_).kept.blobs = s.kept.blobs ∧
    (State.cutAll s bits_).kept.boot = s.kept.boot ∧ (State.cutAll s bits_).kept.sec = s.kept.sec ∧
    (State.cutAll s bits_).kept.slot = s.kept.slot ∧ (State.cutAll s bits_).kept.frame = s.kept.frame ∧
    (State.cutAll s bits_).kept.txs = s.kept.txs ∧ (State.cutAll s bits_).kept.ended = s.kept.ended ∧
    (State.cutAll s bits_).kept.cache = s.kept.cache := by
  unfold State.cutAll
  simp [State.fold_kept, State.kept_mk]

@[simp] theorem execThermalTrip_keeps (cyc sensor : Nat) (s : State) :
    (outcomeState s (execThermalTrip cyc sensor s)).kept.part = s.kept.part ∧
    (outcomeState s (execThermalTrip cyc sensor s)).kept.pending = s.kept.pending ∧
    (outcomeState s (execThermalTrip cyc sensor s)).kept.regs = s.kept.regs ∧
    (outcomeState s (execThermalTrip cyc sensor s)).kept.blobs = s.kept.blobs ∧
    (outcomeState s (execThermalTrip cyc sensor s)).kept.boot = s.kept.boot ∧
    (outcomeState s (execThermalTrip cyc sensor s)).kept.sec = s.kept.sec ∧
    (outcomeState s (execThermalTrip cyc sensor s)).kept.slot = s.kept.slot ∧
    (outcomeState s (execThermalTrip cyc sensor s)).kept.frame = s.kept.frame ∧
    (outcomeState s (execThermalTrip cyc sensor s)).kept.txs = s.kept.txs ∧
    (outcomeState s (execThermalTrip cyc sensor s)).kept.ended = s.kept.ended ∧
    (outcomeState s (execThermalTrip cyc sensor s)).kept.cache = s.kept.cache := by
  unfold execThermalTrip; (repeat' split) <;> simp [State.fold_kept, State.kept_mk]

@[simp] theorem execVinUndervoltage_keeps (cyc : Nat) (s : State) :
    (outcomeState s (execVinUndervoltage cyc s)).kept.part = s.kept.part ∧
    (outcomeState s (execVinUndervoltage cyc s)).kept.pending = s.kept.pending ∧
    (outcomeState s (execVinUndervoltage cyc s)).kept.regs = s.kept.regs ∧
    (outcomeState s (execVinUndervoltage cyc s)).kept.blobs = s.kept.blobs ∧
    (outcomeState s (execVinUndervoltage cyc s)).kept.boot = s.kept.boot ∧
    (outcomeState s (execVinUndervoltage cyc s)).kept.sec = s.kept.sec ∧
    (outcomeState s (execVinUndervoltage cyc s)).kept.slot = s.kept.slot ∧
    (outcomeState s (execVinUndervoltage cyc s)).kept.frame = s.kept.frame ∧
    (outcomeState s (execVinUndervoltage cyc s)).kept.txs = s.kept.txs ∧
    (outcomeState s (execVinUndervoltage cyc s)).kept.ended = s.kept.ended ∧
    (outcomeState s (execVinUndervoltage cyc s)).kept.cache = s.kept.cache := by
  unfold execVinUndervoltage; (repeat' split) <;> simp [State.fold_kept, State.kept_mk]

@[simp] theorem execVinCoreLoss_kept (s : State) :
    (outcomeState s (execVinCoreLoss s)).kept = s.kept := by
  unfold execVinCoreLoss; (repeat' split) <;> simp [State.fold_kept, State.kept_mk]

@[simp] theorem State.capChanged_kept (s : State) :
    (State.capChanged s).kept = s.kept := by
  unfold State.capChanged; simp [State.fold_kept, State.kept_mk]

@[simp] theorem State.capFastEvent_kept (s before : State) :
    (State.capFastEvent s before).kept = s.kept := by
  unfold State.capFastEvent; simp [State.fold_kept, State.kept_mk]

@[simp] theorem execCapFastLevelChange_kept (cyc level : Nat) (s : State) :
    (outcomeState s (execCapFastLevelChange cyc level s)).kept = s.kept := by
  unfold execCapFastLevelChange; (repeat' split) <;> simp [State.fold_kept, State.kept_mk]

@[simp] theorem State.fastBoundary_kept (s : State) :
    (State.fastBoundary s).kept = s.kept := by
  unfold State.fastBoundary; (repeat' split) <;> simp [State.fold_kept, State.kept_mk]

@[simp] theorem State.commitCap_keeps (s : State) (sub value : Nat) :
    (State.commitCap s sub value).kept.part = s.kept.part ∧ (State.commitCap s sub value).kept.pending = s.kept.pending ∧
    (State.commitCap s sub value).kept.blobs = s.kept.blobs ∧ (State.commitCap s sub value).kept.boot = s.kept.boot ∧
    (State.commitCap s sub value).kept.sec = s.kept.sec ∧ (State.commitCap s sub value).kept.slot = s.kept.slot ∧
    (State.commitCap s sub value).kept.frame = s.kept.frame ∧ (State.commitCap s sub value).kept.txs = s.kept.txs ∧
    (State.commitCap s sub value).kept.ended = s.kept.ended ∧ (State.commitCap s sub value).kept.cache = s.kept.cache ∧
    (State.commitCap s sub value).kept.sram = s.kept.sram ∧ (State.commitCap s sub value).kept.hbm = s.kept.hbm := by
  unfold State.commitCap; (repeat' split) <;> simp [State.fold_kept, State.kept_mk]

@[simp] theorem State.commitFloor_keeps (s : State) (before value : Nat) :
    (State.commitFloor s before value).kept.part = s.kept.part ∧
    (State.commitFloor s before value).kept.pending = s.kept.pending ∧
    (State.commitFloor s before value).kept.blobs = s.kept.blobs ∧
    (State.commitFloor s before value).kept.boot = s.kept.boot ∧
    (State.commitFloor s before value).kept.sec = s.kept.sec ∧
    (State.commitFloor s before value).kept.slot = s.kept.slot ∧
    (State.commitFloor s before value).kept.frame = s.kept.frame ∧
    (State.commitFloor s before value).kept.txs = s.kept.txs ∧
    (State.commitFloor s before value).kept.ended = s.kept.ended ∧
    (State.commitFloor s before value).kept.cache = s.kept.cache ∧
    (State.commitFloor s before value).kept.sram = s.kept.sram ∧
    (State.commitFloor s before value).kept.hbm = s.kept.hbm := by
  unfold State.commitFloor; (repeat' split) <;> simp [State.fold_kept, State.kept_mk]

@[simp] theorem State.thermalBoundary_kept (s : State) (temperature : Int) (frame : Bool) :
    (State.thermalBoundary s temperature frame).kept = s.kept := by
  unfold State.thermalBoundary; simp [State.fold_kept, State.kept_mk]

@[simp] theorem execPwrFailWarn_kept (cyc : Nat) (s : State) :
    (outcomeState s (execPwrFailWarn cyc s)).kept = s.kept := by
  unfold execPwrFailWarn; (repeat' split) <;> simp [State.fold_kept, State.kept_mk]

@[simp] theorem execPwrFailWarnClear_kept (s : State) :
    (outcomeState s (execPwrFailWarnClear s)).kept = s.kept := by
  unfold execPwrFailWarnClear; (repeat' split) <;> simp [State.fold_kept, State.kept_mk]

@[simp] theorem execPowerFailShutdown_keeps (cyc : Nat) (s : State) :
    (outcomeState s (execPowerFailShutdown cyc s)).kept.part = s.kept.part ∧
    (outcomeState s (execPowerFailShutdown cyc s)).kept.pending = s.kept.pending ∧
    (outcomeState s (execPowerFailShutdown cyc s)).kept.regs = s.kept.regs ∧
    (outcomeState s (execPowerFailShutdown cyc s)).kept.blobs = s.kept.blobs ∧
    (outcomeState s (execPowerFailShutdown cyc s)).kept.boot = s.kept.boot ∧
    (outcomeState s (execPowerFailShutdown cyc s)).kept.sec = s.kept.sec ∧
    (outcomeState s (execPowerFailShutdown cyc s)).kept.slot = s.kept.slot ∧
    (outcomeState s (execPowerFailShutdown cyc s)).kept.frame = s.kept.frame ∧
    (outcomeState s (execPowerFailShutdown cyc s)).kept.txs = s.kept.txs ∧
    (outcomeState s (execPowerFailShutdown cyc s)).kept.ended = s.kept.ended ∧
    (outcomeState s (execPowerFailShutdown cyc s)).kept.cache = s.kept.cache := by
  unfold execPowerFailShutdown; (repeat' split) <;> simp [State.fold_kept, State.kept_mk]

@[simp] theorem execEjectReq_kept (s : State) :
    (outcomeState s (execEjectReq s)).kept = s.kept := by
  unfold execEjectReq; (repeat' split) <;> simp [State.fold_kept, State.kept_mk]

@[simp] theorem State.startDrain_kept (s : State) :
    (State.startDrain s).kept = s.kept := by
  unfold State.startDrain; simp [State.fold_kept, State.kept_mk]

@[simp] theorem State.drainFrame_kept (s : State) :
    (State.drainFrame s).kept = s.kept := by
  unfold State.drainFrame; (repeat' split) <;> simp [State.fold_kept, State.kept_mk]

@[simp] theorem State.drainBoundary_keeps (s : State) :
    (State.drainBoundary s).kept.part = s.kept.part ∧ (State.drainBoundary s).kept.pending = s.kept.pending ∧
    (State.drainBoundary s).kept.regs = s.kept.regs ∧ (State.drainBoundary s).kept.blobs = s.kept.blobs ∧
    (State.drainBoundary s).kept.boot = s.kept.boot ∧ (State.drainBoundary s).kept.sec = s.kept.sec ∧
    (State.drainBoundary s).kept.slot = s.kept.slot ∧ (State.drainBoundary s).kept.frame = s.kept.frame ∧
    (State.drainBoundary s).kept.txs = s.kept.txs ∧ (State.drainBoundary s).kept.ended = s.kept.ended ∧
    (State.drainBoundary s).kept.cache = s.kept.cache := by
  unfold State.drainBoundary; (repeat' split) <;> simp [State.fold_kept, State.kept_mk]

@[simp] theorem execEjectNoticeTimeout_kept (cyc : Nat) (s : State) :
    (outcomeState s (execEjectNoticeTimeout cyc s)).kept = s.kept := by
  unfold execEjectNoticeTimeout; (repeat' split) <;> simp [State.fold_kept, State.kept_mk]

@[simp] theorem execEjectReady_kept (cyc : Nat) (s : State) :
    (outcomeState s (execEjectReady cyc s)).kept = s.kept := by
  unfold execEjectReady; (repeat' split) <;> simp [State.fold_kept, State.kept_mk]

@[simp] theorem execSurpriseRemoval_kept (s : State) :
    (outcomeState s (execSurpriseRemoval s)).kept = s.kept := by
  unfold execSurpriseRemoval; (repeat' split) <;> simp [State.fold_kept, State.kept_mk]

end Sys2Proof.Machine
end

