-- ==== Sys2Proof/Laws/Security.lean ====
section
/-! SUPPORT. What the operations of Machine/Security.lean leave alone. -/

namespace Sys2Proof.Machine

@[simp] theorem State.verifyKeys_keeps (s : State) (x0 : List (List Byte)) :
    (State.verifyKeys s x0).2.kept.part = s.kept.part ∧ (State.verifyKeys s x0).2.kept.pending = s.kept.pending ∧
    (State.verifyKeys s x0).2.kept.regs = s.kept.regs ∧ (State.verifyKeys s x0).2.kept.blobs = s.kept.blobs ∧
    (State.verifyKeys s x0).2.kept.boot = s.kept.boot ∧ (State.verifyKeys s x0).2.kept.slot = s.kept.slot ∧
    (State.verifyKeys s x0).2.kept.frame = s.kept.frame ∧ (State.verifyKeys s x0).2.kept.txs = s.kept.txs ∧
    (State.verifyKeys s x0).2.kept.ended = s.kept.ended ∧ (State.verifyKeys s x0).2.kept.cache = s.kept.cache ∧
    (State.verifyKeys s x0).2.kept.sram = s.kept.sram ∧ (State.verifyKeys s x0).2.kept.hbm = s.kept.hbm := by
  induction x0 generalizing s with
  | nil => simp [State.verifyKeys]
  | cons b bs ih =>
    unfold State.verifyKeys
    dsimp only
    split <;> simp [ih]

@[simp] theorem State.commitKeys_keeps (s : State) (records : List Byte) :
    (State.commitKeys s records).kept.part = s.kept.part ∧ (State.commitKeys s records).kept.pending = s.kept.pending ∧
    (State.commitKeys s records).kept.regs = s.kept.regs ∧ (State.commitKeys s records).kept.boot = s.kept.boot ∧
    (State.commitKeys s records).kept.slot = s.kept.slot ∧ (State.commitKeys s records).kept.frame = s.kept.frame ∧
    (State.commitKeys s records).kept.txs = s.kept.txs ∧ (State.commitKeys s records).kept.ended = s.kept.ended ∧
    (State.commitKeys s records).kept.cache = s.kept.cache ∧ (State.commitKeys s records).kept.sram = s.kept.sram ∧
    (State.commitKeys s records).kept.hbm = s.kept.hbm := by
  unfold State.commitKeys; dsimp only; (repeat' split) <;> simp [State.fold_kept, State.kept_mk]

@[simp] theorem execKeyUpdate_keeps (cyc : Nat) (records : List Byte) (s : State) :
    (outcomeState s (execKeyUpdate cyc records s)).kept.part = s.kept.part ∧
    (outcomeState s (execKeyUpdate cyc records s)).kept.pending = s.kept.pending ∧
    (outcomeState s (execKeyUpdate cyc records s)).kept.regs = s.kept.regs ∧
    (outcomeState s (execKeyUpdate cyc records s)).kept.boot = s.kept.boot ∧
    (outcomeState s (execKeyUpdate cyc records s)).kept.slot = s.kept.slot ∧
    (outcomeState s (execKeyUpdate cyc records s)).kept.frame = s.kept.frame ∧
    (outcomeState s (execKeyUpdate cyc records s)).kept.txs = s.kept.txs ∧
    (outcomeState s (execKeyUpdate cyc records s)).kept.ended = s.kept.ended ∧
    (outcomeState s (execKeyUpdate cyc records s)).kept.cache = s.kept.cache ∧
    (outcomeState s (execKeyUpdate cyc records s)).kept.sram = s.kept.sram ∧
    (outcomeState s (execKeyUpdate cyc records s)).kept.hbm = s.kept.hbm := by
  unfold execKeyUpdate; (repeat' split) <;> simp [State.fold_kept, State.kept_mk]

@[simp] theorem State.newNonce_keeps (s : State) :
    (State.newNonce s).kept.part = s.kept.part ∧ (State.newNonce s).kept.pending = s.kept.pending ∧
    (State.newNonce s).kept.regs = s.kept.regs ∧ (State.newNonce s).kept.blobs = s.kept.blobs ∧
    (State.newNonce s).kept.boot = s.kept.boot ∧ (State.newNonce s).kept.slot = s.kept.slot ∧
    (State.newNonce s).kept.frame = s.kept.frame ∧ (State.newNonce s).kept.txs = s.kept.txs ∧
    (State.newNonce s).kept.ended = s.kept.ended ∧ (State.newNonce s).kept.cache = s.kept.cache ∧
    (State.newNonce s).kept.sram = s.kept.sram ∧ (State.newNonce s).kept.hbm = s.kept.hbm := by
  unfold State.newNonce; simp [State.fold_kept, State.kept_mk]

@[simp] theorem State.enrol_keeps (s : State) (b : List Byte) :
    (State.enrol s b).kept.part = s.kept.part ∧ (State.enrol s b).kept.pending = s.kept.pending ∧
    (State.enrol s b).kept.regs = s.kept.regs ∧ (State.enrol s b).kept.blobs = s.kept.blobs ∧
    (State.enrol s b).kept.boot = s.kept.boot ∧ (State.enrol s b).kept.slot = s.kept.slot ∧
    (State.enrol s b).kept.frame = s.kept.frame ∧ (State.enrol s b).kept.txs = s.kept.txs ∧
    (State.enrol s b).kept.ended = s.kept.ended ∧ (State.enrol s b).kept.cache = s.kept.cache ∧
    (State.enrol s b).kept.sram = s.kept.sram ∧ (State.enrol s b).kept.hbm = s.kept.hbm := by
  unfold State.enrol; (repeat' split) <;> simp [State.fold_kept, State.kept_mk]

@[simp] theorem State.release_keeps (s : State) :
    (State.release s).kept.part = s.kept.part ∧ (State.release s).kept.pending = s.kept.pending ∧
    (State.release s).kept.regs = s.kept.regs ∧ (State.release s).kept.blobs = s.kept.blobs ∧
    (State.release s).kept.boot = s.kept.boot ∧ (State.release s).kept.slot = s.kept.slot ∧
    (State.release s).kept.frame = s.kept.frame ∧ (State.release s).kept.txs = s.kept.txs ∧
    (State.release s).kept.ended = s.kept.ended ∧ (State.release s).kept.cache = s.kept.cache ∧
    (State.release s).kept.sram = s.kept.sram ∧ (State.release s).kept.hbm = s.kept.hbm := by
  unfold State.release; dsimp only; (repeat' split) <;> simp [State.fold_kept, State.kept_mk]

@[simp] theorem State.unlockDebug_keeps (s : State) :
    (State.unlockDebug s).kept.part = s.kept.part ∧ (State.unlockDebug s).kept.pending = s.kept.pending ∧
    (State.unlockDebug s).kept.regs = s.kept.regs ∧ (State.unlockDebug s).kept.blobs = s.kept.blobs ∧
    (State.unlockDebug s).kept.boot = s.kept.boot ∧ (State.unlockDebug s).kept.slot = s.kept.slot ∧
    (State.unlockDebug s).kept.frame = s.kept.frame ∧ (State.unlockDebug s).kept.txs = s.kept.txs ∧
    (State.unlockDebug s).kept.ended = s.kept.ended ∧ (State.unlockDebug s).kept.cache = s.kept.cache ∧
    (State.unlockDebug s).kept.sram = s.kept.sram ∧ (State.unlockDebug s).kept.hbm = s.kept.hbm := by
  unfold State.unlockDebug; simp [State.fold_kept, State.kept_mk]

@[simp] theorem State.commitTicket_keeps (s : State) (kind : Nat) (ticket cosign : List Byte) :
    (State.commitTicket s kind ticket cosign).kept.part = s.kept.part ∧
    (State.commitTicket s kind ticket cosign).kept.pending = s.kept.pending ∧
    (State.commitTicket s kind ticket cosign).kept.regs = s.kept.regs ∧
    (State.commitTicket s kind ticket cosign).kept.boot = s.kept.boot ∧
    (State.commitTicket s kind ticket cosign).kept.slot = s.kept.slot ∧
    (State.commitTicket s kind ticket cosign).kept.frame = s.kept.frame ∧
    (State.commitTicket s kind ticket cosign).kept.txs = s.kept.txs ∧
    (State.commitTicket s kind ticket cosign).kept.ended = s.kept.ended ∧
    (State.commitTicket s kind ticket cosign).kept.cache = s.kept.cache ∧
    (State.commitTicket s kind ticket cosign).kept.sram = s.kept.sram ∧
    (State.commitTicket s kind ticket cosign).kept.hbm = s.kept.hbm := by
  unfold State.commitTicket; dsimp only; (repeat' split) <;> simp [State.fold_kept, State.kept_mk]

@[simp] theorem execEnrolTicket_keeps (cyc : Nat) (ticket : List Byte) (s : State) :
    (outcomeState s (execEnrolTicket cyc ticket s)).kept.part = s.kept.part ∧
    (outcomeState s (execEnrolTicket cyc ticket s)).kept.pending = s.kept.pending ∧
    (outcomeState s (execEnrolTicket cyc ticket s)).kept.regs = s.kept.regs ∧
    (outcomeState s (execEnrolTicket cyc ticket s)).kept.boot = s.kept.boot ∧
    (outcomeState s (execEnrolTicket cyc ticket s)).kept.slot = s.kept.slot ∧
    (outcomeState s (execEnrolTicket cyc ticket s)).kept.frame = s.kept.frame ∧
    (outcomeState s (execEnrolTicket cyc ticket s)).kept.txs = s.kept.txs ∧
    (outcomeState s (execEnrolTicket cyc ticket s)).kept.ended = s.kept.ended ∧
    (outcomeState s (execEnrolTicket cyc ticket s)).kept.cache = s.kept.cache ∧
    (outcomeState s (execEnrolTicket cyc ticket s)).kept.sram = s.kept.sram ∧
    (outcomeState s (execEnrolTicket cyc ticket s)).kept.hbm = s.kept.hbm := by
  unfold execEnrolTicket; (repeat' split) <;> simp [State.fold_kept, State.kept_mk]

@[simp] theorem execReleaseTicket_keeps (cyc : Nat) (ticket : List Byte) (s : State) :
    (outcomeState s (execReleaseTicket cyc ticket s)).kept.part = s.kept.part ∧
    (outcomeState s (execReleaseTicket cyc ticket s)).kept.pending = s.kept.pending ∧
    (outcomeState s (execReleaseTicket cyc ticket s)).kept.regs = s.kept.regs ∧
    (outcomeState s (execReleaseTicket cyc ticket s)).kept.boot = s.kept.boot ∧
    (outcomeState s (execReleaseTicket cyc ticket s)).kept.slot = s.kept.slot ∧
    (outcomeState s (execReleaseTicket cyc ticket s)).kept.frame = s.kept.frame ∧
    (outcomeState s (execReleaseTicket cyc ticket s)).kept.txs = s.kept.txs ∧
    (outcomeState s (execReleaseTicket cyc ticket s)).kept.ended = s.kept.ended ∧
    (outcomeState s (execReleaseTicket cyc ticket s)).kept.cache = s.kept.cache ∧
    (outcomeState s (execReleaseTicket cyc ticket s)).kept.sram = s.kept.sram ∧
    (outcomeState s (execReleaseTicket cyc ticket s)).kept.hbm = s.kept.hbm := by
  unfold execReleaseTicket; (repeat' split) <;> simp [State.fold_kept, State.kept_mk]

@[simp] theorem execDebugUnlockTicket_keeps (cyc : Nat) (ticket cosign : List Byte) (s : State) :
    (outcomeState s (execDebugUnlockTicket cyc ticket cosign s)).kept.part = s.kept.part ∧
    (outcomeState s (execDebugUnlockTicket cyc ticket cosign s)).kept.pending = s.kept.pending ∧
    (outcomeState s (execDebugUnlockTicket cyc ticket cosign s)).kept.regs = s.kept.regs ∧
    (outcomeState s (execDebugUnlockTicket cyc ticket cosign s)).kept.boot = s.kept.boot ∧
    (outcomeState s (execDebugUnlockTicket cyc ticket cosign s)).kept.slot = s.kept.slot ∧
    (outcomeState s (execDebugUnlockTicket cyc ticket cosign s)).kept.frame = s.kept.frame ∧
    (outcomeState s (execDebugUnlockTicket cyc ticket cosign s)).kept.txs = s.kept.txs ∧
    (outcomeState s (execDebugUnlockTicket cyc ticket cosign s)).kept.ended = s.kept.ended ∧
    (outcomeState s (execDebugUnlockTicket cyc ticket cosign s)).kept.cache = s.kept.cache ∧
    (outcomeState s (execDebugUnlockTicket cyc ticket cosign s)).kept.sram = s.kept.sram ∧
    (outcomeState s (execDebugUnlockTicket cyc ticket cosign s)).kept.hbm = s.kept.hbm := by
  unfold execDebugUnlockTicket; (repeat' split) <;> simp [State.fold_kept, State.kept_mk]

@[simp] theorem State.commitAttest_keeps (s : State) (nonce : List Byte) :
    (State.commitAttest s nonce).kept.part = s.kept.part ∧ (State.commitAttest s nonce).kept.pending = s.kept.pending ∧
    (State.commitAttest s nonce).kept.regs = s.kept.regs ∧ (State.commitAttest s nonce).kept.boot = s.kept.boot ∧
    (State.commitAttest s nonce).kept.slot = s.kept.slot ∧ (State.commitAttest s nonce).kept.frame = s.kept.frame ∧
    (State.commitAttest s nonce).kept.txs = s.kept.txs ∧ (State.commitAttest s nonce).kept.ended = s.kept.ended ∧
    (State.commitAttest s nonce).kept.cache = s.kept.cache ∧ (State.commitAttest s nonce).kept.sram = s.kept.sram ∧
    (State.commitAttest s nonce).kept.hbm = s.kept.hbm := by
  unfold State.commitAttest; (repeat' split) <;> simp [State.fold_kept, State.kept_mk]

@[simp] theorem execAttestRequest_keeps (cyc : Nat) (nonce : List Byte) (s : State) :
    (outcomeState s (execAttestRequest cyc nonce s)).kept.part = s.kept.part ∧
    (outcomeState s (execAttestRequest cyc nonce s)).kept.pending = s.kept.pending ∧
    (outcomeState s (execAttestRequest cyc nonce s)).kept.regs = s.kept.regs ∧
    (outcomeState s (execAttestRequest cyc nonce s)).kept.boot = s.kept.boot ∧
    (outcomeState s (execAttestRequest cyc nonce s)).kept.slot = s.kept.slot ∧
    (outcomeState s (execAttestRequest cyc nonce s)).kept.frame = s.kept.frame ∧
    (outcomeState s (execAttestRequest cyc nonce s)).kept.txs = s.kept.txs ∧
    (outcomeState s (execAttestRequest cyc nonce s)).kept.ended = s.kept.ended ∧
    (outcomeState s (execAttestRequest cyc nonce s)).kept.cache = s.kept.cache ∧
    (outcomeState s (execAttestRequest cyc nonce s)).kept.sram = s.kept.sram ∧
    (outcomeState s (execAttestRequest cyc nonce s)).kept.hbm = s.kept.hbm := by
  unfold execAttestRequest; (repeat' split) <;> simp [State.fold_kept, State.kept_mk]

@[simp] theorem execAttestReportReady_keeps (cyc : Nat) (s : State) :
    (outcomeState s (execAttestReportReady cyc s)).kept.part = s.kept.part ∧
    (outcomeState s (execAttestReportReady cyc s)).kept.pending = s.kept.pending ∧
    (outcomeState s (execAttestReportReady cyc s)).kept.regs = s.kept.regs ∧
    (outcomeState s (execAttestReportReady cyc s)).kept.blobs = s.kept.blobs ∧
    (outcomeState s (execAttestReportReady cyc s)).kept.boot = s.kept.boot ∧
    (outcomeState s (execAttestReportReady cyc s)).kept.slot = s.kept.slot ∧
    (outcomeState s (execAttestReportReady cyc s)).kept.frame = s.kept.frame ∧
    (outcomeState s (execAttestReportReady cyc s)).kept.txs = s.kept.txs ∧
    (outcomeState s (execAttestReportReady cyc s)).kept.ended = s.kept.ended ∧
    (outcomeState s (execAttestReportReady cyc s)).kept.cache = s.kept.cache ∧
    (outcomeState s (execAttestReportReady cyc s)).kept.sram = s.kept.sram ∧
    (outcomeState s (execAttestReportReady cyc s)).kept.hbm = s.kept.hbm := by
  unfold execAttestReportReady; (repeat' split) <;> simp [State.fold_kept, State.kept_mk]

@[simp] theorem State.commitSvn_keeps (s : State) (value : Nat) :
    (State.commitSvn s value).kept.part = s.kept.part ∧ (State.commitSvn s value).kept.pending = s.kept.pending ∧
    (State.commitSvn s value).kept.blobs = s.kept.blobs ∧ (State.commitSvn s value).kept.boot = s.kept.boot ∧
    (State.commitSvn s value).kept.slot = s.kept.slot ∧ (State.commitSvn s value).kept.frame = s.kept.frame ∧
    (State.commitSvn s value).kept.txs = s.kept.txs ∧ (State.commitSvn s value).kept.ended = s.kept.ended ∧
    (State.commitSvn s value).kept.cache = s.kept.cache ∧ (State.commitSvn s value).kept.sram = s.kept.sram ∧
    (State.commitSvn s value).kept.hbm = s.kept.hbm := by
  unfold State.commitSvn; dsimp only; (repeat' split) <;> simp [State.fold_kept, State.kept_mk]

@[simp] theorem execSvnRaise_keeps (cyc : Nat) (s : State) :
    (outcomeState s (execSvnRaise cyc s)).kept.part = s.kept.part ∧
    (outcomeState s (execSvnRaise cyc s)).kept.pending = s.kept.pending ∧
    (outcomeState s (execSvnRaise cyc s)).kept.blobs = s.kept.blobs ∧
    (outcomeState s (execSvnRaise cyc s)).kept.boot = s.kept.boot ∧
    (outcomeState s (execSvnRaise cyc s)).kept.slot = s.kept.slot ∧
    (outcomeState s (execSvnRaise cyc s)).kept.frame = s.kept.frame ∧
    (outcomeState s (execSvnRaise cyc s)).kept.txs = s.kept.txs ∧
    (outcomeState s (execSvnRaise cyc s)).kept.ended = s.kept.ended ∧
    (outcomeState s (execSvnRaise cyc s)).kept.cache = s.kept.cache ∧
    (outcomeState s (execSvnRaise cyc s)).kept.sram = s.kept.sram ∧
    (outcomeState s (execSvnRaise cyc s)).kept.hbm = s.kept.hbm := by
  unfold execSvnRaise; (repeat' split) <;> simp [State.fold_kept, State.kept_mk]

end Sys2Proof.Machine
end

