-- ==== Sys2Proof/Laws/Startup.lean ====
section
/-! SUPPORT. What the operations of Machine/Startup.lean leave alone. -/

namespace Sys2Proof.Machine

@[simp] theorem State.cleared_keeps (s : State) (cause uptime : Nat) (debug : DebugState) :
    (State.cleared s cause uptime debug).kept.part = s.kept.part ∧
    (State.cleared s cause uptime debug).kept.pending = s.kept.pending := by
  unfold State.cleared; simp [State.fold_kept, State.kept_mk]

@[simp] theorem State.powerOnReset_keeps (s : State) (cause : Nat) :
    (State.powerOnReset s cause).kept.part = s.kept.part ∧ (State.powerOnReset s cause).kept.pending = s.kept.pending := by
  unfold State.powerOnReset; simp [State.fold_kept, State.kept_mk]

@[simp] theorem State.moduleReset_keeps (s : State) (cause : Nat) :
    (State.moduleReset s cause).kept.part = s.kept.part ∧ (State.moduleReset s cause).kept.pending = s.kept.pending := by
  unfold State.moduleReset; simp [State.fold_kept, State.kept_mk]

@[simp] theorem State.firmwareReset_keeps (s : State) :
    (State.firmwareReset s).kept.part = s.kept.part ∧ (State.firmwareReset s).kept.pending = s.kept.pending ∧
    (State.firmwareReset s).kept.regs = s.kept.regs ∧ (State.firmwareReset s).kept.blobs = s.kept.blobs ∧
    (State.firmwareReset s).kept.slot = s.kept.slot ∧ (State.firmwareReset s).kept.frame = s.kept.frame ∧
    (State.firmwareReset s).kept.cache = s.kept.cache ∧ (State.firmwareReset s).kept.sram = s.kept.sram ∧
    (State.firmwareReset s).kept.hbm = s.kept.hbm := by
  unfold State.firmwareReset Dict.rollBack
  simp [State.fold_kept, State.kept_mk]

@[simp] theorem State.beginReset_keeps (s : State) (cause : Nat) :
    (State.beginReset s cause).kept.part = s.kept.part ∧ (State.beginReset s cause).kept.pending = s.kept.pending ∧
    (State.beginReset s cause).kept.regs = s.kept.regs ∧ (State.beginReset s cause).kept.blobs = s.kept.blobs ∧
    (State.beginReset s cause).kept.boot = s.kept.boot ∧ (State.beginReset s cause).kept.sec = s.kept.sec ∧
    (State.beginReset s cause).kept.slot = s.kept.slot ∧ (State.beginReset s cause).kept.frame = s.kept.frame ∧
    (State.beginReset s cause).kept.txs = s.kept.txs ∧ (State.beginReset s cause).kept.ended = s.kept.ended ∧
    (State.beginReset s cause).kept.cache = s.kept.cache := by
  unfold State.beginReset; (repeat' split) <;> simp [State.fold_kept, State.kept_mk]

@[simp] theorem State.resetOn_keeps (s : State) :
    (State.resetOn s).kept.part = s.kept.part ∧ (State.resetOn s).kept.pending = s.kept.pending := by
  unfold State.resetOn; (repeat' split) <;> simp [State.fold_kept, State.kept_mk]

@[simp] theorem State.beginCommanded_keeps (s : State) :
    (State.beginCommanded s).kept.part = s.kept.part ∧ (State.beginCommanded s).kept.pending = s.kept.pending ∧
    (State.beginCommanded s).kept.regs = s.kept.regs ∧ (State.beginCommanded s).kept.blobs = s.kept.blobs ∧
    (State.beginCommanded s).kept.slot = s.kept.slot ∧ (State.beginCommanded s).kept.frame = s.kept.frame ∧
    (State.beginCommanded s).kept.cache = s.kept.cache := by
  unfold State.beginCommanded; (repeat' split) <;> simp [State.fold_kept, State.kept_mk]

@[simp] theorem State.commitReset_keeps (s : State) (value : Nat) :
    (State.commitReset s value).kept.part = s.kept.part ∧ (State.commitReset s value).kept.pending = s.kept.pending ∧
    (State.commitReset s value).kept.blobs = s.kept.blobs ∧ (State.commitReset s value).kept.sec = s.kept.sec ∧
    (State.commitReset s value).kept.slot = s.kept.slot ∧ (State.commitReset s value).kept.frame = s.kept.frame ∧
    (State.commitReset s value).kept.txs = s.kept.txs ∧ (State.commitReset s value).kept.ended = s.kept.ended ∧
    (State.commitReset s value).kept.cache = s.kept.cache ∧ (State.commitReset s value).kept.sram = s.kept.sram ∧
    (State.commitReset s value).kept.hbm = s.kept.hbm := by
  unfold State.commitReset; (repeat' split) <;> simp [State.fold_kept, State.kept_mk]

@[simp] theorem execResetModuleCmd_keeps (cyc : Nat) (s : State) :
    (outcomeState s (execResetModuleCmd cyc s)).kept.part = s.kept.part ∧
    (outcomeState s (execResetModuleCmd cyc s)).kept.pending = s.kept.pending ∧
    (outcomeState s (execResetModuleCmd cyc s)).kept.blobs = s.kept.blobs ∧
    (outcomeState s (execResetModuleCmd cyc s)).kept.slot = s.kept.slot ∧
    (outcomeState s (execResetModuleCmd cyc s)).kept.frame = s.kept.frame ∧
    (outcomeState s (execResetModuleCmd cyc s)).kept.cache = s.kept.cache := by
  unfold execResetModuleCmd
  try dsimp only
  repeat' first
    | (rw [outcomeState_next]
       first
         | (simp [State.fold_kept, State.kept_mk])
         | (split <;> simp [State.fold_kept, State.kept_mk]))
    | (rw [outcomeState_onUnit]
       first
         | (simp [State.fold_kept, State.kept_mk])
         | ((repeat' split) <;> simp [State.fold_kept, State.kept_mk])
         | (dsimp only; (repeat' split) <;> simp [State.fold_kept, State.kept_mk]))
    | rfl
    | split

@[simp] theorem execResetFirmwareCmd_keeps (cyc : Nat) (s : State) :
    (outcomeState s (execResetFirmwareCmd cyc s)).kept.part = s.kept.part ∧
    (outcomeState s (execResetFirmwareCmd cyc s)).kept.pending = s.kept.pending ∧
    (outcomeState s (execResetFirmwareCmd cyc s)).kept.blobs = s.kept.blobs ∧
    (outcomeState s (execResetFirmwareCmd cyc s)).kept.slot = s.kept.slot ∧
    (outcomeState s (execResetFirmwareCmd cyc s)).kept.frame = s.kept.frame ∧
    (outcomeState s (execResetFirmwareCmd cyc s)).kept.cache = s.kept.cache := by
  unfold execResetFirmwareCmd
  try dsimp only
  repeat' first
    | (rw [outcomeState_next]
       first
         | (simp [State.fold_kept, State.kept_mk])
         | (split <;> simp [State.fold_kept, State.kept_mk]))
    | (rw [outcomeState_onUnit]
       first
         | (simp [State.fold_kept, State.kept_mk])
         | ((repeat' split) <;> simp [State.fold_kept, State.kept_mk])
         | (dsimp only; (repeat' split) <;> simp [State.fold_kept, State.kept_mk]))
    | rfl
    | split

@[simp] theorem execModuleResetPin_keeps (cyc : Nat) (s : State) :
    (outcomeState s (execModuleResetPin cyc s)).kept.part = s.kept.part ∧
    (outcomeState s (execModuleResetPin cyc s)).kept.pending = s.kept.pending ∧
    (outcomeState s (execModuleResetPin cyc s)).kept.regs = s.kept.regs ∧
    (outcomeState s (execModuleResetPin cyc s)).kept.blobs = s.kept.blobs ∧
    (outcomeState s (execModuleResetPin cyc s)).kept.sec = s.kept.sec ∧
    (outcomeState s (execModuleResetPin cyc s)).kept.slot = s.kept.slot ∧
    (outcomeState s (execModuleResetPin cyc s)).kept.frame = s.kept.frame ∧
    (outcomeState s (execModuleResetPin cyc s)).kept.txs = s.kept.txs ∧
    (outcomeState s (execModuleResetPin cyc s)).kept.ended = s.kept.ended ∧
    (outcomeState s (execModuleResetPin cyc s)).kept.cache = s.kept.cache := by
  unfold execModuleResetPin
  try dsimp only
  repeat' first
    | (rw [outcomeState_next]
       first
         | (simp [State.fold_kept, State.kept_mk])
         | (split <;> simp [State.fold_kept, State.kept_mk]))
    | (rw [outcomeState_onUnit]
       first
         | (simp [State.fold_kept, State.kept_mk])
         | ((repeat' split) <;> simp [State.fold_kept, State.kept_mk])
         | (dsimp only; (repeat' split) <;> simp [State.fold_kept, State.kept_mk]))
    | rfl
    | split

@[simp] theorem execModuleRstLRelease_keeps (s : State) :
    (outcomeState s (execModuleRstLRelease s)).kept.part = s.kept.part ∧
    (outcomeState s (execModuleRstLRelease s)).kept.pending = s.kept.pending := by
  unfold execModuleRstLRelease
  try dsimp only
  repeat' first
    | (rw [outcomeState_next]
       first
         | (simp [State.fold_kept, State.kept_mk])
         | (split <;> simp [State.fold_kept, State.kept_mk]))
    | (rw [outcomeState_onUnit]
       first
         | (simp [State.fold_kept, State.kept_mk])
         | ((repeat' split) <;> simp [State.fold_kept, State.kept_mk])
         | (dsimp only; (repeat' split) <;> simp [State.fold_kept, State.kept_mk]))
    | rfl
    | split

@[simp] theorem execWatchdogExpire_keeps (cyc : Nat) (s : State) :
    (outcomeState s (execWatchdogExpire cyc s)).kept.part = s.kept.part ∧
    (outcomeState s (execWatchdogExpire cyc s)).kept.pending = s.kept.pending ∧
    (outcomeState s (execWatchdogExpire cyc s)).kept.regs = s.kept.regs ∧
    (outcomeState s (execWatchdogExpire cyc s)).kept.blobs = s.kept.blobs ∧
    (outcomeState s (execWatchdogExpire cyc s)).kept.boot = s.kept.boot ∧
    (outcomeState s (execWatchdogExpire cyc s)).kept.sec = s.kept.sec ∧
    (outcomeState s (execWatchdogExpire cyc s)).kept.slot = s.kept.slot ∧
    (outcomeState s (execWatchdogExpire cyc s)).kept.frame = s.kept.frame ∧
    (outcomeState s (execWatchdogExpire cyc s)).kept.txs = s.kept.txs ∧
    (outcomeState s (execWatchdogExpire cyc s)).kept.ended = s.kept.ended ∧
    (outcomeState s (execWatchdogExpire cyc s)).kept.cache = s.kept.cache := by
  unfold execWatchdogExpire
  try dsimp only
  repeat' first
    | (rw [outcomeState_next]
       first
         | (simp [State.fold_kept, State.kept_mk])
         | (split <;> simp [State.fold_kept, State.kept_mk]))
    | (rw [outcomeState_onUnit]
       first
         | (simp [State.fold_kept, State.kept_mk])
         | ((repeat' split) <;> simp [State.fold_kept, State.kept_mk])
         | (dsimp only; (repeat' split) <;> simp [State.fold_kept, State.kept_mk]))
    | rfl
    | split

@[simp] theorem execPowerOn_keeps (s : State) :
    (outcomeState s (execPowerOn s)).kept.part = s.kept.part ∧
    (outcomeState s (execPowerOn s)).kept.pending = s.kept.pending := by
  unfold execPowerOn
  try dsimp only
  repeat' first
    | (rw [outcomeState_next]
       first
         | (simp [State.fold_kept, State.kept_mk])
         | (split <;> simp [State.fold_kept, State.kept_mk]))
    | (rw [outcomeState_onUnit]
       first
         | (simp [State.fold_kept, State.kept_mk])
         | ((repeat' split) <;> simp [State.fold_kept, State.kept_mk])
         | (dsimp only; (repeat' split) <;> simp [State.fold_kept, State.kept_mk]))
    | rfl
    | split

@[simp] theorem execPowerFailRestart_keeps (vinGood : Bool) (s : State) :
    (outcomeState s (execPowerFailRestart vinGood s)).kept.part = s.kept.part ∧
    (outcomeState s (execPowerFailRestart vinGood s)).kept.pending = s.kept.pending := by
  unfold execPowerFailRestart
  try dsimp only
  repeat' first
    | (rw [outcomeState_next]
       first
         | (simp [State.fold_kept, State.kept_mk])
         | (split <;> simp [State.fold_kept, State.kept_mk]))
    | (rw [outcomeState_onUnit]
       first
         | (simp [State.fold_kept, State.kept_mk])
         | ((repeat' split) <;> simp [State.fold_kept, State.kept_mk])
         | (dsimp only; (repeat' split) <;> simp [State.fold_kept, State.kept_mk]))
    | rfl
    | split

@[simp] theorem execEjectRestart_keeps (s : State) :
    (outcomeState s (execEjectRestart s)).kept.part = s.kept.part ∧
    (outcomeState s (execEjectRestart s)).kept.pending = s.kept.pending := by
  unfold execEjectRestart
  try dsimp only
  repeat' first
    | (rw [outcomeState_next]
       first
         | (simp [State.fold_kept, State.kept_mk])
         | (split <;> simp [State.fold_kept, State.kept_mk]))
    | (rw [outcomeState_onUnit]
       first
         | (simp [State.fold_kept, State.kept_mk])
         | ((repeat' split) <;> simp [State.fold_kept, State.kept_mk])
         | (dsimp only; (repeat' split) <;> simp [State.fold_kept, State.kept_mk]))
    | rfl
    | split

@[simp] theorem State.fwCheck_keeps (s : State) (image : List Byte) :
    (State.fwCheck s image).2.kept.part = s.kept.part ∧ (State.fwCheck s image).2.kept.pending = s.kept.pending ∧
    (State.fwCheck s image).2.kept.regs = s.kept.regs ∧ (State.fwCheck s image).2.kept.blobs = s.kept.blobs ∧
    (State.fwCheck s image).2.kept.boot = s.kept.boot ∧ (State.fwCheck s image).2.kept.slot = s.kept.slot ∧
    (State.fwCheck s image).2.kept.frame = s.kept.frame ∧ (State.fwCheck s image).2.kept.txs = s.kept.txs ∧
    (State.fwCheck s image).2.kept.ended = s.kept.ended ∧ (State.fwCheck s image).2.kept.cache = s.kept.cache ∧
    (State.fwCheck s image).2.kept.sram = s.kept.sram ∧ (State.fwCheck s image).2.kept.hbm = s.kept.hbm := by
  unfold State.fwCheck; dsimp only; (repeat' split) <;> simp [State.fold_kept, State.kept_mk]

@[simp] theorem State.tryBanks_keeps (s : State) (x0 : List Nat) :
    (State.tryBanks s x0).2.kept.part = s.kept.part ∧ (State.tryBanks s x0).2.kept.pending = s.kept.pending ∧
    (State.tryBanks s x0).2.kept.regs = s.kept.regs ∧ (State.tryBanks s x0).2.kept.blobs = s.kept.blobs ∧
    (State.tryBanks s x0).2.kept.boot = s.kept.boot ∧ (State.tryBanks s x0).2.kept.slot = s.kept.slot ∧
    (State.tryBanks s x0).2.kept.frame = s.kept.frame ∧ (State.tryBanks s x0).2.kept.txs = s.kept.txs ∧
    (State.tryBanks s x0).2.kept.ended = s.kept.ended ∧ (State.tryBanks s x0).2.kept.cache = s.kept.cache ∧
    (State.tryBanks s x0).2.kept.sram = s.kept.sram ∧ (State.tryBanks s x0).2.kept.hbm = s.kept.hbm := by
  induction x0 generalizing s with
  | nil => simp [State.tryBanks]
  | cons n ns ih =>
    unfold State.tryBanks
    split
    · split
      · dsimp only
        split <;> simp [ih]
      · simp [ih]
    · simp [ih]

@[simp] theorem State.runBank_keeps (s : State) (n : Nat) :
    (State.runBank s n).kept.part = s.kept.part ∧ (State.runBank s n).kept.pending = s.kept.pending ∧
    (State.runBank s n).kept.regs = s.kept.regs ∧ (State.runBank s n).kept.blobs = s.kept.blobs ∧
    (State.runBank s n).kept.slot = s.kept.slot ∧ (State.runBank s n).kept.frame = s.kept.frame ∧
    (State.runBank s n).kept.txs = s.kept.txs ∧ (State.runBank s n).kept.ended = s.kept.ended ∧
    (State.runBank s n).kept.cache = s.kept.cache ∧ (State.runBank s n).kept.sram = s.kept.sram ∧
    (State.runBank s n).kept.hbm = s.kept.hbm := by
  unfold State.runBank; simp [State.fold_kept, State.kept_mk]

@[simp] theorem State.chooseBank_keeps (s : State) :
    (State.chooseBank s).kept.part = s.kept.part ∧ (State.chooseBank s).kept.pending = s.kept.pending ∧
    (State.chooseBank s).kept.regs = s.kept.regs ∧ (State.chooseBank s).kept.blobs = s.kept.blobs ∧
    (State.chooseBank s).kept.slot = s.kept.slot ∧ (State.chooseBank s).kept.frame = s.kept.frame ∧
    (State.chooseBank s).kept.txs = s.kept.txs ∧ (State.chooseBank s).kept.ended = s.kept.ended ∧
    (State.chooseBank s).kept.cache = s.kept.cache ∧ (State.chooseBank s).kept.sram = s.kept.sram ∧
    (State.chooseBank s).kept.hbm = s.kept.hbm := by
  unfold State.chooseBank
  dsimp only
  (repeat' split) <;> simp [State.fold_kept, State.kept_mk]

@[simp] theorem State.commitFwLoad_keeps (s : State) (image : List Byte) :
    (State.commitFwLoad s image).kept.part = s.kept.part ∧ (State.commitFwLoad s image).kept.pending = s.kept.pending ∧
    (State.commitFwLoad s image).kept.regs = s.kept.regs ∧ (State.commitFwLoad s image).kept.slot = s.kept.slot ∧
    (State.commitFwLoad s image).kept.frame = s.kept.frame ∧ (State.commitFwLoad s image).kept.txs = s.kept.txs ∧
    (State.commitFwLoad s image).kept.ended = s.kept.ended ∧ (State.commitFwLoad s image).kept.cache = s.kept.cache ∧
    (State.commitFwLoad s image).kept.sram = s.kept.sram ∧ (State.commitFwLoad s image).kept.hbm = s.kept.hbm := by
  unfold State.commitFwLoad; dsimp only; (repeat' split) <;> simp [State.fold_kept, State.kept_mk]

@[simp] theorem execFwLoad_keeps (cyc : Nat) (image : List Byte) (s : State) :
    (outcomeState s (execFwLoad cyc image s)).kept.part = s.kept.part ∧
    (outcomeState s (execFwLoad cyc image s)).kept.pending = s.kept.pending ∧
    (outcomeState s (execFwLoad cyc image s)).kept.regs = s.kept.regs ∧
    (outcomeState s (execFwLoad cyc image s)).kept.slot = s.kept.slot ∧
    (outcomeState s (execFwLoad cyc image s)).kept.frame = s.kept.frame ∧
    (outcomeState s (execFwLoad cyc image s)).kept.txs = s.kept.txs ∧
    (outcomeState s (execFwLoad cyc image s)).kept.ended = s.kept.ended ∧
    (outcomeState s (execFwLoad cyc image s)).kept.cache = s.kept.cache ∧
    (outcomeState s (execFwLoad cyc image s)).kept.sram = s.kept.sram ∧
    (outcomeState s (execFwLoad cyc image s)).kept.hbm = s.kept.hbm := by
  unfold execFwLoad
  try dsimp only
  repeat' first
    | (rw [outcomeState_next]
       first
         | (simp [State.fold_kept, State.kept_mk])
         | (split <;> simp [State.fold_kept, State.kept_mk]))
    | (rw [outcomeState_onUnit]
       first
         | (simp [State.fold_kept, State.kept_mk])
         | ((repeat' split) <;> simp [State.fold_kept, State.kept_mk])
         | (dsimp only; (repeat' split) <;> simp [State.fold_kept, State.kept_mk]))
    | rfl
    | split

@[simp] theorem execFwLoadComplete_keeps (cyc : Nat) (matched : Bool) (s : State) :
    (outcomeState s (execFwLoadComplete cyc matched s)).kept.part = s.kept.part ∧
    (outcomeState s (execFwLoadComplete cyc matched s)).kept.pending = s.kept.pending ∧
    (outcomeState s (execFwLoadComplete cyc matched s)).kept.regs = s.kept.regs ∧
    (outcomeState s (execFwLoadComplete cyc matched s)).kept.blobs = s.kept.blobs ∧
    (outcomeState s (execFwLoadComplete cyc matched s)).kept.slot = s.kept.slot ∧
    (outcomeState s (execFwLoadComplete cyc matched s)).kept.frame = s.kept.frame ∧
    (outcomeState s (execFwLoadComplete cyc matched s)).kept.txs = s.kept.txs ∧
    (outcomeState s (execFwLoadComplete cyc matched s)).kept.ended = s.kept.ended ∧
    (outcomeState s (execFwLoadComplete cyc matched s)).kept.cache = s.kept.cache ∧
    (outcomeState s (execFwLoadComplete cyc matched s)).kept.sram = s.kept.sram ∧
    (outcomeState s (execFwLoadComplete cyc matched s)).kept.hbm = s.kept.hbm := by
  unfold execFwLoadComplete
  try dsimp only
  repeat' first
    | (rw [outcomeState_next]
       first
         | (simp [State.fold_kept, State.kept_mk])
         | (split <;> simp [State.fold_kept, State.kept_mk]))
    | (rw [outcomeState_onUnit]
       first
         | (simp [State.fold_kept, State.kept_mk])
         | ((repeat' split) <;> simp [State.fold_kept, State.kept_mk])
         | (dsimp only; (repeat' split) <;> simp [State.fold_kept, State.kept_mk]))
    | rfl
    | split

@[simp] theorem State.commitActivate_keeps (s : State) (value : Nat) :
    (State.commitActivate s value).kept.part = s.kept.part ∧
    (State.commitActivate s value).kept.pending = s.kept.pending ∧
    (State.commitActivate s value).kept.blobs = s.kept.blobs ∧ (State.commitActivate s value).kept.sec = s.kept.sec ∧
    (State.commitActivate s value).kept.slot = s.kept.slot ∧ (State.commitActivate s value).kept.frame = s.kept.frame ∧
    (State.commitActivate s value).kept.txs = s.kept.txs ∧ (State.commitActivate s value).kept.ended = s.kept.ended ∧
    (State.commitActivate s value).kept.cache = s.kept.cache ∧ (State.commitActivate s value).kept.sram = s.kept.sram ∧
    (State.commitActivate s value).kept.hbm = s.kept.hbm := by
  unfold State.commitActivate; (repeat' split) <;> simp [State.fold_kept, State.kept_mk]

@[simp] theorem execFwActivate_keeps (s : State) :
    (outcomeState s (execFwActivate s)).kept.part = s.kept.part ∧
    (outcomeState s (execFwActivate s)).kept.pending = s.kept.pending ∧
    (outcomeState s (execFwActivate s)).kept.blobs = s.kept.blobs ∧
    (outcomeState s (execFwActivate s)).kept.sec = s.kept.sec ∧
    (outcomeState s (execFwActivate s)).kept.slot = s.kept.slot ∧
    (outcomeState s (execFwActivate s)).kept.frame = s.kept.frame ∧
    (outcomeState s (execFwActivate s)).kept.txs = s.kept.txs ∧
    (outcomeState s (execFwActivate s)).kept.ended = s.kept.ended ∧
    (outcomeState s (execFwActivate s)).kept.cache = s.kept.cache ∧
    (outcomeState s (execFwActivate s)).kept.sram = s.kept.sram ∧
    (outcomeState s (execFwActivate s)).kept.hbm = s.kept.hbm := by
  unfold execFwActivate
  try dsimp only
  repeat' first
    | (rw [outcomeState_next]
       first
         | (simp [State.fold_kept, State.kept_mk])
         | (split <;> simp [State.fold_kept, State.kept_mk]))
    | (rw [outcomeState_onUnit]
       first
         | (simp [State.fold_kept, State.kept_mk])
         | ((repeat' split) <;> simp [State.fold_kept, State.kept_mk])
         | (dsimp only; (repeat' split) <;> simp [State.fold_kept, State.kept_mk]))
    | rfl
    | split

@[simp] theorem execFwDeactivate_keeps (s : State) :
    (outcomeState s (execFwDeactivate s)).kept.part = s.kept.part ∧
    (outcomeState s (execFwDeactivate s)).kept.pending = s.kept.pending ∧
    (outcomeState s (execFwDeactivate s)).kept.blobs = s.kept.blobs ∧
    (outcomeState s (execFwDeactivate s)).kept.sec = s.kept.sec ∧
    (outcomeState s (execFwDeactivate s)).kept.slot = s.kept.slot ∧
    (outcomeState s (execFwDeactivate s)).kept.frame = s.kept.frame ∧
    (outcomeState s (execFwDeactivate s)).kept.txs = s.kept.txs ∧
    (outcomeState s (execFwDeactivate s)).kept.ended = s.kept.ended ∧
    (outcomeState s (execFwDeactivate s)).kept.cache = s.kept.cache ∧
    (outcomeState s (execFwDeactivate s)).kept.sram = s.kept.sram ∧
    (outcomeState s (execFwDeactivate s)).kept.hbm = s.kept.hbm := by
  unfold execFwDeactivate
  try dsimp only
  repeat' first
    | (rw [outcomeState_next]
       first
         | (simp [State.fold_kept, State.kept_mk])
         | (split <;> simp [State.fold_kept, State.kept_mk]))
    | (rw [outcomeState_onUnit]
       first
         | (simp [State.fold_kept, State.kept_mk])
         | ((repeat' split) <;> simp [State.fold_kept, State.kept_mk])
         | (dsimp only; (repeat' split) <;> simp [State.fold_kept, State.kept_mk]))
    | rfl
    | split

@[simp] theorem State.commitServe_keeps (s : State) (value : Nat) :
    (State.commitServe s value).kept.part = s.kept.part ∧ (State.commitServe s value).kept.pending = s.kept.pending ∧
    (State.commitServe s value).kept.blobs = s.kept.blobs ∧ (State.commitServe s value).kept.sec = s.kept.sec ∧
    (State.commitServe s value).kept.slot = s.kept.slot ∧ (State.commitServe s value).kept.frame = s.kept.frame ∧
    (State.commitServe s value).kept.txs = s.kept.txs ∧ (State.commitServe s value).kept.ended = s.kept.ended ∧
    (State.commitServe s value).kept.cache = s.kept.cache ∧ (State.commitServe s value).kept.sram = s.kept.sram ∧
    (State.commitServe s value).kept.hbm = s.kept.hbm := by
  unfold State.commitServe; (repeat' split) <;> simp [State.fold_kept, State.kept_mk]

@[simp] theorem execServeStart_keeps (cyc : Nat) (s : State) :
    (outcomeState s (execServeStart cyc s)).kept.part = s.kept.part ∧
    (outcomeState s (execServeStart cyc s)).kept.pending = s.kept.pending ∧
    (outcomeState s (execServeStart cyc s)).kept.blobs = s.kept.blobs ∧
    (outcomeState s (execServeStart cyc s)).kept.sec = s.kept.sec ∧
    (outcomeState s (execServeStart cyc s)).kept.slot = s.kept.slot ∧
    (outcomeState s (execServeStart cyc s)).kept.frame = s.kept.frame ∧
    (outcomeState s (execServeStart cyc s)).kept.txs = s.kept.txs ∧
    (outcomeState s (execServeStart cyc s)).kept.ended = s.kept.ended ∧
    (outcomeState s (execServeStart cyc s)).kept.cache = s.kept.cache ∧
    (outcomeState s (execServeStart cyc s)).kept.sram = s.kept.sram ∧
    (outcomeState s (execServeStart cyc s)).kept.hbm = s.kept.hbm := by
  unfold execServeStart
  try dsimp only
  repeat' first
    | (rw [outcomeState_next]
       first
         | (simp [State.fold_kept, State.kept_mk])
         | (split <;> simp [State.fold_kept, State.kept_mk]))
    | (rw [outcomeState_onUnit]
       first
         | (simp [State.fold_kept, State.kept_mk])
         | ((repeat' split) <;> simp [State.fold_kept, State.kept_mk])
         | (dsimp only; (repeat' split) <;> simp [State.fold_kept, State.kept_mk]))
    | rfl
    | split

@[simp] theorem execServeStop_keeps (s : State) :
    (outcomeState s (execServeStop s)).kept.part = s.kept.part ∧
    (outcomeState s (execServeStop s)).kept.pending = s.kept.pending ∧
    (outcomeState s (execServeStop s)).kept.blobs = s.kept.blobs ∧
    (outcomeState s (execServeStop s)).kept.sec = s.kept.sec ∧
    (outcomeState s (execServeStop s)).kept.slot = s.kept.slot ∧
    (outcomeState s (execServeStop s)).kept.frame = s.kept.frame ∧
    (outcomeState s (execServeStop s)).kept.txs = s.kept.txs ∧
    (outcomeState s (execServeStop s)).kept.ended = s.kept.ended ∧
    (outcomeState s (execServeStop s)).kept.cache = s.kept.cache ∧
    (outcomeState s (execServeStop s)).kept.sram = s.kept.sram ∧
    (outcomeState s (execServeStop s)).kept.hbm = s.kept.hbm := by
  unfold execServeStop
  try dsimp only
  repeat' first
    | (rw [outcomeState_next]
       first
         | (simp [State.fold_kept, State.kept_mk])
         | (split <;> simp [State.fold_kept, State.kept_mk]))
    | (rw [outcomeState_onUnit]
       first
         | (simp [State.fold_kept, State.kept_mk])
         | ((repeat' split) <;> simp [State.fold_kept, State.kept_mk])
         | (dsimp only; (repeat' split) <;> simp [State.fold_kept, State.kept_mk]))
    | rfl
    | split

@[simp] theorem State.readMemories_keeps (s : State) (ms : List (Option (List Byte))) :
    (State.readMemories s ms).kept.part = s.kept.part ∧ (State.readMemories s ms).kept.pending = s.kept.pending ∧
    (State.readMemories s ms).kept.regs = s.kept.regs ∧ (State.readMemories s ms).kept.blobs = s.kept.blobs ∧
    (State.readMemories s ms).kept.sec = s.kept.sec ∧ (State.readMemories s ms).kept.slot = s.kept.slot ∧
    (State.readMemories s ms).kept.frame = s.kept.frame ∧ (State.readMemories s ms).kept.txs = s.kept.txs ∧
    (State.readMemories s ms).kept.ended = s.kept.ended ∧ (State.readMemories s ms).kept.cache = s.kept.cache ∧
    (State.readMemories s ms).kept.sram = s.kept.sram ∧ (State.readMemories s ms).kept.hbm = s.kept.hbm := by
  unfold State.readMemories; simp [State.fold_kept, State.kept_mk]

@[simp] theorem State.applyTray_kept (s : State) :
    (State.applyTray s).kept = s.kept := by
  unfold State.applyTray; simp [State.fold_kept, State.kept_mk]

@[simp] theorem State.applyBackplane_kept (s : State) :
    (State.applyBackplane s).kept = s.kept := by
  unfold State.applyBackplane; simp [State.fold_kept, State.kept_mk]

@[simp] theorem State.applyLasers_kept (s : State) :
    (State.applyLasers s).kept = s.kept := by
  unfold State.applyLasers; simp [State.fold_kept, State.kept_mk]

@[simp] theorem State.fieldStart_kept (s : State) :
    (State.fieldStart s).kept = s.kept := by
  unfold State.fieldStart; simp [State.fold_kept, State.kept_mk]

@[simp] theorem State.fieldRestart_kept (s : State) :
    (State.fieldRestart s).kept = s.kept := by
  unfold State.fieldRestart; simp [State.fold_kept, State.kept_mk]

@[simp] theorem State.applyIdentity_keeps (s : State) :
    (State.applyIdentity s).kept.part = s.kept.part ∧ (State.applyIdentity s).kept.pending = s.kept.pending ∧
    (State.applyIdentity s).kept.regs = s.kept.regs ∧ (State.applyIdentity s).kept.blobs = s.kept.blobs ∧
    (State.applyIdentity s).kept.sec = s.kept.sec ∧ (State.applyIdentity s).kept.slot = s.kept.slot ∧
    (State.applyIdentity s).kept.frame = s.kept.frame ∧ (State.applyIdentity s).kept.txs = s.kept.txs ∧
    (State.applyIdentity s).kept.ended = s.kept.ended ∧ (State.applyIdentity s).kept.cache = s.kept.cache ∧
    (State.applyIdentity s).kept.sram = s.kept.sram ∧ (State.applyIdentity s).kept.hbm = s.kept.hbm := by
  unfold State.applyIdentity; simp [State.fold_kept, State.kept_mk]; (repeat' split) <;> simp [State.fold_kept, State.kept_mk]

@[simp] theorem execIdentityReread_keeps (cyc : Nat) (memories : List (Option (List Byte))) (s : State) :
    (outcomeState s (execIdentityReread cyc memories s)).kept.part = s.kept.part ∧
    (outcomeState s (execIdentityReread cyc memories s)).kept.pending = s.kept.pending ∧
    (outcomeState s (execIdentityReread cyc memories s)).kept.regs = s.kept.regs ∧
    (outcomeState s (execIdentityReread cyc memories s)).kept.blobs = s.kept.blobs ∧
    (outcomeState s (execIdentityReread cyc memories s)).kept.sec = s.kept.sec ∧
    (outcomeState s (execIdentityReread cyc memories s)).kept.slot = s.kept.slot ∧
    (outcomeState s (execIdentityReread cyc memories s)).kept.frame = s.kept.frame ∧
    (outcomeState s (execIdentityReread cyc memories s)).kept.txs = s.kept.txs ∧
    (outcomeState s (execIdentityReread cyc memories s)).kept.ended = s.kept.ended ∧
    (outcomeState s (execIdentityReread cyc memories s)).kept.cache = s.kept.cache ∧
    (outcomeState s (execIdentityReread cyc memories s)).kept.sram = s.kept.sram ∧
    (outcomeState s (execIdentityReread cyc memories s)).kept.hbm = s.kept.hbm := by
  unfold execIdentityReread
  try dsimp only
  repeat' first
    | (rw [outcomeState_next]
       first
         | (simp [State.fold_kept, State.kept_mk])
         | (split <;> simp [State.fold_kept, State.kept_mk]))
    | (rw [outcomeState_onUnit]
       first
         | (simp [State.fold_kept, State.kept_mk])
         | ((repeat' split) <;> simp [State.fold_kept, State.kept_mk])
         | (dsimp only; (repeat' split) <;> simp [State.fold_kept, State.kept_mk]))
    | rfl
    | split

@[simp] theorem State.itemBegan_keeps (s : State) (row part : Nat) :
    (State.itemBegan s row part).kept.part = s.kept.part ∧ (State.itemBegan s row part).kept.pending = s.kept.pending ∧
    (State.itemBegan s row part).kept.regs = s.kept.regs ∧ (State.itemBegan s row part).kept.blobs = s.kept.blobs ∧
    (State.itemBegan s row part).kept.sec = s.kept.sec ∧ (State.itemBegan s row part).kept.slot = s.kept.slot ∧
    (State.itemBegan s row part).kept.frame = s.kept.frame ∧ (State.itemBegan s row part).kept.txs = s.kept.txs ∧
    (State.itemBegan s row part).kept.ended = s.kept.ended ∧ (State.itemBegan s row part).kept.cache = s.kept.cache ∧
    (State.itemBegan s row part).kept.sram = s.kept.sram ∧ (State.itemBegan s row part).kept.hbm = s.kept.hbm := by
  unfold State.itemBegan; simp [State.fold_kept, State.kept_mk]

@[simp] theorem State.firmwareStarts_keeps (s : State) :
    (State.firmwareStarts s).kept.part = s.kept.part ∧ (State.firmwareStarts s).kept.pending = s.kept.pending ∧
    (State.firmwareStarts s).kept.regs = s.kept.regs ∧ (State.firmwareStarts s).kept.blobs = s.kept.blobs ∧
    (State.firmwareStarts s).kept.sec = s.kept.sec ∧ (State.firmwareStarts s).kept.slot = s.kept.slot ∧
    (State.firmwareStarts s).kept.frame = s.kept.frame ∧ (State.firmwareStarts s).kept.txs = s.kept.txs ∧
    (State.firmwareStarts s).kept.ended = s.kept.ended ∧ (State.firmwareStarts s).kept.cache = s.kept.cache ∧
    (State.firmwareStarts s).kept.sram = s.kept.sram ∧ (State.firmwareStarts s).kept.hbm = s.kept.hbm := by
  unfold State.firmwareStarts; dsimp only; (repeat' split) <;> simp [State.fold_kept, State.kept_mk]

@[simp] theorem State.pushedRuns_kept (s : State) :
    (State.pushedRuns s).kept = s.kept := by
  unfold State.pushedRuns; simp [State.fold_kept, State.kept_mk]

@[simp] theorem execBringupItemStart_keeps (cyc row part : Nat) (env : BringupEnv) (s : State) :
    (outcomeState s (execBringupItemStart cyc row part env s)).kept.part = s.kept.part ∧
    (outcomeState s (execBringupItemStart cyc row part env s)).kept.pending = s.kept.pending ∧
    (outcomeState s (execBringupItemStart cyc row part env s)).kept.regs = s.kept.regs ∧
    (outcomeState s (execBringupItemStart cyc row part env s)).kept.blobs = s.kept.blobs ∧
    (outcomeState s (execBringupItemStart cyc row part env s)).kept.slot = s.kept.slot ∧
    (outcomeState s (execBringupItemStart cyc row part env s)).kept.frame = s.kept.frame ∧
    (outcomeState s (execBringupItemStart cyc row part env s)).kept.txs = s.kept.txs ∧
    (outcomeState s (execBringupItemStart cyc row part env s)).kept.ended = s.kept.ended ∧
    (outcomeState s (execBringupItemStart cyc row part env s)).kept.cache = s.kept.cache ∧
    (outcomeState s (execBringupItemStart cyc row part env s)).kept.sram = s.kept.sram ∧
    (outcomeState s (execBringupItemStart cyc row part env s)).kept.hbm = s.kept.hbm := by
  unfold execBringupItemStart
  rw [outcomeState_onUnit]
  dsimp only
  split
  · split
    · simp
    · split
      · split
        · simp
        · split <;> simp
      · split
        all_goals (try split) <;> (try simp)
        all_goals (try split) <;> simp
  · simp

@[simp] theorem execBringupTimeout_keeps (cyc row : Nat) (s : State) :
    (outcomeState s (execBringupTimeout cyc row s)).kept.part = s.kept.part ∧
    (outcomeState s (execBringupTimeout cyc row s)).kept.pending = s.kept.pending ∧
    (outcomeState s (execBringupTimeout cyc row s)).kept.regs = s.kept.regs ∧
    (outcomeState s (execBringupTimeout cyc row s)).kept.blobs = s.kept.blobs ∧
    (outcomeState s (execBringupTimeout cyc row s)).kept.boot = s.kept.boot ∧
    (outcomeState s (execBringupTimeout cyc row s)).kept.sec = s.kept.sec ∧
    (outcomeState s (execBringupTimeout cyc row s)).kept.slot = s.kept.slot ∧
    (outcomeState s (execBringupTimeout cyc row s)).kept.frame = s.kept.frame ∧
    (outcomeState s (execBringupTimeout cyc row s)).kept.txs = s.kept.txs ∧
    (outcomeState s (execBringupTimeout cyc row s)).kept.ended = s.kept.ended ∧
    (outcomeState s (execBringupTimeout cyc row s)).kept.cache = s.kept.cache := by
  unfold execBringupTimeout
  rw [outcomeState_onUnit]
  dsimp only
  split
  · split
    · simp
    · simp
  · simp

@[simp] theorem State.joinQuads_keeps (s : State) :
    (State.joinQuads s).kept.part = s.kept.part ∧ (State.joinQuads s).kept.pending = s.kept.pending ∧
    (State.joinQuads s).kept.regs = s.kept.regs ∧ (State.joinQuads s).kept.blobs = s.kept.blobs ∧
    (State.joinQuads s).kept.sec = s.kept.sec ∧ (State.joinQuads s).kept.slot = s.kept.slot ∧
    (State.joinQuads s).kept.frame = s.kept.frame ∧ (State.joinQuads s).kept.txs = s.kept.txs ∧
    (State.joinQuads s).kept.ended = s.kept.ended ∧ (State.joinQuads s).kept.cache = s.kept.cache ∧
    (State.joinQuads s).kept.sram = s.kept.sram ∧ (State.joinQuads s).kept.hbm = s.kept.hbm := by
  unfold State.joinQuads; (repeat' split) <;> simp [State.fold_kept, State.kept_mk]

@[simp] theorem State.becomeReady_keeps (s : State) :
    (State.becomeReady s).kept.part = s.kept.part ∧ (State.becomeReady s).kept.pending = s.kept.pending ∧
    (State.becomeReady s).kept.regs = s.kept.regs ∧ (State.becomeReady s).kept.blobs = s.kept.blobs ∧
    (State.becomeReady s).kept.sec = s.kept.sec ∧ (State.becomeReady s).kept.slot = s.kept.slot ∧
    (State.becomeReady s).kept.frame = s.kept.frame ∧ (State.becomeReady s).kept.txs = s.kept.txs ∧
    (State.becomeReady s).kept.ended = s.kept.ended ∧ (State.becomeReady s).kept.cache = s.kept.cache ∧
    (State.becomeReady s).kept.sram = s.kept.sram ∧ (State.becomeReady s).kept.hbm = s.kept.hbm := by
  unfold State.becomeReady; simp [State.fold_kept, State.kept_mk]

@[simp] theorem State.bootBoundary_keeps (s : State) :
    (State.bootBoundary s).kept.part = s.kept.part ∧ (State.bootBoundary s).kept.pending = s.kept.pending ∧
    (State.bootBoundary s).kept.regs = s.kept.regs ∧ (State.bootBoundary s).kept.blobs = s.kept.blobs ∧
    (State.bootBoundary s).kept.sec = s.kept.sec ∧ (State.bootBoundary s).kept.slot = s.kept.slot ∧
    (State.bootBoundary s).kept.frame = s.kept.frame ∧ (State.bootBoundary s).kept.txs = s.kept.txs ∧
    (State.bootBoundary s).kept.ended = s.kept.ended ∧ (State.bootBoundary s).kept.cache = s.kept.cache ∧
    (State.bootBoundary s).kept.sram = s.kept.sram ∧ (State.bootBoundary s).kept.hbm = s.kept.hbm := by
  unfold State.bootBoundary; dsimp only; (repeat' split) <;> simp [State.fold_kept, State.kept_mk]

end Sys2Proof.Machine
end

