-- ==== Sys2Proof/Laws/TimeBase.lean ====
section
/-! SUPPORT. What the operations of Machine/TimeBase.lean leave alone. -/

namespace Sys2Proof.Machine

@[simp] theorem State.placeBoundary_keeps (s : State) :
    (State.placeBoundary s).kept.part = s.kept.part ∧ (State.placeBoundary s).kept.pending = s.kept.pending ∧
    (State.placeBoundary s).kept.regs = s.kept.regs ∧ (State.placeBoundary s).kept.blobs = s.kept.blobs ∧
    (State.placeBoundary s).kept.sec = s.kept.sec ∧ (State.placeBoundary s).kept.txs = s.kept.txs ∧
    (State.placeBoundary s).kept.ended = s.kept.ended ∧ (State.placeBoundary s).kept.cache = s.kept.cache ∧
    (State.placeBoundary s).kept.sram = s.kept.sram ∧ (State.placeBoundary s).kept.hbm = s.kept.hbm := by
  unfold State.placeBoundary; simp [State.fold_kept, State.kept_mk]

@[simp] theorem State.realign_keeps (s : State) (ended cyc : Nat) :
    (State.realign s ended cyc).kept.part = s.kept.part ∧ (State.realign s ended cyc).kept.pending = s.kept.pending ∧
    (State.realign s ended cyc).kept.regs = s.kept.regs ∧ (State.realign s ended cyc).kept.blobs = s.kept.blobs ∧
    (State.realign s ended cyc).kept.boot = s.kept.boot ∧ (State.realign s ended cyc).kept.sec = s.kept.sec ∧
    (State.realign s ended cyc).kept.txs = s.kept.txs ∧ (State.realign s ended cyc).kept.ended = s.kept.ended ∧
    (State.realign s ended cyc).kept.cache = s.kept.cache ∧ (State.realign s ended cyc).kept.sram = s.kept.sram ∧
    (State.realign s ended cyc).kept.hbm = s.kept.hbm := by
  unfold State.realign; simp [State.fold_kept, State.kept_mk]

@[simp] theorem execFrefEdge_keeps (refclks : Nat) (s : State) :
    (outcomeState s (execFrefEdge refclks s)).kept.part = s.kept.part ∧
    (outcomeState s (execFrefEdge refclks s)).kept.pending = s.kept.pending ∧
    (outcomeState s (execFrefEdge refclks s)).kept.regs = s.kept.regs ∧
    (outcomeState s (execFrefEdge refclks s)).kept.blobs = s.kept.blobs ∧
    (outcomeState s (execFrefEdge refclks s)).kept.sec = s.kept.sec ∧
    (outcomeState s (execFrefEdge refclks s)).kept.txs = s.kept.txs ∧
    (outcomeState s (execFrefEdge refclks s)).kept.ended = s.kept.ended ∧
    (outcomeState s (execFrefEdge refclks s)).kept.cache = s.kept.cache ∧
    (outcomeState s (execFrefEdge refclks s)).kept.sram = s.kept.sram ∧
    (outcomeState s (execFrefEdge refclks s)).kept.hbm = s.kept.hbm := by
  unfold execFrefEdge; dsimp only; (repeat' split) <;> simp [State.fold_kept, State.kept_mk]

@[simp] theorem State.openHoldover_kept (s : State) :
    (State.openHoldover s).kept = s.kept := by
  unfold State.openHoldover; simp [State.fold_kept, State.kept_mk]

@[simp] theorem State.filterPhase_kept (s : State) :
    (State.filterPhase s).kept = s.kept := by
  unfold State.filterPhase; simp [State.fold_kept, State.kept_mk]

@[simp] theorem State.lock_keeps (s : State) :
    (State.lock s).kept.part = s.kept.part ∧ (State.lock s).kept.pending = s.kept.pending ∧
    (State.lock s).kept.regs = s.kept.regs ∧ (State.lock s).kept.blobs = s.kept.blobs ∧
    (State.lock s).kept.boot = s.kept.boot ∧ (State.lock s).kept.sec = s.kept.sec ∧
    (State.lock s).kept.slot = s.kept.slot ∧ (State.lock s).kept.txs = s.kept.txs ∧
    (State.lock s).kept.ended = s.kept.ended ∧ (State.lock s).kept.cache = s.kept.cache ∧
    (State.lock s).kept.sram = s.kept.sram ∧ (State.lock s).kept.hbm = s.kept.hbm := by
  unfold State.lock; (repeat' split) <;> simp [State.fold_kept, State.kept_mk]

@[simp] theorem State.validPulse_keeps (s : State) (wide : Bool) :
    (State.validPulse s wide).kept.part = s.kept.part ∧ (State.validPulse s wide).kept.pending = s.kept.pending ∧
    (State.validPulse s wide).kept.regs = s.kept.regs ∧ (State.validPulse s wide).kept.blobs = s.kept.blobs ∧
    (State.validPulse s wide).kept.boot = s.kept.boot ∧ (State.validPulse s wide).kept.sec = s.kept.sec ∧
    (State.validPulse s wide).kept.txs = s.kept.txs ∧ (State.validPulse s wide).kept.ended = s.kept.ended ∧
    (State.validPulse s wide).kept.cache = s.kept.cache ∧ (State.validPulse s wide).kept.sram = s.kept.sram ∧
    (State.validPulse s wide).kept.hbm = s.kept.hbm := by
  unfold State.validPulse; dsimp only; (repeat' split) <;> simp [State.fold_kept, State.kept_mk]

@[simp] theorem State.jumpPulse_keeps (s : State) (e : FrefEdge) (wide : Bool) :
    (State.jumpPulse s e wide).kept.part = s.kept.part ∧
    (State.jumpPulse s e wide).kept.pending = s.kept.pending ∧
    (State.jumpPulse s e wide).kept.regs = s.kept.regs ∧ (State.jumpPulse s e wide).kept.blobs = s.kept.blobs ∧
    (State.jumpPulse s e wide).kept.boot = s.kept.boot ∧ (State.jumpPulse s e wide).kept.sec = s.kept.sec ∧
    (State.jumpPulse s e wide).kept.txs = s.kept.txs ∧ (State.jumpPulse s e wide).kept.ended = s.kept.ended ∧
    (State.jumpPulse s e wide).kept.cache = s.kept.cache ∧ (State.jumpPulse s e wide).kept.sram = s.kept.sram ∧
    (State.jumpPulse s e wide).kept.hbm = s.kept.hbm := by
  unfold State.jumpPulse; dsimp only; (repeat' split) <;> simp [State.fold_kept, State.kept_mk]

@[simp] theorem execFrefPulseClassified_keeps (cyc highTime : Nat) (s : State) :
    (outcomeState s (execFrefPulseClassified cyc highTime s)).kept.part = s.kept.part ∧
    (outcomeState s (execFrefPulseClassified cyc highTime s)).kept.pending = s.kept.pending ∧
    (outcomeState s (execFrefPulseClassified cyc highTime s)).kept.regs = s.kept.regs ∧
    (outcomeState s (execFrefPulseClassified cyc highTime s)).kept.blobs = s.kept.blobs ∧
    (outcomeState s (execFrefPulseClassified cyc highTime s)).kept.boot = s.kept.boot ∧
    (outcomeState s (execFrefPulseClassified cyc highTime s)).kept.sec = s.kept.sec ∧
    (outcomeState s (execFrefPulseClassified cyc highTime s)).kept.txs = s.kept.txs ∧
    (outcomeState s (execFrefPulseClassified cyc highTime s)).kept.ended = s.kept.ended ∧
    (outcomeState s (execFrefPulseClassified cyc highTime s)).kept.cache = s.kept.cache ∧
    (outcomeState s (execFrefPulseClassified cyc highTime s)).kept.sram = s.kept.sram ∧
    (outcomeState s (execFrefPulseClassified cyc highTime s)).kept.hbm = s.kept.hbm := by
  unfold execFrefPulseClassified; (repeat' split) <;> simp [State.fold_kept, State.kept_mk]

@[simp] theorem execFlywheelBoundary_keeps (s : State) :
    (outcomeState s (execFlywheelBoundary s)).kept.part = s.kept.part ∧
    (outcomeState s (execFlywheelBoundary s)).kept.pending = s.kept.pending ∧
    (outcomeState s (execFlywheelBoundary s)).kept.regs = s.kept.regs ∧
    (outcomeState s (execFlywheelBoundary s)).kept.blobs = s.kept.blobs ∧
    (outcomeState s (execFlywheelBoundary s)).kept.sec = s.kept.sec ∧
    (outcomeState s (execFlywheelBoundary s)).kept.txs = s.kept.txs ∧
    (outcomeState s (execFlywheelBoundary s)).kept.ended = s.kept.ended ∧
    (outcomeState s (execFlywheelBoundary s)).kept.cache = s.kept.cache ∧
    (outcomeState s (execFlywheelBoundary s)).kept.sram = s.kept.sram ∧
    (outcomeState s (execFlywheelBoundary s)).kept.hbm = s.kept.hbm := by
  unfold execFlywheelBoundary; dsimp only; (repeat' split) <;> simp [State.fold_kept, State.kept_mk]

@[simp] theorem execRefclkLoss_kept (s : State) :
    (outcomeState s (execRefclkLoss s)).kept = s.kept := by
  unfold execRefclkLoss; (repeat' split) <;> simp [State.fold_kept, State.kept_mk]

@[simp] theorem execRefclkReturn_kept (cycles : Nat) (s : State) :
    (outcomeState s (execRefclkReturn cycles s)).kept = s.kept := by
  unfold execRefclkReturn; (repeat' split) <;> simp [State.fold_kept, State.kept_mk]

@[simp] theorem execFrameCountLoad_keeps (value : Nat) (s : State) :
    (outcomeState s (execFrameCountLoad value s)).kept.part = s.kept.part ∧
    (outcomeState s (execFrameCountLoad value s)).kept.pending = s.kept.pending ∧
    (outcomeState s (execFrameCountLoad value s)).kept.blobs = s.kept.blobs ∧
    (outcomeState s (execFrameCountLoad value s)).kept.boot = s.kept.boot ∧
    (outcomeState s (execFrameCountLoad value s)).kept.sec = s.kept.sec ∧
    (outcomeState s (execFrameCountLoad value s)).kept.slot = s.kept.slot ∧
    (outcomeState s (execFrameCountLoad value s)).kept.frame = s.kept.frame ∧
    (outcomeState s (execFrameCountLoad value s)).kept.txs = s.kept.txs ∧
    (outcomeState s (execFrameCountLoad value s)).kept.ended = s.kept.ended ∧
    (outcomeState s (execFrameCountLoad value s)).kept.cache = s.kept.cache ∧
    (outcomeState s (execFrameCountLoad value s)).kept.sram = s.kept.sram ∧
    (outcomeState s (execFrameCountLoad value s)).kept.hbm = s.kept.hbm := by
  unfold execFrameCountLoad; (repeat' split) <;> simp [State.fold_kept, State.kept_mk]

@[simp] theorem execRealignArm_kept (s : State) :
    (outcomeState s (execRealignArm s)).kept = s.kept := by
  unfold execRealignArm; (repeat' split) <;> simp [State.fold_kept, State.kept_mk]

@[simp] theorem execRealignDisarm_kept (s : State) :
    (outcomeState s (execRealignDisarm s)).kept = s.kept := by
  unfold execRealignDisarm; (repeat' split) <;> simp [State.fold_kept, State.kept_mk]

end Sys2Proof.Machine
end

