-- ==== Sys2Proof/Laws/Commit.lean ====
section
/-! SUPPORT. What the operations of Machine/Commit.lean leave alone. -/

namespace Sys2Proof.Machine

@[simp] theorem State.preset_keeps (t : State) (x : StagedItem) :
    (State.preset t x).kept.part = t.kept.part ∧ (State.preset t x).kept.pending = t.kept.pending ∧
    (State.preset t x).kept.blobs = t.kept.blobs ∧ (State.preset t x).kept.boot = t.kept.boot ∧
    (State.preset t x).kept.sec = t.kept.sec ∧ (State.preset t x).kept.slot = t.kept.slot ∧
    (State.preset t x).kept.frame = t.kept.frame ∧ (State.preset t x).kept.txs = t.kept.txs ∧
    (State.preset t x).kept.ended = t.kept.ended ∧ (State.preset t x).kept.cache = t.kept.cache ∧
    (State.preset t x).kept.sram = t.kept.sram ∧ (State.preset t x).kept.hbm = t.kept.hbm := by
  unfold State.preset; (repeat' split) <;> simp [State.fold_kept, State.kept_mk]

@[simp] theorem State.presetAll_keeps (s : State) (xs : List StagedItem) :
    (State.presetAll s xs).kept.part = s.kept.part ∧ (State.presetAll s xs).kept.pending = s.kept.pending ∧
    (State.presetAll s xs).kept.blobs = s.kept.blobs ∧ (State.presetAll s xs).kept.boot = s.kept.boot ∧
    (State.presetAll s xs).kept.sec = s.kept.sec ∧ (State.presetAll s xs).kept.slot = s.kept.slot ∧
    (State.presetAll s xs).kept.frame = s.kept.frame ∧ (State.presetAll s xs).kept.txs = s.kept.txs ∧
    (State.presetAll s xs).kept.ended = s.kept.ended ∧ (State.presetAll s xs).kept.cache = s.kept.cache ∧
    (State.presetAll s xs).kept.sram = s.kept.sram ∧ (State.presetAll s xs).kept.hbm = s.kept.hbm := by
  unfold State.presetAll
  dsimp only
  split <;> simp [State.fold_kept, State.kept_mk]

@[simp] theorem State.commitPlanner_kept (t : State) (xs : List StagedItem) (sub : Nat) :
    (State.commitPlanner t xs sub).kept = t.kept := by
  unfold State.commitPlanner; simp [State.fold_kept, State.kept_mk]

@[simp] theorem State.commitPark_kept (t before : State) (sub : Nat) :
    (State.commitPark t before sub).kept = t.kept := by
  unfold State.commitPark; simp [State.fold_kept, State.kept_mk]

@[simp] theorem State.commitStore_keeps (t : State) (xs : List StagedItem) (sub value : Nat) :
    (State.commitStore t xs sub value).kept.part = t.kept.part ∧
    (State.commitStore t xs sub value).kept.pending = t.kept.pending ∧
    (State.commitStore t xs sub value).kept.blobs = t.kept.blobs ∧
    (State.commitStore t xs sub value).kept.boot = t.kept.boot ∧
    (State.commitStore t xs sub value).kept.sec = t.kept.sec ∧
    (State.commitStore t xs sub value).kept.slot = t.kept.slot ∧
    (State.commitStore t xs sub value).kept.frame = t.kept.frame ∧
    (State.commitStore t xs sub value).kept.txs = t.kept.txs ∧
    (State.commitStore t xs sub value).kept.ended = t.kept.ended ∧
    (State.commitStore t xs sub value).kept.cache = t.kept.cache ∧
    (State.commitStore t xs sub value).kept.sram = t.kept.sram ∧
    (State.commitStore t xs sub value).kept.hbm = t.kept.hbm := by
  unfold State.commitStore; (repeat' split) <;> simp [State.fold_kept, State.kept_mk]

@[simp] theorem State.commitStaging_keeps (t : State) (xs : List StagedItem) (sub value : Nat) :
    (State.commitStaging t xs sub value).kept.part = t.kept.part ∧
    (State.commitStaging t xs sub value).kept.pending = t.kept.pending ∧
    (State.commitStaging t xs sub value).kept.blobs = t.kept.blobs ∧
    (State.commitStaging t xs sub value).kept.boot = t.kept.boot ∧
    (State.commitStaging t xs sub value).kept.sec = t.kept.sec ∧
    (State.commitStaging t xs sub value).kept.slot = t.kept.slot ∧
    (State.commitStaging t xs sub value).kept.frame = t.kept.frame ∧
    (State.commitStaging t xs sub value).kept.txs = t.kept.txs ∧
    (State.commitStaging t xs sub value).kept.ended = t.kept.ended ∧
    (State.commitStaging t xs sub value).kept.cache = t.kept.cache ∧
    (State.commitStaging t xs sub value).kept.sram = t.kept.sram ∧
    (State.commitStaging t xs sub value).kept.hbm = t.kept.hbm := by
  unfold State.commitStaging; (repeat' split) <;> simp [State.fold_kept, State.kept_mk]

@[simp] theorem State.commitSpan_kept (t : State) (xs : List StagedItem) (x : StagedItem) :
    (State.commitSpan t xs x).kept = t.kept := by
  unfold State.commitSpan; simp [State.fold_kept, State.kept_mk]

@[simp] theorem State.commitDispatch_keeps (t before : State) (sub : Nat) (b : List Byte) :
    (State.commitDispatch t before sub b).kept.part = t.kept.part ∧
    (State.commitDispatch t before sub b).kept.pending = t.kept.pending ∧
    (State.commitDispatch t before sub b).kept.regs = t.kept.regs ∧
    (State.commitDispatch t before sub b).kept.boot = t.kept.boot ∧
    (State.commitDispatch t before sub b).kept.sec = t.kept.sec ∧
    (State.commitDispatch t before sub b).kept.slot = t.kept.slot ∧
    (State.commitDispatch t before sub b).kept.frame = t.kept.frame ∧
    (State.commitDispatch t before sub b).kept.txs = t.kept.txs ∧
    (State.commitDispatch t before sub b).kept.ended = t.kept.ended ∧
    (State.commitDispatch t before sub b).kept.cache = t.kept.cache ∧
    (State.commitDispatch t before sub b).kept.sram = t.kept.sram ∧
    (State.commitDispatch t before sub b).kept.hbm = t.kept.hbm := by
  unfold State.commitDispatch; (repeat' split) <;> simp [State.fold_kept, State.kept_mk]

@[simp] theorem State.commitLink_keeps (t : State) (sub value : Nat) :
    (State.commitLink t sub value).kept.part = t.kept.part ∧
    (State.commitLink t sub value).kept.pending = t.kept.pending ∧
    (State.commitLink t sub value).kept.blobs = t.kept.blobs ∧ (State.commitLink t sub value).kept.boot = t.kept.boot ∧
    (State.commitLink t sub value).kept.sec = t.kept.sec ∧ (State.commitLink t sub value).kept.slot = t.kept.slot ∧
    (State.commitLink t sub value).kept.frame = t.kept.frame ∧ (State.commitLink t sub value).kept.txs = t.kept.txs ∧
    (State.commitLink t sub value).kept.ended = t.kept.ended ∧ (State.commitLink t sub value).kept.cache = t.kept.cache ∧
    (State.commitLink t sub value).kept.sram = t.kept.sram ∧ (State.commitLink t sub value).kept.hbm = t.kept.hbm := by
  unfold State.commitLink; (repeat' split) <;> simp [State.fold_kept, State.kept_mk]

@[simp] theorem State.commitCaps_keeps (t before : State) (xs : List StagedItem) (sub value : Nat) :
    (State.commitCaps t before xs sub value).kept.part = t.kept.part ∧
    (State.commitCaps t before xs sub value).kept.pending = t.kept.pending ∧
    (State.commitCaps t before xs sub value).kept.blobs = t.kept.blobs ∧
    (State.commitCaps t before xs sub value).kept.boot = t.kept.boot ∧
    (State.commitCaps t before xs sub value).kept.sec = t.kept.sec ∧
    (State.commitCaps t before xs sub value).kept.slot = t.kept.slot ∧
    (State.commitCaps t before xs sub value).kept.frame = t.kept.frame ∧
    (State.commitCaps t before xs sub value).kept.txs = t.kept.txs ∧
    (State.commitCaps t before xs sub value).kept.ended = t.kept.ended ∧
    (State.commitCaps t before xs sub value).kept.cache = t.kept.cache ∧
    (State.commitCaps t before xs sub value).kept.sram = t.kept.sram ∧
    (State.commitCaps t before xs sub value).kept.hbm = t.kept.hbm := by
  unfold State.commitCaps; dsimp only; (repeat' split) <;> simp [State.fold_kept, State.kept_mk]

@[simp] theorem State.commitTickets_keeps (t : State) (xs : List StagedItem) (x : StagedItem) :
    (State.commitTickets t xs x).kept.part = t.kept.part ∧ (State.commitTickets t xs x).kept.pending = t.kept.pending ∧
    (State.commitTickets t xs x).kept.regs = t.kept.regs ∧ (State.commitTickets t xs x).kept.boot = t.kept.boot ∧
    (State.commitTickets t xs x).kept.slot = t.kept.slot ∧ (State.commitTickets t xs x).kept.frame = t.kept.frame ∧
    (State.commitTickets t xs x).kept.txs = t.kept.txs ∧ (State.commitTickets t xs x).kept.ended = t.kept.ended ∧
    (State.commitTickets t xs x).kept.cache = t.kept.cache ∧ (State.commitTickets t xs x).kept.sram = t.kept.sram ∧
    (State.commitTickets t xs x).kept.hbm = t.kept.hbm := by
  unfold State.commitTickets; (repeat' split) <;> simp [State.fold_kept, State.kept_mk]

@[simp] theorem State.commitBudgets_keeps (t : State) (b : List Byte) :
    (State.commitBudgets t b).kept.part = t.kept.part ∧ (State.commitBudgets t b).kept.pending = t.kept.pending ∧
    (State.commitBudgets t b).kept.regs = t.kept.regs ∧ (State.commitBudgets t b).kept.boot = t.kept.boot ∧
    (State.commitBudgets t b).kept.sec = t.kept.sec ∧ (State.commitBudgets t b).kept.slot = t.kept.slot ∧
    (State.commitBudgets t b).kept.frame = t.kept.frame ∧ (State.commitBudgets t b).kept.txs = t.kept.txs ∧
    (State.commitBudgets t b).kept.ended = t.kept.ended ∧ (State.commitBudgets t b).kept.cache = t.kept.cache ∧
    (State.commitBudgets t b).kept.sram = t.kept.sram ∧ (State.commitBudgets t b).kept.hbm = t.kept.hbm := by
  unfold State.commitBudgets; (repeat' split) <;> simp [State.fold_kept, State.kept_mk]

@[simp] theorem State.commitItem_keeps (t before : State) (xs : List StagedItem) (x : StagedItem) :
    (State.commitItem t before xs x).kept.part = t.kept.part ∧
    (State.commitItem t before xs x).kept.pending = t.kept.pending ∧
    (State.commitItem t before xs x).kept.slot = t.kept.slot ∧
    (State.commitItem t before xs x).kept.frame = t.kept.frame ∧ (State.commitItem t before xs x).kept.txs = t.kept.txs ∧
    (State.commitItem t before xs x).kept.ended = t.kept.ended ∧
    (State.commitItem t before xs x).kept.cache = t.kept.cache := by
  unfold State.commitItem; dsimp only; (repeat' split) <;> simp [State.fold_kept, State.kept_mk]

@[simp] theorem State.commitItems_keeps (before : State) (xs l : List StagedItem) (t : State) :
    (State.commitItems before xs l t).1.kept.part = t.kept.part ∧
    (State.commitItems before xs l t).1.kept.pending = t.kept.pending ∧
    (State.commitItems before xs l t).1.kept.slot = t.kept.slot ∧
    (State.commitItems before xs l t).1.kept.frame = t.kept.frame ∧
    (State.commitItems before xs l t).1.kept.txs = t.kept.txs ∧
    (State.commitItems before xs l t).1.kept.ended = t.kept.ended ∧
    (State.commitItems before xs l t).1.kept.cache = t.kept.cache := by
  induction l generalizing t with
  | nil => simp [State.commitItems]
  | cons x rest ih =>
    unfold State.commitItems
    dsimp only
    (repeat' split) <;> simp [ih]

@[simp] theorem State.refusedBy_keeps (s t : State) :
    (State.refusedBy s t).kept.part = s.kept.part ∧ (State.refusedBy s t).kept.pending = s.kept.pending ∧
    (State.refusedBy s t).kept.regs = s.kept.regs ∧ (State.refusedBy s t).kept.blobs = s.kept.blobs ∧
    (State.refusedBy s t).kept.boot = s.kept.boot ∧ (State.refusedBy s t).kept.slot = s.kept.slot ∧
    (State.refusedBy s t).kept.frame = s.kept.frame ∧ (State.refusedBy s t).kept.txs = s.kept.txs ∧
    (State.refusedBy s t).kept.ended = s.kept.ended ∧ (State.refusedBy s t).kept.cache = s.kept.cache ∧
    (State.refusedBy s t).kept.sram = s.kept.sram ∧ (State.refusedBy s t).kept.hbm = s.kept.hbm := by
  unfold State.refusedBy; (repeat' split) <;> simp [State.fold_kept, State.kept_mk]

@[simp] theorem State.commitAll_keeps (s : State) (xs : List StagedItem) :
    (State.commitAll s xs).1.kept.part = s.kept.part ∧ (State.commitAll s xs).1.kept.pending = s.kept.pending ∧
    (State.commitAll s xs).1.kept.slot = s.kept.slot ∧ (State.commitAll s xs).1.kept.frame = s.kept.frame ∧
    (State.commitAll s xs).1.kept.txs = s.kept.txs ∧ (State.commitAll s xs).1.kept.ended = s.kept.ended ∧
    (State.commitAll s xs).1.kept.cache = s.kept.cache := by
  unfold State.commitAll
  dsimp only
  split <;> simp

@[simp] theorem execObjectWrite_keeps (cyc index sub : Nat) (value : List Byte) (s : State) :
    (outcomeState s (execObjectWrite cyc index sub value s)).kept.part = s.kept.part ∧
    (outcomeState s (execObjectWrite cyc index sub value s)).kept.pending = s.kept.pending ∧
    (outcomeState s (execObjectWrite cyc index sub value s)).kept.slot = s.kept.slot ∧
    (outcomeState s (execObjectWrite cyc index sub value s)).kept.frame = s.kept.frame ∧
    (outcomeState s (execObjectWrite cyc index sub value s)).kept.cache = s.kept.cache := by
  unfold execObjectWrite
  try dsimp only
  repeat' first
    | (rw [outcomeState_next]
       first
         | (simp [State.fold_kept, State.kept_mk])
         | (split <;> simp [State.fold_kept, State.kept_mk]))
    | (rw [outcomeState_onUnit]
       first
         | (simp [State.fold_kept, State.kept_mk])
         | ((repeat' split) <;> simp [State.fold_kept, State.kept_mk])
         | (dsimp only; (repeat' split) <;> simp [State.fold_kept, State.kept_mk]))
    | rfl
    | split

end Sys2Proof.Machine
end

