-- ==== Sys2Proof/Laws/Dictionary.lean ====
section
/-! SUPPORT. What the operations of Machine/Dictionary.lean leave alone. -/

namespace Sys2Proof.Machine

@[simp] theorem State.modTx_keeps (s : State) (id : Nat) (f : Tx → Tx) :
    (State.modTx s id f).kept.part = s.kept.part ∧ (State.modTx s id f).kept.pending = s.kept.pending ∧
    (State.modTx s id f).kept.regs = s.kept.regs ∧ (State.modTx s id f).kept.blobs = s.kept.blobs ∧
    (State.modTx s id f).kept.boot = s.kept.boot ∧ (State.modTx s id f).kept.sec = s.kept.sec ∧
    (State.modTx s id f).kept.slot = s.kept.slot ∧ (State.modTx s id f).kept.frame = s.kept.frame ∧
    (State.modTx s id f).kept.ended = s.kept.ended ∧ (State.modTx s id f).kept.cache = s.kept.cache ∧
    (State.modTx s id f).kept.sram = s.kept.sram ∧ (State.modTx s id f).kept.hbm = s.kept.hbm := by
  unfold State.modTx; simp [State.fold_kept, State.kept_mk]

@[simp] theorem State.touchTx_keeps (s : State) (rq : Request) :
    (State.touchTx s rq).kept.part = s.kept.part ∧ (State.touchTx s rq).kept.pending = s.kept.pending ∧
    (State.touchTx s rq).kept.regs = s.kept.regs ∧ (State.touchTx s rq).kept.blobs = s.kept.blobs ∧
    (State.touchTx s rq).kept.boot = s.kept.boot ∧ (State.touchTx s rq).kept.sec = s.kept.sec ∧
    (State.touchTx s rq).kept.slot = s.kept.slot ∧ (State.touchTx s rq).kept.frame = s.kept.frame ∧
    (State.touchTx s rq).kept.ended = s.kept.ended ∧ (State.touchTx s rq).kept.cache = s.kept.cache ∧
    (State.touchTx s rq).kept.sram = s.kept.sram ∧ (State.touchTx s rq).kept.hbm = s.kept.hbm := by
  unfold State.touchTx; simp [State.fold_kept, State.kept_mk]

@[simp] theorem State.endTx_keeps (s : State) (x : Tx) :
    (State.endTx s x).kept.part = s.kept.part ∧ (State.endTx s x).kept.pending = s.kept.pending ∧
    (State.endTx s x).kept.regs = s.kept.regs ∧ (State.endTx s x).kept.blobs = s.kept.blobs ∧
    (State.endTx s x).kept.boot = s.kept.boot ∧ (State.endTx s x).kept.sec = s.kept.sec ∧
    (State.endTx s x).kept.slot = s.kept.slot ∧ (State.endTx s x).kept.frame = s.kept.frame ∧
    (State.endTx s x).kept.cache = s.kept.cache ∧ (State.endTx s x).kept.sram = s.kept.sram ∧
    (State.endTx s x).kept.hbm = s.kept.hbm := by
  unfold State.endTx; simp [State.fold_kept, State.kept_mk]

@[simp] theorem State.rollTx_keeps (s : State) (x : Tx) :
    (State.rollTx s x).kept.part = s.kept.part ∧ (State.rollTx s x).kept.pending = s.kept.pending ∧
    (State.rollTx s x).kept.regs = s.kept.regs ∧ (State.rollTx s x).kept.blobs = s.kept.blobs ∧
    (State.rollTx s x).kept.boot = s.kept.boot ∧ (State.rollTx s x).kept.sec = s.kept.sec ∧
    (State.rollTx s x).kept.slot = s.kept.slot ∧ (State.rollTx s x).kept.frame = s.kept.frame ∧
    (State.rollTx s x).kept.cache = s.kept.cache ∧ (State.rollTx s x).kept.sram = s.kept.sram ∧
    (State.rollTx s x).kept.hbm = s.kept.hbm := by
  unfold State.rollTx; simp [State.fold_kept, State.kept_mk]

@[simp] theorem State.lookDomain_kept (s : State) (key : Nat) (content : List Byte) :
    (State.lookDomain s key content).2.kept = s.kept := by
  unfold State.lookDomain; (repeat' split) <;> simp [State.fold_kept, State.kept_mk]

@[simp] theorem State.itemValue_kept (s : State) (staged : List StagedItem) (index sub : Nat) :
    (State.itemValue s staged index sub).2.kept = s.kept := by
  unfold State.itemValue; (repeat' split) <;> simp [State.fold_kept, State.kept_mk]

@[simp] theorem State.readItem_kept (staged : List StagedItem) (p : State × Answer) (i : Nat × Nat) :
    (State.readItem staged p i).1.kept = p.1.kept := by
  unfold State.readItem
  dsimp only
  split <;> simp

@[simp] theorem State.serveRead_keeps (s : State) (rq : Request) (items : List (Nat × Nat)) :
    (State.serveRead s rq items).1.kept.part = s.kept.part ∧
    (State.serveRead s rq items).1.kept.pending = s.kept.pending ∧
    (State.serveRead s rq items).1.kept.regs = s.kept.regs ∧ (State.serveRead s rq items).1.kept.blobs = s.kept.blobs ∧
    (State.serveRead s rq items).1.kept.boot = s.kept.boot ∧ (State.serveRead s rq items).1.kept.sec = s.kept.sec ∧
    (State.serveRead s rq items).1.kept.slot = s.kept.slot ∧ (State.serveRead s rq items).1.kept.frame = s.kept.frame ∧
    (State.serveRead s rq items).1.kept.ended = s.kept.ended ∧ (State.serveRead s rq items).1.kept.cache = s.kept.cache ∧
    (State.serveRead s rq items).1.kept.sram = s.kept.sram ∧ (State.serveRead s rq items).1.kept.hbm = s.kept.hbm := by
  unfold State.serveRead
  split
  · simp
  · have h : ∀ (l : List (Nat × Nat)) (xs : List StagedItem) (p : State × Answer),
        (l.foldl (State.readItem xs) p).1.kept = p.1.kept := fun l xs p => State.kept_foldl_fst (by simp) l p
    simp [h]

@[simp] theorem State.serveReadSegment_keeps (s : State) (rq : Request) (index sub offset length expectSeq : Nat) :
    (State.serveReadSegment s rq index sub offset length expectSeq).1.kept.part = s.kept.part ∧
    (State.serveReadSegment s rq index sub offset length expectSeq).1.kept.pending = s.kept.pending ∧
    (State.serveReadSegment s rq index sub offset length expectSeq).1.kept.regs = s.kept.regs ∧
    (State.serveReadSegment s rq index sub offset length expectSeq).1.kept.blobs = s.kept.blobs ∧
    (State.serveReadSegment s rq index sub offset length expectSeq).1.kept.boot = s.kept.boot ∧
    (State.serveReadSegment s rq index sub offset length expectSeq).1.kept.sec = s.kept.sec ∧
    (State.serveReadSegment s rq index sub offset length expectSeq).1.kept.slot = s.kept.slot ∧
    (State.serveReadSegment s rq index sub offset length expectSeq).1.kept.frame = s.kept.frame ∧
    (State.serveReadSegment s rq index sub offset length expectSeq).1.kept.ended = s.kept.ended ∧
    (State.serveReadSegment s rq index sub offset length expectSeq).1.kept.cache = s.kept.cache ∧
    (State.serveReadSegment s rq index sub offset length expectSeq).1.kept.sram = s.kept.sram ∧
    (State.serveReadSegment s rq index sub offset length expectSeq).1.kept.hbm = s.kept.hbm := by
  unfold State.serveReadSegment; dsimp only; (repeat' split) <;> simp [State.fold_kept, State.kept_mk]

@[simp] theorem State.stageItem_keeps (s : State) (id : Nat) (w : WriteItem) :
    (State.stageItem s id w).2.kept.part = s.kept.part ∧ (State.stageItem s id w).2.kept.pending = s.kept.pending ∧
    (State.stageItem s id w).2.kept.regs = s.kept.regs ∧ (State.stageItem s id w).2.kept.blobs = s.kept.blobs ∧
    (State.stageItem s id w).2.kept.boot = s.kept.boot ∧ (State.stageItem s id w).2.kept.sec = s.kept.sec ∧
    (State.stageItem s id w).2.kept.slot = s.kept.slot ∧ (State.stageItem s id w).2.kept.frame = s.kept.frame ∧
    (State.stageItem s id w).2.kept.ended = s.kept.ended ∧ (State.stageItem s id w).2.kept.cache = s.kept.cache ∧
    (State.stageItem s id w).2.kept.sram = s.kept.sram ∧ (State.stageItem s id w).2.kept.hbm = s.kept.hbm := by
  unfold State.stageItem; dsimp only; (repeat' split) <;> simp [State.fold_kept, State.kept_mk]

@[simp] theorem State.writeItem_keeps (s : State) (w : WriteItem) :
    (State.writeItem s w).2.kept.part = s.kept.part ∧ (State.writeItem s w).2.kept.pending = s.kept.pending ∧
    (State.writeItem s w).2.kept.slot = s.kept.slot ∧ (State.writeItem s w).2.kept.frame = s.kept.frame ∧
    (State.writeItem s w).2.kept.txs = s.kept.txs ∧ (State.writeItem s w).2.kept.ended = s.kept.ended ∧
    (State.writeItem s w).2.kept.cache = s.kept.cache := by
  unfold State.writeItem; dsimp only; (repeat' split) <;> simp [State.fold_kept, State.kept_mk]

/-- What every item of a WRITE keeps, the WRITE keeps. -/
theorem State.writeItems_keeps {β : Type} (g : State → β) (one : State → WriteItem → Nat × State)
    (h : ∀ t w, g (one t w).2 = g t) (items : List WriteItem) (s : State) :
    g (State.writeItems one items s).1 = g s := by
  unfold State.writeItems
  refine State.keeps_foldl_fst g (fun p w => ?_) items (s, ({} : Answer))
  exact h p.1 w

@[simp] theorem State.serveWrite_keeps (s : State) (rq : Request) (items : List WriteItem) :
    (State.serveWrite s rq items).1.kept.part = s.kept.part ∧
    (State.serveWrite s rq items).1.kept.pending = s.kept.pending ∧
    (State.serveWrite s rq items).1.kept.slot = s.kept.slot ∧ (State.serveWrite s rq items).1.kept.frame = s.kept.frame ∧
    (State.serveWrite s rq items).1.kept.ended = s.kept.ended ∧
    (State.serveWrite s rq items).1.kept.cache = s.kept.cache := by
  unfold State.serveWrite
  split
  · exact ⟨(State.writeItems_keeps (fun t => t.kept.part) _ (by simp) _ _).trans (by simp),
     (State.writeItems_keeps (fun t => t.kept.pending) _ (by simp) _ _).trans (by simp),
     (State.writeItems_keeps (fun t => t.kept.slot) _ (by simp) _ _).trans (by simp),
     (State.writeItems_keeps (fun t => t.kept.frame) _ (by simp) _ _).trans (by simp),
     (State.writeItems_keeps (fun t => t.kept.ended) _ (by simp) _ _).trans (by simp),
     (State.writeItems_keeps (fun t => t.kept.cache) _ (by simp) _ _).trans (by simp)⟩
  · split
    · simp
    · exact ⟨(State.writeItems_keeps (fun t => t.kept.part) _ (by simp) _ _).trans (by simp),
     (State.writeItems_keeps (fun t => t.kept.pending) _ (by simp) _ _).trans (by simp),
     (State.writeItems_keeps (fun t => t.kept.slot) _ (by simp) _ _).trans (by simp),
     (State.writeItems_keeps (fun t => t.kept.frame) _ (by simp) _ _).trans (by simp),
     (State.writeItems_keeps (fun t => t.kept.ended) _ (by simp) _ _).trans (by simp),
     (State.writeItems_keeps (fun t => t.kept.cache) _ (by simp) _ _).trans (by simp)⟩

@[simp] theorem State.serveWriteSegment_keeps (s : State) (rq : Request) (index sub : Nat) (first : Bool)
    (offset total : Nat) (data : List Byte) :
    (State.serveWriteSegment s rq index sub first offset total data).1.kept.part = s.kept.part ∧
    (State.serveWriteSegment s rq index sub first offset total data).1.kept.pending = s.kept.pending ∧
    (State.serveWriteSegment s rq index sub first offset total data).1.kept.regs = s.kept.regs ∧
    (State.serveWriteSegment s rq index sub first offset total data).1.kept.blobs = s.kept.blobs ∧
    (State.serveWriteSegment s rq index sub first offset total data).1.kept.boot = s.kept.boot ∧
    (State.serveWriteSegment s rq index sub first offset total data).1.kept.sec = s.kept.sec ∧
    (State.serveWriteSegment s rq index sub first offset total data).1.kept.slot = s.kept.slot ∧
    (State.serveWriteSegment s rq index sub first offset total data).1.kept.frame = s.kept.frame ∧
    (State.serveWriteSegment s rq index sub first offset total data).1.kept.ended = s.kept.ended ∧
    (State.serveWriteSegment s rq index sub first offset total data).1.kept.cache = s.kept.cache ∧
    (State.serveWriteSegment s rq index sub first offset total data).1.kept.sram = s.kept.sram ∧
    (State.serveWriteSegment s rq index sub first offset total data).1.kept.hbm = s.kept.hbm := by
  unfold State.serveWriteSegment; dsimp only; (repeat' split) <;> simp [State.fold_kept, State.kept_mk]

@[simp] theorem State.serveBegin_keeps (s : State) (rq : Request) :
    (State.serveBegin s rq).1.kept.part = s.kept.part ∧ (State.serveBegin s rq).1.kept.pending = s.kept.pending ∧
    (State.serveBegin s rq).1.kept.regs = s.kept.regs ∧ (State.serveBegin s rq).1.kept.blobs = s.kept.blobs ∧
    (State.serveBegin s rq).1.kept.boot = s.kept.boot ∧ (State.serveBegin s rq).1.kept.sec = s.kept.sec ∧
    (State.serveBegin s rq).1.kept.slot = s.kept.slot ∧ (State.serveBegin s rq).1.kept.frame = s.kept.frame ∧
    (State.serveBegin s rq).1.kept.ended = s.kept.ended ∧ (State.serveBegin s rq).1.kept.cache = s.kept.cache ∧
    (State.serveBegin s rq).1.kept.sram = s.kept.sram ∧ (State.serveBegin s rq).1.kept.hbm = s.kept.hbm := by
  unfold State.serveBegin; dsimp only; (repeat' split) <;> simp [State.fold_kept, State.kept_mk]

@[simp] theorem State.serveCommit_keeps (s : State) (rq : Request) (at_ : Nat) :
    (State.serveCommit s rq at_).1.kept.part = s.kept.part ∧
    (State.serveCommit s rq at_).1.kept.pending = s.kept.pending ∧
    (State.serveCommit s rq at_).1.kept.regs = s.kept.regs ∧ (State.serveCommit s rq at_).1.kept.blobs = s.kept.blobs ∧
    (State.serveCommit s rq at_).1.kept.boot = s.kept.boot ∧ (State.serveCommit s rq at_).1.kept.sec = s.kept.sec ∧
    (State.serveCommit s rq at_).1.kept.slot = s.kept.slot ∧ (State.serveCommit s rq at_).1.kept.frame = s.kept.frame ∧
    (State.serveCommit s rq at_).1.kept.ended = s.kept.ended ∧ (State.serveCommit s rq at_).1.kept.cache = s.kept.cache ∧
    (State.serveCommit s rq at_).1.kept.sram = s.kept.sram ∧ (State.serveCommit s rq at_).1.kept.hbm = s.kept.hbm := by
  unfold State.serveCommit; (repeat' split) <;> simp [State.fold_kept, State.kept_mk]

@[simp] theorem State.serveRollback_keeps (s : State) (rq : Request) :
    (State.serveRollback s rq).1.kept.part = s.kept.part ∧ (State.serveRollback s rq).1.kept.pending = s.kept.pending ∧
    (State.serveRollback s rq).1.kept.regs = s.kept.regs ∧ (State.serveRollback s rq).1.kept.blobs = s.kept.blobs ∧
    (State.serveRollback s rq).1.kept.boot = s.kept.boot ∧ (State.serveRollback s rq).1.kept.sec = s.kept.sec ∧
    (State.serveRollback s rq).1.kept.slot = s.kept.slot ∧ (State.serveRollback s rq).1.kept.frame = s.kept.frame ∧
    (State.serveRollback s rq).1.kept.cache = s.kept.cache ∧ (State.serveRollback s rq).1.kept.sram = s.kept.sram ∧
    (State.serveRollback s rq).1.kept.hbm = s.kept.hbm := by
  unfold State.serveRollback; (repeat' split) <;> simp [State.fold_kept, State.kept_mk]

@[simp] theorem State.serveTxStatus_keeps (s : State) (rq : Request) :
    (State.serveTxStatus s rq).1.kept.part = s.kept.part ∧ (State.serveTxStatus s rq).1.kept.pending = s.kept.pending ∧
    (State.serveTxStatus s rq).1.kept.regs = s.kept.regs ∧ (State.serveTxStatus s rq).1.kept.blobs = s.kept.blobs ∧
    (State.serveTxStatus s rq).1.kept.boot = s.kept.boot ∧ (State.serveTxStatus s rq).1.kept.sec = s.kept.sec ∧
    (State.serveTxStatus s rq).1.kept.slot = s.kept.slot ∧ (State.serveTxStatus s rq).1.kept.frame = s.kept.frame ∧
    (State.serveTxStatus s rq).1.kept.ended = s.kept.ended ∧ (State.serveTxStatus s rq).1.kept.cache = s.kept.cache ∧
    (State.serveTxStatus s rq).1.kept.sram = s.kept.sram ∧ (State.serveTxStatus s rq).1.kept.hbm = s.kept.hbm := by
  unfold State.serveTxStatus; (repeat' split) <;> simp [State.fold_kept, State.kept_mk]

@[simp] theorem State.serve_keeps (s : State) (rq : Request) (x0 : DapOp) :
    (State.serve s rq x0).1.kept.part = s.kept.part ∧ (State.serve s rq x0).1.kept.pending = s.kept.pending ∧
    (State.serve s rq x0).1.kept.slot = s.kept.slot ∧ (State.serve s rq x0).1.kept.frame = s.kept.frame ∧
    (State.serve s rq x0).1.kept.cache = s.kept.cache := by
  (induction x0 generalizing s <;> simp [State.serve, State.fold_kept, State.kept_mk, *])

@[simp] theorem State.handle_keeps (s : State) (rq : Request) (op : DapOp) :
    (State.handle s rq op).1.kept.part = s.kept.part ∧ (State.handle s rq op).1.kept.pending = s.kept.pending ∧
    (State.handle s rq op).1.kept.slot = s.kept.slot ∧ (State.handle s rq op).1.kept.frame = s.kept.frame ∧
    (State.handle s rq op).1.kept.cache = s.kept.cache := by
  unfold State.handle; (repeat' split) <;> simp [State.fold_kept, State.kept_mk]

@[simp] theorem State.sendField_kept (s : State) (r : Reply) :
    (State.sendField s r).kept = s.kept := by
  unfold State.sendField; simp [State.fold_kept, State.kept_mk]

@[simp] theorem State.reply_keeps (s : State) (port : Nat) (session : Session) (reqId : Nat) (message : List Byte) :
    (State.reply s port session reqId message).kept.part = s.kept.part ∧
    (State.reply s port session reqId message).kept.pending = s.kept.pending ∧
    (State.reply s port session reqId message).kept.regs = s.kept.regs ∧
    (State.reply s port session reqId message).kept.blobs = s.kept.blobs ∧
    (State.reply s port session reqId message).kept.boot = s.kept.boot ∧
    (State.reply s port session reqId message).kept.sec = s.kept.sec ∧
    (State.reply s port session reqId message).kept.slot = s.kept.slot ∧
    (State.reply s port session reqId message).kept.frame = s.kept.frame ∧
    (State.reply s port session reqId message).kept.txs = s.kept.txs ∧
    (State.reply s port session reqId message).kept.ended = s.kept.ended ∧
    (State.reply s port session reqId message).kept.sram = s.kept.sram ∧
    (State.reply s port session reqId message).kept.hbm = s.kept.hbm := by
  unfold State.reply; (repeat' split) <;> simp [State.fold_kept, State.kept_mk]

@[simp] theorem State.malformed_keeps (s : State) (session : Session) (op reqId txId : Nat) :
    (State.malformed s session op reqId txId).kept.part = s.kept.part ∧
    (State.malformed s session op reqId txId).kept.pending = s.kept.pending ∧
    (State.malformed s session op reqId txId).kept.regs = s.kept.regs ∧
    (State.malformed s session op reqId txId).kept.blobs = s.kept.blobs ∧
    (State.malformed s session op reqId txId).kept.boot = s.kept.boot ∧
    (State.malformed s session op reqId txId).kept.sec = s.kept.sec ∧
    (State.malformed s session op reqId txId).kept.slot = s.kept.slot ∧
    (State.malformed s session op reqId txId).kept.frame = s.kept.frame ∧
    (State.malformed s session op reqId txId).kept.txs = s.kept.txs ∧
    (State.malformed s session op reqId txId).kept.ended = s.kept.ended ∧
    (State.malformed s session op reqId txId).kept.sram = s.kept.sram ∧
    (State.malformed s session op reqId txId).kept.hbm = s.kept.hbm := by
  unfold State.malformed; (repeat' split) <;> simp [State.fold_kept, State.kept_mk]

@[simp] theorem State.answerTo_keeps (s : State) (rq : Request) (op : DapOp) :
    (State.answerTo s rq op).kept.part = s.kept.part ∧ (State.answerTo s rq op).kept.pending = s.kept.pending ∧
    (State.answerTo s rq op).kept.slot = s.kept.slot ∧ (State.answerTo s rq op).kept.frame = s.kept.frame := by
  unfold State.answerTo
  dsimp only
  (repeat' split) <;> simp

@[simp] theorem State.sendCached_kept (s : State) (r : Reply) :
    (State.sendCached s r).kept = s.kept := by
  unfold State.sendCached; simp [State.fold_kept, State.kept_mk]

@[simp] theorem State.fieldServe_keeps (s : State) (rq : Request) (op : DapOp) :
    (State.fieldServe s rq op).kept.part = s.kept.part ∧ (State.fieldServe s rq op).kept.pending = s.kept.pending ∧
    (State.fieldServe s rq op).kept.slot = s.kept.slot ∧ (State.fieldServe s rq op).kept.frame = s.kept.frame := by
  unfold State.fieldServe; (repeat' split) <;> simp [State.fold_kept, State.kept_mk]

@[simp] theorem State.fieldRequest_keeps (s : State) (rq : Request) (op : DapOp) :
    (State.fieldRequest s rq op).kept.part = s.kept.part ∧ (State.fieldRequest s rq op).kept.pending = s.kept.pending ∧
    (State.fieldRequest s rq op).kept.slot = s.kept.slot ∧ (State.fieldRequest s rq op).kept.frame = s.kept.frame := by
  unfold State.fieldRequest; (repeat' split) <;> simp [State.fold_kept, State.kept_mk]

/-- No request changes the part, the queue or the FST. -/
theorem State.request_keeps (s t : State) (k : t.kept = s.kept) (rq : Request) (op : DapOp) :
    (outcomeState s (t.request rq op)).kept.part = s.kept.part ∧
    (outcomeState s (t.request rq op)).kept.pending = s.kept.pending ∧
    (outcomeState s (t.request rq op)).kept.slot = s.kept.slot ∧
    (outcomeState s (t.request rq op)).kept.frame = s.kept.frame := by
  unfold State.request
  split
  · simp [k]
  · rw [outcomeState_onUnit]
    split
    · split
      · simp [k]
      · split <;> simp [k]
    · simp

@[simp] theorem execRead_keeps (cyc : Nat) (rq : Request) (items : List (Nat × Nat)) (s : State) :
    (outcomeState s (execRead cyc rq items s)).kept.part = s.kept.part ∧
    (outcomeState s (execRead cyc rq items s)).kept.pending = s.kept.pending ∧
    (outcomeState s (execRead cyc rq items s)).kept.slot = s.kept.slot ∧
    (outcomeState s (execRead cyc rq items s)).kept.frame = s.kept.frame := by
  unfold execRead
  exact State.request_keeps s _ (State.stamp_kept ..) _ _

@[simp] theorem execWrite_keeps (cyc : Nat) (rq : Request) (items : List WriteItem) (s : State) :
    (outcomeState s (execWrite cyc rq items s)).kept.part = s.kept.part ∧
    (outcomeState s (execWrite cyc rq items s)).kept.pending = s.kept.pending ∧
    (outcomeState s (execWrite cyc rq items s)).kept.slot = s.kept.slot ∧
    (outcomeState s (execWrite cyc rq items s)).kept.frame = s.kept.frame := by
  unfold execWrite
  exact State.request_keeps s _ (State.stamp_kept ..) _ _

@[simp] theorem execReadSegment_keeps (cyc : Nat) (rq : Request) (index sub offset length expectSeq : Nat)
    (s : State) :
    (outcomeState s (execReadSegment cyc rq index sub offset length expectSeq s)).kept.part = s.kept.part ∧
    (outcomeState s (execReadSegment cyc rq index sub offset length expectSeq s)).kept.pending = s.kept.pending ∧
    (outcomeState s (execReadSegment cyc rq index sub offset length expectSeq s)).kept.slot = s.kept.slot ∧
    (outcomeState s (execReadSegment cyc rq index sub offset length expectSeq s)).kept.frame = s.kept.frame := by
  unfold execReadSegment
  exact State.request_keeps s _ (State.stamp_kept ..) _ _

@[simp] theorem execWriteSegment_keeps (cyc : Nat) (rq : Request) (index sub : Nat) (first : Bool)
    (offset total : Nat) (data : List Byte) (s : State) :
    (outcomeState s (execWriteSegment cyc rq index sub first offset total data s)).kept.part = s.kept.part ∧
    (outcomeState s (execWriteSegment cyc rq index sub first offset total data s)).kept.pending = s.kept.pending ∧
    (outcomeState s (execWriteSegment cyc rq index sub first offset total data s)).kept.slot = s.kept.slot ∧
    (outcomeState s (execWriteSegment cyc rq index sub first offset total data s)).kept.frame = s.kept.frame := by
  unfold execWriteSegment
  exact State.request_keeps s _ (State.stamp_kept ..) _ _

@[simp] theorem execBegin_keeps (cyc : Nat) (rq : Request) (s : State) :
    (outcomeState s (execBegin cyc rq s)).kept.part = s.kept.part ∧
    (outcomeState s (execBegin cyc rq s)).kept.pending = s.kept.pending ∧
    (outcomeState s (execBegin cyc rq s)).kept.slot = s.kept.slot ∧
    (outcomeState s (execBegin cyc rq s)).kept.frame = s.kept.frame := by
  unfold execBegin
  exact State.request_keeps s _ (State.stamp_kept ..) _ _

@[simp] theorem execCommit_keeps (cyc : Nat) (rq : Request) (at_ : Nat) (s : State) :
    (outcomeState s (execCommit cyc rq at_ s)).kept.part = s.kept.part ∧
    (outcomeState s (execCommit cyc rq at_ s)).kept.pending = s.kept.pending ∧
    (outcomeState s (execCommit cyc rq at_ s)).kept.slot = s.kept.slot ∧
    (outcomeState s (execCommit cyc rq at_ s)).kept.frame = s.kept.frame := by
  unfold execCommit
  exact State.request_keeps s _ (State.stamp_kept ..) _ _

@[simp] theorem execRollback_keeps (cyc : Nat) (rq : Request) (s : State) :
    (outcomeState s (execRollback cyc rq s)).kept.part = s.kept.part ∧
    (outcomeState s (execRollback cyc rq s)).kept.pending = s.kept.pending ∧
    (outcomeState s (execRollback cyc rq s)).kept.slot = s.kept.slot ∧
    (outcomeState s (execRollback cyc rq s)).kept.frame = s.kept.frame := by
  unfold execRollback
  exact State.request_keeps s _ (State.stamp_kept ..) _ _

@[simp] theorem execTxStatus_keeps (cyc : Nat) (rq : Request) (s : State) :
    (outcomeState s (execTxStatus cyc rq s)).kept.part = s.kept.part ∧
    (outcomeState s (execTxStatus cyc rq s)).kept.pending = s.kept.pending ∧
    (outcomeState s (execTxStatus cyc rq s)).kept.slot = s.kept.slot ∧
    (outcomeState s (execTxStatus cyc rq s)).kept.frame = s.kept.frame := by
  unfold execTxStatus
  exact State.request_keeps s _ (State.stamp_kept ..) _ _

@[simp] theorem execMulticastReadReply_keeps (cyc : Nat) (s : State) :
    (outcomeState s (execMulticastReadReply cyc s)).kept.part = s.kept.part ∧
    (outcomeState s (execMulticastReadReply cyc s)).kept.pending = s.kept.pending ∧
    (outcomeState s (execMulticastReadReply cyc s)).kept.slot = s.kept.slot ∧
    (outcomeState s (execMulticastReadReply cyc s)).kept.frame = s.kept.frame := by
  unfold execMulticastReadReply
  dsimp only
  split
  · simp
  · simp only [outcomeState_next]
    split <;> simp [State.fold_kept, State.kept_mk]

@[simp] theorem execDapMessageMalformed_keeps (cyc : Nat) (session : Session) (reqId : Nat) (s : State) :
    (outcomeState s (execDapMessageMalformed cyc session reqId s)).kept.part = s.kept.part ∧
    (outcomeState s (execDapMessageMalformed cyc session reqId s)).kept.pending = s.kept.pending ∧
    (outcomeState s (execDapMessageMalformed cyc session reqId s)).kept.regs = s.kept.regs ∧
    (outcomeState s (execDapMessageMalformed cyc session reqId s)).kept.blobs = s.kept.blobs ∧
    (outcomeState s (execDapMessageMalformed cyc session reqId s)).kept.boot = s.kept.boot ∧
    (outcomeState s (execDapMessageMalformed cyc session reqId s)).kept.sec = s.kept.sec ∧
    (outcomeState s (execDapMessageMalformed cyc session reqId s)).kept.slot = s.kept.slot ∧
    (outcomeState s (execDapMessageMalformed cyc session reqId s)).kept.frame = s.kept.frame ∧
    (outcomeState s (execDapMessageMalformed cyc session reqId s)).kept.txs = s.kept.txs ∧
    (outcomeState s (execDapMessageMalformed cyc session reqId s)).kept.ended = s.kept.ended ∧
    (outcomeState s (execDapMessageMalformed cyc session reqId s)).kept.sram = s.kept.sram ∧
    (outcomeState s (execDapMessageMalformed cyc session reqId s)).kept.hbm = s.kept.hbm := by
  unfold execDapMessageMalformed
  dsimp only
  split
  · simp only [outcomeState_next]
    split
    · split <;> simp [State.fold_kept, State.kept_mk]
    · simp
  · rw [outcomeState_onUnit]
    split
    · split <;> simp
    · simp

@[simp] theorem State.pollSlot_keeps (s : State) (n : Nat) :
    (State.pollSlot s n).kept.part = s.kept.part ∧ (State.pollSlot s n).kept.pending = s.kept.pending ∧
    (State.pollSlot s n).kept.slot = s.kept.slot ∧ (State.pollSlot s n).kept.frame = s.kept.frame := by
  unfold State.pollSlot; dsimp only; (repeat' split) <;> simp [State.fold_kept, State.kept_mk]

@[simp] theorem execDictSlotPoll_keeps (cyc : Nat) (s : State) :
    (outcomeState s (execDictSlotPoll cyc s)).kept.part = s.kept.part ∧
    (outcomeState s (execDictSlotPoll cyc s)).kept.pending = s.kept.pending ∧
    (outcomeState s (execDictSlotPoll cyc s)).kept.slot = s.kept.slot ∧
    (outcomeState s (execDictSlotPoll cyc s)).kept.frame = s.kept.frame := by
  unfold execDictSlotPoll
  try dsimp only
  repeat' first
    | (rw [outcomeState_next]
       first
         | (simp [State.fold_kept, State.kept_mk])
         | (split <;> simp [State.fold_kept, State.kept_mk]))
    | (rw [outcomeState_onUnit]
       first
         | (simp [State.fold_kept, State.kept_mk])
         | ((repeat' split) <;> simp [State.fold_kept, State.kept_mk])
         | (dsimp only; (repeat' split) <;> simp [State.fold_kept, State.kept_mk]))
    | rfl
    | split

@[simp] theorem State.decide__keeps (s : State) (x : Tx) :
    (State.decide_ s x).kept.part = s.kept.part ∧ (State.decide_ s x).kept.pending = s.kept.pending ∧
    (State.decide_ s x).kept.slot = s.kept.slot ∧ (State.decide_ s x).kept.frame = s.kept.frame := by
  unfold State.decide_
  dsimp only
  (repeat' split) <;> simp [State.fold_kept, State.kept_mk]

@[simp] theorem State.txBoundary_keeps (s : State) :
    (State.txBoundary s).kept.part = s.kept.part ∧ (State.txBoundary s).kept.pending = s.kept.pending ∧
    (State.txBoundary s).kept.slot = s.kept.slot ∧ (State.txBoundary s).kept.frame = s.kept.frame := by
  unfold State.txBoundary
  simp [State.fold_kept, State.kept_mk]

@[simp] theorem execTxExpire_keeps (cyc tx : Nat) (s : State) :
    (outcomeState s (execTxExpire cyc tx s)).kept.part = s.kept.part ∧
    (outcomeState s (execTxExpire cyc tx s)).kept.pending = s.kept.pending ∧
    (outcomeState s (execTxExpire cyc tx s)).kept.regs = s.kept.regs ∧
    (outcomeState s (execTxExpire cyc tx s)).kept.blobs = s.kept.blobs ∧
    (outcomeState s (execTxExpire cyc tx s)).kept.boot = s.kept.boot ∧
    (outcomeState s (execTxExpire cyc tx s)).kept.sec = s.kept.sec ∧
    (outcomeState s (execTxExpire cyc tx s)).kept.slot = s.kept.slot ∧
    (outcomeState s (execTxExpire cyc tx s)).kept.frame = s.kept.frame ∧
    (outcomeState s (execTxExpire cyc tx s)).kept.cache = s.kept.cache ∧
    (outcomeState s (execTxExpire cyc tx s)).kept.sram = s.kept.sram ∧
    (outcomeState s (execTxExpire cyc tx s)).kept.hbm = s.kept.hbm := by
  unfold execTxExpire
  try dsimp only
  repeat' first
    | (rw [outcomeState_next]
       first
         | (simp [State.fold_kept, State.kept_mk])
         | (split <;> simp [State.fold_kept, State.kept_mk]))
    | (rw [outcomeState_onUnit]
       first
         | (simp [State.fold_kept, State.kept_mk])
         | ((repeat' split) <;> simp [State.fold_kept, State.kept_mk])
         | (dsimp only; (repeat' split) <;> simp [State.fold_kept, State.kept_mk]))
    | rfl
    | split

@[simp] theorem execPlcaStatusChange_kept (cyc : Nat) (status : Bool) (s : State) :
    (outcomeState s (execPlcaStatusChange cyc status s)).kept = s.kept := by
  unfold execPlcaStatusChange
  try dsimp only
  repeat' first
    | (rw [outcomeState_next]
       first
         | (simp [State.fold_kept, State.kept_mk])
         | (split <;> simp [State.fold_kept, State.kept_mk]))
    | (rw [outcomeState_onUnit]
       first
         | (simp [State.fold_kept, State.kept_mk])
         | ((repeat' split) <;> simp [State.fold_kept, State.kept_mk])
         | (dsimp only; (repeat' split) <;> simp [State.fold_kept, State.kept_mk]))
    | rfl
    | split

@[simp] theorem execFieldAddressInUse_kept (s : State) :
    (outcomeState s (execFieldAddressInUse s)).kept = s.kept := by
  unfold execFieldAddressInUse
  try dsimp only
  repeat' first
    | (rw [outcomeState_next]
       first
         | (simp [State.fold_kept, State.kept_mk])
         | (split <;> simp [State.fold_kept, State.kept_mk]))
    | (rw [outcomeState_onUnit]
       first
         | (simp [State.fold_kept, State.kept_mk])
         | ((repeat' split) <;> simp [State.fold_kept, State.kept_mk])
         | (dsimp only; (repeat' split) <;> simp [State.fold_kept, State.kept_mk]))
    | rfl
    | split

@[simp] theorem execFieldAddressConflict_kept (cyc : Nat) (s : State) :
    (outcomeState s (execFieldAddressConflict cyc s)).kept = s.kept := by
  unfold execFieldAddressConflict
  try dsimp only
  repeat' first
    | (rw [outcomeState_next]
       first
         | (simp [State.fold_kept, State.kept_mk])
         | (split <;> simp [State.fold_kept, State.kept_mk]))
    | (rw [outcomeState_onUnit]
       first
         | (simp [State.fold_kept, State.kept_mk])
         | ((repeat' split) <;> simp [State.fold_kept, State.kept_mk])
         | (dsimp only; (repeat' split) <;> simp [State.fold_kept, State.kept_mk]))
    | rfl
    | split

@[simp] theorem execFieldNeighborSolicitation_kept (target : Nat) (s : State) :
    (outcomeState s (execFieldNeighborSolicitation target s)).kept = s.kept := by
  unfold execFieldNeighborSolicitation
  try dsimp only
  repeat' first
    | (rw [outcomeState_next]
       first
         | (simp [State.fold_kept, State.kept_mk])
         | (split <;> simp [State.fold_kept, State.kept_mk]))
    | (rw [outcomeState_onUnit]
       first
         | (simp [State.fold_kept, State.kept_mk])
         | ((repeat' split) <;> simp [State.fold_kept, State.kept_mk])
         | (dsimp only; (repeat' split) <;> simp [State.fold_kept, State.kept_mk]))
    | rfl
    | split

end Sys2Proof.Machine
end

