-- ==== Sys2Proof/Laws/Fire.lean ====
section
/-! SUPPORT. What the operations of Machine/Fire.lean leave alone. -/

namespace Sys2Proof.Machine

@[simp] theorem State.begin_kept (s : State) (i : Nat) (d : StationDesc) (q : SeqEntry) :
    (State.begin s i d q).kept = s.kept := by
  unfold State.begin; simp [State.fold_kept, State.kept_mk]

@[simp] theorem State.put_kept (s : State) (i : Nat) (d : StationDesc) (p : Nat) (xs : List Flit) :
    (State.put s i d p xs).kept = s.kept := by
  unfold State.put; simp [State.fold_kept, State.kept_mk]

@[simp] theorem State.sramError_kept (s : State) (d : StationDesc) (e : EccEvent) :
    (State.sramError s d e).kept = s.kept := by
  unfold State.sramError; (repeat' split) <;> simp [State.fold_kept, State.kept_mk]

@[simp] theorem State.fireErrors_kept (s : State) (d : StationDesc) (env : FireEnv) :
    (State.fireErrors s d env).kept = s.kept := by
  unfold State.fireErrors; dsimp only
  rw [State.keeps_foldl (f := fun (t : State) (e : Nat × EccEvent) => t.sramError d e.2) State.kept
    (fun t a => State.sramError_kept t d a.2)]
  (repeat' split) <;> simp [State.fold_kept, State.kept_mk]

@[simp] theorem State.sendCopies_kept (s : State) (i : Nat) (d : StationDesc) :
    (State.sendCopies s i d).kept = s.kept := by
  unfold State.sendCopies; (repeat' split) <;> simp [State.fold_kept, State.kept_mk]

@[simp] theorem State.reportToken_kept (s : State) (i : Nat) (x : Flit) :
    (State.reportToken s i x).kept = s.kept := by
  unfold State.reportToken; simp [State.fold_kept, State.kept_mk]

@[simp] theorem State.takeStatus_kept (s : State) (i : Nat) (d : StationDesc) (p : Nat) (outs : List Nat) :
    (State.takeStatus s i d p outs).kept = s.kept := by
  unfold State.takeStatus; (repeat' split) <;> simp [State.fold_kept, State.kept_mk]

@[simp] theorem State.shadowHeld_kept (s : State) :
    (State.shadowHeld s).kept = s.kept := by
  unfold State.shadowHeld; simp [State.fold_kept, State.kept_mk]

@[simp] theorem State.fireMatmul_kept (s : State) (i : Nat) (d : StationDesc) (op : MatmulOp) (e : Nat)
    (q : SeqEntry) (env : FireEnv) :
    (State.fireMatmul s i d op e q env).kept = s.kept := by
  unfold State.fireMatmul; dsimp only; (repeat' split) <;> simp [State.fold_kept, State.kept_mk]

@[simp] theorem State.loadHeld_kept (s : State) (i : Nat) (d : StationDesc) (op : MatmulOp) (q : SeqEntry) :
    (State.loadHeld s i d op q).kept = s.kept := by
  unfold State.loadHeld; dsimp only; (repeat' split) <;> simp [State.fold_kept, State.kept_mk]

@[simp] theorem State.matmulCycle_kept (s : State) (i : Nat) (d : StationDesc) (op : MatmulOp) (env : FireEnv) :
    (State.matmulCycle s i d op env).kept = s.kept := by
  unfold State.matmulCycle; dsimp only; (repeat' split) <;> simp [State.fold_kept, State.kept_mk]

@[simp] theorem State.fireChain_kept (s : State) (i : Nat) (d : StationDesc) (m : Image) (q : SeqEntry)
    (env : FireEnv) :
    (State.fireChain s i d m q env).kept = s.kept := by
  unfold State.fireChain; dsimp only; (repeat' split) <;> simp [State.fold_kept, State.kept_mk]

@[simp] theorem State.sramWrite_keeps (s : State) (i : Nat) (d : StationDesc) (g : AddrGen) (x : Flit) :
    (State.sramWrite s i d g x).kept.part = s.kept.part ∧ (State.sramWrite s i d g x).kept.pending = s.kept.pending ∧
    (State.sramWrite s i d g x).kept.regs = s.kept.regs ∧ (State.sramWrite s i d g x).kept.blobs = s.kept.blobs ∧
    (State.sramWrite s i d g x).kept.boot = s.kept.boot ∧ (State.sramWrite s i d g x).kept.sec = s.kept.sec ∧
    (State.sramWrite s i d g x).kept.slot = s.kept.slot ∧ (State.sramWrite s i d g x).kept.frame = s.kept.frame ∧
    (State.sramWrite s i d g x).kept.txs = s.kept.txs ∧ (State.sramWrite s i d g x).kept.ended = s.kept.ended ∧
    (State.sramWrite s i d g x).kept.cache = s.kept.cache ∧ (State.sramWrite s i d g x).kept.hbm = s.kept.hbm := by
  unfold State.sramWrite; simp [State.fold_kept, State.kept_mk]

@[simp] theorem State.fireStore_keeps (s : State) (i : Nat) (d : StationDesc) (readGen writeGen : AddrGen)
    (q : SeqEntry) (env : FireEnv) :
    (State.fireStore s i d readGen writeGen q env).kept.part = s.kept.part ∧
    (State.fireStore s i d readGen writeGen q env).kept.pending = s.kept.pending ∧
    (State.fireStore s i d readGen writeGen q env).kept.regs = s.kept.regs ∧
    (State.fireStore s i d readGen writeGen q env).kept.blobs = s.kept.blobs ∧
    (State.fireStore s i d readGen writeGen q env).kept.boot = s.kept.boot ∧
    (State.fireStore s i d readGen writeGen q env).kept.sec = s.kept.sec ∧
    (State.fireStore s i d readGen writeGen q env).kept.slot = s.kept.slot ∧
    (State.fireStore s i d readGen writeGen q env).kept.frame = s.kept.frame ∧
    (State.fireStore s i d readGen writeGen q env).kept.txs = s.kept.txs ∧
    (State.fireStore s i d readGen writeGen q env).kept.ended = s.kept.ended ∧
    (State.fireStore s i d readGen writeGen q env).kept.cache = s.kept.cache ∧
    (State.fireStore s i d readGen writeGen q env).kept.hbm = s.kept.hbm := by
  unfold State.fireStore
  simp [State.fold_kept, State.kept_mk]

@[simp] theorem State.claimBanks_kept (s : State) (i : Nat) (d : StationDesc) (m : Image) :
    (State.claimBanks s i d m).kept = s.kept := by
  unfold State.claimBanks; simp [State.fold_kept, State.kept_mk]

@[simp] theorem State.bankStall_kept (s : State) (n : Nat) :
    (State.bankStall s n).kept = s.kept := by
  unfold State.bankStall; simp [State.fold_kept, State.kept_mk]

@[simp] theorem State.fireSpill_keeps (s : State) (i : Nat) (d : StationDesc) (base depth : Nat) (q : SeqEntry)
    (env : FireEnv) :
    (State.fireSpill s i d base depth q env).kept.part = s.kept.part ∧
    (State.fireSpill s i d base depth q env).kept.pending = s.kept.pending ∧
    (State.fireSpill s i d base depth q env).kept.regs = s.kept.regs ∧
    (State.fireSpill s i d base depth q env).kept.blobs = s.kept.blobs ∧
    (State.fireSpill s i d base depth q env).kept.boot = s.kept.boot ∧
    (State.fireSpill s i d base depth q env).kept.sec = s.kept.sec ∧
    (State.fireSpill s i d base depth q env).kept.slot = s.kept.slot ∧
    (State.fireSpill s i d base depth q env).kept.frame = s.kept.frame ∧
    (State.fireSpill s i d base depth q env).kept.txs = s.kept.txs ∧
    (State.fireSpill s i d base depth q env).kept.ended = s.kept.ended ∧
    (State.fireSpill s i d base depth q env).kept.cache = s.kept.cache ∧
    (State.fireSpill s i d base depth q env).kept.hbm = s.kept.hbm := by
  unfold State.fireSpill; dsimp only; (repeat' split) <;> simp [State.fold_kept, State.kept_mk]

@[simp] theorem State.moveFlit_kept (s : State) (i : Nat) (d : StationDesc) (p : Nat) (outs : List Nat) (bad : Bool) (env : FireEnv) (g : StationRun → StationRun) :
    (State.moveFlit s i d p outs bad env g).kept = s.kept := by
  unfold State.moveFlit; (repeat' split) <;> simp [State.fold_kept, State.kept_mk]

@[simp] theorem State.fireFork_kept (s : State) (i : Nat) (d : StationDesc) (outs : Nat) (env : FireEnv) :
    (State.fireFork s i d outs env).kept = s.kept := by
  unfold State.fireFork; (repeat' split) <;> simp [State.fold_kept, State.kept_mk]

@[simp] theorem State.fireSteered_kept (s : State) (i : Nat) (d : StationDesc) (limit outs : Nat) (discards : Bool)
    (input : Nat → Nat) (output : Nat → List Nat) (env : FireEnv) :
    (State.fireSteered s i d limit outs discards input output env).kept = s.kept := by
  unfold State.fireSteered; dsimp only; (repeat' split) <;> simp [State.fold_kept, State.kept_mk]

@[simp] theorem State.fireMerge_kept (s : State) (i : Nat) (d : StationDesc) (ins : Nat) (rot : List Nat)
    (env : FireEnv) :
    (State.fireMerge s i d ins rot env).kept = s.kept := by
  unfold State.fireMerge; dsimp only; (repeat' split) <;> simp [State.fold_kept, State.kept_mk]

@[simp] theorem State.fireWelt_kept (s : State) (i : Nat) (d : StationDesc) (operation ins outs : Nat)
    (rot : List Nat) (env : FireEnv) :
    (State.fireWelt s i d operation ins outs rot env).kept = s.kept := by
  unfold State.fireWelt; (repeat' split) <;> simp [State.fold_kept, State.kept_mk]

@[simp] theorem State.fireSyncInput_kept (i : Nat) (d : StationDesc) (o : SyncOp) (env : FireEnv) (s : State)
    (p : Nat) :
    (State.fireSyncInput i d o env s p).kept = s.kept := by
  unfold State.fireSyncInput; dsimp only; (repeat' split) <;> simp [State.fold_kept, State.kept_mk]

@[simp] theorem State.fireSync_kept (s : State) (i : Nat) (d : StationDesc) (env : FireEnv) :
    (State.fireSync s i d env).kept = s.kept := by
  unfold State.fireSync; (repeat' split) <;> simp [State.fold_kept, State.kept_mk]

@[simp] theorem State.laceReqs_kept (i : Nat) (bad : Bool) (base total seq per x0 x1 x2 : Nat) (s : State) :
    (State.laceReqs i bad base total seq per x0 x1 x2 s).kept = s.kept := by
  induction x0 generalizing s x1 x2 with
  | zero => rfl
  | succ f ih =>
    unfold State.laceReqs
    split
    · rfl
    · dsimp only; rw [ih]; simp [State.fold_kept, State.kept_mk]

@[simp] theorem State.fireRead_kept (s : State) (i : Nat) (d : StationDesc) (p : PortOp) (q : SeqEntry) (env : FireEnv) :
    (State.fireRead s i d p q env).kept = s.kept := by
  unfold State.fireRead; (repeat' split) <;> simp [State.fold_kept, State.kept_mk]

@[simp] theorem State.notePoison_kept (s : State) (gs : List Nat) :
    (State.notePoison s gs).kept = s.kept := by
  unfold State.notePoison; simp [State.fold_kept, State.kept_mk]

@[simp] theorem State.stationWrites_kept (s : State) (i : Nat) (ws : List HostAccess) :
    (State.stationWrites s i ws).kept = s.kept := by
  unfold State.stationWrites; simp [State.fold_kept, State.kept_mk]

@[simp] theorem State.outputRow_kept (s : State) (i : Nat) (d : StationDesc) (row : Nat)
    (tensor : Option (List Byte)) (token : Nat) :
    (State.outputRow s i d row tensor token).kept = s.kept := by
  unfold State.outputRow; (repeat' split) <;> simp [State.fold_kept, State.kept_mk]

@[simp] theorem State.outputFlit_kept (s : State) (i : Nat) (d : StationDesc) (p : PortOp) (x : Flit) :
    (State.outputFlit s i d p x).kept = s.kept := by
  unfold State.outputFlit; simp [State.fold_kept, State.kept_mk]

@[simp] theorem State.windowFlit_kept (s : State) (i : Nat) (d : StationDesc) (p : PortOp) (x : Flit) :
    (State.windowFlit s i d p x).kept = s.kept := by
  unfold State.windowFlit; dsimp only; (repeat' split) <;> simp [State.fold_kept, State.kept_mk]

@[simp] theorem State.laceFlit_kept (s : State) (i : Nat) (p : PortOp) (x : Flit) :
    (State.laceFlit s i p x).kept = s.kept := by
  unfold State.laceFlit; simp [State.fold_kept, State.kept_mk]

@[simp] theorem State.writeFlit_kept (s : State) (i : Nat) (d : StationDesc) (p : PortOp) (x : Flit) :
    (State.writeFlit s i d p x).kept = s.kept := by
  unfold State.writeFlit; dsimp only; (repeat' split) <;> simp [State.fold_kept, State.kept_mk]

@[simp] theorem State.endOfPass_kept (s : State) (i : Nat) (p : PortOp) :
    (State.endOfPass s i p).kept = s.kept := by
  unfold State.endOfPass; simp [State.fold_kept, State.kept_mk]

@[simp] theorem State.controls_kept (s : State) (i : Nat) (p : PortOp) (xs : List Flit) :
    (State.controls s i p xs).kept = s.kept := by
  unfold State.controls; (repeat' split) <;> simp [State.fold_kept, State.kept_mk]

@[simp] theorem State.fireDispatch_kept (s : State) (i : Nat) (d : StationDesc) (p : PortOp) (q : SeqEntry)
    (env : FireEnv) :
    (State.fireDispatch s i d p q env).kept = s.kept := by
  unfold State.fireDispatch; simp [State.fold_kept, State.kept_mk]

@[simp] theorem State.fireWrite_kept (s : State) (i : Nat) (d : StationDesc) (p : PortOp) (q : SeqEntry) (env : FireEnv) :
    (State.fireWrite s i d p q env).kept = s.kept := by
  unfold State.fireWrite; dsimp only; (repeat' split) <;> simp [State.fold_kept, State.kept_mk]

@[simp] theorem State.firePort_kept (s : State) (i : Nat) (d : StationDesc) (p : PortOp) (q : SeqEntry)
    (env : FireEnv) :
    (State.firePort s i d p q env).kept = s.kept := by
  unfold State.firePort; (repeat' split) <;> simp [State.fold_kept, State.kept_mk]

@[simp] theorem State.fireEntry_keeps (s : State) (i : Nat) (d : StationDesc) (m : Image) (env : FireEnv) :
    (State.fireEntry s i d m env).kept.part = s.kept.part ∧ (State.fireEntry s i d m env).kept.pending = s.kept.pending ∧
    (State.fireEntry s i d m env).kept.regs = s.kept.regs ∧ (State.fireEntry s i d m env).kept.blobs = s.kept.blobs ∧
    (State.fireEntry s i d m env).kept.boot = s.kept.boot ∧ (State.fireEntry s i d m env).kept.sec = s.kept.sec ∧
    (State.fireEntry s i d m env).kept.slot = s.kept.slot ∧ (State.fireEntry s i d m env).kept.frame = s.kept.frame ∧
    (State.fireEntry s i d m env).kept.txs = s.kept.txs ∧ (State.fireEntry s i d m env).kept.ended = s.kept.ended ∧
    (State.fireEntry s i d m env).kept.cache = s.kept.cache ∧ (State.fireEntry s i d m env).kept.hbm = s.kept.hbm := by
  unfold State.fireEntry; (repeat' split) <;> dsimp only <;> (repeat' split) <;>
    simp [State.fold_kept, State.kept_mk]

@[simp] theorem State.examine_keeps (s : State) (i : Nat) (d : StationDesc) (m : Image) (env : FireEnv) :
    (State.examine s i d m env).kept.part = s.kept.part ∧ (State.examine s i d m env).kept.pending = s.kept.pending ∧
    (State.examine s i d m env).kept.regs = s.kept.regs ∧ (State.examine s i d m env).kept.blobs = s.kept.blobs ∧
    (State.examine s i d m env).kept.boot = s.kept.boot ∧ (State.examine s i d m env).kept.sec = s.kept.sec ∧
    (State.examine s i d m env).kept.slot = s.kept.slot ∧ (State.examine s i d m env).kept.frame = s.kept.frame ∧
    (State.examine s i d m env).kept.txs = s.kept.txs ∧ (State.examine s i d m env).kept.ended = s.kept.ended ∧
    (State.examine s i d m env).kept.cache = s.kept.cache ∧ (State.examine s i d m env).kept.hbm = s.kept.hbm := by
  unfold State.examine; (repeat' split) <;> dsimp only <;> (repeat' split) <;>
    simp [State.fold_kept, State.kept_mk]

@[simp] theorem execStationFire_keeps (cyc station : Nat) (env : FireEnv) (s : State) :
    (outcomeState s (execStationFire cyc station env s)).kept.part = s.kept.part ∧
    (outcomeState s (execStationFire cyc station env s)).kept.pending = s.kept.pending ∧
    (outcomeState s (execStationFire cyc station env s)).kept.regs = s.kept.regs ∧
    (outcomeState s (execStationFire cyc station env s)).kept.blobs = s.kept.blobs ∧
    (outcomeState s (execStationFire cyc station env s)).kept.boot = s.kept.boot ∧
    (outcomeState s (execStationFire cyc station env s)).kept.sec = s.kept.sec ∧
    (outcomeState s (execStationFire cyc station env s)).kept.slot = s.kept.slot ∧
    (outcomeState s (execStationFire cyc station env s)).kept.frame = s.kept.frame ∧
    (outcomeState s (execStationFire cyc station env s)).kept.txs = s.kept.txs ∧
    (outcomeState s (execStationFire cyc station env s)).kept.ended = s.kept.ended ∧
    (outcomeState s (execStationFire cyc station env s)).kept.cache = s.kept.cache ∧
    (outcomeState s (execStationFire cyc station env s)).kept.hbm = s.kept.hbm := by
  unfold execStationFire
  try dsimp only
  repeat' first
    | (rw [outcomeState_next]
       first
         | (simp [State.fold_kept, State.kept_mk])
         | (split <;> simp [State.fold_kept, State.kept_mk]))
    | (rw [outcomeState_onUnit]
       first
         | (simp [State.fold_kept, State.kept_mk])
         | ((repeat' split) <;> simp [State.fold_kept, State.kept_mk])
         | (dsimp only; (repeat' split) <;> simp [State.fold_kept, State.kept_mk]))
    | rfl
    | split

end Sys2Proof.Machine
end

