-- ==== Sys2Proof/Laws/Boundary.lean ====
section
/-! SUPPORT. What the operations of Machine/Boundary.lean leave alone. -/

namespace Sys2Proof.Machine

@[simp] theorem State.clockBoundary_keeps (s : State) :
    (State.clockBoundary s).kept.part = s.kept.part ∧ (State.clockBoundary s).kept.pending = s.kept.pending ∧
    (State.clockBoundary s).kept.regs = s.kept.regs ∧ (State.clockBoundary s).kept.blobs = s.kept.blobs ∧
    (State.clockBoundary s).kept.boot = s.kept.boot ∧ (State.clockBoundary s).kept.slot = s.kept.slot ∧
    (State.clockBoundary s).kept.frame = s.kept.frame ∧ (State.clockBoundary s).kept.txs = s.kept.txs ∧
    (State.clockBoundary s).kept.ended = s.kept.ended ∧ (State.clockBoundary s).kept.cache = s.kept.cache ∧
    (State.clockBoundary s).kept.sram = s.kept.sram ∧ (State.clockBoundary s).kept.hbm = s.kept.hbm := by
  unfold State.clockBoundary; simp [State.fold_kept, State.kept_mk]

@[simp] theorem State.histBoundary_kept (s : State) :
    (State.histBoundary s).kept = s.kept := by
  unfold State.histBoundary; simp [State.fold_kept, State.kept_mk]

@[simp] theorem State.readSensors_kept (s : State) (env : BoundaryEnv) :
    (State.readSensors s env).kept = s.kept := by
  unfold State.readSensors; simp [State.fold_kept, State.kept_mk]

@[simp] theorem State.capBoundary_kept (s : State) (env : BoundaryEnv) (frame : Bool) :
    (State.capBoundary s env frame).kept = s.kept := by
  unfold State.capBoundary; simp [State.fold_kept, State.kept_mk]

@[simp] theorem State.drainSlot_keeps (s : State) :
    (State.drainSlot s).kept.part = s.kept.part ∧ (State.drainSlot s).kept.pending = s.kept.pending ∧
    (State.drainSlot s).kept.regs = s.kept.regs ∧ (State.drainSlot s).kept.blobs = s.kept.blobs ∧
    (State.drainSlot s).kept.boot = s.kept.boot ∧ (State.drainSlot s).kept.sec = s.kept.sec ∧
    (State.drainSlot s).kept.slot = s.kept.slot ∧ (State.drainSlot s).kept.frame = s.kept.frame ∧
    (State.drainSlot s).kept.txs = s.kept.txs ∧ (State.drainSlot s).kept.ended = s.kept.ended ∧
    (State.drainSlot s).kept.cache = s.kept.cache := by
  unfold State.drainSlot; simp [State.fold_kept, State.kept_mk]

@[simp] theorem State.storeBoundary_kept (s : State) :
    (State.storeBoundary s).kept = s.kept := by
  unfold State.storeBoundary; simp [State.fold_kept, State.kept_mk]

@[simp] theorem State.lostContext_kept (s : State) :
    (State.lostContext s).kept = s.kept := by
  unfold State.lostContext; simp [State.fold_kept, State.kept_mk]

@[simp] theorem State.readComp_kept (s : State) (e : Nat × Nat) :
    (State.readComp s e).kept = s.kept := by
  unfold State.readComp; (repeat' split) <;> simp [State.fold_kept, State.kept_mk]

@[simp] theorem State.readOutput_kept (s : State) (e : Nat × Nat) :
    (State.readOutput s e).kept = s.kept := by
  unfold State.readOutput; (repeat' split) <;> simp [State.fold_kept, State.kept_mk]

@[simp] theorem State.readEvent_kept (s : State) (consumer : Nat) :
    (State.readEvent s consumer).kept = s.kept := by
  unfold State.readEvent; (repeat' split) <;> simp [State.fold_kept, State.kept_mk]

@[simp] theorem State.readConsumers_kept (s : State) (env : BoundaryEnv) :
    (State.readConsumers s env).kept = s.kept := by
  unfold State.readConsumers; simp [State.fold_kept, State.kept_mk]

@[simp] theorem State.frameObjects_kept (s : State) :
    (State.frameObjects s).kept = s.kept := by
  unfold State.frameObjects; simp [State.fold_kept, State.kept_mk]

@[simp] theorem State.admissionBoundary_kept (s : State) :
    (State.admissionBoundary s).kept = s.kept := by
  unfold State.admissionBoundary; dsimp only; (repeat' split) <;> simp [State.fold_kept, State.kept_mk]

@[simp] theorem State.planBoundary_kept (s : State) (env : BoundaryEnv) (frame : Bool) :
    (State.planBoundary s env frame).kept = s.kept := by
  unfold State.planBoundary; simp [State.fold_kept, State.kept_mk]

@[simp] theorem State.parkBoundary_kept (s : State) :
    (State.parkBoundary s).kept = s.kept := by
  unfold State.parkBoundary
  dsimp only
  rw [State.kept_foldl, State.kept_foldl]
  · intro t a
    (repeat' split) <;> simp [State.fold_kept, State.kept_mk]
  · intro t a
    (repeat' split) <;> simp [State.fold_kept, State.kept_mk]

@[simp] theorem State.intakeRead_kept (s : State) (producer : Option Nat) :
    (State.intakeRead s producer).kept = s.kept := by
  unfold State.intakeRead; (repeat' split) <;> simp [State.fold_kept, State.kept_mk]

@[simp] theorem State.intakeProbe_kept (s : State) (producer : Option Nat) :
    (State.intakeProbe s producer).kept = s.kept := by
  unfold State.intakeProbe; simp [State.fold_kept, State.kept_mk]

@[simp] theorem State.reportBoundary_kept (s : State) :
    (State.reportBoundary s).kept = s.kept := by
  unfold State.reportBoundary; simp [State.fold_kept, State.kept_mk]

@[simp] theorem State.earlyBoundary_keeps (s : State) (env : BoundaryEnv) (frame : Bool) :
    (State.earlyBoundary s env frame).kept.part = s.kept.part ∧
    (State.earlyBoundary s env frame).kept.pending = s.kept.pending := by
  unfold State.earlyBoundary; simp [State.fold_kept, State.kept_mk]

@[simp] theorem State.lateBoundary_keeps (s : State) (env : BoundaryEnv) (frame : Bool) :
    (State.lateBoundary s env frame).kept.part = s.kept.part ∧
    (State.lateBoundary s env frame).kept.pending = s.kept.pending ∧
    (State.lateBoundary s env frame).kept.slot = s.kept.slot ∧
    (State.lateBoundary s env frame).kept.frame = s.kept.frame := by
  unfold State.lateBoundary; simp [State.fold_kept, State.kept_mk]

@[simp] theorem execSlotBoundary_keeps (env : BoundaryEnv) (s : State) :
    (outcomeState s (execSlotBoundary env s)).kept.part = s.kept.part ∧
    (outcomeState s (execSlotBoundary env s)).kept.pending = s.kept.pending := by
  unfold execSlotBoundary
  dsimp only
  split
  · simp
  · rw [outcomeState_next]
    split <;> simp

end Sys2Proof.Machine
end

