-- ==== Sys2Proof/Laws/Maps.lean ====
section
/-! SUPPORT. Maps by key and memories as cells: what a read finds after a write, and that every operation keeps the
canonical form. -/

namespace Sys2Proof.Machine

/-! ### Maps by key -/

section
variable {α : Type}

@[simp] theorem kget?_nil (k : Nat) : kget? ([] : KMap α) k = none := rfl

/-- Every key of the map is above `k`. -/
theorem ksorted_cons {i : Nat} {v : α} {m : KMap α} :
    ksorted ((i, v) :: m) = true ↔ (∀ e ∈ m, i < e.1) ∧ ksorted m = true := by
  induction m generalizing i v with
  | nil => simp [ksorted]
  | cons e m ih =>
    obtain ⟨j, w⟩ := e
    simp only [ksorted, Bool.and_eq_true, decide_eq_true_eq, List.mem_cons, forall_eq_or_imp]
    constructor
    · rintro ⟨h, hm⟩
      exact ⟨⟨h, fun e he => h.trans ((ih.mp hm).1 e he)⟩, hm⟩
    · rintro ⟨⟨h, -⟩, hm⟩
      exact ⟨h, hm⟩

theorem kget?_of_above {k : Nat} {m : KMap α} (h : ∀ e ∈ m, k < e.1) : kget? m k = none := by
  induction m with
  | nil => rfl
  | cons e m ih =>
    obtain ⟨j, w⟩ := e
    have hj : k < j := h (j, w) (by simp)
    simp only [kget?, if_neg (Nat.ne_of_lt hj)]
    exact ih fun e he => h e (by simp [he])

/-- A read after a put of the same key gives the value put. -/
@[simp] theorem kget?_kset_self (m : KMap α) (k : Nat) (v : α) : kget? (kset m k v) k = some v := by
  induction m with
  | nil => simp [kset, kget?]
  | cons e m ih =>
    obtain ⟨j, w⟩ := e
    simp only [kset]
    split
    · simp [kget?]
    · split
      · simp [kget?]
      · simpa [kget?, *] using ih

/-- A put leaves every other key alone. -/
theorem kget?_kset_ne (m : KMap α) {k j : Nat} (v : α) (h : j ≠ k) : kget? (kset m k v) j = kget? m j := by
  induction m with
  | nil => simp [kset, kget?, h]
  | cons e m ih =>
    obtain ⟨i, w⟩ := e
    simp only [kset]
    split
    · simp [kget?, h]
    · split
      · next hk => subst hk; simp [kget?, h]
      · simp only [kget?, ih]

theorem kset_above {b k : Nat} {v : α} {m : KMap α} (hb : b < k) (h : ∀ e ∈ m, b < e.1) :
    ∀ e ∈ kset m k v, b < e.1 := by
  induction m with
  | nil => simp [kset, hb]
  | cons e m ih =>
    obtain ⟨j, w⟩ := e
    have hj : b < j := h (j, w) (by simp)
    have hm : ∀ e ∈ m, b < e.1 := fun e he => h e (by simp [he])
    simp only [kset]
    split
    · simpa using ⟨hb, hj, fun i x hx => hm (i, x) hx⟩
    · split
      · simpa using ⟨hb, fun i x hx => hm (i, x) hx⟩
      · simpa using ⟨hj, fun i x hx => ih hm (i, x) hx⟩

/-- A put keeps the keys in rising order. -/
theorem ksorted_kset {m : KMap α} (k : Nat) (v : α) (h : ksorted m = true) : ksorted (kset m k v) = true := by
  induction m with
  | nil => rfl
  | cons e m ih =>
    obtain ⟨j, w⟩ := e
    obtain ⟨ha, hm⟩ := ksorted_cons.mp h
    simp only [kset]
    split
    · next hk =>
      exact ksorted_cons.mpr ⟨by simpa using ⟨hk, fun i x hx => hk.trans (ha (i, x) hx)⟩, h⟩
    · split
      · next hk => subst hk; exact ksorted_cons.mpr ⟨ha, hm⟩
      · exact ksorted_cons.mpr ⟨kset_above (by omega) ha, ih hm⟩

theorem kdel_subset (m : KMap α) (k : Nat) : ∀ e ∈ kdel m k, e ∈ m := by
  induction m with
  | nil => simp [kdel]
  | cons e m ih =>
    obtain ⟨j, w⟩ := e
    simp only [kdel]
    split
    · intro e he; simp [he]
    · intro e he
      rcases List.mem_cons.mp he with rfl | he
      · simp
      · simp [ih e he]

/-- Taking a key out keeps the keys in rising order. -/
theorem ksorted_kdel {m : KMap α} (k : Nat) (h : ksorted m = true) : ksorted (kdel m k) = true := by
  induction m with
  | nil => rfl
  | cons e m ih =>
    obtain ⟨j, w⟩ := e
    obtain ⟨ha, hm⟩ := ksorted_cons.mp h
    simp only [kdel]
    split
    · exact hm
    · exact ksorted_cons.mpr ⟨fun e he => ha e (kdel_subset m k e he), ih hm⟩

/-- A key taken out of a map in canonical form is gone. -/
theorem kget?_kdel_self {m : KMap α} (k : Nat) (h : ksorted m = true) : kget? (kdel m k) k = none := by
  induction m with
  | nil => rfl
  | cons e m ih =>
    obtain ⟨j, w⟩ := e
    obtain ⟨ha, hm⟩ := ksorted_cons.mp h
    simp only [kdel]
    split
    · next hk => subst hk; exact kget?_of_above ha
    · next hk => simp only [kget?, if_neg hk]; exact ih hm

/-- Taking a key out leaves every other key alone. -/
theorem kget?_kdel_ne (m : KMap α) {k j : Nat} (h : j ≠ k) : kget? (kdel m k) j = kget? m j := by
  induction m with
  | nil => rfl
  | cons e m ih =>
    obtain ⟨i, w⟩ := e
    simp only [kdel]
    split
    · next hk => subst hk; simp [kget?, h]
    · simp only [kget?, ih]

/-- A change at a key is seen there, and nowhere else. -/
theorem kget?_kmod (m : KMap α) (k j : Nat) (f : α → α) :
    kget? (kmod m k f) j = if j = k then (kget? m j).map f else kget? m j := by
  induction m with
  | nil => simp [kmod]
  | cons e m ih =>
    obtain ⟨i, w⟩ := e
    simp only [kmod, List.map_cons] at ih ⊢
    by_cases h : i = k
    · subst h; by_cases hj : j = i
      · subst hj; simp [kget?]
      · simp [kget?, hj, ih]
    · by_cases hj : j = i
      · subst hj; simp [kget?, h]
      · simp only [h, if_false, kget?, hj, ih]

end

/-! ### Configuration objects -/

/-- A register set reads back as set. -/
theorem State.reg_setReg_self (s : State) (key v : Nat) (h : ksorted s.regs = true) : (s.setReg key v).reg key = v := by
  simp only [State.reg, State.setReg_regs, State.setReg_part, Machine.setReg]
  split
  · next hv => rw [kget?_kdel_self key h]; exact hv.symm
  · simp

/-- Setting a register leaves every other one alone. -/
theorem State.reg_setReg_ne (s : State) {key k : Nat} (v : Nat) (h : k ≠ key) : (s.setReg key v).reg k = s.reg k := by
  simp only [State.reg, State.setReg_regs, State.setReg_part, Machine.setReg]
  split
  · rw [kget?_kdel_ne _ h]
  · rw [kget?_kset_ne _ _ h]

theorem ksorted_setReg {p : Sys2Proof.Part} {m : KMap Nat} (key v : Nat) (h : ksorted m = true) :
    ksorted (Machine.setReg p m key v) = true := by
  unfold Machine.setReg
  split
  · exact ksorted_kdel key h
  · exact ksorted_kset key v h

/-! ### Memory -/

theorem Memory.canonical_cons {a : Nat} {b : Byte} {m : List Host.Cell} :
    Memory.canonical ((a, b) :: m) = true ↔ b ≠ 0 ∧ (∀ c ∈ m, a < c.1) ∧ Memory.canonical m = true := by
  induction m generalizing a b with
  | nil => simp [Memory.canonical]
  | cons c m ih =>
    obtain ⟨c, d⟩ := c
    simp only [Memory.canonical, Bool.and_eq_true, bne_iff_ne, ne_eq, decide_eq_true_eq, List.mem_cons, forall_eq_or_imp]
    constructor
    · rintro ⟨⟨hb, h⟩, hm⟩
      exact ⟨hb, ⟨h, fun e he => h.trans ((ih.mp hm).2.1 e he)⟩, hm⟩
    · rintro ⟨hb, ⟨h, -⟩, hm⟩
      exact ⟨⟨hb, h⟩, hm⟩

theorem readByte_of_above {m : List Host.Cell} {x : Nat} (h : ∀ c ∈ m, x < c.1) : readByte m x = 0 := by
  induction m with
  | nil => rfl
  | cons c m ih =>
    obtain ⟨a, b⟩ := c
    have ha : x < a := h (a, b) (by simp)
    simp only [readByte, if_neg (Nat.ne_of_lt ha)]
    exact ih fun c hc => h c (by simp [hc])

/-- A byte written to a memory in canonical form is read back. -/
theorem readByte_writeByte_self {m : List Host.Cell} (x : Nat) (v : Byte) (h : Memory.canonical m = true) :
    readByte (writeByte m x v) x = v := by
  induction m with
  | nil => simp only [writeByte]; split <;> simp_all [readByte]
  | cons c m ih =>
    obtain ⟨a, b⟩ := c
    obtain ⟨-, ha, hm⟩ := Memory.canonical_cons.mp h
    simp only [writeByte]
    split
    · next hx =>
      split
      · next hv =>
        rw [hv]
        refine readByte_of_above fun c hc => ?_
        rcases List.mem_cons.mp hc with rfl | hc
        · exact hx
        · exact hx.trans (ha c hc)
      · simp [readByte]
    · split
      · next hx =>
        subst hx
        split
        · next hv => rw [hv]; exact readByte_of_above ha
        · simp [readByte]
      · next hx => simp only [readByte, if_neg hx]; exact ih hm

/-- A write of one byte leaves every other byte alone. -/
theorem readByte_writeByte_ne (m : List Host.Cell) {x y : Nat} (v : Byte) (h : y ≠ x) :
    readByte (writeByte m x v) y = readByte m y := by
  induction m with
  | nil => simp only [writeByte]; split <;> simp [readByte, h]
  | cons c m ih =>
    obtain ⟨a, b⟩ := c
    simp only [writeByte]
    split
    · split <;> simp [readByte, h]
    · split
      · next hx => subst hx; split <;> simp [readByte, h]
      · simp only [readByte, ih]

theorem writeByte_above {m : List Host.Cell} {a x : Nat} (v : Byte) (hx : a < x) (h : ∀ c ∈ m, a < c.1) :
    ∀ c ∈ writeByte m x v, a < c.1 := by
  induction m with
  | nil => simp only [writeByte]; split <;> simp [hx]
  | cons c m ih =>
    obtain ⟨i, b⟩ := c
    have hi : a < i := h (i, b) (by simp)
    have hm : ∀ c ∈ m, a < c.1 := fun c hc => h c (by simp [hc])
    simp only [writeByte]
    split
    · split
      · exact h
      · intro c hc
        rcases List.mem_cons.mp hc with rfl | hc
        · exact hx
        · exact h c hc
    · split
      · split
        · exact hm
        · intro c hc
          rcases List.mem_cons.mp hc with rfl | hc
          · exact hi
          · exact hm c hc
      · intro c hc
        rcases List.mem_cons.mp hc with rfl | hc
        · exact hi
        · exact ih hm c hc

/-- A write of one byte keeps the canonical form. -/
theorem Memory.canonical_writeByte {m : List Host.Cell} (x : Nat) (v : Byte) (h : Memory.canonical m = true) :
    Memory.canonical (writeByte m x v) = true := by
  induction m with
  | nil => simp only [writeByte]; split <;> simp_all [Memory.canonical]
  | cons c m ih =>
    obtain ⟨a, b⟩ := c
    obtain ⟨hb, ha, hm⟩ := Memory.canonical_cons.mp h
    simp only [writeByte]
    split
    · next hx =>
      split
      · exact h
      · next hv =>
        refine Memory.canonical_cons.mpr ⟨hv, fun c hc => ?_, h⟩
        rcases List.mem_cons.mp hc with rfl | hc
        · exact hx
        · exact hx.trans (ha c hc)
    · split
      · split
        · exact hm
        · next hv => exact Memory.canonical_cons.mpr ⟨hv, ha, hm⟩
      · exact Memory.canonical_cons.mpr ⟨hb, writeByte_above v (by omega) ha, ih hm⟩

/-- A write of bytes keeps the canonical form. -/
theorem Memory.canonical_writeBytes {m : List Host.Cell} (x : Nat) (bs : List Byte) (h : Memory.canonical m = true) :
    Memory.canonical (writeBytes m x bs) = true := by
  induction bs generalizing m x with
  | nil => exact h
  | cons b bs ih => exact ih _ (Memory.canonical_writeByte x b h)

/-- Clearing a range keeps the canonical form. -/
theorem Memory.canonical_clearBytes {m : List Host.Cell} (lo hi : Nat) (h : Memory.canonical m = true) :
    Memory.canonical (clearBytes m lo hi) = true := by
  induction m with
  | nil => rfl
  | cons c m ih =>
    obtain ⟨a, b⟩ := c
    obtain ⟨hb, ha, hm⟩ := Memory.canonical_cons.mp h
    simp only [clearBytes, List.filter_cons] at ih ⊢
    split
    · exact Memory.canonical_cons.mpr ⟨hb, fun c hc => ha c (List.mem_of_mem_filter hc), ih hm⟩
    · exact ih hm

/-- The memory after reset is in canonical form. -/
theorem Memory.wf_reset : State.reset.mem.wf = true := rfl

/-- A sector written to a stack keeps the canonical form. -/
theorem Memory.canonical_putSector {m : List Host.Cell} (mpa : Nat) (symbols : List Byte)
    (h : Memory.canonical m = true) : Memory.canonical (putSector m mpa symbols) = true :=
  Memory.canonical_writeBytes _ _ h

/-- Writes into SRAM keep the canonical form. -/
theorem Memory.canonical_writeSram {m : List Host.Cell} (tile : Nat) (ws : KMap (Byte × Byte))
    (h : Memory.canonical m = true) : Memory.canonical (writeSram m tile ws) = true := by
  unfold writeSram
  induction ws generalizing m with
  | nil => exact h
  | cons w ws ih => exact ih (Memory.canonical_writeByte _ _ h)

end Sys2Proof.Machine
end

