-- ==== Sys2Proof/Laws/Memory.lean ====
section
/-! SUPPORT. What the operations of Machine/Memory.lean leave alone. -/

namespace Sys2Proof.Machine

@[simp] theorem execHbmReadComplete_keeps (cyc read : Nat) (errors : List (Nat × Byte)) (s : State) :
    (outcomeState s (execHbmReadComplete cyc read errors s)).kept.part = s.kept.part ∧
    (outcomeState s (execHbmReadComplete cyc read errors s)).kept.pending = s.kept.pending ∧
    (outcomeState s (execHbmReadComplete cyc read errors s)).kept.regs = s.kept.regs ∧
    (outcomeState s (execHbmReadComplete cyc read errors s)).kept.blobs = s.kept.blobs ∧
    (outcomeState s (execHbmReadComplete cyc read errors s)).kept.boot = s.kept.boot ∧
    (outcomeState s (execHbmReadComplete cyc read errors s)).kept.sec = s.kept.sec ∧
    (outcomeState s (execHbmReadComplete cyc read errors s)).kept.slot = s.kept.slot ∧
    (outcomeState s (execHbmReadComplete cyc read errors s)).kept.frame = s.kept.frame ∧
    (outcomeState s (execHbmReadComplete cyc read errors s)).kept.txs = s.kept.txs ∧
    (outcomeState s (execHbmReadComplete cyc read errors s)).kept.ended = s.kept.ended ∧
    (outcomeState s (execHbmReadComplete cyc read errors s)).kept.cache = s.kept.cache ∧
    (outcomeState s (execHbmReadComplete cyc read errors s)).kept.sram = s.kept.sram := by
  unfold execHbmReadComplete; (repeat' split) <;> simp [State.fold_kept, State.kept_mk]

@[simp] theorem execHbmWriteAccepted_keeps (cyc write : Nat) (errors : List (Nat × Byte)) (s : State) :
    (outcomeState s (execHbmWriteAccepted cyc write errors s)).kept.part = s.kept.part ∧
    (outcomeState s (execHbmWriteAccepted cyc write errors s)).kept.pending = s.kept.pending ∧
    (outcomeState s (execHbmWriteAccepted cyc write errors s)).kept.regs = s.kept.regs ∧
    (outcomeState s (execHbmWriteAccepted cyc write errors s)).kept.blobs = s.kept.blobs ∧
    (outcomeState s (execHbmWriteAccepted cyc write errors s)).kept.boot = s.kept.boot ∧
    (outcomeState s (execHbmWriteAccepted cyc write errors s)).kept.sec = s.kept.sec ∧
    (outcomeState s (execHbmWriteAccepted cyc write errors s)).kept.slot = s.kept.slot ∧
    (outcomeState s (execHbmWriteAccepted cyc write errors s)).kept.frame = s.kept.frame ∧
    (outcomeState s (execHbmWriteAccepted cyc write errors s)).kept.txs = s.kept.txs ∧
    (outcomeState s (execHbmWriteAccepted cyc write errors s)).kept.ended = s.kept.ended ∧
    (outcomeState s (execHbmWriteAccepted cyc write errors s)).kept.cache = s.kept.cache ∧
    (outcomeState s (execHbmWriteAccepted cyc write errors s)).kept.sram = s.kept.sram := by
  unfold execHbmWriteAccepted; (repeat' split) <;> simp [State.fold_kept, State.kept_mk]

@[simp] theorem execPatrolScrubRead_keeps (cyc stack sector : Nat) (errors : List (Nat × Byte)) (last : Bool)
    (s : State) :
    (outcomeState s (execPatrolScrubRead cyc stack sector errors last s)).kept.part = s.kept.part ∧
    (outcomeState s (execPatrolScrubRead cyc stack sector errors last s)).kept.pending = s.kept.pending ∧
    (outcomeState s (execPatrolScrubRead cyc stack sector errors last s)).kept.regs = s.kept.regs ∧
    (outcomeState s (execPatrolScrubRead cyc stack sector errors last s)).kept.blobs = s.kept.blobs ∧
    (outcomeState s (execPatrolScrubRead cyc stack sector errors last s)).kept.boot = s.kept.boot ∧
    (outcomeState s (execPatrolScrubRead cyc stack sector errors last s)).kept.sec = s.kept.sec ∧
    (outcomeState s (execPatrolScrubRead cyc stack sector errors last s)).kept.slot = s.kept.slot ∧
    (outcomeState s (execPatrolScrubRead cyc stack sector errors last s)).kept.frame = s.kept.frame ∧
    (outcomeState s (execPatrolScrubRead cyc stack sector errors last s)).kept.txs = s.kept.txs ∧
    (outcomeState s (execPatrolScrubRead cyc stack sector errors last s)).kept.ended = s.kept.ended ∧
    (outcomeState s (execPatrolScrubRead cyc stack sector errors last s)).kept.cache = s.kept.cache ∧
    (outcomeState s (execPatrolScrubRead cyc stack sector errors last s)).kept.sram = s.kept.sram := by
  unfold execPatrolScrubRead; simp [State.fold_kept, State.kept_mk]; (repeat' split) <;> simp [State.fold_kept, State.kept_mk]

@[simp] theorem State.readPart_keeps (s : State) (b : Bool) (mpa : Nat) :
    (State.readPart (b, s) mpa).2.kept.part = s.kept.part ∧
    (State.readPart (b, s) mpa).2.kept.pending = s.kept.pending ∧
    (State.readPart (b, s) mpa).2.kept.regs = s.kept.regs ∧ (State.readPart (b, s) mpa).2.kept.blobs = s.kept.blobs ∧
    (State.readPart (b, s) mpa).2.kept.boot = s.kept.boot ∧ (State.readPart (b, s) mpa).2.kept.sec = s.kept.sec ∧
    (State.readPart (b, s) mpa).2.kept.slot = s.kept.slot ∧ (State.readPart (b, s) mpa).2.kept.frame = s.kept.frame ∧
    (State.readPart (b, s) mpa).2.kept.txs = s.kept.txs ∧ (State.readPart (b, s) mpa).2.kept.ended = s.kept.ended ∧
    (State.readPart (b, s) mpa).2.kept.cache = s.kept.cache ∧
    (State.readPart (b, s) mpa).2.kept.sram = s.kept.sram := by
  simp [State.readPart]

@[simp] theorem State.pageRead_keeps (s : State) (frame : Nat) :
    (State.pageRead s frame).2.kept.part = s.kept.part ∧ (State.pageRead s frame).2.kept.pending = s.kept.pending ∧
    (State.pageRead s frame).2.kept.regs = s.kept.regs ∧ (State.pageRead s frame).2.kept.blobs = s.kept.blobs ∧
    (State.pageRead s frame).2.kept.boot = s.kept.boot ∧ (State.pageRead s frame).2.kept.sec = s.kept.sec ∧
    (State.pageRead s frame).2.kept.slot = s.kept.slot ∧ (State.pageRead s frame).2.kept.frame = s.kept.frame ∧
    (State.pageRead s frame).2.kept.txs = s.kept.txs ∧ (State.pageRead s frame).2.kept.ended = s.kept.ended ∧
    (State.pageRead s frame).2.kept.cache = s.kept.cache ∧ (State.pageRead s frame).2.kept.sram = s.kept.sram := by
  exact ⟨State.keeps_foldl_snd (·.kept.part) (fun p a => by simp [State.readPart]) _ _,
    State.keeps_foldl_snd (·.kept.pending) (fun p a => by simp [State.readPart]) _ _,
    State.keeps_foldl_snd (·.kept.regs) (fun p a => by simp [State.readPart]) _ _,
    State.keeps_foldl_snd (·.kept.blobs) (fun p a => by simp [State.readPart]) _ _,
    State.keeps_foldl_snd (·.kept.boot) (fun p a => by simp [State.readPart]) _ _,
    State.keeps_foldl_snd (·.kept.sec) (fun p a => by simp [State.readPart]) _ _,
    State.keeps_foldl_snd (·.kept.slot) (fun p a => by simp [State.readPart]) _ _,
    State.keeps_foldl_snd (·.kept.frame) (fun p a => by simp [State.readPart]) _ _,
    State.keeps_foldl_snd (·.kept.txs) (fun p a => by simp [State.readPart]) _ _,
    State.keeps_foldl_snd (·.kept.ended) (fun p a => by simp [State.readPart]) _ _,
    State.keeps_foldl_snd (·.kept.cache) (fun p a => by simp [State.readPart]) _ _,
    State.keeps_foldl_snd (·.kept.sram) (fun p a => by simp [State.readPart]) _ _⟩

@[simp] theorem State.pageWrite_keeps (s : State) (frame : Nat) (data : List Byte) :
    (State.pageWrite s frame data).kept.part = s.kept.part ∧
    (State.pageWrite s frame data).kept.pending = s.kept.pending ∧
    (State.pageWrite s frame data).kept.regs = s.kept.regs ∧
    (State.pageWrite s frame data).kept.blobs = s.kept.blobs ∧
    (State.pageWrite s frame data).kept.boot = s.kept.boot ∧ (State.pageWrite s frame data).kept.sec = s.kept.sec ∧
    (State.pageWrite s frame data).kept.slot = s.kept.slot ∧
    (State.pageWrite s frame data).kept.frame = s.kept.frame ∧ (State.pageWrite s frame data).kept.txs = s.kept.txs ∧
    (State.pageWrite s frame data).kept.ended = s.kept.ended ∧
    (State.pageWrite s frame data).kept.cache = s.kept.cache ∧
    (State.pageWrite s frame data).kept.sram = s.kept.sram := by
  unfold State.pageWrite; simp

@[simp] theorem State.degradePin_kept (s : State) (stack pc pin eye : Nat) :
    (State.degradePin s stack pc pin eye).kept = s.kept := by
  unfold State.degradePin; simp [State.fold_kept, State.kept_mk]

@[simp] theorem execEyeAdjust_kept (cyc stack pseudoChannel pin : Nat) (reading : EyeReading) (s : State) :
    (outcomeState s (execEyeAdjust cyc stack pseudoChannel pin reading s)).kept = s.kept := by
  unfold execEyeAdjust; (repeat' split) <;> simp [State.fold_kept, State.kept_mk]

@[simp] theorem execStackInitComplete_keeps (stack : Nat) (s : State) :
    (outcomeState s (execStackInitComplete stack s)).kept.part = s.kept.part ∧
    (outcomeState s (execStackInitComplete stack s)).kept.pending = s.kept.pending ∧
    (outcomeState s (execStackInitComplete stack s)).kept.regs = s.kept.regs ∧
    (outcomeState s (execStackInitComplete stack s)).kept.blobs = s.kept.blobs ∧
    (outcomeState s (execStackInitComplete stack s)).kept.boot = s.kept.boot ∧
    (outcomeState s (execStackInitComplete stack s)).kept.sec = s.kept.sec ∧
    (outcomeState s (execStackInitComplete stack s)).kept.slot = s.kept.slot ∧
    (outcomeState s (execStackInitComplete stack s)).kept.frame = s.kept.frame ∧
    (outcomeState s (execStackInitComplete stack s)).kept.txs = s.kept.txs ∧
    (outcomeState s (execStackInitComplete stack s)).kept.ended = s.kept.ended ∧
    (outcomeState s (execStackInitComplete stack s)).kept.cache = s.kept.cache ∧
    (outcomeState s (execStackInitComplete stack s)).kept.sram = s.kept.sram := by
  unfold execStackInitComplete; simp [State.fold_kept, State.kept_mk]; (repeat' split) <;> simp [State.fold_kept, State.kept_mk]

@[simp] theorem State.parkFailed_kept (s : State) (n page row : Nat) :
    (State.parkFailed s n page row).kept = s.kept := by
  unfold State.parkFailed; simp [State.fold_kept, State.kept_mk]

@[simp] theorem State.endPark_kept (s : State) (n : Nat) :
    (State.endPark s n).kept = s.kept := by
  unfold State.endPark; (repeat' split) <;> simp [State.fold_kept, State.kept_mk]

@[simp] theorem State.pageOut_kept (s : State) (n copied : Nat) :
    (State.pageOut s n copied).kept = s.kept := by
  unfold State.pageOut; dsimp only; (repeat' split) <;> simp [State.fold_kept, State.kept_mk]

@[simp] theorem State.pageIn_kept (s : State) (stream page : Nat) (clean : Bool) :
    (State.pageIn s stream page clean).kept = s.kept := by
  unfold State.pageIn; simp [State.fold_kept, State.kept_mk]

@[simp] theorem State.parkBack_kept (s : State) (stream page row : Nat) :
    (State.parkBack s stream page row).kept = s.kept := by
  unfold State.parkBack; simp [State.fold_kept, State.kept_mk]

@[simp] theorem State.moveOutEnds_kept (s : State) (stream page : Nat) (clean : Bool) (outcome : MoveOutcome) :
    (State.moveOutEnds s stream page clean outcome).kept = s.kept := by
  cases outcome <;> simp [State.moveOutEnds]

@[simp] theorem execPageParked_keeps (cyc stream page : Nat) (outcome : MoveOutcome) (s : State) :
    (outcomeState s (execPageParked cyc stream page outcome s)).kept.part = s.kept.part ∧
    (outcomeState s (execPageParked cyc stream page outcome s)).kept.pending = s.kept.pending ∧
    (outcomeState s (execPageParked cyc stream page outcome s)).kept.regs = s.kept.regs ∧
    (outcomeState s (execPageParked cyc stream page outcome s)).kept.blobs = s.kept.blobs ∧
    (outcomeState s (execPageParked cyc stream page outcome s)).kept.boot = s.kept.boot ∧
    (outcomeState s (execPageParked cyc stream page outcome s)).kept.sec = s.kept.sec ∧
    (outcomeState s (execPageParked cyc stream page outcome s)).kept.slot = s.kept.slot ∧
    (outcomeState s (execPageParked cyc stream page outcome s)).kept.frame = s.kept.frame ∧
    (outcomeState s (execPageParked cyc stream page outcome s)).kept.txs = s.kept.txs ∧
    (outcomeState s (execPageParked cyc stream page outcome s)).kept.ended = s.kept.ended ∧
    (outcomeState s (execPageParked cyc stream page outcome s)).kept.cache = s.kept.cache ∧
    (outcomeState s (execPageParked cyc stream page outcome s)).kept.sram = s.kept.sram := by
  unfold execPageParked
  split
  · simp
  · split
    · simp
    · simp only [outcomeState_next, State.moveOutEnds_kept]
      split <;> simp

@[simp] theorem execUnparkPageStart_kept (cyc stream page : Nat) (s : State) :
    (outcomeState s (execUnparkPageStart cyc stream page s)).kept = s.kept := by
  unfold execUnparkPageStart
  split
  · dsimp only
    split
    · rfl
    · rfl
  · rfl

@[simp] theorem State.unparkDone_kept (s : State) (n : Nat) :
    (State.unparkDone s n).kept = s.kept := by
  unfold State.unparkDone; (repeat' split) <;> simp [State.fold_kept, State.kept_mk]

@[simp] theorem State.pageBack_kept (s : State) (stream page : Nat) : (State.pageBack s stream page).kept = s.kept := by
  unfold State.pageBack; simp [State.fold_kept, State.kept_mk]

@[simp] theorem State.moveInEnds_kept (s : State) (stream page : Nat) (outcome : MoveOutcome) :
    (State.moveInEnds s stream page outcome).kept = s.kept := by
  cases outcome <;> simp [State.moveInEnds, State.fold_kept, State.kept_mk]

@[simp] theorem execPageUnparked_keeps (cyc stream page : Nat) (outcome : PageCopy) (s : State) :
    (outcomeState s (execPageUnparked cyc stream page outcome s)).kept.part = s.kept.part ∧
    (outcomeState s (execPageUnparked cyc stream page outcome s)).kept.pending = s.kept.pending ∧
    (outcomeState s (execPageUnparked cyc stream page outcome s)).kept.regs = s.kept.regs ∧
    (outcomeState s (execPageUnparked cyc stream page outcome s)).kept.blobs = s.kept.blobs ∧
    (outcomeState s (execPageUnparked cyc stream page outcome s)).kept.boot = s.kept.boot ∧
    (outcomeState s (execPageUnparked cyc stream page outcome s)).kept.sec = s.kept.sec ∧
    (outcomeState s (execPageUnparked cyc stream page outcome s)).kept.slot = s.kept.slot ∧
    (outcomeState s (execPageUnparked cyc stream page outcome s)).kept.frame = s.kept.frame ∧
    (outcomeState s (execPageUnparked cyc stream page outcome s)).kept.txs = s.kept.txs ∧
    (outcomeState s (execPageUnparked cyc stream page outcome s)).kept.ended = s.kept.ended ∧
    (outcomeState s (execPageUnparked cyc stream page outcome s)).kept.cache = s.kept.cache ∧
    (outcomeState s (execPageUnparked cyc stream page outcome s)).kept.sram = s.kept.sram := by
  unfold execPageUnparked; dsimp only; (repeat' split) <;> simp

end Sys2Proof.Machine
end

