-- ==== Sys2Proof/Laws/TableRom.lean ====
section
/-! SUPPORT. A table ROM that meets the bounds of R182 exists: every function rounded towards zero. -/

namespace Sys2Proof.Machine

/-- The pattern with a sign, an exponent field and a mantissa field. -/
def packF32 (n : Bool) (e m : Nat) : BitVec 32 := BitVec.ofNat 32 (ofBit n * 2 ^ 31 + e * 2 ^ 23 + m)

theorem num32_packF32 (n : Bool) (e m : Nat) (he : e ≤ 254) (hm : m < 2 ^ 23) :
    num32 (packF32 n e m) =
      if e = 0 then .fin n m (-149) else .fin n (2 ^ 23 + m) ((e : Int) - 150) := by
  have hb : ofBit n ≤ 1 := by cases n <;> simp [ofBit]
  have hv : (packF32 n e m).toNat = ofBit n * 2 ^ 31 + e * 2 ^ 23 + m := by
    simp only [packF32, BitVec.toNat_ofNat]; omega
  have h1 : (ofBit n * 2 ^ 31 + e * 2 ^ 23 + m) % 2 ^ 23 = m := by omega
  have h2 : (ofBit n * 2 ^ 31 + e * 2 ^ 23 + m) / 2 ^ 23 % 2 ^ 8 = e := by omega
  have h3 : ((ofBit n * 2 ^ 31 + e * 2 ^ 23 + m) / 2 ^ (23 + 8) % 2 == 1) = n := by
    have : (ofBit n * 2 ^ 31 + e * 2 ^ 23 + m) / 2 ^ (23 + 8) % 2 = ofBit n := by omega
    rw [this]; cases n <;> rfl
  simp only [num32, FpFormat.decode, f32, hv, h1, h2, h3]
  have h4 : (e == 2 ^ 8 - 1) = false := by simp; omega
  simp only [h4]
  by_cases h0 : e = 0
  · simp [h0]
  · simp [h0]; omega

/-- The two numbers that a significand of a legal exponent field gives, one for each sign. -/
theorem holds_packF32 (n : Bool) (e m : Nat) (he : e ≤ 254) (hm : m < 2 ^ 23) :
    ∃ v, Holds v ((if n then -1 else 1) *
      (if e = 0 then (m : ℝ) * 2 ^ (-149 : ℤ) else ((2 ^ 23 + m : ℕ) : ℝ) * 2 ^ ((e : ℤ) - 150))) := by
  refine ⟨packF32 n e m, ?_⟩
  rw [Holds, num32_packF32 n e m he hm]
  split
  · exact ⟨_, rfl, by cases n <;> simp⟩
  · cases n
    · exact ⟨_, rfl, by simp⟩
    · exact ⟨_, rfl, by simp; ring⟩

/-- A magnitude has an FP32 value at or below it, of either sign, within one unit of the last place. -/
theorem exists_below (y : ℝ) (h0 : 0 ≤ y) (hM : y ≤ (maxF32 : ℝ)) :
    ∃ r : ℝ, (∀ n : Bool, ∃ v, Holds v ((if n then -1 else 1) * r)) ∧ 0 ≤ r ∧ r ≤ y ∧
      y - r ≤ if (2 : ℝ) ^ (-126 : ℤ) ≤ y then (2 : ℝ) ^ (-23 : ℤ) * y else (2 : ℝ) ^ (-149 : ℤ) := by
  have pos (k : ℤ) : (0 : ℝ) < 2 ^ k := zpow_pos (by norm_num) k
  have cancel (a : ℝ) (k l : ℤ) (h : k + l = 0) : a * 2 ^ k * 2 ^ l = a := by
    rw [mul_assoc, ← zpow_add₀ (by norm_num), h, zpow_zero, mul_one]
  have floor (k l : ℤ) (h : k + l = 0) :
      (⌊y * 2 ^ k⌋₊ : ℝ) * 2 ^ l ≤ y ∧ y - (⌊y * 2 ^ k⌋₊ : ℝ) * 2 ^ l ≤ 2 ^ l := by
    have lo := Nat.floor_le (a := y * 2 ^ k) (by positivity)
    have hi := Nat.lt_floor_add_one (y * 2 ^ k)
    have e := cancel y k l h
    have := pos l
    constructor <;> nlinarith
  split
  · rename_i hn
    have hy : 0 < y := lt_of_lt_of_le (pos _) hn
    obtain ⟨k, hk⟩ : ∃ k, k = Int.log 2 y := ⟨_, rfl⟩
    have lo : (2 : ℝ) ^ k ≤ y := by
      have := Int.zpow_log_le_self (R := ℝ) (b := 2) (by norm_num) hy
      rw [← hk] at this; exact_mod_cast this
    have hi : y < (2 : ℝ) ^ (k + 1) := by
      have := Int.lt_zpow_succ_log_self (R := ℝ) (b := 2) (by norm_num) y
      rw [← hk] at this; exact_mod_cast this
    have k0 : -126 ≤ k := by
      by_contra hc
      have : (2 : ℝ) ^ (k + 1) ≤ 2 ^ (-126 : ℤ) := zpow_le_zpow_right₀ (by norm_num) (by omega)
      linarith
    have k1 : k ≤ 127 := by
      by_contra hc
      have : (2 : ℝ) ^ (128 : ℤ) ≤ 2 ^ k := zpow_le_zpow_right₀ (by norm_num) (by omega)
      have : (maxF32 : ℝ) < 2 ^ (128 : ℤ) := by simp only [maxF32]; norm_num
      linarith
    obtain ⟨e, he⟩ : ∃ e : ℕ, (e : ℤ) = k + 127 := ⟨(k + 127).toNat, by omega⟩
    obtain ⟨f, hf⟩ : ∃ f : ℕ, f = ⌊y * 2 ^ (23 - k)⌋₊ := ⟨_, rfl⟩
    have fl := floor (23 - k) (k - 23) (by ring)
    rw [← hf] at fl
    have f0 : 2 ^ 23 ≤ f := by
      rw [hf]; apply Nat.le_floor
      have : (2 : ℝ) ^ k * 2 ^ (23 - k) = 2 ^ 23 := by
        rw [← zpow_add₀ (by norm_num)]; norm_num
      have := mul_le_mul_of_nonneg_right lo (pos (23 - k)).le
      push_cast; linarith
    have f1 : f < 2 ^ 24 := by
      rw [hf]; apply (Nat.floor_lt (by positivity)).2
      have : (2 : ℝ) ^ (k + 1) * 2 ^ (23 - k) = 2 ^ 24 := by
        rw [← zpow_add₀ (by norm_num), show k + 1 + (23 - k) = 24 by ring]; norm_num
      have := mul_lt_mul_of_pos_right hi (pos (23 - k))
      push_cast; linarith
    refine ⟨f * 2 ^ (k - 23), fun n => ?_, by positivity, fl.1, ?_⟩
    · obtain ⟨v, hv⟩ := holds_packF32 n e (f - 2 ^ 23) (by omega) (by omega)
      refine ⟨v, ?_⟩
      have e0 : e ≠ 0 := by omega
      have ef : 2 ^ 23 + (f - 2 ^ 23) = f := by omega
      rw [if_neg e0, ef, he, show k + 127 - 150 = k - 23 by ring] at hv
      exact hv
    · refine fl.2.trans ?_
      rw [show k - 23 = -23 + k by ring, zpow_add₀ (by norm_num)]
      exact mul_le_mul_of_nonneg_left lo (pos _).le
  · rename_i hn
    obtain ⟨f, hf⟩ : ∃ f : ℕ, f = ⌊y * 2 ^ (149 : ℤ)⌋₊ := ⟨_, rfl⟩
    have fl := floor 149 (-149) (by norm_num)
    rw [← hf] at fl
    have f1 : f < 2 ^ 23 := by
      rw [hf]; apply (Nat.floor_lt (by positivity)).2
      have : (2 : ℝ) ^ (-126 : ℤ) * 2 ^ (149 : ℤ) = 2 ^ 23 := by
        rw [← zpow_add₀ (by norm_num)]; norm_num
      have := mul_lt_mul_of_pos_right (not_le.1 hn) (pos 149)
      push_cast; linarith
    refine ⟨f * 2 ^ (-149 : ℤ), fun n => ?_, by positivity, fl.1, fl.2⟩
    obtain ⟨v, hv⟩ := holds_packF32 n 0 f (by omega) f1
    exact ⟨v, by simpa using hv⟩

theorem Holds.unique {v : BitVec 32} {r t : ℝ} (h : Holds v r) (k : Holds v t) : r = t := by
  obtain ⟨q, hq, rfl⟩ := h
  obtain ⟨p, hp, rfl⟩ := k
  simp_all

/-- Rounding a magnitude down: to an FP32 value of either sign, monotone, exact on FP32 values. -/
theorem exists_floor : ∃ f : ℝ → ℝ, ∀ y, 0 ≤ y →
    (∀ n : Bool, ∃ v, Holds v ((if n then -1 else 1) * f y)) ∧ 0 ≤ f y ∧ f y ≤ y ∧
    ∀ r, (∀ n : Bool, ∃ v, Holds v ((if n then -1 else 1) * r)) → 0 ≤ r → r ≤ y → r ≤ f y := by
  suffices h : ∀ y, ∃ r : ℝ, 0 ≤ y →
      (∀ n : Bool, ∃ v, Holds v ((if n then -1 else 1) * r)) ∧ 0 ≤ r ∧ r ≤ y ∧
      ∀ t, (∀ n : Bool, ∃ v, Holds v ((if n then -1 else 1) * t)) → 0 ≤ t → t ≤ y → t ≤ r by
    exact ⟨fun y => (h y).choose, fun y => (h y).choose_spec⟩
  intro y
  by_cases h0 : 0 ≤ y
  swap
  · exact ⟨0, fun h => absurd h h0⟩
  let S : Set ℝ := {r | (∀ n : Bool, ∃ v, Holds v ((if n then -1 else 1) * r)) ∧ 0 ≤ r ∧ r ≤ y}
  have fin : S.Finite := by
    have all : (Set.range fun v : BitVec 32 => (((num32 v).rat.getD 0 : ℚ) : ℝ)).Finite := by
      have : Finite (BitVec 32) := Finite.of_injective BitVec.toFin fun a b h => by
        cases a; cases b; simp_all
      exact Set.finite_range _
    refine all.subset ?_
    rintro r ⟨hr, -⟩
    obtain ⟨v, q, hq, hv⟩ := hr false
    exact ⟨v, by simp [hq, hv]⟩
  have ne : S.Nonempty := by
    refine ⟨0, fun n => ?_, le_rfl, h0⟩
    obtain ⟨v, hv⟩ := holds_packF32 n 0 0 (by omega) (by omega)
    exact ⟨v, by simpa using hv⟩
  obtain ⟨r, hr, hmax⟩ := Set.exists_max_image S id fin ne
  exact ⟨r, fun _ => ⟨hr.1, hr.2.1, hr.2.2, fun t h h0 ht => hmax t ⟨h, h0, ht⟩⟩⟩

/-- Distance that rounding towards zero leaves. -/
def truncError (u : ℝ) (e : ℝ) : Prop :=
  e ≤ if (2 : ℝ) ^ (-126 : ℤ) ≤ u then (2 : ℝ) ^ (-23 : ℤ) * u else (2 : ℝ) ^ (-149 : ℤ)

theorem truncError_normal {u e : ℝ} (h : truncError u e) (hu : (2 : ℝ) ^ (-126 : ℤ) ≤ u) :
    e ≤ (2 : ℝ) ^ (-23 : ℤ) * u := by rwa [truncError, if_pos hu] at h

theorem truncError_le {u e : ℝ} (h : truncError u e) : e ≤ (2 : ℝ) ^ (-23 : ℤ) * max 1 u := by
  rw [truncError] at h
  split at h
  · exact h.trans (mul_le_mul_of_nonneg_left (le_max_right ..) (by positivity))
  · refine h.trans ?_
    have : (2 : ℝ) ^ (-149 : ℤ) ≤ (2 : ℝ) ^ (-23 : ℤ) * 1 := by norm_num
    exact this.trans (mul_le_mul_of_nonneg_left (le_max_left ..) (by positivity))

/-- Rounding towards zero: monotone, never further from zero, close within the range, and exact at 1. -/
theorem exists_trunc : ∃ g : ℝ → ℝ, (∀ y, ∃ v, Holds v (g y)) ∧ (∀ y, |g y| ≤ |y|) ∧ Monotone g ∧ g 1 = 1 ∧
    ∀ y, |y| ≤ (maxF32 : ℝ) → truncError |y| |g y - y| := by
  obtain ⟨f, hf⟩ := exists_floor
  have mono : ∀ y z, 0 ≤ y → y ≤ z → f y ≤ f z := fun y z h0 hyz =>
    (hf z (h0.trans hyz)).2.2.2 _ (hf y h0).1 (hf y h0).2.1 ((hf y h0).2.2.1.trans hyz)
  have close : ∀ y, 0 ≤ y → y ≤ (maxF32 : ℝ) → truncError y (y - f y) := fun y h0 hM => by
    obtain ⟨r, hr, r0, ry, e⟩ := exists_below y h0 hM
    exact (sub_le_sub_left ((hf y h0).2.2.2 r hr r0 ry) y).trans e
  refine ⟨fun y => if 0 ≤ y then f y else -f (-y), fun y => ?_, fun y => ?_, fun y z hyz => ?_, ?_,
    fun y hM => ?_⟩
  · by_cases h : 0 ≤ y
    · simpa [h] using (hf y h).1 false
    · simpa [h] using (hf (-y) (by linarith)).1 true
  · by_cases h : 0 ≤ y
    · simp [h, abs_of_nonneg (hf y h).2.1, abs_of_nonneg h, (hf y h).2.2.1]
    · have := hf (-y) (by linarith)
      simp [h, abs_of_nonneg this.2.1, abs_of_neg (not_le.1 h), this.2.2.1]
  · by_cases h : 0 ≤ y
    · simpa [h, h.trans hyz] using mono y z h hyz
    · by_cases k : 0 ≤ z
      · have := (hf (-y) (by linarith)).2.1
        have := (hf z k).2.1
        simp [h, k]; linarith
      · have := mono (-z) (-y) (by linarith) (by linarith)
        simpa [h, k] using this
  · have one : ∀ n : Bool, ∃ v, Holds v ((if n then -1 else 1) * 1) := fun n => by
      obtain ⟨v, hv⟩ := holds_packF32 n 127 0 (by omega) (by omega)
      refine ⟨v, ?_⟩
      have : (((2 ^ 23 + 0 : ℕ) : ℝ)) * 2 ^ (((127 : ℕ) : ℤ) - 150) = 1 := by norm_num
      rwa [if_neg (show ¬ (127 : ℕ) = 0 by norm_num), this] at hv
    have := hf 1 (by norm_num)
    simp only [zero_le_one, if_true]
    exact le_antisymm this.2.2.1 (this.2.2.2 1 one (by norm_num) le_rfl)
  · by_cases h : 0 ≤ y
    · have := (hf y h).2.2.1
      rw [abs_of_nonneg h] at hM ⊢
      simp only [h, if_true]
      rw [abs_sub_comm, abs_of_nonneg (by linarith)]
      exact close y h hM
    · have := (hf (-y) (by linarith)).2.2.1
      rw [abs_of_neg (not_le.1 h)] at hM ⊢
      simp only [h, if_false]
      rw [abs_of_nonneg (by linarith), show -f (-y) - y = -y - f (-y) by ring]
      exact close (-y) (by linarith) hM

/-- The fields of a pattern that holds a number. -/
theorem Holds.fields {v : BitVec 32} {a : ℝ} (h : Holds v a) : ∃ (n : Bool) (e m : ℕ), e ≤ 254 ∧ m < 2 ^ 23 ∧
    a = (if n then -1 else 1) *
      (if e = 0 then (m : ℝ) * 2 ^ (-149 : ℤ) else ((2 ^ 23 + m : ℕ) : ℝ) * 2 ^ ((e : ℤ) - 150)) := by
  obtain ⟨q, hq, rfl⟩ := h
  obtain ⟨e, he⟩ : ∃ e, e = v.toNat / 2 ^ 23 % 2 ^ 8 := ⟨_, rfl⟩
  obtain ⟨m, hm⟩ : ∃ m, m = v.toNat % 2 ^ 23 := ⟨_, rfl⟩
  obtain ⟨n, hn⟩ : ∃ n : Bool, n = (v.toNat / 2 ^ (23 + 8) % 2 == 1) := ⟨_, rfl⟩
  simp only [num32, FpFormat.decode, f32, ← he, ← hm, ← hn] at hq
  refine ⟨n, e, m, ?_, by omega, ?_⟩
  · by_contra hc
    have top : (e == 2 ^ 8 - 1) = true := by simp; omega
    rw [top, if_pos rfl] at hq
    split at hq <;> simp [Num.rat] at hq
  · split at hq
    · split at hq <;> simp [Num.rat] at hq
    · split at hq
      · rename_i h0
        simp only [Num.rat, Option.some.injEq] at hq
        subst hq
        cases n <;> simp [h0]
      · rename_i h0
        simp only [Num.rat, Option.some.injEq] at hq
        subst hq
        rw [if_neg h0, show (e : ℤ) - (127 : ℕ) - (23 : ℕ) = (e : ℤ) - 150 by omega]
        cases n
        · simp
        · simp; ring

/-- A finite FP32 value lies within the range, and is no smaller than the least subnormal unless it is zero. -/
theorem Holds.range {v : BitVec 32} {a : ℝ} (h : Holds v a) :
    |a| ≤ (maxF32 : ℝ) ∧ (a ≠ 0 → (2 : ℝ) ^ (-149 : ℤ) ≤ |a|) := by
  obtain ⟨n, e, m, he, hm, rfl⟩ := h.fields
  have sign (x : ℝ) : |(if n then -1 else 1) * x| = |x| := by cases n <;> simp
  rw [sign]
  have hmr : (m : ℝ) ≤ 2 ^ 23 - 1 := by
    have : m + 1 ≤ 2 ^ 23 := hm
    have : ((m + 1 : ℕ) : ℝ) ≤ ((2 ^ 23 : ℕ) : ℝ) := Nat.cast_le.2 this
    push_cast at this; linarith
  have h149 : (0 : ℝ) < 2 ^ (-149 : ℤ) := by positivity
  by_cases h0 : e = 0
  · simp only [h0, if_true]
    rw [abs_of_nonneg (by positivity)]
    refine ⟨?_, fun hne => ?_⟩
    · have : (m : ℝ) * 2 ^ (-149 : ℤ) ≤ (2 ^ 23 - 1) * 2 ^ (-149 : ℤ) :=
        mul_le_mul_of_nonneg_right hmr h149.le
      refine this.trans ?_
      simp only [maxF32]; norm_num
    · have : m ≠ 0 := by rintro rfl; simp at hne
      have : (1 : ℝ) ≤ m := by exact_mod_cast Nat.one_le_iff_ne_zero.2 this
      nlinarith
  · simp only [h0, if_false]
    rw [abs_of_nonneg (by positivity)]
    have lo : (2 : ℝ) ^ (-149 : ℤ) ≤ 2 ^ ((e : ℤ) - 150) := zpow_le_zpow_right₀ (by norm_num) (by omega)
    have hi : (2 : ℝ) ^ ((e : ℤ) - 150) ≤ 2 ^ (104 : ℤ) := zpow_le_zpow_right₀ (by norm_num) (by omega)
    refine ⟨?_, fun _ => ?_⟩
    · have : ((2 ^ 23 + m : ℕ) : ℝ) * 2 ^ ((e : ℤ) - 150) ≤ (2 ^ 24 - 1) * 2 ^ (104 : ℤ) := by
        apply mul_le_mul _ hi (by positivity) (by norm_num)
        push_cast; linarith
      refine this.trans (le_of_eq ?_)
      simp only [maxF32]; norm_num
    · refine lo.trans (le_mul_of_one_le_left (by positivity) ?_)
      push_cast; linarith [(Nat.cast_nonneg m : (0 : ℝ) ≤ m)]

/-- The functions that the table evaluates. -/
noncomputable def tableReal (code : Nat) (a : ℝ) : ℝ :=
  match code with
  | 0x20 => Real.exp a
  | 0x21 => Real.logb 2 a
  | 0x22 | 0x23 => 1 / a
  | 0x24 => 1 / √a
  | 0x25 => a * ProbabilityTheory.cdf (ProbabilityTheory.gaussianReal 0 1) a
  | 0x26 => a / (1 + Real.exp (-a))
  | _ => Real.tanh a

theorem tanh_monotone : Monotone Real.tanh := fun a b h => by
  rw [Real.tanh_eq_sinh_div_cosh, Real.tanh_eq_sinh_div_cosh, div_le_div_iff₀ (Real.cosh_pos a) (Real.cosh_pos b)]
  have : 0 ≤ Real.sinh (b - a) := Real.sinh_nonneg_iff.2 (by linarith)
  rw [Real.sinh_sub] at this
  linarith

/-- Rounding a table function towards zero meets its bound. -/
theorem trunc_meets (p : ℝ → BitVec 32) (near : ∀ y b, |y| ≤ (maxF32 : ℝ) → (∀ e, truncError |y| e → e ≤ b) → Near (p y) y b)
    (one : ∀ y, |y| ≤ 1 → ∃ r, Holds (p y) r ∧ |r| ≤ 1) (code : ℕ) (a : ℝ) (hM : |a| ≤ (maxF32 : ℝ))
    (hm : a ≠ 0 → (2 : ℝ) ^ (-149 : ℤ) ≤ |a|) : TableBound code a (p (tableReal code a)) := by
  have M1 : (1 : ℝ) ≤ (maxF32 : ℝ) := by simp only [maxF32]; norm_num
  have M128 : (maxF32 : ℝ) ≤ (2 : ℝ) ^ (128 : ℤ) := by simp only [maxF32]; norm_num
  have M75 : (2 : ℝ) ^ (75 : ℤ) ≤ (maxF32 : ℝ) := by simp only [maxF32]; norm_num
  have rel (y c : ℝ) (hc : (2 : ℝ) ^ (-23 : ℤ) ≤ c) (hn : (2 : ℝ) ^ (-126 : ℤ) ≤ |y|) (e : ℝ)
      (h : truncError |y| e) : e ≤ c * |y| :=
    (truncError_normal h hn).trans (mul_le_mul_of_nonneg_right hc (abs_nonneg y))
  have wide (y c u : ℝ) (hc : (2 : ℝ) ^ (-23 : ℤ) ≤ c) (hu : |y| ≤ u) (e : ℝ) (h : truncError |y| e) :
      e ≤ c * max 1 u := (truncError_le h).trans
        (mul_le_mul hc (max_le_max le_rfl hu) (by positivity) (le_trans (by positivity) hc))
  unfold TableBound
  split
  · change _ → Near (p (Real.exp a)) _ _
    intro h
    refine near _ _ (by rwa [abs_of_pos (Real.exp_pos a)]) fun e he => ?_
    split
    · have := rel _ _ (show (2 : ℝ) ^ (-23 : ℤ) ≤ (2 : ℝ) ^ (-21 : ℤ) by norm_num)
        (by rwa [abs_of_pos (Real.exp_pos a)]) e he
      rwa [abs_of_pos (Real.exp_pos a)] at this
    · rename_i hn
      rw [truncError, abs_of_pos (Real.exp_pos a), if_neg hn] at he
      exact he.trans (by norm_num)
  · change _ → Near (p (Real.logb 2 a)) _ _
    intro h
    have ha := hm h.ne'
    rw [abs_of_pos h] at ha hM
    have two (k : ℤ) : Real.logb 2 ((2 : ℝ) ^ k) = k := by
      rw [← Real.rpow_intCast, Real.logb_rpow (by norm_num) (by norm_num)]
    have lo : -149 ≤ Real.logb 2 a := by
      have := Real.logb_le_logb_of_le (b := 2) (by norm_num) (by positivity) ha
      rw [two] at this; exact_mod_cast this
    have hi : Real.logb 2 a ≤ 128 := by
      have := Real.logb_le_logb_of_le (b := 2) (by norm_num) h (hM.trans M128)
      rw [two] at this; exact_mod_cast this
    have : (149 : ℝ) ≤ (maxF32 : ℝ) := le_trans (by norm_num) M75
    refine near _ _ (abs_le.2 ⟨by linarith, by linarith⟩) fun e he => ?_
    split
    · rename_i hr
      have l1 : -1 ≤ Real.logb 2 a := by
        have := Real.logb_le_logb_of_le (b := 2) (by norm_num) (by norm_num)
          (show (2 : ℝ) ^ (-1 : ℤ) ≤ a by norm_num; linarith [hr.1])
        rw [two] at this; exact_mod_cast this
      have l2 : Real.logb 2 a ≤ 1 := by
        have := Real.logb_le_logb_of_le (b := 2) (by norm_num) h (show a ≤ (2 : ℝ) ^ (1 : ℤ) by norm_num; exact hr.2)
        rw [two] at this; exact_mod_cast this
      have := wide _ _ 1 (show (2 : ℝ) ^ (-23 : ℤ) ≤ (2 : ℝ) ^ (-21 : ℤ) by norm_num) (abs_le.2 ⟨l1, l2⟩) e he
      simpa using this
    · rename_i hr
      refine rel _ _ (by norm_num) ?_ e he
      refine le_trans (by norm_num : (2 : ℝ) ^ (-126 : ℤ) ≤ 1) ?_
      rw [le_abs]
      by_cases h2 : a ≤ 2
      · right
        have : a ≤ (2 : ℝ) ^ (-1 : ℤ) := by
          have : ¬ 1 / 2 ≤ a := fun h1 => hr ⟨h1, h2⟩
          norm_num; linarith
        have := Real.logb_le_logb_of_le (b := 2) (by norm_num) h this
        rw [two] at this; push_cast at this; linarith
      · left
        have := Real.logb_le_logb_of_le (b := 2) (by norm_num) (by positivity)
          (show (2 : ℝ) ^ (1 : ℤ) ≤ a by norm_num; linarith)
        rw [two] at this; push_cast at this; linarith
  · exact fun h1 h2 => near _ _ h2 fun e he => rel _ _ (by norm_num) h1 e he
  · exact fun h1 h2 => near _ _ h2 fun e he => rel _ _ (by norm_num) h1 e he
  · change _ → Near (p (1 / √a)) _ _
    intro h
    have ha := hm h.ne'
    rw [abs_of_pos h] at ha hM
    have hs : 0 < √a := Real.sqrt_pos.2 h
    have lo : (2 : ℝ) ^ (-75 : ℤ) ≤ √a := Real.le_sqrt_of_sq_le (le_trans (by norm_num) ha)
    have hi : √a ≤ (2 : ℝ) ^ (64 : ℤ) := Real.sqrt_le_iff.2 ⟨by positivity, (hM.trans M128).trans (by norm_num)⟩
    have up : 1 / √a ≤ (2 : ℝ) ^ (75 : ℤ) := by
      rw [div_le_iff₀ hs]
      have := mul_le_mul_of_nonneg_left lo (show (0 : ℝ) ≤ 2 ^ (75 : ℤ) by positivity)
      refine le_trans (le_of_eq ?_) this
      rw [← zpow_add₀ (by norm_num)]; norm_num
    have down : (2 : ℝ) ^ (-64 : ℤ) ≤ 1 / √a := by
      rw [le_div_iff₀ hs]
      have := mul_le_mul_of_nonneg_left hi (show (0 : ℝ) ≤ 2 ^ (-64 : ℤ) by positivity)
      refine this.trans (le_of_eq ?_)
      rw [← zpow_add₀ (by norm_num)]; norm_num
    have pos : 0 < 1 / √a := by positivity
    refine near _ _ (by rw [abs_of_pos pos]; exact up.trans M75) fun e he => ?_
    have := rel _ _ (show (2 : ℝ) ^ (-23 : ℤ) ≤ (2 : ℝ) ^ (-22 : ℤ) by norm_num)
      (by rw [abs_of_pos pos]; exact le_trans (by norm_num) down) e he
    rwa [abs_of_pos pos] at this
  · have h0 := ProbabilityTheory.cdf_nonneg (ProbabilityTheory.gaussianReal 0 1) a
    have h1 := ProbabilityTheory.cdf_le_one (ProbabilityTheory.gaussianReal 0 1) a
    have : |a * ProbabilityTheory.cdf (ProbabilityTheory.gaussianReal 0 1) a| ≤ |a| := by
      rw [abs_mul, abs_of_nonneg h0]
      exact mul_le_of_le_one_right (abs_nonneg a) h1
    exact near _ _ (this.trans hM) fun e he => wide _ _ _ (by norm_num) this e he
  · have h1 : 1 ≤ 1 + Real.exp (-a) := by linarith [Real.exp_pos (-a)]
    have : |a / (1 + Real.exp (-a))| ≤ |a| := by
      rw [abs_div, abs_of_pos (by linarith : 0 < 1 + Real.exp (-a))]
      exact div_le_self (abs_nonneg a) h1
    exact near _ _ (this.trans hM) fun e he => wide _ _ _ (by norm_num) this e he
  · have h1 := (Real.abs_tanh_lt_one a).le
    refine ⟨near _ _ (h1.trans M1) fun e he => ?_, one _ h1⟩
    simpa using wide _ _ 1 (show (2 : ℝ) ^ (-23 : ℤ) ≤ (2 : ℝ) ^ (-21 : ℤ) by norm_num) h1 e he
  · trivial

/-- A ROM that meets R182 exists: each function rounded towards zero. -/
theorem tableRom_exists : Nonempty TableRom := by
  obtain ⟨g, gv, gle, gmono, gone, gerr⟩ := exists_trunc
  choose p hp using gv
  let result (code : ℕ) (x : BitVec 32) : BitVec 32 := p (tableReal code (((num32 x).rat.getD 0 : ℚ) : ℝ))
  have value {x : BitVec 32} {a : ℝ} (h : Holds x a) (code : ℕ) : result code x = p (tableReal code a) := by
    obtain ⟨q, hq, rfl⟩ := h
    simp [result, hq]
  refine ⟨⟨result, fun code x a h => ?_, fun code hc x y a b r t hx hy hab hr ht => ?_, fun x h => ?_⟩⟩
  · rw [value h]
    exact trunc_meets p (fun y b hy hb => ⟨g y, hp y, hb _ (gerr y hy)⟩)
      (fun y hy => ⟨g y, hp y, (gle y).trans hy⟩) code a h.range.1 h.range.2
  · rw [value hx] at hr
    rw [value hy] at ht
    rw [hr.unique (hp _), ht.unique (hp _)]
    rcases hc with rfl | rfl
    · exact gmono (Real.exp_le_exp.2 hab)
    · exact gmono (tanh_monotone hab)
  · rw [value h, tableReal, Real.exp_zero]
    have := hp 1
    rwa [gone] at this

end Sys2Proof.Machine
end

