-- ==== Sys2Proof/Machine/DispatchFrames.lean ====
section
/-! DEFINITION. The bytes that expert dispatch puts on an uplink (R419, R420, R435): Ethernet, IPv6 and UDP headers and
the dispatch message. -/

namespace Sys2Proof.Machine

/-- A number in network order. -/
def netBytes (n v : Nat) : List Byte := (le n v).reverse

/-- The header of a dispatch message of a TYPE (Table 13-5). -/
def dispatchHeader (type flags payload : Nat) (m : DispatchMsg) : List Byte :=
  le 1 0x44 ++ le 1 0x58 ++ le 1 1 ++ le 1 type ++ le 1 m.cls ++ le 1 flags ++ le 2 m.gen ++ le 4 m.batchId ++
    le 2 m.layer ++ le 2 m.expert ++ le 4 m.dispatchNo ++ le 2 m.rowBytes ++ le 1 m.format ++ le 1 m.status ++
    le 2 m.credits ++ le 2 payload ++ le 4 0

/-- The datagrams of a message: one, or two fragments for a row longer than 8,192 bytes (R435). -/
def dispatchData (type : Nat) (m : DispatchMsg) : List (List Byte) :=
  let resend := ofBit (bit m.flags 0)
  if fragmentsOf m.payload = 1 then [dispatchHeader type resend m.payload.length m ++ m.payload]
  else
    let a := m.payload.take 8192
    let b := m.payload.drop 8192
    [dispatchHeader type (resend + 4) a.length m ++ a, dispatchHeader type (resend + 6) b.length m ++ b]

/-- Ones' complement sum of 16-bit words. -/
def onesSum (bs : List Byte) : Nat :=
  let v := ((List.range (ceilDiv bs.length 2)).map fun i => ofBe (slice bs (2 * i) 2)).sum
  let fold (n : Nat) : Nat := n % 65536 + n / 65536
  fold (fold (fold v))

/-- A UDP datagram with its checksum (RFC 768). -/
def udpBytes (source dest : List Byte) (from_ to_ : Nat) (data : List Byte) : List Byte :=
  let n := 8 + data.length
  let head := netBytes 2 from_ ++ netBytes 2 to_ ++ netBytes 2 n
  let sum := 65535 - onesSum (source ++ dest ++ netBytes 4 n ++ netBytes 4 17 ++ head ++ netBytes 2 0 ++ data)
  head ++ netBytes 2 (if sum = 0 then 65535 else sum) ++ data

/-- An IPv6 packet (RFC 8200): hop limit 64, ECN 0, the DSCP of the class, the flow label of the pair (R419, R420). -/
def State.ipv6Bytes (s : State) (u host cls : Nat) (dest udp : List Byte) : List Byte :=
  let dscp := s.reg (if cls = 0 then Reg.DSP_DSCP_CLASS0 else Reg.DSP_DSCP_OTHER)
  netBytes 4 (6 * 2 ^ 28 + dscp * 2 ^ 22 + (16 * host + u) % 2 ^ 20) ++ netBytes 2 udp.length ++ le 1 17 ++ le 1 64 ++
    padTo (s.blob Reg.DSP_ADDRESS) 16 ++ dest ++ udp

/-- The frames that carry a message on an uplink to a host entry (R419 to R421). -/
def State.uplinkFrames (s : State) (u host type : Nat) (h : HostEntry) (m : DispatchMsg) : List (List Byte) :=
  let dest := netBytes 16 h.address
  let source := padTo (s.blob Reg.DSP_ADDRESS) 16
  (dispatchData type m).map fun d =>
    netBytes 6 (s.reg (Reg.DSP_NEXT_HOP_MAC + 0x100 * u) % 2 ^ 48) ++
      netBytes 6 (Config.fuse (Reg.DSP_UPLINK_MAC + 0x100 * u) % 2 ^ 48) ++ netBytes 2 0x86DD ++
      s.ipv6Bytes u host m.cls dest (udpBytes source dest (s.reg Reg.DSP_UDP_PORT) h.port d)

/-- What an uplink sent last. -/
def State.lastFrames (s : State) (u : Nat) : List (List Byte) :=
  match (s.uplink u).lastSent with
  | none => []
  | some (type, host, m) => ((kget? s.dsp.hosts host).map fun h => s.uplinkFrames u host type h m).getD []

end Sys2Proof.Machine
end

