-- ==== Sys2Proof/Machine/LaceFrames.lean ====
section
/-! DEFINITION. The bytes of a lace frame (R391, R393, Tables 12-2 to 12-4): slots, headers, control messages, the
CRC, and the symbols that the four code words carry. -/

namespace Sys2Proof.Machine

/-- A flit's sideband (Table 3-1). -/
def Flit.sideband (x : Flit) : Nat :=
  let kind := match x.kind with
    | .data => 0
    | .control => 1
    | .status => 2
    | .reserved => 3
  x.seq % 256 + 2 ^ 11 * ofBit x.poison + 2 ^ 12 * ofBit x.last + 2 ^ 13 * ofBit x.first + 2 ^ 14 * kind

/-- The packet header (Table 12-3). -/
def headerBytes (h : PacketHeader) : List Byte :=
  padTo (le 1 h.dest ++ le 1 h.src ++ le 1 h.route ++ le 1 h.mclass ++ le 2 h.flits ++ le 2 h.channel ++ le 4 h.tag ++
    le 4 h.spanTag ++ le 4 h.object ++ le 1 h.op ++ le 3 0 ++ le 8 h.arg ++ le 2 h.gen) 66

def helloBytes (m : HelloMsg) : List Byte :=
  le 1 m.position ++ le 4 m.rackId ++ le 1 m.lace ++ le 1 m.width ++ le 8 m.sendFst

/-- A control message (Table 12-4). -/
def ControlMsg.bytes (m : ControlMsg) : List Byte :=
  (padTo · 66) <| match m with
    | .hello m => le 1 1 ++ helloBytes m
    | .helloAck m echo => le 1 2 ++ helloBytes m ++ le 8 echo
    | .notReady r => le 1 3 ++ le 2 r
    | .replayReq n => le 1 4 ++ le 2 n
    | .linkNotice n => le 1 5 ++ le 1 n.origin ++ le 2 n.seq ++ le 1 n.notice ++ le 1 n.subject ++ le 1 n.lace ++
        le 8 n.effective
    | .goodbye p => le 1 6 ++ le 1 p
    | .spanHello o tag mask => le 1 7 ++ le 1 o ++ le 4 tag ++ le 8 mask
    | .spanFault o seq tag l => le 1 8 ++ le 1 o ++ le 2 seq ++ le 4 tag ++ le 1 l

/-- A slot: SLOT_CTL, then its 66 bytes (R393). -/
def TxSlot.bytes : TxSlot → List Byte
  | .idle => List.replicate 67 0
  | .header vc h => le 1 (0x40 + 8 * vc) ++ headerBytes h
  | .data vc x => le 1 (0x80 + 8 * vc) ++ padTo x.bytes 64 ++ le 2 x.sideband
  | .control m => le 1 0xC0 ++ m.bytes

def TxSlot.isControl : TxSlot → Bool
  | .control _ => true
  | _ => false

/-- A credit return: VC, pool, slots. -/
def creditWord (c : Nat × Bool × Nat) : Nat := 2 ^ 13 * c.1 + 2 ^ 12 * ofBit c.2.1 + c.2.2 % 4096

/-- CRC-32 with the IEEE 802.3 polynomial; bit order, preset and complement are PRESUMED from that standard, unsafe
(log entry 47). -/
def crcBit (c : Nat) (b : Bool) : Nat :=
  if bit c 0 != b then Nat.xor (c / 2) 0xEDB88320 else c / 2

def crc32 (bs : List Byte) : Nat :=
  Nat.xor 0xFFFFFFFF (bs.foldl (fun c b => (List.range 8).foldl (fun c i => crcBit c (b.getLsbD i)) c) 0xFFFFFFFF)

/-- A frame, resent under replay or not (Table 12-2). -/
def TxFrame.bytes (f : TxFrame) (replay : Bool) : List Byte :=
  let body := le 1 (ofBit replay + 2 * ofBit f.narrow) ++ le 1 (f.slots.filter TxSlot.isControl).length ++ le 2 f.seq ++
    le 2 f.ack ++ le 2 f.epoch ++ (List.range 4).flatMap (fun i => le 2 ((f.credits[i]?.map creditWord).getD 0)) ++
    f.slots.flatMap TxSlot.bytes
  body ++ le 4 (crc32 body) ++ le 4 0

/-- Symbols of 10 bits of a frame's bytes, and those of code word k (R391). -/
def frameSymbols (bs : List Byte) : List Nat :=
  (List.range (8 * bs.length / 10)).map fun i => ofLe bs / 2 ^ (10 * i) % 1024

def codeWord (bs : List Byte) (k : Nat) : List Nat :=
  ((frameSymbols bs).zipIdx.filter fun e => e.2 % 4 = k).map (·.1)

/-- The frames that a replay sends again, from the named one on (R395). -/
def Lace.resent (a : Lace) (fromSeq : Nat) : List (List Byte) :=
  (a.replayBuffer.filter fun f => (f.seq + 65536 - fromSeq) % 65536 < 32768).map fun f => f.bytes true

end Sys2Proof.Machine
end

