-- ==== Sys2Proof/Tests/Slice0.lean ====
section
/-! SUPPORT. Tests: ill-formed commands that WellFormed refuses, and for each statement with hypotheses a concrete
state and operands that meet all of them together. -/

open Sys2Proof Sys2Proof.Machine

set_option maxRecDepth 20000

/-! ### The time base -/

/-- The state after reset with another time base. -/
def wTb (x : TimeBase) : State := { State.reset with tb := x }
def wTaken : FrefEdge := { phase := 12500, taken := true, placed := true }
def wStray : FrefEdge := { phase := 12502, taken := false, placed := false }
/-- The holdover at its limit, with a class-0 stream. -/
def wHold : State :=
  { State.reset with tb := { state := .holdover, holdSlots := 16000 }
                     srv := { streams := [(3, { (default : Stream) with cls := 0 })] } }

/-! ### The fabric -/

/-- A PORT station, terminal, that reads queue 0, and a MATMUL station. -/
def wPort : StationDesc :=
  { location := 0, kind := .port, seqCheckOff := false, terminal := true, opIndex := 0, progCount := 0, seqOffset := 0
    inQ := [0], outQ := [] }
def wArray : StationDesc := { wPort with kind := .matmul, terminal := false, opIndex := 1, inQ := [], outQ := [0] }
def wArrayOp : MatmulOp := { (default : MatmulOp) with fmtStream := 2 }
def wDie : DieSection :=
  { stations := [wPort, wArray], operations := [.port 0 1 0 [], .matmul wArrayOp], programs := []
    queues := [{ queue := 0, producer := 1, producerPort := 0, consumerPort := 0, depth := 8, rowFirst := false
                 control := false, vc := 0 }]
    sequences := [{ die := 0, offset := 0, loopStart := 0
                    entries := [{ consume := [1], produce := [], marks := 0, sub := 0, rpt := 1 }] }]
    gens := [], plans := [] }
def wImage : Image :=
  { (default : Image) with lastId := 5, die0 := wDie, die1 := { wDie with stations := [], operations := [], queues := [] } }
/-- A fabric whose active last is the image, in slot 1. -/
def wFabric (x : FabState) (q : List QueueRun) : Fabric :=
  { state := x, activeSlot := some 1, slot1 := { state := .active, lastId := 5, image := some wImage }, queues := q
    stations := [{}, {}] }
def wFlit : Flit := { kind := .data, first := true, last := true, poison := false, seq := 0, payload := 0 }
def wEnd : Flit := { wFlit with kind := .control, payload := 2 }
def wQueue : QueueRun := { number := 0, depth := 8, spill := false, credits := 8 }
def wEntry : PlanEntry :=
  { kind := .decode, cls := 1, lastId := 5, batchBucket := 2, contextBucket := 3, w := 0, cost := 0, rows := [], context := 0
    step := 0, lastPass := false, notBefore := none }
def wMaintenance : PlanEntry := { wEntry with kind := .maintenance }
def wRun : PassRun := { entry := wEntry, passNumber := 7, start := 0 }
def wVoided : PassRun := { wRun with voidCause := 4 }
def wOverrun : PassRun := { wRun with overrun := true }
def wLast : StagedLast := { (default : StagedLast) with lastId := 5, bytes := List.replicate 256 0 }
def wResident : Resident :=
  { epoch := 0, manifest := default, plan := 0, lasts := [wLast], kept := [], adapters := [], expertsZero := [], withdrawn := [] }
/-- A module that serves, with a last staged, a fabric and a planner. -/
def wServing (f : Fabric) (p : Planner) : State :=
  { State.reset with fab := f, planner := p, boot := { state := .serving }, hlk := { up := true }
                     store := { active := some wResident } }
def wComparison : Comparison :=
  { station := 1, quarter := 0, kind := .outputVector, index := 0, integer := true, expected := 1, computed := 1, gross := 0 }
def wDiffers : Comparison := { wComparison with computed := 2 }
def wSkipped : Comparison := { wComparison with computed := 0x7F800000 }
/-- A running pass, with what its queue and its two stations hold. -/
def wPass (q : QueueRun) (x : List StationRun) : State :=
  wServing { state := .running, activeSlot := some 1, slot1 := { state := .active, lastId := 5, image := some wImage }
             queues := [q], stations := x } { running := some wRun }
def wHalf : QueueRun := { wQueue with buffer := [wFlit] }
def wFlight : QueueRun := { wQueue with inFlight := [wFlit] }
def wReturn : QueueRun := { wQueue with returning := 1, credits := 7 }
def wEndHead : QueueRun := { wQueue with buffer := [wEnd, wFlit] }
def wEnded : StationRun := { passEnded := true }
/-- A running pass that has made no progress for FAB_JOIN_GUARD cycles. -/
def wStalled : State :=
  { wPass wHalf [{}, {}] with tb := { state := .locked, frame := 7 }, boot := { state := .serving, uptime := 7 } }
def wVoiding : State := wServing (wFabric .voiding [wQueue]) { running := some wVoided }
/-- A swap from slot 1 to slot 2. -/
def wSwap : State :=
  wServing { state := .swapping, activeSlot := some 1, swapTarget := some 2
             slot1 := { state := .active, lastId := 5, image := some wImage }
             slot2 := { state := .ready, lastId := 6, image := some wImage } } {}
def wSlots (x : Fabric) : State := wServing x {}
def wPortOp : PortOp := { target := 0, direction := 1, gen := 0, fields := [] }
def wReadPort : PortOp := { target := 4, direction := 0, gen := 0xFFFF, fields := [] }
/-- The image with a reading PORT of target 4. -/
def wReadImage : Image := { wImage with die0 := { wDie with operations := [.port 4 0 0xFFFF [], .matmul wArrayOp] } }
def wReadPass : State :=
  { wPass wEndHead [{}, {}] with
    fab := { wFabric .running [wEndHead] with slot1 := { state := .active, lastId := 5, image := some wReadImage } } }
def wSwitchEntry : PlanEntry := { wEntry with kind := .switchEntry }
def wResumeEntry : PlanEntry := { wEntry with resume := true }
/-- The switch entry is next, with the switch in a state. -/
def wSwitchDue (x : SwitchState) : State :=
  { wServing (wFabric .idle []) { plan := [wSwitchEntry] } with
    store := { active := some wResident, switchState := x, staged := some wResident, switchKind := 1 } }
def wSpillFlight : QueueRun := { wFlight with spill := true }
def wRowComparison : Comparison := { wComparison with kind := .row }
def wEnv : FireEnv := default

/-! ### HBM, pages -/

/-- The state after reset with another memory. -/
def wMem (x : Memory) : State := { State.reset with mem := x }
def wInsoles (x : StackState) : List Insole := [{ state := x }, {}, {}, {}, {}, {}, {}, {}, {}, {}]
def wRead : SectorRead := { id := 3, requester := .engine, mpa := 64, mode := 0, noAllocate := true, cancelled := false }
def wWrite : SectorWrite :=
  { id := 4, requester := .station 0, mpa := 64, bytes := List.replicate 64 1, mask := List.replicate 64 255
    noAllocate := true, mode := 0 }
/-- A write that station 0 has outstanding. -/
def wWriting : State :=
  { wPass wQueue [{ writes := 1 }, {}] with mem := { insoles := wInsoles .ready, writes := [wWrite] } }
/-- Margins with as many errors on either side, and those of a pin below 0.10 after retraining. -/
def wEyeGood : EyeReading := { early := 20, late := 4, eye := 13, retrained := 0 }
def wEyeLate : EyeReading := { early := 3, late := 20, eye := 64, retrained := 0 }
def wEyeBad : EyeReading := { early := 0, late := 0, eye := 12, retrained := 6 }
def wPage (x : PageState) : PageEntry := { frame := 2, hostValid := true, state := x }
def wMove : PageMove := { out := true, left := [1], moved := 0 }
def wStream : Stream := { (default : Stream) with state := .idle, cls := 1 }
/-- Stream 3 and its page 1. -/
def wPages (x : Pages) : State :=
  { State.reset with pages := x, srv := { streams := [(3, wStream)] }, hlk := { up := true } }
/-- A read and a write of the sector that write 4 goes to, both asked for after it. -/
def wLaterRead : SectorRead := { wRead with id := 5 }
def wLaterWrite : SectorWrite := { wWrite with id := 6 }
def wBusySector : State := wMem { insoles := wInsoles .ready, reads := [wLaterRead], writes := [wWrite, wLaterWrite] }
def wTwoPins : List Insole := [{ state := .init, degraded := [3, 4] }, {}, {}, {}, {}, {}, {}, {}, {}, {}]
def wDirtyPage : PageEntry := { wPage .movingOut with dirty := true }

/-! ### The store -/

def wFlash (x : StoreStackState) : List StoreStack := [{ state := x }, {}, {}, {}, {}, {}, {}, {}]
/-- The state after reset with another store, in a module that serves. -/
def wStore (x : Store) : State := { State.reset with store := x, boot := { state := .serving }, hlk := { up := true } }
/-- A block whose read-disturb counter has reached STO_DISTURB_LIMIT. -/
def wDisturbed : State := wStore { flash := [{ state := .ready, disturb := [(9, 1000000)] }, {}, {}, {}, {}, {}, {}, {}] }
/-- A PORT station with a read of the store outstanding. -/
def wStorePort : Image := { wImage with die0 := { wDie with operations := [.port 2 0 0 [], .matmul default] } }
def wPortRead : PortRead :=
  { id := 11, width := 8, lead := 0, elems := [some (0, [64])], ask := [], wants := [11], first := true, last := true, seq := 0 }
def wStoreRead : State :=
  { State.reset with fab := { state := .running, activeSlot := some 0, slot0 := { state := .active, image := some wStorePort }
                              stations := [{ reads := [wPortRead] }, {}] } }
def wShard : Shard :=
  { digest := [], size := 64, kind := 1, die := 0, expert := 0, optional := false, present := true, corrupt := false
    data := [], patrolFails := 2 }
def wPackage : StoredPackage := { manifest := { (default : Manifest) with tag := 21 }, kind := 1, baseTag := 0, shards := [wShard] }
def wAdapters : StoredPackage := { wPackage with manifest := { (default : Manifest) with tag := 22 }, kind := 2, baseTag := 21 }
def wTarget : Resident := { wResident with manifest := { (default : Manifest) with tag := 21 }, lasts := [] }
def wStaging : Staging := { epochOnly := false, order := [(21, 0)], next := 0, attempts := 1, target := wTarget }
def wStaged : Staging := { wStaging with next := 1 }
def wRefetch : Resident := { wTarget with refetching := [0] }
def wBundle : BundleRead := { bytes := [], readError := false }
def wNoBundle : BundleRead := { bytes := [], readError := true }
/-- A store operation that runs, with the bulk window laid over its bundle. -/
def wOperation (cmd : Nat) : State :=
  { wStore { catalogue := [wPackage], opState := .running, opCmd := cmd, opTag := 21 } with
    regs := [(Reg.STO_OP_SOURCE, 0x100000000000)] }
def wRunningSlot : Fabric := wFabric .idle []
/-- A switch to package 21 that has reached its commit point. -/
def wSwitching : State :=
  { wStore { catalogue := [wPackage], switchState := .switching, switchKind := 1, staged := some wTarget } with
    fab := wRunningSlot }
def wAllServe : List StoreStack :=
  [{ state := .ready }, { state := .ready }, { state := .ready }, { state := .ready }, { state := .ready },
   { state := .ready }, { state := .ready }, { state := .ready }]
/-- A package whose one image serves every mask, and its store. -/
def wImageBytes : List Byte :=
  List.replicate 8 0 ++ [0, 1, 0, 0] ++ [0, 0, 3, 0] ++ List.replicate 32 255 ++ List.replicate 208 0
def wLastEntry : LastEntry :=
  { digest := [], role := 0, quadrants := 6, dieQuads := 0, spillPlan := 0, safe := false, residentSafe := false, shard := 0
    offset := 0 }
def wModel : StoredPackage :=
  { manifest := { (default : Manifest) with tag := 21, lasts := [wLastEntry] }, kind := 1, baseTag := 0
    shards := [{ wShard with kind := 2, size := 256, data := wImageBytes }] }
def wSwitchStore : Store := { flash := wAllServe, catalogue := [wModel] }
def wEpochStore : Store := { wSwitchStore with active := some { wTarget with manifest := wModel.manifest } }
def wNext (s : State) (kind : Nat) : Resident × Nat :=
  match s.switchPlan kind 21 0xFF with
  | .ok r => r
  | .error _ => (wTarget, 77)

/-! ### Intake and seals -/

/-- The package of these streams: one last for every mask, one cell for up to 256 rows. -/
def wServedLast : StagedLast :=
  { wLast with passKind := 3, placement := 2 ^ 256 - 1, maxAdapterRuns := 8
               wcet := { batch := [256], context := [4096], axis := 0, cells := [[some 1000]] } }
def wServed : Resident :=
  { wResident with manifest := { (default : Manifest) with maxContext := 4096 }, lasts := [wServedLast] }
/-- A module that serves and reads its intake ring. -/
def wIntake (v : Serving) : State :=
  { State.reset with srv := v, store := { active := some wServed }, boot := { state := .serving }, hlk := { up := true }
                     tb := { state := .locked } }
def wReading : Intake := { left := 4 }
def wNop : IntakeRecord := { ringSeq := 0, kind := 0, flags := 0, stream := 3 }
def wLate : IntakeRecord := { wNop with ringSeq := 1 }
def wOpen : IntakeRecord :=
  { wNop with kind := 1, cls := 1, inputUnits := 1, maxNew := 1, maxContext := 16, adapter := 0xFFFF, firstDeadline := 1
              tokenDeadline := 1, outEntries := 16, outEntryBytes := 8 }
def wOpen0 : IntakeRecord := { wOpen with cls := 0, firstDeadline := 0, tokenDeadline := 0 }
def wAppend : IntakeRecord := { wNop with kind := 2, inputUnits := 1, maxNew := 1 }
def wCancel : IntakeRecord := { wNop with kind := 3 }
def wClose : IntakeRecord := { wNop with kind := 4 }
def wPark : IntakeRecord := { wNop with kind := 5 }
def wUnpark : IntakeRecord := { wNop with kind := 6, ringSeq := 0, stream := 8191 }
def wIdle : Stream := { (default : Stream) with state := .idle, cls := 1, openedCls := 2, keep := true, maxContext := 16, adapter := 0xFFFF }
def wTurn : Turn := { (default : Turn) with units := 1, maxNew := 1, copied := true }
def wBusy : Stream := { wIdle with state := .active, turn := some wTurn }
def wParked : Stream := { wIdle with state := .parked }
/-- An intake read in progress, with one stream. -/
def wOne (n : Nat) (x : Stream) : State := wIntake { intake := wReading, streams := [(n, x)] }
def wGrant : Grant :=
  match (wIntake { intake := wReading }).testFor wServed { stream := 3, adapter := 0xFFFF, prompt := 1, context := 0, maxContext := 16 } none 0 with
  | .ok g => g
  | .error _ => default
def wStepEntry : PlanEntry :=
  { wEntry with rows := [{ stream := 3, adapter := 0xFFFF, position := 0, units := 1, output := true }], step := 9 }
def wStep : StepRun :=
  { number := 9, cls := 1, phase := 0, epoch := 0, packageTag := 0, entries := [wStepEntry], started := true, complete := true }
/-- A step of the stream in flight. -/
def wFlying : State := { wOne 3 wBusy with planner := { steps := [wStep] } }
def wSealRow : SealRow := { stream := 3, entry := true, late := true, output := true }
def wSeal : Seal := { step := 9, fst := 0, rows := [wSealRow], committed := true, saved := [] }
/-- A module whose rings are set, between reads, with a complete step. -/
def wRings (v : Serving) : State :=
  { wIntake v with regs := [(Reg.SRV_COMP_UNITS, 64)], planner := { steps := [wStep] } }
def wNotice : Notice := { stream := 3, status := 0, reqTag := 0, kind := 2, flags := 0, data := 0 }

/-! ### Sync objects -/

/-- A SYNC station with one input in use, and an operation of its. -/
def wSyncImage (opcode object arg : Nat) : Image :=
  { wImage with die0 :=
    { wDie with stations := [{ wPort with kind := .sync, terminal := false, outQ := [1] }]
                operations := [.sync opcode object (le 4 arg ++ [0, 0, 1, 0])] } }
/-- A running pass with a tile at the head of that input, on a module at position 9. -/
def wSync (opcode object arg : Nat) (y : Sync) : State :=
  { wServing { state := .running, activeSlot := some 1, stations := [{}]
               slot1 := { state := .active, lastId := 5, image := some (wSyncImage opcode object arg) }
               queues := [{ number := 0, depth := 8, spill := false, credits := 8, buffer := [wFlit] }] }
      { running := some wRun } with syn := y, lce := { position := some 9 } }
def wBroken : SyncObj := { state := .broken, cause := 3 }
def wNode : SyncObj := { barrier := true, spanNode := true, root := true, target := 2 }
def wReleasing : SyncObj := { wNode with state := .releasing }
def wComplete : SyncObj := { wNode with state := .complete }
def wReopening : SyncObj := { wNode with state := .reopening }
def wWait : WaitReg := { module := 4, station := 1, input := 2, threshold := 3, consume := true }
def wRegistered : Participant := { registered := true, heldSince := some 0 }
def wContext : SavedContext :=
  { run := wRun, queues := [wQueue], stations := [], params := [], acc := [], closed := [], marked := [], overflowed := []
    sets := [], setPads := [], setSeen := [], saveFst := 0, mask := 0xFF, remoteGen := 0, checkMode := 1, checkTol := 14
    passMismatches := 0, batch := default, sram := [(1, 2)], lastId := 5, pair := 0, reads := 0, guard := 0, elapsed := 0, saveCycles := 0, releases := []
    participants := [(0, wRegistered)], tileObjs := [(0, wNode)] }
def wSpan (y : Sync) : State := { State.reset with syn := y, lce := { position := some 9 } }
/-- Module 9 with modules 10 and 17 as its children. -/
def wTree (y : Sync) : State :=
  { State.reset with syn := y, lce := { position := some 9, spanMask := 0x20600 } }
def wOp (opcode object arg : Nat) : SyncOp :=
  { opcode := opcode, object := object, arg := arg, guard := 0, ports := 1, consume := false, location := 0 }
def wTileRef : ObjRef := { bank := false, key := 0 }
def wBankRef : ObjRef := { bank := true, key := 4101 }
def wUncounted : SyncObj := { wNode with target := 0 }
def wHeldLong : Sync := { participants := [(0, { heldSince := some 0, heldBefore := 2 ^ 40 })] }
def wWaits : Sync := { participants := [(0, wRegistered)] }
def wNearlyFull : Sync := { tiles := [(0, { value := 4294967294 })] }
def wBrokenTile : Sync := { tiles := [(0, wBroken)] }

/-! ### Laces -/

/-- A module at position 9 with laces like this one. -/
def wTorus (a : Lace) : Torus := { laces := [a, a, a, a], position := some 9 }
def wLaces (a : Lace) : State := { State.reset with lce := wTorus a }
def wIn (x : LaceState) (cause : Nat) : State := wLaces { state := x, cause := cause }
def wUp : State := wIn .up 0
def wHelloMsg : HelloMsg := { position := 10, rackId := 0, lace := 1, width := 0, sendFst := 0 }
def wWrongHello : HelloMsg := { wHelloMsg with position := 11 }
def wFrame : LaceFrame :=
  { correctable := true, corrected := 1, crcGood := true, replay := false, narrow := false, ctlCount := 0, frameSeq := 0
    ackSeq := 65535, linkEpoch := 0, credits := [], slots := [.idle] }
def wGarbled : LaceFrame := { wFrame with correctable := false }
def wBadCrc : LaceFrame := { wFrame with crcGood := false }
def wAhead : LaceFrame := { wFrame with frameSeq := 1 }
def wStale : LaceFrame := { wFrame with linkEpoch := 2 }
def wLinkNotice (n : Nat) : LinkNoticeMsg := { origin := 3, seq := 5, notice := n, subject := 12, lace := 2, effective := 0 }
/-- Modules 9 and 10 make a span, whose pass runs. -/
def wSpanned : State :=
  { State.reset with lce := { wTorus { state := .up } with spanMask := 0x600, spanTag := 7 }
                     planner := { running := some wRun } }
def wStreaming : State := { wUp with srv := { streams := [(3, wIdle)] } }
def wDrained : State := { wIn .leaving 0 with pwr := { drainEffective := true } }
def wDark : State :=
  { wUp with lce := { wTorus { state := .up } with laserB := [false, false, false, false, false, false] } }
def wAged (u : Nat) (s : State) : State := { s with boot := { uptime := u } }
def wSlow : State := wAged 400 (wIn .training 0)
def wMiswired : State := wAged 400 (wIn .down 4)

/-! ### Expert dispatch -/

/-- A serve station of layer 0 and expert 1, and a pool pass that runs since reset. -/
def wServeImage : Image :=
  { wImage with die0 := { wDie with stations := [wPort], operations := [.port 5 1 0 (le 2 0 ++ le 2 1 ++ le 2 64 ++ List.replicate 18 0)] } }
def wHost : HostEntry :=
  { address := 77, port := 0, switch := 0, valid := true, sends := true, serves := true, credits := 4, rackId := 0, position := 0 }
def wUplink : Uplink := { state := .up }
def wDownlink : Uplink := { state := .down }
def wPool (d : Dispatch) : State :=
  { wServing { state := .running, activeSlot := some 1, stations := [{}]
               slot1 := { state := .active, lastId := 5, image := some wServeImage } }
      { running := some wRun } with dsp := d, regs := [(Reg.DSP_ROLE, 2)] }
def wBatch (cs : List Choice) (cap : Nat) : Dispatch :=
  { uplinks := [wUplink], hosts := [(2, wHost)], batchId := some 9, choices := cs
    serveMap := [{ layer := 0, expert := 1, capacity := cap }] }
def wGood : FrameCheck := { tagged := false, extension := false, checksumGood := true, addressed := true }
def wTagged : FrameCheck := { wGood with tagged := true }
def wMessage : DispatchMsg :=
  { source := 77, good := true, cls := 1, flags := 0, gen := 0, batchId := 9, layer := 0, expert := 1, dispatchNo := 6
    rowBytes := 64, format := 0, status := 0, credits := 1, payload := [1] }
def wChoice : Choice :=
  { no := 6, gen := 0, host := 2, layer := 0, expert := 1, station := 0, row := 0, rank := 0, sentAt := 0, resent := false
    sent := true, msg := wMessage }
def wResent : Choice := { wChoice with resent := true }
/-- Credits of a cancelled dispatch are out. -/
def wCancelled : Dispatch := { wBatch [] 1 with cancelled := [{ batch := 1, gen := 0, host := 2, no := 5, since := 0 }], gen := 1 }
def wUplinks (u : Uplink) : State := { State.reset with dsp := { uplinks := List.replicate 32 u } }
def wHostBytes : List Byte := List.replicate 32 0
def wMapBytes : List Byte := [0, 0, 1, 0, 2, 0, 4, 0]
def wServeBytes : List Byte := [0, 0, 1, 0, 2, 0, 0, 0]
def wWindowBytes : List Byte := [0, 4, 1, 0]
def wServeOp : PortOp :=
  { target := 5, direction := 1, gen := 0, fields := le 2 0 ++ le 2 1 ++ le 2 64 ++ List.replicate 18 0 }
def wTimedOut (c : Choice) : State := { wPool (wBatch [c] 1) with boot := { uptime := 5000 } }
def wOwn : Choice := { wChoice with host := 0xFFFF }

/-! ### The host link -/

def wHostModule : UcieModule := { state := .active }
def wLinked (u : UcieModule) : State := { State.reset with hlk := { modules := [u, {}, {}, u], up := true } }
def wModule (x : UcieState) : State := wLinked { state := x }
def wReadAccess : HostAccess :=
  { die := 0, write := false, offset := 0, chunks := 1, headSkip := 0, tailSkip := 0, bytes := [], req := .window 0 }
def wWriteAccess : HostAccess := { wReadAccess with write := true, req := .notice }
def wReadOut : HostOutstanding := { tag := 5, address := 0, access := wReadAccess }
def wWriteOut : HostOutstanding := { tag := 5, address := 0, access := wWriteAccess }
def wOutstanding (o : HostOutstanding) : State := wLinked { state := .active, outstanding := [o] }
def wOldOut : HostOutstanding := { wReadOut with oldTranslation := true }
def wCached : State :=
  { State.reset with hlk := { att0 := [{ entry := 0, bits := 7 }, { entry := 9, bits := 7 }]
                              modules := [{ state := .active, outstanding := [wReadOut] }, {}, {}, {}] }
                     regs := [(Reg.HLK_WIN_SIZE, 2097152)] }
def wInvalidating (o : HostOutstanding) : State :=
  { State.reset with hlk := { invPending := 1, modules := [{ state := .active, outstanding := [o] }, {}, {}, {}] } }
def wChunk : List Byte := List.replicate 64 1
def wReadTwo : HostOutstanding := { wReadOut with access := { wReadAccess with chunks := 2 } }
def wFailing : State := wLinked { state := .retrain, retrainFails := [3, 1] }

/-! ### The dictionary -/

/-- A module that serves its dictionary. -/
def wDict (d : Dict) : State := { State.reset with boot := { state := .serving, slots := 5000 }, dict := d }
def wAsk (tx : Nat) : Request := { session := .slot 15, reqId := 77, txId := tx }
def wOpenTx : Tx := { id := 3, session := .slot 15 }
def wIdleTx : Tx := { wOpenTx with idle := 2 ^ 32 }
def wInTx : State := wDict { txs := [wOpenTx] }
/-- The state in which a request of slot 15 is served. -/
def wCounted (s : State) (tx : Nat) : State := (s.counted 5 []).touchTx (wAsk tx)
def wRow (index sub : Nat) : ObjRow := (objRow index sub).getD default
def wItem : WriteItem := { index := 0x2010, sub := 3, type := (wRow 0x2010 3).type.code, value := [0, 16, 0, 0] }
def wFieldAsk : Request := { session := .field 1 2, reqId := 77, txId := 0, multicast := true, allNodes := true }
def wBeginAsk : Request := { session := .field 1 2, reqId := 77, txId := 0 }
def wDelayed : Nat × Request × List (Nat × Nat) := (0, wFieldAsk, [(0x1000, 1)])
def wField (d : Dict) : State := wDict { d with field := .inCycle, addressUsed := true }
def wWaiting : State := wField { delayed := [wDelayed] }
def wMulticast : State := wWaiting.counted 5 []
def wGuarded : State := { wField {} with regs := [(Reg.HLK_FIELD_WRITE_ENABLE, 0)] }
def wSlotFull : State :=
  { wDict {} with hlk := { slots := [{ seq := 1, request := [0x44, 0x41, 1, 0x10] }] } }

/-! ### Reliability -/

def wQuads (x : Quadrant) : State := { State.reset with ras := { quads := List.replicate 8 x } }
def wAwlTest : AwlTest := { id := 5, target := 0, destructive := true, cycles := 8, expect := 9 }
def wTested : Quadrant := { state := .fenced, running := true, run := [(0, wAwlTest)] }
def wStruck : State := { wQuads { strikes := [0] } with regs := [(Reg.RAS_STRIKE_WINDOW, 1)], tb := { frame := 7 } }
def wStruckNow : State := { wQuads { strikes := [65536 * 256 * 7] } with regs := [(Reg.RAS_STRIKE_WINDOW, 1)], tb := { frame := 7 } }
def wClean : Quadrant := { state := .fenced, awlClean := true }
/-- The header of a pattern-set image of 64 bytes. -/
def wAwlImage : List Byte :=
  le 4 0x504C5741 ++ le 2 0x0100 ++ le 2 0x00B1 ++ le 2 5 ++ le 2 1 ++ le 4 64 ++ le 2 1 ++ List.replicate 46 0
def wPersist (n : Nat) : State :=
  { State.reset with ras := { persist := List.replicate n [1], persistWrite := some [2], persistQueue := [[3]] } }
def wNoBytes : List Byte := []

/-! ### Power -/

def wDomains (x : Domain) : State := { State.reset with pwr := { domains := List.replicate 20 x } }
def wOff : Domain := { state := .off }
def wOn : Domain := { state := .on }
def wStarting : Domain := { state := .starting }
def wStopping : Domain := { state := .stopping }
def wRested : Domain := { state := .off, minOff := true }
def wOwed : Domain := { state := .off, minOff := true, pending := 15 }
def wAbsent : Domain := { state := .unpopulated }
/-- XU is ON, and every other domain is in this state. -/
def wPowered (x : Domain) : State := { State.reset with pwr := { domains := List.replicate 19 x ++ [wOn] } }
def wFencedQuads (x : Domain) : State :=
  { wPowered x with ras := { quads := List.replicate 8 { state := .fenced } } }
def wPower (p : Power) : State := { State.reset with pwr := p }
/-- Lower caps for the CAP_FAST levels 1 to 3. -/
def wCaps (p : Power) : State := { State.reset with pwr := p, regs := [(0x602003, State.reset.part.minCap)] }
def wNotices : State :=
  { State.reset with pwr := { drainEffective := true }, srv := { notices := [(31, [wNotice])] } }

/-! ### Start-up -/

/-- A module that comes up, `n` slots after the ROM start, with XU on. -/
def wBringUp (n : Nat) (x : Domain) : State := { wPowered x with boot := { state := .bringUp, slots := n } }
def wBoot (b : Boot) : State := { State.reset with boot := b }
def wCool : BringupEnv := { memories := [], temperature := 2500 }
def wReady : State :=
  { wBoot { state := .ready } with regs := [(Reg.SRV_INTAKE_ENTRIES, 64), (Reg.SRV_COMP_UNITS, 64)], hlk := { up := true } }
def wHeldReset : State := { wPower { stopping := some (.reset 4) } with boot := { resetHeld := true } }
/-- A firmware image whose header fits its 20 bytes. -/
def wFirmware : List Byte := le 4 0x444E4149 ++ le 2 0x0100 ++ le 2 0x00B1 ++ le 4 1 ++ le 4 1 ++ le 4 20
def wLoading : State := wBoot { state := .ready, loadState := .running, loadImage := wFirmware }
def wLoadingFailed : State := wBoot { state := .bootFailed, loadState := .running, loadImage := wFirmware }
def wRunningOp : State := { State.reset with store := { opState := .running } }

/-! ### Security and boundaries -/

def wSec (c : Security) : State := { State.reset with sec := c }
def wOwned : State := wSec { owners := [.enrolled [1] [2], .free, .free, .free] }
def wDue : State := { State.reset with tb := { boundaryDue := true } }
def wScheduled : Tx := { id := 3, session := .slot 0, state := .scheduled }
def wCommitting (i : List StagedItem) : State :=
  { wDict { txs := [{ wScheduled with items := i }] } with tb := { boundaryDue := true } }
def wBadItem : StagedItem := { index := 0x1300, sub := 2, domain := false, value := [1] }
def wRefusing : Tx := { wScheduled with items := [wBadItem] }
def wEarly (s : State) : State :=
  s.earlyBoundary default (decide (s.tb.slot = 0) && s.tb.state != .acquiring)
def wDueInReset : State := { wDue with pwr := { stopping := some (.reset 4), stopLeft := [[19]] } }

/-! ### General -/

def wQueued : State :=
  { State.reset with mem := { sram := [(5, 7)] }, pending := [.flywheelBoundary, .frefEdge 12500] }
def wAt (x : TbState) (slot frame : Nat) : TimeBase := { state := x, slot := slot, frame := frame, cyc := 156249 }
def wEvent : Event := { fst := 0, code := 5, group := 1, arg0 := 2, arg1 := 3, arg2 := 4 }
def wLinkUp : State := { (State.reset.setReg Reg.SRV_EVENT_ENTRIES 64) with hlk := { State.reset.hlk with up := true } }

/-! ### Well-formed commands -/

theorem test_ill_formed_slots :
    Instr.wellFormed .a (.loadRequest 4 0) = false ∧ Instr.wellFormed .a (.slotFreeRequest 4) = false := by decide

theorem test_ill_formed_stacks :
    Instr.wellFormed .a (.patrolScrubRead 0 8 0 [] false) = false ∧
    Instr.wellFormed .n (.eyeAdjust 0 6 0 0 default) = false ∧ Instr.wellFormed .m (.stackInitComplete 10) = false ∧
    Instr.wellFormed .m (.stackInitComplete 9) = true := by decide

theorem test_ill_formed_places_in_a_stack :
    Instr.wellFormed .a (.patrolScrubRead 0 0 805306368 [] false) = false ∧
    Instr.wellFormed .a (.eyeAdjust 0 0 64 0 default) = false ∧
    Instr.wellFormed .a (.eyeAdjust 0 0 0 34 default) = false := by decide

theorem test_ill_formed_store_stacks :
    Instr.wellFormed .a (.blockRelocate 0 8 0) = false ∧ Instr.wellFormed .a (.stoStackInitComplete 8 0 0) = false ∧
    Instr.wellFormed .a (.storeStackFailure 0 8) = false := by decide

theorem test_ill_formed_groups : Instr.wellFormed .a (.noticeWrite 0 32) = false := by decide

theorem test_ill_formed_lace_messages :
    Instr.wellFormed .a (.laceFrameReceived 0 4 default) = false ∧ Instr.wellFormed .a (.replayReq 0 4 0) = false ∧
    Instr.wellFormed .a (.hello 0 4 default) = false ∧ Instr.wellFormed .a (.helloAck 0 4 default 0) = false ∧
    Instr.wellFormed .a (.notReady 4 0) = false ∧ Instr.wellFormed .a (.linkNotice 0 4 default) = false ∧
    Instr.wellFormed .a (.goodbye 0 4 0) = false ∧ Instr.wellFormed .a (.spanHello 0 4 0 0 0) = false ∧
    Instr.wellFormed .a (.spanFault 0 4 0 0 0 0) = false := by decide

theorem test_ill_formed_lace_events :
    Instr.wellFormed .a (.laceLightDetected 4) = false ∧ Instr.wellFormed .a (.laceTrainingComplete 0 4) = false ∧
    Instr.wellFormed .a (.laceTrainingTimeout 0 4) = false ∧ Instr.wellFormed .a (.laceMiswiredRetry 4) = false ∧
    Instr.wellFormed .a (.ringHeaterStep 0 4 false false 0) = false ∧
    Instr.wellFormed .a (.laceLightLost 0 4) = false ∧ Instr.wellFormed .a (.leavingDrained 0 4) = false := by decide

theorem test_ill_formed_eyelets :
    Instr.wellFormed .m (.laserInputLost 0 2 0) = false ∧ Instr.wellFormed .n (.laserInputLost 0 5 2) = false ∧
    Instr.wellFormed .m (.laserInputReturn 0 2 0) = false ∧ Instr.wellFormed .n (.laserInputReturn 0 5 2) = false := by
  decide

theorem test_ill_formed_uplinks :
    Instr.wellFormed .a (.uplinkUp 0 16) = false ∧ Instr.wellFormed .n (.uplinkDown 0 32 0) = false ∧
    Instr.wellFormed .a (.dispatch 0 16 default default) = false ∧
    Instr.wellFormed .a (.returnMsg 0 16 default default) = false ∧
    Instr.wellFormed .a (.batchEnd 0 16 default default) = false ∧
    Instr.wellFormed .a (.dispatchCancel 0 16 default default) = false ∧
    Instr.wellFormed .a (.credit 0 16 default default) = false ∧
    Instr.wellFormed .a (.uplinkNeighborSolicitation 16 0) = false := by decide

theorem test_ill_formed_ucie_modules :
    Instr.wellFormed .a (.ucieTrainingComplete 0 4 true 32 0) = false ∧
    Instr.wellFormed .a (.ucieTrainingRetry 4) = false ∧ Instr.wellFormed .a (.ucieCrcError 0 4 true) = false ∧
    Instr.wellFormed .a (.ucieRetrainComplete 0 4 true 0) = false ∧
    Instr.wellFormed .a (.readData 0 4 0 0 false true []) = false ∧
    Instr.wellFormed .a (.writeAck 0 4 0 0) = false ∧ Instr.wellFormed .a (.winWrite 0 4 0 0 0 0 []) = false ∧
    Instr.wellFormed .a (.winRead 0 4 0 0 1) = false ∧ Instr.wellFormed .a (.ucieCredit 0 4 0 0) = false ∧
    Instr.wellFormed .a (.ucieProtocolError 0 4) = false ∧ Instr.wellFormed .a (.hostReadTimeout 0 4 0) = false ∧
    Instr.wellFormed .a (.hostWriteTimeout 0 4 0) = false := by decide

theorem test_ill_formed_quadrants :
    Instr.wellFormed .a (.strikeExpire 8) = false ∧ Instr.wellFormed .a (.fenceCmd 0 8) = false ∧
    Instr.wellFormed .a (.unfenceCmd 0 8) = false ∧ Instr.wellFormed .a (.awlTestComplete 0 8 0) = false ∧
    Instr.wellFormed .a (.awlRunTargeted 8) = false ∧ Instr.wellFormed .a (.awlRunDestructive 8) = false := by decide

theorem test_ill_formed_domains :
    Instr.wellFormed .a (.domainEnable 0 20) = false ∧ Instr.wellFormed .a (.domainDisable 0 20) = false ∧
    Instr.wellFormed .a (.domainStartComplete 0 20) = false ∧ Instr.wellFormed .a (.domainStopComplete 0 20) = false ∧
    Instr.wellFormed .a (.minOffTimeExpiry 0 20) = false ∧ Instr.wellFormed .a (.domainTimeout 0 20) = false ∧
    Instr.wellFormed .a (.domainRailFault 0 20 1) = false ∧ Instr.wellFormed .a (.faultClear 20 1) = false ∧
    Instr.wellFormed .a (.capFastLevelChange 0 4) = false := by decide

theorem test_ill_formed_start_items :
    Instr.wellFormed .a (.bringupItemStart 0 10 8 default) = false ∧
    Instr.wellFormed .a (.bringupItemStart 0 14 0 default) = false ∧
    Instr.wellFormed .a (.bringupItemStart 0 0 1 default) = false ∧
    Instr.wellFormed .a (.bringupTimeout 0 14) = false := by decide

theorem test_ill_formed_subindexes :
    Instr.wellFormed .a (.ringConfigCommit 0 0) = false ∧ Instr.wellFormed .a (.ringConfigCommit 8 0) = false ∧
    Instr.wellFormed .a (.dspTableCommit 5 []) = false ∧ Instr.wellFormed .a (.dspTableCommit 10 []) = false := by decide

/-- The host link has 16 request slots. -/
def wNoSlot : Request := { session := .slot 16, reqId := 1, txId := 0 }

theorem test_ill_formed_sessions :
    Instr.wellFormed .a (.dapMessageMalformed 0 (.slot 16) 0) = false ∧
    Instr.wellFormed .a (.read 0 wNoSlot []) = false ∧ Instr.wellFormed .a (.write 0 wNoSlot []) = false ∧
    Instr.wellFormed .a (.readSegment 0 wNoSlot 0 0 0 0 0) = false ∧
    Instr.wellFormed .a (.writeSegment 0 wNoSlot 0 0 true 0 0 []) = false ∧
    Instr.wellFormed .a (.begin 0 wNoSlot) = false ∧ Instr.wellFormed .a (.commit 0 wNoSlot 0) = false ∧
    Instr.wellFormed .a (.rollback 0 wNoSlot) = false ∧ Instr.wellFormed .a (.txStatus 0 wNoSlot) = false := by decide

theorem test_ill_formed_command_faults :
    exec (.goodbye 0 4 0) State.reset = .fault .noSuchUnit ∧ exec (.fenceCmd 0 8) State.reset = .fault .noSuchUnit ∧
    exec (.domainEnable 0 20) State.reset = .fault .noSuchUnit ∧
    exec (.uplinkUp 0 16) State.reset = .fault .noSuchUnit := ⟨rfl, rfl, rfl, rfl⟩

/-! ### Values from the spec's examples and tables -/

/-- Table 2-1: FRAME in bits 63 to 24, SLOT in 23 to 16, FRACTION in 15 to 0. -/
theorem test_fst_fields : fstOf 1 2 3 = 0x1020003 := by decide

/-- R42: a slot boundary after slot 159 carries into FRAME. -/
theorem test_last_slot_of_a_frame :
    ((wAt .locked 159 5).place.slot, (wAt .locked 159 5).place.frame) = (0, 6) := by decide

/-- R47, Table 2-2: the block after reset is ACQUIRING, and its FST reads 0. -/
theorem test_reset_acquires : State.reset.tb.state = .acquiring ∧ State.reset.fst = 0 := by decide

/-! ### Witnesses -/

theorem witness_edge_at_window_start :
    (wTb { state := TbState.locked }).tb.edge = none ∧
    ((wTb { state := TbState.locked }).tb.state = TbState.locked ∨
      (wTb { state := TbState.locked }).tb.state = TbState.acquiring) ∧
    12498 ≤ 12498 ∧
    12498 ≤ 12502 ∧
    (wTb { state := TbState.locked }).tb.slot < 160 := by decide

theorem witness_edge_at_window_end :
    (wTb { }).tb.edge = none ∧
    ((wTb { }).tb.state = TbState.locked ∨ (wTb { }).tb.state = TbState.acquiring) ∧
    12498 ≤ 12502 ∧
    12502 ≤ 12502 ∧
    (wTb { }).tb.slot < 160 := by decide

theorem witness_edge_after_slot_159 :
    (wTb { state := TbState.locked, slot := 159 }).tb.edge = none ∧
    ((wTb { state := TbState.locked, slot := 159 }).tb.state = TbState.locked ∨
      (wTb { state := TbState.locked, slot := 159 }).tb.state = TbState.acquiring) ∧
    12498 ≤ 12500 ∧
    12500 ≤ 12502 ∧
    (wTb { state := TbState.locked, slot := 159 }).tb.slot < 160 := by decide

theorem witness_edge_outside_window :
    (wTb { state := TbState.locked }).tb.edge = none ∧
    ((wTb { state := TbState.locked }).tb.state = TbState.acquiring →
      (wTb { state := TbState.locked }).tb.validRun ≠ 0) ∧
    (12497 < 12498 ∨ 12502 < 12497) := by decide

theorem witness_edge_outside_window_above :
    (wTb { state := TbState.holdover }).tb.edge = none ∧
    ((wTb { state := TbState.holdover }).tb.state = TbState.acquiring →
      (wTb { state := TbState.holdover }).tb.validRun ≠ 0) ∧
    (12503 < 12498 ∨ 12502 < 12503) := by decide

theorem witness_edge_after_a_stray_one :
    (wTb { state := TbState.locked, edge := some wStray }).tb.edge = some wStray ∧
    wStray.taken = false ∧
    12498 ≤ wStray.phase ∧
    wStray.phase ≤ 12502 := by decide

theorem witness_pulse_normal :
    (wTb { state := TbState.locked, edge := some wTaken }).tb.state = TbState.locked ∧
    (wTb { state := TbState.locked, edge := some wTaken }).tb.edge = some wTaken ∧
    wTaken.taken = true ∧
    8 ≤ 8 ∧
    8 ≤ 24 := by decide

theorem witness_pulse_invalid :
    (wTb { state := TbState.locked, edge := some wTaken, missRun := 3 }).tb.state = TbState.locked ∧
    (wTb { state := TbState.locked, edge := some wTaken, missRun := 3 }).tb.edge = some wTaken ∧
    wTaken.taken = true ∧
    (39 < 8 ∨ 24 < 39 ∧ 39 < 40 ∨ 120 < 39) ∧
    wTaken.placed = true := by decide

theorem witness_pulse_too_long :
    (wTb { state := TbState.locked, edge := some wTaken }).tb.state = TbState.locked ∧
    (wTb { state := TbState.locked, edge := some wTaken }).tb.edge = some wTaken ∧
    wTaken.taken = true ∧
    (121 < 8 ∨ 24 < 121 ∧ 121 < 40 ∨ 120 < 121) ∧
    wTaken.placed = true := by decide

theorem witness_flywheel_in_holdover :
    (wTb { state := TbState.holdover }).tb.edge = none ∧
    (wTb { state := TbState.holdover }).tb.slot < 160 ∧
    (wTb { state := TbState.holdover }).tb.state ≠ TbState.acquiring := by decide

theorem witness_flywheel_opens_holdover :
    (wTb { state := TbState.locked, slot := 159, missRun := 3 }).tb.edge = none ∧
    (wTb { state := TbState.locked, slot := 159, missRun := 3 }).tb.slot < 160 ∧
    (wTb { state := TbState.locked, slot := 159, missRun := 3 }).tb.state ≠ TbState.acquiring := by decide

theorem witness_holdover_at_its_limit :
    wHold.tb.state = TbState.holdover ∧
    16000 ≤ wHold.tb.holdSlots := by decide

theorem witness_refclk_back :
    (wTb { internalClock := true }).tb.internalClock = true ∧
    1024 ≤ 1024 := by decide

theorem witness_frame_count_load :
    2 ^ 40 - 1 < 2 ^ 40 ∧
    (wTb { state := TbState.locked }).srv.streams = [] ∧
    ksorted (wTb { state := TbState.locked }).regs = true := by decide

theorem witness_frame_count_load_refused :
    0 < 2 ^ 40 ∧
    wHold.srv.streams ≠ [] := by decide

theorem witness_maintenance_starts :
    (wServing (wFabric FabState.idle []) { plan := [wMaintenance] }).planner.plan = [wMaintenance] ∧
    ((wServing (wFabric FabState.idle []) { plan := [wMaintenance] }).stamp 0).entryMayStart wMaintenance = true ∧
    wMaintenance.resume = false ∧
    wMaintenance.kind = EntryKind.maintenance := by decide

theorem witness_switch_starts :
    (wSwitchDue SwitchState.staged).planner.plan = [wSwitchEntry] ∧
    ((wSwitchDue SwitchState.staged).stamp 0).entryMayStart wSwitchEntry = true ∧
    wSwitchEntry.resume = false ∧
    wSwitchEntry.kind = EntryKind.switchEntry ∧
    (wSwitchDue SwitchState.staged).store.switchState = SwitchState.staged ∧
    Option.any (fun r => !r.refetching.isEmpty) (wSwitchDue SwitchState.staged).store.staged = false := by decide

theorem witness_switch_entry_of_no_switch :
    (wSwitchDue SwitchState.idle).planner.plan = [wSwitchEntry] ∧
    ((wSwitchDue SwitchState.idle).stamp 0).entryMayStart wSwitchEntry = true ∧
    wSwitchEntry.resume = false ∧
    wSwitchEntry.kind = EntryKind.switchEntry ∧
    (wSwitchDue SwitchState.idle).store.switchState ≠ SwitchState.staged := by decide

theorem witness_resume_of_no_context :
    (wServing (wFabric FabState.idle []) { plan := [wResumeEntry] }).planner.plan = [wResumeEntry] ∧
    ((wServing (wFabric FabState.idle []) { plan := [wResumeEntry] }).stamp 0).entryMayStart wResumeEntry = true ∧
    wResumeEntry.resume = true ∧
    (wServing (wFabric FabState.idle []) { plan := [wResumeEntry] }).hlk.up = true ∧
    (wServing (wFabric FabState.idle []) { plan := [wResumeEntry] }).syn.context = none := by decide

theorem witness_pass_starts :
    (wServing (wFabric FabState.idle []) { plan := [wEntry] }).planner.plan = [wEntry] ∧
    ((wServing (wFabric FabState.idle []) { plan := [wEntry] }).stamp 0).entryMayStart wEntry = true ∧
    wEntry.resume = false ∧
    (wEntry.kind = EntryKind.prefill ∨ wEntry.kind = EntryKind.decode) ∧
    List.filter (wServing (wFabric FabState.idle []) { plan := [wEntry] }).rowLives wEntry.rows = wEntry.rows ∧
    ((wServing (wFabric FabState.idle []) { plan := [wEntry] }).stamp 0).mayIssue wEntry = true ∧
    (wServing (wFabric FabState.idle []) { plan := [wEntry] }).fab.safeSet = [] ∧
    (((wServing (wFabric FabState.idle []) { plan := [wEntry] }).pairOf wEntry.step).isSome = true ∨
      ((wServing (wFabric FabState.idle []) { plan := [wEntry] }).freePair wEntry.cls).isSome = true) ∧
    ((wServing (wFabric FabState.idle []) { plan := [wEntry] }).fab.slotOf? wEntry.lastId).isSome = true ∧
    (wServing (wFabric FabState.idle []) { plan := [wEntry] }).fab.activeLast = wEntry.lastId ∧
    (wServing (wFabric FabState.idle []) { plan := [wEntry] }).fab.image? = some wImage := by decide

theorem witness_pass_ends_empty :
    (wPass wQueue [wEnded, { }]).planner.running = some wRun ∧
    (wPass wQueue [wEnded, { }]).fab.state = FabState.running ∧
    (wPass wQueue [wEnded, { }]).syn.phase = PreemptPhase.none ∧
    (wPass wQueue [wEnded, { }]).fab.drained = true ∧
    (wPass wQueue [wEnded, { }]).fab.residueCount = 0 ∧
    wRun.taints = [] ∧
    wRun.broken = false ∧
    wRun.tokens = [] := by decide

theorem witness_pass_ends_with_residue :
    (wPass wHalf [wEnded, { }]).planner.running = some wRun ∧
    (wPass wHalf [wEnded, { }]).fab.state = FabState.running ∧
    (wPass wHalf [wEnded, { }]).syn.phase = PreemptPhase.none ∧
    (wPass wHalf [wEnded, { }]).fab.drained = true ∧
    (wPass wHalf [wEnded, { }]).fab.residueCount ≠ 0 := by decide

theorem witness_pass_overruns :
    (wServing (wFabric FabState.running []) { running := some wRun }).planner.running = some wRun ∧
    wRun.overrun = false ∧
    (wRun.entry.kind = EntryKind.prefill ∨ wRun.entry.kind = EntryKind.decode) ∧
    wRun.planEnd ≤ ((wServing (wFabric FabState.running []) { running := some wRun }).stamp 0).clock := by decide

theorem witness_pass_overran :
    (wServing (wFabric FabState.running []) { running := some wOverrun }).planner.running = some wOverrun ∧
    (wOverrun.overrun = true ∨
      ((wServing (wFabric FabState.running []) { running := some wOverrun }).stamp 0).clock < wOverrun.planEnd) := by decide

theorem witness_fabric_stalls :
    wStalled.planner.running = some wRun ∧
    wStalled.fab.state = FabState.running ∧
    wStalled.syn.phase = PreemptPhase.none ∧
    wStalled.externalOut = false ∧
    wStalled.remoteWait = false ∧
    wStalled.fab.guardZero + wStalled.reg Reg.FAB_JOIN_GUARD ≤ (wStalled.stamp 0).clock := by decide

theorem witness_snap_release_refused :
    2 ≠ 1 := by decide

theorem witness_voiding_ends :
    wVoiding.planner.running = some wVoided ∧
    wVoiding.fab.state = FabState.voiding ∧
    wVoiding.voidPending = false ∧
    3 < wVoided.voidCause := by decide

theorem witness_swap_ends :
    wSwap.fab.swapTarget = some 2 ∧
    2 < 4 ∧
    wSwap.fab.state = FabState.swapping ∧
    (wSwap.fab.slot 2).image = some wImage ∧
    wSwap.planner.running = none ∧
    wSwap.fab.activeSlot ≠ some 2 := by decide

theorem witness_flit_arrives :
    (wPass wFlight [{ }, { }]).fab.queue? 0 = some wFlight ∧
    wFlight.inFlight = [wFlit] ∧
    wFlight.spill = false := by decide

theorem witness_credit_returns :
    (wPass wReturn [{ }, { }]).fab.queue? 0 = some wReturn ∧
    wReturn.returning ≠ 0 := by decide

theorem witness_flit_of_a_spill_queue :
    (wPass wSpillFlight [{ }, { }]).fab.queue? 0 = some wSpillFlight ∧
    wSpillFlight.inFlight = [wFlit] ∧
    wSpillFlight.spill = true := by decide

theorem witness_sample_taken :
    (wPass wHalf [{ }, { }]).fab.state = FabState.running ∧
    (wPass wHalf [{ }, { }]).fab.activeSlot = some 1 ∧
    ((wPass wHalf [{ }, { }]).stamp 1024).sampleDue = true := by decide

theorem witness_sample_not_due :
    ((wPass wHalf [{ }, { }]).stamp 1025).sampleDue = false := by decide

theorem witness_port_meets_the_end :
    (wPass wEndHead [{ }, { }]).fab.desc? 0 = some wPort ∧
    (wPass wEndHead [{ }, { }]).fab.image? = some wImage ∧
    (wPass wEndHead [{ }, { }]).fab.state = FabState.running ∧
    (wPass wEndHead [{ }, { }]).syn.phase = PreemptPhase.none ∧
    0 < (wPass wEndHead [{ }, { }]).fab.stations.length ∧
    ((wPass wEndHead [{ }, { }]).station 0).copy = none ∧
    wPort.kind = StationKind.port ∧
    (wPass wEndHead [{ }, { }]).fab.portOp? 0 = some wPortOp ∧
    wPortOp.target ≠ 5 ∧
    (wPass wEndHead [{ }, { }]).fab.repeats 0 ≠ 0 ∧
    ((wPass wEndHead [{ }, { }]).fab.seqEntry 0).2.consume = [1] ∧
    ((wPass wEndHead [{ }, { }]).fab.seqEntry 0).2.produce = [] ∧
    (wPass wEndHead [{ }, { }]).fab.queue? (wPort.inPort 0) = some wEndHead ∧
    wEndHead.buffer = [wEnd, wFlit] ∧
    wEnd.kind = FlitKind.control ∧
    wEnd.tokenKind = 2 ∧
    (wPass wEndHead [{ }, { }]).lce.faultDue = [] ∧
    wPortOp.direction = 1 := by decide

theorem witness_reading_port_meets_the_end :
    wReadPass.fab.desc? 0 = some wPort ∧
    wReadPass.fab.image? = some wReadImage ∧
    wReadPass.fab.state = FabState.running ∧
    wReadPass.syn.phase = PreemptPhase.none ∧
    0 < wReadPass.fab.stations.length ∧
    (wReadPass.station 0).copy = none ∧
    wPort.kind = StationKind.port ∧
    wReadPass.fab.portOp? 0 = some wReadPort ∧
    wReadPort.target ≠ 5 ∧
    wReadPass.fab.repeats 0 ≠ 0 ∧
    (wReadPass.fab.seqEntry 0).2.consume = [1] ∧
    (wReadPass.fab.seqEntry 0).2.produce = [] ∧
    wReadPass.fab.queue? (wPort.inPort 0) = some wEndHead ∧
    wEndHead.buffer = [wEnd, wFlit] ∧
    wEnd.kind = FlitKind.control ∧
    wEnd.tokenKind = 2 ∧
    wReadPass.lce.faultDue = [] ∧
    wReadPort.direction = 0 := by decide

theorem witness_comparison_agrees :
    (wPass wQueue [{ }, { }]).fab.desc? wComparison.station = some wArray ∧
    (wPass wQueue [{ }, { }]).fab.image? = some wImage ∧
    wImage.operation wArray = some (Operation.matmul wArrayOp) ∧
    (wPass wQueue [{ }, { }]).fab.state = FabState.running ∧
    wArrayOp.compares wComparison.kind = true ∧
    (wComparison.kind = CheckKind.redundant ∨ (wPass wQueue [{ }, { }]).mxe.checkMode = 1) ∧
    compareSides (wPass wQueue [{ }, { }]).mxe.checkTol (wArrayOp.comparison wComparison) = (false, false) := by decide

theorem witness_comparison_skipped :
    (wPass wQueue [{ }, { }]).fab.desc? wSkipped.station = some wArray ∧
    (wPass wQueue [{ }, { }]).fab.image? = some wImage ∧
    wImage.operation wArray = some (Operation.matmul wArrayOp) ∧
    (wPass wQueue [{ }, { }]).fab.state = FabState.running ∧
    wArrayOp.compares wSkipped.kind = true ∧
    (wSkipped.kind = CheckKind.redundant ∨ (wPass wQueue [{ }, { }]).mxe.checkMode = 1) ∧
    (compareSides (wPass wQueue [{ }, { }]).mxe.checkTol (wArrayOp.comparison wSkipped)).2 = true := by decide

theorem witness_comparison_differs :
    (wPass wQueue [{ }, { }]).fab.desc? wDiffers.station = some wArray ∧
    (wPass wQueue [{ }, { }]).fab.image? = some wImage ∧
    wImage.operation wArray = some (Operation.matmul wArrayOp) ∧
    (wPass wQueue [{ }, { }]).fab.state = FabState.running ∧
    wArrayOp.compares wDiffers.kind = true ∧
    (wDiffers.kind = CheckKind.redundant ∨ (wPass wQueue [{ }, { }]).mxe.checkMode = 1) ∧
    compareSides (wPass wQueue [{ }, { }]).mxe.checkTol (wArrayOp.comparison wDiffers) = (true, false) := by decide

theorem witness_record_release_refused :
    0 ≠ 1 := by decide

theorem witness_comparison_not_made :
    (wPass wQueue [{ }, { }]).fab.desc? wRowComparison.station = some wArray ∧
    (wPass wQueue [{ }, { }]).fab.image? = some wImage ∧
    wImage.operation wArray = some (Operation.matmul wArrayOp) ∧
    (wArrayOp.compares wRowComparison.kind = false ∨
      wRowComparison.kind ≠ CheckKind.redundant ∧ (wPass wQueue [{ }, { }]).mxe.checkMode ≠ 1) := by decide

theorem witness_load_taken :
    0 < 4 ∧
    (wSlots { }).stagedLasts[0]? = some wLast ∧
    (wSlots { }).fab.loadRefusal 0 (imageHeader wLast.bytes) = none := by decide

theorem witness_load_begins :
    (wSlots { loadQueue := [(0, 0)] }).fab.loading = none ∧
    (wSlots { loadQueue := [(0, 0)] }).fab.loadQueue = [(0, 0)] := by decide

theorem witness_load_completes :
    (wSlots { slot3 := { state := SlotState.loading }, loading := some (3, 0) }).fab.loading = some (3, 0) ∧
    3 < 4 ∧
    (wSlots { slot3 := { state := SlotState.loading }, loading := some (3, 0) }).stagedLasts[0]? = some wLast := by decide

theorem witness_slot_freed :
    3 < 4 ∧
    ((wSlots { slot3 := { state := SlotState.ready } }).fab.slot 3).state ≠ SlotState.active ∧
    ((wSlots { slot3 := { state := SlotState.ready } }).fab.slot 3).state ≠ SlotState.loading ∧
    (wSlots { slot3 := { state := SlotState.ready } }).fab.swapTarget ≠ some 3 := by decide

theorem witness_active_slot_kept :
    1 < 4 ∧
    ((wStalled.fab.slot 1).state = SlotState.active ∨
      (wStalled.fab.slot 1).state ≠ SlotState.loading ∧ wStalled.fab.swapTarget = some 1) := by decide

theorem witness_hbm_read :
    List.find? (fun x => decide (x.id = 3))
        (wMem { insoles := wInsoles StackState.ready, reads := [wRead] }).mem.reads =
      some wRead ∧
    (wMem { insoles := wInsoles StackState.ready, reads := [wRead] }).accessWaits 3 wRead.mpa false = false := by decide

theorem witness_hbm_write :
    List.find? (fun x => decide (x.id = 4)) wWriting.mem.writes = some wWrite ∧
    wWriting.accessWaits 4 wWrite.mpa true = false := by decide

theorem witness_hbm_read_waits :
    List.find? (fun x => decide (x.id = 5)) wBusySector.mem.reads = some wLaterRead ∧
    wBusySector.accessWaits 5 wLaterRead.mpa false = true := by decide

theorem witness_hbm_write_waits :
    List.find? (fun x => decide (x.id = 6)) wBusySector.mem.writes = some wLaterWrite ∧
    wBusySector.accessWaits 6 wLaterWrite.mpa true = true := by decide

theorem witness_patrol_reads :
    0 < (wMem { insoles := wInsoles StackState.ready }).part.hbmStacks ∧
    805306367 < 805306368 ∧
    ((wMem { insoles := wInsoles StackState.ready }).insole 0).state.serves = true ∧
    0 < (wMem { insoles := wInsoles StackState.ready }).mem.insoles.length ∧
    (wMem { insoles := wInsoles StackState.ready }).decodeAt 0 (0 * 2 ^ 36 + 64 * 805306367)
        ((wMem { insoles := wInsoles StackState.ready }).insole 0).mode
        (withErrors
          (hbmSector (wMem { insoles := wInsoles StackState.ready }).mem.hbm (0 * 2 ^ 36 + 64 * 805306367)) []) =
      Decoded.good [] := by decide

theorem witness_eye_steady :
    0 < (wMem { insoles := wInsoles StackState.ready }).part.hbmStacks ∧
    63 < 64 ∧
    33 < 34 ∧
    ((wMem { insoles := wInsoles StackState.ready }).insole 0).state.serves = true ∧
    0 < (wMem { insoles := wInsoles StackState.ready }).mem.insoles.length ∧
    64 ≤ 5 * wEyeGood.eye := by decide

theorem witness_eye_moves :
    0 < (wMem { insoles := wInsoles StackState.degraded }).part.hbmStacks ∧
    63 < 64 ∧
    33 < 34 ∧
    ((wMem { insoles := wInsoles StackState.degraded }).insole 0).state.serves = true ∧
    0 < (wMem { insoles := wInsoles StackState.degraded }).mem.insoles.length ∧
    64 ≤ 5 * wEyeLate.eye := by decide

theorem witness_eye_closes :
    0 < (wMem { insoles := wInsoles StackState.ready }).part.hbmStacks ∧
    63 < 64 ∧
    33 < 34 ∧
    ((wMem { insoles := wInsoles StackState.ready }).insole 0).state.serves = true ∧
    0 < (wMem { insoles := wInsoles StackState.ready }).mem.insoles.length ∧
    5 * wEyeBad.eye < 64 ∧
    10 * wEyeBad.retrained < 64 ∧
    ((wMem { insoles := wInsoles StackState.ready }).insole 0).badPin 63 = none := by decide

theorem witness_stack_init :
    0 < (wMem { insoles := wInsoles StackState.init }).part.hbmStacks ∧
    0 < (wMem { insoles := wInsoles StackState.init }).mem.insoles.length ∧
    ((wMem { insoles := wInsoles StackState.init }).insole 0).state = StackState.init ∧
    (∀ pc < 64,
      (List.filter (fun d => decide (d / 34 = pc))
            ((wMem { insoles := wInsoles StackState.init }).insole 0).degraded).length <
        2) := by decide

theorem witness_stack_init_failed :
    0 < (wMem { insoles := wTwoPins }).part.hbmStacks ∧
    0 < (wMem { insoles := wTwoPins }).mem.insoles.length ∧
    ((wMem { insoles := wTwoPins }).insole 0).state = StackState.init ∧
    0 < 64 ∧
    2 ≤ (List.filter (fun d => decide (d / 34 = 0)) ((wMem { insoles := wTwoPins }).insole 0).degraded).length := by decide

theorem witness_page_parks :
    kget? (wPages { table := [(1537, wPage PageState.movingOut)], moves := [(3, wMove)] }).pages.table
        (pageKey 3 1) =
      some (wPage PageState.movingOut) ∧
    (wPage PageState.movingOut).state = PageState.movingOut ∧
    (wPages { table := [(1537, wPage PageState.movingOut)], moves := [(3, wMove)] }).stream? 3 = some wStream ∧
    wStream.state ≠ StreamState.ending ∧
    kget? (wPages { table := [(1537, wPage PageState.movingOut)], moves := [(3, wMove)] }).pages.moves 3 =
      some wMove ∧
    wMove.left = [1] ∧
    ((wPages { table := [(1537, wPage PageState.movingOut)], moves := [(3, wMove)] }).stamp 0 =
      if (wPage PageState.movingOut).hostValid = true ∧ (wPage PageState.movingOut).dirty = false then
        (wPages { table := [(1537, wPage PageState.movingOut)], moves := [(3, wMove)] }).stamp 0
      else
        (((wPages { table := [(1537, wPage PageState.movingOut)], moves := [(3, wMove)] }).stamp 0).pageRead
            (wPage PageState.movingOut).frame).2) ∧
    ((wPage PageState.movingOut).hostValid = true ∧ (wPage PageState.movingOut).dirty = false ∨
      (((wPages { table := [(1537, wPage PageState.movingOut)], moves := [(3, wMove)] }).stamp 0).pageRead
            (wPage PageState.movingOut).frame).1 =
        false) ∧
    ((wPages { table := [(1537, wPage PageState.movingOut)], moves := [(3, wMove)] }).stamp 0).pages =
      (wPages { table := [(1537, wPage PageState.movingOut)], moves := [(3, wMove)] }).pages ∧
    ((wPages { table := [(1537, wPage PageState.movingOut)], moves := [(3, wMove)] }).stamp 0).srv.streams =
      (wPages { table := [(1537, wPage PageState.movingOut)], moves := [(3, wMove)] }).srv.streams := by decide

theorem witness_page_parks_with_a_copy :
    kget? (wPages { table := [(1537, wDirtyPage)], moves := [(3, wMove)] }).pages.table (pageKey 3 1) =
      some wDirtyPage ∧
    wDirtyPage.state = PageState.movingOut ∧
    (wPages { table := [(1537, wDirtyPage)], moves := [(3, wMove)] }).stream? 3 = some wStream ∧
    wStream.state ≠ StreamState.ending ∧
    kget? (wPages { table := [(1537, wDirtyPage)], moves := [(3, wMove)] }).pages.moves 3 = some wMove ∧
    wMove.left = [1] ∧
    ((((wPages { table := [(1537, wDirtyPage)], moves := [(3, wMove)] }).stamp 0).pageRead 2).2 =
      if wDirtyPage.hostValid = true ∧ wDirtyPage.dirty = false then
        (wPages { table := [(1537, wDirtyPage)], moves := [(3, wMove)] }).stamp 0
      else
        (((wPages { table := [(1537, wDirtyPage)], moves := [(3, wMove)] }).stamp 0).pageRead wDirtyPage.frame).2) ∧
    (wDirtyPage.hostValid = true ∧ wDirtyPage.dirty = false ∨
      (((wPages { table := [(1537, wDirtyPage)], moves := [(3, wMove)] }).stamp 0).pageRead wDirtyPage.frame).1 =
        false) ∧
    (((wPages { table := [(1537, wDirtyPage)], moves := [(3, wMove)] }).stamp 0).pageRead 2).2.pages =
      (wPages { table := [(1537, wDirtyPage)], moves := [(3, wMove)] }).pages ∧
    (((wPages { table := [(1537, wDirtyPage)], moves := [(3, wMove)] }).stamp 0).pageRead 2).2.srv.streams =
      (wPages { table := [(1537, wDirtyPage)], moves := [(3, wMove)] }).srv.streams := by decide

theorem witness_page_comes_back :
    (wPages
            { table := [(1537, wPage PageState.parked)], freeFrames := [7, 8],
              frameWait := [(3, 1)] }).pages.frameWait =
      [(3, 1)] ∧
    (wPages
            { table := [(1537, wPage PageState.parked)], freeFrames := [7, 8],
              frameWait := [(3, 1)] }).pages.freeFrames =
      [7, 8] ∧
    (wPages { table := [(1537, wPage PageState.parked)], freeFrames := [7, 8], frameWait := [(3, 1)] }).hlk.up =
      true := by decide

theorem witness_page_is_back :
    kget? (wPages { table := [(1537, wPage PageState.movingIn)] }).pages.table (pageKey 3 1) =
      some (wPage PageState.movingIn) ∧
    (wPage PageState.movingIn).state = PageState.movingIn ∧
    (∀ (x : Machine.Stream),
      (wPages { table := [(1537, wPage PageState.movingIn)] }).stream? 3 = some x → x.state ≠ StreamState.ending) := by decide

theorem witness_store_read :
    wStoreRead.storeRead? 11 = some (0, wPortRead) ∧
    (∀ x ∈ wStoreRead.store.flash, x.state ≠ StoreStackState.failed) := by decide

theorem witness_block_relocated :
    0 < 8 ∧
    0 < wDisturbed.store.flash.length ∧
    (wDisturbed.store.stack 0).state = StoreStackState.ready ∧
    wDisturbed.reg Reg.STO_DISTURB_LIMIT ≤ kgetD (wDisturbed.store.stack 0).disturb 9 0 := by decide

theorem witness_store_stack_init :
    4 < 8 ∧
    4 <
      (wStore
              {
                flash :=
                  [{ }, { }, { }, { }, { state := StoreStackState.init }, { }, { }, { }] }).store.flash.length ∧
    ((wStore { flash := [{ }, { }, { }, { }, { state := StoreStackState.init }, { }, { }, { }] }).store.stack
          4).state =
      StoreStackState.init := by decide

theorem witness_store_stack_fails :
    0 < 8 ∧
    0 <
      (wStore
              { flash := wFlash StoreStackState.readOnly, catalogue := [wPackage],
                switchState := SwitchState.staging, staging := some wStaging }).store.flash.length ∧
    ((wStore
                  { flash := wFlash StoreStackState.readOnly, catalogue := [wPackage],
                    switchState := SwitchState.staging, staging := some wStaging }).store.stack
            0).state.serves =
      true := by decide

theorem witness_install_mode :
    ksorted (wStore { }).regs = true ∧
    (wStore { }).store.switchState = SwitchState.idle ∧
    (∀ (r : Resident), (wStore { }).store.active = some r → r.plan = 0) := by decide

theorem witness_service_mode :
    ksorted (wStore { }).regs = true := by decide

theorem witness_install_mode_refused :
    (wStore { switchState := SwitchState.staged }).store.switchState ≠ SwitchState.idle := by decide

theorem witness_install_taken :
    ksorted (wStore { installMode := true }).regs = true ∧
    (wStore { installMode := true }).opRefusal 1 17592186044416 0 4096 = none := by decide

theorem witness_delete_taken :
    ksorted (wStore { catalogue := [wPackage], installMode := true }).regs = true ∧
    (wStore { catalogue := [wPackage], installMode := true }).opRefusal 2 0 21 0 = none := by decide

theorem witness_adapter_install_taken :
    ksorted (wStore { }).regs = true ∧
    (wStore { }).opRefusal 3 17592186044416 0 4096 = none := by decide

theorem witness_adapter_delete_taken :
    ksorted (wStore { catalogue := [wAdapters] }).regs = true ∧
    (wStore { catalogue := [wAdapters] }).opRefusal 4 0 22 0 = none := by decide

theorem witness_repair_taken :
    ksorted (wStore { catalogue := [wPackage] }).regs = true ∧
    (wStore { catalogue := [wPackage] }).opRefusal 5 17592186044416 21 4096 = none := by decide

theorem witness_second_operation_refused :
    (wOperation 2).storeReady = true ∧
    (wOperation 2).store.opState = OpState.running := by decide

theorem witness_delete_ends :
    (wOperation 2).store.opState = OpState.running ∧
    ((wOperation 2).store.opCmd = 2 ∨ (wOperation 2).store.opCmd = 4) := by decide

theorem witness_adapter_delete_ends :
    (wOperation 4).store.opState = OpState.running ∧
    ((wOperation 4).store.opCmd = 2 ∨ (wOperation 4).store.opCmd = 4) := by decide

theorem witness_install_ends :
    (wOperation 1).store.opState = OpState.running ∧
    (wOperation 1).store.opCmd = 1 ∧
    wBundle.readError = false ∧
    (wOperation 1).hlk.up = true ∧
    (wOperation 1).bundleInside = true := by decide

theorem witness_install_not_read :
    (wOperation 5).store.opState = OpState.running ∧
    ((wOperation 5).store.opCmd = 1 ∨ (wOperation 5).store.opCmd = 3 ∨ (wOperation 5).store.opCmd = 5) ∧
    (wNoBundle.readError = true ∨ (wOperation 5).hlk.up = false) := by decide

theorem witness_patrol_fails :
    (wStore { flash := wAllServe, catalogue := [wPackage] }).store.package? 21 = some wPackage ∧
    wPackage.shards[0]? = some wShard ∧
    wShard.present = true ∧
    wShard.corrupt = false ∧
    (wStore { flash := wAllServe, catalogue := [wPackage] }).store.reaches 0 wShard = true := by decide

theorem witness_patrol_matches :
    (wStore { flash := wAllServe, catalogue := [wPackage] }).store.package? 21 = some wPackage ∧
    wPackage.shards[0]? = some wShard ∧
    wShard.present = true ∧
    wShard.corrupt = false ∧
    (wStore { flash := wAllServe, catalogue := [wPackage] }).store.reaches 0 wShard = true := by decide

theorem witness_model_switch :
    1 ≤ 1 ∧
    (255 ≤ 4 ∨ 255 = 255) ∧
    (wStore wSwitchStore).switchPlan 1 21 255 =
      Except.ok ((wNext (wStore wSwitchStore) 1).1, (wNext (wStore wSwitchStore) 1).2) := by decide

theorem witness_epoch_switch :
    (wStore wEpochStore).reg Reg.STO_SWITCH_MODE ≤ 1 ∧
    (255 ≤ 4 ∨ 255 = 255) ∧
    (wStore wEpochStore).switchPlan 2 21 255 =
      Except.ok ((wNext (wStore wEpochStore) 2).1, (wNext (wStore wEpochStore) 2).2) := by decide

theorem witness_switch_cancelled :
    ((wStore { switchState := SwitchState.staging, switchKind := 1, staging := some wStaging }).store.switchState =
        SwitchState.staging ∨
      (wStore
              { switchState := SwitchState.staging, switchKind := 1,
                staging := some wStaging }).store.switchState =
        SwitchState.staged) := by decide

theorem witness_cancel_refused :
    (wSwitching.store.switchState = SwitchState.idle ∨ wSwitching.store.switchState = SwitchState.switching) := by decide

theorem witness_shard_arrives :
    (wStore
            { catalogue := [wPackage], switchState := SwitchState.staging,
              staging := some wStaging }).store.staging =
      some wStaging ∧
    wStaging.order[wStaging.next]? = some (21, 0) ∧
    (wStore
            { catalogue := [wPackage], switchState := SwitchState.staging,
              staging := some wStaging }).store.adapterLoads =
      [] ∧
    (∀
      r ∈
        (wStore
                  { catalogue := [wPackage], switchState := SwitchState.staging,
                    staging := some wStaging }).store.active.toList ++
          (wStore
                  { catalogue := [wPackage], switchState := SwitchState.staging,
                    staging := some wStaging }).store.old.toList,
      ∀ k ∈ r.refetching, k ∈ r.refetched) ∧
    (((wStore
                  { catalogue := [wPackage], switchState := SwitchState.staging,
                    staging := some wStaging }).store.package?
            21).bind
        fun p => p.shards[0]?) =
      some wShard ∧
    wShard.corrupt = false := by decide

theorem witness_shard_fails :
    (wStore
            { catalogue := [wPackage], switchState := SwitchState.staging,
              staging := some wStaging }).store.staging =
      some wStaging ∧
    wStaging.order[wStaging.next]? = some (21, 0) ∧
    (wStore
            { catalogue := [wPackage], switchState := SwitchState.staging,
              staging := some wStaging }).store.adapterLoads =
      [] ∧
    (∀
      r ∈
        (wStore
                  { catalogue := [wPackage], switchState := SwitchState.staging,
                    staging := some wStaging }).store.active.toList ++
          (wStore
                  { catalogue := [wPackage], switchState := SwitchState.staging,
                    staging := some wStaging }).store.old.toList,
      ∀ k ∈ r.refetching, k ∈ r.refetched) ∧
    (((wStore
                  { catalogue := [wPackage], switchState := SwitchState.staging,
                    staging := some wStaging }).store.package?
            21).bind
        fun p => p.shards[0]?) =
      some wShard ∧
    wStaging.attempts < 2 := by decide

theorem witness_staging_ends :
    (wStore
            { catalogue := [wPackage], switchState := SwitchState.staging,
              staging := some wStaged }).store.staging =
      some wStaged ∧
    wStaged.order.length ≤ wStaged.next := by decide

theorem witness_switch_ends :
    wSwitching.store.staged = some wTarget ∧
    wSwitching.store.switchState = SwitchState.switching ∧
    wSwitching.fab.state = FabState.idle ∧
    wSwitching.fab.activeSlot.isSome = true ∧
    (∀ e ∈ wSwitching.pages.table, e.2.state ≠ PageState.movingOut ∧ e.2.state ≠ PageState.movingIn) := by decide

theorem witness_shard_refetched :
    (wStore { flash := wAllServe, catalogue := [wPackage], active := some wRefetch }).store.active = some wRefetch ∧
    0 ∈ wRefetch.refetching ∧
    0 ∉ wRefetch.refetched ∧
    (wStore { flash := wAllServe, catalogue := [wPackage], active := some wRefetch }).store.package?
        wRefetch.manifest.tag =
      some wPackage ∧
    wPackage.shards[0]? = some wShard ∧
    wShard.present = true ∧
    wShard.corrupt = false ∧
    (wStore { flash := wAllServe, catalogue := [wPackage], active := some wRefetch }).store.reaches 0 wShard =
      true := by decide

theorem witness_open_class1 :
    (wIntake { intake := wReading }).srv.intake.left ≠ 0 ∧
    (wIntake { intake := wReading }).srv.sealing = [] ∧
    wOpen.kind = 1 ∧
    wOpen.ringSeq = (wIntake { intake := wReading }).srv.intake.consumer % 65536 ∧
    wOpen.stream ≤ 8191 ∧
    (wIntake { intake := wReading }).stream? wOpen.stream = none ∧
    ((wIntake { intake := wReading }).stamp 0).checkOpen wOpen = Except.ok (wServed, false) ∧
    (wIntake { intake := wReading }).bufferFits wOpen = true ∧
    (false = true ∨ wOpen.cls ≠ 0) := by decide

theorem witness_open_class0 :
    (wIntake { intake := wReading }).srv.intake.left ≠ 0 ∧
    (wIntake { intake := wReading }).srv.sealing = [] ∧
    wOpen0.kind = 1 ∧
    wOpen0.ringSeq = (wIntake { intake := wReading }).srv.intake.consumer % 65536 ∧
    wOpen0.stream ≤ 8191 ∧
    (wIntake { intake := wReading }).stream? wOpen0.stream = none ∧
    ((wIntake { intake := wReading }).stamp 0).checkOpen wOpen0 = Except.ok (wServed, false) ∧
    (wIntake { intake := wReading }).bufferFits wOpen0 = true ∧
    false = false ∧
    wOpen0.cls = 0 ∧
    ((wIntake { intake := wReading }).stamp 0).testFor wServed
        { stream := wOpen0.stream, adapter := wOpen0.adapter, prompt := wOpen0.inputUnits, context := 0,
          maxContext := wOpen0.maxContext }
        none (wIntake { intake := wReading }).tb.frame =
      Except.ok wGrant := by decide

theorem witness_append_to_idle :
    (wOne 3 wIdle).srv.intake.left ≠ 0 ∧
    (wOne 3 wIdle).srv.sealing = [] ∧
    wAppend.kind = 2 ∧
    wAppend.ringSeq = (wOne 3 wIdle).srv.intake.consumer % 65536 ∧
    wAppend.stream ≤ 8191 ∧
    (wOne 3 wIdle).stream? wAppend.stream = some wIdle ∧
    ((wOne 3 wIdle).stamp 0).checkAppend wIdle wAppend = Except.ok () ∧
    (wOne 3 wIdle).bufferFits wAppend = true ∧
    wIdle.state ≠ StreamState.parked ∧
    wIdle.busy = false ∧
    wIdle.cls ≠ 0 := by decide

theorem witness_append_to_busy :
    (wOne 3 wBusy).srv.intake.left ≠ 0 ∧
    (wOne 3 wBusy).srv.sealing = [] ∧
    wAppend.kind = 2 ∧
    wAppend.ringSeq = (wOne 3 wBusy).srv.intake.consumer % 65536 ∧
    wAppend.stream ≤ 8191 ∧
    (wOne 3 wBusy).stream? wAppend.stream = some wBusy ∧
    ((wOne 3 wBusy).stamp 0).checkAppend wBusy wAppend = Except.ok () ∧
    (wOne 3 wBusy).bufferFits wAppend = true ∧
    wBusy.state ≠ StreamState.parked ∧
    wBusy.busy = true := by decide

theorem witness_nop_taken :
    (wOne 3 wIdle).srv.intake.left ≠ 0 ∧
    (wOne 3 wIdle).srv.sealing = [] ∧
    wNop.ringSeq = (wOne 3 wIdle).srv.intake.consumer % 65536 ∧
    wNop.stream ≤ 8191 ∧
    wNop.clean = true ∧
    wNop.kind = 0 := by decide

theorem witness_cancel_in_flight :
    wFlying.srv.intake.left ≠ 0 ∧
    wFlying.srv.sealing = [] ∧
    wCancel.ringSeq = wFlying.srv.intake.consumer % 65536 ∧
    wCancel.stream ≤ 8191 ∧
    wCancel.clean = true ∧
    wFlying.stream? wCancel.stream = some wBusy ∧
    wBusy.state ≠ StreamState.ending ∧
    wCancel.kind = 3 ∧
    wFlying.inFlight wCancel.stream = true := by decide

theorem witness_cancel_now :
    (wOne 3 wBusy).srv.intake.left ≠ 0 ∧
    (wOne 3 wBusy).srv.sealing = [] ∧
    wCancel.ringSeq = (wOne 3 wBusy).srv.intake.consumer % 65536 ∧
    wCancel.stream ≤ 8191 ∧
    wCancel.clean = true ∧
    (wOne 3 wBusy).stream? wCancel.stream = some wBusy ∧
    wBusy.state ≠ StreamState.ending ∧
    wCancel.kind = 3 ∧
    (wOne 3 wBusy).planner.steps = [] ∧
    bit wCancel.flags 0 = false ∧
    (wOne 3 wBusy).pages.moving wCancel.stream = false := by decide

theorem witness_close_busy :
    (wOne 3 wBusy).srv.intake.left ≠ 0 ∧
    (wOne 3 wBusy).srv.sealing = [] ∧
    wClose.ringSeq = (wOne 3 wBusy).srv.intake.consumer % 65536 ∧
    wClose.stream ≤ 8191 ∧
    wClose.clean = true ∧
    (wOne 3 wBusy).stream? wClose.stream = some wBusy ∧
    wBusy.state ≠ StreamState.ending ∧
    wClose.kind = 4 ∧
    wBusy.busy = true := by decide

theorem witness_close_idle :
    (wOne 3 wIdle).srv.intake.left ≠ 0 ∧
    (wOne 3 wIdle).srv.sealing = [] ∧
    wClose.ringSeq = (wOne 3 wIdle).srv.intake.consumer % 65536 ∧
    wClose.stream ≤ 8191 ∧
    wClose.clean = true ∧
    (wOne 3 wIdle).stream? wClose.stream = some wIdle ∧
    wIdle.state ≠ StreamState.ending ∧
    wClose.kind = 4 ∧
    wIdle.busy = false ∧
    (wOne 3 wIdle).pages.moving wClose.stream = false := by decide

theorem witness_park_idle :
    (wOne 3 wIdle).srv.intake.left ≠ 0 ∧
    (wOne 3 wIdle).srv.sealing = [] ∧
    wPark.ringSeq = (wOne 3 wIdle).srv.intake.consumer % 65536 ∧
    wPark.stream ≤ 8191 ∧
    wPark.clean = true ∧
    (wOne 3 wIdle).stream? wPark.stream = some wIdle ∧
    wIdle.state ≠ StreamState.ending ∧
    wPark.kind = 5 ∧
    (wIdle.state = StreamState.active ∨ wIdle.state = StreamState.idle) := by decide

theorem witness_park_busy :
    (wOne 3 wBusy).srv.intake.left ≠ 0 ∧
    (wOne 3 wBusy).srv.sealing = [] ∧
    wPark.ringSeq = (wOne 3 wBusy).srv.intake.consumer % 65536 ∧
    wPark.stream ≤ 8191 ∧
    wPark.clean = true ∧
    (wOne 3 wBusy).stream? wPark.stream = some wBusy ∧
    wBusy.state ≠ StreamState.ending ∧
    wPark.kind = 5 ∧
    (wBusy.state = StreamState.active ∨ wBusy.state = StreamState.idle) := by decide

theorem witness_unpark :
    (wOne 8191 wParked).srv.intake.left ≠ 0 ∧
    (wOne 8191 wParked).srv.sealing = [] ∧
    wUnpark.ringSeq = (wOne 8191 wParked).srv.intake.consumer % 65536 ∧
    wUnpark.stream ≤ 8191 ∧
    wUnpark.clean = true ∧
    (wOne 8191 wParked).stream? wUnpark.stream = some wParked ∧
    wParked.state ≠ StreamState.ending ∧
    wUnpark.kind = 6 ∧
    wParked.state = StreamState.parked ∧
    kget? (wOne 8191 wParked).pages.moves wUnpark.stream = none := by decide

theorem witness_no_record_between_reads :
    (State.reset.srv.intake.left = 0 ∨ State.reset.srv.sealing ≠ []) := by decide

theorem witness_record_out_of_order :
    (wOne 3 wIdle).srv.intake.left ≠ 0 ∧
    (wOne 3 wIdle).srv.sealing = [] ∧
    wLate.ringSeq ≠ (wOne 3 wIdle).srv.intake.consumer % 65536 ∧
    wLate.kind ≤ 6 := by decide

theorem witness_copies_end :
    (wIntake
              { streams := [(3, wBusy), (4, wBusy)],
                intake := { copying := [3, 3, 8191], copyDue := true } }).srv.intake.left =
      0 ∧
    (wIntake
              { streams := [(3, wBusy), (4, wBusy)],
                intake := { copying := [3, 3, 8191], copyDue := true } }).srv.intake.copying ≠
      [] := by decide

theorem witness_copies_are_read :
    (wIntake
              { streams := [(3, wBusy), (4, wBusy)],
                intake := { copying := [3, 8191], copyDue := true } }).srv.intake.left =
      0 ∧
    (wIntake
              { streams := [(3, wBusy), (4, wBusy)],
                intake := { copying := [3, 8191], copyDue := true } }).srv.intake.copying ≠
      [] := by decide

theorem witness_seal_starts :
    (wRings { streams := [(3, wBusy)] }).planner.stepOf 9 = some wStep ∧
    wStep.complete = true ∧
    (wRings { streams := [(3, wBusy)] }).sealsAfter wStep = false ∧
    (wRings { streams := [(3, wBusy)] }).srv.intake.left = 0 ∧
    (wRings { streams := [(3, wBusy)] }).srv.sealing = [] ∧
    (wRings { streams := [(3, wBusy)] }).hlk.up = true ∧
    (∀
      q ∈
        List.filter (fun x => x.entry)
          (List.filterMap (((wRings { streams := [(3, wBusy)] }).stamp 0).sealRow wStep) wStep.streams),
      ((wRings { streams := [(3, wBusy)] }).stamp 0).recordFits (groupOf q.stream)
          (List.filter (fun r => decide (groupOf r.stream = groupOf q.stream))
              (List.filter (fun x => x.entry)
                (List.filterMap (((wRings { streams := [(3, wBusy)] }).stamp 0).sealRow wStep)
                  wStep.streams))).length =
        true) := by decide

theorem witness_seal_ends :
    List.find? (fun x => decide (x.step = 9))
        (wRings { streams := [(3, wBusy)], sealing := [wSeal] }).srv.sealing =
      some wSeal ∧
    (wRings { streams := [(3, wBusy)], sealing := [wSeal] }).planner.stepOf 9 = some wStep ∧
    (∀ a ∈ (wRings { streams := [(3, wBusy)], sealing := [wSeal] }).hlk.ordered,
      ∀ (i : Bool), a.req ≠ HostReq.seal 9 i) := by decide

theorem witness_notices_leave :
    31 < 32 ∧
    kgetD (wRings { notices := [(31, [wNotice])] }).srv.notices 31 [] ≠ [] ∧
    (wRings { notices := [(31, [wNotice])] }).srv.intake.left = 0 ∧
    (wRings { notices := [(31, [wNotice])] }).srv.sealing = [] ∧
    (wRings { notices := [(31, [wNotice])] }).recordFits 31
        (min 256 (kgetD (wRings { notices := [(31, [wNotice])] }).srv.notices 31 []).length) =
      true := by decide

theorem witness_ring_set :
    1 ≤ 1 ∧
    1 ≤ 7 ∧
    ringRange State.reset.part 1 4096 = true ∧
    State.reset.anyStream = false ∧
    ksorted State.reset.regs = true := by decide

theorem witness_ring_set_last :
    1 ≤ 7 ∧
    7 ≤ 7 ∧
    ringRange State.reset.part 7 1024 = true ∧
    State.reset.anyStream = false ∧
    ksorted State.reset.regs = true := by decide

theorem witness_pump_waits :
    (State.reset.hlk.orderedBusy = true ∨
      State.reset.hlk.up = false ∨ State.reset.hlk.ordered = [] ∧ State.reset.srv.eventQueue = []) := by decide

theorem witness_no_copy_failed :
    (wIntake { intake := { copying := [8191], copyDue := true } }).srv.intake.left = 0 ∧
    (wIntake { intake := { copying := [8191], copyDue := true } }).srv.intake.copying ≠ [] ∧
    (∀ n x, (wIntake { intake := { copying := [8191], copyDue := true } }).stream? n = some x →
      (x.turn.toList ++ x.queued).all (fun y => !y.copyFailed) = true) :=
  ⟨by decide, by decide, fun _ _ h => nomatch h⟩

theorem witness_signal_tile :
    (wSync 1 0 2 { }).syncHead 0 0 1 = some (wOp 1 0 2) ∧
    ((wSync 1 0 2 { }).stamp 0).localObj (wOp 1 0 2).object = some wTileRef ∧
    ((wSync 1 0 2 { }).obj wTileRef).state ≠ NodeState.broken ∧
    ((wSync 1 0 2 { }).obj wTileRef).waits = [] ∧
    (0 < ((wSync 1 0 2 { }).obj wTileRef).value + (wOp 1 0 2).arg ∨
      kget? (if wTileRef.bank = true then (wSync 1 0 2 { }).syn.banks else (wSync 1 0 2 { }).syn.tiles)
          wTileRef.key ≠
        some { }) := by decide

theorem witness_signal_zero :
    (wSync 1 0 0 { }).syncHead 0 0 1 = some (wOp 1 0 0) ∧
    ((wSync 1 0 0 { }).stamp 0).localObj (wOp 1 0 0).object = some wTileRef ∧
    ((wSync 1 0 0 { }).obj wTileRef).state ≠ NodeState.broken ∧
    ((wSync 1 0 0 { }).obj wTileRef).waits = [] ∧
    (0 < ((wSync 1 0 0 { }).obj wTileRef).value + (wOp 1 0 0).arg ∨
      kget? (if wTileRef.bank = true then (wSync 1 0 0 { }).syn.banks else (wSync 1 0 0 { }).syn.tiles)
          wTileRef.key ≠
        some { }) := by decide

theorem witness_signal_bank :
    (wSync 1 1073741829 2 { }).syncHead 0 0 1 = some (wOp 1 1073741829 2) ∧
    ((wSync 1 1073741829 2 { }).stamp 0).localObj (wOp 1 1073741829 2).object = some wBankRef ∧
    ((wSync 1 1073741829 2 { }).obj wBankRef).state ≠ NodeState.broken ∧
    ((wSync 1 1073741829 2 { }).obj wBankRef).waits = [] ∧
    (0 < ((wSync 1 1073741829 2 { }).obj wBankRef).value + (wOp 1 1073741829 2).arg ∨
      kget?
          (if wBankRef.bank = true then (wSync 1 1073741829 2 { }).syn.banks
          else (wSync 1 1073741829 2 { }).syn.tiles)
          wBankRef.key ≠
        some { }) := by decide

theorem witness_signal_saturates :
    (wSync 1 0 2 wNearlyFull).syncHead 0 0 1 = some (wOp 1 0 2) ∧
    ((wSync 1 0 2 wNearlyFull).stamp 0).localObj (wOp 1 0 2).object = some wTileRef ∧
    ((wSync 1 0 2 wNearlyFull).obj wTileRef).state ≠ NodeState.broken ∧
    ((wSync 1 0 2 wNearlyFull).obj wTileRef).waits = [] ∧
    (0 < ((wSync 1 0 2 wNearlyFull).obj wTileRef).value + (wOp 1 0 2).arg ∨
      kget?
          (if wTileRef.bank = true then (wSync 1 0 2 wNearlyFull).syn.banks
          else (wSync 1 0 2 wNearlyFull).syn.tiles)
          wTileRef.key ≠
        some { }) := by decide

theorem witness_signal_broken :
    (wSync 1 0 2 wBrokenTile).syncHead 0 0 1 = some (wOp 1 0 2) ∧
    ((wSync 1 0 2 wBrokenTile).stamp 0).localObj (wOp 1 0 2).object = some wTileRef ∧
    ((wSync 1 0 2 wBrokenTile).obj wTileRef).state = NodeState.broken ∧
    ((wSync 1 0 2 wBrokenTile).part? (4 * 0 + 0)).tokenSent = false := by decide

theorem witness_wait_registers :
    (wSync 2 1073741829 2 { }).syncHead 0 0 2 = some (wOp 2 1073741829 2) ∧
    ((wSync 2 1073741829 2 { }).stamp 0).localObj (wOp 2 1073741829 2).object = some wBankRef ∧
    ((wSync 2 1073741829 2 { }).obj wBankRef).state ≠ NodeState.broken ∧
    ((wSync 2 1073741829 2 { }).part? (4 * 0 + 0)).registered = false ∧
    ((wSync 2 1073741829 2 { }).obj wBankRef).waits = [] ∧
    ((wSync 2 1073741829 2 { }).obj wBankRef).value < (wOp 2 1073741829 2).arg := by decide

theorem witness_span_signal :
    ((wSpan { }).obj (spanRef 2281701381)).state ≠ NodeState.broken ∧
    ((wSpan { }).obj (spanRef 2281701381)).waits = [] ∧
    (0 < ((wSpan { }).obj (spanRef 2281701381)).value + 3 % 2 ^ 32 ∨
      kget? (wSpan { }).syn.banks (spanRef 2281701381).key ≠ some { }) := by decide

theorem witness_span_register :
    ((wSpan { }).obj (spanRef 2281701381)).state ≠ NodeState.broken ∧
    ((wSpan { }).obj (spanRef 2281701381)).waits = [] ∧
    ((wSpan { }).obj (spanRef 2281701381)).value < wWait.threshold := by decide

theorem witness_wait_released :
    ((wSync 2 2550136837 2 wWaits).part? (4 * 0 + 0)).registered = true ∧
    ((wSync 2 2550136837 2 wWaits).stamp 0).syncOp 0 = some (wOp 2 2550136837 2) ∧
    (wOp 2 2550136837 2).opcode = 2 ∧
    ((wSync 2 2550136837 2 wWaits).stamp 0).localObj (wOp 2 2550136837 2).object = none := by decide

theorem witness_wait_of_saved_pass :
    ((wSpan { context := some wContext }).part? (4 * 0 + 0)).registered = false ∧
    (wSpan { context := some wContext }).syn.context = some wContext ∧
    (kgetD wContext.participants (4 * 0 + 0) { }).registered = true ∧
    (4 * 0 + 0, 0) ∉ wContext.releases := by decide

theorem witness_break_node :
    (wSpan { }).lce.position = some (objectModule 2298478597) ∧
    bits 2298478597 31 30 = 2 := by decide

theorem witness_tile_arrives :
    (wSync 3 0 2 { }).syncHead 0 0 3 = some (wOp 3 0 2) ∧
    ((wSync 3 0 2 { }).obj { bank := false, key := (wOp 3 0 2).tileKey }).state = NodeState.opn ∧
    ((wSync 3 0 2 { }).part? (4 * 0 + 0)).phase =
      ((wSync 3 0 2 { }).obj { bank := false, key := (wOp 3 0 2).tileKey }).phase ∧
    ((wSync 3 0 2 { }).part? (4 * 0 + 0)).arrived = false := by decide

theorem witness_tile_at_barrier :
    (wSync 4 0 2 { }).syncHead 0 0 4 = some (wOp 4 0 2) ∧
    ((wSync 4 0 2 { }).obj { bank := false, key := (wOp 4 0 2).tileKey }).state = NodeState.opn ∧
    ((wSync 4 0 2 { }).part? (4 * 0 + 0)).phase =
      ((wSync 4 0 2 { }).obj { bank := false, key := (wOp 4 0 2).tileKey }).phase ∧
    ((wSync 4 0 2 { }).part? (4 * 0 + 0)).arrived = false := by decide

theorem witness_node_counts :
    ((wSpan { }).obj wTileRef).state = NodeState.opn := by decide

theorem witness_child_arrives :
    ((wSpan { banks := [(3589, wNode)] }).obj (spanRef 5)).state = NodeState.opn ∧
    ((wSpan { banks := [(3589, wNode)] }).obj (spanRef 5)).barrier = true ∧
    (((wSpan { banks := [(3589, wNode)] }).obj (spanRef 5)).target = 0 ∨
      min (2 ^ 32 - 1) (((wSpan { banks := [(3589, wNode)] }).obj (spanRef 5)).value + 1) <
        ((wSpan { banks := [(3589, wNode)] }).obj (spanRef 5)).target) := by decide

theorem witness_child_arrives_without_target :
    ((wSpan { banks := [(3589, wUncounted)] }).obj (spanRef 5)).state = NodeState.opn ∧
    ((wSpan { banks := [(3589, wUncounted)] }).obj (spanRef 5)).barrier = true ∧
    (((wSpan { banks := [(3589, wUncounted)] }).obj (spanRef 5)).target = 0 ∨
      min (2 ^ 32 - 1) (((wSpan { banks := [(3589, wUncounted)] }).obj (spanRef 5)).value + 1) <
        ((wSpan { banks := [(3589, wUncounted)] }).obj (spanRef 5)).target) := by decide

theorem witness_release_node :
    ((wTree { banks := [(3589, wComplete)] }).obj (spanRef 5)).state = NodeState.complete ∧
    (wTree { banks := [(3589, wComplete)] }).syn.tiles = [] ∧
    (wTree { banks := [(3589, wComplete)] }).syn.context = none ∧
    (wTree { banks := [(3589, wComplete)] }).spanChildren
        ((wTree { banks := [(3589, wComplete)] }).obj (spanRef 5)) ≠
      [] ∧
    ((wTree { banks := [(3589, wComplete)] }).obj (spanRef 5)).barrier = true := by decide

theorem witness_node_answered :
    ((wTree { banks := [(3589, wReleasing)] }).obj (spanRef 5)).state = NodeState.releasing ∧
    (wTree { banks := [(3589, wReleasing)] }).syn.tiles = [] ∧
    (wTree { banks := [(3589, wReleasing)] }).syn.context = none ∧
    ((wTree { banks := [(3589, wReleasing)] }).obj (spanRef 5)).answers + 1 <
      ((wTree { banks := [(3589, wReleasing)] }).spanChildren
          ((wTree { banks := [(3589, wReleasing)] }).obj (spanRef 5))).length := by decide

theorem witness_node_reopens :
    ((wTree { banks := [(3589, wReopening)] }).obj (spanRef 5)).state = NodeState.reopening ∧
    (wTree { banks := [(3589, wReopening)] }).syn.tiles = [] := by decide

theorem witness_guard_expires_elsewhere :
    ((wSync 2 2550136837 2 wHeldLong).stamp 1024).syncOp 0 = some (wOp 2 2550136837 2) ∧
    ((wSync 2 2550136837 2 wHeldLong).part? (4 * 0 + 0)).heldSince.isSome = true ∧
    ((wSync 2 2550136837 2 wHeldLong).part? (4 * 0 + 0)).pass = false ∧
    (wSync 2 2550136837 2 wHeldLong).syn.phase = PreemptPhase.none ∧
    (wSync 2 2550136837 2 wHeldLong).guardLimit (wOp 2 2550136837 2) ≤
      ((wSync 2 2550136837 2 wHeldLong).stamp 1024).guardTime ((wSync 2 2550136837 2 wHeldLong).part? (4 * 0 + 0)) := by decide

theorem witness_context_saved :
    (wSync 1 0 2 { phase := PreemptPhase.saving }).planner.running = some wRun ∧
    (wSync 1 0 2 { phase := PreemptPhase.saving }).syn.phase = PreemptPhase.saving ∧
    (wSync 1 0 2 { phase := PreemptPhase.saving }).saveWaits = false := by decide

theorem witness_context_restored :
    (wSpan { phase := PreemptPhase.restoring, context := some wContext }).syn.context = some wContext ∧
    (wSpan { phase := PreemptPhase.restoring, context := some wContext }).syn.phase = PreemptPhase.restoring ∧
    wContext.releases = [] ∧
    wContext.stations = [] ∧
    (Option.map (fun x => x.pool)
            ((wSpan { phase := PreemptPhase.restoring, context := some wContext }).store.active.bind fun a =>
              List.find? (fun l => decide (l.lastId = wContext.run.entry.lastId)) a.lasts)).getD
        false =
      false := by decide

theorem witness_context_restored_2 :
    (wSpan { phase := PreemptPhase.restoring, context := some wContext }).syn.context = some wContext ∧
    (wSpan { phase := PreemptPhase.restoring, context := some wContext }).syn.phase = PreemptPhase.restoring := by decide

theorem witness_dark_lace_trains :
    3 < 4 ∧
    3 < (wIn LaceState.dark 0).lce.laces.length ∧
    (((wIn LaceState.dark 0).lace 3).state = LaceState.dark ∨
      ((wIn LaceState.dark 0).lace 3).state = LaceState.down ∧
        ((wIn LaceState.dark 0).lace 3).cause ≠ 4 ∧ ((wIn LaceState.dark 0).lace 3).cause ≠ 5) := by decide

theorem witness_down_lace_trains :
    0 < 4 ∧
    0 < (wIn LaceState.down 1).lce.laces.length ∧
    (((wIn LaceState.down 1).lace 0).state = LaceState.dark ∨
      ((wIn LaceState.down 1).lace 0).state = LaceState.down ∧
        ((wIn LaceState.down 1).lace 0).cause ≠ 4 ∧ ((wIn LaceState.down 1).lace 0).cause ≠ 5) := by decide

theorem witness_training_completes :
    0 < 4 ∧
    0 < (wIn LaceState.training 0).lce.laces.length ∧
    ((wIn LaceState.training 0).lace 0).state = LaceState.training := by decide

theorem witness_training_times_out :
    0 < 4 ∧
    0 < wSlow.lce.laces.length ∧
    (wSlow.lace 0).state = LaceState.training ∧
    (wSlow.lace 0).trainings ≤ 1 ∧
    (wSlow.lace 0).trainStart + 50000000 ≤ (wSlow.stamp 5).clock := by decide

theorem witness_miswired_retry :
    0 < 4 ∧
    0 < wMiswired.lce.laces.length ∧
    (wMiswired.lace 0).state = LaceState.down ∧
    (wMiswired.lace 0).cause = 4 ∧
    (wMiswired.lace 0).downSince + 160 ≤ wMiswired.uptime := by decide

theorem witness_heater_steps :
    0 < 4 ∧
    0 < wUp.lce.laces.length ∧
    (wUp.lace 0).state.framed = true := by decide

theorem witness_heater_lane_fails :
    0 < 4 ∧
    0 < wUp.lce.laces.length ∧
    (wUp.lace 0).state.framed = true := by decide

theorem witness_hello_answered :
    0 < 4 ∧
    0 < (wIn LaceState.hello 0).lce.laces.length ∧
    ((wIn LaceState.hello 0).lace 0).state.framed = true ∧
    (wIn LaceState.hello 0).lce.position.isSome = true := by decide

theorem witness_hello_not_ready :
    0 < 4 ∧
    0 < (wIn LaceState.training 0).lce.laces.length ∧
    ((wIn LaceState.training 0).lace 0).state = LaceState.training := by decide

theorem witness_hello_ack :
    0 < 4 ∧
    0 < (wIn LaceState.hello 0).lce.laces.length ∧
    ((wIn LaceState.hello 0).lace 0).state = LaceState.hello ∧
    (wIn LaceState.hello 0).lce.position = some 9 ∧
    wHelloMsg.position = neighbour 9 0 ∧
    wHelloMsg.rackId = (wIn LaceState.hello 0).lce.rackId ∧
    wHelloMsg.lace = opposite 0 := by decide

theorem witness_hello_ack_wrong :
    0 < 4 ∧
    0 < (wIn LaceState.hello 0).lce.laces.length ∧
    ((wIn LaceState.hello 0).lace 0).state = LaceState.hello ∧
    (wIn LaceState.hello 0).lce.position = some 9 ∧
    (wWrongHello.position ≠ neighbour 9 0 ∨
      wWrongHello.rackId ≠ (wIn LaceState.hello 0).lce.rackId ∨ wWrongHello.lace ≠ opposite 0) := by decide

theorem witness_not_ready :
    0 < 4 ∧
    0 < (wIn LaceState.hello 0).lce.laces.length ∧
    ((wIn LaceState.hello 0).lace 0).state = LaceState.hello := by decide

theorem witness_frame_accepted :
    0 < 4 ∧
    0 < wUp.lce.laces.length ∧
    (wUp.lace 0).state.framed = true ∧
    wFrame.correctable = true ∧
    wFrame.crcGood = true ∧
    wFrame.linkEpoch = (wUp.lace 0).linkEpoch ∧
    wFrame.frameSeq = (wUp.lace 0).rxSeq ∧
    ((wUp.lace 0).awaitReplay = true → wFrame.replay = true) := by decide

theorem witness_frame_garbled :
    0 < 4 ∧
    0 < wUp.lce.laces.length ∧
    (wUp.lace 0).state.framed = true ∧
    wGarbled.correctable = false := by decide

theorem witness_frame_bad_crc :
    0 < 4 ∧
    0 < wUp.lce.laces.length ∧
    (wUp.lace 0).state.framed = true ∧
    wBadCrc.correctable = true ∧
    (wBadCrc.crcGood = false ∨
      wBadCrc.linkEpoch ≠ (wUp.lace 0).linkEpoch ∨
        wBadCrc.frameSeq ≠ (wUp.lace 0).rxSeq ∨ (wUp.lace 0).awaitReplay = true ∧ wBadCrc.replay = false) := by decide

theorem witness_frame_ahead :
    0 < 4 ∧
    0 < wUp.lce.laces.length ∧
    (wUp.lace 0).state.framed = true ∧
    wAhead.correctable = true ∧
    (wAhead.crcGood = false ∨
      wAhead.linkEpoch ≠ (wUp.lace 0).linkEpoch ∨
        wAhead.frameSeq ≠ (wUp.lace 0).rxSeq ∨ (wUp.lace 0).awaitReplay = true ∧ wAhead.replay = false) := by decide

theorem witness_frame_stale :
    0 < 4 ∧
    0 < wUp.lce.laces.length ∧
    (wUp.lace 0).state.framed = true ∧
    wStale.correctable = true ∧
    (wStale.crcGood = false ∨
      wStale.linkEpoch ≠ (wUp.lace 0).linkEpoch ∨
        wStale.frameSeq ≠ (wUp.lace 0).rxSeq ∨ (wUp.lace 0).awaitReplay = true ∧ wStale.replay = false) := by decide

theorem witness_replay_held :
    0 < 4 ∧
    0 < wUp.lce.laces.length ∧
    (wUp.lace 0).state.framed = true ∧
    ((wUp.lace 0).txSeq + 65536 - 0) % 65536 ≤ (wUp.lace 0).held := by decide

theorem witness_replay_not_held :
    0 < 4 ∧
    0 < wUp.lce.laces.length ∧
    (wUp.lace 0).state.framed = true ∧
    (wUp.lace 0).held < ((wUp.lace 0).txSeq + 65536 - 65535) % 65536 := by decide

theorem witness_leaving_heard :
    0 < 4 ∧
    (wUp.lace 0).state.framed = true ∧
    wUp.firstSeen (wLinkNotice 2).origin (wLinkNotice 2).seq = true ∧
    ((wLinkNotice 2).notice = 2 ∨ (wLinkNotice 2).notice = 3 ∧ (wLinkNotice 2).subject ∉ wUp.lce.missing) := by decide

theorem witness_returned_heard :
    0 < 4 ∧
    (wUp.lace 0).state.framed = true ∧
    wUp.firstSeen (wLinkNotice 3).origin (wLinkNotice 3).seq = true ∧
    (wLinkNotice 3).notice = 3 := by decide

theorem witness_lost_heard :
    0 < 4 ∧
    (wUp.lace 0).state.framed = true ∧
    wUp.firstSeen (wLinkNotice 1).origin (wLinkNotice 1).seq = true ∧
    (wLinkNotice 1).notice = 1 := by decide

theorem witness_goodbye_heard :
    0 < 4 ∧
    (wUp.lace 0).state.framed = true ∧
    0 < wUp.lce.laces.length := by decide

theorem witness_span_hello_heard :
    0 < 4 ∧
    (wUp.lace 0).state.framed = true := by decide

theorem witness_span_set :
    1536 < 2 ^ 64 ∧
    7 < 2 ^ 32 ∧
    wUp.lce.position = some 9 ∧
    bit 1536 9 = true ∧
    (∀ q ∈ wUp.lce.missing, bit 1536 q = false) ∧
    wUp.anyStream = false := by decide

theorem witness_span_without_module :
    1024 < 2 ^ 64 ∧
    7 < 2 ^ 32 ∧
    wUp.lce.position = some 9 ∧
    1024 ≠ 0 ∧
    bit 1024 9 = false := by decide

theorem witness_span_in_use :
    1536 < 2 ^ 64 ∧
    7 < 2 ^ 32 ∧
    wStreaming.lce.position = some 9 ∧
    bit 1536 9 = true ∧
    wStreaming.lce.missing = [] ∧
    wStreaming.anyStream = true := by decide

theorem witness_light_lost :
    0 < 4 ∧
    0 < wUp.lce.laces.length ∧
    (wUp.lace 0).state.framed = true := by decide

theorem witness_light_lost_training :
    0 < 4 ∧
    0 < (wIn LaceState.training 0).lce.laces.length ∧
    ((wIn LaceState.training 0).lace 0).state = LaceState.training := by decide

theorem witness_lace_drained :
    0 < 4 ∧
    0 < wDrained.lce.laces.length ∧
    (wDrained.lace 0).state = LaceState.leaving ∧
    wDrained.pwr.drainEffective = true ∧
    (wDrained.lace 0).waiting = [] ∧
    (wDrained.lace 0).replayBuffer = [] := by decide

theorem witness_laser_lost :
    0 < wUp.part.eyelets ∧
    0 < wUp.lce.laserA.length ∧
    wUp.lce.laserB.getD 0 false = true := by decide

theorem witness_last_laser_lost :
    0 < wDark.part.eyelets ∧
    0 < wDark.lce.laserA.length ∧
    wDark.lce.laserB.getD 0 false = false := by decide

theorem witness_laser_returns :
    0 < (wIn LaceState.down 5).part.eyelets ∧
    0 < (wIn LaceState.down 5).lce.laserA.length := by decide

theorem witness_span_fault_heard :
    0 < 4 ∧
    (wSpanned.lace 0).state.framed = true ∧
    wSpanned.firstSeen 10 1 = true ∧
    7 = wSpanned.lce.spanTag ∧
    1 < wSpanned.lce.members.length := by decide

theorem witness_dispatch_held :
    0 < (wPool (wBatch [] 1)).part.uplinks ∧
    ((wPool (wBatch [] 1)).uplink 0).state = UplinkState.up ∧
    wGood.tagged = false ∧
    wGood.extension = false ∧
    wGood.checksumGood = true ∧
    wGood.addressed = true ∧
    wMessage.good = true ∧
    (wPool (wBatch [] 1)).hostAt wMessage.source = some (2, wHost) ∧
    bit wMessage.flags 2 = false ∧
    (wPool (wBatch [] 1)).serveRefusal wMessage = none := by decide

theorem witness_dispatch_refused :
    0 < (wPool (wBatch [] 0)).part.uplinks ∧
    ((wPool (wBatch [] 0)).uplink 0).state = UplinkState.up ∧
    wGood.tagged = false ∧
    wGood.extension = false ∧
    wGood.checksumGood = true ∧
    wGood.addressed = true ∧
    wMessage.good = true ∧
    (wPool (wBatch [] 0)).hostAt wMessage.source = some (2, wHost) ∧
    bit wMessage.flags 2 = false ∧
    (wPool (wBatch [] 0)).serveRefusal wMessage = some 1 := by decide

theorem witness_frame_discarded :
    0 < (wPool (wBatch [] 0)).part.uplinks ∧
    ((wPool (wBatch [] 0)).uplink 0).state = UplinkState.up ∧
    0 < (wPool (wBatch [] 0)).dsp.uplinks.length ∧
    (wTagged.tagged = true ∨ wTagged.extension = true ∨ wTagged.checksumGood = false ∨ wTagged.addressed = false) := by decide

theorem witness_return_taken :
    0 < (wPool (wBatch [wChoice] 1)).part.uplinks ∧
    ((wPool (wBatch [wChoice] 1)).uplink 0).state = UplinkState.up ∧
    wGood.tagged = false ∧
    wGood.extension = false ∧
    wGood.checksumGood = true ∧
    wGood.addressed = true ∧
    wMessage.good = true ∧
    (wPool (wBatch [wChoice] 1)).hostAt wMessage.source = some (2, wHost) ∧
    bit wMessage.flags 2 = false ∧
    wMessage.status = 0 ∧
    (wPool (wBatch [wChoice] 1)).dsp.batchId = some wMessage.batchId ∧
    (wPool (wBatch [wChoice] 1)).dsp.gen ≤ wMessage.gen ∧
    (∀ x ∈ (wPool (wBatch [wChoice] 1)).dsp.cancelled,
      x.batch ≠ wMessage.batchId ∨ x.gen ≠ wMessage.gen ∨ x.host ≠ 2 ∨ x.no ≠ wMessage.dispatchNo) ∧
    List.find?
        (fun c =>
          decide (c.no = wMessage.dispatchNo) && decide (c.host = 2) && c.sent && c.result.isNone &&
              decide (c.gen = wMessage.gen) &&
            decide ((wPool (wBatch [wChoice] 1)).dsp.batchId = some wMessage.batchId))
        (wPool (wBatch [wChoice] 1)).dsp.choices =
      some wChoice := by decide

theorem witness_batch_end :
    0 < (wPool (wBatch [wChoice] 1)).part.uplinks ∧
    ((wPool (wBatch [wChoice] 1)).uplink 0).state = UplinkState.up ∧
    wGood.tagged = false ∧
    wGood.extension = false ∧
    wGood.checksumGood = true ∧
    wGood.addressed = true ∧
    wMessage.good = true ∧
    (wPool (wBatch [wChoice] 1)).hostAt wMessage.source = some (2, wHost) ∧
    (wPool (wBatch [wChoice] 1)).dsp.batchId = some wMessage.batchId := by decide

theorem witness_dispatch_cancel :
    0 < (wPool (wBatch [wChoice] 1)).part.uplinks ∧
    ((wPool (wBatch [wChoice] 1)).uplink 0).state = UplinkState.up ∧
    wGood.tagged = false ∧
    wGood.extension = false ∧
    wGood.checksumGood = true ∧
    wGood.addressed = true ∧
    wMessage.good = true ∧
    (wPool (wBatch [wChoice] 1)).hostAt wMessage.source = some (2, wHost) ∧
    (wPool (wBatch [wChoice] 1)).dsp.batchId = some wMessage.batchId := by decide

theorem witness_credit :
    0 < (wPool wCancelled).part.uplinks ∧
    ((wPool wCancelled).uplink 0).state = UplinkState.up ∧
    wGood.tagged = false ∧
    wGood.extension = false ∧
    wGood.checksumGood = true ∧
    wGood.addressed = true ∧
    wMessage.good = true ∧
    (wPool wCancelled).hostAt wMessage.source = some (2, wHost) := by decide

theorem witness_own_choice_again :
    List.find? (fun c => decide (c.no = 6) && c.sent && c.result.isNone) (wTimedOut wOwn).dsp.choices = some wOwn ∧
    wOwn.sentAt + 1024 * (wTimedOut wOwn).reg Reg.DSP_RETURN_TIMEOUT ≤ ((wTimedOut wOwn).stamp 156249).clock ∧
    wOwn.resent = false ∧
    wOwn.host = 65535 := by decide

theorem witness_choice_sent_again :
    List.find? (fun c => decide (c.no = 6) && c.sent && c.result.isNone) (wTimedOut wChoice).dsp.choices =
      some wChoice ∧
    wChoice.sentAt + 1024 * (wTimedOut wChoice).reg Reg.DSP_RETURN_TIMEOUT ≤
      ((wTimedOut wChoice).stamp 156249).clock ∧
    wChoice.resent = false ∧
    wChoice.host ≠ 65535 := by decide

theorem witness_choice_lost :
    List.find? (fun c => decide (c.no = 6) && c.sent && c.result.isNone) (wTimedOut wResent).dsp.choices =
      some wResent ∧
    wResent.sentAt + 1024 * (wTimedOut wResent).reg Reg.DSP_RETURN_TIMEOUT ≤
      ((wTimedOut wResent).stamp 156249).clock ∧
    wResent.resent = true := by decide

theorem witness_batch_closes :
    (wPool (wBatch [] 1)).planner.running = some wRun ∧
    List.find? (fun e => decide (e.1 = 0)) ((wPool (wBatch [] 1)).dspStations 1) = some (0, wServeOp) ∧
    (wPool (wBatch [] 1)).fab.state = FabState.running ∧
    0 ∉ (wPool (wBatch [] 1)).dsp.closedStations ∧
    wRun.start + wServeOp.closeCycles ≤ ((wPool (wBatch [] 1)).stamp 5).tb.now := by decide

theorem witness_uplink_up :
    15 < (wUplinks wDownlink).part.uplinks ∧
    15 < (wUplinks wDownlink).dsp.uplinks.length ∧
    ((wUplinks wDownlink).uplink 15).state = UplinkState.down := by decide

theorem witness_uplink_down :
    15 < (wUplinks wUplink).part.uplinks ∧
    15 < (wUplinks wUplink).dsp.uplinks.length ∧
    ((wUplinks wUplink).uplink 15).state = UplinkState.up := by decide

theorem witness_uplink_solicited :
    0 < (wUplinks wUplink).part.uplinks ∧
    0 < (wUplinks wUplink).dsp.uplinks.length ∧
    ((wUplinks wUplink).uplink 0).state = UplinkState.up := by decide

theorem witness_uplink_other_solicited :
    0 < (wUplinks wUplink).part.uplinks ∧
    0 < (wUplinks wUplink).dsp.uplinks.length ∧
    1 ≠ (wUplinks wUplink).dspAddress := by decide

theorem witness_hosts_committed :
    wHostBytes ≠ [] ∧
    parseHosts wHostBytes = some ((parseHosts wHostBytes).getD []) := by decide

theorem witness_map_committed :
    wMapBytes ≠ [] ∧
    parseMap wMapBytes = some ((parseMap wMapBytes).getD []) := by decide

theorem witness_serve_committed :
    wServeBytes ≠ [] ∧
    parseServe wServeBytes = some ((parseServe wServeBytes).getD []) := by decide

theorem witness_windows_committed :
    wWindowBytes ≠ [] ∧
    parseWindows wWindowBytes = some ((parseWindows wWindowBytes).getD []) := by decide

theorem witness_hosts_refused :
    parseHosts wMapBytes = none := by decide

theorem witness_ucie_trains :
    3 < 4 ∧
    3 < (wModule UcieState.training).hlk.modules.length ∧
    ((wModule UcieState.training).module 3).state = UcieState.training ∧
    (16 = 16 ∨ 16 = 32) := by decide

theorem witness_ucie_slows :
    0 < 4 ∧
    0 < (wModule UcieState.training).hlk.modules.length ∧
    ((wModule UcieState.training).module 0).state = UcieState.training ∧
    ((wModule UcieState.training).module 0).slow = false := by decide

theorem witness_ucie_fails_to_train :
    0 < 4 ∧
    0 < (wModule UcieState.training).hlk.modules.length ∧
    ((wModule UcieState.training).module 0).state = UcieState.training ∧
    (16 ≠ 32 ∨ ((wModule UcieState.training).module 0).slow = true) := by decide

theorem witness_ucie_trains_again :
    0 < 4 ∧
    0 < (wAged 400 (wModule UcieState.down)).hlk.modules.length ∧
    ((wAged 400 (wModule UcieState.down)).module 0).state = UcieState.down ∧
    ((wAged 400 (wModule UcieState.down)).module 0).downSince + 160 ≤ (wAged 400 (wModule UcieState.down)).uptime := by decide

theorem witness_ucie_crc_recovered :
    0 < 4 ∧
    0 < (wModule UcieState.active).hlk.modules.length ∧
    ((wModule UcieState.active).module 0).state = UcieState.active := by decide

theorem witness_ucie_crc_lost :
    0 < 4 ∧
    0 < (wModule UcieState.active).hlk.modules.length ∧
    ((wModule UcieState.active).module 0).state = UcieState.active := by decide

theorem witness_ucie_retrained :
    0 < 4 ∧
    0 < (wModule UcieState.retrain).hlk.modules.length ∧
    ((wModule UcieState.retrain).module 0).state = UcieState.retrain := by decide

theorem witness_ucie_retrain_fails :
    0 < 4 ∧
    0 < (wModule UcieState.retrain).hlk.modules.length ∧
    ((wModule UcieState.retrain).module 0).state = UcieState.retrain ∧
    (List.filter (fun x => decide (((wModule UcieState.retrain).stamp 5).clock < x + 1250000000))
          ((wModule UcieState.retrain).module 0).retrainFails).length <
      2 := by decide

theorem witness_ucie_third_failure :
    0 < 4 ∧
    0 < wFailing.hlk.modules.length ∧
    (wFailing.module 0).state = UcieState.retrain ∧
    2 ≤
      (List.filter (fun x => decide ((wFailing.stamp 5).clock < x + 1250000000))
          (wFailing.module 0).retrainFails).length := by decide

theorem witness_ucie_protocol_error :
    0 < 4 ∧
    0 < (wModule UcieState.active).hlk.modules.length ∧
    ((wModule UcieState.active).module 0).state ≠ UcieState.off := by decide

theorem witness_read_completes :
    ((wOutstanding wReadOut).module 0).find 5 false = some wReadOut ∧
    0 < (wOutstanding wReadOut).hlk.modules.length ∧
    wReadOut.badData true wChunk.length = false := by decide

theorem witness_read_goes_on :
    ((wOutstanding wReadTwo).module 0).find 5 false = some wReadTwo ∧
    0 < (wOutstanding wReadTwo).hlk.modules.length ∧
    wReadTwo.badData false wChunk.length = false := by decide

theorem witness_read_too_short :
    ((wOutstanding wReadTwo).module 0).find 5 false = some wReadTwo ∧
    0 < (wOutstanding wReadTwo).hlk.modules.length ∧
    wReadTwo.badData true wChunk.length = true ∧
    ((wOutstanding wReadTwo).module 0).state ≠ UcieState.off := by decide

theorem witness_read_fails :
    ((wOutstanding wReadOut).module 3).find 5 false = some wReadOut ∧
    3 < (wOutstanding wReadOut).hlk.modules.length ∧
    (1 ≠ 0 ∨ false = true) := by decide

theorem witness_read_times_out :
    ((wAged 4000 (wOutstanding wReadOut)).module 3).find 5 false = some wReadOut ∧
    3 < (wAged 4000 (wOutstanding wReadOut)).hlk.modules.length ∧
    wReadOut.sentAt + 1250 * (wAged 4000 (wOutstanding wReadOut)).reg Reg.HLK_READ_TIMEOUT ≤
      ((wAged 4000 (wOutstanding wReadOut)).stamp 5).clock := by decide

theorem witness_write_completes :
    ((wOutstanding wWriteOut).module 0).find 5 true = some wWriteOut ∧
    0 < (wOutstanding wWriteOut).hlk.modules.length := by decide

theorem witness_write_fails :
    ((wOutstanding wWriteOut).module 0).find 5 true = some wWriteOut ∧
    0 < (wOutstanding wWriteOut).hlk.modules.length ∧
    2 ≠ 0 := by decide

theorem witness_write_times_out :
    ((wAged 4000 (wOutstanding wWriteOut)).module 0).find 5 true = some wWriteOut ∧
    0 < (wAged 4000 (wOutstanding wWriteOut)).hlk.modules.length ∧
    wWriteOut.sentAt + 1250 * (wAged 4000 (wOutstanding wWriteOut)).reg Reg.HLK_WRITE_TIMEOUT ≤
      ((wAged 4000 (wOutstanding wWriteOut)).stamp 5).clock := by decide

theorem witness_answer_discarded :
    ((wModule UcieState.active).module 0).outstanding = [] := by decide

theorem witness_credits_come :
    0 < 4 ∧
    0 < (wModule UcieState.active).hlk.modules.length := by decide

theorem witness_slot_written :
    0 < 4 ∧
    0 < (wModule UcieState.active).hlk.modules.length ∧
    ((wModule UcieState.active).module 0).state = UcieState.active ∧
    1023 < 1024 ∧
    65472 % 64 = 0 ∧
    63 < 64 ∧
    0 < 64 ∧
    wChunk.length = 64 ∧
    65472 < 65536 := by decide

theorem witness_slot_not_there :
    0 < 4 ∧
    0 < (wModule UcieState.active).hlk.modules.length ∧
    ((wModule UcieState.active).module 0).state = UcieState.active ∧
    1023 < 1024 ∧
    65536 % 64 = 0 ∧
    0 < 64 ∧
    63 < 64 ∧
    wChunk.length = 64 ∧
    65536 ≤ 65536 := by decide

theorem witness_slot_read :
    0 < 4 ∧
    0 < (wModule UcieState.active).hlk.modules.length ∧
    ((wModule UcieState.active).module 0).state = UcieState.active ∧
    1023 < 1024 ∧
    0 % 64 = 0 ∧
    0 < 1 ∧
    1 ≤ 64 ∧
    ((wModule UcieState.active).stamp 5).aperture 0 (64 * 1) =
      some ((((wModule UcieState.active).stamp 5).aperture 0 64).getD []) := by decide

theorem witness_read_out_of_form :
    0 < 4 ∧
    0 < (wModule UcieState.active).hlk.modules.length ∧
    ((wModule UcieState.active).module 0).state = UcieState.active ∧
    1023 < 1024 ∧
    (64 % 64 ≠ 0 ∨ 65 = 0 ∨ 64 < 65) := by decide

theorem witness_all_invalidated :
    ksorted wCached.regs = true := by decide

theorem witness_window_invalidated :
    0 ≤ 3 := by decide

theorem witness_last_window_invalidated :
    3 ≤ 3 := by decide

theorem witness_invalidation_refused :
    3 < 4 ∧
    4 ≠ 255 := by decide

theorem witness_invalidation_completes :
    (wInvalidating wReadOut).hlk.invPending ≠ 0 ∧
    (wInvalidating wReadOut).hlk.oldOut = false := by decide

theorem witness_invalidation_waits :
    (wInvalidating wOldOut).hlk.invPending ≠ 0 ∧
    (wInvalidating wOldOut).hlk.oldOut = true := by decide

theorem witness_object_read :
    (wAsk 0).session = Session.slot 15 ∧
    15 < 16 ∧
    15 < (wDict { }).hlk.slots.length ∧
    (wDict { }).slotsServed = true ∧
    (wDict { }).slotWaits 15 = false ∧
    wCounted (wDict { }) 0 = ((wDict { }).counted 5 (wDict { }).dict.delayed).touchTx (wAsk 0) ∧
    (wAsk 0).txId = 0 ∧
    objRow 8208 3 = some (wRow 8208 3) ∧
    (wRow 8208 3).type ≠ ObjType.domain ∧
    (wRow 8208 3).type ≠ ObjType.str ∧
    absent (wDict { }).part 8208 3 = false ∧
    (wCounted (wDict { }) 0).readable 8208 3 = (Status.OK, 0) := by decide

theorem witness_segment_read :
    (wAsk 0).session = Session.slot 15 ∧
    15 < 16 ∧
    15 < (wDict { }).hlk.slots.length ∧
    (wDict { }).slotsServed = true ∧
    (wDict { }).slotWaits 15 = false ∧
    wCounted (wDict { }) 0 = ((wDict { }).counted 5 (wDict { }).dict.delayed).touchTx (wAsk 0) ∧
    (wAsk 0).txId = 0 ∧
    objRow 28672 2 = some (wRow 28672 2) ∧
    (wRow 28672 2).type = ObjType.domain ∧
    (wCounted (wDict { }) 0).readable 28672 2 = (Status.OK, 0) ∧
    1 ≤ 1024 ∧
    1024 ≤ 1024 := by decide

theorem witness_transaction_status :
    (wAsk 3).session = Session.slot 15 ∧
    15 < 16 ∧
    15 < wInTx.hlk.slots.length ∧
    wInTx.slotsServed = true ∧
    wInTx.slotWaits 15 = false ∧
    wCounted wInTx 3 = (wInTx.counted 5 wInTx.dict.delayed).touchTx (wAsk 3) ∧
    List.find? (fun x => decide (x.id = (wAsk 3).txId)) wInTx.dict.txs = some wOpenTx ∧
    wOpenTx.session = (wAsk 3).session := by decide

theorem witness_multicast_read :
    List.find? (fun e => decide (e.1 ≤ wWaiting.uptime)) wWaiting.dict.delayed = some wDelayed := by decide

theorem witness_begin_taken :
    (wAsk 0).session = Session.slot 15 ∧
    15 < 16 ∧
    15 < (wDict { }).hlk.slots.length ∧
    (wDict { }).slotsServed = true ∧
    (wDict { }).slotWaits 15 = false ∧
    (wDict { }).dict.txs.length < 8 := by decide

theorem witness_write_staged :
    (wAsk 3).session = Session.slot 15 ∧
    15 < 16 ∧
    15 < wInTx.hlk.slots.length ∧
    wInTx.slotsServed = true ∧
    wInTx.slotWaits 15 = false ∧
    List.find? (fun x => decide (x.id = (wAsk 3).txId)) wInTx.dict.txs = some wOpenTx ∧
    wOpenTx.session = (wAsk 3).session ∧
    wOpenTx.state = TxState.opn ∧
    (wAsk 3).txId ≠ 0 ∧
    (DapOp.write [wItem]).shaped = true ∧
    objRow wItem.index wItem.sub = some (wRow 8208 3) ∧
    (wInTx.stamp 5).writable wItem.index wItem.sub true = Status.OK ∧
    (wRow 8208 3).check wInTx.part wItem.type wItem.value = Status.OK ∧
    (∀ (k : ℕ), wInTx.claimer wItem.index wItem.sub = some k → k = wOpenTx.id) ∧
    wOpenTx.items.length < 256 := by decide

theorem witness_segment_staged :
    (wAsk 3).session = Session.slot 15 ∧
    15 < 16 ∧
    15 < wInTx.hlk.slots.length ∧
    wInTx.slotsServed = true ∧
    wInTx.slotWaits 15 = false ∧
    List.find? (fun x => decide (x.id = (wAsk 3).txId)) wInTx.dict.txs = some wOpenTx ∧
    wOpenTx.session = (wAsk 3).session ∧
    wOpenTx.state = TxState.opn ∧
    (wAsk 3).txId ≠ 0 ∧
    1 ≤ [1, 2].length ∧
    [1, 2].length ≤ 1024 ∧
    objRow 28672 2 = some (wRow 28672 2) ∧
    (wRow 28672 2).type = ObjType.domain ∧
    (wInTx.stamp 5).writable 28672 2 true = Status.OK ∧
    wInTx.claimer 28672 2 = none ∧
    [1, 2].length ≤ 16 ∧
    Range.holds wInTx.part 16 (wRow 28672 2).range = true ∧
    wOpenTx.items.length < 256 ∧
    ownArea 28672 2 = true := by decide

theorem witness_commit_scheduled :
    (wAsk 3).session = Session.slot 15 ∧
    15 < 16 ∧
    15 < wInTx.hlk.slots.length ∧
    wInTx.slotsServed = true ∧
    wInTx.slotWaits 15 = false ∧
    List.find? (fun x => decide (x.id = (wAsk 3).txId)) wInTx.dict.txs = some wOpenTx ∧
    wOpenTx.session = (wAsk 3).session ∧
    wOpenTx.state = TxState.opn ∧
    (wAsk 3).txId ≠ 0 ∧
    wInTx.tb.ahead 0 = some 1 := by decide

theorem witness_rollback_taken :
    (wAsk 3).session = Session.slot 15 ∧
    15 < 16 ∧
    15 < wInTx.hlk.slots.length ∧
    wInTx.slotsServed = true ∧
    wInTx.slotWaits 15 = false ∧
    List.find? (fun x => decide (x.id = (wAsk 3).txId)) wInTx.dict.txs = some wOpenTx ∧
    wOpenTx.session = (wAsk 3).session ∧
    wOpenTx.state = TxState.opn ∧
    (wAsk 3).txId ≠ 0 := by decide

theorem witness_write_needs_transaction :
    (wAsk 0).session = Session.slot 15 ∧
    15 < 16 ∧
    15 < (wDict { }).hlk.slots.length ∧
    (wDict { }).slotsServed = true ∧
    (wDict { }).slotWaits 15 = false ∧
    (wAsk 0).txId = 0 ∧
    objRow 28672 2 = some (wRow 28672 2) ∧
    (wRow 28672 2).access = Access.tx ∧
    absent (wDict { }).part 28672 2 = false ∧
    ((wDict { }).stamp 5).waitFor 28672 2 = none ∧
    (DapOp.write [{ index := 28672, sub := 2, type := 3, value := [] }]).shaped = true := by decide

theorem witness_write_at_once :
    (wAsk 0).session = Session.slot 15 ∧
    15 < 16 ∧
    15 < (wDict { }).hlk.slots.length ∧
    (wDict { }).slotsServed = true ∧
    (wDict { }).slotWaits 15 = false ∧
    (wAsk 0).txId = 0 ∧
    ((wDict { }).stamp 5).writable 8209 5 false = Status.OK ∧
    (wDict { }).claimer 8209 5 = none := by decide

theorem witness_transaction_expires :
    List.find?
        (fun x =>
          decide (x.id = 3) && decide (x.state = TxState.opn) &&
            decide ((wDict { txs := [wIdleTx] }).reg Reg.HLK_TX_IDLE_LIMIT ≤ x.idle))
        (wDict { txs := [wIdleTx] }).dict.txs =
      some wIdleTx := by decide

theorem witness_object_written :
    (8208, 3) ∈ [(8208, 3), (8224, 2), (8288, 1)] ∧
    ksorted (wDict { }).regs = true ∧
    ((wDict { }).stamp 5).writable 8208 3 true = Status.OK ∧
    (∀ (r : ObjRow), objRow 8208 3 = some r → r.check (wDict { }).part r.type.code [0, 16, 0, 0] = Status.OK) ∧
    (wDict { }).claimer 8208 3 = none := by decide

theorem witness_object_not_written :
    ((wDict { }).stamp 5).writable 8208 1 true ≠ Status.OK := by decide

theorem witness_slots_polled :
    (wDict { }).slotsServed = true := by decide

theorem witness_slot_without_request :
    (wDict { }).slotWaits 5 = false ∧
    (lget (wDict { }).hlk.slots 5).seq = (lget (wDict { }).hlk.slots 5).doneSeq := by decide

theorem witness_slot_with_request :
    wSlotFull.slotWaits 0 = false ∧
    (lget wSlotFull.hlk.slots 0).seq ≠ (lget wSlotFull.hlk.slots 0).doneSeq ∧
    parseMessage (lget wSlotFull.hlk.slots 0).request = some DapOp.begin := by decide

theorem witness_message_malformed :
    15 < 16 ∧
    15 < (wDict { }).hlk.slots.length ∧
    (wDict { }).slotsServed = true ∧
    (wDict { }).slotWaits 15 = false := by decide

theorem witness_plca_up :
    (wDict { field := FieldState.waitBeacon }).dict.field = FieldState.waitBeacon := by decide

theorem witness_plca_down :
    (wDict { field := FieldState.inCycle }).dict.field = FieldState.inCycle := by decide

theorem witness_address_conflict :
    (wDict { field := FieldState.inCycle, solicited := true }).dict.field = FieldState.inCycle ∧
    (wDict { field := FieldState.inCycle, solicited := true }).dict.solicited = true ∧
    (wDict { field := FieldState.inCycle, solicited := true }).dict.addressUsed = false := by decide

theorem witness_address_settled :
    (wField { solicited := true }).dict.field = FieldState.inCycle ∧
    (wField { solicited := true }).dict.solicited = true ∧
    (wField { solicited := true }).dict.addressUsed = true := by decide

theorem witness_field_solicited :
    (wField { }).fieldUp = true := by decide

theorem witness_field_begin_refused :
    wBeginAsk.session = Session.field 1 2 ∧
    wBeginAsk.good = true ∧
    wBeginAsk.multicast = false ∧
    wGuarded.fieldUp = true ∧
    800 ≤ wGuarded.boot.slots ∧
    wGuarded.cached wBeginAsk = none ∧
    wGuarded.commitWaits wBeginAsk = false ∧
    wGuarded.reg Reg.HLK_FIELD_WRITE_ENABLE = 0 := by decide

theorem witness_strike_expires :
    7 < 8 ∧
    7 < wStruck.ras.quads.length ∧
    (wStruck.quad 7).strikes = [0] ∧
    frameOf 0 + wStruck.reg Reg.RAS_STRIKE_WINDOW ≤ wStruck.tb.frame := by decide

theorem witness_strike_stays :
    7 < 8 ∧
    7 < wStruckNow.ras.quads.length ∧
    (wStruckNow.quad 7).strikes = [65536 * 256 * 7] ∧
    wStruckNow.tb.frame < frameOf (65536 * 256 * 7) + wStruckNow.reg Reg.RAS_STRIKE_WINDOW := by decide

theorem witness_quadrant_fenced :
    0 < 8 ∧
    0 < (wQuads { state := QuadState.suspect }).ras.quads.length ∧
    (((wQuads { state := QuadState.suspect }).quad 0).state = QuadState.working ∨
      ((wQuads { state := QuadState.suspect }).quad 0).state = QuadState.suspect) := by decide

theorem witness_quadrant_unfenced :
    0 < 8 ∧
    0 < (wQuads wClean).ras.quads.length ∧
    ((wQuads wClean).quad 0).state = QuadState.fenced ∧
    ((wQuads wClean).quad 0).awlClean = true := by decide

theorem witness_fence_refused :
    0 < 8 ∧
    0 < (wQuads wClean).ras.quads.length ∧
    ((wQuads wClean).quad 0).state ≠ QuadState.working ∧
    ((wQuads wClean).quad 0).state ≠ QuadState.suspect := by decide

theorem witness_unfence_refused :
    0 < 8 ∧
    0 < (wQuads wTested).ras.quads.length ∧
    (((wQuads wTested).quad 0).state ≠ QuadState.fenced ∨ ((wQuads wTested).quad 0).awlClean = false) := by decide

theorem witness_awl_passes :
    0 < 8 ∧
    0 < (wQuads wTested).ras.quads.length ∧
    ((wQuads wTested).quad 0).current = some ((0, wAwlTest), true) ∧
    (wQuads wTested).planner.running = none ∧
    9 = wAwlTest.expect := by decide

theorem witness_awl_fails :
    0 < 8 ∧
    0 < (wQuads wTested).ras.quads.length ∧
    ((wQuads wTested).quad 0).current = some ((0, wAwlTest), true) ∧
    (wQuads wTested).planner.running = none ∧
    8 ≠ wAwlTest.expect := by decide

theorem witness_awl_targeted :
    7 < 8 ∧
    7 < (wQuads wTested).ras.quads.length := by decide

theorem witness_awl_destructive :
    7 < 8 ∧
    7 < (wQuads wTested).ras.quads.length ∧
    ((wQuads wTested).quad 7).state = QuadState.fenced := by decide

theorem witness_awl_destructive_refused :
    7 < 8 ∧
    7 < (wQuads { }).ras.quads.length ∧
    ((wQuads { }).quad 7).state ≠ QuadState.fenced := by decide

theorem witness_awl_set_load :
    awlFormat wAwlImage = true ∧
    field wAwlImage 6 2 = 177 ∧
    (∀ y ∈ State.reset.ras.sets, y.id = (parseAwlSet wAwlImage).id → y.version ≤ (parseAwlSet wAwlImage).version) ∧
    (List.filter (fun y => y.id != (parseAwlSet wAwlImage).id) State.reset.ras.sets).length < 4 ∧
    (parseAwlSet wAwlImage).size +
        (List.map (fun x => x.size)
            (List.filter (fun y => y.id != (parseAwlSet wAwlImage).id) State.reset.ras.sets)).sum ≤
      4 * 2 ^ 20 := by decide

theorem witness_awl_set_malformed :
    awlFormat wNoBytes = false := by decide

theorem witness_persist_written :
    (wPersist 1023).ras.persistWrite = some [2] := by decide

theorem witness_persist_written_full :
    (wPersist 1024).ras.persistWrite = some [2] := by decide

theorem witness_persist_cleared :
    ksorted State.reset.regs = true := by decide

theorem witness_persist_clear_refused :
    1 < 2 := by decide

theorem witness_domain_starts :
    0 < 20 ∧
    0 < (wPowered wOff).pwr.domains.length ∧
    ((wPowered wOff).domain 0).state = DomainState.off ∧
    (wPowered wOff).xuFor 0 = true ∧
    (wPowered wOff).pwr.stopping = none ∧
    (wPowered wOff).pwr.shutDown = false ∧
    (wPowered wOff).pwr.ejectReady = false := by decide

theorem witness_domain_pends :
    18 < 20 ∧
    18 < (wPowered wOwed).pwr.domains.length ∧
    ((wPowered wOwed).domain 18).state = DomainState.off ∧
    (wPowered wOwed).xuFor 18 = true ∧
    (wPowered wOwed).pwr.stopping = none ∧
    (wPowered wOwed).pwr.shutDown = false ∧
    (wPowered wOwed).pwr.ejectReady = false := by decide

theorem witness_domain_absent :
    0 < 20 ∧
    0 < (wPowered wAbsent).pwr.domains.length ∧
    ((wPowered wAbsent).domain 0).state = DomainState.unpopulated := by decide

theorem witness_domain_stops :
    0 < 20 ∧
    0 < (wFencedQuads wOn).pwr.domains.length ∧
    ((wFencedQuads wOn).domain 0).pending = 0 ∧
    (wFencedQuads wOn).mayDisable 0 = true ∧
    ((wFencedQuads wOn).domain 0).state = DomainState.on := by decide

theorem witness_disable_waits :
    0 < 20 ∧
    0 < (wFencedQuads wStarting).pwr.domains.length ∧
    ((wFencedQuads wStarting).domain 0).pending = 0 ∧
    (wFencedQuads wStarting).mayDisable 0 = true ∧
    ((wFencedQuads wStarting).domain 0).state = DomainState.starting := by decide

theorem witness_start_completes :
    7 < 20 ∧
    7 < (wPowered wStarting).pwr.domains.length ∧
    ((wPowered wStarting).domain 7).state = DomainState.starting ∧
    ((wPowered wStarting).domain 7).disableAsked = false := by decide

theorem witness_link_start_completes :
    18 < 20 ∧
    18 < (wPowered wStarting).pwr.domains.length ∧
    ((wPowered wStarting).domain 18).state = DomainState.starting ∧
    ((wPowered wStarting).domain 18).disableAsked = false := by decide

theorem witness_stop_completes :
    19 < 20 ∧
    19 < (wDomains wStopping).pwr.domains.length ∧
    ((wDomains wStopping).domain 19).state = DomainState.stopping := by decide

theorem witness_min_off_ends :
    0 < 20 ∧
    0 < (wAged 400 (wPowered wRested)).pwr.domains.length ∧
    ((wAged 400 (wPowered wRested)).domain 0).state = DomainState.off ∧
    ((wAged 400 (wPowered wRested)).domain 0).minOff = true ∧
    ((wAged 400 (wPowered wRested)).domain 0).since + 250000 ≤ ((wAged 400 (wPowered wRested)).stamp 5).clock := by decide

theorem witness_min_off_ends_owed :
    0 < 20 ∧
    0 < (wAged 400 (wPowered wOwed)).pwr.domains.length ∧
    ((wAged 400 (wPowered wOwed)).domain 0).state = DomainState.off ∧
    ((wAged 400 (wPowered wOwed)).domain 0).minOff = true ∧
    ((wAged 400 (wPowered wOwed)).domain 0).since + 250000 ≤ ((wAged 400 (wPowered wOwed)).stamp 5).clock := by decide

theorem witness_start_times_out :
    19 < 20 ∧
    19 < (wAged 400 (wDomains wStarting)).pwr.domains.length ∧
    ((wAged 400 (wDomains wStarting)).domain 19).state = DomainState.starting ∧
    startBound 19 <
      ((wAged 400 (wDomains wStarting)).stamp 5).clock - ((wAged 400 (wDomains wStarting)).domain 19).since := by decide

theorem witness_stop_times_out :
    0 < 20 ∧
    0 < (wAged 400 (wDomains wStopping)).pwr.domains.length ∧
    ((wAged 400 (wDomains wStopping)).domain 0).state = DomainState.stopping ∧
    stopBound 0 <
      ((wAged 400 (wDomains wStopping)).stamp 5).clock - ((wAged 400 (wDomains wStopping)).domain 0).since := by decide

theorem witness_rail_fails :
    8 < 20 ∧
    8 < (wDomains wOn).pwr.domains.length ∧
    16 &&& 31 ≠ 0 ∧
    (((wDomains wOn).domain 8).state = DomainState.starting ∨
      ((wDomains wOn).domain 8).state = DomainState.on ∨ ((wDomains wOn).domain 8).state = DomainState.stopping) := by decide

theorem witness_fault_cleared :
    19 < 20 ∧
    19 < (wDomains wOn).pwr.domains.length := by decide

theorem witness_thermal_trip :
    (wDomains wOn).pwr.trip = false := by decide

theorem witness_undervoltage :
    (wDomains wOn).pwr.underVoltage = false := by decide

theorem witness_surprise_removal :
    wUp.pwr.ejectReady = false ∧
    wUp.pwr.presenceBroken = false := by decide

theorem witness_level_kept :
    0 < 4 ∧
    0 = (wCaps { }).pwr.fastLevel := by decide

theorem witness_level_lower :
    1 < 4 ∧
    1 ≠ (wCaps { }).pwr.fastLevel ∧
    ((wCaps { }).atLevel 1).sigmaCap ≤ (wCaps { }).sigmaCap := by decide

theorem witness_level_higher :
    0 < 4 ∧
    0 ≠ (wCaps { fastLevel := 1 }).pwr.fastLevel ∧
    (wCaps { fastLevel := 1 }).sigmaCap < ((wCaps { fastLevel := 1 }).atLevel 0).sigmaCap := by decide

theorem witness_power_warning :
    State.reset.pwr.warn = false := by decide

theorem witness_power_shutdown :
    (wAged 400 (wPower { warn := true })).pwr.warn = true ∧
    (wAged 400 (wPower { warn := true })).pwr.shutDown = false ∧
    (wAged 400 (wPower { warn := true })).warnLimit ≤ ((wAged 400 (wPower { warn := true })).stamp 5).clock := by decide

theorem witness_no_shutdown :
    (State.reset.pwr.warn = false ∨
      State.reset.pwr.shutDown = true ∨ (State.reset.stamp 5).clock < State.reset.warnLimit) := by decide

theorem witness_eject_asked :
    State.reset.pwr.hotSwap = HotSwap.inService := by decide

theorem witness_eject_not_asked :
    (wPower { hotSwap := HotSwap.draining }).pwr.hotSwap ≠ HotSwap.inService := by decide

theorem witness_notices_dropped :
    (wAged 400 wNotices).pwr.drainEffective = true ∧
    (List.map (fun e => e.2.length)
          ((wAged 400 wNotices).srv.notices ++ (wAged 400 wNotices).srv.noticesLater)).sum ≠
      0 ∧
    (wAged 400 wNotices).pwr.effectiveAt + 40 * 156250 ≤ ((wAged 400 wNotices).stamp 5).clock := by decide

theorem witness_eject_ready :
    (wPower { ejectWritten := true, stopping := some StopReason.eject }).pwr.stopping = some StopReason.eject ∧
    (wPower { ejectWritten := true, stopping := some StopReason.eject }).pwr.ejectWritten = true ∧
    ((wPower { ejectWritten := true, stopping := some StopReason.eject }).domain 19).state.down = true := by decide

theorem witness_power_on :
    (Instr.powerOn = Instr.powerOn ∧ 1 = 1 ∨
      Instr.powerOn = Instr.powerFailRestart true ∧
          1 = 2 ∧
            (wOne 3 wIdle).pwr.shutDown = true ∧
              (wOne 3 wIdle).pwr.stopping = none ∧
                (wOne 3 wIdle).pwr.warn = false ∧ (wOne 3 wIdle).pwr.releasedAt + 1250000 ≤ (wOne 3 wIdle).clock ∨
        Instr.powerOn = Instr.ejectRestart ∧ 1 = 3 ∧ (wOne 3 wIdle).pwr.hotSwap = HotSwap.readyToRemove) := by decide

theorem witness_power_fail_restart :
    (Instr.powerFailRestart true = Instr.powerOn ∧ 2 = 1 ∨
      Instr.powerFailRestart true = Instr.powerFailRestart true ∧
          2 = 2 ∧
            (wAged 400 (wPower { shutDown := true })).pwr.shutDown = true ∧
              (wAged 400 (wPower { shutDown := true })).pwr.stopping = none ∧
                (wAged 400 (wPower { shutDown := true })).pwr.warn = false ∧
                  (wAged 400 (wPower { shutDown := true })).pwr.releasedAt + 1250000 ≤
                    (wAged 400 (wPower { shutDown := true })).clock ∨
        Instr.powerFailRestart true = Instr.ejectRestart ∧
          2 = 3 ∧ (wAged 400 (wPower { shutDown := true })).pwr.hotSwap = HotSwap.readyToRemove) := by decide

theorem witness_eject_restart :
    (Instr.ejectRestart = Instr.powerOn ∧ 3 = 1 ∨
      Instr.ejectRestart = Instr.powerFailRestart true ∧
          3 = 2 ∧
            (wPower { hotSwap := HotSwap.readyToRemove }).pwr.shutDown = true ∧
              (wPower { hotSwap := HotSwap.readyToRemove }).pwr.stopping = none ∧
                (wPower { hotSwap := HotSwap.readyToRemove }).pwr.warn = false ∧
                  (wPower { hotSwap := HotSwap.readyToRemove }).pwr.releasedAt + 1250000 ≤
                    (wPower { hotSwap := HotSwap.readyToRemove }).clock ∨
        Instr.ejectRestart = Instr.ejectRestart ∧
          3 = 3 ∧ (wPower { hotSwap := HotSwap.readyToRemove }).pwr.hotSwap = HotSwap.readyToRemove) := by decide

theorem witness_module_reset :
    (wOne 3 wIdle).pwr.shutDown = false ∧
    (wOne 3 wIdle).pwr.coreOff = false ∧
    (wOne 3 wIdle).inReset = false := by decide

theorem witness_firmware_reset_refused :
    ((wOne 3 wIdle).anyStream = true ∨
      (wOne 3 wIdle).store.opState ≠ OpState.idle ∨
        (wOne 3 wIdle).store.switchState ≠ SwitchState.idle ∨ (wOne 3 wIdle).pwr.hotSwap ≠ HotSwap.inService) ∧
    (wOne 3 wIdle).boot.restart = none := by decide

theorem witness_firmware_reset_refused_op :
    (wRunningOp.anyStream = true ∨
      wRunningOp.store.opState ≠ OpState.idle ∨
        wRunningOp.store.switchState ≠ SwitchState.idle ∨ wRunningOp.pwr.hotSwap ≠ HotSwap.inService) ∧
    wRunningOp.boot.restart = none := by decide

theorem witness_firmware_reset :
    wReady.anyStream = false ∧
    wReady.store.opState = OpState.idle ∧
    wReady.store.switchState = SwitchState.idle ∧
    wReady.pwr.hotSwap = HotSwap.inService := by decide

theorem witness_pin_released_in_reset :
    wHeldReset.pwr.stopping = some (StopReason.reset 4) ∧
    wHeldReset.pwr.stopLeft = [] := by decide

theorem witness_pin_released :
    (wBoot { resetHeld := true }).pwr.stopping = none := by decide

theorem witness_item_starts_domain :
    itemDomain 7 4 = some 12 ∧
    (itemStart 7 4).isSome = true ∧
    (itemStart 7 4).getD 0 ≤ (wBringUp 1040 wOff).boot.slots ∧
    16 * 7 + 4 ∉ (wBringUp 1040 wOff).boot.begun ∧
    7 ∉ (wBringUp 1040 wOff).boot.completed ∧
    (wBringUp 1040 wOff).boot.state = ModuleState.bringUp ∧
    wCool.temperature ≤ ↑((wBringUp 1040 wOff).reg Reg.PWR_THERMAL_LIMIT) * 100 ∧
    (wBringUp 1040 wOff).pwr.warn = false ∧
    12 < (wBringUp 1040 wOff).pwr.domains.length ∧
    ((wBringUp 1040 wOff).domain 12).state = DomainState.off ∧
    ((wBringUp 1040 wOff).domain 12).minOff = false ∧
    (wBringUp 1040 wOff).xuFor 12 = true ∧
    (wBringUp 1040 wOff).pwr.stopping = none ∧
    (wBringUp 1040 wOff).pwr.shutDown = false ∧
    (wBringUp 1040 wOff).pwr.ejectReady = false := by decide

theorem witness_item_waits :
    (itemStart 13 0).isSome = true ∧
    ((wBringUp 7999 wOff).boot.slots < (itemStart 13 0).getD 0 ∨
      16 * 13 + 0 ∈ (wBringUp 7999 wOff).boot.begun ∨ 13 ∈ (wBringUp 7999 wOff).boot.completed) := by decide

theorem witness_item_begun :
    (itemStart 0 0).isSome = true ∧
    ((wBoot { begun := [0] }).boot.slots < (itemStart 0 0).getD 0 ∨
      16 * 0 + 0 ∈ (wBoot { begun := [0] }).boot.begun ∨ 0 ∈ (wBoot { begun := [0] }).boot.completed) := by decide

theorem witness_bank_chosen :
    8 ≤ (wBoot { slots := 8, begun := [0] }).boot.slots ∧
    16 ∉ (wBoot { slots := 8, begun := [0] }).boot.begun ∧
    1 ∉ (wBoot { slots := 8, begun := [0] }).boot.completed ∧
    (wBoot { slots := 8, begun := [0] }).boot.state = ModuleState.rom ∧
    0 ∈ (wBoot { slots := 8, begun := [0] }).boot.begun := by decide

theorem witness_item_times_out :
    7 < 11 ∧
    7 ≤ 7 ∧
    4 < itemParts 7 ∧
    itemDomain 7 4 = some 12 ∧
    40000 ≤ (wBringUp 40000 wStarting).boot.slots ∧
    (wBringUp 40000 wStarting).boot.state = ModuleState.bringUp ∧
    (wBringUp 40000 wStarting).boot.cause ≠ 7 ∧
    ((wBringUp 40000 wStarting).domain 12).state = DomainState.starting ∧
    ((wBringUp 40000 wStarting).domain 19).state ≠ DomainState.fault ∧
    (wBringUp 40000 wStarting).pwr.stopping = none ∧
    12 < (wBringUp 40000 wStarting).pwr.domains.length := by decide

theorem witness_serving_starts :
    wReady.boot.state = ModuleState.ready ∧
    wReady.reg Reg.SRV_INTAKE_ENTRIES ≠ 0 ∧
    wReady.reg Reg.SRV_COMP_UNITS ≠ 0 ∧
    wReady.hlk.up = true := by decide

theorem witness_serving_refused :
    State.reset.boot.state ≠ ModuleState.ready := by decide

theorem witness_serving_stops :
    (wBoot { state := ModuleState.serving }).boot.state = ModuleState.serving ∧
    (wBoot { state := ModuleState.serving }).anyStream = false := by decide

theorem witness_serving_goes_on :
    (wOne 3 wIdle).boot.state = ModuleState.serving ∧
    (wOne 3 wIdle).anyStream = true := by decide

theorem witness_firmware_load :
    wFirmware.length ≤ 16777216 ∧
    State.reset.boot.loadState ≠ LoadState.running ∧
    fwHeader wFirmware = true ∧
    State.reset.sec.minSvn ≤ fwSecurity wFirmware := by decide

theorem witness_firmware_load_busy :
    wFirmware.length ≤ 16777216 ∧
    (wLoading.boot.loadState = LoadState.running ∨ fwHeader wFirmware = false) := by decide

theorem witness_firmware_load_malformed :
    wNoBytes.length ≤ 16777216 ∧
    (State.reset.boot.loadState = LoadState.running ∨ fwHeader wNoBytes = false) := by decide

theorem witness_firmware_programmed :
    wLoading.boot.loadState = LoadState.running ∧
    wLoading.boot.state ≠ ModuleState.bootFailed := by decide

theorem witness_firmware_boots_at_once :
    wLoadingFailed.boot.loadState = LoadState.running ∧
    wLoadingFailed.boot.state = ModuleState.bootFailed := by decide

theorem witness_firmware_activated :
    (wBoot { loadState := LoadState.done }).boot.loadState = LoadState.done := by decide

theorem witness_firmware_not_activated :
    State.reset.boot.loadState ≠ LoadState.done := by decide

theorem witness_identity_reread :
    wReady.boot.state ≠ ModuleState.rom := by decide

theorem witness_key_update :
    (List.replicate 320 0).length % 320 = 0 ∧
    1 ≤ (List.replicate 320 0).length / 320 ∧
    (List.replicate 320 0).length / 320 ≤ 64 := by decide

theorem witness_enrol_ticket :
    State.reset.sec.ownerSlot = 0 := by decide

theorem witness_release_ticket :
    wOwned.sec.ownerSlot ≠ 0 ∧
    wOwned.ownerStaged = false ∧
    wOwned.boot.signer ≠ 2 := by decide

theorem witness_debug_ticket :
    State.reset.sec.ownerSlot = 0 ∧
    State.reset.sec.debug ≠ DebugState.opn := by decide

theorem witness_attest_asked :
    (List.replicate 32 0).length = 32 ∧
    State.reset.sec.attest ≠ AttestState.generating := by decide

theorem witness_attest_refused :
    wNoBytes.length ≠ 32 := by decide

theorem witness_attest_ready :
    (wSec { attest := AttestState.generating }).sec.attest = AttestState.generating := by decide

theorem witness_svn_raised :
    (wBoot { securityVersion := 64 }).sec.minSvn < (wBoot { securityVersion := 64 }).boot.securityVersion ∧
    (wBoot { securityVersion := 64 }).boot.securityVersion ≤ 64 ∧
    (wBoot { securityVersion := 64 }).boot.trialBoot = false := by decide

theorem witness_svn_refused :
    (State.reset.boot.securityVersion ≤ State.reset.sec.minSvn ∨ State.reset.boot.trialBoot = true) := by decide

theorem witness_boundary_not_due :
    State.reset.tb.boundaryDue = false := by decide

theorem witness_no_transaction_due :
    (∀ x ∈ wInTx.dict.txs, x.isDue wInTx.tb.boundaryFst = false) := by decide

theorem witness_transaction_committed :
    (wCommitting []).dict.txs = [wScheduled] ∧
    wScheduled.isDue (wCommitting []).tb.boundaryFst = true ∧
    (wCommitting []).commitAll wScheduled.items = (((wCommitting []).commitAll []).1, none) := by decide

theorem witness_transaction_refused :
    (wCommitting [wBadItem]).dict.txs = [wRefusing] ∧
    wRefusing.isDue (wCommitting [wBadItem]).tb.boundaryFst = true ∧
    (wCommitting [wBadItem]).commitAll wRefusing.items =
      (((wCommitting [wBadItem]).commitAll [wBadItem]).1, some (wBadItem, Status.VALUE_STATE)) := by decide

theorem witness_boundary_due :
    wDue.tb.boundaryDue = true ∧
    wDue.pwr.coreOff = false ∧
    (wEarly wDue).inReset = false ∧
    (wEarly wDue).pwr.coreOff = false := by decide

theorem witness_boundary_in_reset :
    wDueInReset.tb.boundaryDue = true ∧
    wDueInReset.pwr.coreOff = false ∧
    (wEarly wDueInReset).inReset = true := by decide

theorem witness_front_command_runs :
    wQueued.pending = [Instr.flywheelBoundary, Instr.frefEdge 12500] := by decide

theorem witness_empty_queue_idles : State.reset.pending = [] := by decide

theorem witness_command_well_formed :
    Instr.wellFormed State.reset.part (Instr.frefEdge 12500) = true := by decide

theorem witness_command_without_operands :
    Instr.wellFormed State.reset.part (Instr.serveStart 3) = true := by decide

theorem witness_command_answers_next : ∃ t, exec (.frefEdge 12500) State.reset = .next t := ⟨_, rfl⟩

theorem witness_step_answers_next : ∃ t, step wQueued = .next t := ⟨_, rfl⟩

theorem witness_legal_state_steps : wQueued.memoryLegal ∧ wQueued.timeLegal ∧ wQueued.settingsOrdered :=
  ⟨⟨by decide, fun _ h => nomatch h⟩, ⟨by decide, by decide⟩, ⟨by decide, by decide⟩⟩

theorem witness_command_writes_nothing :
    (Instr.frefEdge 12500).writesSettings = false ∧ (Instr.frefEdge 12500).writesBlobs = false ∧
    (Instr.contextRestored 0).changesBoot = false ∧ (Instr.frefEdge 12500).changesSecurity = false ∧
    (Instr.serveStart 3).movesTime = false := by decide

theorem witness_command_stores_nothing :
    (Instr.frefEdge 12500).changesSram = false ∧ (Instr.frefEdge 12500).changesHbm = false ∧
    (Instr.frefEdge 12500).changesTransactions = false := by decide

theorem witness_other_setting : (6 : Nat) ≠ 5 ∧ State.reset.settingsOrdered :=
  ⟨by decide, by decide, by decide⟩

theorem witness_time_running : (wAt .locked 159 5).state ≠ .acquiring := by decide

theorem witness_fst_fields_at_their_ends : 255 < 256 ∧ 0 < 256 ∧ 65535 < 65536 ∧ 0 < 65536 := by decide

theorem witness_slot_advances :
    (wAt .locked 158 5).state ≠ .acquiring ∧ (wAt .locked 158 5).load = none ∧ (wAt .locked 158 5).slot < 159 := by
  decide

theorem witness_frame_advances :
    (wAt .holdover 159 (2 ^ 40 - 2)).state ≠ .acquiring ∧ (wAt .holdover 159 (2 ^ 40 - 2)).load = none ∧
    (wAt .holdover 159 (2 ^ 40 - 2)).slot = 159 ∧ (wAt .holdover 159 (2 ^ 40 - 2)).frame < 2 ^ 40 - 1 := by decide

theorem witness_frame_wraps :
    (wAt .locked 159 (2 ^ 40 - 1)).state ≠ .acquiring ∧ (wAt .locked 159 (2 ^ 40 - 1)).load = none ∧
    (wAt .locked 159 (2 ^ 40 - 1)).slot = 159 ∧ (wAt .locked 159 (2 ^ 40 - 1)).frame = 2 ^ 40 - 1 := by decide

theorem witness_event_without_a_link :
    (∃ t, t = State.reset.raiseFor 5 1 2 3 4) ∧
    wEvent = { fst := State.reset.fst, code := 5, group := 1, arg0 := 2 % 2 ^ 32, arg1 := 3 % 2 ^ 64,
               arg2 := 4 % 2 ^ 64 } ∧
    State.reset.hlk.up = false ∧ State.reset.srv.log.length ≤ 64 :=
  ⟨⟨_, rfl⟩, by decide, by decide, by decide⟩

theorem witness_event_with_room :
    wLinkUp.hlk.up = true ∧ wLinkUp.srv.eventRoom (wLinkUp.reg Reg.SRV_EVENT_ENTRIES) ≠ 0 ∧
    wLinkUp.srv.eventsPending = 0 := by decide
end

section
/-! PROOFS. The FST as a number and as a clock (R41, R42): its fields order it, and a boundary carries SLOT into
FRAME. -/

namespace Sys2Proof.Machine

/-! ### The order of FST values -/

/-- Two digits in a base `b` order as pairs do, the high digit first. -/
theorem mul_add_lt_mul_add_iff {b m n x y : Nat} (hx : x < b) (hy : y < b) :
    m * b + x < n * b + y ↔ m < n ∨ (m = n ∧ x < y) := by
  rcases lt_trichotomy m n with h | rfl | h
  · have below : (m + 1) * b ≤ n * b := Nat.mul_le_mul_right b h
    rw [Nat.succ_mul] at below
    simp only [h, true_or, iff_true]
    omega
  · simp
  · have above : (n + 1) * b ≤ m * b := Nat.mul_le_mul_right b h
    rw [Nat.succ_mul] at above
    simp only [h.not_gt, h.ne', false_and, or_self, iff_false]
    omega

/-- Table 2-1: SLOT is a digit below 2^8 and FRACTION one below 2^16. -/
theorem fstOf_eq_digits (f p x : Nat) : fstOf f p x = (f * 256 + p) * 65536 + x := by
  unfold fstOf
  ring

theorem fstOf_lt_fstOf_iff {f g p q x y : Nat} (hp : p < 256) (hq : q < 256) (hx : x < 65536) (hy : y < 65536) :
    fstOf f p x < fstOf g q y ↔ f < g ∨ (f = g ∧ (p < q ∨ (p = q ∧ x < y))) := by
  have slots : f * 256 + p < g * 256 + q ↔ f < g ∨ (f = g ∧ p < q) := mul_add_lt_mul_add_iff hp hq
  rw [fstOf_eq_digits, fstOf_eq_digits, mul_add_lt_mul_add_iff hx hy, slots]
  omega

/-! ### What a running time base shows -/

theorem TimeBase.fst_of_running {t : TimeBase} (running : t.state ≠ .acquiring) :
    t.fst = fstOf t.frame t.slot (fractionOf t.cyc) := if_neg running

theorem TimeBase.place_within_frame {t : TimeBase} (h : t.slot < 159) :
    t.place = { t with slot := t.slot + 1, cyc := 0, boundaryDue := true } := if_pos h

/-- The boundary after slot 159 opens a frame, numbered by the value loaded (R44) or else the next in turn. -/
theorem TimeBase.place_at_frame_end {t : TimeBase} (running : t.state ≠ .acquiring) (h : t.slot = 159) :
    t.place = { t with frame := t.load.getD (t.frame + 1) % 2 ^ 40, load := none, slot := 0, cyc := 0,
                       boundaryDue := true } := by
  have last : ¬ t.slot < 159 := by omega
  rw [TimeBase.place, if_neg last, if_neg running]

/-- With no value loaded, the frame that opens is the next one modulo 2^40. -/
theorem TimeBase.place_next_frame {t : TimeBase} (running : t.state ≠ .acquiring) (unloaded : t.load = none)
    (h : t.slot = 159) : t.place.slot = 0 ∧ t.place.frame = (t.frame + 1) % 2 ^ 40 := by
  simp [TimeBase.place_at_frame_end running h, unloaded]

/-- Settles O59: an FST is its fields as digits, and a boundary carries SLOT into FRAME modulo 2^40. -/
theorem fstOrdersTime : Obligations.FstOrdersTime := by
  unfold Obligations.FstOrdersTime
  refine ⟨fun t running => t.fst_of_running running,
    fun f g p q x y hp hq hx hy => fstOf_lt_fstOf_iff hp hq hx hy,
    fun t running unloaded => ⟨fun inside => ?within, fun last notTop => ?carry, fun last top => ?wrap⟩⟩
  case within => simp [TimeBase.place_within_frame inside]
  case carry =>
    obtain ⟨slot, frame⟩ := TimeBase.place_next_frame running unloaded last
    exact ⟨slot, frame.trans (Nat.mod_eq_of_lt (by omega))⟩
  case wrap =>
    obtain ⟨slot, frame⟩ := TimeBase.place_next_frame running unloaded last
    exact ⟨slot, frame.trans (by simp [top])⟩

end Sys2Proof.Machine
end

section
/-! PROOFS. The quadrants under the commands of reliability (R517, R520 to R528): what an operation on one quadrant
does to it and leaves alone, and what a strike's end, a fence, an unfence and a test's end make of it. -/

namespace Sys2Proof.Machine

/-! ### One quadrant of the eight -/

theorem lget_lmod_self {α : Type} [Inhabited α] {l : List α} {i : Nat} (h : i < l.length) (f : α → α) :
    lget (lmod l i f) i = f (lget l i) := by
  simp [lget, lmod, h]

theorem lget_lmod_ne {α : Type} [Inhabited α] (l : List α) {i j : Nat} (h : j ≠ i) (f : α → α) :
    lget (lmod l i f) j = lget l j := by
  simp [lget, lmod, List.getD_eq_getElem?_getD, h.symm]

section
variable (s : State)

theorem State.quad_modQuad_self {q : Nat} (present : q < s.ras.quads.length) (f : Quadrant → Quadrant) :
    (s.modQuad q f).quad q = f (s.quad q) := lget_lmod_self present f

theorem State.quad_modQuad_ne {q k : Nat} (other : k ≠ q) (f : Quadrant → Quadrant) :
    (s.modQuad q f).quad k = s.quad k := lget_lmod_ne _ other f

@[simp] theorem State.modQuad_awlFails (q : Nat) (f : Quadrant → Quadrant) :
    (s.modQuad q f).ras.awlFails = s.ras.awlFails := rfl
@[simp] theorem State.raise_quad (q code a b c : Nat) : (s.raise code a b c).quad q = s.quad q := by
  simp [State.quad]

/-! ### Records and judgements -/

@[simp] theorem Ras.persistRecord_quads (r : Ras) (b : List Byte) : (r.persistRecord b).quads = r.quads := by
  unfold Ras.persistRecord; (repeat' split) <;> rfl
@[simp] theorem Ras.persistRecord_awlFails (r : Ras) (b : List Byte) : (r.persistRecord b).awlFails = r.awlFails := by
  unfold Ras.persistRecord; (repeat' split) <;> rfl
@[simp] theorem Ras.keep_quads (r : Ras) (seq severity : Nat) (b : List Byte) :
    (r.keep seq severity b).quads = r.quads := by
  unfold Ras.keep; split <;> simp
@[simp] theorem Ras.keep_awlFails (r : Ras) (seq severity : Nat) (b : List Byte) :
    (r.keep seq severity b).awlFails = r.awlFails := by
  unfold Ras.keep; split <;> simp

@[simp] theorem State.record_quad (q : Nat) (info : RecordInfo) : (s.record info).quad q = s.quad q := by
  unfold State.record; split <;> simp [State.quad]
@[simp] theorem State.record_awlFails (info : RecordInfo) : (s.record info).ras.awlFails = s.ras.awlFails := by
  unfold State.record; split <;> simp
@[simp] theorem State.record_planner (info : RecordInfo) : (s.record info).planner = s.planner := by
  unfold State.record; split <;> simp

/-- R518: what the test for suspicion can do to a quadrant. -/
theorem State.judge_cases (q cause source : Nat) :
    s.judge q cause source = s ∨
    s.judge q cause source = s.modQuad q (fun x => { x with state := .fencing, cause := cause, source := source }) ∨
    s.judge q cause source = (s.modQuad q fun x => { x with state := .suspect }).raise 0x0D05 q 0 0 := by
  unfold State.judge
  split
  case h_1 | h_2 =>
    by_cases auto : s.reg Reg.RAS_AUTO_FENCE = 1
    · exact .inr (.inl (if_pos auto))
    · rw [if_neg auto]
      by_cases working : (lget s.ras.quads q).state = .working
      · exact .inr (.inr (if_pos working))
      · exact .inl (if_neg working)
  case h_3 => exact .inl rfl

theorem State.judge_quad_self {q : Nat} (present : q < s.ras.quads.length) (cause source : Nat) :
    ∃ state c src, (s.judge q cause source).quad q = { s.quad q with state := state, cause := c, source := src } := by
  obtain h | h | h := s.judge_cases q cause source
  · exact ⟨_, _, _, by rw [h]⟩
  · exact ⟨_, _, _, by rw [h, State.quad_modQuad_self s present]⟩
  · exact ⟨_, _, _, by rw [h, State.raise_quad, State.quad_modQuad_self s present]⟩

@[simp] theorem State.judge_awlFails (q cause source : Nat) :
    (s.judge q cause source).ras.awlFails = s.ras.awlFails := by
  obtain h | h | h := s.judge_cases q cause source <;> simp [h]

@[simp] theorem State.judge_planner (q cause source : Nat) : (s.judge q cause source).planner = s.planner := by
  obtain h | h | h := s.judge_cases q cause source <;> simp [h]

theorem State.endMaintenance_of_idle (idle : s.planner.running = none) : s.endMaintenance = s := by
  simp [State.endMaintenance, idle]

end

section
variable {s : State} {cyc q : Nat}

/-! ### Strikes leave the window (R517) -/

theorem exec_strikeExpire (hq : q < 8) {f : Nat} {fs : List Nat} (strikes : (s.quad q).strikes = f :: fs) :
    exec (.strikeExpire q) s = .next
      (if frameOf f + s.reg Reg.RAS_STRIKE_WINDOW ≤ s.tb.frame then s.modQuad q fun x => { x with strikes := fs }
       else s) := by
  have run : exec (.strikeExpire q) s = execStrikeExpire q s := rfl
  rw [run, execStrikeExpire, onUnit_true (decide_eq_true hq), strikes]

/-! ### Fences and unfences (R520, R523) -/

theorem State.commitFence_accepts (h : (s.quad q).state = .working ∨ (s.quad q).state = .suspect) :
    s.commitFence q 1 = ((s.modQuad q fun y => { y with state := .fencing, cause := 3, source := 0 }).setReg
      (Reg.RAS_FENCE_CMD + 256 * q) 1).status Status.OK := by
  simp [State.commitFence, h]

theorem State.commitFence_refuses (working : (s.quad q).state ≠ .working) (suspect : (s.quad q).state ≠ .suspect) :
    s.commitFence q 1 = s.status Status.VALUE_STATE := by
  simp [State.commitFence, working, suspect]

theorem State.commitUnfence_accepts (fenced : (s.quad q).state = .fenced) (clean : (s.quad q).awlClean = true) :
    s.commitFence q 2 = ((s.modQuad q fun y => { y with state := .unfencing }).setReg
      (Reg.RAS_FENCE_CMD + 256 * q) 2).status Status.OK := by
  simp [State.commitFence, fenced, clean]

theorem State.commitUnfence_refuses (h : (s.quad q).state ≠ .fenced ∨ (s.quad q).awlClean = false) :
    s.commitFence q 2 = s.status Status.VALUE_STATE := by
  have unmet : ¬ ((s.quad q).state = .fenced ∧ (s.quad q).awlClean = true) := by
    simpa [imp_iff_not_or] using h
  simp [State.commitFence, unmet]

theorem exec_fenceCmd_accepts (hq : q < 8) (h : (s.quad q).state = .working ∨ (s.quad q).state = .suspect) :
    exec (.fenceCmd cyc q) s = .next ((((s.stamp cyc).modQuad q fun y => { y with
      state := .fencing, cause := 3, source := 0 }).setReg (Reg.RAS_FENCE_CMD + 256 * q) 1).status Status.OK) :=
  (onUnit_true (decide_eq_true hq) _).trans (congrArg _ (State.commitFence_accepts h))

theorem exec_fenceCmd_refuses (hq : q < 8) (working : (s.quad q).state ≠ .working)
    (suspect : (s.quad q).state ≠ .suspect) :
    exec (.fenceCmd cyc q) s = .next ((s.stamp cyc).status Status.VALUE_STATE) :=
  (onUnit_true (decide_eq_true hq) _).trans (congrArg _ (State.commitFence_refuses working suspect))

theorem exec_unfenceCmd_accepts (hq : q < 8) (fenced : (s.quad q).state = .fenced)
    (clean : (s.quad q).awlClean = true) :
    exec (.unfenceCmd cyc q) s = .next ((((s.stamp cyc).modQuad q fun y => { y with state := .unfencing }).setReg
      (Reg.RAS_FENCE_CMD + 256 * q) 2).status Status.OK) :=
  (onUnit_true (decide_eq_true hq) _).trans (congrArg _ (State.commitUnfence_accepts fenced clean))

theorem exec_unfenceCmd_refuses (hq : q < 8) (h : (s.quad q).state ≠ .fenced ∨ (s.quad q).awlClean = false) :
    exec (.unfenceCmd cyc q) s = .next ((s.stamp cyc).status Status.VALUE_STATE) :=
  (onUnit_true (decide_eq_true hq) _).trans (congrArg _ (State.commitUnfence_refuses h))

/-! ### The run commands (R516, R527) -/

theorem exec_awlRunTargeted (hq : q < 8) : exec (.awlRunTargeted q) s = .next
    (((s.modQuad q fun x => { x with targeted := s.ras.tests false }).setReg
      (Reg.RAS_AWL_RUN_CMD + 256 * q) 1).status Status.OK) :=
  onUnit_true (decide_eq_true hq) _

theorem exec_awlRunDestructive_starts (hq : q < 8) (fenced : (s.quad q).state = .fenced) :
    exec (.awlRunDestructive q) s = .next (((s.modQuad q fun x => x.startRun (s.ras.tests true)).setReg
      (Reg.RAS_AWL_RUN_CMD + 256 * q) 2).status Status.OK) :=
  (onUnit_true (decide_eq_true hq) _).trans (congrArg _ (if_pos fenced))

theorem exec_awlRunDestructive_refuses (hq : q < 8) (unfenced : (s.quad q).state ≠ .fenced) :
    exec (.awlRunDestructive q) s = .next (s.status Status.VALUE_STATE) :=
  (onUnit_true (decide_eq_true hq) _).trans (congrArg _ (if_neg unfenced))

end

/-! ### A test of a DESTRUCTIVE run ends (R527, R528) -/

/-- A quadrant after the first test of its run has passed or failed. -/
def Quadrant.endTest (x : Quadrant) (set : Nat) (test : AwlTest) (pass : Bool) : Quadrant :=
  { x with lastResult := if pass then 1 else 2, lastTest := 65536 * set + test.id
           run := x.run.drop 1, running := !(x.run.drop 1).isEmpty, runFailed := x.runFailed || !pass
           awlClean := (x.run.drop 1).isEmpty && !(x.runFailed || !pass) }

/-- The state after a test of quadrant `q` is counted and has left its run. -/
def State.endTest (s : State) (cyc q set : Nat) (test : AwlTest) (pass : Bool) : State :=
  { s.stamp cyc with ras := { s.ras with
      awlRuns := sat 32 (s.ras.awlRuns + 1)
      awlFails := if pass then s.ras.awlFails else sat 32 (s.ras.awlFails + 1) } }.modQuad q
    fun x => x.endTest set test pass

section
variable {s : State} {cyc q set : Nat} {test : AwlTest} {misr : BitVec 64}

theorem exec_awlTestComplete_pass (hq : q < 8) (current : (s.quad q).current = some ((set, test), true)) :
    exec (.awlTestComplete cyc q test.expect) s = .next (s.endTest cyc q set test true).endMaintenance := by
  have run : exec (.awlTestComplete cyc q test.expect) s = execAwlTestComplete cyc q test.expect s := rfl
  rw [run, execAwlTestComplete, onUnit_true (decide_eq_true hq), current]
  simp [State.endTest, Quadrant.endTest]

/-- A test with another MISR than expected is judged (R518), recorded (R530) and raised. -/
theorem exec_awlTestComplete_fail (hq : q < 8) (current : (s.quad q).current = some ((set, test), true))
    (wrong : misr ≠ test.expect) :
    ∃ info seq, exec (.awlTestComplete cyc q misr) s =
      .next ((((s.endTest cyc q set test false).judge q 2 0x10).record info).raise 0x0D08 q seq 0).endMaintenance := by
  have run : exec (.awlTestComplete cyc q misr) s = execAwlTestComplete cyc q misr s := rfl
  rw [run, execAwlTestComplete, onUnit_true (decide_eq_true hq), current]
  simp only [wrong, decide_false, Bool.false_eq_true, if_false, if_true]
  exact ⟨_, _, rfl⟩

theorem State.endTest_quad_self (present : q < s.ras.quads.length) (pass : Bool) :
    (s.endTest cyc q set test pass).quad q = (s.quad q).endTest set test pass :=
  State.quad_modQuad_self _ present _

theorem State.endTest_quad_ne {k : Nat} (other : k ≠ q) (pass : Bool) :
    (s.endTest cyc q set test pass).quad k = s.quad k := State.quad_modQuad_ne _ other _

theorem awlTest_passes (hq : q < 8) (present : q < s.ras.quads.length)
    (current : (s.quad q).current = some ((set, test), true)) (idle : s.planner.running = none) :
    ∃ t, exec (.awlTestComplete cyc q test.expect) s = .next t ∧
      t.quad q = (s.quad q).endTest set test true ∧ (∀ k, k ≠ q → t.quad k = s.quad k) ∧
      t.ras.awlRuns = sat 32 (s.ras.awlRuns + 1) ∧ t.ras.awlFails = s.ras.awlFails ∧
      { t with ras := s.ras, tb := s.tb } = s :=
  ⟨s.endTest cyc q set test true,
    (exec_awlTestComplete_pass hq current).trans (congrArg _ (State.endMaintenance_of_idle _ idle)),
    State.endTest_quad_self present true, fun _ other => State.endTest_quad_ne other true, rfl, rfl, rfl⟩

theorem awlTest_fails (hq : q < 8) (present : q < s.ras.quads.length)
    (current : (s.quad q).current = some ((set, test), true)) (idle : s.planner.running = none)
    (wrong : misr ≠ test.expect) :
    ∃ t state cause source, exec (.awlTestComplete cyc q misr) s = .next t ∧
      t.quad q = { (s.quad q).endTest set test false with state := state, cause := cause, source := source } ∧
      t.ras.awlFails = sat 32 (s.ras.awlFails + 1) := by
  obtain ⟨info, seq, ran⟩ := exec_awlTestComplete_fail (cyc := cyc) hq current wrong
  have kept : q < (s.endTest cyc q set test false).ras.quads.length := by
    simpa [State.endTest, State.modQuad, lmod] using present
  obtain ⟨state, cause, source, judged⟩ := State.judge_quad_self _ kept 2 0x10
  rw [State.endMaintenance_of_idle _ (by simpa [State.endTest] using idle)] at ran
  refine ⟨_, state, cause, source, ran, ?quadrant, ?count⟩
  case quadrant => simpa [State.endTest_quad_self present] using judged
  case count => simp [State.endTest]

end

/-- Settles O39: each command on a quadrant by the rule of its operation, and every other quadrant as it was. -/
theorem quadrantsAreJudged : Obligations.QuadrantsAreJudged := by
  unfold Obligations.QuadrantsAreJudged
  intro cyc q s hq present
  refine ⟨fun f fs strikes => ⟨fun old => ?expired, fun young => ?kept⟩, fun h => ?fence,
    fun fenced clean => ?unfence, fun working suspect => ?fenceRefused, fun h => ?unfenceRefused,
    fun set test misr current idle => ⟨fun right => ?passes, fun wrong => ?fails⟩,
    ?targeted, fun fenced => ?destructive, fun unfenced => ?destructiveRefused⟩
  case expired =>
    exact ⟨_, (exec_strikeExpire hq strikes).trans (congrArg _ (if_pos old)), s.quad_modQuad_self present _,
      fun _ other => s.quad_modQuad_ne other _, rfl⟩
  case kept => rw [exec_strikeExpire hq strikes, if_neg (by omega)]
  case fence =>
    exact ⟨_, exec_fenceCmd_accepts hq h, (s.stamp cyc).quad_modQuad_self present _,
      fun _ other => (s.stamp cyc).quad_modQuad_ne other _, rfl, rfl⟩
  case unfence =>
    exact ⟨_, exec_unfenceCmd_accepts hq fenced clean, (s.stamp cyc).quad_modQuad_self present _,
      fun _ other => (s.stamp cyc).quad_modQuad_ne other _, rfl, rfl⟩
  case fenceRefused => exact exec_fenceCmd_refuses hq working suspect
  case unfenceRefused => exact exec_unfenceCmd_refuses hq h
  case passes =>
    subst right
    obtain ⟨t, ran, quad, others, runs, fails, frame⟩ := awlTest_passes (cyc := cyc) hq present current idle
    refine ⟨t, ran, ?_, ?_, ?_, ?_, ?_, runs, fails, others, frame⟩ <;> simp [quad, Quadrant.endTest]
  case fails =>
    obtain ⟨t, state, cause, source, ran, quad, fails⟩ := awlTest_fails (cyc := cyc) hq present current idle wrong
    refine ⟨t, ran, ?_, ?_, ?_, fails⟩ <;> simp [quad, Quadrant.endTest]
  case targeted =>
    exact ⟨_, exec_awlRunTargeted hq, s.quad_modQuad_self present _, fun _ other => s.quad_modQuad_ne other _, rfl⟩
  case destructive =>
    exact ⟨_, exec_awlRunDestructive_starts hq fenced, s.quad_modQuad_self present _,
      fun _ other => s.quad_modQuad_ne other _, rfl⟩
  case destructiveRefused => exact exec_awlRunDestructive_refuses hq unfenced

end Sys2Proof.Machine
end

section
/-! PROOFS. Serving, firmware and identity memories (R570, R573, R577 to R579): what each command does where it is
accepted and where it is refused. -/

namespace Sys2Proof.Machine

section
variable (s : State)

/-! ### Events and streams -/

@[simp] theorem Serving.raise_streams (v : Serving) (entries : Nat) (e : Event) :
    (v.raise entries e).streams = v.streams := by
  unfold Serving.raise
  dsimp only
  (repeat' split) <;> rfl

@[simp] theorem State.raise_streams (code a b c : Nat) : (s.raise code a b c).srv.streams = s.srv.streams := by
  simp [State.raise, State.raiseFor]

/-- A fold that only raises events changes nothing but the event path. -/
theorem State.foldl_raise_eq_srv (due : Nat → Bool) (arg : Nat → Nat) (code : Nat) (ns : List Nat) :
    ∃ v, ns.foldl (fun t n => if due n then State.raise t code (arg n) 0 0 else t) s = { s with srv := v } := by
  induction ns generalizing s with
  | nil => exact ⟨s.srv, rfl⟩
  | cons n ns ih =>
    obtain ⟨v, rest⟩ := ih (if due n then s.raise code (arg n) 0 0 else s)
    exact ⟨v, rest.trans (by split <;> simp)⟩

end

section
variable {s : State} {cyc : Nat}

/-! ### Serving (R570) -/

theorem exec_serveStart_accepts (ready : s.boot.state = .ready) (intake : s.reg Reg.SRV_INTAKE_ENTRIES ≠ 0)
    (units : s.reg Reg.SRV_COMP_UNITS ≠ 0) (up : s.hlk.up = true) :
    exec (.serveStart cyc) s = .next ((({ s.stamp cyc with boot := { s.boot with state := .serving } }.raise
      0x070D 4 s.boot.cause 0).setReg Reg.SRV_SERVE_CMD 1).status Status.OK) := by
  have met : ((s.stamp cyc).boot.state = .ready && (s.stamp cyc).reg Reg.SRV_INTAKE_ENTRIES != 0 &&
      (s.stamp cyc).reg Reg.SRV_COMP_UNITS != 0 && (s.stamp cyc).hlk.up) = true := by
    have regs (k : Nat) : (s.stamp cyc).reg k = s.reg k := rfl
    simp [regs, ready, intake, units, up]
  exact congrArg Host.Outcome.next (if_pos met)

theorem exec_serveStart_refuses (unready : s.boot.state ≠ .ready) :
    exec (.serveStart cyc) s = .next ((s.stamp cyc).status Status.VALUE_STATE) :=
  congrArg Host.Outcome.next (if_neg (by simp [unready]))

theorem exec_serveStop_accepts (serving : s.boot.state = .serving) (quiet : s.anyStream = false) :
    exec .serveStop s = .next (({ s with boot := { s.boot with state := .ready } }.setReg
      Reg.SRV_SERVE_CMD 0).status Status.OK) :=
  congrArg Host.Outcome.next ((if_neg (not_not_intro serving)).trans (if_neg (by simp [quiet])))

theorem exec_serveStop_refuses (serving : s.boot.state = .serving) (busy : s.anyStream = true) :
    exec .serveStop s = .next (s.status Status.VALUE_STATE) :=
  congrArg Host.Outcome.next ((if_neg (not_not_intro serving)).trans (if_pos busy))

/-! ### Banks -/

@[simp] theorem Boot.bank_setBank_self (b : Boot) (n : Nat) (x : Option FwBank) : (b.setBank n x).bank n = x := by
  unfold Boot.bank Boot.setBank
  split <;> rfl

@[simp] theorem Boot.setBank_active (b : Boot) (n : Nat) (x : Option FwBank) : (b.setBank n x).active = b.active := by
  unfold Boot.setBank
  split <;> rfl

@[simp] theorem Boot.setBank_running (b : Boot) (n : Nat) (x : Option FwBank) :
    (b.setBank n x).running = b.running := by
  unfold Boot.setBank
  split <;> rfl

/-! ### The checks of an image (R573, R589) -/

variable {image : List Byte}

theorem State.verify_accepts {what : Item} (signed : s.sec.verifies what image = true) :
    s.verify what image = (true, s) := if_pos signed

theorem State.verify_refuses {what : Item} (unsigned : s.sec.verifies what image = false) :
    s.verify what image = (false, { s with sec := { s.sec with sigFailures := sat 32 (s.sec.sigFailures + 1) } }.raise
      0x0E03 (sigSerial image) s.tb.boundaryFst 0) := if_neg (by simp [unsigned])

theorem State.fwCheck_of_header (header : fwHeader image = true) :
    s.fwCheck image = ((s.verify .firmware image).1 && s.sec.minSvn ≤ fwSecurity image,
      (s.verify .firmware image).2) := by
  simp [State.fwCheck, header]

theorem State.fwCheck_accepts (header : fwHeader image = true) (svn : s.sec.minSvn ≤ fwSecurity image)
    (signed : s.sec.verifies .firmware image = true) : s.fwCheck image = (true, s) := by
  simp [State.fwCheck_of_header header, State.verify_accepts signed, svn]

theorem State.fwCheck_unsigned (header : fwHeader image = true) (unsigned : s.sec.verifies .firmware image = false) :
    s.fwCheck image = s.verify .firmware image := by
  simp [State.fwCheck_of_header header, State.verify_refuses unsigned]

/-! ### Loading (R577) -/

/-- The state in which `image` is being programmed into the bank that is not ACTIVE. -/
def State.startFwLoad (s : State) (image : List Byte) : State :=
  ({ s with boot := { s.boot.setBank (1 - s.boot.active) none with
      loadState := .running, loadImage := image } }.setBlob Reg.SEC_FW_LOAD image).status Status.OK

theorem State.commitFwLoad_of_fwCheck {ok : Bool} {t : State} (size : image.length ≤ 16777216)
    (idle : s.boot.loadState ≠ .running) (checked : s.fwCheck image = (ok, t)) :
    s.commitFwLoad image = if ok then t.startFwLoad image else t.status Status.VALUE_STATE := by
  unfold State.commitFwLoad
  rw [if_neg size.not_gt, if_neg idle, checked]
  cases ok <;> rfl

theorem State.commitFwLoad_refuses (size : image.length ≤ 16777216)
    (unfit : s.boot.loadState = .running ∨ fwHeader image = false) :
    s.commitFwLoad image = s.status Status.VALUE_STATE := by
  by_cases busy : s.boot.loadState = .running
  · exact (if_neg size.not_gt).trans (if_pos busy)
  · have bad : fwHeader image = false := unfit.resolve_left busy
    have checked : s.fwCheck image = (false, s) := by simp [State.fwCheck, bad]
    exact State.commitFwLoad_of_fwCheck size busy checked

theorem State.commitFwLoad_accepts (size : image.length ≤ 16777216) (idle : s.boot.loadState ≠ .running)
    (header : fwHeader image = true) (svn : s.sec.minSvn ≤ fwSecurity image)
    (signed : s.sec.verifies .firmware image = true) : s.commitFwLoad image = s.startFwLoad image :=
  State.commitFwLoad_of_fwCheck size idle (State.fwCheck_accepts header svn signed)

theorem State.commitFwLoad_unsigned (size : image.length ≤ 16777216) (idle : s.boot.loadState ≠ .running)
    (header : fwHeader image = true) (unsigned : s.sec.verifies .firmware image = false) :
    s.commitFwLoad image = (s.verify .firmware image).2.status Status.VALUE_STATE := by
  have checked := (State.fwCheck_unsigned header unsigned).trans (State.verify_refuses unsigned)
  rw [State.commitFwLoad_of_fwCheck size idle checked, State.verify_refuses unsigned]
  rfl

/-- The state once an image has been programmed and read back: it stands in the bank that is not ACTIVE, valid
where it matched, and SEC_FW_LOADED is raised. -/
def State.endFwLoad (s : State) (cyc : Nat) (matched : Bool) : State :=
  { s.stamp cyc with boot := { s.boot.setBank (1 - s.boot.active)
      (some { image := s.boot.loadImage, valid := matched }) with
        loadState := if matched then .done else .failed, loadImage := [] } }.raise
    0x0E02 (1 - s.boot.active) (fwVersion s.boot.loadImage) 0

theorem State.endFwLoad_bank (matched : Bool) : (s.endFwLoad cyc matched).boot.bank (1 - s.boot.active) =
    some { image := s.boot.loadImage, valid := matched } :=
  s.boot.bank_setBank_self _ _

theorem exec_fwLoadComplete_ends {matched : Bool} (running : s.boot.loadState = .running)
    (booted : s.boot.state ≠ .bootFailed) :
    exec (.fwLoadComplete cyc matched) s = .next (s.endFwLoad cyc matched) :=
  (if_neg (not_not_intro running)).trans (if_neg (by simp [booted]))

/-- R575: in BOOT_FAILED the bank that was programmed boots at once. -/
theorem exec_fwLoadComplete_boots (running : s.boot.loadState = .running) (failed : s.boot.state = .bootFailed) :
    exec (.fwLoadComplete cyc true) s = .next { (s.endFwLoad cyc true).runBank (1 - s.boot.active) with
      boot := { ((s.endFwLoad cyc true).runBank (1 - s.boot.active)).boot with state := .bringUp } } :=
  (if_neg (not_not_intro running)).trans (if_pos (by simp [failed]))

theorem State.runBank_version {n : Nat} {x : FwBank} (held : s.boot.bank n = some x) :
    (s.runBank n).boot.version = fwVersion x.image := by
  simp [State.runBank, held]

/-! ### Activation (R578) -/

theorem exec_fwActivate_accepts (done : s.boot.loadState = .done) :
    exec .fwActivate s = .next (({ s with boot := { s.boot with
      trial := true, recordSeq := s.boot.recordSeq + 1 } }.setReg Reg.SEC_FW_ACTIVATE 1).status Status.OK) :=
  congrArg Host.Outcome.next (if_pos done)

theorem exec_fwActivate_refuses (undone : s.boot.loadState ≠ .done) :
    exec .fwActivate s = .next (s.status Status.VALUE_STATE) :=
  congrArg Host.Outcome.next (if_neg undone)

/-! ### Identity memories (R579, R581) -/

/-- PWR_IDM_DATA of the five memories: at most 2,048 bytes each, none of an absent one. -/
def memoryData (ms : List (Option (List Byte))) : List (List Byte) :=
  (List.range 5).map fun n => (((ms.getD n none).map fun b => b.take 2048)).getD []

theorem State.readMemories_eq (s : State) (ms : List (Option (List Byte))) : ∃ codes v, s.readMemories ms =
    { s with boot := { s.boot with idmState := codes, idmData := memoryData ms }, srv := v } := by
  unfold State.readMemories
  obtain ⟨v, raised⟩ := State.foldl_raise_eq_srv _ _ _ _ _
  exact ⟨_, v, raised⟩

/-- Outside ROM a reread only keeps what it found: what changed waits for the next slot boundary. -/
theorem exec_identityReread_waits (ms : List (Option (List Byte))) (started : s.boot.state ≠ .rom) :
    ∃ codes v changed grid, exec (.identityReread cyc ms) s = .next { s.stamp cyc with
      srv := v
      boot := { s.boot with
        idmState := codes, idmData := memoryData ms, idmReads := sat 32 (s.boot.idmReads + 1)
        identityDue := (s.boot.identityDue ++ changed ++ grid).eraseDups } } := by
  obtain ⟨codes, v, read⟩ := (s.stamp cyc).readMemories_eq ms
  have run : exec (.identityReread cyc ms) s = execIdentityReread cyc ms s := rfl
  rw [run, execIdentityReread, if_neg started, read]
  exact ⟨codes, v, _, _, rfl⟩

end

/-- Settles O46: each command by what it does where it is accepted, and by the status where it is refused. -/
theorem servingAndFirmware : Obligations.ServingAndFirmware := by
  unfold Obligations.ServingAndFirmware
  refine ⟨fun cyc s ready intake units up => ?serve, fun cyc s unready => exec_serveStart_refuses unready,
    fun s serving => ⟨fun quiet => ?stop, exec_serveStop_refuses serving⟩,
    fun cyc b s size idle header svn => ?load,
    fun cyc b s size unfit => congrArg Host.Outcome.next (State.commitFwLoad_refuses size unfit),
    fun cyc matched s running booted => ?programmed, fun cyc s running failed => ?boots,
    fun s => ⟨fun done => ?activate, exec_fwActivate_refuses, ?deactivate⟩, fun cyc ms s started => ?reread⟩
  case serve =>
    exact ⟨_, exec_serveStart_accepts ready intake units up, rfl, rfl, State.raise_streams _ _ _ _ _, rfl⟩
  case stop => exact ⟨_, exec_serveStop_accepts serving quiet, rfl, rfl, rfl⟩
  case load =>
    refine ⟨(s.stamp cyc).commitFwLoad b, rfl, fun signed => ?accepted, fun unsigned => ?refused⟩
    case accepted =>
      rw [State.commitFwLoad_accepts (s := s.stamp cyc) size idle header svn signed]
      exact ⟨rfl, rfl, s.boot.bank_setBank_self _ _, s.boot.setBank_active _ _, rfl, rfl⟩
    case refused =>
      rw [State.commitFwLoad_unsigned (s := s.stamp cyc) size idle header unsigned,
        State.verify_refuses (s := s.stamp cyc) unsigned]
      exact ⟨rfl, rfl, rfl, rfl⟩
  case programmed =>
    exact ⟨_, exec_fwLoadComplete_ends running booted, rfl, rfl, State.endFwLoad_bank matched,
      s.boot.setBank_running _ _, rfl⟩
  case boots =>
    exact ⟨_, exec_fwLoadComplete_boots running failed, rfl, rfl, State.runBank_version (State.endFwLoad_bank true)⟩
  case activate => exact ⟨_, exec_fwActivate_accepts done, rfl, rfl⟩
  case deactivate => exact ⟨_, rfl, rfl, rfl⟩
  case reread =>
    obtain ⟨codes, v, changed, grid, ran⟩ := exec_identityReread_waits (cyc := cyc) ms started
    exact ⟨_, ran, rfl, rfl, fun n waiting => by simp [waiting], rfl⟩

end Sys2Proof.Machine
end

section
/-! PROOFS. The block as a whole: every command whose units exist completes and none is refused; what a command that
the lists of Safety.lean do not name leaves alone; one step of the queue. -/

namespace Sys2Proof.Machine

/-! ### How a command can end -/

/-- The outcome is a next state, or, where the units that the command names may be missing, the fault. -/
def endsWell (present : Bool) : Host.Outcome State Fault Refusal → Bool
  | .next _ => true
  | .fault _ => !present
  | .refused _ => false

@[simp] theorem endsWell_next (p : Bool) (t : State) : endsWell p (.next t) = true := rfl
@[simp] theorem endsWell_onUnit (p b : Bool) (t : State) : endsWell p (onUnit b t) = (b || !p) := by cases b <;> rfl
@[simp] theorem endsWell_ite (p : Bool) (c : Prop) [Decidable c] (o q : Host.Outcome State Fault Refusal) :
    endsWell p (if c then o else q) = if c then endsWell p o else endsWell p q := by split <;> rfl

theorem endsWell_present {o : Host.Outcome State Fault Refusal} (h : endsWell true o = true) : ∃ t, o = .next t := by
  cases o with
  | next t => exact ⟨t, rfl⟩
  | fault r => cases h
  | refused r => cases h

theorem endsWell_unrefused {p : Bool} {o : Host.Outcome State Fault Refusal} (h : endsWell p o = true) (r : Refusal) :
    o ≠ .refused r := by
  rintro rfl
  cases h

/-- A request names no unit but its slot (R457). -/
theorem State.request_endsWell (s : State) (rq : Request) (op : DapOp) :
    endsWell (isSession rq.session) (s.request rq op) = true := by
  unfold State.request
  cases rq.session with
  | field address port => rfl
  | slot n => simp [isSession]

theorem execDapMessageMalformed_endsWell (cyc : Nat) (session : Session) (reqId : Nat) (s : State) :
    endsWell (isSession session) (execDapMessageMalformed cyc session reqId s) = true := by
  cases session with
  | field address port => rfl
  | slot n => simp [execDapMessageMalformed, isSession]

/-- An item of start-up has its slot in Table 18-6 exactly where it is an item. -/
theorem itemStart_isSome {row part : Nat} (h : isStartItem row part = true) : (itemStart row part).isSome = true := by
  unfold isStartItem at h
  split at h
  case h_5 =>
    obtain ⟨below, rfl⟩ : row < 14 ∧ part = 0 := by simpa using h
    interval_cases row <;> rfl
  all_goals simpa [itemStart] using h

theorem execBringupItemStart_endsWell (cyc row part : Nat) (env : BringupEnv) (s : State) :
    endsWell (isStartItem row part) (execBringupItemStart cyc row part env s) = true := by
  unfold execBringupItemStart
  rw [endsWell_onUnit]
  cases item : isStartItem row part with
  | true => rw [itemStart_isSome item]; rfl
  | false => simp

/-- Every arm answers a next state outright, or does so on the unit that well-formedness asks for. -/
theorem exec_endsWell (c : Instr) (s : State) : endsWell (c.wellFormed s.part) (exec c s) = true := by
  cases c
  case read cyc rq items => exact State.request_endsWell _ rq _
  case write cyc rq items => exact State.request_endsWell _ rq _
  case readSegment cyc rq index sub offset length expectSeq => exact State.request_endsWell _ rq _
  case writeSegment cyc rq index sub first offset total data => exact State.request_endsWell _ rq _
  case begin cyc rq => exact State.request_endsWell _ rq _
  case commit cyc rq at_ => exact State.request_endsWell _ rq _
  case rollback cyc rq => exact State.request_endsWell _ rq _
  case txStatus cyc rq => exact State.request_endsWell _ rq _
  case dapMessageMalformed cyc session reqId => exact execDapMessageMalformed_endsWell ..
  case bringupItemStart cyc row part env => exact execBringupItemStart_endsWell ..
  all_goals
    simp only [exec, endsWell_next, endsWell_onUnit, endsWell_ite, ite_self,
      execFrefEdge, execFrefPulseClassified, execFlywheelBoundary, execRefclkLoss, execRefclkReturn,
      execFrameCountLoad, execRealignArm, execRealignDisarm, execFlitDelivered, execCreditReturned,
      execFabSnapRelease, execFabricStall, execQueueSample, execChecksumCompare, execMxeRecRelease, execReadData,
      execWriteAck, execHostReadTimeout, execHostWriteTimeout, execUcieCredit, execUcieTrainingComplete,
      execUcieTrainingRetry, execUcieCrcError, execUcieRetrainComplete, execUcieProtocolError, execHostDieReset,
      execWinWrite, execWinRead, execAttInvalidate, execAttInvalidateComplete, execWcetOverrun,
      execHoldoverLimit, execOpenStream, execAppend, execNop, execCancel, execClose, execPark, execUnpark,
      execInputCopyComplete, execNoticeWrite, execSealStart, execSealComplete, execRingConfigCommit,
      execDispatch, execReturnMsg, execBatchEnd, execDispatchCancel, execCredit, execUplinkNeighborSolicitation,
      execReturnTimeout, execCreditGraceExpiry, execServeBatchClose, execUplinkUp, execUplinkDown,
      execDspTableCommit, execStoreInstall, execStoreDelete, execAdapterInstall, execAdapterDelete,
      execStoreRepair, execStoModeSet, execStoreOpComplete, execStoreReadComplete, execBlockRelocate,
      execStoStackInitComplete, execStorePatrol, execSyncSignal, execSyncWait, execSyncArrive, execSyncBarrier,
      execSpanSignal, execRegister, execWaitRelease, execArrive, execRelease, execReleased, execReopen,
      execBreakNode, execGuardExpired, execContextSaved, execContextRestored, execLaceLightDetected,
      execLaceTrainingComplete, execLaceTrainingTimeout, execLaceMiswiredRetry, execRingHeaterStep,
      execLaceLightLost, execHello, execHelloAck, execNotReady, execLaceFrameReceived, execReplayReq,
      execLinkNotice, execGoodbye, execSpanHello, execSpanFault, execSpanCommit, execLeavingDrained,
      execLaserInputLost, execLaserInputReturn, execLoadRequest, execSlotFreeRequest, execLoadBegin,
      execLoadComplete, execModelSwitchRequest, execEpochSwitchRequest, execSwitchCancel, execStoreStackFailure,
      execShardArrival, execStagingComplete, execSwitchComplete, execShardRefetchComplete, execStrikeExpire,
      execFenceCmd, execUnfenceCmd, execAwlTestComplete, execAwlRunTargeted, execAwlRunDestructive,
      execAwlSetLoad, execPersistWriteComplete, execPersistClear, execPlanEntryStart, execPassEnd,
      execVoidingComplete, execSwapComplete, execDomainEnable, execDomainDisable, execDomainRailFault,
      execDomainTimeout, execFaultClear, execDomainStartComplete, execDomainStopComplete, execMinOffTimeExpiry,
      execThermalTrip, execVinUndervoltage, execVinCoreLoss, execCapFastLevelChange, execPwrFailWarn,
      execPwrFailWarnClear, execPowerFailShutdown, execEjectReq, execEjectNoticeTimeout, execEjectReady,
      execSurpriseRemoval, execKeyUpdate, execEnrolTicket, execReleaseTicket, execDebugUnlockTicket,
      execAttestRequest, execAttestReportReady, execSvnRaise, execResetModuleCmd, execResetFirmwareCmd,
      execModuleResetPin, execModuleRstLRelease, execWatchdogExpire, execPowerOn, execPowerFailRestart,
      execEjectRestart, execFwLoad, execFwLoadComplete, execFwActivate, execFwDeactivate, execServeStart,
      execServeStop, execIdentityReread, execBringupTimeout, execObjectWrite, execMulticastReadReply,
      execDictSlotPoll, execTxExpire, execPlcaStatusChange, execFieldAddressInUse, execFieldAddressConflict,
      execFieldNeighborSolicitation, execStationFire, execSlotBoundary, execHbmReadComplete,
      execHbmWriteAccepted, execPatrolScrubRead, execEyeAdjust, execStackInitComplete, execPageParked,
      execUnparkPageStart, execPageUnparked]
  all_goals first
    | exact Bool.or_not_self _
    | ((repeat' split) <;> rfl)

/-- Settles O50: a well-formed command finds its units, and no arm answers a refusal. -/
theorem commandsComplete : Obligations.CommandsComplete := by
  unfold Obligations.CommandsComplete
  refine ⟨fun c s fits => ?completes, fun c s r => endsWell_unrefused (exec_endsWell c s) r⟩
  have ends := exec_endsWell c s
  rw [fits] at ends
  exact endsWell_present ends

/-! ### What a command leaves alone -/

section
variable {c : Instr} {s t : State}

theorem exec_kept {α : Type} {g : Kept → α} (kept : g (outcomeState s (exec c s)).kept = g s.kept)
    (run : exec c s = .next t) : g t.kept = g s.kept := by rwa [run] at kept

theorem exec_part_pending (c : Instr) (s : State) :
    (outcomeState s (exec c s)).kept.part = s.kept.part ∧
    (outcomeState s (exec c s)).kept.pending = s.kept.pending := by
  cases c <;> (unfold exec; simp)

theorem exec_part (run : exec c s = .next t) : t.part = s.part := exec_kept (exec_part_pending c s).1 run
theorem exec_pending (run : exec c s = .next t) : t.pending = s.pending := exec_kept (exec_part_pending c s).2 run

end

section
variable (c : Instr) (s : State)

theorem outcome_regs : c.writesSettings = false → (outcomeState s (exec c s)).kept.regs = s.kept.regs := by
  cases c <;> (unfold exec; simp [Instr.writesSettings, Instr.commits, Instr.requests, Instr.restarts, Instr.boundary])

theorem outcome_blobs : c.writesBlobs = false → (outcomeState s (exec c s)).kept.blobs = s.kept.blobs := by
  cases c <;> (unfold exec; simp [Instr.writesBlobs, Instr.commits, Instr.requests, Instr.restarts, Instr.boundary])

theorem outcome_boot : c.changesBoot = false → (outcomeState s (exec c s)).kept.boot = s.kept.boot := by
  cases c <;> (unfold exec; simp [Instr.changesBoot, Instr.commits, Instr.requests, Instr.restarts, Instr.boundary])

theorem outcome_sec : c.changesSecurity = false → (outcomeState s (exec c s)).kept.sec = s.kept.sec := by
  cases c <;>
    (unfold exec; simp [Instr.changesSecurity, Instr.commits, Instr.requests, Instr.restarts, Instr.boundary])

theorem outcome_time : c.movesTime = false → (outcomeState s (exec c s)).kept.slot = s.kept.slot ∧
    (outcomeState s (exec c s)).kept.frame = s.kept.frame := by
  cases c <;> (unfold exec; simp [Instr.movesTime])

theorem outcome_sram : c.changesSram = false → (outcomeState s (exec c s)).kept.sram = s.kept.sram := by
  cases c <;> (unfold exec; simp [Instr.changesSram, Instr.commits, Instr.requests, Instr.restarts, Instr.boundary])

theorem outcome_hbm : c.changesHbm = false → (outcomeState s (exec c s)).kept.hbm = s.kept.hbm := by
  cases c <;> (unfold exec; simp [Instr.changesHbm, Instr.commits, Instr.requests, Instr.restarts, Instr.boundary])

theorem outcome_transactions : c.changesTransactions = false →
    (outcomeState s (exec c s)).kept.txs = s.kept.txs ∧ (outcomeState s (exec c s)).kept.ended = s.kept.ended := by
  cases c <;>
    (unfold exec; simp [Instr.changesTransactions, Instr.commits, Instr.requests, Instr.restarts, Instr.boundary])

end

/-- Settles O56: the arms, one by one, against the lists of Safety.lean. -/
theorem onlyListedCommandsWrite : Obligations.OnlyListedCommandsWrite := by
  unfold Obligations.OnlyListedCommandsWrite
  intro c s t run
  refine ⟨fun unlisted => ?settings, fun unlisted => exec_kept (g := Kept.blobs) (outcome_blobs c s unlisted) run,
    fun unlisted => exec_kept (g := Kept.boot) (outcome_boot c s unlisted) run,
    fun unlisted => exec_kept (g := Kept.sec) (outcome_sec c s unlisted) run, fun unlisted => ?time⟩
  case settings =>
    have regs : t.regs = s.regs := exec_kept (g := Kept.regs) (outcome_regs c s unlisted) run
    exact ⟨regs, fun k => by rw [State.reg, State.reg, regs, exec_part run]⟩
  case time =>
    obtain ⟨slot, frame⟩ := outcome_time c s unlisted
    exact ⟨exec_kept (g := Kept.slot) slot run, exec_kept (g := Kept.frame) frame run⟩

/-- Settles O57: a memory that an arm leaves alone reads as before. -/
theorem onlyListedCommandsStore : Obligations.OnlyListedCommandsStore := by
  unfold Obligations.OnlyListedCommandsStore
  intro c s t run
  refine ⟨fun unlisted a => congrArg (readByte · a) (exec_kept (g := Kept.sram) (outcome_sram c s unlisted) run),
    fun unlisted a => congrArg (readByte · a) (exec_kept (g := Kept.hbm) (outcome_hbm c s unlisted) run),
    fun unlisted => ?transactions⟩
  obtain ⟨txs, ended⟩ := outcome_transactions c s unlisted
  exact ⟨exec_kept (g := Kept.txs) txs run, exec_kept (g := Kept.ended) ended run⟩

/-! ### One step -/

section
variable {c : Instr} {rest : List Instr} {s : State}

theorem step_of_cons (front : s.pending = c :: rest) : step s = exec c { s with pending := rest } := by
  rw [step, front]

theorem step_of_nil (idle : s.pending = []) : step s = .next s := by rw [step, idle]

/-- What every command keeps, given that the queue is no part of it, every step keeps. -/
theorem step_keeps {P : State → Prop} (queue : ∀ (s : State) q, P s → P { s with pending := q })
    (keeps : ∀ c s t, exec c s = .next t → P s → P t) {s t : State} (run : step s = .next t) (held : P s) : P t := by
  cases front : s.pending with
  | nil =>
    rw [step_of_nil front] at run
    cases run
    exact held
  | cons c rest => exact keeps c _ t (step_of_cons front ▸ run) (queue s rest held)

end

/-- Settles O49: by the two shapes of the queue. -/
theorem stepTakesTheFrontCommand : Obligations.StepTakesTheFrontCommand := by
  unfold Obligations.StepTakesTheFrontCommand
  exact ⟨fun c rest s front => step_of_cons front, fun s idle => step_of_nil idle, fun s nbits w => ⟨rfl, rfl⟩⟩

/-- Settles O51: no arm touches the part or the queue, so a step changes the queue only by taking its front. -/
theorem partAndQueueStay : Obligations.PartAndQueueStay := by
  unfold Obligations.PartAndQueueStay
  refine ⟨fun c s t run => ⟨exec_part run, exec_pending run⟩, fun s t run => ?_⟩
  cases front : s.pending with
  | nil =>
    rw [step_of_nil front] at run
    cases run
    exact ⟨rfl, front⟩
  | cons c rest =>
    rw [step_of_cons front] at run
    have part := exec_part run
    have pending := exec_pending run
    exact ⟨part, pending⟩

/-! ### After reset -/

/-- Settles O55: the memories and the maps of settings start empty, SLOT and FRAME at zero. -/
theorem resetIsLegal : Obligations.ResetIsLegal := by
  unfold Obligations.ResetIsLegal
  refine ⟨⟨rfl, fun c saved => ?_⟩, ⟨by decide, by decide⟩, ⟨rfl, rfl⟩, Memory.wf_reset, rfl⟩
  cases saved

/-- Settles O58: each value as the defaults of the state's fields and of the object tables give it. -/
theorem resetValues : Obligations.ResetValues := by
  unfold Obligations.ResetValues
  refine ⟨rfl, rfl, rfl, ?slots, rfl, rfl, rfl, rfl, rfl, rfl, rfl, ?domains, ?laces, ?modules, fun a => rfl,
    ?_, ?_, ?_, ?_⟩
  all_goals decide
end Sys2Proof.Machine
end

section
/-! PROOFS. The time base (R37 to R53): where each edge, pulse and flywheel boundary takes SLOT, FRAME and the counters,
and that both stay in the ranges of Table 2-1. -/

namespace Sys2Proof.Machine

/-! ### SLOT and FRAME stay legal -/

/-- SLOT and FRAME lie in the ranges of Table 2-1. -/
def TimeBase.legal (t : TimeBase) : Prop := t.slot < 160 ∧ t.frame < 2 ^ 40

theorem State.timeLegal_iff (s : State) : s.timeLegal ↔ s.tb.legal := Iff.rfl

theorem TimeBase.legal_of_same {t u : TimeBase} (slot : u.slot = t.slot) (frame : u.frame = t.frame)
    (h : t.legal) : u.legal := by
  rwa [TimeBase.legal, slot, frame]

theorem TimeBase.legal_of_slot_zero {t : TimeBase} (slot : t.slot = 0) (frame : t.frame < 2 ^ 40) : t.legal :=
  ⟨by omega, frame⟩

theorem State.tb_legal_of_kept {s t : State} (kept : t.kept = s.kept) (h : s.tb.legal) : t.tb.legal :=
  TimeBase.legal_of_same (congrArg Kept.slot kept) (congrArg Kept.frame kept) h

theorem State.openHoldover_legal {s : State} (h : s.tb.legal) : s.openHoldover.tb.legal :=
  State.tb_legal_of_kept s.openHoldover_kept h

theorem TimeBase.place_legal {t : TimeBase} (h : t.legal) : t.place.legal := by
  obtain ⟨slot, frame⟩ := h
  unfold TimeBase.place
  split
  · next inside => exact ⟨Nat.succ_lt_succ inside, frame⟩
  · split
    · exact TimeBase.legal_of_slot_zero rfl frame
    · exact TimeBase.legal_of_slot_zero rfl (Nat.mod_lt _ (by decide))

@[simp] theorem TimeBase.miss_slot (t : TimeBase) : t.miss.slot = t.slot := by unfold TimeBase.miss; split <;> rfl
@[simp] theorem TimeBase.miss_frame (t : TimeBase) : t.miss.frame = t.frame := by unfold TimeBase.miss; split <;> rfl
@[simp] theorem TimeBase.miss_state (t : TimeBase) : t.miss.state = t.state := by unfold TimeBase.miss; split <;> rfl

theorem TimeBase.miss_legal {t : TimeBase} (h : t.legal) : t.miss.legal :=
  TimeBase.legal_of_same t.miss_slot t.miss_frame h

/-- A wide pulse in ACQUIRING names slot 0; no other mark moves SLOT. -/
theorem TimeBase.mark_legal {t : TimeBase} (wide : Bool) (h : t.legal) : (t.mark wide).legal := by
  obtain ⟨slot, frame⟩ := h
  unfold TimeBase.mark
  dsimp only
  (repeat' split) <;> first
    | exact ⟨slot, frame⟩
    | exact TimeBase.legal_of_slot_zero rfl frame

theorem State.lock_legal {s : State} (h : s.tb.legal) : s.lock.tb.legal := by
  obtain ⟨slot, frame⟩ := h
  unfold State.lock
  (repeat' split) <;> first
    | exact ⟨slot, frame⟩
    | exact ⟨slot, Nat.mod_lt _ (by decide)⟩

theorem State.realign_legal (s : State) (ended cyc : Nat) : (s.realign ended cyc).tb.legal :=
  TimeBase.legal_of_slot_zero rfl (Nat.mod_lt _ (by decide))

theorem State.validPulse_legal {s : State} (wide : Bool) (h : s.tb.legal) : (s.validPulse wide).tb.legal := by
  unfold State.validPulse
  dsimp only
  split
  · exact State.realign_legal ..
  · exact State.lock_legal (TimeBase.mark_legal wide h)

theorem State.jumpPulse_legal {s : State} (e : FrefEdge) (wide : Bool) (h : s.tb.legal) :
    (s.jumpPulse e wide).tb.legal := by
  unfold State.jumpPulse
  dsimp only
  split
  · exact State.realign_legal ..
  · exact h

theorem execFrefEdge_legal (refclks : Nat) {s : State} (h : s.tb.legal) :
    (outcomeState s (execFrefEdge refclks s)).tb.legal := by
  unfold execFrefEdge
  dsimp only
  (repeat' split) <;> first
    | exact h
    | exact TimeBase.place_legal h

theorem execFrefPulseClassified_legal (cyc high : Nat) {s : State} (h : s.tb.legal) :
    (outcomeState s (execFrefPulseClassified cyc high s)).tb.legal := by
  have stamped : (s.stamp cyc).tb.legal := h
  have missed : (s.stamp cyc).tb.miss.legal := TimeBase.miss_legal stamped
  unfold execFrefPulseClassified
  dsimp only
  (repeat' split) <;> simp only [outcomeState_next] <;> first
    | exact h
    | exact State.validPulse_legal _ stamped
    | exact State.jumpPulse_legal _ _ stamped
    | exact State.openHoldover_legal missed

theorem execFlywheelBoundary_legal {s : State} (h : s.tb.legal) :
    (outcomeState s (execFlywheelBoundary s)).tb.legal := by
  have placed : s.tb.place.legal := TimeBase.place_legal h
  have missed : s.tb.place.miss.legal := TimeBase.miss_legal placed
  have counted (n : Nat) : ({ s.tb.place with holdSlots := n } : TimeBase).miss.legal := TimeBase.miss_legal placed
  unfold execFlywheelBoundary State.placeBoundary
  dsimp only
  (repeat' split) <;> first
    | exact h
    | exact placed
    | exact counted _
    | exact State.openHoldover_legal missed
    | exact State.openHoldover_legal (counted _)

/-! ### Resets and boundaries -/

theorem State.powerOnReset_legal (s : State) (cause : Nat) : (s.powerOnReset cause).tb.legal :=
  TimeBase.legal_of_slot_zero rfl (Nat.two_pow_pos 40)

@[simp] theorem State.followCap_tb (s : State) : s.followCap.tb = s.tb := by
  unfold State.followCap
  dsimp only
  (repeat' split) <;> simp

/-- Table 18-2: the time base goes on through a MODULE reset; its counters start again. -/
theorem State.moduleReset_tb (s : State) (cause : Nat) : (s.moduleReset cause).tb =
    { s.tb with armed := false, load := none, holdSlots := 0, missed := 0, outOfWindow := 0, markFaults := 0 } := by
  unfold State.moduleReset
  dsimp only
  (repeat' split) <;> simp

theorem State.moduleReset_legal {s : State} (cause : Nat) (h : s.tb.legal) : (s.moduleReset cause).tb.legal := by
  rw [State.moduleReset_tb]
  exact h

theorem State.resetOn_legal {s : State} (h : s.tb.legal) : s.resetOn.tb.legal := by
  unfold State.resetOn
  (repeat' split) <;> first
    | exact h
    | exact State.moduleReset_legal _ h

theorem State.earlyBoundary_legal {s : State} (env : BoundaryEnv) (frame : Bool) (h : s.tb.legal) :
    (s.earlyBoundary env frame).tb.legal := by
  unfold State.earlyBoundary
  refine State.resetOn_legal (TimeBase.legal_of_same (t := s.tb) ?slot ?frame h) <;>
    simp [State.fold_kept]

theorem execSlotBoundary_legal (env : BoundaryEnv) {s : State} (h : s.tb.legal) :
    (outcomeState s (execSlotBoundary env s)).tb.legal := by
  have early (frame : Bool) : (s.earlyBoundary env frame).tb.legal := State.earlyBoundary_legal env frame h
  unfold execSlotBoundary
  dsimp only
  split
  · exact h
  · rw [outcomeState_next]
    split
    · exact early _
    · obtain ⟨-, -, slot, frame⟩ := State.lateBoundary_keeps (s.earlyBoundary env _) env _
      exact TimeBase.legal_of_same slot frame (early _)

theorem outcome_timeLegal_of_unlisted {c : Instr} {s : State} (unlisted : c.movesTime = false) (h : s.tb.legal) :
    (outcomeState s (exec c s)).tb.legal := by
  obtain ⟨slot, frame⟩ := outcome_time c s unlisted
  exact TimeBase.legal_of_same slot frame h

/-- Commands that Safety.lean does not list keep the time; those that it lists keep it legal. -/
theorem outcome_timeLegal (c : Instr) {s : State} (h : s.tb.legal) : (outcomeState s (exec c s)).tb.legal := by
  cases c
  case frefEdge refclks => exact execFrefEdge_legal refclks h
  case frefPulseClassified cyc high => exact execFrefPulseClassified_legal cyc high h
  case flywheelBoundary => exact execFlywheelBoundary_legal h
  case slotBoundary env => exact execSlotBoundary_legal env h
  case powerOn => exact State.powerOnReset_legal s 1
  case powerFailRestart good =>
    show (outcomeState s (execPowerFailRestart good s)).tb.legal
    unfold execPowerFailRestart
    split
    · exact State.powerOnReset_legal s 2
    · exact h
  case ejectRestart =>
    show (outcomeState s (execEjectRestart s)).tb.legal
    unfold execEjectRestart
    split
    · exact State.powerOnReset_legal s 3
    · exact h
  case moduleRstLRelease => exact State.resetOn_legal (s := { s with boot := { s.boot with resetHeld := false } }) h
  all_goals exact outcome_timeLegal_of_unlisted rfl h

/-- Settles O53: by the commands, since a step is one command or none. -/
theorem timeStaysLegal : Obligations.TimeStaysLegal := by
  unfold Obligations.TimeStaysLegal
  intro s t run legal
  refine step_keeps (P := State.timeLegal) (fun s q h => h) (fun c s t run h => ?_) run legal
  have kept := outcome_timeLegal c h
  rwa [run] at kept

end Sys2Proof.Machine
end

section
/-! PROOFS. What the commands of the time base answer (R37 to R53): edges, classified pulses, the flywheel, the clock
and the limit of the holdover. -/

namespace Sys2Proof.Machine

/-! ### A boundary is placed -/

section
variable (t : TimeBase)

theorem TimeBase.place_slot {t : TimeBase} (h : t.slot < 160) : t.place.slot = (t.slot + 1) % 160 := by
  unfold TimeBase.place
  (repeat' split) <;> dsimp only <;> omega

@[simp] theorem TimeBase.place_cyc : t.place.cyc = 0 := by unfold TimeBase.place; (repeat' split) <;> rfl
@[simp] theorem TimeBase.place_boundaryDue : t.place.boundaryDue = true := by
  unfold TimeBase.place; (repeat' split) <;> rfl
@[simp] theorem TimeBase.place_state : t.place.state = t.state := by unfold TimeBase.place; (repeat' split) <;> rfl
@[simp] theorem TimeBase.place_missed : t.place.missed = t.missed := by
  unfold TimeBase.place; (repeat' split) <;> rfl
@[simp] theorem TimeBase.place_missRun : t.place.missRun = t.missRun := by
  unfold TimeBase.place; (repeat' split) <;> rfl
@[simp] theorem TimeBase.place_outOfWindow : t.place.outOfWindow = t.outOfWindow := by
  unfold TimeBase.place; (repeat' split) <;> rfl
@[simp] theorem TimeBase.place_markFaults : t.place.markFaults = t.markFaults := by
  unfold TimeBase.place; (repeat' split) <;> rfl
@[simp] theorem TimeBase.place_holdSlots : t.place.holdSlots = t.holdSlots := by
  unfold TimeBase.place; (repeat' split) <;> rfl

/-- Outside ACQUIRING the boundary after slot 159 opens a frame (R44). -/
theorem TimeBase.place_frame {t : TimeBase} (running : t.state ≠ .acquiring) (h : t.slot < 160) :
    t.place.frame = if t.slot = 159 then t.load.getD (t.frame + 1) % 2 ^ 40 else t.frame := by
  by_cases last : t.slot = 159
  · rw [TimeBase.place_at_frame_end running last, if_pos last]
  · rw [TimeBase.place_within_frame (by omega), if_neg last]

/-! ### A missing edge -/

theorem TimeBase.miss_of_running {t : TimeBase} (running : t.state ≠ .acquiring) : t.miss = { t with
    validRun := 0, missed := sat 32 (t.missed + 1), missRun := t.missRun + 1
    missFirst := if t.missRun = 0 then t.boundaryFst else t.missFirst } := if_neg running

end

section
variable {s : State}

/-! ### Edges (R38, R45, R624) -/

theorem inWindow_of_le {n : Nat} (low : 12498 ≤ n) (high : n ≤ 12502) : inWindow n = true := by
  simp [inWindow, low, high]

theorem inWindow_of_outside {n : Nat} (h : n < 12498 ∨ 12502 < n) : inWindow n = false := by
  simp only [inWindow, Bool.and_eq_false_iff, decide_eq_false_iff_not]
  omega

theorem exec_frefEdge_taken {refclks : Nat} (first : s.tb.edge = none)
    (state : s.tb.state = .locked ∨ s.tb.state = .acquiring) (inside : inWindow refclks = true) :
    exec (.frefEdge refclks) s = .next { s.placeBoundary with tb := { s.tb.place with
      edge := some { phase := refclks, taken := true, placed := true } } } := by
  have run : exec (.frefEdge refclks) s = execFrefEdge refclks s := rfl
  simp [run, execFrefEdge, first, inside, state, State.placeBoundary]

theorem exec_frefEdge_stray {refclks : Nat} (first : s.tb.edge = none)
    (expected : s.tb.state = .acquiring → s.tb.validRun ≠ 0) (outside : inWindow refclks = false) :
    exec (.frefEdge refclks) s = .next { s with tb := s.tb.strayEdge refclks } := by
  have run : exec (.frefEdge refclks) s = execFrefEdge refclks s := rfl
  have bound : (decide (s.tb.state = .acquiring) && decide (s.tb.validRun = 0)) = false := by simpa using expected
  simp [run, execFrefEdge, first, outside, bound]

theorem exec_frefEdge_second {refclks : Nat} {e : FrefEdge} (before : s.tb.edge = some e) (untaken : e.taken = false)
    (inside : inWindow e.phase = true) : exec (.frefEdge refclks) s = .next { s with tb := { s.tb with
      outOfWindow := sat 32 (s.tb.outOfWindow + 1) } } := by
  have run : exec (.frefEdge refclks) s = execFrefEdge refclks s := rfl
  simp [run, execFrefEdge, before, untaken, inside]

end

/-- Settles O1: an edge in the window places the boundary, and every other one only counts. -/
theorem edgesAreJudged : Obligations.EdgesAreJudged := by
  unfold Obligations.EdgesAreJudged
  refine ⟨fun refclks s first state low high slot => ?taken,
    fun refclks s first expected outside => exec_frefEdge_stray first expected (inWindow_of_outside outside),
    fun refclks e s before untaken low high => exec_frefEdge_second before untaken (inWindow_of_le low high)⟩
  refine ⟨_, exec_frefEdge_taken first state (inWindow_of_le low high), TimeBase.place_slot slot, s.tb.place_cyc,
    s.tb.place_boundaryDue, s.tb.place_state, rfl, fun inside => ?within, fun last locked => ?last,
    s.tb.place_missed, s.tb.place_outOfWindow, s.tb.place_markFaults, rfl, rfl⟩
  case within => simp [TimeBase.place_within_frame inside]
  case last => simp [TimeBase.place_at_frame_end (t := s.tb) (by simp [locked]) last]

/-! ### Classified pulses (R37, R39, R46) -/

section
variable {s : State} {cyc high : Nat} {e : FrefEdge}

theorem pulseOf_normal (low : 8 ≤ high) (top : high ≤ 24) : pulseOf high = .normal := if_pos ⟨low, top⟩

theorem pulseOf_invalid (h : high < 8 ∨ 24 < high ∧ high < 40 ∨ 120 < high) : pulseOf high = .invalid := by
  rw [pulseOf, if_neg (by omega), if_neg (by omega)]

theorem exec_pulse_normal (before : s.tb.edge = some e) (taken : e.taken = true) (normal : pulseOf high = .normal) :
    exec (.frefPulseClassified cyc high) s = .next ((s.stamp cyc).validPulse false) := by
  have run : exec (.frefPulseClassified cyc high) s = execFrefPulseClassified cyc high s := rfl
  simp [run, execFrefPulseClassified, before, taken, normal]

theorem exec_pulse_invalid (before : s.tb.edge = some e) (taken : e.taken = true) (placed : e.placed = true)
    (invalid : pulseOf high = .invalid) : exec (.frefPulseClassified cyc high) s = .next (State.openHoldover
      { s.stamp cyc with tb := { (s.stamp cyc).tb.miss with edge := none, jumpRun := 0, jump := false } }) := by
  have run : exec (.frefPulseClassified cyc high) s = execFrefPulseClassified cyc high s := rfl
  simp [run, execFrefPulseClassified, before, taken, placed, invalid]

theorem State.lock_of_locked (locked : s.tb.state = .locked) : s.lock = s := by
  unfold State.lock
  rw [locked]
  split <;> rfl

theorem TimeBase.mark_state (t : TimeBase) (wide : Bool) : (t.mark wide).state = t.state := by
  unfold TimeBase.mark
  (repeat' split) <;> rfl

/-- A normal pulse while LOCKED neither locks nor realigns. -/
theorem State.validPulse_normal (locked : s.tb.state = .locked) : s.validPulse false = { s.filterPhase with
    tb := TimeBase.mark { s.filterPhase.tb with
      edge := none, missRun := 0, validRun := s.tb.validRun + 1, jump := false, jumpRun := 0 } false } := by
  unfold State.validPulse
  rw [if_neg (by simp)]
  exact State.lock_of_locked ((TimeBase.mark_state _ false).trans locked)

/-- The correction of the slot is at most 16 fabric cycles (R39). -/
theorem State.filterPhase_correction (s : State) :
    -16 ≤ s.filterPhase.tb.phaseCorrection ∧ s.filterPhase.tb.phaseCorrection ≤ 16 := by
  simp only [State.filterPhase]
  omega

/-- The fourth missing edge in a row opens HOLDOVER, and the others change nothing (R46). -/
theorem State.openHoldover_eq (locked : s.tb.state = .locked) : ∃ v n, s.openHoldover =
    { s with tb := { s.tb with state := if s.tb.missRun < 4 then .locked else .holdover, holdSlots := n }, srv := v } := by
  unfold State.openHoldover
  by_cases few : s.tb.missRun < 4
  · refine ⟨s.srv, s.tb.holdSlots, ?_⟩
    rw [if_neg (by simp [few]), if_pos few, ← locked]
  · refine ⟨(State.raise { s with tb := { s.tb with state := .holdover, holdSlots := 3 } } 0x0701 0
      s.tb.missFirst 0).srv, 3, ?_⟩
    rw [if_pos (by simpa [locked] using few), if_neg few]
    rfl

end

/-- Settles O2: a normal pulse ends the run of missing edges, an invalid one lengthens it. -/
theorem pulseClassifiedWhileLocked : Obligations.PulseClassifiedWhileLocked := by
  unfold Obligations.PulseClassifiedWhileLocked
  intro cyc high e s locked before taken
  refine ⟨fun low top => ?normal, fun outside placed => ?invalid⟩
  case normal =>
    refine ⟨_, exec_pulse_normal before taken (pulseOf_normal low top), ?_⟩
    rw [State.validPulse_normal (s := s.stamp cyc) locked]
    obtain ⟨least, most⟩ := (s.stamp cyc).filterPhase_correction
    have running : s.tb.state ≠ .acquiring := by simp [locked]
    by_cases start : s.tb.slot = 0
    · simp_all [TimeBase.mark, State.filterPhase, State.stamp, sat]
    · simp_all [TimeBase.mark, State.filterPhase, State.stamp, sat]
  case invalid =>
    have running : (s.stamp cyc).tb.state ≠ .acquiring := by simp [locked]
    refine ⟨_, exec_pulse_invalid before taken placed (pulseOf_invalid outside), ?_⟩
    rw [TimeBase.miss_of_running running]
    obtain ⟨v, n, opened⟩ := State.openHoldover_eq (s := { s.stamp cyc with tb := { (s.stamp cyc).tb.miss with
      edge := none, jumpRun := 0, jump := false } }) (by simp [locked])
    rw [TimeBase.miss_of_running running] at opened
    rw [opened]
    have few : (s.tb.missRun + 1 < 4) = (s.tb.missRun < 3) := by simp [Nat.succ_lt_succ_iff]
    exact ⟨rfl, rfl, rfl, rfl, by simp [few], rfl, rfl, rfl, rfl⟩

/-! ### The flywheel (R45, R46) -/

section
variable {s : State}

theorem exec_flywheel_locked (unseen : s.tb.edge = none) (locked : s.tb.state = .locked) :
    exec .flywheelBoundary s = .next (State.openHoldover { s.placeBoundary with tb := s.tb.place.miss }) := by
  have run : exec .flywheelBoundary s = execFlywheelBoundary s := rfl
  simp [run, execFlywheelBoundary, unseen, locked, State.placeBoundary]

theorem exec_flywheel_held (unseen : s.tb.edge = none) (unlocked : s.tb.state ≠ .locked)
    (running : s.tb.state ≠ .acquiring) : exec .flywheelBoundary s = .next { s.placeBoundary with
      tb := ({ s.tb.place with holdSlots := sat 32 (s.tb.holdSlots + 1) } : TimeBase).miss } := by
  have run : exec .flywheelBoundary s = execFlywheelBoundary s := rfl
  cases state : s.tb.state with
  | locked => exact absurd state unlocked
  | acquiring => exact absurd state running
  | holdover => simp [run, execFlywheelBoundary, unseen, state, State.placeBoundary]
  | holdoverLimit => simp [run, execFlywheelBoundary, unseen, state, State.placeBoundary]

end

/-- Settles O3: while LOCKED a missing edge may open HOLDOVER, and otherwise it lengthens the holdover. -/
theorem flywheelPlacesBoundary : Obligations.FlywheelPlacesBoundary := by
  unfold Obligations.FlywheelPlacesBoundary
  intro s unseen slot running
  have placed : s.tb.place.state ≠ .acquiring := by simpa using running
  by_cases locked : s.tb.state = .locked
  · obtain ⟨v, n, opened⟩ := State.openHoldover_eq (s := { s.placeBoundary with tb := s.tb.place.miss })
      (by simp [locked])
    refine ⟨_, exec_flywheel_locked unseen locked, ?_⟩
    rw [opened, TimeBase.miss_of_running placed]
    refine ⟨TimeBase.place_slot slot, s.tb.place_boundaryDue, s.tb.place_cyc, TimeBase.place_frame running slot,
      by simp [sat], by simp, rfl, fun _ => by simp [Nat.succ_lt_succ_iff], fun unlocked => absurd locked unlocked,
      rfl, rfl⟩
  · refine ⟨_, exec_flywheel_held unseen locked running, ?_⟩
    rw [TimeBase.miss_of_running (t := { s.tb.place with holdSlots := sat 32 (s.tb.holdSlots + 1) }) placed]
    refine ⟨TimeBase.place_slot slot, s.tb.place_boundaryDue, s.tb.place_cyc, TimeBase.place_frame running slot,
      by simp [sat], by simp, rfl, fun h => absurd h locked, fun _ => ⟨s.tb.place_state, rfl⟩, rfl, rfl⟩

/-! ### REFCLK, FRAME and realignment (R44, R49, R52) -/

/-- Settles O5: each command by its arm. -/
theorem clockAndFrameCommands : Obligations.ClockAndFrameCommands := by
  unfold Obligations.ClockAndFrameCommands
  refine ⟨fun s => rfl, fun cycles s internal long => ?back, fun value s small empty sorted => ?load,
    fun value s small occupied => ?refused, fun s => rfl, fun s => rfl⟩
  case back =>
    have run : exec (.refclkReturn cycles) s = execRefclkReturn cycles s := rfl
    simp [run, execRefclkReturn, internal, long]
  case load =>
    refine ⟨(State.setReg { s with tb := { s.tb with load := some value } } Reg.SRV_FRAME_COUNT_LOAD value).status
      Status.OK, ?_, rfl, State.reg_setReg_self _ _ _ sorted, rfl, rfl⟩
    have run : exec (.frameCountLoad value) s = execFrameCountLoad value s := rfl
    rw [run, execFrameCountLoad, if_neg (by omega), if_neg (by simp [State.anyStream, empty])]
  case refused =>
    have run : exec (.frameCountLoad value) s = execFrameCountLoad value s := rfl
    rw [run, execFrameCountLoad, if_neg (by omega), if_pos (by simpa [State.anyStream] using occupied)]
    rfl

/-! ### The limit of the holdover (R53) -/

section
variable (s : State)

@[simp] theorem State.notifyLater_streams (x : Notice) : (s.notifyLater x).srv.streams = s.srv.streams := by
  unfold State.notifyLater
  (repeat' split) <;> rfl

@[simp] theorem State.modStream_streams (n : Nat) (f : Stream → Stream) :
    (s.modStream n f).srv.streams = kmod s.srv.streams n f := rfl

@[simp] theorem State.retemplate_srv : s.retemplate.srv = s.srv := by
  unfold State.retemplate
  split <;> rfl

@[simp] theorem State.raiseFor_streams (code group a b c : Nat) :
    (s.raiseFor code group a b c).srv.streams = s.srv.streams := by
  simp [State.raiseFor]

/-- What a stream becomes when its class changes. -/
def Stream.inClass (x : Stream) (cls : Nat) (cause : Option Nat) : Stream :=
  { x with cls := cls, downgraded := cause, parity := if cls = 0 then x.parity else none
           reserved := if cls = 0 then x.reserved else [] }

@[simp] theorem State.setClass_tb (n cls : Nat) (cause : Option Nat) : (s.setClass n cls cause).tb = s.tb := rfl
@[simp] theorem State.setClass_planner (n cls : Nat) (cause : Option Nat) :
    (s.setClass n cls cause).planner = s.planner := rfl

theorem State.setClass_streams (n cls : Nat) (cause : Option Nat) :
    (s.setClass n cls cause).srv.streams = kmod s.srv.streams n (·.inClass cls cause) := by
  simp [State.setClass, Stream.inClass]

end

/-- Changes at keys in turn reach each key once for each time that it is named. -/
theorem foldl_kmod_eq_map {α : Type} (f : α → α) (ns : List Nat) (m : KMap α) :
    ns.foldl (fun m n => kmod m n f) m = m.map fun e => (e.1, f^[ns.count e.1] e.2) := by
  induction ns generalizing m with
  | nil => simp
  | cons n ns ih =>
    rw [List.foldl_cons, ih, kmod, List.map_map]
    refine List.map_congr_left fun e _ => ?_
    by_cases h : e.1 = n
    · simp [h]
    · simp [h, Ne.symm h]

theorem kget?_foldl_kmod {α : Type} (f : α → α) {ns : List Nat} {n : Nat} (m : KMap α) (h : n ∉ ns) :
    kget? (ns.foldl (fun m n => kmod m n f) m) n = kget? m n := by
  induction ns generalizing m with
  | nil => rfl
  | cons k ns ih =>
    obtain ⟨other, rest⟩ := List.ne_and_not_mem_of_not_mem_cons h
    rw [List.foldl_cons, ih _ rest, kget?_kmod, if_neg other]

section
variable (s : State) (ns : List Nat) (cause : Nat)

theorem State.foldl_setClass_streams (cls : Nat) (c : Option Nat) :
    (ns.foldl (fun t n => State.setClass t n cls c) s).srv.streams =
      ns.foldl (fun m n => kmod m n (·.inClass cls c)) s.srv.streams := by
  induction ns generalizing s with
  | nil => rfl
  | cons n ns ih => rw [List.foldl_cons, ih, State.setClass_streams, List.foldl_cons]

theorem State.downgrade_streams : (s.downgrade ns cause).srv.streams =
    ns.foldl (fun m n => kmod m n (·.inClass 1 (some cause))) s.srv.streams := by
  unfold State.downgrade
  rw [State.keeps_foldl (fun t => t.srv.streams) (fun t g => State.raiseFor_streams t ..),
    State.retemplate_srv, State.foldl_setClass_streams]

@[simp] theorem State.retemplate_tb : s.retemplate.tb = s.tb := by
  unfold State.retemplate
  split <;> rfl

@[simp] theorem State.retemplate_running : s.retemplate.planner.running = s.planner.running := by
  unfold State.retemplate
  split <;> rfl

@[simp] theorem State.downgrade_tb : (s.downgrade ns cause).tb = s.tb := by
  unfold State.downgrade
  rw [State.keeps_foldl State.tb fun t g => State.raiseFor_tb t .., State.retemplate_tb,
    State.keeps_foldl State.tb fun t n => State.setClass_tb t ..]

@[simp] theorem State.downgrade_running : (s.downgrade ns cause).planner.running = s.planner.running := by
  unfold State.downgrade
  rw [State.keeps_foldl (fun t => t.planner.running) fun t g => congrArg _ (State.raiseFor_planner t ..),
    State.retemplate_running, State.keeps_foldl (fun t => t.planner.running) fun t n =>
      congrArg _ (State.setClass_planner t ..)]

/-- Once every class-0 stream has been named, none stays in class 0. -/
theorem State.downgrade_class0 : (s.downgrade s.class0 cause).class0 = [] := by
  rw [State.class0, State.downgrade_streams, foldl_kmod_eq_map, List.map_eq_nil_iff, List.filter_eq_nil_iff]
  intro _ inside
  obtain ⟨e, listed, rfl⟩ := List.mem_map.mp inside
  dsimp only
  cases named : s.class0.count e.1 with
  | zero =>
    have unnamed : e.1 ∉ s.class0 := List.count_eq_zero.mp named
    intro h
    exact unnamed (List.mem_map.mpr ⟨e, List.mem_filter.mpr ⟨listed, h⟩, rfl⟩)
  | succ k => simp [Function.iterate_succ_apply', Stream.inClass]

theorem State.downgrade_stream?_ne {n : Nat} (h : n ∉ ns) : (s.downgrade ns cause).stream? n = s.stream? n := by
  rw [State.stream?, State.downgrade_streams, kget?_foldl_kmod _ _ h, State.stream?]

end

/-- The limit of the holdover is entered, and CLASS0_LOST raised. -/
def State.enterLimit (s : State) : State :=
  State.raise { s with tb := { s.tb with state := .holdoverLimit } } 0x0704 s.class0.length 0 0

@[simp] theorem State.enterLimit_tb (s : State) : s.enterLimit.tb = { s.tb with state := .holdoverLimit } := by
  simp [State.enterLimit]
@[simp] theorem State.enterLimit_planner (s : State) : s.enterLimit.planner = s.planner := by simp [State.enterLimit]
@[simp] theorem State.enterLimit_streams (s : State) : s.enterLimit.srv.streams = s.srv.streams := by
  simp [State.enterLimit]
@[simp] theorem State.enterLimit_class0 (s : State) : s.enterLimit.class0 = s.class0 := by simp [State.class0]

/-- Settles O4: the streams of class 0 are those that `State.downgrade` names. -/
theorem holdoverLimitEndsClass0 : Obligations.HoldoverLimitEndsClass0 := by
  unfold Obligations.HoldoverLimitEndsClass0
  intro s held long
  have run : exec .holdoverLimit s = .next (s.enterLimit.downgrade s.class0 1) :=
    if_pos (by simp [held, long])
  refine ⟨_, run, by simp, ?_, fun n other => ?_, by simp⟩
  · rw [← s.enterLimit_class0]
    exact State.downgrade_class0 _ 1
  · rw [State.downgrade_stream?_ne _ _ _ other, State.stream?, State.enterLimit_streams, State.stream?]

end Sys2Proof.Machine
end

section
/-! PROOFS. The event path (R354) and the comparisons of checksums (R157 to R164). -/

namespace Sys2Proof.Machine

/-! ### The event path -/

section

@[simp] theorem le_length (n v : Nat) : (le n v).length = n := by
  induction n generalizing v with
  | zero => rfl
  | succ n ih => simp [le, ih]

@[simp] theorem logEvent_getLast? (log : List Event) (e : Event) : (logEvent log e).getLast? = some e := by
  have one : log.length + 1 - 64 ≤ log.length := by omega
  rw [logEvent, List.drop_append_of_le_length one]
  exact List.getLast?_concat

theorem logEvent_length_le {log : List Event} {e : Event} (h : log.length ≤ 64) : (logEvent log e).length ≤ 64 := by
  simp only [logEvent, List.length_drop, List.length_append, List.length_singleton]
  omega

theorem Event.bytes_length (e : Event) : e.bytes.length = 32 := by simp [Event.bytes]

theorem Serving.eventRoom_none (v : Serving) : v.eventRoom 0 = 0 := by simp [Serving.eventRoom]

variable {v : Serving} {entries : Nat} {e : Event}

/-- Whether the ring has room or not, the event is the last of the log. -/
theorem Serving.raise_log : (v.raise entries e).log.getLast? = some e := by
  unfold Serving.raise
  dsimp only
  (repeat' split) <;> simp only [logEvent_getLast?]

theorem Serving.raise_log_length (h : v.log.length ≤ 64) : (v.raise entries e).log.length ≤ 64 := by
  unfold Serving.raise
  dsimp only
  (repeat' split) <;> simp only [logEvent_length_le, h]

theorem Serving.raise_of_full (full : v.eventRoom entries = 0) : v.raise entries e = { v with
    log := logEvent v.log e, eventsPending := sat 32 (v.eventsPending + 1)
    eventsLost := sat 32 (v.eventsLost + 1) } := if_pos full

theorem Serving.raise_of_room (room : v.eventRoom entries ≠ 0) (caught : v.eventsPending = 0) :
    v.raise entries e = { v with log := logEvent v.log e, eventQueue := v.eventQueue ++ [e] } := by
  rw [Serving.raise, if_neg room, if_pos caught]

end

/-- Settles O60: the log takes the event in every case of `Serving.raise`, the ring in those with room. -/
theorem eventsAreLogged : Obligations.EventsAreLogged := by
  unfold Obligations.EventsAreLogged
  rintro code group arg0 arg1 arg2 e s t rfl rfl
  unfold State.raiseFor
  refine ⟨Event.bytes_length _, Serving.raise_log, Serving.raise_log_length, fun unheard => ?lost,
    fun up room caught => ?queued, Serving.raise_streams _ _ _, rfl⟩
  case lost =>
    have none : (if s.hlk.up = true then s.reg Reg.SRV_EVENT_ENTRIES else 0) = 0 := by
      rcases unheard with down | zero
      · rw [if_neg (by simp [down])]
      · rw [zero, ite_self]
    dsimp only
    rw [Serving.raise_of_full (by rw [none, Serving.eventRoom_none])]
    exact ⟨rfl, rfl⟩
  case queued =>
    dsimp only
    rw [if_pos up, Serving.raise_of_room room caught]
    exact ⟨rfl, rfl⟩

/-! ### What serving a stream and keeping a record leave alone -/

/-- The units that no end of a stream, strike or record touches. -/
structure Devices where
  tb : TimeBase
  fab : Fabric
  mxe : Engine
  chn : ChainCounters
  mem : Memory
  syn : Sync
  lce : Torus
  dsp : Dispatch
  hlk : HostLink
  dict : Dict
  pwr : Power

def State.devices (s : State) : Devices :=
  { tb := s.tb, fab := s.fab, mxe := s.mxe, chn := s.chn, mem := s.mem, syn := s.syn, lce := s.lce, dsp := s.dsp
    hlk := s.hlk, dict := s.dict, pwr := s.pwr }

section
variable (s : State)

theorem State.fold_devices : s.tb = s.devices.tb ∧ s.fab = s.devices.fab ∧ s.mxe = s.devices.mxe ∧
    s.chn = s.devices.chn ∧ s.mem = s.devices.mem ∧ s.syn = s.devices.syn ∧ s.lce = s.devices.lce ∧
    s.dsp = s.devices.dsp ∧ s.hlk = s.devices.hlk ∧ s.dict = s.devices.dict ∧ s.pwr = s.devices.pwr := by
  simp [State.devices]

theorem State.devices_mk (part : Part) (pending : List Instr) (free : Nat) (regs : KMap Nat)
    (blobs : KMap (List Byte)) (tb : TimeBase) (planner : Planner) (fab : Fabric) (mxe : Engine) (chn : ChainCounters)
    (mem : Memory) (pages : Pages) (store : Store) (srv : Serving) (syn : Sync) (lce : Torus) (dsp : Dispatch)
    (hlk : HostLink) (dict : Dict) (ras : Ras) (pwr : Power) (boot : Boot) (sec : Security) :
    State.devices { part := part, pending := pending, free := free, regs := regs, blobs := blobs, tb := tb
                    planner := planner, fab := fab, mxe := mxe, chn := chn, mem := mem, pages := pages, store := store
                    srv := srv, syn := syn, lce := lce, dsp := dsp, hlk := hlk, dict := dict, ras := ras, pwr := pwr
                    boot := boot, sec := sec } =
    { tb := tb, fab := fab, mxe := mxe, chn := chn, mem := mem, syn := syn, lce := lce, dsp := dsp, hlk := hlk
      dict := dict, pwr := pwr } := rfl

@[simp] theorem State.raiseFor_devices (code group a b c : Nat) : (s.raiseFor code group a b c).devices = s.devices := by
  simp [State.devices]
@[simp] theorem State.raise_devices (code a b c : Nat) : (s.raise code a b c).devices = s.devices := by
  simp [State.devices]
@[simp] theorem State.notifyLater_devices (x : Notice) : (s.notifyLater x).devices = s.devices := rfl
@[simp] theorem State.modQuad_devices (q : Nat) (f : Quadrant → Quadrant) : (s.modQuad q f).devices = s.devices := rfl

@[simp] theorem State.leaveTemplate_devices (n : Nat) (x : Stream) : (s.leaveTemplate n x).devices = s.devices := by
  unfold State.leaveTemplate
  split <;> rfl

@[simp] theorem State.dropStream_devices (n : Nat) : (s.dropStream n).devices = s.devices := by
  unfold State.dropStream
  cases s.stream? n with
  | none => rfl
  | some x =>
    dsimp only
    split <;> exact State.leaveTemplate_devices _ n x

@[simp] theorem State.endStream_devices (n status : Nat) : (s.endStream n status).devices = s.devices := by
  unfold State.endStream
  split
  · rfl
  · split
    · rfl
    · simp

@[simp] theorem State.endAll_devices (status : Nat) : (s.endAll status).devices = s.devices :=
  State.keeps_foldl _ (fun t n => t.endStream_devices n status) _ s

@[simp] theorem State.outOfService_devices : s.outOfService.devices = s.devices := by
  unfold State.outOfService
  split
  · rfl
  · simp [State.fold_devices, State.devices_mk]

@[simp] theorem State.judge_devices (q cause source : Nat) : (s.judge q cause source).devices = s.devices := by
  unfold State.judge
  (repeat' split) <;> simp

@[simp] theorem State.strike_devices (q : Nat) (kind : StrikeKind) (source : Nat) :
    (s.strike q kind source).devices = s.devices := by
  unfold State.strike
  dsimp only
  (repeat' split) <;> simp

@[simp] theorem State.taint_devices (t : RecordInfo) : (s.taint t).devices = s.devices := by
  unfold State.taint
  (repeat' split) <;> rfl

@[simp] theorem State.record_devices (info : RecordInfo) : (s.record info).devices = s.devices := by
  unfold State.record
  dsimp only
  split <;> simp [State.devices]

@[simp] theorem State.startRefetch_devices (epoch shard : Nat) : (s.startRefetch epoch shard).devices = s.devices := by
  simp [State.startRefetch, State.fold_devices, State.devices_mk]

@[simp] theorem State.detect_devices (info : RecordInfo) : (s.detect info).devices = s.devices := by
  unfold State.detect
  dsimp only
  (repeat' split) <;> simp [State.fold_devices, State.devices_mk]

@[simp] theorem State.detect_fab (info : RecordInfo) : (s.detect info).fab = s.fab :=
  congrArg Devices.fab (s.detect_devices info)
@[simp] theorem State.detect_mxe (info : RecordInfo) : (s.detect info).mxe = s.mxe :=
  congrArg Devices.mxe (s.detect_devices info)
@[simp] theorem State.strike_fab (q : Nat) (kind : StrikeKind) (source : Nat) : (s.strike q kind source).fab = s.fab :=
  congrArg Devices.fab (s.strike_devices q kind source)
@[simp] theorem State.strike_mxe (q : Nat) (kind : StrikeKind) (source : Nat) : (s.strike q kind source).mxe = s.mxe :=
  congrArg Devices.mxe (s.strike_devices q kind source)

end

/-! ### Comparisons -/

section
variable {s : State} {cyc : Nat} {c : Comparison} {d : StationDesc} {m : Image} {op : MatmulOp}

/-- A comparison that is made: skipped, or a mismatch, or agreed. -/
theorem exec_checksumCompare_runs (desc : s.fab.desc? c.station = some d) (image : s.fab.image? = some m)
    (matmul : m.operation d = some (.matmul op)) (running : s.fab.state = .running) (made : op.compares c.kind = true)
    (mode : c.kind = .redundant ∨ s.mxe.checkMode = 1) {bad skip : Bool}
    (sides : compareSides s.mxe.checkTol (op.comparison c) = (bad, skip)) :
    exec (.checksumCompare cyc c) s = .next (if skip then { s.stamp cyc with mxe := { s.mxe with
      skipped := sat 32 (s.mxe.skipped + 1) } } else if bad then
      (s.stamp cyc).mismatch op d.location (s.station c.station).matmul (op.comparison c) else s.stamp cyc) := by
  have run : exec (.checksumCompare cyc c) s = execChecksumCompare cyc c s := rfl
  have kind : (op.comparison c).kind = c.kind := rfl
  rw [run, execChecksumCompare]
  have runs : (decide (s.fab.state = .running) && op.compares c.kind &&
      (decide (c.kind = .redundant) || decide (s.mxe.checkMode = 1))) = true := by simpa [running, made] using mode
  simp only [desc, image, matmul, kind, runs, State.stamp_mxe, sides]
  cases skip <;> cases bad <;> rfl

theorem exec_checksumCompare_unmade (desc : s.fab.desc? c.station = some d) (image : s.fab.image? = some m)
    (matmul : m.operation d = some (.matmul op))
    (unmade : op.compares c.kind = false ∨ (c.kind ≠ .redundant ∧ s.mxe.checkMode ≠ 1)) :
    exec (.checksumCompare cyc c) s = .next s := by
  have run : exec (.checksumCompare cyc c) s = execChecksumCompare cyc c s := rfl
  have kind : (op.comparison c).kind = c.kind := rfl
  rw [run, execChecksumCompare]
  simp only [desc, image, matmul, kind]
  rcases unmade with unmade | ⟨single, off⟩
  · simp [unmade]
  · simp [single, off]

/-- Marking regions leaves the counters and the record alone. -/
theorem Engine.foldl_mark (key : Nat → Nat) (regions : List Nat) (e : Engine) : ∃ marked seen,
    regions.foldl (fun e g => e.mark (key g)) e = { e with marked := marked, setSeen := seen } := by
  induction regions generalizing e with
  | nil => exact ⟨_, _, rfl⟩
  | cons g regions ih =>
    obtain ⟨marked, seen, ran⟩ := ih (e.mark (key g))
    exact ⟨marked, seen, ran⟩

/-- What a mismatch counts and keeps (R159, R160). -/
theorem State.mismatch_mxe (s : State) (op : MatmulOp) (loc : Nat) (run : MatmulRun) (c : Comparison) :
    ∃ marked seen r use quads, (s.mismatch op loc run c).mxe = { s.mxe with
      vectorMismatches := if c.kind = .outputVector || c.kind = .row then sat 32 (s.mxe.vectorMismatches + 1)
        else s.mxe.vectorMismatches
      useMismatches := use
      redundantMismatches := if c.kind = .redundant then sat 32 (s.mxe.redundantMismatches + 1)
        else s.mxe.redundantMismatches
      quadMismatches := quads
      passMismatches := sat 32 (s.mxe.passMismatches + 1)
      record := if s.mxe.record.isSome then s.mxe.record else some r
      recordsLost := if s.mxe.record.isSome then sat 32 (s.mxe.recordsLost + 1) else s.mxe.recordsLost
      marked := marked, setSeen := seen } := by
  obtain ⟨marked, seen, ran⟩ :=
    Engine.foldl_mark (fun g => regionKey (locTile loc) g) (failedRegions op run c) s.mxe
  refine ⟨marked, seen, s.mismatchRecord op loc ((failedRegions op run c).headD 0)
    (sat 32 (s.mxe.passMismatches + 1)) c, (s.mismatch op loc run c).mxe.useMismatches,
    (s.mismatch op loc run c).mxe.quadMismatches, ?_⟩
  simp only [State.mismatch, State.detect_mxe, State.strike_mxe, State.raiseFor_mxe, ran]
  simp

end

/-- Settles O11: a comparison that is made by its verdict, the release by its value. -/
theorem comparisonsAreJudged : Obligations.ComparisonsAreJudged := by
  unfold Obligations.ComparisonsAreJudged
  refine ⟨fun cyc c d m op s desc image matmul running made mode => ⟨fun sides => ?agrees, fun skip => ?skipped,
    fun sides => ?differs⟩, fun cyc c d m op s => exec_checksumCompare_unmade, fun s => rfl, fun v s refused => ?keeps⟩
  case agrees => exact exec_checksumCompare_runs desc image matmul running made mode sides
  case skipped =>
    rw [exec_checksumCompare_runs desc image matmul running made mode
      (Prod.ext rfl skip : compareSides s.mxe.checkTol (op.comparison c) = (_, true))]
    rfl
  case differs =>
    refine ⟨_, exec_checksumCompare_runs desc image matmul running made mode sides, ?_⟩
    obtain ⟨marked, seen, r, use, quads, counted⟩ := (s.stamp cyc).mismatch_mxe op d.location
      (s.station c.station).matmul (op.comparison c)
    have kind : (op.comparison c).kind = c.kind := rfl
    have kept : ((s.stamp cyc).mismatch op d.location (s.station c.station).matmul (op.comparison c)).fab = s.fab := by
      simp [State.mismatch]
    simp only [counted, kept, kind, State.stamp_mxe, reduceIte, Bool.false_eq_true]
    refine ⟨?_, rfl, by simp [sat], rfl, rfl, trivial⟩
    by_cases held : s.mxe.record.isSome <;> simp [held]
  case keeps => exact if_neg refused

end Sys2Proof.Machine
end

section
/-! PROOFS. Queues, samples and PORT stations of the fabric (R79, R86, R93, R94, R115, R122). -/

namespace Sys2Proof.Machine

/-! ### Queues -/

section
variable {f : Fabric} {k n : Nat} {q : QueueRun} {g : QueueRun → QueueRun}

theorem kgetD_kcount_self (m : KMap Nat) (k : Nat) (g : Nat → Nat) : kgetD (kcount m k g) k 0 = g (kgetD m k 0) := by
  simp [kcount, kgetD]

/-- A change that keeps the queue's number is read back from it. -/
theorem Fabric.queue?_modQueue_self (held : f.queue? k = some q) (number : ∀ x, (g x).number = x.number) :
    (f.modQueue k g).queue? k = some (g q) := by
  have find : ∀ l : List QueueRun, l.find? (·.number = k) = some q →
      (l.map fun x => if x.number = k then g x else x).find? (·.number = k) = some (g q) := by
    intro l
    induction l with
    | nil => simp
    | cons x l ih =>
      intro found
      by_cases here : x.number = k
      · simp only [List.find?_cons, here, decide_true, Option.some.injEq] at found
        subst found
        simp [here, number]
      · simp only [List.find?_cons, here, decide_false] at found
        simpa [here] using ih found
  exact find _ held

theorem Fabric.queue?_modQueue_ne (number : ∀ x, (g x).number = x.number) (other : n ≠ k) :
    (f.modQueue k g).queue? n = f.queue? n := by
  have find : ∀ l : List QueueRun,
      (l.map fun x => if x.number = k then g x else x).find? (·.number = n) = l.find? (·.number = n) := by
    intro l
    induction l with
    | nil => rfl
    | cons x l ih =>
      by_cases here : x.number = k
      · have elsewhere : ¬ k = n := fun e => other e.symm
        simpa [here, number, elsewhere] using ih
      · by_cases there : x.number = n <;> simp [here, there, other, ih]
  exact find _

end

section
variable {s : State} {cyc queue : Nat} {q : QueueRun} {x : Flit} {xs : List Flit}

@[simp] theorem State.correctedError_devices (s : State) (unit : Nat) (info : RecordInfo) :
    (s.correctedError unit info).devices = s.devices := by
  unfold State.correctedError
  dsimp only
  split <;> simp [State.fold_devices, State.devices_mk]

@[simp] theorem State.correctedError_fab (s : State) (unit : Nat) (info : RecordInfo) :
    (s.correctedError unit info).fab = s.fab := congrArg Devices.fab (s.correctedError_devices unit info)

/-- A queue after its oldest flit in flight was delivered. -/
def QueueRun.deliver (x : Flit) (bad : Bool) (q : QueueRun) : QueueRun :=
  { q with inFlight := q.inFlight.drop 1, buffer := q.buffer ++ [{ x with poison := x.poison || bad }] }

/-- The state once a flit has entered the buffer, before a STORE station takes it. -/
def State.deliver (s : State) (cyc queue : Nat) (x : Flit) (bad : Bool) : State :=
  { (s.stamp cyc).progress with fab := (s.stamp cyc).progress.fab.modQueue queue (QueueRun.deliver x bad) }

theorem State.deliver_queue (held : s.fab.queue? queue = some q) (cyc : Nat) (x : Flit) (bad : Bool) :
    (s.deliver cyc queue x bad).fab.queue? queue = some (q.deliver x bad) :=
  Fabric.queue?_modQueue_self (f := (s.stamp cyc).progress.fab) held fun _ => rfl

theorem State.deliver_queue_ne (cyc : Nat) (x : Flit) (bad : Bool) {n : Nat} (other : n ≠ queue) :
    (s.deliver cyc queue x bad).fab.queue? n = s.fab.queue? n :=
  Fabric.queue?_modQueue_ne (f := (s.stamp cyc).progress.fab) (fun _ => rfl) other

theorem exec_flitDelivered (ecc : EccEvent) (held : s.fab.queue? queue = some q) (flying : q.inFlight = x :: xs) :
    exec (.flitDelivered cyc queue ecc) s = .next (
      let t := (s.deliver cyc queue x (decide (ecc = .uncorrectable))).spillQueueIn queue
      match ecc with
      | .clean => t
      | .corrected =>
        { t with fab := { t.fab with meshCorrected := sat 32 (t.fab.meshCorrected + 1) } }.correctedError
          (ceLink queue) { source := 0x11, causeClass := 0, die := some (locDie queue) }
      | .uncorrectable => t.detect { source := 5, causeClass := 2, die := some (locDie queue)
                                     x := some (locX queue), y := some (locY queue) }) := by
  have run : exec (.flitDelivered cyc queue ecc) s = execFlitDelivered cyc queue ecc s := rfl
  rw [run, execFlitDelivered, held]
  simp only [Option.bind_some, flying, List.head?_cons]
  cases ecc <;> rfl

theorem State.spillQueueIn_plain (held : s.fab.queue? queue = some q) (plain : q.spill = false) :
    s.spillQueueIn queue = s := by
  simp [State.spillQueueIn, held, plain]

theorem State.spillQueueIn_taken (held : s.fab.queue? queue = some q) (spills : q.spill = true) {i p : Nat}
    (consumer : s.fab.consumerOf queue = some (i, p)) : s.spillQueueIn queue = s.spillIn i := by
  simp [State.spillQueueIn, held, spills, consumer]

theorem State.spillQueueIn_untaken (unused : s.fab.consumerOf queue = none) : s.spillQueueIn queue = s := by
  simp [State.spillQueueIn, unused]

theorem exec_queueSample (cyc : Nat) {n : Nat} (running : s.fab.state = .running) (slot : s.fab.activeSlot = some n)
    (due : (s.stamp cyc).sampleDue = true) : ∃ counts, exec (.queueSample cyc) s = .next { s.stamp cyc with
      fab := { s.fab with histAcc := { s.fab.histAcc with
        counts := counts, samples := kcount s.fab.histAcc.samples n fun v => sat 32 (v + 1)
        lastIds := kset s.fab.histAcc.lastIds n s.fab.activeLast } } } := by
  have run : exec (.queueSample cyc) s = execQueueSample cyc s := rfl
  rw [run, execQueueSample, running, slot, due]
  exact ⟨_, rfl⟩

theorem exec_queueSample_undue (cyc : Nat) (undue : (s.stamp cyc).sampleDue = false) :
    exec (.queueSample cyc) s = .next s := by
  have run : exec (.queueSample cyc) s = execQueueSample cyc s := rfl
  rw [run, execQueueSample, undue]
  cases s.fab.state <;> cases s.fab.activeSlot <;> rfl

end

/-- Settles O9: a delivery changes its queue alone until the STORE station acts, a sample only the histograms. -/
theorem flitsCreditsAndSamples : Obligations.FlitsCreditsAndSamples := by
  unfold Obligations.FlitsCreditsAndSamples
  refine ⟨⟨fun cyc queue ecc q x xs s held flying plain => ?delivered,
    fun cyc queue q x xs s held flying spills => ?spilled, fun queue q s held due => ?credit⟩,
    fun cyc n s running slot due => ?sample, fun cyc s => exec_queueSample_undue cyc⟩
  case delivered =>
    have at_ := s.deliver_queue held cyc x (decide (ecc = .uncorrectable))
    have others := fun n (other : n ≠ queue) => s.deliver_queue_ne cyc x (decide (ecc = .uncorrectable)) other
    refine ⟨_, exec_flitDelivered ecc held flying, ?_⟩
    rw [State.spillQueueIn_plain at_ (show (q.deliver x _).spill = false from plain)]
    have after : q.deliver x (decide (ecc = .uncorrectable)) = { q with
        inFlight := xs, buffer := q.buffer ++ [{ x with poison := x.poison || decide (ecc = .uncorrectable) }] } := by
      rw [QueueRun.deliver, flying]
      rfl
    rw [after] at at_
    cases ecc with
    | clean => exact ⟨at_, others, rfl, rfl⟩
    | corrected => simp only [State.correctedError_fab]; exact ⟨at_, others, rfl, rfl⟩
    | uncorrectable => simp only [State.detect_fab]; exact ⟨at_, others, rfl, rfl⟩
  case spilled =>
    have at_ := s.deliver_queue held cyc x false
    have run := exec_flitDelivered (cyc := cyc) .clean held flying
    have after : q.deliver x false = { q with
        inFlight := xs, buffer := q.buffer ++ [{ x with poison := x.poison }] } := by
      rw [QueueRun.deliver, flying, Bool.or_false]
      rfl
    refine ⟨_, s.deliver cyc queue x false, run, at_.trans (congrArg some after),
      fun n other => s.deliver_queue_ne cyc x false other, rfl, fun unused => ?_, fun i p consumer => ?_⟩
    · exact State.spillQueueIn_untaken (s := s.deliver cyc queue x false) (Option.isNone_iff_eq_none.1 unused)
    · exact State.spillQueueIn_taken at_ spills (s := s.deliver cyc queue x false) consumer
  case credit =>
    have run : exec (.creditReturned queue) s = execCreditReturned queue s := rfl
    rw [run, execCreditReturned, held]
    exact ⟨_, if_neg due, Fabric.queue?_modQueue_self held fun _ => rfl,
      fun n other => Fabric.queue?_modQueue_ne (fun _ => rfl) other, rfl⟩
  case sample =>
    obtain ⟨counts, ran⟩ := exec_queueSample cyc running slot due
    exact ⟨_, ran, kgetD_kcount_self s.fab.histAcc.samples n fun v => sat 32 (v + 1), kget?_kset_self _ _ _, rfl⟩

/-! ### A PORT station at the end of the pass (R94, R115) -/

section
variable {s : State} {i : Nat} {d : StationDesc} {m : Image} {p : PortOp} {e : SeqEntry} {env : FireEnv} {q : QueueRun}
  {x : Flit} {rest : List Flit}

theorem SeqEntry.needs_one (consume : e.consume = [1]) : e.needs = [(0, 1)] := by simp [SeqEntry.needs, consume]

theorem SeqEntry.writes_none (produce : e.produce = []) : e.writes = [] := by simp [SeqEntry.writes, produce]

theorem Fabric.input_buffer {f : Fabric} {n : Nat} (held : f.queue? (d.inPort n) = some q) : f.input d n = q.buffer := by
  simp [Fabric.input, held]

theorem Fabric.portOp?_operation {f : Fabric} (desc : f.desc? i = some d) (image : f.image? = some m)
    (port : f.portOp? i = some p) : m.operation d = some (.port p.target p.direction p.gen p.fields) := by
  simp only [Fabric.portOp?, desc, image] at port
  split at port
  case h_1 found => rw [found, ← Option.some.inj port]
  case h_2 => exact nomatch port

@[simp] theorem State.tileError_devices (s : State) (source loc : Nat) :
    (s.tileError source loc).devices = s.devices := by simp [State.tileError]

/-- The errors that a firing meets change counters and records: no queue and no station. -/
theorem State.fireErrors_port (s : State) (d : StationDesc) (env : FireEnv) :
    ∃ n, (s.fireErrors d (concerning env .port)).fab = { s.fab with meshCorrected := n } ∧
      (s.fireErrors d (concerning env .port)).lce = s.lce := by
  have accumulator : (concerning env .port).accumulator = .clean := rfl
  have sram : (concerning env .port).sram = [] := rfl
  simp only [State.fireErrors, accumulator, sram, List.foldl_nil]
  cases (concerning env .port).mesh with
  | clean => exact ⟨s.fab.meshCorrected, rfl, rfl⟩
  | corrected => exact ⟨_, State.correctedError_fab _ _ _, congrArg Devices.lce (State.correctedError_devices _ _ _)⟩
  | uncorrectable => 
    exact ⟨s.fab.meshCorrected, congrArg Devices.fab (s.tileError_devices 5 d.location),
      congrArg Devices.lce (s.tileError_devices 5 d.location)⟩

theorem State.torusDone_of_quiet (quiet : s.lce.faultDue = []) : s.torusDone = s := by
  simp [State.torusDone, State.settleFaults, quiet]

/-- A PORT that is not copying a token fires the entry where no status token is at the head of its input. -/
theorem State.examine_port (image : s.fab.image? = some m) (desc : s.fab.desc? i = some d)
    (idle : (s.station i).copy = none) (kind : d.kind = .port) (port : s.fab.portOp? i = some p)
    (again : s.fab.repeats i ≠ 0) (consume : (s.fab.seqEntry i).2.consume = [1])
    (held : s.fab.queue? (d.inPort 0) = some q) (head : q.buffer = x :: rest) (plain : x.kind = .control) :
    s.examine i d m env = s.firePort i d p (s.fab.seqEntry i).2 env := by
  have op := Fabric.portOp?_operation desc image port
  have unasked : s.fab.statusAt d ((s.fab.seqEntry i).2.needs.map (·.1)) = none := by
    simp [Fabric.statusAt, SeqEntry.needs_one consume, Fabric.input_buffer held, head, plain]
  simp [State.examine, State.fireEntry, kind, idle, op, again, unasked, port]

theorem Fabric.ready_port {f : Fabric} (consume : e.consume = [1]) (produce : e.produce = [])
    (held : f.queue? (d.inPort 0) = some q) (head : q.buffer = x :: rest) : f.ready d e = true := by
  simp [Fabric.ready, SeqEntry.needs_one consume, SeqEntry.writes_none produce, Fabric.input_buffer held, head]

theorem Fabric.taken_head {f : Fabric} (consume : e.consume = [1]) (held : f.queue? (d.inPort 0) = some q)
    (head : q.buffer = x :: rest) (bad : Bool) : f.taken d e 0 bad = [{ x with poison := x.poison || bad }] := by
  simp [Fabric.taken, consume, Fabric.input_buffer held, head]

/-- The firing that ends the pass consumes the flit (R94). -/
theorem State.begin_port (s : State) (consume : e.consume = [1]) (produce : e.produce = []) :
    s.begin i d e = { s with fab := (s.fab.dequeue (d.inPort 0) 1).advance i }.progress := by
  simp [State.begin, SeqEntry.needs_one consume, SeqEntry.writes_none produce]

theorem State.controls_endOfPass (external : p.target ≠ 5) {y : Flit} (token : y.tokenKind = 2) :
    s.controls i p [y] = s.modStation i fun y => { y with passEnded := true } := by
  simp [State.controls, token, State.endOfPass, external]

theorem Fabric.advance_stations_ne {f : Fabric} {k : Nat} (other : k ≠ i) :
    lget (f.advance i).stations k = lget f.stations k := lget_lmod_ne _ other _

@[simp] theorem Fabric.advance_queues (f : Fabric) : (f.advance i).queues = f.queues := rfl

/-- The state in which a writing PORT has consumed the END_OF_PASS. -/
def State.portEnded (s : State) (i : Nat) (d : StationDesc) : State :=
  { s with fab := (s.fab.dequeue (d.inPort 0) 1).advance i }.progress.modStation i fun y => { y with passEnded := true }

/-- A writing PORT at the END_OF_PASS: nothing is written, the flit is consumed, the station has ended. -/
theorem State.fireWrite_endOfPass (external : p.target ≠ 5) (consume : e.consume = [1]) (produce : e.produce = [])
    (held : s.fab.queue? (d.inPort 0) = some q) (head : q.buffer = x :: rest) (plain : x.kind = .control)
    (token : x.tokenKind = 2) : s.fireWrite i d p e env = s.portEnded i d := by
  rw [State.fireWrite, Fabric.taken_head consume held head, State.begin_port s consume produce]
  have nothing : ¬ ({ x with poison := x.poison || badLink env } : Flit).kind = .data := by simp [plain]
  simp only [List.foldl_cons, List.foldl_nil, if_neg nothing]
  exact State.controls_endOfPass external (y := { x with poison := x.poison || badLink env }) token

theorem State.portEnded_station (s : State) (d : StationDesc) (inside : i < s.fab.stations.length) :
    ((s.portEnded i d).station i).passEnded = true := by
  have length : i < ((s.fab.dequeue (d.inPort 0) 1).advance i).stations.length := by
    simpa [Fabric.advance, Fabric.modStation, Fabric.dequeue, Fabric.modQueue, lmod] using inside
  simp only [State.portEnded, State.station, State.modStation, Fabric.modStation, State.progress]
  rw [lget_lmod_self length]

theorem State.portEnded_station_ne (s : State) (d : StationDesc) {k : Nat} (other : k ≠ i) :
    (s.portEnded i d).station k = s.station k := by
  simp only [State.portEnded, State.station, State.modStation, Fabric.modStation, State.progress]
  rw [lget_lmod_ne _ other, Fabric.advance_stations_ne other]
  rfl

theorem State.portEnded_queue (held : s.fab.queue? (d.inPort 0) = some q) (head : q.buffer = x :: rest) (i : Nat) :
    (s.portEnded i d).fab.queue? (d.inPort 0) = some { q with buffer := rest, returning := q.returning + 1 } := by
  have one : (q.buffer.drop 1, min 1 q.buffer.length) = (rest, 1) := by simp [head]
  obtain ⟨tail, least⟩ := Prod.mk.inj one
  have taken := Fabric.queue?_modQueue_self (f := s.fab) (g := fun r => { r with
    buffer := r.buffer.drop 1, returning := r.returning + min 1 r.buffer.length }) held fun _ => rfl
  rw [tail, least] at taken
  exact taken

end

/-- Settles O10: at an END_OF_PASS a PORT consumes the flit, writes nothing, and its station has ended the pass. -/
theorem portConsumesEndOfPass : Obligations.PortConsumesEndOfPass := by
  unfold Obligations.PortConsumesEndOfPass
  intro cyc i env d m p x q rest s desc image running whole inside idle kind port external again consume produce held
    head plain token quiet
  have fires : exec (.stationFire cyc i env) s =
      .next ((s.stamp cyc).firePort i d p (s.fab.seqEntry i).2 (concerning env .port)).torusDone := by
    have run : exec (.stationFire cyc i env) s = execStationFire cyc i env s := rfl
    have examined := State.examine_port (s := s.stamp cyc) (env := concerning env .port) image desc idle kind port again
      consume held head plain
    rw [run, execStationFire, desc, image]
    simp only [running, whole, kind, bne_self_eq_false, Bool.or_self, Bool.false_eq_true, if_false]
    rw [examined]
    rfl
  have ready : (s.stamp cyc).fab.ready d (s.fab.seqEntry i).2 = true := Fabric.ready_port consume produce held head
  have asked : (s.fab.seqEntry i).2.needs.isEmpty = false := by simp [SeqEntry.needs_one consume]
  refine ⟨fun writes => ?writes, fun reads => ?reads⟩
  case writes =>
    have port_ : (s.stamp cyc).firePort i d p (s.fab.seqEntry i).2 (concerning env .port) =
        ((s.stamp cyc).fireWrite i d p (s.fab.seqEntry i).2 (concerning env .port)).fireErrors d
          (concerning env .port) := by
      simp only [State.firePort, ready, asked, external, writes, Bool.not_true, Bool.false_eq_true, if_false,
        Nat.one_ne_zero]
    rw [port_, State.fireWrite_endOfPass (s := s.stamp cyc) external consume produce held head plain token] at fires
    obtain ⟨n, fab, lce⟩ := State.fireErrors_port ((s.stamp cyc).portEnded i d) d env
    rw [State.torusDone_of_quiet (by rw [lce]; exact quiet)] at fires
    refine ⟨_, fires, ?_, ?_, fun k other => ?_⟩
    all_goals simp only [State.station, fab]
    · exact (s.stamp cyc).portEnded_station d inside
    · exact State.portEnded_queue (s := s.stamp cyc) held head i
    · exact (s.stamp cyc).portEnded_station_ne d other
  case reads =>
    have port_ : (s.stamp cyc).firePort i d p (s.fab.seqEntry i).2 (concerning env .port) =
        (((s.stamp cyc).fireRead i d p (s.fab.seqEntry i).2 (concerning env .port)).modStation i
          fun y => { y with passEnded := true }).fireErrors d (concerning env .port) := by
      have control := State.controls_endOfPass (i := i)
        (s := (s.stamp cyc).fireRead i d p (s.fab.seqEntry i).2 (concerning env .port)) external
        (y := { x with poison := x.poison || false }) token
      rw [← Fabric.taken_head consume held head] at control
      rw [← control]
      simp only [State.firePort, ready, asked, external, reads, Bool.not_true, Bool.false_eq_true, if_false, if_true]
      rfl
    exact ⟨_, _, _, fires, rfl, rfl, congrArg State.torusDone port_⟩

end Sys2Proof.Machine
end

section
/-! PROOFS. Passes: how they end, are voided and overrun (R66, R103 to R111, R115, R116). -/

namespace Sys2Proof.Machine

/-! ### What the operations on a pass leave alone -/

/-- What is said of a pass and of its end: state and counters of the fabric, and whether a pass runs. -/
structure PassView where
  state : FabState
  active : Option Nat
  queues : List QueueRun
  residue : Nat
  stallCount : Nat
  passCount : Nat
  snapLost : Nat
  snapshot : Option (List Byte)
  runs : Bool

/-- What the fabric shows of the running pass. -/
def State.passView (s : State) : PassView := {
    state := s.fab.state, active := s.fab.activeSlot, queues := s.fab.queues, residue := s.fab.residue, stallCount :=
    s.fab.stallCount, passCount := s.fab.passCount, snapLost := s.fab.snapLost, snapshot := s.fab.snapshot, runs
    := s.planner.running.isSome }

theorem State.fold_passView (s : State) : s.fab.state = s.passView.state ∧ s.fab.activeSlot = s.passView.active ∧
    s.fab.queues = s.passView.queues ∧ s.fab.residue = s.passView.residue ∧ s.fab.stallCount = s.passView.stallCount ∧
    s.fab.passCount = s.passView.passCount ∧ s.fab.snapLost = s.passView.snapLost ∧ s.fab.snapshot =
    s.passView.snapshot ∧ s.planner.running.isSome = s.passView.runs := by simp [State.passView]

theorem State.passView_mk (part : Part) (pending : List Instr) (free : Nat) (regs : KMap Nat) (blobs : KMap (List
    Byte)) (tb : TimeBase) (planner : Planner) (fab : Fabric) (mxe : Engine) (chn : ChainCounters) (mem : Memory)
    (pages : Pages) (store : Store) (srv : Serving) (syn : Sync) (lce : Torus) (dsp : Dispatch) (hlk : HostLink) (dict
    : Dict) (ras : Ras) (pwr : Power) (boot : Boot) (sec : Security) : State.passView {
    part := part, pending := pending, free := free, regs := regs, blobs := blobs, tb := tb, planner := planner, fab :=
    fab, mxe := mxe, chn := chn, mem := mem, pages := pages, store := store, srv := srv, syn := syn, lce := lce,
    dsp := dsp, hlk := hlk, dict := dict, ras := ras, pwr := pwr, boot := boot, sec := sec } = {
    state := fab.state, active := fab.activeSlot, queues := fab.queues, residue := fab.residue, stallCount :=
    fab.stallCount, passCount := fab.passCount, snapLost := fab.snapLost, snapshot := fab.snapshot, runs :=
    planner.running.isSome } := rfl

@[simp] theorem State.passView_ite (c : Prop) [Decidable c] (s t : State) :
    (if c then s else t).passView = if c then s.passView else t.passView := by split <;> rfl

section
variable {α γ : Type} {f : State → α → State} {k : State × γ → α → State × γ} {h : γ × State → α → γ × State}

@[simp] theorem State.passView_foldl (keeps : ∀ t a, (f t a).passView = t.passView) (l : List α) (s : State) :
    (l.foldl f s).passView = s.passView := State.keeps_foldl _ keeps l s
@[simp] theorem State.passView_foldl_fst (keeps : ∀ p a, (k p a).1.passView = p.1.passView) (l : List α) (p : State × γ) :
    (l.foldl k p).1.passView = p.1.passView := State.keeps_foldl_fst (fun t => t.passView) keeps l p
@[simp] theorem State.passView_foldl_snd (keeps : ∀ p a, (h p a).2.passView = p.2.passView) (l : List α) (p : γ × State) :
    (l.foldl h p).2.passView = p.2.passView := State.keeps_foldl_snd (fun t => t.passView) keeps l p

end

@[simp] theorem State.raiseFor_passView (s : State) (code group arg0 arg1 arg2 : Nat) : (s.raiseFor code group arg0
    arg1 arg2).passView = s.passView := by
  simp [State.passView]

@[simp] theorem State.raise_passView (s : State) (code arg0 arg1 arg2 : Nat) : (s.raise code arg0 arg1 arg2).passView
    = s.passView := by
  simp [State.passView]

@[simp] theorem State.modQuad_passView (s : State) (q : Nat) (f : Quadrant → Quadrant) : (State.modQuad s q
    f).passView = s.passView := by
  unfold State.modQuad; simp [State.fold_passView, State.passView_mk]

@[simp] theorem State.status_passView (s : State) (code : Nat) : (State.status s code).passView = s.passView := by
  unfold State.status; simp [State.fold_passView, State.passView_mk]

@[simp] theorem State.record_passView (s : State) (info : RecordInfo) : (State.record s info).passView = s.passView := by
  unfold State.record; simp [State.fold_passView, State.passView_mk]

@[simp] theorem State.judge_passView (s : State) (q cause source : Nat) : (State.judge s q cause source).passView =
    s.passView := by
  unfold State.judge; (repeat' split) <;> simp [State.fold_passView, State.passView_mk]

@[simp] theorem State.strike_passView (s : State) (q : Nat) (kind : StrikeKind) (source : Nat) : (State.strike s q
    kind source).passView = s.passView := by
  unfold State.strike; simp [State.fold_passView, State.passView_mk]

@[simp] theorem State.modStream_passView (s : State) (n : Nat) (f : Stream → Stream) : (State.modStream s n
    f).passView = s.passView := by
  unfold State.modStream; simp [State.fold_passView, State.passView_mk]

@[simp] theorem State.notifyLater_passView (s : State) (x : Notice) : (State.notifyLater s x).passView = s.passView := by
  unfold State.notifyLater; simp [State.fold_passView, State.passView_mk]

@[simp] theorem State.freeBuffer_passView (s : State) (n : Nat) : (State.freeBuffer s n).passView = s.passView := by
  unfold State.freeBuffer; simp [State.fold_passView, State.passView_mk]

@[simp] theorem State.leaveTemplate_passView (s : State) (n : Nat) (x : Stream) : (State.leaveTemplate s n x).passView
    = s.passView := by
  unfold State.leaveTemplate; dsimp only; (repeat' split) <;> simp [State.fold_passView, State.passView_mk]

@[simp] theorem State.dropStream_passView (s : State) (n : Nat) : (State.dropStream s n).passView = s.passView := by
  unfold State.dropStream; (repeat' split) <;> simp [State.fold_passView, State.passView_mk]

@[simp] theorem State.endStream_passView (s : State) (n status : Nat) : (State.endStream s n status).passView =
    s.passView := by
  unfold State.endStream; (repeat' split) <;> simp [State.fold_passView, State.passView_mk]

@[simp] theorem State.askPark_passView (s : State) (n : Nat) : (State.askPark s n).passView = s.passView := by
  unfold State.askPark; simp [State.fold_passView, State.passView_mk]

@[simp] theorem State.endTurn_passView (s : State) (n : Nat) : (State.endTurn s n).passView = s.passView := by
  unfold State.endTurn; (repeat' split) <;> simp [State.fold_passView, State.passView_mk]

@[simp] theorem State.failTurn_passView (s : State) (n status : Nat) : (State.failTurn s n status).passView =
    s.passView := by
  unfold State.failTurn; (repeat' split) <;> simp [State.fold_passView, State.passView_mk]

@[simp] theorem State.breakPass_passView (s : State) : (State.breakPass s).passView = s.passView := by
  unfold State.breakPass; simp [State.fold_passView, State.passView_mk]

@[simp] theorem State.askReset_passView (s : State) (group source : Nat) : (State.askReset s group source).passView =
    s.passView := by
  unfold State.askReset; simp [State.fold_passView, State.passView_mk]

@[simp] theorem State.progress_passView (s : State) : (State.progress s).passView = s.passView := by
  unfold State.progress; simp [State.fold_passView, State.passView_mk]

@[simp] theorem State.modLace_passView (s : State) (l : Nat) (f : Lace → Lace) : (State.modLace s l f).passView =
    s.passView := by
  unfold State.modLace; simp [State.fold_passView, State.passView_mk]

@[simp] theorem State.modTorus_passView (s : State) (f : Torus → Torus) : (State.modTorus s f).passView = s.passView := by
  unfold State.modTorus; simp [State.fold_passView, State.passView_mk]

@[simp] theorem State.freeSlots_passView (s : State) (xs : List (Nat × Nat × Bool × Nat)) : (State.freeSlots s
    xs).passView = s.passView := by
  unfold State.freeSlots; simp [State.fold_passView, State.passView_mk]

@[simp] theorem State.laceDrain_passView (s : State) (l : Nat) : (State.laceDrain s l).passView = s.passView := by
  unfold State.laceDrain; simp [State.fold_passView, State.passView_mk]

@[simp] theorem State.laceSend_passView (s : State) (l : Nat) (x : LaceTx) : (State.laceSend s l x).passView =
    s.passView := by
  unfold State.laceSend; simp [State.fold_passView, State.passView_mk]

@[simp] theorem State.sendControl_passView (s : State) (l : Nat) (m : ControlMsg) : (State.sendControl s l m).passView
    = s.passView := by
  unfold State.sendControl; simp [State.fold_passView, State.passView_mk]

@[simp] theorem State.flood_passView (s : State) (except_ : Nat) (m : ControlMsg) : (State.flood s except_ m).passView
    = s.passView := by
  unfold State.flood; simp [State.fold_passView, State.passView_mk]

@[simp] theorem State.oweFault_passView (s : State) (tag : Nat) : (State.oweFault s tag).passView = s.passView := by
  unfold State.oweFault; simp [State.fold_passView, State.passView_mk]

@[simp] theorem State.unreachable_passView (s : State) (h : PacketHeader) : (State.unreachable s h).passView =
    s.passView := by
  unfold State.unreachable; simp [State.fold_passView, State.passView_mk]

@[simp] theorem State.forward_passView (s : State) (h : PacketHeader) (flits : List Flit) (p l : Nat) (turned : Bool)
    (origin : Option (Nat × Nat × Bool)) : (State.forward s h flits p l turned origin).passView = s.passView := by
  unfold State.forward; dsimp only; split <;> simp [State.fold_passView, State.passView_mk]

@[simp] theorem State.inject_passView (s : State) (h : PacketHeader) (flits : List Flit) : (State.inject s h
    flits).passView = s.passView := by
  unfold State.inject; dsimp only; (repeat' split) <;> simp [State.fold_passView, State.passView_mk]

@[simp] theorem State.sendSync_passView (s : State) (dest op object arg : Nat) : (State.sendSync s dest op object
    arg).passView = s.passView := by
  unfold State.sendSync; simp [State.fold_passView, State.passView_mk]

@[simp] theorem State.setObj_passView (s : State) (r : ObjRef) (o : SyncObj) : (State.setObj s r o).passView =
    s.passView := by
  unfold State.setObj; simp [State.fold_passView, State.passView_mk]

@[simp] theorem State.modPart_passView (s : State) (k : Nat) (f : Participant → Participant) : (State.modPart s k
    f).passView = s.passView := by
  unfold State.modPart; simp [State.fold_passView, State.passView_mk]

@[simp] theorem State.freeRemote_passView (s : State) (k cause : Nat) : (State.freeRemote s k cause).passView =
    s.passView := by
  unfold State.freeRemote; simp [State.fold_passView, State.passView_mk]

@[simp] theorem State.recordRelease_passView (s : State) (k cause : Nat) : (State.recordRelease s k cause).passView =
    s.passView := by
  unfold State.recordRelease; simp [State.fold_passView, State.passView_mk]

@[simp] theorem State.endWait_passView (s : State) (r : ObjRef) (w : WaitReg) (cause : Nat) : (State.endWait s r w
    cause).passView = s.passView := by
  unfold State.endWait; simp [State.fold_passView, State.passView_mk]

@[simp] theorem State.toModules_passView (s : State) (ms : List Nat) (op : Nat) (r : ObjRef) (arg : Nat) :
    (State.toModules s ms op r arg).passView = s.passView := by
  unfold State.toModules; simp [State.fold_passView, State.passView_mk]

@[simp] theorem State.nodeStep_passView (s : State) (m : NodeMsg) (r : ObjRef) : (State.nodeStep s m r).1.passView =
    s.passView := by
  unfold State.nodeStep; dsimp only; (repeat' split) <;> simp [State.fold_passView, State.passView_mk]

@[simp] theorem State.nodes_passView (x0 : Nat) (x1 : List (NodeMsg × ObjRef)) (s : State) : (State.nodes x0 x1
    s).passView = s.passView := by
  induction x0 generalizing s x1 with
  | zero => rfl
  | succ f ih =>
    cases x1 with
    | nil => rfl
    | cons e ms => simp [State.nodes, ih]

@[simp] theorem State.nodeMsg_passView (s : State) (m : NodeMsg) (r : ObjRef) : (State.nodeMsg s m r).passView =
    s.passView := by
  unfold State.nodeMsg; simp [State.fold_passView, State.passView_mk]

@[simp] theorem State.ownerLost_passView (s : State) (rs : List ObjRef) : (State.ownerLost s rs).passView = s.passView := by
  unfold State.ownerLost; simp [State.fold_passView, State.passView_mk]

@[simp] theorem State.spanBroken_passView (s : State) (tag : Nat) : (State.spanBroken s tag).passView = s.passView := by
  unfold State.spanBroken; simp [State.fold_passView, State.passView_mk]

@[simp] theorem State.settleFault_passView (s : State) (tag : Nat) : (State.settleFault s tag).passView = s.passView := by
  unfold State.settleFault; simp [State.fold_passView, State.passView_mk]

@[simp] theorem State.settleFaults_passView (x0 : Nat) (s : State) : (State.settleFaults x0 s).passView = s.passView := by
  induction x0 generalizing s with
  | zero => rfl
  | succ f ih =>
    unfold State.settleFaults
    split <;> simp [ih]

@[simp] theorem State.torusDone_passView (s : State) : (State.torusDone s).passView = s.passView := by
  unfold State.torusDone; simp [State.fold_passView, State.passView_mk]

@[simp] theorem State.releasePair_passView (s : State) (step : Nat) : (State.releasePair s step).passView = s.passView := by
  unfold State.releasePair; (repeat' split) <;> simp [State.fold_passView, State.passView_mk]

@[simp] theorem State.loseStep_passView (s : State) (step : Nat) : (State.loseStep s step).passView = s.passView := by
  unfold State.loseStep; (repeat' split) <;> simp [State.fold_passView, State.passView_mk]

@[simp] theorem State.modDsp_passView (s : State) (f : Dispatch → Dispatch) : (State.modDsp s f).passView = s.passView := by
  unfold State.modDsp; simp [State.fold_passView, State.passView_mk]

@[simp] theorem State.modUplink_passView (s : State) (u : Nat) (f : Uplink → Uplink) : (State.modUplink s u
    f).passView = s.passView := by
  unfold State.modUplink; simp [State.fold_passView, State.passView_mk]

@[simp] theorem State.dspSend_passView (s : State) (sw dest type : Nat) (m : DispatchMsg) : (State.dspSend s sw dest
    type m).passView = s.passView := by
  unfold State.dspSend; (repeat' split) <;> simp [State.fold_passView, State.passView_mk]

@[simp] theorem State.dspTo_passView (s : State) (host type : Nat) (m : DispatchMsg) : (State.dspTo s host type
    m).passView = s.passView := by
  unfold State.dspTo; (repeat' split) <;> simp [State.fold_passView, State.passView_mk]

@[simp] theorem State.cancelBatch_passView (s : State) (keep : Bool) : (State.cancelBatch s keep).passView =
    s.passView := by
  unfold State.cancelBatch; (repeat' split) <;> simp [State.fold_passView, State.passView_mk]

@[simp] theorem State.voidBatch_passView (s : State) : (State.voidBatch s).passView = s.passView := by
  unfold State.voidBatch; simp [State.fold_passView, State.passView_mk]

@[simp] theorem State.modStep_passView (s : State) (n : Nat) (f : StepRun → StepRun) : (State.modStep s n f).passView
    = s.passView := by
  simp [State.modStep, Planner.modStep, State.fold_passView, State.passView_mk]

@[simp] theorem State.dropStep_passView (s : State) (n : Nat) : (State.dropStep s n).passView = s.passView := by
  unfold State.dropStep; simp [State.fold_passView, State.passView_mk]

@[simp] theorem State.dropRowsOf_passView (s : State) (gone : Nat → Nat → Bool) : (State.dropRowsOf s gone).passView =
    s.passView := by
  unfold State.dropRowsOf; dsimp only; (repeat' split) <;> simp [State.fold_passView, State.passView_mk]

@[simp] theorem State.failStep_passView (s : State) (n : Nat) : (State.failStep s n).passView = s.passView := by
  unfold State.failStep; (repeat' split) <;> simp [State.fold_passView, State.passView_mk]

@[simp] theorem State.rerunStep_passView (s : State) (n : Nat) (f : PlanEntry → PlanEntry) : (State.rerunStep s n
    f).passView = s.passView := by
  unfold State.rerunStep; (repeat' split) <;> simp [State.fold_passView, State.passView_mk]

@[simp] theorem State.rerunOwn_passView (s : State) (n : Nat) : (State.rerunOwn s n).passView = s.passView := by
  unfold State.rerunOwn; simp [State.fold_passView, State.passView_mk]

@[simp] theorem State.rerunSafe_passView (s : State) (n last : Nat) : (State.rerunSafe s n last).passView = s.passView := by
  unfold State.rerunSafe; (repeat' split) <;> simp [State.fold_passView, State.passView_mk]

@[simp] theorem State.closeStrikes_passView (s : State) (step actions : Nat) : (State.closeStrikes s step
    actions).passView = s.passView := by
  unfold State.closeStrikes; simp [State.fold_passView, State.passView_mk]

@[simp] theorem State.taintRecords_passView (s : State) (causes : List RecordInfo) (step actions groups : Nat) :
    (State.taintRecords s causes step actions groups).passView = s.passView := by
  unfold State.taintRecords; simp [State.fold_passView, State.passView_mk]

@[simp] theorem State.settlePass_passView (s : State) (p : PassRun) (voided failed : Bool) : (State.settlePass s p
    voided failed).passView = s.passView := by
  unfold State.settlePass; simp [State.fold_passView, State.passView_mk]

@[simp] theorem State.failGroups_passView (s : State) (n : Nat) (gs : List Nat) : (State.failGroups s n gs).passView =
    s.passView := by
  unfold State.failGroups; simp [State.fold_passView, State.passView_mk]

@[simp] theorem State.dropRows_passView (s : State) (gone : Nat → Bool) : (State.dropRows s gone).passView =
    s.passView := by
  unfold State.dropRows; simp [State.fold_passView, State.passView_mk]

@[simp] theorem State.cancelReads_passView (s : State) : (State.cancelReads s).passView = s.passView := by
  unfold State.cancelReads; simp [State.fold_passView, State.passView_mk]

@[simp] theorem State.stallSafe_passView (s : State) (r : PassRun) (quads : List Nat) : (State.stallSafe s r
    quads).passView = s.passView := by
  unfold State.stallSafe; simp [State.fold_passView, State.passView_mk]

@[simp] theorem State.discardContext_passView (s : State) (f : State → Nat → State) (h : ∀ t n, (f t n).passView =
    t.passView) : (s.discardContext f).passView = s.passView := by
  unfold State.discardContext
  split
  · rfl
  · dsimp only
    rw [h]
    simp [State.fold_passView, State.passView_mk]

@[simp] theorem State.resetGroup_passView (s : State) (g source : Nat) : (State.resetGroup s g source).passView =
    s.passView := by
  unfold State.resetGroup; simp [State.fold_passView, State.passView_mk]

@[simp] theorem State.resetGroups_passView (s : State) : (State.resetGroups s).passView = s.passView := by
  unfold State.resetGroups; simp [State.fold_passView, State.passView_mk]

@[simp] theorem State.endOwn_passView (s : State) (r : PassRun) : (State.endOwn s r).passView = s.passView := by
  unfold State.endOwn; simp [State.fold_passView, State.passView_mk]

@[simp] theorem State.release_passView (s : State) : (State.release s).passView = s.passView := by
  unfold State.release; dsimp only; (repeat' split) <;> simp [State.fold_passView, State.passView_mk]

/-! ### The end of a pass -/

section
variable {s : State} {cyc : Nat} {r : PassRun}

/-- Queues without flits, and with all their credits. -/
def Fabric.emptied (f : Fabric) : Prop := ∀ q ∈ f.queues, q.buffer = [] ∧ q.inFlight = [] ∧ q.credits = q.depth

theorem emptied_of_map {f : Fabric} {qs : List QueueRun} (all : f.queues = qs.map QueueRun.empty) : f.emptied := by
  intro q held
  rw [all, List.mem_map] at held
  obtain ⟨x, -, rfl⟩ := held
  exact ⟨rfl, rfl, rfl⟩

theorem Fabric.emptied_of_fresh {f : Fabric} {m : Image} (fresh : f.queues = m.freshQueues) : f.emptied := by
  intro q held
  rw [fresh, Image.freshQueues, List.mem_map] at held
  obtain ⟨x, -, rfl⟩ := held
  exact ⟨rfl, rfl, rfl⟩

@[simp] theorem State.quiesce_passView (s : State) : s.quiesce.passView =
    { s.passView with state := .idle, queues := s.fab.queues.map QueueRun.empty } := rfl

/-- What a view says of the state it was taken of. -/
theorem State.idle_of_passView {t : State} {v : PassView} {qs : List QueueRun} (h : t.passView = v)
    (idle : v.state = .idle) (still : v.runs = false) (empty : v.queues = qs.map QueueRun.empty) :
    t.planner.running = none ∧ t.fab.state = .idle ∧ t.fab.emptied := by
  subst h
  exact ⟨Option.isSome_eq_false_iff.1 still |> Option.isNone_iff_eq_none.1, idle, emptied_of_map empty⟩

/-- A pass that ends without a fault settles, and no pass runs. -/
theorem State.endPass_clean (s : State) (clean : r.taints = []) (whole : r.broken = false) (quiet : r.tokens = []) :
    (s.endPass r).passView = { s.passView with runs := false } := by
  simp [State.endPass, clean, whole, quiet, State.fold_passView, State.passView_mk]

/-- The void of a pass leaves it running, with the cause. -/
theorem State.startVoid_passView (s : State) (cause : Nat) : (s.startVoid cause).passView =
    { s.passView with state := .voiding, queues := s.fab.queues.map QueueRun.empty } := by
  simp [State.startVoid, State.fold_passView, State.passView_mk]

theorem State.startVoid_voidCause {cause : Nat} (runs : s.passView.runs = true) :
    (s.startVoid cause).planner.running.map (·.voidCause) = some cause := by
  obtain ⟨x, running⟩ : ∃ x, ((s.ownerLost (s.tileObjs ++ s.pairObjs s.currentPair)).torusDone.voidBatch.cancelReads
      ).planner.running = some x := by
    rw [← Option.isSome_iff_exists]
    simpa [State.fold_passView] using runs
  simp [State.startVoid, running]

theorem exec_passEnd (runs : s.planner.running = some r) (running : s.fab.state = .running)
    (whole : s.syn.phase = .none) (drained : s.fab.drained = true) :
    exec (.passEnd cyc) s = .next (if s.fab.residueCount ≠ 0 then (s.stamp cyc).residue r s.fab.residueCount
      else ((s.stamp cyc).quiesce.endPass r).endOwn r) := by
  have run : exec (.passEnd cyc) s = execPassEnd cyc s := rfl
  rw [run, execPassEnd, runs]
  simp only [running, whole, drained, ne_eq, not_true_eq_false, decide_false, Bool.not_true, Bool.or_self,
    Bool.false_eq_true, if_false]
  exact (apply_ite Host.Outcome.next _ _ _).symm

/-- A snapshot is kept, or the one before it stays and the new one is lost (R111). -/
theorem State.capture_eq (s : State) (cause : Nat) : ∃ x fst, x.isSome = true ∧ s.capture cause = { s with fab := { s.fab with
    snapshot := x, snapFst := fst
    snapLost := if s.fab.snapshot.isSome then sat 32 (s.fab.snapLost + 1) else s.fab.snapLost } } := by
  unfold State.capture
  split
  · next held => exact ⟨s.fab.snapshot, s.fab.snapFst, held, rfl⟩
  · next => exact ⟨some (s.snapshotBytes cause), s.fst, rfl, rfl⟩

/-- Flits that remain are counted and void the pass (R109). -/
theorem State.residue_voids (n : Nat) (runs : s.planner.running = some r) :
    (s.residue r n).fab.state = .voiding ∧ (s.residue r n).fab.residue = sat 32 (s.fab.residue + n) ∧
      (s.residue r n).planner.running.map (·.voidCause) = some 3 := by
  unfold State.residue
  dsimp only
  generalize counted : State.raiseFor _ _ _ _ _ _ = u
  have fab : u.fab = { s.fab with residue := sat 32 (s.fab.residue + n) } := by rw [← counted, State.raiseFor_fab]
  have planner : u.planner = s.planner := by rw [← counted, State.raiseFor_planner]
  obtain ⟨x, fst, -, captured⟩ := u.capture_eq 3
  have view := (u.capture 3).startVoid_passView 3
  have state := congrArg PassView.state view
  have residue := congrArg PassView.residue view
  refine ⟨state, ?_, State.startVoid_voidCause ?_⟩
  · exact residue.trans (by rw [captured]; exact congrArg Fabric.residue fab)
  · rw [captured]
    exact congrArg Option.isSome ((congrArg Planner.running planner).trans runs)

/-- The overrun is noted once, and raised (R66). -/
theorem exec_wcetOverrun (runs : s.planner.running = some r) (first : r.overrun = false)
    (pass : r.entry.kind = .prefill ∨ r.entry.kind = .decode) (late : r.planEnd ≤ (s.stamp cyc).clock) :
    exec (.wcetOverrun cyc) s = .next (State.raiseFor { s.stamp cyc with
      planner := { s.planner with running := some { r with overrun := true } } } 0x0707 (passEventGroup r.entry.rows)
      (256 * r.entry.batchBucket + r.entry.contextBucket) r.entry.lastId r.passNumber) := by
  have run : exec (.wcetOverrun cyc) s = execWcetOverrun cyc s := rfl
  have isPass : r.entry.isPass = true := by simpa [PlanEntry.isPass] using pass
  have ended : ¬ (s.stamp cyc).clock < r.planEnd := Nat.not_lt.2 late
  rw [run, execWcetOverrun, runs]
  simp only [first, isPass, ended, decide_false, Bool.not_true, Bool.or_self, Bool.false_eq_true, if_false]
  rfl

theorem exec_wcetOverrun_early (runs : s.planner.running = some r)
    (early : r.overrun = true ∨ (s.stamp cyc).clock < r.planEnd) : exec (.wcetOverrun cyc) s = .next (s.stamp cyc) := by
  have run : exec (.wcetOverrun cyc) s = execWcetOverrun cyc s := rfl
  rw [run, execWcetOverrun, runs]
  rcases early with noted | before
  · simp only [noted, Bool.true_or, if_true]
  · simp only [before, decide_true, Bool.or_true, if_true]

end

/-- Settles O7: by the view of the fabric that the end of a pass and its void leave. -/
theorem passesEndAndOverrun : Obligations.PassesEndAndOverrun := by
  unfold Obligations.PassesEndAndOverrun
  refine ⟨fun cyc r s runs running whole drained => ⟨fun empty clean unbroken quiet => ?ends, fun left => ?residue⟩,
    fun cyc r s runs first pass late => ?overrun, fun cyc r s => exec_wcetOverrun_early⟩
  case ends =>
    have ran := exec_passEnd (cyc := cyc) runs running whole drained
    rw [if_neg (not_not.2 empty)] at ran
    have view : ((((s.stamp cyc).quiesce.endPass r).endOwn r)).passView = { s.passView with
        state := .idle, queues := s.fab.queues.map QueueRun.empty, runs := false } := by
      rw [State.endOwn_passView, State.endPass_clean _ clean unbroken quiet]
      rfl
    exact ⟨_, ran, State.idle_of_passView view rfl rfl rfl⟩
  case residue =>
    have ran := exec_passEnd (cyc := cyc) runs running whole drained
    rw [if_pos left] at ran
    exact ⟨_, ran, State.residue_voids (s := s.stamp cyc) s.fab.residueCount runs⟩
  case overrun =>
    exact ⟨_, exec_wcetOverrun runs first pass late, by simp, by simp, by simp, by simp⟩

/-! ### Stalls, voids and swaps (R103 to R105, R111, R116) -/

section
variable {s : State} {cyc n : Nat} {r : PassRun} {m : Image}

theorem Fabric.slot_setSlot_self (f : Fabric) (n : Nat) (x : Slot) : (f.setSlot n x).slot n = x := by
  unfold Fabric.setSlot Fabric.slot
  (repeat' split) <;> simp_all

theorem Fabric.slot_setSlot_ne (f : Fabric) {n k : Nat} (x : Slot) (inside : n < 4) (other : k ≠ n) (within : k < 4) :
    (f.setSlot n x).slot k = f.slot k := by
  interval_cases n <;> interval_cases k <;> first | rfl | exact absurd rfl other

/-- A stall counts, notes the safe variant and keeps a snapshot before the void (R103, R104, R111). -/
theorem State.stall_counts (runs : s.planner.running = some r) : ∃ u : State, s.stall 1 = (u.capture 1).startVoid 1 ∧
    u.passView = { s.passView with stallCount := sat 32 (s.fab.stallCount + 1) } := by
  rw [State.stall, runs]
  refine ⟨_, rfl, ?_⟩
  simp [State.passView_mk, State.fold_passView]

/-- What a stall that is no pair mismatch leaves (R103, R104, R111). -/
theorem State.stall_voids (runs : s.planner.running = some r) :
    (s.stall 1).fab.state = .voiding ∧ (s.stall 1).fab.stallCount = sat 32 (s.fab.stallCount + 1) ∧
      (s.stall 1).fab.snapshot.isSome = true ∧
      (s.stall 1).fab.snapLost =
        (if s.fab.snapshot.isSome then sat 32 (s.fab.snapLost + 1) else s.fab.snapLost) ∧
      (s.stall 1).planner.running.map (·.voidCause) = some 1 := by
  obtain ⟨u, stalled, view⟩ := State.stall_counts runs
  rw [stalled]
  obtain ⟨x, fst, some_, captured⟩ := u.capture_eq 1
  have voided := (u.capture 1).startVoid_passView 1
  have kept : ∀ {α : Type} (g : PassView → α), g (u.capture 1).passView = g { u.passView with
      snapshot := x
      snapLost := if u.fab.snapshot.isSome then sat 32 (u.fab.snapLost + 1) else u.fab.snapLost } := by
    intro α g
    rw [captured]
    rfl
  have lost : (if u.fab.snapshot.isSome then sat 32 (u.fab.snapLost + 1) else u.fab.snapLost) =
      (if s.fab.snapshot.isSome then sat 32 (s.fab.snapLost + 1) else s.fab.snapLost) := by
    rw [show u.fab.snapshot = s.fab.snapshot from congrArg PassView.snapshot view,
      show u.fab.snapLost = s.fab.snapLost from congrArg PassView.snapLost view]
  refine ⟨congrArg PassView.state voided, ?_, ?_, ?_, State.startVoid_voidCause ?_⟩
  · exact (congrArg PassView.stallCount voided).trans ((kept PassView.stallCount).trans (congrArg PassView.stallCount view))
  · exact (congrArg (fun v => v.snapshot.isSome) voided).trans ((kept fun v => v.snapshot.isSome).trans some_)
  · exact (congrArg PassView.snapLost voided).trans ((kept PassView.snapLost).trans lost)
  · exact (kept PassView.runs).trans ((congrArg PassView.runs view).trans (by simp [State.passView, runs]))

theorem exec_fabricStall (running : s.fab.state = .running) (whole : s.syn.phase = .none)
    (inside : s.externalOut = false) (here : s.remoteWait = false)
    (late : s.fab.guardZero + s.reg Reg.FAB_JOIN_GUARD ≤ (s.stamp cyc).clock) :
    exec (.fabricStall cyc) s = .next ((s.stamp cyc).stall 1) :=
  if_pos (by simp [running, whole, inside, here, late])

/-- A void that no stall, mismatch or residue caused ends in IDLE (R105). -/
theorem exec_voidingComplete (runs : s.planner.running = some r) (voiding : s.fab.state = .voiding)
    (settled : s.voidPending = false) (other : 3 < r.voidCause) : ∃ t, exec (.voidingComplete cyc) s = .next t ∧
      t.passView = { s.passView with state := .idle, queues := s.fab.queues.map QueueRun.empty, runs := false } := by
  have run : exec (.voidingComplete cyc) s = execVoidingComplete cyc s := rfl
  have cause : ¬ r.voidCause ≤ 3 := by omega
  rw [run, execVoidingComplete, runs]
  simp only [voiding, settled, cause, ne_eq, not_true_eq_false, decide_false, Bool.or_self, Bool.false_eq_true,
    if_false]
  refine ⟨_, rfl, ?_⟩
  rw [State.endOwn_passView, State.rerunOwn_passView, State.settlePass_passView]
  rfl

/-- The slots of a swap once the outgoing last is READY (R116). -/
def Fabric.released (f : Fabric) : Fabric :=
  match f.activeSlot with
  | some o => f.setSlot o { f.slot o with state := .ready }
  | none => f

theorem Fabric.released_slot (f : Fabric) {n : Nat} (inside : n < 4) :
    ∃ x, f.released.slot n = { f.slot n with state := x } := by
  unfold Fabric.released
  split
  · next o active =>
    interval_cases n <;> rcases o with _ | _ | _ | o <;> exact ⟨_, rfl⟩
  · exact ⟨_, rfl⟩

theorem Fabric.released_out (f : Fabric) {o : Nat} (active : f.activeSlot = some o) :
    (f.released.slot o).state = .ready := by
  rw [Fabric.released, active]
  exact congrArg Slot.state (Fabric.slot_setSlot_self f o _)

/-- The swap: the slot of the incoming last is ACTIVE, that of the outgoing one READY (R116). -/
theorem State.endSwap_fab (image : (s.fab.slot n).image = some m) (inside : n < 4) (other : s.fab.activeSlot ≠ some n) :
    (s.endSwap n).planner = s.planner ∧ (s.endSwap n).fab.state = .idle ∧ (s.endSwap n).fab.activeSlot = some n ∧
      (s.endSwap n).fab.swapTarget = none ∧ (s.endSwap n).fab.slot n = { s.fab.slot n with state := .active } ∧
      (∀ o, s.fab.activeSlot = some o → o < 4 → ((s.endSwap n).fab.slot o).state = .ready) ∧
      (s.endSwap n).fab.queues = m.freshQueues := by
  obtain ⟨x, slot⟩ := s.fab.released_slot inside
  have swap : ∃ f, s.endSwap n = { s with fab := f, mxe := (s.endSwap n).mxe, syn := (s.endSwap n).syn } ∧
      f.slot = (s.fab.released.setSlot n { s.fab.slot n with state := .active }).slot ∧ f.state = .idle ∧
      f.activeSlot = some n ∧ f.swapTarget = none ∧ f.queues = m.freshQueues := by
    have unfolded : s.endSwap n = match (s.fab.released.slot n).image with
      | none => s
      | some img =>
        let f := s.fab.released.setSlot n { s.fab.released.slot n with state := .active }
        let f := { f with state := .idle, activeSlot := some n, swapTarget := none, queues := img.freshQueues
                          stations := img.stations.map fun _ => {}
                          swapLast := swapCyclesOf (s.fab.released.slot n).die0Bytes (s.fab.released.slot n).die1Bytes
                          guardHeld := 0
                          histAcc := f.histAcc.clearSlot n (s.fab.released.slot n).lastId }
        { s with fab := f
                 mxe := img.zeroed.foldl (fun (e : Engine) (g : Nat × Nat) => e.zeroRegion g.1 g.2) s.mxe
                 syn := { s.syn with tiles := [], participants := [] } }.progress := rfl
    rw [unfolded, slot]
    simp only [image]
    exact ⟨_, rfl, rfl, rfl, rfl, rfl, rfl⟩
  obtain ⟨f, eq, slots, idle, active, done, queues⟩ := swap
  rw [eq]
  refine ⟨rfl, idle, active, done, ?_, fun o was within => ?_, queues⟩
  · rw [slots, Fabric.slot_setSlot_self]
  · have apart : o ≠ n := fun e => other (by rw [was, e])
    rw [slots, Fabric.slot_setSlot_ne _ _ inside apart within, Fabric.released_out _ was]

end

/-- Settles O8: by the view of the fabric that a stall, a void and a swap leave. -/
theorem stallsVoidsAndSwaps : Obligations.StallsVoidsAndSwaps := by
  unfold Obligations.StallsVoidsAndSwaps
  refine ⟨⟨fun cyc r s runs running whole inside here late => ?stall, fun s => rfl, fun v s refused => if_neg refused⟩,
    fun cyc r s runs voiding settled other => ?void, fun cyc n m s target inside swapping image still other => ?swap⟩
  case stall => exact ⟨_, exec_fabricStall running whole inside here late, State.stall_voids (s := s.stamp cyc) runs⟩
  case void =>
    obtain ⟨t, ran, view⟩ := exec_voidingComplete (cyc := cyc) runs voiding settled other
    obtain ⟨none, idle, empty⟩ := State.idle_of_passView view rfl rfl rfl
    exact ⟨t, ran, idle, none, empty⟩
  case swap =>
    obtain ⟨planner, idle, active, done, slot, out, queues⟩ :=
      State.endSwap_fab (s := s.stamp cyc) image inside other
    have run : exec (.swapComplete cyc) s = execSwapComplete cyc s := rfl
    refine ⟨(s.stamp cyc).endSwap n, ?_, idle, active, done, by rw [slot], by rw [slot]; exact image, out, queues⟩
    rw [run, execSwapComplete, target]
    simp only [swapping, planner, ne_eq, not_true_eq_false, if_false, State.stamp_planner, still]

end Sys2Proof.Machine
end

section
/-! PROOFS. The entries of the slot plan (R56 to R65, R113 to R116, R384). -/

namespace Sys2Proof.Machine

/-! ### What the messages of the synchronization nodes leave alone -/

/-- What a message of a synchronization node leaves alone, as far as the issue of a pass looks at it. -/
structure PlanView where
  planner : Planner
  passCount : Nat
  regs : KMap Nat
  store : Store
  tb : TimeBase
  pages : Pages

/-- The plan, and what the issue of a pass reads beside it. -/
def State.planView (s : State) : PlanView := {
    planner := s.planner, passCount := s.fab.passCount, regs := s.regs, store := s.store, tb := s.tb, pages := s.pages
    }

theorem State.fold_planView (s : State) : s.planner = s.planView.planner ∧ s.fab.passCount = s.planView.passCount ∧
    s.regs = s.planView.regs ∧ s.store = s.planView.store ∧ s.tb = s.planView.tb ∧ s.pages = s.planView.pages := by
    simp [State.planView]

theorem State.planView_mk (part : Part) (pending : List Instr) (free : Nat) (regs : KMap Nat) (blobs : KMap (List
    Byte)) (tb : TimeBase) (planner : Planner) (fab : Fabric) (mxe : Engine) (chn : ChainCounters) (mem : Memory)
    (pages : Pages) (store : Store) (srv : Serving) (syn : Sync) (lce : Torus) (dsp : Dispatch) (hlk : HostLink) (dict
    : Dict) (ras : Ras) (pwr : Power) (boot : Boot) (sec : Security) : State.planView {
    part := part, pending := pending, free := free, regs := regs, blobs := blobs, tb := tb, planner := planner, fab :=
    fab, mxe := mxe, chn := chn, mem := mem, pages := pages, store := store, srv := srv, syn := syn, lce := lce,
    dsp := dsp, hlk := hlk, dict := dict, ras := ras, pwr := pwr, boot := boot, sec := sec } = {
    planner := planner, passCount := fab.passCount, regs := regs, store := store, tb := tb, pages := pages } := rfl

@[simp] theorem State.planView_ite (c : Prop) [Decidable c] (s t : State) :
    (if c then s else t).planView = if c then s.planView else t.planView := by split <;> rfl

section
variable {α γ : Type} {f : State → α → State} {k : State × γ → α → State × γ} {h : γ × State → α → γ × State}

@[simp] theorem State.planView_foldl (keeps : ∀ t a, (f t a).planView = t.planView) (l : List α) (s : State) :
    (l.foldl f s).planView = s.planView := State.keeps_foldl _ keeps l s
@[simp] theorem State.planView_foldl_fst (keeps : ∀ p a, (k p a).1.planView = p.1.planView) (l : List α) (p : State × γ) :
    (l.foldl k p).1.planView = p.1.planView := State.keeps_foldl_fst (fun t => t.planView) keeps l p
@[simp] theorem State.planView_foldl_snd (keeps : ∀ p a, (h p a).2.planView = p.2.planView) (l : List α) (p : γ × State) :
    (l.foldl h p).2.planView = p.2.planView := State.keeps_foldl_snd (fun t => t.planView) keeps l p

end

@[simp] theorem State.raiseFor_planView (s : State) (code group arg0 arg1 arg2 : Nat) : (s.raiseFor code group arg0
    arg1 arg2).planView = s.planView := by
  simp [State.planView]

@[simp] theorem State.raise_planView (s : State) (code arg0 arg1 arg2 : Nat) : (s.raise code arg0 arg1 arg2).planView
    = s.planView := by
  simp [State.planView]

@[simp] theorem State.progress_planView (s : State) : (State.progress s).planView = s.planView := by
  unfold State.progress; simp [State.fold_planView, State.planView_mk]

@[simp] theorem State.modLace_planView (s : State) (l : Nat) (f : Lace → Lace) : (State.modLace s l f).planView =
    s.planView := by
  unfold State.modLace; simp [State.fold_planView, State.planView_mk]

@[simp] theorem State.modTorus_planView (s : State) (f : Torus → Torus) : (State.modTorus s f).planView = s.planView := by
  unfold State.modTorus; simp [State.fold_planView, State.planView_mk]

@[simp] theorem State.freeSlots_planView (s : State) (xs : List (Nat × Nat × Bool × Nat)) : (State.freeSlots s
    xs).planView = s.planView := by
  unfold State.freeSlots; simp [State.fold_planView, State.planView_mk]

@[simp] theorem State.laceDrain_planView (s : State) (l : Nat) : (State.laceDrain s l).planView = s.planView := by
  unfold State.laceDrain; simp [State.fold_planView, State.planView_mk]

@[simp] theorem State.laceSend_planView (s : State) (l : Nat) (x : LaceTx) : (State.laceSend s l x).planView =
    s.planView := by
  unfold State.laceSend; simp [State.fold_planView, State.planView_mk]

@[simp] theorem State.oweFault_planView (s : State) (tag : Nat) : (State.oweFault s tag).planView = s.planView := by
  unfold State.oweFault; simp [State.fold_planView, State.planView_mk]

@[simp] theorem State.unreachable_planView (s : State) (h : PacketHeader) : (State.unreachable s h).planView =
    s.planView := by
  unfold State.unreachable; simp [State.fold_planView, State.planView_mk]

@[simp] theorem State.forward_planView (s : State) (h : PacketHeader) (flits : List Flit) (p l : Nat) (turned : Bool)
    (origin : Option (Nat × Nat × Bool)) : (State.forward s h flits p l turned origin).planView = s.planView := by
  unfold State.forward; dsimp only; split <;> simp [State.fold_planView, State.planView_mk]

@[simp] theorem State.inject_planView (s : State) (h : PacketHeader) (flits : List Flit) : (State.inject s h
    flits).planView = s.planView := by
  unfold State.inject; dsimp only; (repeat' split) <;> simp [State.fold_planView, State.planView_mk]

@[simp] theorem State.sendSync_planView (s : State) (dest op object arg : Nat) : (State.sendSync s dest op object
    arg).planView = s.planView := by
  unfold State.sendSync; simp [State.fold_planView, State.planView_mk]

@[simp] theorem State.setObj_planView (s : State) (r : ObjRef) (o : SyncObj) : (State.setObj s r o).planView =
    s.planView := by
  unfold State.setObj; simp [State.fold_planView, State.planView_mk]

@[simp] theorem State.modObj_planView (s : State) (r : ObjRef) (f : SyncObj → SyncObj) : (State.modObj s r f).planView
    = s.planView := by
  unfold State.modObj; simp [State.fold_planView, State.planView_mk]

@[simp] theorem State.modPart_planView (s : State) (k : Nat) (f : Participant → Participant) : (State.modPart s k
    f).planView = s.planView := by
  unfold State.modPart; simp [State.fold_planView, State.planView_mk]

@[simp] theorem State.freeRemote_planView (s : State) (k cause : Nat) : (State.freeRemote s k cause).planView =
    s.planView := by
  unfold State.freeRemote; simp [State.fold_planView, State.planView_mk]

@[simp] theorem State.recordRelease_planView (s : State) (k cause : Nat) : (State.recordRelease s k cause).planView =
    s.planView := by
  unfold State.recordRelease; simp [State.fold_planView, State.planView_mk]

@[simp] theorem State.endWait_planView (s : State) (r : ObjRef) (w : WaitReg) (cause : Nat) : (State.endWait s r w
    cause).planView = s.planView := by
  unfold State.endWait; simp [State.fold_planView, State.planView_mk]

@[simp] theorem State.toModules_planView (s : State) (ms : List Nat) (op : Nat) (r : ObjRef) (arg : Nat) :
    (State.toModules s ms op r arg).planView = s.planView := by
  unfold State.toModules; simp [State.fold_planView, State.planView_mk]

@[simp] theorem State.nodeStep_planView (s : State) (m : NodeMsg) (r : ObjRef) : (State.nodeStep s m r).1.planView =
    s.planView := by
  unfold State.nodeStep; dsimp only; (repeat' split) <;> simp [State.fold_planView, State.planView_mk]

@[simp] theorem State.nodes_planView (x0 : Nat) (x1 : List (NodeMsg × ObjRef)) (s : State) : (State.nodes x0 x1
    s).planView = s.planView := by
  induction x0 generalizing s x1 with
  | zero => rfl
  | succ f ih =>
    cases x1 with
    | nil => rfl
    | cons e ms => simp [State.nodes, ih]

@[simp] theorem State.nodeMsg_planView (s : State) (m : NodeMsg) (r : ObjRef) : (State.nodeMsg s m r).planView =
    s.planView := by
  unfold State.nodeMsg; simp [State.fold_planView, State.planView_mk]

@[simp] theorem State.bindPair_planView (s : State) (step cls : Nat) (m : Image) : (State.bindPair s step cls
    m).planView = s.planView := by
  unfold State.bindPair; (repeat' split) <;> simp [State.fold_planView, State.planView_mk]


/-! ### Entries of the plan -/

section
variable {s : State} {cyc : Nat} {e : PlanEntry} {rest : List PlanEntry} {m : Image}

/-- The plan once its first entry has left it. -/
def State.takeEntry (s : State) (running : Option PassRun) : State :=
  { s with planner := { s.planner with plan := s.planner.plan.drop 1, running := running } }

theorem exec_planEntryStart (plan : s.planner.plan = e :: rest) (may : (s.stamp cyc).entryMayStart e = true) :
    exec (.planEntryStart cyc) s = .next (if e.resume then (if s.hlk.up then (s.stamp cyc).runResume e else s)
      else match e.kind with
        | .prefill | .decode => (s.stamp cyc).startPass e
        | .switchEntry => (s.stamp cyc).startSwitch e
        | .maintenance => (s.stamp cyc).startMaintenance e) := by
  have run : exec (.planEntryStart cyc) s = execPlanEntryStart cyc s := rfl
  rw [run, execPlanEntryStart, State.stamp_planner, plan]
  simp only [may, Bool.not_true, Bool.false_eq_true, if_false, State.stamp_hlk]
  cases e.resume
  · cases e.kind <;> rfl
  · rfl

/-- No pass runs when an entry may start, and every quadrant's slices are done. -/
theorem State.entryMayStart_spec (may : s.entryMayStart e = true) :
    (s.fab.state = .idle ∨ s.fab.state = .empty ∧ e.isPass = false) ∧ s.planner.running = none ∧
      (s.ras.quads.all fun q => q.slice.isEmpty) = true := by
  simp only [State.entryMayStart, Bool.and_eq_true, Bool.or_eq_true, decide_eq_true_eq, Bool.not_eq_true',
    Option.isNone_iff_eq_none] at may
  obtain ⟨⟨⟨⟨⟨⟨fabric, still⟩, -⟩, -⟩, slices⟩, -⟩, -⟩ := may
  exact ⟨fabric, still, slices⟩

/-! ### Maintenance (R59) -/

theorem State.startSlices_eq (s : State) (quads w : Nat) : ∃ v, s.startSlices quads w = { s with ras := v } := by
  unfold State.startSlices
  generalize List.range 8 = l
  suffices ∀ (all : List (Nat × AwlTest)) (t : State), (∃ v, t = { s with ras := v }) → ∃ v, l.foldl (fun t q =>
      if bit quads q && (s.quad q).state.inMask then t.modQuad q fun x => x.startSlice all w else t) t =
        { s with ras := v } from this _ s ⟨_, rfl⟩
  intro all
  induction l with
  | nil => exact fun t kept => kept
  | cons q l ih =>
    rintro t ⟨v, rfl⟩
    refine ih _ ?_
    dsimp only
    split <;> exact ⟨_, rfl⟩

theorem State.startSlices_none (s : State) (w : Nat) : s.startSlices 0 w = s := by
  unfold State.startSlices
  generalize List.range 8 = l
  induction l with
  | nil => rfl
  | cons q l ih => simpa [bit] using ih

theorem State.digestScrub_of_quiet (next : s.store.scrubNext = 0) (early : s.scrubDue = false) :
    s.digestScrub = s := by
  simp [State.digestScrub, next, early]

theorem State.startMaintenance_eq (s : State) (e : PlanEntry) : s.startMaintenance e = ((s.takeEntry (some {
    entry := e, passNumber := 0, start := s.tb.now })).startSlices e.lastId e.w).endMaintenance := rfl

/-- Maintenance that has ended, or that still runs, leaves the rest of the plan. -/
theorem State.endMaintenance_plan (next : s.store.scrubNext = 0) (early : s.scrubDue = false) :
    s.endMaintenance.planner.plan = s.planner.plan := by
  unfold State.endMaintenance
  split
  · rfl
  · split
    · exact (congrArg (fun t : State => t.planner.plan) (State.digestScrub_of_quiet (s := { s with
        planner := { s.planner with running := none } }) next early)).trans rfl
    · rfl

theorem State.endMaintenance_running {r : PassRun} (next : s.store.scrubNext = 0) (early : s.scrubDue = false)
    (runs : s.planner.running = some r) (kind : r.entry.kind = .maintenance)
    (done : (s.ras.quads.all fun q => q.slice.isEmpty) = true) : s.endMaintenance.planner.running = none := by
  rw [State.endMaintenance, runs]
  simp only [kind, done, decide_true, Bool.and_self, if_true]
  exact (congrArg (fun t : State => t.planner.running) (State.digestScrub_of_quiet (s := { s with
    planner := { s.planner with running := none } }) next early)).trans rfl

/-! ### A pass is issued (R65, R113 to R115) -/

/-- The fabric starts a pass of `m` from a state whose step has its object pair. -/
def State.issued (q : State) (r : PassRun) (m : Image) (offset now : Nat) : State :=
  let n := sat 64 (q.fab.passCount + 1)
  { q with
    fab := { q.fab with state := .running, queues := m.freshQueues, stations := m.stations.map fun _ => {}
                        params := passParams r.entry (q.planner.stepOf r.entry.step) offset, passCount := n }
    mxe := { q.mxe with passMismatches := 0, checkMode := q.reg Reg.MXE_CHECK_MODE, checkTol := q.reg Reg.MXE_CHECK_TOL }
    syn := { q.syn with tiles := q.freshTiles m, participants := [] }
    planner := { q.planner with running := some (r.latched q n now)
                                passesStarted := sat 64 (q.planner.passesStarted + 1) } }.resumeGuard

theorem State.openBatch_eq (s : State) (id step : Nat) (fresh : Bool) :
    ∃ d, s.openBatch id step fresh = { s with dsp := d } := by
  unfold State.openBatch
  dsimp only
  split <;> exact ⟨_, rfl⟩

/-- The issue binds the step's pair where it has none, starts the fabric and opens the batch of a pool pass. -/
theorem State.issuePass_eq {r : PassRun} (runs : s.planner.running = some r) (image : s.fab.image? = some m)
    (idle : s.fab.state = .idle) : ∃ (f : StepRun → StepRun) (d : Dispatch) (t q : State),
      t = s.draw.2.modStep r.entry.step f ∧
      q = (if (t.pairOf r.entry.step).isNone then t.bindPair r.entry.step r.entry.cls m else t) ∧
      s.issuePass = { q.issued r m s.draw.1 s.tb.now with dsp := d } := by
  have issue : ∃ (f : StepRun → StepRun) (id : Nat) (first : Bool) (t q : State),
      t = s.draw.2.modStep r.entry.step f ∧
      q = (if (t.pairOf r.entry.step).isNone then t.bindPair r.entry.step r.entry.cls m else t) ∧
      s.issuePass = if (q.issued r m s.draw.1 s.tb.now).poolPass then
        (q.issued r m s.draw.1 s.tb.now).openBatch id r.entry.step first else q.issued r m s.draw.1 s.tb.now := by
    unfold State.issuePass
    rw [runs, image]
    dsimp only
    rw [if_neg (not_not.2 idle)]
    exact ⟨_, _, _, _, _, rfl, rfl, rfl⟩
  obtain ⟨f, id, first, t, q, step, pair, eq⟩ := issue
  split at eq
  · obtain ⟨d, opened⟩ := (q.issued r m s.draw.1 s.tb.now).openBatch_eq id r.entry.step first
    exact ⟨f, d, t, q, step, pair, eq.trans opened⟩
  · exact ⟨f, _, t, q, step, pair, eq⟩

/-- What the issue of a pass leaves of the plan and of the fabric. -/
theorem State.issuePass_spec {r : PassRun} (runs : s.planner.running = some r) (image : s.fab.image? = some m)
    (idle : s.fab.state = .idle) (fresh : r.taints = []) (early : r.overrun = false) :
    s.issuePass.planner.plan = s.planner.plan ∧ s.issuePass.fab.state = .running ∧
      s.issuePass.fab.passCount = sat 64 (s.fab.passCount + 1) ∧ s.issuePass.fab.queues = m.freshQueues ∧
      (s.issuePass.planner.running.map fun r => (r.passNumber, r.taints, r.overrun)) =
        some (sat 64 (s.fab.passCount + 1), [], false) := by
  obtain ⟨f, d, t, q, rfl, pair, eq⟩ := State.issuePass_eq runs image idle
  have view : q.planView = (s.draw.2.modStep r.entry.step f).planView := by
    rw [pair]
    split
    · exact State.bindPair_planView _ _ _ _
    · rfl
  have plan : q.planner.plan = s.planner.plan := congrArg (fun v => v.planner.plan) view
  have count : q.fab.passCount = s.fab.passCount := congrArg PlanView.passCount view
  rw [eq]
  refine ⟨plan, rfl, congrArg (fun n => sat 64 (n + 1)) count, rfl, ?_⟩
  show some (sat 64 (q.fab.passCount + 1), r.taints, r.overrun) = _
  rw [count, fresh, early]

theorem State.startPass_runs (live : e.rows.filter s.rowLives = e.rows) (may : s.mayIssue e = true)
    (safe : s.fab.safeSet = []) (pair : (s.pairOf e.step).isSome = true ∨ (s.freePair e.cls).isSome = true)
    (slot : (s.fab.slotOf? e.lastId).isSome = true) (active : s.fab.activeLast = e.lastId) :
    ∃ f r, s.startPass e = ((s.modStep e.step f).takeEntry (some r)).issuePass ∧ r.taints = [] ∧ r.overrun = false := by
  have whole : (!e.rows.isEmpty && e.rows.isEmpty) = false := by cases e.rows <;> rfl
  have unsafe_ : s.withSafe e = e := by simp [State.withSafe, safe]
  have bound : ((s.pairOf e.step).isNone && (s.freePair e.cls).isNone) = false := by
    rcases pair with h | h <;> simp [h, ← Option.isSome_iff_ne_none]
  have loaded : (s.fab.slotOf? e.lastId).isNone = false := by simpa using slot
  have kept : ∀ f, (s.modStep e.step f).withSafe e = e ∧
      (((s.modStep e.step f).pairOf e.step).isNone && ((s.modStep e.step f).freePair e.cls).isNone) = false ∧
      ((s.modStep e.step f).fab.slotOf? e.lastId).isNone = false := fun f => ⟨unsafe_, bound, loaded⟩
  unfold State.startPass
  simp only [live, whole, may, kept, Bool.not_true, Bool.false_eq_true, if_false]
  exact ⟨_, { entry := e, passNumber := 0, start := s.tb.now, planEnd := s.clock + e.cost }, if_pos active, rfl, rfl⟩

end

/-- Settles O6: each kind of entry by what its start does once the entry has left the plan. -/
theorem planEntryRuns : Obligations.PlanEntryRuns := by
  unfold Obligations.PlanEntryRuns
  refine ⟨fun cyc e rest s plan may whole kind => ?maintenance,
    fun cyc e rest s plan may whole kind => ⟨fun staged ready => ?commits, fun unstaged => ?passes⟩,
    fun cyc e rest s plan may resume up none => ?resume,
    fun cyc e rest m s plan may whole kind live issue safe pair slot active image => ?issued⟩
  case maintenance =>
    have ran := exec_planEntryStart plan may
    simp only [whole, kind, Bool.false_eq_true, if_false] at ran
    refine ⟨_, ran, rfl, fun next early => ⟨?_, fun nothing => ?_⟩⟩
    · obtain ⟨v, started⟩ := State.startSlices_eq ((s.stamp cyc).takeEntry (some { entry := e, passNumber := 0, start := (s.stamp cyc).tb.now })) e.lastId e.w
      rw [State.startMaintenance_eq]
      refine (State.endMaintenance_plan ?_ ?_).trans ?_
      all_goals rw [started]
      · exact next
      · exact early
      · simp [State.takeEntry, plan]
    · rw [State.startMaintenance_eq, nothing, State.startSlices_none]
      exact State.endMaintenance_running next early rfl kind (State.entryMayStart_spec may).2.2
  case commits =>
    have ran := exec_planEntryStart plan may
    simp only [whole, kind, Bool.false_eq_true, if_false] at ran
    refine ⟨_, (s.stamp cyc).takeEntry (some { entry := e, passNumber := 0, start := (s.stamp cyc).tb.now }), ran, ?_,
      by simp [State.takeEntry, plan], rfl, rfl⟩
    simp [State.startSwitch, staged, ready, State.takeEntry]
  case passes =>
    have ran := exec_planEntryStart plan may
    simp only [whole, kind, Bool.false_eq_true, if_false] at ran
    have switch : (s.stamp cyc).startSwitch e = { s.stamp cyc with
        planner := { s.planner with plan := s.planner.plan.drop 1 } } := if_pos unstaged
    rw [switch, plan] at ran
    exact ⟨_, ran, rfl, rfl⟩
  case resume =>
    have ran := exec_planEntryStart plan may
    simp only [resume, up, if_true] at ran
    have dropped : (s.stamp cyc).runResume e = { s.stamp cyc with
        planner := { s.planner with plan := s.planner.plan.drop 1 } } := by simp [State.runResume, none]
    rw [dropped, plan] at ran
    exact ⟨_, ran, rfl, rfl⟩
  case issued =>
    have ran := exec_planEntryStart plan may
    have starts : (s.stamp cyc).startPass e = (match e.kind with
        | .prefill | .decode => (s.stamp cyc).startPass e
        | .switchEntry => (s.stamp cyc).startSwitch e
        | .maintenance => (s.stamp cyc).startMaintenance e) := by rcases kind with h | h <;> rw [h]
    have isPass : e.isPass = true := by simpa [PlanEntry.isPass] using kind
    obtain ⟨fabric, -, -⟩ := State.entryMayStart_spec may
    have idle : s.fab.state = .idle := fabric.resolve_right fun h => by simp [isPass] at h
    obtain ⟨f, r, started, fresh, early⟩ := State.startPass_runs (s := s.stamp cyc) live issue safe pair slot active
    rw [whole, if_neg Bool.false_ne_true, ← starts, started] at ran
    obtain ⟨kept, running, count, queues, run⟩ :=
      State.issuePass_spec (s := ((s.stamp cyc).modStep e.step f).takeEntry (some r)) rfl image idle fresh early
    exact ⟨_, ran, kept.trans (congrArg (List.drop 1) plan), running, count, queues, run⟩

end Sys2Proof.Machine
end

section
/-! PROOFS. HBM accesses through the insole caches (R258, R259, R263, R266). -/

namespace Sys2Proof.Machine

section
variable {s : State} {cyc id stack : Nat} {errors : List (Nat × Byte)}

theorem State.insole_setInsole_self {n : Insole} {hbm : List Host.Cell} (present : stack < s.mem.insoles.length) :
    (s.setInsole stack n hbm).insole stack = n := by
  simp [State.insole, State.setInsole, lget, present]

theorem State.insole_setInsole_ne {n : Insole} {hbm : List Host.Cell} {k : Nat} (other : k ≠ stack) :
    (s.setInsole stack n hbm).insole k = s.insole k := by
  simp [State.insole, State.setInsole, lget, List.getD_eq_getElem?_getD, List.getElem?_set_ne (Ne.symm other)]

/-! ### Reads -/

/-- The state of a read once the sector has come through the cache, before it is decoded. -/
def State.sectorRead (s : State) (cyc : Nat) (r : SectorRead) (errors : List (Nat × Byte)) : State :=
  let c := readSector (r.mpa / 2 ^ 36) (s.insole (r.mpa / 2 ^ 36)) s.mem.hbm r.mpa r.noAllocate errors
  { s.stamp cyc with mem := { s.mem with reads := s.mem.reads.filter (·.id != r.id) } }.setInsole (r.mpa / 2 ^ 36) c.2.1
    c.2.2

/-- The data of a read goes to the station that asked for it and still waits. -/
def State.sectorArrives (s : State) (r : SectorRead) (d : List Byte × Bool × State) : State :=
  match r.requester, r.cancelled with
  | .station i, false =>
    ((d.2.2.modStation i fun x => { x with reads := arrive r.mpa d.1 d.2.1 x.reads }).portAdvance i).progress
  | _, _ => d.2.2

theorem exec_hbmReadComplete {r : SectorRead} (out : s.mem.reads.find? (·.id = id) = some r)
    (first : s.accessWaits id r.mpa false = false) : exec (.hbmReadComplete cyc id errors) s =
      .next (s.sectorArrives r ((s.sectorRead cyc r errors).decoded (r.mpa / 2 ^ 36) r.mpa
        ((s.sectorRead cyc r errors).requesterLoc r.requester)
        (readSector (r.mpa / 2 ^ 36) (s.insole (r.mpa / 2 ^ 36)) s.mem.hbm r.mpa r.noAllocate errors).1
        ((s.sectorRead cyc r errors).decodeAt (r.mpa / 2 ^ 36) r.mpa r.mode
          (readSector (r.mpa / 2 ^ 36) (s.insole (r.mpa / 2 ^ 36)) s.mem.hbm r.mpa r.noAllocate errors).1))) := by
  have run : exec (.hbmReadComplete cyc id errors) s = execHbmReadComplete cyc id errors s := rfl
  have named : r.id = id := by simpa using List.find?_some out
  subst named
  rw [run, execHbmReadComplete, out]
  simp only [first, Bool.false_eq_true, if_false]
  unfold State.sectorArrives
  cases r.requester <;> cases r.cancelled <;> rfl

theorem State.sectorArrives_kept (s : State) (r : SectorRead) (d : List Byte × Bool × State) :
    (s.sectorArrives r d).kept = d.2.2.kept := by
  unfold State.sectorArrives
  split <;> simp

/-- A sector without errors leaves the state as it is. -/
theorem State.decoded_clean (s : State) (mpa location : Nat) (symbols : List Byte) :
    (s.decoded stack mpa location symbols (.good [])).2.2 = s := by
  unfold State.decoded
  dsimp only
  split <;> rfl

/-! ### Writes -/

/-- The state of a write once the sector has gone through the cache. -/
def State.sectorWritten (s : State) (cyc : Nat) (w : SectorWrite) (errors : List (Nat × Byte)) : State :=
  let c := writeSector (w.mpa / 2 ^ 36) (s.insole (w.mpa / 2 ^ 36)) s.mem.hbm w.mpa w.bytes w.mask w.noAllocate w.mode
    errors
  { s.stamp cyc with mem := { s.mem with writes := s.mem.writes.filter (·.id != w.id) } }.setInsole (w.mpa / 2 ^ 36) c.1
    c.2

/-- The station of a write has one fewer outstanding. -/
def State.writeReturns (s : State) (w : SectorWrite) : State :=
  match w.requester with
  | .station i => s.modStation i fun x => { x with writes := x.writes - 1 }
  | .engine => s

theorem exec_hbmWriteAccepted {w : SectorWrite} (out : s.mem.writes.find? (·.id = id) = some w)
    (first : s.accessWaits id w.mpa true = false) : exec (.hbmWriteAccepted cyc id errors) s =
      .next (match w.requester with
        | .station i => (((s.sectorWritten cyc w errors).writeReturns w).portAdvance i).progress
        | .engine => (s.sectorWritten cyc w errors).writeReturns w) := by
  have run : exec (.hbmWriteAccepted cyc id errors) s = execHbmWriteAccepted cyc id errors s := rfl
  have named : w.id = id := by simpa using List.find?_some out
  subst named
  rw [run, execHbmWriteAccepted, out]
  simp only [first, Bool.false_eq_true, if_false]
  unfold State.writeReturns
  cases w.requester <;> rfl

end

/-- Settles O13: an access by the state that its sector's way through the cache leaves. -/
theorem hbmAccessesComplete : Obligations.HbmAccessesComplete := by
  unfold Obligations.HbmAccessesComplete
  refine ⟨fun cyc read errors r s out first => ?read, fun cyc write errors w s out first => ?write,
    fun cyc id errors s => ⟨fun r out waits => ?readWaits, fun w out waits => ?writeWaits⟩⟩
  case read =>
    have ran := exec_hbmReadComplete (cyc := cyc) (errors := errors) out first
    have kept : ∀ d, (s.sectorArrives r ((s.sectorRead cyc r errors).decoded (r.mpa / 2 ^ 36) r.mpa
        ((s.sectorRead cyc r errors).requesterLoc r.requester)
        (readSector (r.mpa / 2 ^ 36) (s.insole (r.mpa / 2 ^ 36)) s.mem.hbm r.mpa r.noAllocate errors).1 d)).kept =
        (s.sectorRead cyc r errors).kept := fun d => by rw [State.sectorArrives_kept, State.decoded_kept]
    have k := kept ((s.sectorRead cyc r errors).decodeAt (r.mpa / 2 ^ 36) r.mpa r.mode
      (readSector (r.mpa / 2 ^ 36) (s.insole (r.mpa / 2 ^ 36)) s.mem.hbm r.mpa r.noAllocate errors).1)
    refine ⟨_, ran, congrArg Kept.hbm k, congrArg Kept.sram k, congrArg Kept.regs k, congrArg Kept.blobs k,
      congrArg Kept.boot k, congrArg Kept.sec k, fun c n h came clean engine present => ?_⟩
    have named : r.id = read := by simpa using List.find?_some out
    have insole : (s.sectorRead cyc r errors).insole (r.mpa / 2 ^ 36) = n := by
      rw [State.sectorRead, came]
      exact State.insole_setInsole_self present
    have good : (s.sectorRead cyc r errors).decodeAt (r.mpa / 2 ^ 36) r.mpa r.mode c = .good [] := by
      rw [State.decodeAt, insole, clean]
    have still : s.sectorArrives r ((s.sectorRead cyc r errors).decoded (r.mpa / 2 ^ 36) r.mpa
        ((s.sectorRead cyc r errors).requesterLoc r.requester) c (.good [])) = s.sectorRead cyc r errors := by
      rw [State.sectorArrives, engine]
      exact State.decoded_clean _ _ _ _
    simp only [came, good, still]
    refine ⟨insole, fun k other => State.insole_setInsole_ne other, ?_, rfl⟩
    rw [← named]
    rfl
  case write =>
    have ran := exec_hbmWriteAccepted (cyc := cyc) (errors := errors) out first
    have named : w.id = write := by simpa using List.find?_some out
    have mem : ((s.sectorWritten cyc w errors).writeReturns w).mem = (s.sectorWritten cyc w errors).mem := by
      unfold State.writeReturns
      split <;> rfl
    refine ⟨_, (s.sectorWritten cyc w errors).writeReturns w, ran, congrArg Memory.hbm mem, ?_, (congrArg Memory.reads mem).trans rfl,
      (congrArg Memory.sram mem).trans rfl, fun k other => ?_, ?_, fun engine => ?_, fun i station => ⟨?_, fun inside => ?_⟩⟩
    · rw [mem, ← named]
      rfl
    · exact (congrArg (fun m : Memory => lget m.insoles k) mem).trans
        (State.insole_setInsole_ne (s := { s.stamp cyc with mem := _ }) other)
    · unfold State.writeReturns
      split <;> rfl
    · simp only [engine, State.writeReturns]
      exact ⟨trivial, rfl⟩
    · simp only [station]
    · simp only [station, State.writeReturns]
      exact ⟨congrArg StationRun.writes (lget_lmod_self inside _), fun k other => lget_lmod_ne _ other _⟩
  case readWaits =>
    have run : exec (.hbmReadComplete cyc id errors) s = execHbmReadComplete cyc id errors s := rfl
    rw [run, execHbmReadComplete, out]
    exact if_pos waits
  case writeWaits =>
    have run : exec (.hbmWriteAccepted cyc id errors) s = execHbmWriteAccepted cyc id errors s := rfl
    rw [run, execHbmWriteAccepted, out]
    exact if_pos waits

end Sys2Proof.Machine
end

section
/-! PROOFS. The patrol notes the end of its pass at the fabric cycle of its last read (R267), which is the cycle of the
command and not that of the state before it. -/

namespace Sys2Proof.Machine

/-- A locked module at cycle 0 of a slot, whose stacks are READY. -/
def beforePatrol : State := { wMem { insoles := wInsoles StackState.ready } with tb := { state := .locked } }

/-- The state after the patrol read its last sector at cycle 156,249 of the slot. -/
def afterPatrol : State :=
  let s := beforePatrol.stamp 156249
  let mpa := 0 * 2 ^ 36 + 64 * 805306367
  let c := withErrors (hbmSector s.mem.hbm mpa) []
  let t := (s.decoded 0 mpa 0xFFFF c (.good [])).2.2
  { t with mem := { t.mem with hbm := putSector t.mem.hbm mpa (addErrors c []) } }.modInsole 0 fun n =>
    { n with scrubDone := s.fst }

theorem exec_lastPatrolRead : exec (.patrolScrubRead 156249 0 805306367 [] true) beforePatrol = .next afterPatrol := by
  obtain ⟨present, sector, serves, -, clean⟩ := witness_patrol_reads
  have run : exec (.patrolScrubRead 156249 0 805306367 [] true) beforePatrol =
    execPatrolScrubRead 156249 0 805306367 [] true beforePatrol := rfl
  have serves : (beforePatrol.insole 0).state.serves = true := serves
  have clean : (beforePatrol.stamp 156249).decodeAt 0 (0 * 2 ^ 36 + 64 * 805306367)
      ((beforePatrol.stamp 156249).insole 0).mode
      (withErrors (hbmSector (beforePatrol.stamp 156249).mem.hbm (0 * 2 ^ 36 + 64 * 805306367)) []) = .good [] := clean
  rw [run, execPatrolScrubRead, onUnit_true (by decide)]
  simp only [serves, clean, Bool.not_true, Bool.false_eq_true, if_false, if_true]
  rfl

theorem afterPatrol_scrubDone : (afterPatrol.insole 0).scrubDone = (beforePatrol.stamp 156249).fst := by
  unfold afterPatrol
  dsimp only
  rw [State.decoded_clean]
  rfl

/-- Refutes O14: the patrol's first clause says that INS_SCRUB_DONE reads the time of the state before the read; the
model notes the time of the read, cycle 156,249 of the slot here. -/
theorem not_stacksAreTended : ¬ Obligations.StacksAreTended := by
  unfold Obligations.StacksAreTended
  rintro ⟨patrol, -⟩
  obtain ⟨present, sector, serves, here, clean⟩ := witness_patrol_reads
  obtain ⟨t, ran, -, -, -, done⟩ := patrol 156249 0 805306367 [] true [] beforePatrol present sector serves here clean
  obtain rfl : afterPatrol = t := Host.Outcome.next.inj (exec_lastPatrolRead.symm.trans ran)
  rw [afterPatrol_scrubDone] at done
  exact absurd done (by decide)

end Sys2Proof.Machine
end

section
/-! PROOFS. The moves of KV pages (R278, R281, Table 8-7). -/

namespace Sys2Proof.Machine

section
variable {s : State} {cyc n page : Nat} {e : PageEntry} {x : Stream}

theorem State.settleEnding_of_open (h : ∀ x, s.stream? n = some x → x.state ≠ .ending) : s.settleEnding n = s := by
  unfold State.settleEnding
  split
  · next x held => rw [if_neg (by simp [h x held])]
  · rfl

/-! ### A page leaves its frame -/

theorem Pages.freePage_eq (p : Pages) (held : kget? p.table (pageKey n page) = some e) (f : PageEntry → PageEntry) :
    p.freePage n page f = { p with
      table := kmod p.table (pageKey n page) f, freeFrames := freeFrame p.freeFrames e.frame } := by
  rw [Pages.freePage, held]
  rfl

/-- The pages once one of them lies in its parking slot. -/
def State.parkedPage (s : State) (n page : Nat) (e : PageEntry) (clean : Bool) (moves : KMap PageMove) : Pages :=
  { s.pages with
    table := kmod s.pages.table (pageKey n page) fun x => { x with state := .parked, hostValid := true, dirty := false }
    freeFrames := freeFrame s.pages.freeFrames e.frame, moves := moves
    skippedClean := if clean then sat 32 (s.pages.skippedClean + 1) else s.pages.skippedClean
    bytesOut := if clean then s.pages.bytesOut else sat 64 (s.pages.bytesOut + s.pageBytes) }

theorem State.pageIn_eq (held : kget? s.pages.table (pageKey n page) = some e) (clean : Bool) :
    s.pageIn n page clean = { s with pages := s.parkedPage n page e clean s.pages.moves } := by
  rw [State.pageIn, Pages.freePage_eq s.pages held]
  rfl

/-- With the last page out the park is complete, and says so to the stream (R278). -/
theorem State.pageOut_last {m : PageMove} (move : kget? s.pages.moves n = some m) (last : m.left = [page])
    (stream : s.stream? n = some x) (open_ : x.state ≠ .ending) (copied : Nat) :
    ∃ moves v, s.pageOut n copied = { s with pages := { s.pages with moves := moves }, srv := v } ∧
      v.streams = kmod s.srv.streams n fun y => { y with unparkTag := none } := by
  have left : kget? (kmod s.pages.moves n fun m => { m with left := m.left.drop 1, moved := m.moved + copied }) n =
      some { m with left := [], moved := m.moved + copied } := by
    rw [kget?_kmod, if_pos rfl, move]
    simp [last]
  unfold State.pageOut
  dsimp only
  rw [left, stream]
  dsimp only
  rw [if_neg (by simp), if_neg open_]
  exact ⟨_, _, rfl, rfl⟩

/-- The last page of a park leaves its frame (R278). -/
theorem State.moveOutEnds_last {m : PageMove} (held : kget? s.pages.table (pageKey n page) = some e)
    (move : kget? s.pages.moves n = some m) (last : m.left = [page]) (stream : s.stream? n = some x)
    (open_ : x.state ≠ .ending) (clean : Bool) : ∃ moves v, s.moveOutEnds n page clean .done =
      { s with pages := s.parkedPage n page e clean moves, srv := v } := by
  obtain ⟨moves, v, out, streams⟩ := State.pageOut_last (s := { s with
    pages := s.parkedPage n page e clean s.pages.moves }) move last stream open_ (if clean then 0 else 1)
  have settled : ((s.pageIn n page clean).pageOut n (if clean then 0 else 1)).settleEnding n =
      { s with pages := s.parkedPage n page e clean moves, srv := v } := by
    rw [State.pageIn_eq held, out]
    refine State.settleEnding_of_open fun y now => ?_
    have found : kget? v.streams n = some y := now
    rw [streams, kget?_kmod, if_pos rfl] at found
    obtain ⟨z, old, rfl⟩ := Option.map_eq_some_iff.1 found
    rw [show z = x from Option.some.inj (old.symm.trans stream)]
    exact open_
  exact ⟨moves, v, settled⟩

theorem exec_pageParked (held : kget? s.pages.table (pageKey n page) = some e) (moving : e.state = .movingOut)
    {clean : Bool} (copies : clean = (e.hostValid && !e.dirty)) {r : State}
    (read : r = if clean then s.stamp cyc else ((s.stamp cyc).pageRead e.frame).2)
    (good : clean = true ∨ ((s.stamp cyc).pageRead e.frame).1 = false) :
    exec (.pageParked cyc n page .done) s = .next (r.moveOutEnds n page clean .done) := by
  have run : exec (.pageParked cyc n page .done) s = execPageParked cyc n page .done s := rfl
  rw [run, execPageParked, held]
  dsimp only
  rw [if_neg (not_not.2 moving), ← copies]
  subst read
  cases clean with
  | true => rfl
  | false => simp [good.resolve_left Bool.false_ne_true]

/-! ### A page comes back -/

theorem exec_unparkPageStart {rest : List (Nat × Nat)} {f : Nat} {frames : List Nat}
    (waits : s.pages.frameWait = (n, page) :: rest) (free : s.pages.freeFrames = f :: frames) (up : s.hlk.up = true) :
    exec (.unparkPageStart cyc n page) s = .next { s.stamp cyc with pages := { s.pages with
      frameWait := rest, freeFrames := frames
      table := kmod s.pages.table (pageKey n page) fun x => { x with state := .movingIn, frame := f } } } := by
  have run : exec (.unparkPageStart cyc n page) s = execUnparkPageStart cyc n page s := rfl
  rw [run, execUnparkPageStart, waits, free]
  exact if_pos (by simp [up])

/-- Stream-engine writes change memory and, where one is refused, what was raised (R259). -/
theorem State.engineWrite_eq (s : State) (mpa : Nat) (data : List Byte) : ∃ m v, s.engineWrite mpa data =
    { s with mem := m, srv := v } ∧ v.streams = s.srv.streams := by
  unfold State.engineWrite
  split
  · exact ⟨_, _, rfl, State.raiseFor_streams _ _ _ _ _ _⟩
  · exact ⟨_, _, rfl, rfl⟩

theorem State.pageWrite_eq (s : State) (frame : Nat) (data : List Byte) : ∃ m v, s.pageWrite frame data =
    { s with mem := m, srv := v } ∧ v.streams = s.srv.streams := by
  unfold State.pageWrite
  generalize (s.pageSectors frame).zipIdx = l
  induction l generalizing s with
  | nil => exact ⟨_, _, rfl, rfl⟩
  | cons e l ih =>
    obtain ⟨m, v, wrote, streams⟩ := s.engineWrite_eq e.1 ((List.range 64).map fun j => data.getD (64 * e.2 + j) 0)
    obtain ⟨m', v', rest, streams'⟩ := ih (s.engineWrite e.1 ((List.range 64).map fun j => data.getD (64 * e.2 + j) 0))
    refine ⟨m', v', ?_, by rw [streams', wrote, streams]⟩
    rw [List.foldl_cons, rest, wrote]

/-- A page that is back is RESIDENT with a valid copy (R278). -/
theorem State.pageBack_eq (s : State) (n page : Nat) : ∃ moves, s.pageBack n page = { s with pages := { s.pages with
    table := kmod s.pages.table (pageKey n page) fun x => { x with
      state := .resident, hostValid := true, dirty := false }
    bytesIn := sat 64 (s.pages.bytesIn + s.pageBytes), moves := moves } } := ⟨_, rfl⟩

/-- The unpark that is complete says so to the stream, and takes no other page. -/
theorem State.unparkDone_eq (s : State) (n : Nat) : ∃ moves v, s.unparkDone n =
    { s with pages := { s.pages with moves := moves }, srv := v } ∧
    ((∀ x, s.stream? n = some x → x.state ≠ .ending) → ∀ x, kget? v.streams n = some x → x.state ≠ .ending) := by
  unfold State.unparkDone
  split
  · exact ⟨_, _, rfl, fun h => h⟩
  · next x held =>
    dsimp only
    split
    · exact ⟨_, _, rfl, fun h => h⟩
    · next open_ =>
      refine ⟨_, _, rfl, fun _ y now => ?_⟩
      have found : kget? (kmod s.srv.streams n fun y => { y with
          state := if y.state = .parked then .idle else y.state, unparkTag := none }) n = some y := now
      rw [kget?_kmod, if_pos rfl] at found
      obtain ⟨z, old, rfl⟩ := Option.map_eq_some_iff.1 found
      obtain rfl : z = x := Option.some.inj (old.symm.trans held)
      dsimp only
      split
      · nofun
      · exact open_

theorem State.moveInEnds_done (open_ : ∀ x, s.stream? n = some x → x.state ≠ .ending) : ∃ moves v,
    s.moveInEnds n page .done = { s with srv := v, pages := { s.pages with
      table := kmod s.pages.table (pageKey n page) fun x => { x with
        state := .resident, hostValid := true, dirty := false }
      bytesIn := sat 64 (s.pages.bytesIn + s.pageBytes), moves := moves } } := by
  obtain ⟨moves, back⟩ := s.pageBack_eq n page
  have ends : ∃ u : State, s.moveInEnds n page .done = u.settleEnding n ∧
      (u = s.pageBack n page ∨ u = (s.pageBack n page).unparkDone n) := by
    unfold State.moveInEnds
    dsimp only
    refine ⟨_, rfl, ?_⟩
    split
    · exact .inr rfl
    · exact .inl rfl
  obtain ⟨u, ends, same | done⟩ := ends
  · rw [ends, same, State.settleEnding_of_open (by rw [back]; exact open_), back]
    exact ⟨_, _, rfl⟩
  · obtain ⟨moves', v, eq, kept⟩ := (s.pageBack n page).unparkDone_eq n
    have open' := kept (by rw [back]; exact open_)
    have settled := State.settleEnding_of_open (n := n) (s := { s.pageBack n page with
      pages := { (s.pageBack n page).pages with moves := moves' }, srv := v }) open'
    rw [ends, done, eq, settled, back]
    exact ⟨_, _, rfl⟩

theorem exec_pageUnparked (held : kget? s.pages.table (pageKey n page) = some e) (moving : e.state = .movingIn)
    (data : List Byte) : exec (.pageUnparked cyc n page { ending := .done, data := data }) s =
      .next (((s.stamp cyc).pageWrite e.frame data).moveInEnds n page .done) := by
  have run : exec (.pageUnparked cyc n page { ending := .done, data := data }) s =
    execPageUnparked cyc n page { ending := .done, data := data } s := rfl
  rw [run, execPageUnparked, held]
  dsimp only
  rw [if_neg (not_not.2 moving), if_pos rfl]

end

/-- Settles O15: each move by the pages that it leaves. -/
theorem pagesMove : Obligations.PagesMove := by
  unfold Obligations.PagesMove
  refine ⟨fun cyc n page e m x r s held moving stream open_ move last read good pages streams => ?parked,
    fun cyc n page f rest frames s waits free up => ?starts, fun cyc n page data e s held moving open_ => ?back⟩
  case parked =>
    let clean := e.hostValid && !e.dirty
    have whole : (e.hostValid = true ∧ e.dirty = false) ↔ clean = true := by simp [clean]
    simp only [whole] at read good ⊢
    have held' : kget? r.pages.table (pageKey n page) = some e := by rw [pages]; exact held
    have move' : kget? r.pages.moves n = some m := by rw [pages]; exact move
    have stream' : r.stream? n = some x := by rw [State.stream?, streams]; exact stream
    obtain ⟨moves, v, ends⟩ := State.moveOutEnds_last held' move' last stream' open_ clean
    refine ⟨_, exec_pageParked held moving rfl read good, ?_⟩
    rw [ends]
    simp only [State.parkedPage, pages]
    exact ⟨by rw [kget?_kmod, if_pos rfl, held]; rfl, fun k other => by rw [kget?_kmod, if_neg other], trivial, rfl, rfl,
      by rw [← pages]⟩
  case starts =>
    exact ⟨_, exec_unparkPageStart waits free up, rfl, rfl, by rw [kget?_kmod, if_pos rfl],
      fun k other => by rw [kget?_kmod, if_neg other], rfl⟩
  case back =>
    obtain ⟨m, v, wrote, streams⟩ := (s.stamp cyc).pageWrite_eq e.frame data
    have open' : ∀ x, ((s.stamp cyc).pageWrite e.frame data).stream? n = some x → x.state ≠ .ending := by
      intro x now
      refine open_ x ?_
      rw [wrote] at now
      exact (congrArg (kget? · n) streams).symm.trans now
    obtain ⟨moves, v', ends⟩ := State.moveInEnds_done (page := page) open'
    refine ⟨_, exec_pageUnparked held moving data, ?_⟩
    rw [ends, wrote]
    exact ⟨by rw [kget?_kmod, if_pos rfl]; exact congrArg (Option.map _) held,
      fun k other => by rw [kget?_kmod, if_neg other]; rfl, rfl, rfl, rfl, rfl⟩

end Sys2Proof.Machine
end

section
/-! PROOFS. The stacks of the weight store (R286, R289 to R291). -/

namespace Sys2Proof.Machine

section
variable {s : State} {cyc stack : Nat}

theorem State.stack_modStoreStack_self {f : StoreStack → StoreStack} (present : stack < s.store.flash.length) :
    (s.modStoreStack stack f).store.stack stack = f (s.store.stack stack) := lget_lmod_self present f

theorem State.stack_modStoreStack_ne {f : StoreStack → StoreStack} {k : Nat} (other : k ≠ stack) :
    (s.modStoreStack stack f).store.stack k = s.store.stack k := lget_lmod_ne _ other f

/-! ### Reads (R286) -/

theorem Store.stack_unfailed {t : Store} (alive : ∀ x ∈ t.flash, x.state ≠ .failed) (n : Nat) :
    (t.stack n).state ≠ .failed := by
  unfold Store.stack lget
  by_cases inside : n < t.flash.length
  · rw [List.getD_eq_getElem _ _ inside]
    exact alive _ (List.getElem_mem inside)
  · rw [List.getD_eq_default _ _ (by omega)]
    nofun

/-- `t` differs from `s` in the flash stacks alone. -/
def State.flashMoved (s t : State) : Prop := ∃ x, t = { s with store := { s.store with flash := x } }

theorem State.flashMoved.modStoreStack {s t : State} (h : s.flashMoved t) (n : Nat) (f : StoreStack → StoreStack) :
    s.flashMoved (t.modStoreStack n f) := by
  obtain ⟨x, rfl⟩ := h
  exact ⟨_, rfl⟩

/-- Reads of extents count on their stacks: nothing else of the store, and nothing outside it. -/
theorem State.foldl_readExtent (tag n : Nat) (bytes : Nat → Nat) (extents : List Nat) (s : State) :
    s.flashMoved (extents.foldl (fun s i => s.readExtent tag n i (bytes i)) s) := by
  induction extents generalizing s with
  | nil => exact ⟨_, rfl⟩
  | cons i extents ih =>
    obtain ⟨x, rest⟩ := ih (s.readExtent tag n i (bytes i))
    exact ⟨x, rest⟩

/-- What a port sends changes the fabric alone. -/
theorem State.portEmit_eq (s : State) (i : Nat) : ∃ f, s.portEmit i = { s with fab := f } := by
  unfold State.portEmit
  dsimp only
  (repeat' split) <;> exact ⟨_, rfl⟩

theorem State.storeReadDone_eq (s : State) (i read : Nat) (got : List Host.Cell) (bad : Bool) : ∃ f,
    s.storeReadDone i read got bad = { s with fab := f } ∧ f.guardZero = s.clock := by
  unfold State.storeReadDone
  obtain ⟨f, emitted⟩ := State.portEmit_eq (s.modStation i fun x =>
    { x with reads := x.reads.map fun y =>
        if y.wants.contains read then { y with wants := y.wants.erase read, got := got, poison := y.poison || bad }
        else y }) i
  rw [emitted]
  exact ⟨_, rfl, rfl⟩

theorem State.flashMoved.storeReadDone {s t : State} (h : s.flashMoved t) (i read : Nat) (got : List Host.Cell)
    (bad : Bool) : ∃ x f, Host.Outcome.next (φ := Fault) (ρ := Refusal) (t.storeReadDone i read got bad) =
      Host.Outcome.next { s with store := { s.store with flash := x }, fab := f } ∧ f.guardZero = s.clock := by
  obtain ⟨x, rfl⟩ := h
  obtain ⟨f, done, guard⟩ := State.storeReadDone_eq { s with store := { s.store with flash := x } } i read got bad
  exact ⟨x, f, congrArg _ done, guard⟩

theorem exec_storeReadComplete {read retries i : Nat} {r : PortRead} (asked : s.storeRead? read = some (i, r))
    (alive : ∀ x ∈ s.store.flash, x.state ≠ .failed) : ∃ x f,
      exec (.storeReadComplete cyc read retries true) s = .next { s.stamp cyc with
        store := { s.store with flash := x }, fab := f } ∧ f.guardZero = (s.stamp cyc).clock := by
  have run : exec (.storeReadComplete cyc read retries true) s = execStoreReadComplete cyc read retries true s := rfl
  rw [run, execStoreReadComplete, asked]
  have unfailed : ∀ (n : Nat) (extents : List Nat), (extents.any fun i =>
      ((s.stamp cyc).store.stack ((n + i) % 8)).state = .failed) = false := by
    intro n extents
    simp only [List.any_eq_false, decide_eq_true_eq]
    exact fun i _ => Store.stack_unfailed alive _
  simp only [unfailed, Bool.not_true, Bool.or_self, Bool.false_eq_true, if_false]
  exact ((State.foldl_readExtent _ _ _ _ (s.stamp cyc)).modStoreStack _ _).storeReadDone i read _ _

/-! ### Relocation, INIT and failure (R289 to R291) -/

theorem exec_blockRelocate {block : Nat} (inside : stack < 8) (ready : (s.store.stack stack).state = .ready)
    (worn : s.reg Reg.STO_DISTURB_LIMIT ≤ kgetD (s.store.stack stack).disturb block 0) : ∃ state : StoreStack → StoreStackState,
      exec (.blockRelocate cyc stack block) s = .next ((s.stamp cyc).draw.2.modStoreStack stack fun x => { x with
        disturb := kdel x.disturb block, touched := kdel x.touched block, relocations := sat 32 (x.relocations + 1)
        spareBlocks := (s.store.stack stack).spareBlocks - Config.freeValue s.free % 2, state := state x }) := by
  have run : exec (.blockRelocate cyc stack block) s = execBlockRelocate cyc stack block s := rfl
  rw [run, execBlockRelocate, onUnit_true (by simpa using inside)]
  have young : ¬ kgetD (s.store.stack stack).disturb block 0 < s.reg Reg.STO_DISTURB_LIMIT := Nat.not_lt.2 worn
  simp only [ready, StoreStackState.serves, young]
  exact ⟨_, rfl⟩

theorem exec_stoStackInitComplete (spares wear : Nat) (inside : stack < 8)
    (init : (s.store.stack stack).state = .init) : ∃ r, exec (.stoStackInitComplete stack spares wear) s = .next { s with
      store := (s.modStoreStack stack fun x => { x with
        state := if spares ≤ relocationReserve then .readOnly else .ready
        spareBlocks := spares % 2 ^ 32, wear := wear % 256 }).store
      ras := r } ∧ (stack = 0 ∨ stack = 4 → s.ras.sets = [] → r.sets = s.ras.storedSets) := by
  have run : exec (.stoStackInitComplete stack spares wear) s = execStoStackInitComplete stack spares wear s := rfl
  rw [run, execStoStackInitComplete, onUnit_true (by simpa using inside), if_pos init]
  dsimp only
  split
  · next aside => exact ⟨_, rfl, fun first => by omega⟩
  · exact ⟨_, rfl, fun _ empty => by simp [empty, State.modStoreStack]⟩

@[simp] theorem State.leaveTemplate_store (s : State) (n : Nat) (x : Stream) :
    (s.leaveTemplate n x).store = s.store := by
  unfold State.leaveTemplate
  split <;> rfl

@[simp] theorem State.dropStream_store (s : State) (n : Nat) : (s.dropStream n).store = s.store := by
  unfold State.dropStream
  split
  · rfl
  · next x held =>
    dsimp only
    split <;> exact State.leaveTemplate_store _ n x

theorem State.refuseHeld_store (s : State) : s.refuseHeld.store = s.store := by
  refine State.keeps_foldl (fun t => t.store) (fun t e => ?_) _ s
  split
  · rfl
  · exact t.dropStream_store e.1

/-- A switch that ends leaves the stacks alone (R308). -/
theorem State.endSwitch_store (s : State) (result : Nat) : (s.endSwitch result).store.flash = s.store.flash ∧
    (s.endSwitch result).store.switchState = .idle ∧ (s.endSwitch result).store.switchResult = result := by
  unfold State.endSwitch
  dsimp only
  split
  · refine ⟨?_, rfl, rfl⟩
    exact (congrArg Store.flash s.dropIncoming.refuseHeld_store).trans rfl
  · exact ⟨rfl, rfl, rfl⟩

theorem State.markCorrupt_store (s : State) (tag n : Nat) : (s.markCorrupt tag n).store.flash = s.store.flash ∧
    (s.markCorrupt tag n).store.switchState = s.store.switchState := by
  unfold State.markCorrupt
  (repeat' split)
  · exact ⟨rfl, rfl⟩
  · exact ⟨rfl, rfl⟩
  · simp [Store.modShard, Store.setCatalogue]

theorem State.foldl_markCorrupt_store (hit : List (Nat × Nat)) (s : State) :
    (hit.foldl (fun t e => t.markCorrupt e.1 e.2) s).store.flash = s.store.flash ∧
    (hit.foldl (fun t e => t.markCorrupt e.1 e.2) s).store.switchState = s.store.switchState :=
  ⟨State.keeps_foldl (fun t => t.store.flash) (fun t e => (t.markCorrupt_store e.1 e.2).1) hit s,
    State.keeps_foldl (fun t => t.store.switchState) (fun t e => (t.markCorrupt_store e.1 e.2).2) hit s⟩

theorem State.storeLost_store (s : State) : s.storeLost.store.flash = s.store.flash ∧
    (s.store.switchState = .staging →
      s.storeLost.store.switchState = .idle ∧ s.storeLost.store.switchResult = Status.STO_STORE_OFF) := by
  unfold State.storeLost
  split
  · exact ⟨(s.endSwitch_store _).1, fun _ => (s.endSwitch_store _).2⟩
  · next other => exact ⟨rfl, fun staging => absurd staging other⟩

theorem exec_storeStackFailure (inside : stack < 8) (serves : (s.store.stack stack).state.serves = true) :
    ∃ t, exec (.storeStackFailure cyc stack) s = .next t ∧
      t.store.flash = lmod s.store.flash stack (fun x => { x with state := .failed }) ∧
      (s.store.switchState = .staging → t.store.switchState = .idle ∧ t.store.switchResult = Status.STO_STORE_OFF) := by
  have run : exec (.storeStackFailure cyc stack) s = execStoreStackFailure cyc stack s := rfl
  rw [run, execStoreStackFailure, onUnit_true (by simpa using inside)]
  simp only [serves, Bool.not_true, Bool.false_eq_true, if_false]
  obtain ⟨flash, switch⟩ := State.foldl_markCorrupt_store (s.store.catalogue.flatMap fun p =>
    (p.shards.zipIdx.filter fun e => 0 < extentsOn e.2 e.1.extents stack).map fun e => (p.manifest.tag, e.2))
    (((s.stamp cyc).modStoreStack stack fun x => { x with state := .failed }).raise 0x0603 stack 0 0)
  exact ⟨_, rfl, ((State.storeLost_store _).1.trans flash).trans (by simp; rfl),
    fun staging => (State.storeLost_store _).2 (switch.trans (by simpa [State.modStoreStack] using staging))⟩

end

/-- Settles O16: each command by the stack that it changes. -/
theorem storeStacksAreTended : Obligations.StoreStacksAreTended := by
  unfold Obligations.StoreStacksAreTended
  refine ⟨fun cyc read retries i r s asked alive => ?read, fun cyc stack block s inside present ready worn => ?relocated,
    fun stack spares wear s inside present init => ?init, fun cyc stack s inside present serves => ?failed⟩
  case read =>
    obtain ⟨x, f, ran, guard⟩ := exec_storeReadComplete (cyc := cyc) (retries := retries) asked alive
    exact ⟨_, ran, rfl, guard, rfl⟩
  case relocated =>
    obtain ⟨state, ran⟩ := exec_blockRelocate (cyc := cyc) inside ready worn
    refine ⟨_, ran, ?_, ?_, ?_, fun k other => ?_, rfl, rfl⟩
    · rw [State.stack_modStoreStack_self (s := (s.stamp cyc).draw.2) present]; rfl
    · rw [State.stack_modStoreStack_self (s := (s.stamp cyc).draw.2) present]; rfl
    · rw [State.stack_modStoreStack_self (s := (s.stamp cyc).draw.2) present]
    · exact State.stack_modStoreStack_ne other
  case init =>
    obtain ⟨r, ran, sets⟩ := exec_stoStackInitComplete spares wear inside init
    exact ⟨_, ran, State.stack_modStoreStack_self present, fun k other => State.stack_modStoreStack_ne other, sets, rfl⟩
  case failed =>
    obtain ⟨t, ran, flash, switch⟩ := exec_storeStackFailure (cyc := cyc) inside serves
    refine ⟨t, ran, ?_, fun k other => ?_, switch⟩
    · rw [Store.stack, flash, lget_lmod_self present]
    · rw [Store.stack, flash, lget_lmod_ne _ other]; rfl

end Sys2Proof.Machine
end

section
/-! PROOFS. The operations of the weight store (R298 to R303, R313). -/

namespace Sys2Proof.Machine

section
variable {s : State} {cyc source tag length : Nat}

/-! ### The store commands (R298, R299) -/

/-- `t` is `s` with an operation of the store begun: what leaves its operands in the configuration is said apart. -/
def State.opBegun (s t : State) (cmd tag length : Nat) : Prop :=
  t.store = { s.store with opState := .running, opCmd := cmd, opResult := 0, opProgress := 0, opTag := tag,
                           opLength := length } ∧
  t.dict = { s.dict with lastStatus := Status.OK } ∧ { t with store := s.store, regs := s.regs, dict := s.dict } = s

/-- The operands that a store command leaves in the configuration objects. -/
def State.opOperands (s : State) (cmd source tag length : Nat) : State :=
  let t := s.setReg Reg.STO_OP_CMD cmd
  let t := if cmd = 2 || cmd = 4 then t
    else (t.setReg Reg.STO_OP_SOURCE source).setReg Reg.STO_OP_LENGTH length
  if cmd = 1 || cmd = 3 then t else t.setReg Reg.STO_OP_TAG tag

theorem State.opOperands_eq (s : State) (cmd source tag length : Nat) :
    ∃ r, s.opOperands cmd source tag length = { s with regs := r } := by
  unfold State.opOperands
  dsimp only
  split <;> split <;> exact ⟨_, rfl⟩

/-- A command that no rule refuses writes its operands and begins its operation. -/
theorem State.commitOp_accepted {cmd : Nat} (allowed : s.opRefusal cmd source tag length = none) :
    s.commitOp cmd source tag length =
      ((s.opOperands cmd source tag length).startOp cmd tag length).status Status.OK := by
  unfold State.commitOp
  rw [allowed]
  rfl

theorem State.commitOp_begun {cmd : Nat} (allowed : s.opRefusal cmd source tag length = none) :
    s.opBegun (s.commitOp cmd source tag length) cmd tag length := by
  obtain ⟨r, operands⟩ := s.opOperands_eq cmd source tag length
  rw [State.commitOp_accepted allowed, operands]
  exact ⟨rfl, rfl, rfl⟩

@[simp] theorem State.reg_begun (s : State) (cmd tag length code k : Nat) :
    ((s.startOp cmd tag length).status code).reg k = s.reg k := rfl

theorem State.ksorted_setReg {key v : Nat} (ordered : ksorted s.regs = true) : ksorted (s.setReg key v).regs = true :=
  Machine.ksorted_setReg key v ordered

/-- An install, of a package or of an adapter, leaves its command, source and length. -/
theorem State.commitOp_install {cmd : Nat} (ordered : ksorted s.regs = true)
    (allowed : s.opRefusal cmd source tag length = none) (install : cmd = 1 ∨ cmd = 3) :
    (s.commitOp cmd source tag length).reg Reg.STO_OP_CMD = cmd ∧
    (s.commitOp cmd source tag length).reg Reg.STO_OP_SOURCE = source ∧
    (s.commitOp cmd source tag length).reg Reg.STO_OP_LENGTH = length := by
  have notDelete : ¬ (cmd = 2 ∨ cmd = 4) := by omega
  rw [State.commitOp_accepted allowed]
  simp only [State.reg_begun, State.opOperands, Bool.or_eq_true, decide_eq_true_eq, notDelete, install, if_false, if_true]
  refine ⟨?_, ?_, State.reg_setReg_self _ _ _ (State.ksorted_setReg (State.ksorted_setReg ordered))⟩
  · rw [State.reg_setReg_ne _ _ (by decide), State.reg_setReg_ne _ _ (by decide), State.reg_setReg_self _ _ _ ordered]
  · rw [State.reg_setReg_ne _ _ (by decide), State.reg_setReg_self _ _ _ (State.ksorted_setReg ordered)]

/-- A delete leaves its command and tag. -/
theorem State.commitOp_delete {cmd : Nat} (ordered : ksorted s.regs = true)
    (allowed : s.opRefusal cmd source tag length = none) (delete : cmd = 2 ∨ cmd = 4) :
    (s.commitOp cmd source tag length).reg Reg.STO_OP_CMD = cmd ∧
    (s.commitOp cmd source tag length).reg Reg.STO_OP_TAG = tag := by
  have notInstall : ¬ (cmd = 1 ∨ cmd = 3) := by omega
  rw [State.commitOp_accepted allowed]
  simp only [State.reg_begun, State.opOperands, Bool.or_eq_true, decide_eq_true_eq, delete, notInstall, if_false, if_true]
  refine ⟨?_, State.reg_setReg_self _ _ _ (State.ksorted_setReg ordered)⟩
  rw [State.reg_setReg_ne _ _ (by decide), State.reg_setReg_self _ _ _ ordered]

/-- A repair leaves all its operands. -/
theorem State.commitOp_repair (ordered : ksorted s.regs = true)
    (allowed : s.opRefusal 5 source tag length = none) :
    (s.commitOp 5 source tag length).reg Reg.STO_OP_CMD = 5 ∧ (s.commitOp 5 source tag length).reg Reg.STO_OP_TAG = tag ∧
    (s.commitOp 5 source tag length).reg Reg.STO_OP_SOURCE = source ∧
    (s.commitOp 5 source tag length).reg Reg.STO_OP_LENGTH = length := by
  rw [State.commitOp_accepted allowed]
  simp only [State.reg_begun, State.opOperands, Bool.or_eq_true, decide_eq_true_eq, Nat.reduceEqDiff, or_self, if_false]
  have source_set := State.ksorted_setReg (key := Reg.STO_OP_SOURCE) (v := source)
    (State.ksorted_setReg (key := Reg.STO_OP_CMD) (v := 5) ordered)
  refine ⟨?_, State.reg_setReg_self _ _ _ (State.ksorted_setReg source_set), ?_, ?_⟩
  · rw [State.reg_setReg_ne _ _ (by decide), State.reg_setReg_ne _ _ (by decide), State.reg_setReg_ne _ _ (by decide),
      State.reg_setReg_self _ _ _ ordered]
  · rw [State.reg_setReg_ne _ _ (by decide), State.reg_setReg_ne _ _ (by decide),
      State.reg_setReg_self _ _ _ (State.ksorted_setReg ordered)]
  · rw [State.reg_setReg_ne _ _ (by decide), State.reg_setReg_self _ _ _ source_set]

theorem State.commitMode_install (idle : s.store.switchState = .idle) (noSpill : ∀ r, s.store.active = some r → r.plan = 0) :
    s.commitMode 1 = (({ s with store := { s.store with installMode := true } }.setReg Reg.STO_MODE 1).status Status.OK) := by
  have spill : (s.store.active.any fun r => r.plan != 0) = false := by
    cases active : s.store.active with
    | none => rfl
    | some r => simp [noSpill r active]
  unfold State.commitMode
  simp [spill, idle]

/-- A setting that is written reads back, whatever the answer of the write. -/
theorem State.reg_written (ordered : ksorted s.regs = true) (key v code : Nat) :
    ((s.setReg key v).status code).reg key = v := State.reg_setReg_self s key v ordered

/-! ### The operations (R299 to R303) -/

theorem exec_storeOpComplete_delete (b : BundleRead) (running : s.store.opState = .running)
    (delete : s.store.opCmd = 2 ∨ s.store.opCmd = 4) :
    exec (.storeOpComplete cyc b) s = .next (s.stamp cyc).deleteOp := by
  have run : exec (.storeOpComplete cyc b) s = execStoreOpComplete cyc b s := rfl
  rw [run, execStoreOpComplete, if_neg (not_not.2 running)]
  dsimp only
  split
  · rfl
  · rfl
  · next cmd other other' =>
    obtain two | four := delete
    · exact absurd two other
    · exact absurd four other'

theorem exec_storeOpComplete_source (b : BundleRead) (running : s.store.opState = .running)
    (install : s.store.opCmd = 1 ∨ s.store.opCmd = 3 ∨ s.store.opCmd = 5) (lost : b.readError = true ∨ s.hlk.up = false) :
    exec (.storeOpComplete cyc b) s = .next ((s.stamp cyc).finishOp Status.STO_SOURCE_ERROR) := by
  have run : exec (.storeOpComplete cyc b) s = execStoreOpComplete cyc b s := rfl
  have unread : (b.readError || !(s.stamp cyc).hlk.up) = true := by simpa using lost
  rw [run, execStoreOpComplete, if_neg (not_not.2 running)]
  dsimp only
  split
  · next two => have : s.store.opCmd = 2 := two; omega
  · next four => have : s.store.opCmd = 4 := four; omega
  · rw [if_pos unread]

theorem exec_storeOpComplete_install {b : BundleRead} (running : s.store.opState = .running) (install : s.store.opCmd = 1)
    (readable : b.readError = false) (up : s.hlk.up = true) (inside : s.bundleInside = true) :
    exec (.storeOpComplete cyc b) s = .next ((s.stamp cyc).installOp (b.bytes.take s.store.opLength)) := by
  have run : exec (.storeOpComplete cyc b) s = execStoreOpComplete cyc b s := rfl
  have read : (b.readError || !(s.stamp cyc).hlk.up) = false := by simpa using ⟨readable, up⟩
  have bundle : (!(s.stamp cyc).bundleInside) = false := congrArg (! ·) inside
  have command : (s.stamp cyc).store.opCmd = 1 := install
  rw [run, execStoreOpComplete, if_neg (not_not.2 running)]
  simp only [command, read, bundle, Bool.false_eq_true, if_false]
  rfl

@[simp] theorem State.verify_store (s : State) (what : Item) (item : List Byte) :
    (s.verify what item).2.store = s.store := by
  unfold State.verify
  split <;> simp

@[simp] theorem State.readBundle_store (s : State) (adapters : Bool) (b : List Byte) :
    (s.readBundle adapters b).2.store = s.store := by
  unfold State.readBundle
  dsimp only
  (repeat' split) <;> simp

theorem State.flashMoved.trans {s t u : State} (h : s.flashMoved t) (h' : t.flashMoved u) : s.flashMoved u := by
  obtain ⟨x, rfl⟩ := h
  obtain ⟨y, rfl⟩ := h'
  exact ⟨y, rfl⟩

theorem State.readShard_moved (s : State) (tag n : Nat) : s.flashMoved (s.readShard tag n) :=
  State.foldl_readExtent tag n _ _ s

theorem State.foldl_readShard (tag : Nat) (l : List Nat) (s : State) :
    s.flashMoved (l.foldl (fun s n => s.readShard tag n) s) := by
  induction l generalizing s with
  | nil => exact ⟨_, rfl⟩
  | cons n l ih => exact (s.readShard_moved tag n).trans (ih _)

theorem State.readBack_moved (s : State) (tag : Nat) (p : Nat → Shard → Bool) : s.flashMoved (s.readBack tag p) :=
  State.foldl_readShard tag _ s

theorem State.flashMoved.catalogue {s t : State} (h : s.flashMoved t) : t.store.catalogue = s.store.catalogue := by
  obtain ⟨x, rfl⟩ := h
  rfl

/-- An operation that ends is DONE with the result OK, and FAILED with any other. -/
theorem State.finishOp_ended (s : State) (result : Nat) : (s.finishOp result).store.opState ≠ .running ∧
    ((s.finishOp result).store.opState = .failed → result ≠ Status.OK) := by
  unfold State.finishOp
  by_cases ok : result = Status.OK
  · simp [ok]
  · simp [ok]

/-- An INSTALL ends, and where it fails the catalogue is what it was (R300). -/
theorem State.installOp_ended (s : State) (b : List Byte) : (s.installOp b).store.opState ≠ .running ∧
    ((s.installOp b).store.opState = .failed → (s.installOp b).store.catalogue = s.store.catalogue) := by
  have kept (t : State) (same : t.store = s.store) (result : Nat) : (t.finishOp result).store.opState ≠ .running ∧
      ((t.finishOp result).store.opState = .failed → (t.finishOp result).store.catalogue = s.store.catalogue) :=
    ⟨(t.finishOp_ended result).1, fun _ => (congrArg Store.catalogue same :)⟩
  have read := s.readBundle_store false b
  unfold State.installOp
  split
  · next e t bundle => exact kept t (by rw [bundle] at read; exact read) _
  · next mb shards short t bundle =>
    have same : t.store = s.store := by rw [bundle] at read; exact read
    dsimp only
    split
    · exact kept t same _
    · split
      · exact kept t same _
      · split
        · exact kept t same _
        · split
          · exact kept t same _
          · split
            · exact ⟨by unfold State.digestFailed State.finishOp; dsimp only; split <;> nofun,
                fun _ => (congrArg Store.catalogue same :)⟩
            · exact ⟨(State.finishOp_ended _ _).1, fun failed => absurd rfl ((State.finishOp_ended _ _).2 failed)⟩

/-- An INSTALL whose bundle passes every check puts its package in (R300). -/
theorem State.installOp_passed {u : State} {mb : List Byte} {shards : List Shard} (b : List Byte)
    (bundle : s.readBundle false b = (.ok (mb, shards, false), u)) (ok : packageOk (parseManifest false mb) shards = true)
    (adapters : ∀ x ∈ shards, x.optional = true → x.kind = 3)
    (new : s.store.package? (parseManifest false mb).tag = none) (room : s.store.noRoom shards (·.present) = none)
    (digests : digestsMatch shards = true) :
    (s.installOp b).store.opState = .done ∧ (s.installOp b).store.opResult = Status.OK ∧
    (s.installOp b).store.catalogue = insertPackage
      { manifest := parseManifest false mb, kind := 1, baseTag := 0, shards := shards } s.store.catalogue := by
  have same : u.store = s.store := by have read := s.readBundle_store false b; rw [bundle] at read; exact read
  have optional : (shards.any fun x => x.optional && x.kind != 3) = false := by
    simpa only [List.any_eq_false, Bool.and_eq_true, bne_iff_ne, not_and, not_not] using adapters
  have absent : (u.store.package? (parseManifest false mb).tag).isSome = false := by rw [same, new]; rfl
  unfold State.installOp
  rw [bundle]
  rw [← same] at room ⊢
  simp only [ok, optional, absent, room, digests, Bool.not_true, Bool.or_self, Bool.false_eq_true, if_false]
  exact ⟨rfl, rfl, (State.readBack_moved _ _ _).catalogue⟩

/-! ### The patrol (R313) -/

/-- The shard of a package, by its place in the manifest. -/
def Store.shard? (t : Store) (tag n : Nat) : Option Shard := (t.package? tag).bind fun p => p.shards[n]?

/-- A change to one shard of a package is read back. -/
theorem shard?_map {l : List StoredPackage} {n : Nat} (f : Shard → Shard) :
    ((l.map fun p => if p.manifest.tag = tag then { p with shards := lmod p.shards n f } else p).find?
      fun p => p.manifest.tag = tag).bind (fun p => p.shards[n]?) =
    ((l.find? fun p => p.manifest.tag = tag).bind fun p => p.shards[n]?).map f := by
  induction l with
  | nil => rfl
  | cons p l ih =>
    by_cases here : p.manifest.tag = tag
    · simp [here, lmod]
    · simpa [here] using ih

theorem Store.shard?_modShard (t : Store) (n : Nat) (f : Shard → Shard) :
    (t.modShard tag n f).shard? tag n = (t.shard? tag n).map f := shard?_map f

theorem State.shard?_setPatrolFails (s : State) (n fails : Nat) :
    (s.setPatrolFails tag n fails).store.shard? tag n =
      (s.store.shard? tag n).map fun y => { y with patrolFails := fails } := shard?_map _

theorem State.shard?_markCorrupt {n : Nat} {x : Shard} (held : s.store.shard? tag n = some x) (present : x.present = true)
    (sound : x.corrupt = false) : (s.markCorrupt tag n).store.shard? tag n = some { x with corrupt := true } := by
  have found : ((s.store.package? tag).bind fun p => p.shards[n]?) = some x := held
  unfold State.markCorrupt
  simp only [found, present, sound, Bool.not_true, Bool.or_self, Bool.false_eq_true, if_false, State.raise_store,
    Store.shard?_modShard, held, Option.map_some]

theorem State.flashMoved.shard? {s t : State} (h : s.flashMoved t) (n : Nat) :
    t.store.shard? tag n = s.store.shard? tag n := by
  obtain ⟨x, rfl⟩ := h
  rfl

theorem exec_storePatrol {shard : Nat} {x : Shard} (matched : Bool) (held : s.store.shard? tag shard = some x)
    (present : x.present = true) (sound : x.corrupt = false) (reached : s.store.reaches shard x = true) :
    ∃ t, exec (.storePatrol cyc tag shard matched) s = .next t ∧ t.store.shard? tag shard = some { x with
      patrolFails := (if matched then 0 else x.patrolFails + 1) % 3
      corrupt := decide (3 ≤ if matched then 0 else x.patrolFails + 1) } := by
  have run : exec (.storePatrol cyc tag shard matched) s = execStorePatrol cyc tag shard matched s := rfl
  have found : ((s.store.package? tag).bind fun p => p.shards[shard]?) = some x := held
  have set (fails : Nat) : (((s.stamp cyc).readShard tag shard).setPatrolFails tag shard fails).store.shard? tag shard =
      some { x with patrolFails := fails } := by
    rw [State.shard?_setPatrolFails, (State.readShard_moved _ _ _).shard?]
    exact congrArg _ held
  rw [run, execStorePatrol, found]
  simp only [present, sound, reached, Bool.not_true, Bool.or_self, Bool.false_eq_true, if_false]
  refine ⟨_, rfl, ?_⟩
  generalize (if matched = true then 0 else x.patrolFails + 1) = fails
  have sets := set (fails % 3)
  split
  · next few => rw [sets, decide_eq_false (Nat.not_le.2 few), sound, present]
  · next third => rw [State.shard?_markCorrupt sets present sound, decide_eq_true (Nat.not_lt.1 third), present]

end

/-- Settles O17: each command by the lemma about it. -/
theorem storeOperationsRun : Obligations.StoreOperationsRun := by
  unfold Obligations.StoreOperationsRun
  refine ⟨⟨fun s ordered idle noSpill => ?enter, fun s ordered => ?leave, fun s switching => ?refused,
    fun source tag length s ordered => ⟨fun ok => ?install, fun ok => ?delete, fun ok => ?adapter,
      fun ok => ?adapterDelete, fun ok => ?repair⟩, fun cmd source tag length s ready running => ?busy⟩,
    fun cyc b s running delete => ?deleted, fun cyc b s running install readable up inside => ?installed,
    fun cyc b s running install lost => ?lost, fun cyc tag shard matched p x s package held present sound reached => ?patrol⟩
  case enter =>
    have run : exec (.stoModeSet 1) s = .next (s.commitMode 1) := rfl
    rw [run, State.commitMode_install idle noSpill]
    exact ⟨_, rfl, rfl, State.reg_written (by exact ordered) _ _ _, rfl⟩
  case leave =>
    have run : exec (.stoModeSet 0) s = .next (s.commitMode 0) := rfl
    rw [run, State.commitMode]
    exact ⟨_, rfl, rfl, State.reg_written (by exact ordered) _ _ _, rfl⟩
  case refused =>
    have run : exec (.stoModeSet 1) s = .next (s.commitMode 1) := rfl
    rw [run, State.commitMode]
    simp [switching, State.status]
  case install =>
    obtain ⟨store, dict, rest⟩ := State.commitOp_begun ok
    obtain ⟨cmd, src, len⟩ := State.commitOp_install ordered ok (.inl rfl)
    exact ⟨_, rfl, store, cmd, src, len, dict, rest⟩
  case adapter =>
    obtain ⟨store, dict, rest⟩ := State.commitOp_begun ok
    obtain ⟨cmd, src, len⟩ := State.commitOp_install ordered ok (.inr rfl)
    exact ⟨_, rfl, store, cmd, src, len, dict, rest⟩
  case delete =>
    obtain ⟨store, dict, rest⟩ := State.commitOp_begun ok
    obtain ⟨cmd, tagged⟩ := State.commitOp_delete ordered ok (.inl rfl)
    exact ⟨_, rfl, store, cmd, tagged, dict, rest⟩
  case adapterDelete =>
    obtain ⟨store, dict, rest⟩ := State.commitOp_begun ok
    obtain ⟨cmd, tagged⟩ := State.commitOp_delete ordered ok (.inr rfl)
    exact ⟨_, rfl, store, cmd, tagged, dict, rest⟩
  case repair =>
    obtain ⟨store, dict, rest⟩ := State.commitOp_begun ok
    obtain ⟨cmd, tagged, src, len⟩ := State.commitOp_repair ordered ok
    exact ⟨_, rfl, store, cmd, tagged, src, len, dict, rest⟩
  case busy =>
    unfold State.opRefusal
    simp only [ready, running, Bool.not_true, Bool.false_eq_true, if_false, if_true]
  case deleted => exact ⟨_, exec_storeOpComplete_delete b running delete, rfl, rfl, rfl, rfl, rfl⟩
  case installed =>
    refine ⟨_, exec_storeOpComplete_install running install readable up inside, (State.installOp_ended _ _).1,
      (State.installOp_ended _ _).2, fun u mb shards bundle ok adapters new room digests => ?_⟩
    exact State.installOp_passed _ bundle ok adapters new room digests
  case lost => exact exec_storeOpComplete_source b running install lost
  case patrol =>
    obtain ⟨t, ran, shard⟩ := exec_storePatrol (cyc := cyc) (tag := tag) (shard := shard) matched
      (show (s.store.package? tag).bind _ = some x by rw [package]; exact held) present sound reached
    refine ⟨t, _, ran, shard, fun agrees => ?_, fun differs few => ?_, fun differs third => ?_⟩
    · simp [agrees, sound]
    · have : (x.patrolFails + 1) % 3 = x.patrolFails + 1 := Nat.mod_eq_of_lt (by omega)
      simp [differs, sound, this]
      omega
    · simp [differs, third]

end Sys2Proof.Machine
end

section
/-! PROOFS. The end of staging is noted at the fabric cycle of the command (R307), which is not that of the state
before it. -/

namespace Sys2Proof.Machine

/-- A locked module at cycle 0 of a slot, whose staging has placed its last shard. -/
def beforeStaged : State :=
  { wStore { catalogue := [wPackage], switchState := SwitchState.staging, staging := some wStaged } with
    tb := { state := .locked } }

theorem exec_stagingComplete_stageDone {t : State} (ran : exec (.stagingComplete 156249) beforeStaged = .next t) :
    t.store.stageDone = (beforeStaged.stamp 156249).fst := by
  have run : exec (.stagingComplete 156249) beforeStaged = execStagingComplete 156249 beforeStaged := rfl
  rw [run, execStagingComplete, show beforeStaged.store.staging = some wStaged from rfl] at ran
  dsimp only at ran
  rw [if_neg (Nat.not_lt.2 witness_staging_ends.2)] at ran
  obtain rfl := Host.Outcome.next.inj ran
  have other : ¬ beforeStaged.store.switchKind = 1 := by decide
  unfold State.loadAhead
  rw [if_neg (by simpa using fun kind => absurd kind other), State.raise_store]

/-- Refutes O18: its clause of STAGING_COMPLETE says that STO_STAGE_DONE reads the time of the state before the command;
the model notes the time of the command, cycle 156,249 of the slot here. -/
theorem not_switchesAdvance : ¬ Obligations.SwitchesAdvance := by
  unfold Obligations.SwitchesAdvance
  rintro ⟨-, -, staged, -⟩
  obtain ⟨t, ran, -, -, -, done, -⟩ := staged 156249 wStaged beforeStaged rfl witness_staging_ends.2
  rw [exec_stagingComplete_stageDone ran] at done
  exact absurd done (by decide)

end Sys2Proof.Machine
end

section
/-! PROOFS. The frame that an OPEN of class 0 is tested for (R71, R331, R335). -/

namespace Sys2Proof.Machine

/-! ### Accesses to host memory and the streams -/

/-- What an access to host memory leaves alone of the serving state. -/
structure StreamView where
  streams : KMap Stream

/-- The streams. -/
def State.streamView (s : State) : StreamView := {
    streams := s.srv.streams }

theorem State.fold_streamView (s : State) : s.srv.streams = s.streamView.streams := by simp [State.streamView]

theorem State.streamView_mk (part : Part) (pending : List Instr) (free : Nat) (regs : KMap Nat) (blobs : KMap (List
    Byte)) (tb : TimeBase) (planner : Planner) (fab : Fabric) (mxe : Engine) (chn : ChainCounters) (mem : Memory)
    (pages : Pages) (store : Store) (srv : Serving) (syn : Sync) (lce : Torus) (dsp : Dispatch) (hlk : HostLink) (dict
    : Dict) (ras : Ras) (pwr : Power) (boot : Boot) (sec : Security) : State.streamView {
    part := part, pending := pending, free := free, regs := regs, blobs := blobs, tb := tb, planner := planner, fab :=
    fab, mxe := mxe, chn := chn, mem := mem, pages := pages, store := store, srv := srv, syn := syn, lce := lce,
    dsp := dsp, hlk := hlk, dict := dict, ras := ras, pwr := pwr, boot := boot, sec := sec } = {
    streams := srv.streams } := rfl

@[simp] theorem State.streamView_ite (c : Prop) [Decidable c] (s t : State) :
    (if c then s else t).streamView = if c then s.streamView else t.streamView := by split <;> rfl

section
variable {α γ : Type} {f : State → α → State} {k : State × γ → α → State × γ} {h : γ × State → α → γ × State}

@[simp] theorem State.streamView_foldl (keeps : ∀ t a, (f t a).streamView = t.streamView) (l : List α) (s : State) :
    (l.foldl f s).streamView = s.streamView := State.keeps_foldl _ keeps l s
@[simp] theorem State.streamView_foldl_fst (keeps : ∀ p a, (k p a).1.streamView = p.1.streamView) (l : List α) (p : State × γ) :
    (l.foldl k p).1.streamView = p.1.streamView := State.keeps_foldl_fst (fun t => t.streamView) keeps l p
@[simp] theorem State.streamView_foldl_snd (keeps : ∀ p a, (h p a).2.streamView = p.2.streamView) (l : List α) (p : γ × State) :
    (l.foldl h p).2.streamView = p.2.streamView := State.keeps_foldl_snd (fun t => t.streamView) keeps l p

end

@[simp] theorem State.raiseFor_streamView (s : State) (code group arg0 arg1 arg2 : Nat) : (s.raiseFor code group arg0
    arg1 arg2).streamView = s.streamView := by
  simp [State.streamView]

@[simp] theorem State.raise_streamView (s : State) (code arg0 arg1 arg2 : Nat) : (s.raise code arg0 arg1
    arg2).streamView = s.streamView := by
  simp [State.streamView]

@[simp] theorem State.breakPass_streamView (s : State) : (State.breakPass s).streamView = s.streamView := by
  unfold State.breakPass; simp [State.fold_streamView, State.streamView_mk]

@[simp] theorem State.modStation_streamView (s : State) (i : Nat) (g : StationRun → StationRun) : (State.modStation s
    i g).streamView = s.streamView := by
  unfold State.modStation; simp [State.fold_streamView, State.streamView_mk]

@[simp] theorem State.progress_streamView (s : State) : (State.progress s).streamView = s.streamView := by
  unfold State.progress; simp [State.fold_streamView, State.streamView_mk]

@[simp] theorem State.portEmit_streamView (s : State) (i : Nat) : (State.portEmit s i).streamView = s.streamView := by
  unfold State.portEmit; dsimp only; (repeat' split) <;> simp [State.fold_streamView, State.streamView_mk]

@[simp] theorem State.modLace_streamView (s : State) (l : Nat) (f : Lace → Lace) : (State.modLace s l f).streamView =
    s.streamView := by
  unfold State.modLace; simp [State.fold_streamView, State.streamView_mk]

@[simp] theorem State.modTorus_streamView (s : State) (f : Torus → Torus) : (State.modTorus s f).streamView =
    s.streamView := by
  unfold State.modTorus; simp [State.fold_streamView, State.streamView_mk]

@[simp] theorem State.freeSlots_streamView (s : State) (xs : List (Nat × Nat × Bool × Nat)) : (State.freeSlots s
    xs).streamView = s.streamView := by
  unfold State.freeSlots; simp [State.fold_streamView, State.streamView_mk]

@[simp] theorem State.laceDrain_streamView (s : State) (l : Nat) : (State.laceDrain s l).streamView = s.streamView := by
  unfold State.laceDrain; simp [State.fold_streamView, State.streamView_mk]

@[simp] theorem State.laceSend_streamView (s : State) (l : Nat) (x : LaceTx) : (State.laceSend s l x).streamView =
    s.streamView := by
  unfold State.laceSend; simp [State.fold_streamView, State.streamView_mk]

@[simp] theorem State.sendControl_streamView (s : State) (l : Nat) (m : ControlMsg) : (State.sendControl s l
    m).streamView = s.streamView := by
  unfold State.sendControl; simp [State.fold_streamView, State.streamView_mk]

@[simp] theorem State.flood_streamView (s : State) (except_ : Nat) (m : ControlMsg) : (State.flood s except_
    m).streamView = s.streamView := by
  unfold State.flood; simp [State.fold_streamView, State.streamView_mk]

@[simp] theorem State.oweFault_streamView (s : State) (tag : Nat) : (State.oweFault s tag).streamView = s.streamView := by
  unfold State.oweFault; simp [State.fold_streamView, State.streamView_mk]

@[simp] theorem State.unreachable_streamView (s : State) (h : PacketHeader) : (State.unreachable s h).streamView =
    s.streamView := by
  unfold State.unreachable; simp [State.fold_streamView, State.streamView_mk]

@[simp] theorem State.forward_streamView (s : State) (h : PacketHeader) (flits : List Flit) (p l : Nat) (turned :
    Bool) (origin : Option (Nat × Nat × Bool)) : (State.forward s h flits p l turned origin).streamView = s.streamView := by
  unfold State.forward; dsimp only; split <;> simp [State.fold_streamView, State.streamView_mk]

@[simp] theorem State.inject_streamView (s : State) (h : PacketHeader) (flits : List Flit) : (State.inject s h
    flits).streamView = s.streamView := by
  unfold State.inject; dsimp only; (repeat' split) <;> simp [State.fold_streamView, State.streamView_mk]

@[simp] theorem State.sendSync_streamView (s : State) (dest op object arg : Nat) : (State.sendSync s dest op object
    arg).streamView = s.streamView := by
  unfold State.sendSync; simp [State.fold_streamView, State.streamView_mk]

@[simp] theorem State.setObj_streamView (s : State) (r : ObjRef) (o : SyncObj) : (State.setObj s r o).streamView =
    s.streamView := by
  unfold State.setObj; simp [State.fold_streamView, State.streamView_mk]

@[simp] theorem State.modPart_streamView (s : State) (k : Nat) (f : Participant → Participant) : (State.modPart s k
    f).streamView = s.streamView := by
  unfold State.modPart; simp [State.fold_streamView, State.streamView_mk]

@[simp] theorem State.freeRemote_streamView (s : State) (k cause : Nat) : (State.freeRemote s k cause).streamView =
    s.streamView := by
  unfold State.freeRemote; simp [State.fold_streamView, State.streamView_mk]

@[simp] theorem State.recordRelease_streamView (s : State) (k cause : Nat) : (State.recordRelease s k
    cause).streamView = s.streamView := by
  unfold State.recordRelease; simp [State.fold_streamView, State.streamView_mk]

@[simp] theorem State.endWait_streamView (s : State) (r : ObjRef) (w : WaitReg) (cause : Nat) : (State.endWait s r w
    cause).streamView = s.streamView := by
  unfold State.endWait; simp [State.fold_streamView, State.streamView_mk]

@[simp] theorem State.toModules_streamView (s : State) (ms : List Nat) (op : Nat) (r : ObjRef) (arg : Nat) :
    (State.toModules s ms op r arg).streamView = s.streamView := by
  unfold State.toModules; simp [State.fold_streamView, State.streamView_mk]

@[simp] theorem State.nodeStep_streamView (s : State) (m : NodeMsg) (r : ObjRef) : (State.nodeStep s m r).1.streamView
    = s.streamView := by
  unfold State.nodeStep; dsimp only; (repeat' split) <;> simp [State.fold_streamView, State.streamView_mk]

@[simp] theorem State.nodes_streamView (x0 : Nat) (x1 : List (NodeMsg × ObjRef)) (s : State) : (State.nodes x0 x1
    s).streamView = s.streamView := by
  induction x0 generalizing s x1 with
  | zero => rfl
  | succ f ih =>
    cases x1 with
    | nil => rfl
    | cons e ms => simp [State.nodes, ih]

@[simp] theorem State.nodeMsg_streamView (s : State) (m : NodeMsg) (r : ObjRef) : (State.nodeMsg s m r).streamView =
    s.streamView := by
  unfold State.nodeMsg; simp [State.fold_streamView, State.streamView_mk]

@[simp] theorem State.ownerLost_streamView (s : State) (rs : List ObjRef) : (State.ownerLost s rs).streamView =
    s.streamView := by
  unfold State.ownerLost; simp [State.fold_streamView, State.streamView_mk]

@[simp] theorem State.spanBroken_streamView (s : State) (tag : Nat) : (State.spanBroken s tag).streamView =
    s.streamView := by
  unfold State.spanBroken; simp [State.fold_streamView, State.streamView_mk]

@[simp] theorem State.settleFault_streamView (s : State) (tag : Nat) : (State.settleFault s tag).streamView =
    s.streamView := by
  unfold State.settleFault; simp [State.fold_streamView, State.streamView_mk]

@[simp] theorem State.settleFaults_streamView (x0 : Nat) (s : State) : (State.settleFaults x0 s).streamView =
    s.streamView := by
  induction x0 generalizing s with
  | zero => rfl
  | succ f ih =>
    unfold State.settleFaults
    split <;> simp [ih]

@[simp] theorem State.torusDone_streamView (s : State) : (State.torusDone s).streamView = s.streamView := by
  unfold State.torusDone; simp [State.fold_streamView, State.streamView_mk]

@[simp] theorem State.releasePair_streamView (s : State) (step : Nat) : (State.releasePair s step).streamView =
    s.streamView := by
  unfold State.releasePair; (repeat' split) <;> simp [State.fold_streamView, State.streamView_mk]

@[simp] theorem State.loseStep_streamView (s : State) (step : Nat) : (State.loseStep s step).streamView = s.streamView := by
  unfold State.loseStep; (repeat' split) <;> simp [State.fold_streamView, State.streamView_mk]

@[simp] theorem State.dropStep_streamView (s : State) (n : Nat) : (State.dropStep s n).streamView = s.streamView := by
  unfold State.dropStep; simp [State.fold_streamView, State.streamView_mk]

@[simp] theorem State.rerunStep_streamView (s : State) (n : Nat) (f : PlanEntry → PlanEntry) : (State.rerunStep s n
    f).streamView = s.streamView := by
  unfold State.rerunStep; (repeat' split) <;> simp [State.fold_streamView, State.streamView_mk]

@[simp] theorem State.rerunOwn_streamView (s : State) (n : Nat) : (State.rerunOwn s n).streamView = s.streamView := by
  unfold State.rerunOwn; simp [State.fold_streamView, State.streamView_mk]

@[simp] theorem State.unseal_streamView (s : State) (step : Nat) : (State.unseal s step).streamView = s.streamView := by
  unfold State.unseal; (repeat' split) <;> simp [State.fold_streamView, State.streamView_mk]

@[simp] theorem State.loseEvent_streamView (s : State) : (State.loseEvent s).streamView = s.streamView := by
  unfold State.loseEvent; simp [State.fold_streamView, State.streamView_mk]

@[simp] theorem State.stationWrote_streamView (s : State) (i : Nat) : (State.stationWrote s i).streamView =
    s.streamView := by
  unfold State.stationWrote; simp [State.fold_streamView, State.streamView_mk]

@[simp] theorem State.hostFailed_streamView (s : State) (a : HostAccess) : (State.hostFailed s a).streamView =
    s.streamView := by
  unfold State.hostFailed; (repeat' split) <;> simp [State.fold_streamView, State.streamView_mk]

@[simp] theorem State.refuseAccess_streamView (s : State) (a : HostAccess) : (State.refuseAccess s a).streamView =
    s.streamView := by
  unfold State.refuseAccess; simp [State.fold_streamView, State.streamView_mk]

@[simp] theorem State.hostRefused_streamView (s : State) (a : HostAccess) : (State.hostRefused s a).streamView =
    s.streamView := by
  unfold State.hostRefused; simp [State.fold_streamView, State.streamView_mk]

@[simp] theorem State.hostTranslated_streamView (s : State) (a : HostAccess) (e : BitVec 64) : (State.hostTranslated s
    a e).streamView = s.streamView := by
  unfold State.hostTranslated; (repeat' split) <;> simp [State.fold_streamView, State.streamView_mk]

@[simp] theorem State.hostTranslate_streamView (s : State) (a : HostAccess) : (State.hostTranslate s a).streamView =
    s.streamView := by
  unfold State.hostTranslate; dsimp only; (repeat' split) <;> simp [State.fold_streamView, State.streamView_mk]

@[simp] theorem State.hostIssue_streamView (s : State) (a : HostAccess) : (State.hostIssue s a).streamView =
    s.streamView := by
  unfold State.hostIssue; (repeat' split) <;> simp [State.fold_streamView, State.streamView_mk]

@[simp] theorem State.pump_streamView (s : State) : (State.pump s).streamView = s.streamView := by
  unfold State.pump; (repeat' split) <;> simp [State.fold_streamView, State.streamView_mk]

/-! ### The frame of a test -/

/-- What a pump sends to the host changes no stream. -/
theorem State.pump_streams (s : State) : s.pump.srv.streams = s.srv.streams :=
  congrArg StreamView.streams s.pump_streamView

/-- A module in frame 0 whose intake reads for frame 1. -/
def readingAhead : State := wIntake { intake := { wReading with frame := 1 } }

/-- What the test of the stream grants for frame 1: the chunk is in frame 2, and the parity is even. -/
def grantAhead : Grant :=
  match readingAhead.testFor wServed { stream := 3, adapter := 0xFFFF, prompt := 1, context := 0, maxContext := 16 } none 1 with
  | .ok g => g
  | .error _ => default

theorem readingAhead_granted : (readingAhead.stamp 0).testFor wServed
    { stream := wOpen0.stream, adapter := wOpen0.adapter, prompt := wOpen0.inputUnits, context := 0
      maxContext := wOpen0.maxContext } none (readingAhead.stamp 0).srv.intake.frame = .ok grantAhead := by decide

theorem readingAhead_checked : (readingAhead.stamp 0).checkOpen wOpen0 = .ok (wServed, false) := by
  obtain ⟨-, -, -, -, -, -, ok, -⟩ := witness_open_class0
  exact ok

theorem exec_openStream_ahead : exec (.openStream 0 wOpen0) readingAhead =
    .next ((((readingAhead.stamp 0).takeOpen wOpen0 false).adopt 3 grantAhead).answer wOpen0 Status.ADMITTED 0
      ).recordDone.pump := by
  have run : exec (.openStream 0 wOpen0) readingAhead = execOpenStream 0 wOpen0 readingAhead := rfl
  have takes : (!readingAhead.takesRecord || decide (wOpen0.kind ≠ 1)) = false := by decide
  have next : ¬ wOpen0.ringSeq ≠ (readingAhead.stamp 0).srv.intake.consumer % 65536 := by decide
  have stream : ¬ 8191 < wOpen0.stream := by decide
  have new : ((readingAhead.stamp 0).stream? wOpen0.stream).isSome = false := by decide
  have fits : (!(readingAhead.stamp 0).bufferFits wOpen0) = false := by decide
  have class0 : (false || decide (wOpen0.cls ≠ 0)) = false := by decide
  rw [run, execOpenStream, if_neg (by rw [takes]; nofun)]
  dsimp only
  rw [if_neg next, if_neg stream, if_neg (by rw [new]; nofun), readingAhead_checked]
  dsimp only
  rw [if_neg (by rw [fits]; nofun), if_neg (by rw [class0]; nofun), readingAhead_granted]
  rfl

set_option maxRecDepth 20000 in
/-- Refutes O19: its clause of class 0 tests the stream for the frame of the clock; the model tests it for the frame
whose records the intake reads, frame 1 here while the clock is at frame 0, and grants the other parity. -/
theorem not_openAndAppendAreTaken : ¬ Obligations.OpenAndAppendAreTaken := by
  unfold Obligations.OpenAndAppendAreTaken
  rintro ⟨opened, -⟩
  obtain ⟨-, class0⟩ := opened 0 wOpen0 wServed false readingAhead (by decide) rfl rfl rfl (by decide) rfl
    readingAhead_checked (by decide)
  obtain ⟨t, u, ran, pumped, stream, -⟩ := class0 wGrant rfl rfl (by decide)
  have same := Host.Outcome.next.inj (exec_openStream_ahead.symm.trans ran)
  have streams : u.srv.streams = ((((readingAhead.stamp 0).takeOpen wOpen0 false).adopt 3 grantAhead).answer wOpen0
      Status.ADMITTED 0).recordDone.srv.streams := by
    rw [← State.pump_streams u, ← pumped, ← same, State.pump_streams]
  rw [State.stream?, streams] at stream
  exact absurd stream (by decide)

end Sys2Proof.Machine
end

section
/-! PROOFS. The records of the intake ring that open and append nothing (R331, R334, R335, R351). -/

namespace Sys2Proof.Machine

section
variable {s : State} {r : IntakeRecord} {x : Stream} {cyc : Nat}

/-! ### What a record leaves alone -/

/-- A record that is done moves the ring, and the accesses to the host that write its CONSUMER. -/
theorem State.recordDone_eq (s : State) : ∃ k h, s.recordDone = { s with srv := { s.srv with intake := k }, hlk := h } ∧
    k.consumer = (s.srv.intake.consumer + 1) % 2 ^ 32 ∧ k.left = s.srv.intake.left - 1 ∧
    k.records = sat 64 (s.srv.intake.records + 1) := by
  unfold State.recordDone
  dsimp only
  split
  · next last =>
    unfold State.endRead
    dsimp only
    split <;> exact ⟨_, _, rfl, rfl, last.symm, rfl⟩
  · exact ⟨_, _, rfl, rfl, rfl, rfl⟩

/-- An answered record moves the ring on and changes no stream. -/
theorem State.answered_eq (t : State) (r : IntakeRecord) (status flags : Nat) :
    ∃ v h, (t.answer r status flags).recordDone = { t with srv := v, hlk := h } ∧ v.streams = t.srv.streams ∧
      v.intake.consumer = (t.srv.intake.consumer + 1) % 2 ^ 32 := by
  obtain ⟨k, h, done, consumer, -, -⟩ := (t.answer r status flags).recordDone_eq
  exact ⟨_, _, done, rfl, consumer⟩

theorem State.endRead_eq (s : State) : ∃ k h, s.endRead = { s with srv := { s.srv with intake := k }, hlk := h } ∧
    k.consumer = s.srv.intake.consumer ∧ k.left = 0 := by
  unfold State.endRead
  dsimp only
  split <;> exact ⟨_, _, rfl, rfl, rfl⟩

theorem State.takesRecord_of (left : s.srv.intake.left ≠ 0) (open_ : s.srv.sealing = []) : s.takesRecord = true := by
  simp [State.takesRecord, left, open_]

theorem State.takesRecord_false (closed : s.srv.intake.left = 0 ∨ s.srv.sealing ≠ []) : s.takesRecord = false := by
  simpa [State.takesRecord, imp_iff_not_or] using closed

/-! ### A stream that is changed, and one that is dropped -/

theorem kget?_kmod_self {α : Type} {m : KMap α} {n : Nat} {v : α} (held : kget? m n = some v) (f : α → α) :
    kget? (kmod m n f) n = some (f v) := by simp [kget?_kmod, held]

theorem kget?_kmod_ne {α : Type} (m : KMap α) {n k : Nat} (other : k ≠ n) (f : α → α) :
    kget? (kmod m n f) k = kget? m k := by simp [kget?_kmod, other]

theorem kdel_length {α : Type} {m : KMap α} {k : Nat} {v : α} (held : kget? m k = some v) :
    (kdel m k).length + 1 = m.length := by
  induction m with
  | nil => nomatch held
  | cons e m ih =>
    obtain ⟨j, w⟩ := e
    unfold kget? at held
    unfold kdel
    split
    · rfl
    · next other =>
      rw [if_neg other] at held
      simp [ih held]

/-- The plan once a stream has left the template of its parity. -/
def Planner.without (p : Planner) (n : Nat) (x : Stream) : Planner :=
  match x.cls, x.parity with
  | 0, some par => { p with leaving := p.leaving ++ [(par, { stream := n, adapter := x.adapter, context := x.maxContext })] }
  | _, _ => p

theorem State.leaveTemplate_eq (s : State) (n : Nat) (x : Stream) :
    s.leaveTemplate n x = { s with planner := s.planner.without n x } := by
  unfold State.leaveTemplate Planner.without
  generalize x.cls = cls, x.parity = parity
  match cls, parity with
  | 0, some _ => rfl
  | 0, none => rfl
  | _ + 1, _ => rfl

/-- A stream with no page in move is dropped at once (R278). -/
theorem State.dropStream_still {n : Nat} (held : s.stream? n = some x) (still : s.pages.moving n = false) : ∃ v,
    s.dropStream n = { s with srv := v, pages := s.pages.release n, planner := s.planner.without n x } ∧
    v.streams = kdel s.srv.streams n ∧ v.intake.consumer = s.srv.intake.consumer := by
  unfold State.dropStream
  rw [held]
  dsimp only
  rw [State.leaveTemplate_eq, if_neg (by simpa [State.freeBuffer] using still)]
  exact ⟨_, rfl, rfl, rfl⟩

/-- The queued turns of a stream are dropped: their buffer is freed. -/
theorem State.dropQueued_held {n : Nat} (held : s.stream? n = some x) :
    ∃ v, s.dropQueued n = { s with srv := v } ∧ v.streams = kmod s.srv.streams n (fun y => { y with queued := [] }) ∧
      v.intake.consumer = s.srv.intake.consumer := by
  unfold State.dropQueued
  rw [held]
  exact ⟨_, rfl, rfl, rfl⟩

/-- With no step in progress, rows are dropped from the plan alone. -/
theorem State.dropRows_idle (gone : Nat → Bool) (idle : s.planner.steps = []) :
    ∃ p, s.dropRows gone = { s with planner := p } := by
  unfold State.dropRows State.dropRowsOf
  simp only [idle, List.filter_nil, List.foldl_nil]
  exact ⟨_, rfl⟩

/-! ### Each record by what it does -/

/-- The operands of a record that is next in the ring and names a stream. -/
structure RecordNext (s : State) (r : IntakeRecord) : Prop where
  left : s.srv.intake.left ≠ 0
  sealing : s.srv.sealing = []
  next : r.ringSeq = s.srv.intake.consumer % 65536
  stream : r.stream ≤ 8191
  clean : r.clean = true

theorem RecordNext.takes (h : RecordNext s r) {k : Nat} (kind : r.kind = k) :
    ¬ (!s.takesRecord || decide (r.kind ≠ k)) = true := by
  simp [State.takesRecord_of h.left h.sealing, kind]

theorem RecordNext.ring (h : RecordNext s r) : ¬ r.ringSeq ≠ (s.stamp cyc).srv.intake.consumer % 65536 :=
  not_not.2 h.next

theorem RecordNext.named (h : RecordNext s r) : ¬ 8191 < r.stream := Nat.not_lt.2 h.stream

theorem RecordNext.unclean (h : RecordNext s r) : ¬ (!r.clean) = true := by simp [h.clean]

theorem exec_nop (h : RecordNext s r) (kind : r.kind = 0) :
    exec (.nop cyc r) s = .next (s.stamp cyc).recordDone.pump := by
  have run : exec (.nop cyc r) s = execNop cyc r s := rfl
  rw [run, execNop, if_neg (by simp [State.takesRecord_of h.left h.sealing, kind])]
  dsimp only
  rw [if_neg h.ring, if_neg h.named, if_neg (by simp [h.clean, kind])]

variable (held : s.stream? r.stream = some x)
include held

theorem exec_cancel_inFlight (h : RecordNext s r) (kind : r.kind = 3) (open_ : x.state ≠ .ending)
    (flying : s.inFlight r.stream = true) : exec (.cancel cyc r) s = .next
      ((((s.stamp cyc).dropQueued r.stream).modStream r.stream fun y =>
        { y with cancelAsked := some (bit r.flags 0) }).answer r Status.ACCEPTED 0).recordDone.pump := by
  have run : exec (.cancel cyc r) s = execCancel cyc r s := rfl
  have found : (s.stamp cyc).stream? r.stream = some x := held
  have flies : (s.stamp cyc).inFlight r.stream = true := flying
  rw [run, execCancel, if_neg (h.takes kind)]
  dsimp only
  rw [if_neg h.ring, if_neg h.named, found, if_neg h.unclean]
  simp only [open_, decide_false, flies, if_true]

theorem exec_cancel_idle (h : RecordNext s r) (kind : r.kind = 3) (open_ : x.state ≠ .ending)
    (idle : s.planner.steps = []) (whole : bit r.flags 0 = false) : ∃ flags, exec (.cancel cyc r) s = .next
      ((((((s.stamp cyc).dropRows fun k => k = r.stream).dropQueued r.stream).dropStream r.stream).answer r
        Status.CANCELLED flags).recordDone.pump) := by
  have run : exec (.cancel cyc r) s = execCancel cyc r s := rfl
  have found : (s.stamp cyc).stream? r.stream = some x := held
  have still : (s.stamp cyc).inFlight r.stream = false := by simp [State.inFlight, State.stamp, idle]
  rw [run, execCancel, if_neg (h.takes kind)]
  dsimp only
  rw [if_neg h.ring, if_neg h.named, found, if_neg h.unclean]
  simp only [open_, decide_false, still, Bool.false_eq_true, if_false, State.cancelNow, whole, Bool.not_false, Bool.or_true,
    if_true]
  exact ⟨_, rfl⟩

theorem exec_close_busy (h : RecordNext s r) (kind : r.kind = 4) (open_ : x.state ≠ .ending) (busy : x.busy = true) :
    exec (.close cyc r) s = .next (((s.stamp cyc).modStream r.stream fun y =>
      { y with closeAsked := some r.reqTag }).answer r Status.ACCEPTED 0).recordDone.pump := by
  have run : exec (.close cyc r) s = execClose cyc r s := rfl
  have found : (s.stamp cyc).stream? r.stream = some x := held
  rw [run, execClose, if_neg (h.takes kind)]
  dsimp only
  rw [if_neg h.ring, if_neg h.named, found]
  dsimp only
  rw [if_neg open_, if_neg h.unclean, if_pos busy]

theorem exec_close_idle (h : RecordNext s r) (kind : r.kind = 4) (open_ : x.state ≠ .ending) (idle : x.busy = false) :
    exec (.close cyc r) s = .next (((s.stamp cyc).dropStream r.stream).answer r Status.COMPLETE
      (noticeFlags false true)).recordDone.pump := by
  have run : exec (.close cyc r) s = execClose cyc r s := rfl
  have found : (s.stamp cyc).stream? r.stream = some x := held
  rw [run, execClose, if_neg (h.takes kind)]
  dsimp only
  rw [if_neg h.ring, if_neg h.named, found]
  dsimp only
  rw [if_neg open_, if_neg h.unclean, if_neg (by simp [idle])]

theorem exec_park (h : RecordNext s r) (kind : r.kind = 5) (here : x.state = .active ∨ x.state = .idle) :
    exec (.park cyc r) s = .next (((if x.busy then State.modStream (s.stamp cyc) r.stream fun y =>
        { y with parkAsked := some r.reqTag }
      else ((s.stamp cyc).modStream r.stream fun y => { y with parkAsked := some r.reqTag }).askPark r.stream).answer r
        Status.ACCEPTED 0).recordDone.pump) := by
  have run : exec (.park cyc r) s = execPark cyc r s := rfl
  have found : (s.stamp cyc).stream? r.stream = some x := held
  have resident : ¬ (decide (x.state = .ending) || decide (x.state = .pending)) = true ∧ x.state ≠ .parked := by
    obtain active | idle := here
    · simp [active]
    · simp [idle]
  rw [run, execPark, if_neg (h.takes kind)]
  dsimp only
  rw [if_neg h.ring, if_neg h.named, found]
  dsimp only
  rw [if_neg resident.1, if_neg h.unclean, if_neg resident.2]

theorem exec_unpark (h : RecordNext s r) (kind : r.kind = 6) (parked : x.state = .parked)
    (still : kget? s.pages.moves r.stream = none) : exec (.unpark cyc r) s = .next
      (((s.stamp cyc).startUnpark r.stream r.reqTag).answer r Status.ACCEPTED 0).recordDone.pump := by
  have run : exec (.unpark cyc r) s = execUnpark cyc r s := rfl
  have found : (s.stamp cyc).stream? r.stream = some x := held
  have unmoved : kget? (s.stamp cyc).pages.moves r.stream = none := still
  rw [run, execUnpark, if_neg (h.takes kind)]
  dsimp only
  rw [if_neg h.ring, if_neg h.named, found]
  dsimp only
  rw [if_neg (not_not.2 parked), if_neg h.unclean, State.wantUnpark, unmoved]

end

section
variable {s : State} {r : IntakeRecord} (cyc : Nat)

/-- Between reads and during a seal no record is taken. -/
theorem exec_untaken (closed : s.takesRecord = false) : exec (.nop cyc r) s = .next s ∧
    exec (.openStream cyc r) s = .next s ∧ exec (.append cyc r) s = .next s ∧ exec (.cancel cyc r) s = .next s ∧
    exec (.close cyc r) s = .next s ∧ exec (.park cyc r) s = .next s ∧ exec (.unpark cyc r) s = .next s := by
  have waits (b : Bool) : (!s.takesRecord || b) = true := by rw [closed]; rfl
  exact ⟨if_pos (waits _), if_pos (waits _), if_pos (waits _), if_pos (waits _), if_pos (waits _), if_pos (waits _),
    if_pos (waits _)⟩

/-- The command that a record of a kind is. -/
def recordCommand (cyc : Nat) (r : IntakeRecord) : Instr :=
  if r.kind = 0 then .nop cyc r else if r.kind = 1 then .openStream cyc r else if r.kind = 2 then .append cyc r
  else if r.kind = 3 then .cancel cyc r else if r.kind = 4 then .close cyc r else if r.kind = 5 then .park cyc r
  else .unpark cyc r

/-- A record out of order ends the read, whatever its kind. -/
theorem exec_outOfOrder (takes : s.takesRecord = true) (late : r.ringSeq ≠ s.srv.intake.consumer % 65536)
    (kind : r.kind ≤ 6) : exec (recordCommand cyc r) s = .next (s.stamp cyc).endRead.pump := by
  have now (k : Nat) (same : r.kind = k) : ¬ (!s.takesRecord || decide (r.kind ≠ k)) = true := by simp [takes, same]
  obtain k0 | k1 | k2 | k3 | k4 | k5 | k6 : r.kind = 0 ∨ r.kind = 1 ∨ r.kind = 2 ∨ r.kind = 3 ∨ r.kind = 4 ∨
    r.kind = 5 ∨ r.kind = 6 := by omega
  · rw [show recordCommand cyc r = .nop cyc r by simp [recordCommand, k0]]
    exact (if_neg (by simp [takes, k0])).trans (if_pos late)
  · rw [show recordCommand cyc r = .openStream cyc r by simp [recordCommand, k1]]
    exact (if_neg (now 1 k1)).trans (if_pos late)
  · rw [show recordCommand cyc r = .append cyc r by simp [recordCommand, k2]]
    exact (if_neg (now 2 k2)).trans (if_pos late)
  · rw [show recordCommand cyc r = .cancel cyc r by simp [recordCommand, k3]]
    exact (if_neg (now 3 k3)).trans (if_pos late)
  · rw [show recordCommand cyc r = .close cyc r by simp [recordCommand, k4]]
    exact (if_neg (now 4 k4)).trans (if_pos late)
  · rw [show recordCommand cyc r = .park cyc r by simp [recordCommand, k5]]
    exact (if_neg (now 5 k5)).trans (if_pos late)
  · rw [show recordCommand cyc r = .unpark cyc r by simp [recordCommand, k6]]
    exact (if_neg (now 6 k6)).trans (if_pos late)

end

/-- Settles O20: each record by its command's lemma, and the ring by `State.recordDone_eq`. -/
theorem otherRecordsAreTaken : Obligations.OtherRecordsAreTaken := by
  unfold Obligations.OtherRecordsAreTaken
  refine ⟨fun cyc r s left sealing next stream clean => ?taken, fun cyc r s closed => ?closed,
    fun cyc r s left sealing late kind => ?late⟩
  case closed => exact exec_untaken cyc (State.takesRecord_false closed)
  case late =>
    obtain ⟨k, h, ended, consumer, none⟩ := (s.stamp cyc).endRead_eq
    refine ⟨_, _, _, exec_outOfOrder cyc (State.takesRecord_of left sealing) late kind, rfl, rfl, ?_, ?_, ?_, rfl⟩
    · rw [ended]; rfl
    · rw [ended]; exact none
    · rw [ended]; exact consumer
  case taken =>
    have h : RecordNext s r := ⟨left, sealing, next, stream, clean⟩
    refine ⟨fun kind => ?nop, fun x held open_ => ⟨fun kind flying => ?inFlight, fun kind idle whole still => ?cancel,
      fun kind busy => ?closeBusy, fun kind idle still => ?close, fun kind here => ?park, fun kind parked still => ?unpark⟩⟩
    case nop =>
      obtain ⟨k, hl, done, consumer, rest, records⟩ := (s.stamp cyc).recordDone_eq
      refine ⟨_, _, exec_nop h kind, rfl, ?_⟩
      rw [done]
      exact ⟨rfl, rfl, consumer, records, rest, rfl⟩
    case inFlight =>
      obtain ⟨v, dropped, kept, ring⟩ := State.dropQueued_held (s := s.stamp cyc) held
      obtain ⟨w, hl, done, streams, consumer⟩ := State.answered_eq (((s.stamp cyc).dropQueued r.stream).modStream r.stream
        fun y => { y with cancelAsked := some (bit r.flags 0) }) r Status.ACCEPTED 0
      have emptied : kget? v.streams r.stream = some { x with queued := [] } := by rw [kept]; exact kget?_kmod_self held _
      refine ⟨_, _, exec_cancel_inFlight held h kind open_ flying, rfl, ?_⟩
      rw [dropped] at done streams consumer ⊢
      rw [done]
      have same : w.streams = kmod v.streams r.stream fun y => { y with cancelAsked := some (bit r.flags 0) } := streams
      refine ⟨(congrArg (kget? · _) same).trans (kget?_kmod_self emptied _), fun j other =>
        (congrArg (kget? · _) same).trans ((kget?_kmod_ne _ other _).trans ?_), ?_, rfl⟩
      · rw [kept]; exact kget?_kmod_ne _ other _
      · exact consumer.trans (congrArg (fun c => (c + 1) % 2 ^ 32) ring)
    case cancel =>
      obtain ⟨flags, ran⟩ := exec_cancel_idle (cyc := cyc) held h kind open_ idle whole
      obtain ⟨p, rows⟩ := State.dropRows_idle (s := s.stamp cyc) (fun k => k = r.stream) idle
      obtain ⟨v, queue, kept, ring⟩ := State.dropQueued_held (s := { s.stamp cyc with planner := p }) held
      have emptied : kget? v.streams r.stream = some { x with queued := [] } := by rw [kept]; exact kget?_kmod_self held _
      obtain ⟨w, gone, left, ring'⟩ := State.dropStream_still (s := { s.stamp cyc with planner := p, srv := v }) emptied still
      obtain ⟨z, hl, done, streams, consumer⟩ := State.answered_eq (((((s.stamp cyc).dropRows fun k => k = r.stream
        ).dropQueued r.stream).dropStream r.stream)) r Status.CANCELLED flags
      refine ⟨_, _, ran, rfl, ?_⟩
      rw [rows, queue, gone] at done streams consumer ⊢
      rw [done]
      have same : z.streams = kdel v.streams r.stream := streams.trans left
      refine ⟨?_, fun j other => ?_, rfl, ?_⟩
      · show z.streams.length + 1 = _
        rw [same, kdel_length emptied, kept]
        exact List.length_map _
      · show kget? z.streams j = _
        rw [same, kget?_kdel_ne _ other, kept]
        exact kget?_kmod_ne _ other _
      · exact consumer.trans (congrArg (fun c => (c + 1) % 2 ^ 32) (ring'.trans ring))
    case closeBusy =>
      obtain ⟨v, hl, done, streams, consumer⟩ := State.answered_eq ((s.stamp cyc).modStream r.stream
        fun y => { y with closeAsked := some r.reqTag }) r Status.ACCEPTED 0
      refine ⟨_, _, exec_close_busy held h kind open_ busy, rfl, ?_⟩
      rw [done]
      have same : v.streams = kmod s.srv.streams r.stream fun y => { y with closeAsked := some r.reqTag } := streams
      exact ⟨(congrArg (kget? · _) same).trans (kget?_kmod_self held _), fun j other =>
        (congrArg (kget? · _) same).trans (kget?_kmod_ne _ other _), rfl⟩
    case close =>
      obtain ⟨v, dropped, left, -⟩ := State.dropStream_still (s := s.stamp cyc) held still
      obtain ⟨w, hl, done, streams, consumer⟩ := State.answered_eq ((s.stamp cyc).dropStream r.stream) r Status.COMPLETE
        (noticeFlags false true)
      refine ⟨_, _, exec_close_idle held h kind open_ idle, rfl, ?_⟩
      rw [dropped] at done streams ⊢
      rw [done, State.leaveTemplate_eq]
      exact ⟨streams.trans left, rfl, rfl, rfl⟩
    case park =>
      refine ⟨_, _, exec_park held h kind here, rfl, ?_⟩
      cases busy : x.busy with
      | true =>
        obtain ⟨v, hl, done, streams, -⟩ := State.answered_eq ((s.stamp cyc).modStream r.stream
          fun y => { y with parkAsked := some r.reqTag }) r Status.ACCEPTED 0
        rw [if_pos rfl, if_pos rfl, done]
        have same : v.streams = kmod s.srv.streams r.stream fun y => { y with parkAsked := some r.reqTag } := streams
        exact ⟨(congrArg (kget? · _) same).trans (kget?_kmod_self held _), fun j other =>
          (congrArg (kget? · _) same).trans (kget?_kmod_ne _ other _), rfl, rfl⟩
      | false =>
        obtain ⟨v, hl, done, streams, -⟩ := State.answered_eq (((s.stamp cyc).modStream r.stream
          fun y => { y with parkAsked := some r.reqTag }).askPark r.stream) r Status.ACCEPTED 0
        rw [if_neg Bool.false_ne_true, if_neg Bool.false_ne_true, done]
        have same : v.streams = kmod s.srv.streams r.stream fun y => { y with parkAsked := some r.reqTag } := streams
        exact ⟨(congrArg (kget? · _) same).trans (kget?_kmod_self held _), fun j other =>
          (congrArg (kget? · _) same).trans (kget?_kmod_ne _ other _), rfl, rfl⟩
    case unpark =>
      obtain ⟨v, hl, done, streams, -⟩ := State.answered_eq ((s.stamp cyc).startUnpark r.stream r.reqTag) r Status.ACCEPTED 0
      refine ⟨_, _, exec_unpark held h kind parked still, rfl, ?_⟩
      rw [done]
      unfold State.startUnpark at streams ⊢
      dsimp only at streams ⊢
      split at streams
      · next none =>
        rw [if_pos none]
        have same : v.streams = kmod s.srv.streams r.stream fun y => { y with state := .idle } := streams
        refine ⟨fun _ => ⟨(congrArg (kget? · _) same).trans (kget?_kmod_self held _), rfl⟩, fun some =>
          absurd (List.isEmpty_iff.1 none) some, rfl⟩
      · next pages =>
        rw [if_neg pages]
        have same : v.streams = kmod s.srv.streams r.stream fun y => { y with unparkTag := some r.reqTag } := streams
        exact ⟨fun none => absurd (List.isEmpty_iff.2 none) pages, fun _ =>
          ⟨(congrArg (kget? · _) same).trans (kget?_kmod_self held _), rfl, rfl⟩, rfl⟩

end Sys2Proof.Machine
end

section
/-! PROOFS. The operations of SYNC stations and the messages of the span at their objects (R366, R368, R369, R375). -/

namespace Sys2Proof.Machine

section
variable {s : State} {r : ObjRef} {x : SyncObj}

/-! ### Participants and objects -/

@[simp] theorem State.part?_stamp (s : State) (cyc k : Nat) : (s.stamp cyc).part? k = s.part? k := rfl

theorem State.part?_modPart_self (s : State) (k : Nat) (f : Participant → Participant) :
    (s.modPart k f).part? k = f (s.part? k) := by simp [State.part?, State.modPart, kgetD]

theorem State.part?_modPart_ne (s : State) {k j : Nat} (f : Participant → Participant) (other : j ≠ k) :
    (s.modPart k f).part? j = s.part? j := by simp [State.part?, State.modPart, kgetD, kget?_kset_ne _ _ other]

@[simp] theorem State.obj_modPart (s : State) (k : Nat) (f : Participant → Participant) :
    (s.modPart k f).obj r = s.obj r := rfl

/-- An object that is not all zero reads back. -/
theorem State.obj_setObj (s : State) (r : ObjRef) (live : x ≠ {}) : (s.setObj r x).obj r = x := by
  unfold State.setObj State.obj putObj
  split <;> simp [*, kgetD]

theorem State.setObj_banks (s : State) (bank : r.bank = true) (x : SyncObj) :
    (s.setObj r x).syn.banks = putObj s.syn.banks r.key x ∧ (s.setObj r x).syn.tiles = s.syn.tiles := by
  unfold State.setObj
  rw [if_pos bank]
  exact ⟨rfl, rfl⟩

theorem State.setObj_tiles (s : State) (tile : r.bank = false) (x : SyncObj) :
    (s.setObj r x).syn.tiles = putObj s.syn.tiles r.key x ∧ (s.setObj r x).syn.banks = s.syn.banks := by
  unfold State.setObj
  rw [if_neg (by simp [tile])]
  exact ⟨rfl, rfl⟩

theorem State.setObj_rest (s : State) (r : ObjRef) (x : SyncObj) :
    (s.setObj r x).syn.participants = s.syn.participants ∧ (s.setObj r x).syn.saturated = s.syn.saturated ∧
    { s.setObj r x with syn := s.syn } = s := by
  unfold State.setObj
  split <;> exact ⟨rfl, rfl, rfl⟩

theorem kdel_absent {α : Type} {m : KMap α} {k : Nat} (absent : kget? m k = none) : kdel m k = m := by
  induction m with
  | nil => rfl
  | cons e m ih =>
    obtain ⟨j, w⟩ := e
    unfold kget? at absent
    unfold kdel
    split
    · next here => rw [if_pos here] at absent; nomatch absent
    · next other => rw [if_neg other] at absent; rw [ih absent]

/-- With no wait an object serves none. -/
theorem State.serveWaits_none (empty : (s.obj r).waits = []) : s.serveWaits r = s := by
  unfold State.serveWaits
  rw [empty]
  rfl

/-- An object set to what it is, or to what is not all zero, reads back; `live` is what the statements assume. -/
theorem State.waits_setObj {v : Nat} (empty : (s.obj r).waits = [])
    (live : 0 < v ∨ kget? (if r.bank then s.syn.banks else s.syn.tiles) r.key ≠ some {}) (full : v = 0 → (s.obj r).value = 0) :
    ((s.setObj r { s.obj r with value := v }).obj r).waits = [] := by
  by_cases zero : ({ s.obj r with value := v } : SyncObj) = {}
  · have value : v = 0 := congrArg SyncObj.value zero
    have same : s.obj r = {} := by
      rw [← zero]
      cases h : s.obj r
      simp [value, ← full value, h]
    have absent : kget? (if r.bank then s.syn.banks else s.syn.tiles) r.key = none := by
      have got : (kget? (if r.bank then s.syn.banks else s.syn.tiles) r.key).getD {} = {} := same
      cases held : kget? (if r.bank then s.syn.banks else s.syn.tiles) r.key with
      | none => rfl
      | some y =>
        rw [held] at got
        exact absurd (held.trans (congrArg some got)) (live.resolve_left (by omega))
    unfold State.setObj State.obj putObj at *
    rw [zero]
    split at absent
    all_goals simp_all [kgetD, kdel_absent]
  · rw [State.obj_setObj s r zero]
    exact empty

/-! ### Signals and waits -/

/-- A SIGNAL at an object with no wait adds its amount, saturating, and does nothing else (R368). -/
theorem State.signal_eq {amount : Nat} (sound : (s.obj r).state ≠ .broken) (empty : (s.obj r).waits = [])
    (live : 0 < (s.obj r).value + amount ∨ kget? (if r.bank then s.syn.banks else s.syn.tiles) r.key ≠ some {}) :
    ∃ n, s.signal r amount = { s.setObj r { s.obj r with value := sat 32 ((s.obj r).value + amount) } with
      syn := { (s.setObj r { s.obj r with value := sat 32 ((s.obj r).value + amount) }).syn with saturated := n } } ∧
      n = if (s.obj r).value + amount < 2 ^ 32 then s.syn.saturated else sat 32 (s.syn.saturated + 1) := by
  have waits := State.waits_setObj (v := sat 32 ((s.obj r).value + amount)) empty
    (live.imp_left fun some => by simp [sat]; omega) (fun none => by simp [sat] at none; omega)
  obtain ⟨-, saturated, -⟩ := s.setObj_rest r { s.obj r with value := sat 32 ((s.obj r).value + amount) }
  unfold State.signal
  rw [if_neg sound]
  dsimp only
  split
  · next full =>
    rw [if_neg (Nat.not_lt.2 full)]
    refine ⟨_, State.serveWaits_none waits, by rw [saturated]⟩
  · next below =>
    rw [if_pos (Nat.not_le.1 below)]
    refine ⟨_, (State.serveWaits_none waits).trans ?_, rfl⟩
    rw [← saturated]

/-- A wait whose condition does not hold joins an object with no other (R368). -/
theorem State.registerWait_eq {w : WaitReg} (sound : (s.obj r).state ≠ .broken) (empty : (s.obj r).waits = [])
    (below : (s.obj r).value < w.threshold) : s.registerWait r w = s.setObj r { s.obj r with waits := [w] } := by
  have first : addWait r.bank w [] = [w] := by cases r.bank <;> rfl
  have back : (s.setObj r { s.obj r with waits := [w] }).obj r = { s.obj r with waits := [w] } :=
    State.obj_setObj s r (by intro none; simpa using congrArg SyncObj.waits none)
  unfold State.registerWait
  rw [if_neg sound]
  dsimp only
  rw [empty, first, State.serveWaits, back]
  simp only [List.foldl_cons, List.foldl_nil, back, if_neg (Nat.not_le.2 below)]

/-- What a SIGNAL does at its object, in the pair of its kind. -/
theorem State.signal_spec {amount : Nat} (sound : (s.obj r).state ≠ .broken) (empty : (s.obj r).waits = [])
    (live : 0 < (s.obj r).value + amount ∨ kget? (if r.bank then s.syn.banks else s.syn.tiles) r.key ≠ some {}) :
    let x : SyncObj := { s.obj r with value := min (2 ^ 32 - 1) ((s.obj r).value + amount) }
    (r.bank = true → (s.signal r amount).syn.banks = putObj s.syn.banks r.key x ∧
      (s.signal r amount).syn.tiles = s.syn.tiles) ∧
    (r.bank = false → (s.signal r amount).syn.tiles = putObj s.syn.tiles r.key x ∧
      (s.signal r amount).syn.banks = s.syn.banks) ∧
    (s.signal r amount).syn.participants = s.syn.participants ∧
    (s.signal r amount).syn.saturated = (if (s.obj r).value + amount < 2 ^ 32 then s.syn.saturated
      else min (2 ^ 32 - 1) (s.syn.saturated + 1)) ∧
    { s.signal r amount with syn := s.syn } = s := by
  intro x
  obtain ⟨n, eq, saturated⟩ := State.signal_eq sound empty live
  obtain ⟨participants, -, rest⟩ := s.setObj_rest r x
  rw [eq]
  exact ⟨s.setObj_banks (r := r) (x := x), s.setObj_tiles (r := r) (x := x), participants, saturated, rest⟩

/-! ### The commands -/

variable {cyc i p : Nat} {o : SyncOp}

theorem exec_syncSignal_local (head : s.syncHead i p 1 = some o) (here : (s.stamp cyc).localObj o.object = some r)
    (sound : (s.obj r).state ≠ .broken) : exec (.syncSignal cyc i p) s =
      .next (((s.stamp cyc).signal r o.arg).modPart (4 * i + p) fun p => p.free 0).torusDone := by
  have run : exec (.syncSignal cyc i p) s = execSyncSignal cyc i p s := rfl
  rw [run, execSyncSignal, head]
  dsimp only
  rw [here]
  exact if_neg sound

theorem exec_syncSignal_broken (head : s.syncHead i p 1 = some o) (here : (s.stamp cyc).localObj o.object = some r)
    (broken : (s.obj r).state = .broken) : exec (.syncSignal cyc i p) s =
      .next ((s.stamp cyc).passBroken (4 * i + p) (s.obj r).cause) := by
  have run : exec (.syncSignal cyc i p) s = execSyncSignal cyc i p s := rfl
  rw [run, execSyncSignal, head]
  dsimp only
  rw [here]
  exact if_pos broken

/-- The tile at an input, held by a wait that registers. -/
def State.heldWait (s : State) (k : Nat) : State := (s.hold k).modPart k fun p => { p with registered := true }

theorem State.heldWait_part (s : State) (k : Nat) : ((s.heldWait k).part? k).registered = true ∧
    ((s.heldWait k).part? k).heldSince.isSome = true ∧ ((s.heldWait k).part? k).pass = (s.part? k).pass := by
  unfold State.heldWait State.hold
  rw [State.part?_modPart_self, State.part?_modPart_self]
  exact ⟨rfl, rfl, rfl⟩

theorem exec_syncWait_local (head : s.syncHead i p 2 = some o) (here : (s.stamp cyc).localObj o.object = some r)
    (sound : (s.obj r).state ≠ .broken) (fresh : (s.part? (4 * i + p)).registered = false) :
    exec (.syncWait cyc i p) s = .next (((s.stamp cyc).heldWait (4 * i + p)).registerWait r {
      module := s.lce.position.getD 0, station := i, input := p, threshold := o.arg, consume := o.consume }).torusDone := by
  have run : exec (.syncWait cyc i p) s = execSyncWait cyc i p s := rfl
  have unregistered : ¬ ((s.stamp cyc).part? (4 * i + p)).registered = true := by
    rw [show (s.stamp cyc).part? (4 * i + p) = s.part? (4 * i + p) from rfl, fresh]
    nofun
  rw [run, execSyncWait, head]
  dsimp only
  rw [here]
  exact (if_neg sound).trans (if_neg unregistered)

theorem exec_waitRelease_remote (registered : (s.part? (4 * i + p)).registered = true)
    (op : (s.stamp cyc).syncOp i = some o) (wait : o.opcode = 2) (elsewhere : (s.stamp cyc).localObj o.object = none) :
    exec (.waitRelease cyc i p) s = .next ((s.stamp cyc).freeRemote (4 * i + p) 0) := by
  have run : exec (.waitRelease cyc i p) s = execWaitRelease cyc i p s := rfl
  rw [run, execWaitRelease]
  refine if_pos ?_
  simpa [op, wait, elsewhere] using registered

theorem exec_waitRelease_saved {c : SavedContext} (free : (s.part? (4 * i + p)).registered = false)
    (saved : s.syn.context = some c) (registered : (kgetD c.participants (4 * i + p) {}).registered = true) :
    exec (.waitRelease cyc i p) s = .next ((s.stamp cyc).recordRelease (4 * i + p) 0) := by
  have run : exec (.waitRelease cyc i p) s = execWaitRelease cyc i p s := rfl
  have context : (s.stamp cyc).syn.context = some c := saved
  have unregistered : ((s.stamp cyc).part? (4 * i + p)).registered = false := free
  rw [run, execWaitRelease]
  simp only [unregistered, Bool.false_and, Bool.false_eq_true, if_false, context, registered, if_true]

theorem State.recordRelease_new {k cause : Nat} {c : SavedContext} (saved : s.syn.context = some c)
    (new : (k, cause) ∉ c.releases) :
    (s.recordRelease k cause).syn.context = some { c with releases := c.releases ++ [(k, cause)] } := by
  simp [State.recordRelease, saved, new]

theorem exec_breakNode_here {object cause : Nat} (here : s.lce.position = some (objectModule object))
    (node : bits object 31 30 = 2) : exec (.breakNode cyc object cause) s =
      .next ((s.stamp cyc).nodeMsg (.broke cause) (spanRef object)).torusDone := by
  have run : exec (.breakNode cyc object cause) s = execBreakNode cyc object cause s := rfl
  rw [run, execBreakNode, State.broken, if_pos (by simp [here, node])]

/-- A break goes on to the parent and to the children in this module (R375). -/
theorem State.nodeStep_broke {cause : Nat} (sound : (s.obj r).state ≠ .broken) :
    (s.nodeStep (.broke cause) r).2.map (·.1) =
      ((s.parentRef r).toList ++ s.tileChildren r).map fun _ => .broke cause := by
  unfold State.nodeStep
  dsimp only
  rw [if_neg sound, List.map_map]
  rfl

end

/-- Settles O22: each command by its lemma, and the objects by those of a SIGNAL and of a wait. -/
theorem syncOperationsMeetObjects : Obligations.SyncOperationsMeetObjects := by
  unfold Obligations.SyncOperationsMeetObjects
  refine ⟨⟨fun cyc i p o r s head here => ⟨fun sound empty live => ?signal, fun broken fresh => ?broken⟩,
    fun cyc i p o r s head here sound fresh empty below => ?wait⟩,
    fun cyc object amount s sound empty live => ?spanSignal, fun cyc object w s sound empty below => ?register,
    fun cyc i p o s registered op wait elsewhere => ?released, fun cyc i p c s free saved registered new => ?saved,
    fun cyc object cause s here node => ?break_⟩
  case signal =>
    obtain ⟨bank, tile, participants, saturated, rest⟩ :=
      State.signal_spec (s := s.stamp cyc) (r := r) (amount := o.arg) sound empty live
    refine ⟨_, _, exec_syncSignal_local head here sound, rfl, bank, tile, ?_, saturated, ?_⟩
    · rw [State.part?_modPart_self, State.part?, participants]; rfl
    · exact (congrArg (fun t : State => { t with tb := s.tb }) rest).trans rfl
  case broken =>
    refine ⟨_, exec_syncSignal_broken head here broken, ?_, fun some => ?_, rfl⟩
    · rw [State.passBroken, State.part?_modPart_self, if_neg (by simpa using fresh)]
      rfl
    · rw [State.passBroken, State.part?_modPart_self, if_neg (by simpa using fresh)]
      exact if_neg some
  case wait =>
    have registers := State.registerWait_eq (s := (s.stamp cyc).heldWait (4 * i + p)) (r := r) (w := {
      module := s.lce.position.getD 0, station := i, input := p, threshold := o.arg, consume := o.consume }) sound empty below
    obtain ⟨participants, -, rest⟩ := ((s.stamp cyc).heldWait (4 * i + p)).setObj_rest r { s.obj r with waits := [{
      module := s.lce.position.getD 0, station := i, input := p, threshold := o.arg, consume := o.consume }] }
    obtain ⟨registered, held, pass⟩ := (s.stamp cyc).heldWait_part (4 * i + p)
    refine ⟨_, _, exec_syncWait_local head here sound fresh, rfl, ?_⟩
    rw [registers]
    unfold State.part? at registered held pass ⊢
    refine ⟨fun bank => (State.setObj_banks _ bank _).1, ?_, ?_, ?_, ?_⟩
    · exact (congrArg (fun m => (kgetD m (4 * i + p) {}).registered) participants).trans registered
    · exact (congrArg (fun m => (kgetD m (4 * i + p) {}).heldSince.isSome) participants).trans held
    · exact (congrArg (fun m => (kgetD m (4 * i + p) {}).pass) participants).trans pass
    · exact (congrArg (fun t : State => { t with syn := s.syn, tb := s.tb }) rest).trans rfl
  case spanSignal =>
    obtain ⟨bank, -, -, -, rest⟩ := State.signal_spec (s := s.stamp cyc) (r := spanRef object) (amount := amount % 2 ^ 32)
      sound empty live
    refine ⟨_, _, rfl, rfl, (bank rfl).1, ?_⟩
    exact (congrArg (fun t : State => { t with tb := s.tb }) rest).trans rfl
  case register =>
    have registers := State.registerWait_eq (s := s.stamp cyc) (r := spanRef object) (w := w) sound empty below
    refine ⟨_, _, rfl, rfl, ?_⟩
    rw [registers]
    exact ⟨rfl, rfl⟩
  case released =>
    refine ⟨_, exec_waitRelease_remote registered op wait elsewhere, ?_, fun k other => ?_, rfl, rfl, rfl⟩
    · exact (s.stamp cyc).part?_modPart_self (4 * i + p) fun p => p.free 0
    · exact (s.stamp cyc).part?_modPart_ne (fun p => p.free 0) other
  case saved => exact ⟨_, exec_waitRelease_saved free saved registered, State.recordRelease_new (by exact saved) new, rfl⟩
  case break_ => exact ⟨_, exec_breakNode_here here node, rfl, State.nodeStep_broke⟩

end Sys2Proof.Machine
end

section
/-! PROOFS. Barrier nodes and the rounds that they run in (R370, R371). -/

namespace Sys2Proof.Machine

/-! ### Messages to other modules and the tree -/

/-- What a message to another module leaves alone of the synchronization tree. -/
structure TreeView where
  syn : Sync
  position : Option Nat
  spanMask : Nat

/-- The objects, and where the module stands in its span. -/
def State.treeView (s : State) : TreeView := {
    syn := s.syn, position := s.lce.position, spanMask := s.lce.spanMask }

theorem State.fold_treeView (s : State) : s.syn = s.treeView.syn ∧ s.lce.position = s.treeView.position ∧
    s.lce.spanMask = s.treeView.spanMask := by simp [State.treeView]

theorem State.treeView_mk (part : Part) (pending : List Instr) (free : Nat) (regs : KMap Nat) (blobs : KMap (List
    Byte)) (tb : TimeBase) (planner : Planner) (fab : Fabric) (mxe : Engine) (chn : ChainCounters) (mem : Memory)
    (pages : Pages) (store : Store) (srv : Serving) (syn : Sync) (lce : Torus) (dsp : Dispatch) (hlk : HostLink) (dict
    : Dict) (ras : Ras) (pwr : Power) (boot : Boot) (sec : Security) : State.treeView {
    part := part, pending := pending, free := free, regs := regs, blobs := blobs, tb := tb, planner := planner, fab :=
    fab, mxe := mxe, chn := chn, mem := mem, pages := pages, store := store, srv := srv, syn := syn, lce := lce,
    dsp := dsp, hlk := hlk, dict := dict, ras := ras, pwr := pwr, boot := boot, sec := sec } = {
    syn := syn, position := lce.position, spanMask := lce.spanMask } := rfl

@[simp] theorem State.treeView_ite (c : Prop) [Decidable c] (s t : State) :
    (if c then s else t).treeView = if c then s.treeView else t.treeView := by split <;> rfl

section
variable {α γ : Type} {f : State → α → State} {k : State × γ → α → State × γ} {h : γ × State → α → γ × State}

@[simp] theorem State.treeView_foldl (keeps : ∀ t a, (f t a).treeView = t.treeView) (l : List α) (s : State) :
    (l.foldl f s).treeView = s.treeView := State.keeps_foldl _ keeps l s
@[simp] theorem State.treeView_foldl_fst (keeps : ∀ p a, (k p a).1.treeView = p.1.treeView) (l : List α) (p : State × γ) :
    (l.foldl k p).1.treeView = p.1.treeView := State.keeps_foldl_fst (fun t => t.treeView) keeps l p
@[simp] theorem State.treeView_foldl_snd (keeps : ∀ p a, (h p a).2.treeView = p.2.treeView) (l : List α) (p : γ × State) :
    (l.foldl h p).2.treeView = p.2.treeView := State.keeps_foldl_snd (fun t => t.treeView) keeps l p

end

@[simp] theorem State.raiseFor_treeView (s : State) (code group arg0 arg1 arg2 : Nat) : (s.raiseFor code group arg0
    arg1 arg2).treeView = s.treeView := by
  simp [State.treeView]

@[simp] theorem State.raise_treeView (s : State) (code arg0 arg1 arg2 : Nat) : (s.raise code arg0 arg1 arg2).treeView
    = s.treeView := by
  simp [State.treeView]

@[simp] theorem State.modLace_treeView (s : State) (l : Nat) (f : Lace → Lace) : (State.modLace s l f).treeView =
    s.treeView := by
  unfold State.modLace; simp [State.fold_treeView, State.treeView_mk]

@[simp] theorem State.freeSlots_treeView (s : State) (xs : List (Nat × Nat × Bool × Nat)) : (State.freeSlots s
    xs).treeView = s.treeView := by
  unfold State.freeSlots; simp [State.fold_treeView, State.treeView_mk]

@[simp] theorem State.laceDrain_treeView (s : State) (l : Nat) : (State.laceDrain s l).treeView = s.treeView := by
  unfold State.laceDrain; simp [State.fold_treeView, State.treeView_mk]

@[simp] theorem State.laceSend_treeView (s : State) (l : Nat) (x : LaceTx) : (State.laceSend s l x).treeView =
    s.treeView := by
  unfold State.laceSend; simp [State.fold_treeView, State.treeView_mk]

@[simp] theorem State.oweFault_treeView (s : State) (tag : Nat) : (State.oweFault s tag).treeView = s.treeView := by
  unfold State.oweFault; simp [State.fold_treeView, State.treeView_mk, State.modTorus]

@[simp] theorem State.unreachable_treeView (s : State) (h : PacketHeader) : (State.unreachable s h).treeView =
    s.treeView := by
  unfold State.unreachable; simp [State.fold_treeView, State.treeView_mk, State.modTorus]

@[simp] theorem State.forward_treeView (s : State) (h : PacketHeader) (flits : List Flit) (p l : Nat) (turned : Bool)
    (origin : Option (Nat × Nat × Bool)) : (State.forward s h flits p l turned origin).treeView = s.treeView := by
  unfold State.forward; dsimp only; split <;> simp [State.fold_treeView, State.treeView_mk]

@[simp] theorem State.inject_treeView (s : State) (h : PacketHeader) (flits : List Flit) : (State.inject s h
    flits).treeView = s.treeView := by
  unfold State.inject; dsimp only; (repeat' split) <;> simp [State.fold_treeView, State.treeView_mk, State.modTorus]

@[simp] theorem State.sendSync_treeView (s : State) (dest op object arg : Nat) : (State.sendSync s dest op object
    arg).treeView = s.treeView := by
  unfold State.sendSync; simp [State.fold_treeView, State.treeView_mk]

section
variable {s t : State} {r : ObjRef} {m m' : NodeMsg} {cyc i p object : Nat} {o : SyncOp}

@[simp] theorem State.toModules_treeView (s : State) (ms : List Nat) (op : Nat) (r : ObjRef) (arg : Nat) :
    (s.toModules ms op r arg).treeView = s.treeView := by
  unfold State.toModules
  simp

/-! ### What a message at a node does (R371) -/

/-- A message that no other follows. -/
theorem State.nodeMsg_ends (step : s.nodeStep m r = (t, [])) : s.nodeMsg m r = t := by
  have fuel : 64 + 16 * s.syn.tiles.length = (62 + 16 * s.syn.tiles.length) + 2 := by omega
  rw [State.nodeMsg, fuel, State.nodes, step]
  rfl

/-- A message that one other follows, which leads to nothing. -/
theorem State.nodeMsg_ends_after (step : s.nodeStep m r = (t, [(m', r)])) (ends : t.nodeStep m' r = (t, [])) :
    s.nodeMsg m r = t := by
  have fuel : 64 + 16 * s.syn.tiles.length = (61 + 16 * s.syn.tiles.length) + 3 := by omega
  rw [State.nodeMsg, fuel, State.nodes, step]
  dsimp only [List.nil_append]
  rw [State.nodes, ends]
  rfl

theorem State.nodeStep_arrived (opened : (s.obj r).state = .opn) : s.nodeStep (.arrived none) r =
    (s.setObj r { s.obj r with value := sat 32 ((s.obj r).value + 1) }, [(.count, r)]) := by
  unfold State.nodeStep
  dsimp only
  rw [if_neg (by simp [opened])]

/-- Below its target a node waits for more arrivals. -/
theorem State.nodeStep_count_below (below : (s.obj r).target = 0 ∨ (s.obj r).value < (s.obj r).target) :
    s.nodeStep .count r = (s, []) := by
  unfold State.nodeStep
  dsimp only
  rw [if_pos]
  simp only [Bool.or_eq_true, decide_eq_true_eq]
  omega

theorem State.nodeStep_answered (releasing : (s.obj r).state = .releasing) : s.nodeStep .answered r =
    (s.setObj r { s.obj r with answers := (s.obj r).answers + 1 }, [(.look, r)]) := by
  unfold State.nodeStep
  dsimp only
  rw [if_neg (by simp [releasing])]

theorem State.tileChildren_nil (r : ObjRef) (empty : s.syn.tiles = []) : s.tileChildren r = [] := by
  unfold State.tileChildren
  (repeat' split) <;> simp [empty]

theorem State.savedChildren_zero (r : ObjRef) (unsaved : s.syn.context = none) : s.savedChildren r = 0 := by
  unfold State.savedChildren
  rw [unsaved]

/-- A bank node with answers to come from child modules waits for them. -/
theorem State.nodeStep_look_waits (bank : r.bank = true) (empty : s.syn.tiles = []) (unsaved : s.syn.context = none)
    (waits : (s.obj r).answers ≠ (s.spanChildren (s.obj r)).length) : s.nodeStep .look r = (s, []) := by
  unfold State.nodeStep
  dsimp only
  rw [if_pos]
  simp [bank, State.tileChildren_nil r empty, State.savedChildren_zero r unsaved, waits]

/-- A release with no tile object under the node reaches the child modules and then looks at the answers. -/
theorem State.nodeStep_release (bank : r.bank = true) (empty : s.syn.tiles = []) (unsaved : s.syn.context = none)
    (sound : (s.obj r).state ≠ .broken) : s.nodeStep .release r =
      ((s.setObj r { s.obj r with state := .releasing, answers := 0 }).toModules (s.spanChildren (s.obj r)) 5 r 0,
        [(.look, r)]) := by
  unfold State.nodeStep
  dsimp only
  rw [if_neg sound, if_pos bank, State.tileChildren_nil r empty, State.savedChildren_zero r unsaved]
  rfl

theorem State.nodeStep_reopen (empty : s.syn.tiles = []) (sound : (s.obj r).state ≠ .broken) : s.nodeStep .reopen r =
    ((s.setObj r { s.obj r with
        state := .opn, phase := !(s.obj r).phase, value := 0, round := ((s.obj r).round + 1) % 65536
        quadArrived := List.replicate 8 0, answers := 0 }).toModules (s.spanChildren (s.obj r)) 7 r 0, []) := by
  unfold State.nodeStep
  dsimp only
  rw [if_neg sound, State.tileChildren_nil r empty]
  rfl

/-! ### The messages of the span -/

@[simp] theorem State.obj_stamp (s : State) (cyc : Nat) (r : ObjRef) : (s.stamp cyc).obj r = s.obj r := rfl

theorem State.toModules_syn (s : State) (ms : List Nat) (op : Nat) (r : ObjRef) (arg : Nat) :
    (s.toModules ms op r arg).syn = s.syn := congrArg TreeView.syn (s.toModules_treeView ms op r arg)

theorem State.toModules_obj (s : State) (ms : List Nat) (op : Nat) (r q : ObjRef) (arg : Nat) :
    (s.toModules ms op r arg).obj q = s.obj q := by
  unfold State.obj
  rw [State.toModules_syn]

/-- The children of a module follow from its place and the span's mask. -/
theorem Torus.children_congr {t u : Torus} (position : t.position = u.position) (mask : t.spanMask = u.spanMask) :
    t.children = u.children := by
  have members : t.members = u.members := by simp only [Torus.members, position, mask]
  have parent : t.parentOf = u.parentOf := by
    funext m
    simp only [Torus.parentOf, Torus.root, members]
    congr
  unfold Torus.children
  rw [position, members, parent]

theorem State.toModules_spanChildren (s : State) (ms : List Nat) (op : Nat) (r : ObjRef) (arg : Nat) (x : SyncObj) :
    (s.toModules ms op r arg).spanChildren x = s.spanChildren x := by
  have view := s.toModules_treeView ms op r arg
  have children := Torus.children_congr (t := (s.toModules ms op r arg).lce) (u := s.lce)
    (congrArg TreeView.position view) (congrArg TreeView.spanMask view)
  simp only [State.spanChildren, children]

theorem State.setObj_spanChildren (s : State) (r : ObjRef) (x y : SyncObj) :
    (s.setObj r x).spanChildren y = s.spanChildren y := by
  unfold State.setObj
  split <;> rfl

theorem State.nodeMsg_arrived (opened : (s.obj r).state = .opn) (barrier : (s.obj r).barrier = true)
    (below : (s.obj r).target = 0 ∨ sat 32 ((s.obj r).value + 1) < (s.obj r).target) : s.nodeMsg (.arrived none) r =
      s.setObj r { s.obj r with value := sat 32 ((s.obj r).value + 1) } := by
  refine State.nodeMsg_ends_after (State.nodeStep_arrived opened) (State.nodeStep_count_below ?_)
  rw [State.obj_setObj _ _ fun none => by simpa [barrier] using congrArg SyncObj.barrier none]
  exact below

theorem State.nodeMsg_answered (bank : r.bank = true) (empty : s.syn.tiles = []) (unsaved : s.syn.context = none)
    (releasing : (s.obj r).state = .releasing)
    (waits : (s.obj r).answers + 1 < (s.spanChildren (s.obj r)).length) : s.nodeMsg .answered r =
      s.setObj r { s.obj r with answers := (s.obj r).answers + 1 } := by
  have back := State.obj_setObj s r (x := { s.obj r with answers := (s.obj r).answers + 1 })
    fun none => by simpa using congrArg SyncObj.answers none
  have tiles : (s.setObj r { s.obj r with answers := (s.obj r).answers + 1 }).syn.tiles = [] := by
    rw [(State.setObj_banks s bank _).2, empty]
  have context : (s.setObj r { s.obj r with answers := (s.obj r).answers + 1 }).syn.context = none := by
    unfold State.setObj
    rw [if_pos bank]
    exact unsaved
  refine State.nodeMsg_ends_after (State.nodeStep_answered releasing) (State.nodeStep_look_waits bank tiles context ?_)
  rw [back, State.setObj_spanChildren]
  exact Nat.ne_of_lt waits

theorem State.nodeMsg_release (bank : r.bank = true) (empty : s.syn.tiles = []) (unsaved : s.syn.context = none)
    (sound : (s.obj r).state ≠ .broken) (barrier : (s.obj r).barrier = true)
    (children : s.spanChildren (s.obj r) ≠ []) : s.nodeMsg .release r =
      (s.setObj r { s.obj r with state := .releasing, answers := 0 }).toModules (s.spanChildren (s.obj r)) 5 r 0 := by
  have back := State.obj_setObj s r (x := { s.obj r with state := .releasing, answers := 0 })
    fun none => by simpa [barrier] using congrArg SyncObj.barrier none
  have syn := State.toModules_syn (s.setObj r { s.obj r with state := .releasing, answers := 0 })
    (s.spanChildren (s.obj r)) 5 r 0
  refine State.nodeMsg_ends_after (State.nodeStep_release bank empty unsaved sound) (State.nodeStep_look_waits bank ?_ ?_ ?_)
  · rw [syn, (State.setObj_banks s bank _).2, empty]
  · rw [syn, State.setObj, if_pos bank]
    exact unsaved
  · rw [State.toModules_obj, back, State.toModules_spanChildren, State.setObj_spanChildren]
    exact fun zero => children (List.length_eq_zero_iff.1 zero.symm)

/-! ### The commands -/

/-- A tile that arrives at an OPEN barrier in its phase. -/
theorem State.arriveAt_open {k : Nat} (opened : (s.obj ⟨false, o.tileKey⟩).state = .opn)
    (phase : (s.part? k).phase = (s.obj ⟨false, o.tileKey⟩).phase) (fresh : (s.part? k).arrived = false) (moves : Bool) :
    s.arriveAt k o moves = (State.nodeMsg
      (let t := s.modPart k fun p => { p with phase := !p.phase, arrived := true }
       if moves then t.modPart k fun p => p.free 0 else t.hold k) (.arrived none) ⟨false, o.tileKey⟩).torusDone := by
  unfold State.arriveAt
  dsimp only
  rw [if_neg (by rw [opened]; nofun), if_pos (by simp [opened, phase, fresh])]

end

/-- Settles O23: each command by what its message does at the node. -/
theorem barriersRunInRounds : Obligations.BarriersRunInRounds := by
  unfold Obligations.BarriersRunInRounds
  refine ⟨⟨fun cyc i p o s head opened phase fresh => ?arrive, fun cyc i p o s head opened phase fresh => ?barrier,
    fun r s opened => State.nodeStep_arrived opened⟩,
    fun cyc object s opened node below => ?child, fun cyc object s complete empty unsaved children node => ?release,
    fun cyc object s releasing empty unsaved waits => ?answer, fun cyc object s reopening empty => ?reopen⟩
  case arrive =>
    have run : exec (.syncArrive cyc i p) s = execSyncArrive cyc i p s := rfl
    rw [run, execSyncArrive, head]
    dsimp only
    rw [State.arriveAt_open (s := s.stamp cyc) opened phase fresh, if_pos rfl]
    refine ⟨_, _, rfl, rfl, ?_, rfl⟩
    rw [State.part?_modPart_self, State.part?_modPart_self]
    rfl
  case barrier =>
    have run : exec (.syncBarrier cyc i p) s = execSyncBarrier cyc i p s := rfl
    rw [run, execSyncBarrier, head]
    dsimp only
    rw [State.arriveAt_open (s := s.stamp cyc) opened phase fresh, if_neg Bool.false_ne_true]
    refine ⟨_, _, rfl, rfl, ?_⟩
    rw [State.hold, State.part?_modPart_self, State.part?_modPart_self]
    exact ⟨rfl, rfl, rfl, rfl⟩
  case child =>
    have run : exec (.arrive cyc object) s = execArrive cyc object s := rfl
    have named : (s.stamp cyc).openNode object = s.stamp cyc := if_pos node
    rw [run, execArrive, named, State.nodeMsg_arrived (s := s.stamp cyc) opened node below]
    exact ⟨_, _, rfl, rfl, (State.setObj_banks _ rfl _).1, rfl⟩
  case release =>
    have run : exec (.release cyc object) s = execRelease cyc object s := rfl
    have sound : ((s.stamp cyc).obj (spanRef object)).state ≠ .broken := by rw [State.obj_stamp, complete]; nofun
    rw [run, execRelease]
    dsimp only
    rw [if_pos (show (s.stamp cyc).nodeIn object .complete = true from decide_eq_true complete),
      State.nodeMsg_release (s := s.stamp cyc) rfl empty unsaved sound node children]
    refine ⟨_, _, rfl, rfl, ?_, ?_, ?_⟩
    · rw [State.toModules_syn]
      exact (State.setObj_banks _ rfl _).1
    · rw [State.toModules_syn]
      exact (State.setObj_banks _ rfl _).2.trans empty
    · exact (congrArg StreamView.streams (State.toModules_streamView _ _ _ _ _)).trans rfl
  case answer =>
    have run : exec (.released cyc object) s = execReleased cyc object s := rfl
    rw [run, execReleased, State.nodeMsg_answered (s := s.stamp cyc) rfl empty unsaved releasing waits]
    exact ⟨_, _, rfl, rfl, (State.setObj_banks _ rfl _).1, rfl⟩
  case reopen =>
    have run : exec (.reopen cyc object) s = execReopen cyc object s := rfl
    have sound : ((s.stamp cyc).obj (spanRef object)).state ≠ .broken := by rw [State.obj_stamp, reopening]; nofun
    rw [run, execReopen]
    dsimp only
    rw [if_pos (show (s.stamp cyc).nodeIn object .reopening = true from decide_eq_true reopening),
      State.nodeMsg_ends (State.nodeStep_reopen (s := s.stamp cyc) empty sound)]
    refine ⟨_, _, rfl, rfl, ?_⟩
    rw [State.toModules_syn]
    exact (State.setObj_banks _ rfl _).1

end Sys2Proof.Machine
end

section
/-! PROOFS. The latency that a HELLO_ACK measures (R402), up to the fabric cycle of the message and not to that of the
state before it. -/

namespace Sys2Proof.Machine

/-- A locked module at cycle 0 of a slot, with its laces in HELLO. -/
def greeting : State := { wIn .hello 0 with tb := { state := .locked } }

/-- A HELLO_ACK of the neighbour at cycle 156,249, for a HELLO sent at cycle 0. -/
theorem exec_helloAck_latency {t : State} (ran : exec (.helloAck 156249 0 wHelloMsg 0) greeting = .next t) :
    (t.lace 0).latency = fstCycles (greeting.stamp 156249).fst / 2 := by
  have run : exec (.helloAck 156249 0 wHelloMsg 0) greeting = execHelloAck 156249 0 wHelloMsg 0 greeting := rfl
  have hello : ((greeting.lace 0).state != .hello) = false := by decide
  rw [run, execHelloAck, onUnit_true (by decide)] at ran
  dsimp only at ran
  rw [if_neg (by rw [hello]; nofun), show (greeting.stamp 156249).lce.position = some 9 from rfl] at ran
  dsimp only at ran
  rw [if_pos (by decide)] at ran
  obtain rfl := Host.Outcome.next.inj ran
  rfl

/-- Refutes O25: its clause of HELLO_ACK measures the latency up to the time of the state before the message; the model
measures it up to the message, 156,249 cycles later here. -/
theorem not_lacesTrainAndGreet : ¬ Obligations.LacesTrainAndGreet := by
  unfold Obligations.LacesTrainAndGreet
  rintro ⟨-, greet⟩
  obtain ⟨-, -, acked, -⟩ := greet 156249 0 wHelloMsg greeting (by decide) (by decide)
  obtain ⟨t, ran, lace, -⟩ := (acked 0 9 (by decide) rfl).1 (by decide) rfl (by decide)
  have latency := exec_helloAck_latency ran
  rw [lace] at latency
  exact absurd latency (by decide)

end Sys2Proof.Machine
end

section
/-! PROOFS. What packets, control messages and the span's faults leave alone of the laces and of the module's view of the
torus (R393 to R397, R404, R412). -/

namespace Sys2Proof.Machine

/-! ### What a lace keeps when it sends -/

/-- A lace without what it holds to send, and without the flits that it is receiving; of one that is DOWN, which sends
nothing, only the slots that it gives back and the count of what it discards are left out. -/
def Lace.steady (a : Lace) : Lace :=
  let n : Lace := { a with creditReturns := [], freed := [], receiving := [], discarded := 0 }
  if a.state = .down then n
  else { n with txSeq := 0, replayBuffer := [], waiting := [], flitsSent := 0, dedicated := [], shared := 0 }

theorem Lace.sendSlots_steady (n : Nat) (a : Lace) (xs : List TxSlot) (up : a.state ≠ .down) :
    (Lace.sendSlots n a xs).steady = a.steady ∧ (Lace.sendSlots n a xs).state = a.state := by
  induction n generalizing a xs with
  | zero => exact ⟨rfl, rfl⟩
  | succ n ih =>
    obtain ⟨steady, state⟩ := ih (a.sendFrame (xs.take 38)) (xs.drop 38) up
    refine ⟨steady.trans ?_, state⟩
    simp [Lace.steady, Lace.sendFrame, up]

theorem Lace.emit_steady (a : Lace) (x : LaceTx) (up : a.state ≠ .down) :
    (a.emit x).steady = a.steady ∧ (a.emit x).state = a.state := by
  obtain ⟨steady, state⟩ := Lace.sendSlots_steady x.frames a x.slots up
  unfold Lace.emit
  cases x with
  | control m => exact ⟨steady, state⟩
  | packet p =>
    refine ⟨.trans ?_ steady, state⟩
    simp [Lace.steady, state, up]

theorem Lace.debit_steady {a b : Lace} {p : Packet} (paid : a.debit p = some b) (up : a.state ≠ .down) :
    b.steady = a.steady ∧ b.state = a.state := by
  unfold Lace.debit at paid
  split at paid
  · cases paid
    exact ⟨by simp [Lace.steady, up], rfl⟩
  · split at paid
    · cases paid
      exact ⟨by simp [Lace.steady, up], rfl⟩
    · nomatch paid

/-- What goes out of a lace leaves the rest of it alone. -/
theorem Lace.drain_steady (a : Lace) (up : a.state ≠ .down) : a.drain.steady = a.steady ∧ a.drain.state = a.state := by
  have ends (r : Lace × List LaceTx × List Nat) (same : r.1.steady = a.steady ∧ r.1.state = a.state) :
      ({ r.1 with waiting := r.2.1 } : Lace).steady = a.steady ∧ ({ r.1 with waiting := r.2.1 } : Lace).state = a.state := by
    obtain ⟨steady, state⟩ := same
    refine ⟨.trans ?_ steady, state⟩
    simp [Lace.steady, state, up]
  refine ends _ (List.foldlRecOn (motive := fun r : Lace × List LaceTx × List Nat => r.1.steady = a.steady ∧ r.1.state = a.state) _ _
    ⟨by simp [Lace.steady, up], rfl⟩ ?_)
  rintro ⟨b, left, stuck⟩ ⟨steady, state⟩ x -
  have open_ : b.state ≠ .down := by rwa [state]
  have sent (x : LaceTx) : (b.emit x).steady = a.steady ∧ (b.emit x).state = a.state := by
    obtain ⟨steady', state'⟩ := b.emit_steady x open_
    exact ⟨steady'.trans steady, state'.trans state⟩
  cases x with
  | control m =>
    dsimp only
    split
    · exact sent _
    · exact ⟨steady, state⟩
  | packet p =>
    dsimp only
    split
    · split
      · next c paid =>
        obtain ⟨steady', state'⟩ := Lace.debit_steady paid open_
        obtain ⟨steady'', state''⟩ := c.emit_steady (.packet p) (by rwa [state'])
        exact ⟨(steady''.trans steady').trans steady, (state''.trans state').trans state⟩
      · exact ⟨steady, state⟩
    · exact ⟨steady, state⟩

theorem lmod_map_of {α β : Type} [Inhabited α] {g : α → β} {f : α → α} {l : List α} {i : Nat}
    (keeps : g (f (lget l i)) = g (lget l i)) : (lmod l i f).map g = l.map g := by
  induction l generalizing i with
  | nil => cases i <;> rfl
  | cons a l ih =>
    cases i with
    | zero => exact congrArg (· :: l.map g) keeps
    | succ i => exact congrArg (g a :: ·) (ih keeps)

/-! ### The view of the torus that packets and messages leave alone -/

/-- What packets and messages leave alone of the laces and of the module's view of the torus. -/
structure TorusView where
  laces : List Lace
  position : Option Nat
  spanMask : Nat
  spanTag : Nat
  missing : List Nat
  lacesDown : List Nat
  pending : List LinkNoticeMsg
  hellos : List (Nat × Nat × Nat)
  seenHello : List (Nat × Nat)
  laserA : List Bool
  laserB : List Bool

/-- The laces without what they hold to send, and the view of the torus. -/
def State.torusView (s : State) : TorusView := {
    laces := s.lce.laces.map Lace.steady, position := s.lce.position, spanMask := s.lce.spanMask, spanTag :=
    s.lce.spanTag, missing := s.lce.missing, lacesDown := s.lce.lacesDown, pending := s.lce.pendingNotices, hellos
    := s.lce.hellos, seenHello := s.lce.seenHello, laserA := s.lce.laserA, laserB := s.lce.laserB }

theorem State.fold_torusView (s : State) : s.lce.laces.map Lace.steady = s.torusView.laces ∧ s.lce.position =
    s.torusView.position ∧ s.lce.spanMask = s.torusView.spanMask ∧ s.lce.spanTag = s.torusView.spanTag ∧ s.lce.missing
    = s.torusView.missing ∧ s.lce.lacesDown = s.torusView.lacesDown ∧ s.lce.pendingNotices = s.torusView.pending ∧
    s.lce.hellos = s.torusView.hellos ∧ s.lce.seenHello = s.torusView.seenHello ∧ s.lce.laserA = s.torusView.laserA ∧
    s.lce.laserB = s.torusView.laserB := by simp [State.torusView]

theorem State.torusView_mk (part : Part) (pending : List Instr) (free : Nat) (regs : KMap Nat) (blobs : KMap (List
    Byte)) (tb : TimeBase) (planner : Planner) (fab : Fabric) (mxe : Engine) (chn : ChainCounters) (mem : Memory)
    (pages : Pages) (store : Store) (srv : Serving) (syn : Sync) (lce : Torus) (dsp : Dispatch) (hlk : HostLink) (dict
    : Dict) (ras : Ras) (pwr : Power) (boot : Boot) (sec : Security) : State.torusView {
    part := part, pending := pending, free := free, regs := regs, blobs := blobs, tb := tb, planner := planner, fab :=
    fab, mxe := mxe, chn := chn, mem := mem, pages := pages, store := store, srv := srv, syn := syn, lce := lce,
    dsp := dsp, hlk := hlk, dict := dict, ras := ras, pwr := pwr, boot := boot, sec := sec } = {
    laces := lce.laces.map Lace.steady, position := lce.position, spanMask := lce.spanMask, spanTag := lce.spanTag,
    missing := lce.missing, lacesDown := lce.lacesDown, pending := lce.pendingNotices, hellos := lce.hellos,
    seenHello := lce.seenHello, laserA := lce.laserA, laserB := lce.laserB } := rfl

@[simp] theorem State.torusView_ite (c : Prop) [Decidable c] (s t : State) :
    (if c then s else t).torusView = if c then s.torusView else t.torusView := by split <;> rfl

section
variable {α γ : Type} {f : State → α → State} {k : State × γ → α → State × γ} {h : γ × State → α → γ × State}

@[simp] theorem State.torusView_foldl (keeps : ∀ t a, (f t a).torusView = t.torusView) (l : List α) (s : State) :
    (l.foldl f s).torusView = s.torusView := State.keeps_foldl _ keeps l s
@[simp] theorem State.torusView_foldl_fst (keeps : ∀ p a, (k p a).1.torusView = p.1.torusView) (l : List α) (p : State × γ) :
    (l.foldl k p).1.torusView = p.1.torusView := State.keeps_foldl_fst (fun t => t.torusView) keeps l p
@[simp] theorem State.torusView_foldl_snd (keeps : ∀ p a, (h p a).2.torusView = p.2.torusView) (l : List α) (p : γ × State) :
    (l.foldl h p).2.torusView = p.2.torusView := State.keeps_foldl_snd (fun t => t.torusView) keeps l p

end

@[simp] theorem State.draw_torusView (s : State) : s.draw.2.torusView = s.torusView := rfl

@[simp] theorem State.raiseFor_torusView (s : State) (code group arg0 arg1 arg2 : Nat) : (s.raiseFor code group arg0
    arg1 arg2).torusView = s.torusView := by
  simp [State.torusView]

@[simp] theorem State.raise_torusView (s : State) (code arg0 arg1 arg2 : Nat) : (s.raise code arg0 arg1
    arg2).torusView = s.torusView := by
  simp [State.torusView]

theorem State.modLace_torusView {s : State} {l : Nat} {f : Lace → Lace}
    (keeps : (f (s.lace l)).steady = (s.lace l).steady) : (s.modLace l f).torusView = s.torusView := by
  have same : (lmod s.lce.laces l f).map Lace.steady = s.lce.laces.map Lace.steady := lmod_map_of keeps
  simp [State.modLace, State.torusView, same]

theorem State.steady_of_torusView {s t : State} (same : t.torusView = s.torusView) (l : Nat) :
    (t.lace l).steady = (s.lace l).steady := by
  have laces : t.lce.laces.map Lace.steady = s.lce.laces.map Lace.steady := congrArg TorusView.laces same
  have get (u : List Lace) : (u.map Lace.steady).getD l (Lace.steady default) = (lget u l).steady := List.getD_map ..
  rw [State.lace, State.lace, ← get, ← get, laces]

theorem State.state_of_torusView {s t : State} (same : t.torusView = s.torusView) (l : Nat) :
    (t.lace l).state = (s.lace l).state := by
  have state (a : Lace) : a.steady.state = a.state := by
    unfold Lace.steady
    dsimp only
    split <;> rfl
  rw [← state, State.steady_of_torusView same, state]

@[simp] theorem State.freeSlots_torusView (s : State) (xs : List (Nat × Nat × Bool × Nat)) :
    (s.freeSlots xs).torusView = s.torusView := by
  refine State.torusView_foldl (fun t c => State.modLace_torusView ?_) xs s
  simp [Lace.steady]

theorem State.laceDrain_torusView {s : State} {l : Nat} (up : (s.lace l).state ≠ .down) :
    (s.laceDrain l).torusView = s.torusView := by
  obtain ⟨steady, state⟩ := (s.lace l).drain_steady up
  refine (State.freeSlots_torusView _ _).trans (State.modLace_torusView (.trans ?_ steady))
  simp [Lace.steady]

theorem State.laceSend_torusView {s : State} {l : Nat} (x : LaceTx) (up : (s.lace l).state ≠ .down) :
    (s.laceSend l x).torusView = s.torusView := by
  have queued : (s.modLace l fun a => { a with waiting := a.waiting ++ [x] }).torusView = s.torusView :=
    State.modLace_torusView (by simp [Lace.steady, up])
  refine (State.laceDrain_torusView ?_).trans queued
  rwa [State.state_of_torusView queued]

@[simp] theorem State.sendControl_torusView (s : State) (l : Nat) (m : ControlMsg) :
    (s.sendControl l m).torusView = s.torusView := by
  unfold State.sendControl
  split
  · next framed => exact State.laceSend_torusView _ fun down => by simp [down, LaceState.framed, LaceState.carries] at framed
  · rfl

@[simp] theorem State.oweFault_torusView (s : State) (tag : Nat) : (State.oweFault s tag).torusView = s.torusView := by
  unfold State.oweFault; simp [State.fold_torusView, State.torusView_mk, State.modTorus]

@[simp] theorem State.unreachable_torusView (s : State) (h : PacketHeader) : (State.unreachable s h).torusView =
    s.torusView := by
  unfold State.unreachable; simp [State.fold_torusView, State.torusView_mk, State.modTorus]

@[simp] theorem State.forward_torusView (s : State) (h : PacketHeader) (flits : List Flit) (p l : Nat) (turned : Bool)
    (origin : Option (Nat × Nat × Bool)) : (s.forward h flits p l turned origin).torusView = s.torusView := by
  unfold State.forward
  split
  · rw [State.oweFault_torusView, State.freeSlots_torusView]
    exact State.modLace_torusView (by simp [Lace.steady])
  · next up => exact State.laceSend_torusView _ up

@[simp] theorem State.record_torusView (s : State) (info : RecordInfo) : (State.record s info).torusView = s.torusView := by
  unfold State.record; simp [State.fold_torusView, State.torusView_mk, State.modTorus]

@[simp] theorem State.correctedError_torusView (s : State) (unit : Nat) (info : RecordInfo) : (State.correctedError s
    unit info).torusView = s.torusView := by
  unfold State.correctedError; simp [State.fold_torusView, State.torusView_mk, State.modTorus]

@[simp] theorem State.taint_torusView (s : State) (t : RecordInfo) : (State.taint s t).torusView = s.torusView := by
  unfold State.taint; (repeat' split) <;> simp [State.fold_torusView, State.torusView_mk, State.modTorus]

@[simp] theorem State.notifyLater_torusView (s : State) (x : Notice) : (State.notifyLater s x).torusView = s.torusView := by
  unfold State.notifyLater; simp [State.fold_torusView, State.torusView_mk, State.modTorus]

@[simp] theorem State.freeBuffer_torusView (s : State) (n : Nat) : (State.freeBuffer s n).torusView = s.torusView := by
  unfold State.freeBuffer; simp [State.fold_torusView, State.torusView_mk, State.modTorus]

@[simp] theorem State.leaveTemplate_torusView (s : State) (n : Nat) (x : Stream) : (State.leaveTemplate s n
    x).torusView = s.torusView := by
  unfold State.leaveTemplate; dsimp only; (repeat' split) <;> simp [State.fold_torusView, State.torusView_mk, State.modTorus]

@[simp] theorem State.dropStream_torusView (s : State) (n : Nat) : (State.dropStream s n).torusView = s.torusView := by
  unfold State.dropStream; (repeat' split) <;> simp [State.fold_torusView, State.torusView_mk, State.modTorus]

@[simp] theorem State.endStream_torusView (s : State) (n status : Nat) : (State.endStream s n status).torusView =
    s.torusView := by
  unfold State.endStream; (repeat' split) <;> simp [State.fold_torusView, State.torusView_mk, State.modTorus]

@[simp] theorem State.endAll_torusView (s : State) (status : Nat) : (State.endAll s status).torusView = s.torusView := by
  unfold State.endAll; simp [State.fold_torusView, State.torusView_mk, State.modTorus]

@[simp] theorem State.startRefetch_torusView (s : State) (epoch shard : Nat) : (State.startRefetch s epoch
    shard).torusView = s.torusView := by
  unfold State.startRefetch; simp [State.fold_torusView, State.torusView_mk, State.modTorus]

@[simp] theorem State.breakPass_torusView (s : State) : (State.breakPass s).torusView = s.torusView := by
  unfold State.breakPass; simp [State.fold_torusView, State.torusView_mk, State.modTorus]

@[simp] theorem State.askReset_torusView (s : State) (group source : Nat) : (State.askReset s group source).torusView
    = s.torusView := by
  unfold State.askReset; simp [State.fold_torusView, State.torusView_mk, State.modTorus]

@[simp] theorem State.outOfService_torusView (s : State) : (State.outOfService s).torusView = s.torusView := by
  unfold State.outOfService; simp [State.fold_torusView, State.torusView_mk, State.modTorus]

@[simp] theorem State.detect_torusView (s : State) (info : RecordInfo) : (State.detect s info).torusView = s.torusView := by
  unfold State.detect; dsimp only; (repeat' split) <;> simp [State.fold_torusView, State.torusView_mk, State.modTorus]

@[simp] theorem State.sectorLost_torusView (s : State) (stack mpa : Nat) (detail : List Byte) : (State.sectorLost s
    stack mpa detail).torusView = s.torusView := by
  unfold State.sectorLost; dsimp only; (repeat' split) <;> simp [State.fold_torusView, State.torusView_mk, State.modTorus]

@[simp] theorem State.setInsole_torusView (s : State) (stack : Nat) (n : Insole) (hbm : List Host.Cell) :
    (State.setInsole s stack n hbm).torusView = s.torusView := by
  unfold State.setInsole; simp [State.fold_torusView, State.torusView_mk, State.modTorus]

@[simp] theorem State.modInsole_torusView (s : State) (stack : Nat) (f : Insole → Insole) : (State.modInsole s stack
    f).torusView = s.torusView := by
  unfold State.modInsole; simp [State.fold_torusView, State.torusView_mk, State.modTorus]

@[simp] theorem State.decoded_torusView (s : State) (stack mpa location : Nat) (symbols : List Byte) (d : Decoded) :
    (State.decoded s stack mpa location symbols d).2.2.torusView = s.torusView := by
  unfold State.decoded; (repeat' split) <;> simp [State.fold_torusView, State.torusView_mk, State.modTorus]

@[simp] theorem State.protect_torusView (s : State) (kind mpa group : Nat) : (State.protect s kind mpa
    group).torusView = s.torusView := by
  unfold State.protect; simp [State.fold_torusView, State.torusView_mk, State.modTorus]

@[simp] theorem State.readNow_torusView (s : State) (mpa location group : Nat) (noAllocate : Bool) : (State.readNow s
    mpa location group noAllocate).2.2.torusView = s.torusView := by
  unfold State.readNow; (repeat' split) <;> simp [State.fold_torusView, State.torusView_mk, State.modTorus]

@[simp] theorem State.readBytesNow_torusView (s : State) (location : Nat) (noAllocate : Bool) (at_ : List Nat) :
    (State.readBytesNow s location noAllocate at_).2.2.torusView = s.torusView := by
  unfold State.readBytesNow
  exact State.keeps_foldl_thd (fun t => t.torusView) (fun p a => by simp) _ _

@[simp] theorem State.modStation_torusView (s : State) (i : Nat) (g : StationRun → StationRun) : (State.modStation s i
    g).torusView = s.torusView := by
  unfold State.modStation; simp [State.fold_torusView, State.torusView_mk, State.modTorus]

@[simp] theorem State.progress_torusView (s : State) : (State.progress s).torusView = s.torusView := by
  unfold State.progress; simp [State.fold_torusView, State.torusView_mk, State.modTorus]

@[simp] theorem State.portEmit_torusView (s : State) (i : Nat) : (State.portEmit s i).torusView = s.torusView := by
  unfold State.portEmit; dsimp only; (repeat' split) <;> simp [State.fold_torusView, State.torusView_mk, State.modTorus]

@[simp] theorem State.flood_torusView (s : State) (except_ : Nat) (m : ControlMsg) : (State.flood s except_
    m).torusView = s.torusView := by
  unfold State.flood; simp [State.fold_torusView, State.torusView_mk, State.modTorus]

@[simp] theorem State.inject_torusView (s : State) (h : PacketHeader) (flits : List Flit) : (State.inject s h
    flits).torusView = s.torusView := by
  unfold State.inject; dsimp only; (repeat' split) <;> simp [State.fold_torusView, State.torusView_mk, State.modTorus]

@[simp] theorem State.sendSync_torusView (s : State) (dest op object arg : Nat) : (State.sendSync s dest op object
    arg).torusView = s.torusView := by
  unfold State.sendSync; simp [State.fold_torusView, State.torusView_mk, State.modTorus]

@[simp] theorem State.followSpan_torusView (s : State) : (State.followSpan s).torusView = s.torusView := by
  unfold State.followSpan; simp [State.fold_torusView, State.torusView_mk, State.modTorus]

@[simp] theorem State.setObj_torusView (s : State) (r : ObjRef) (o : SyncObj) : (State.setObj s r o).torusView =
    s.torusView := by
  unfold State.setObj; simp [State.fold_torusView, State.torusView_mk, State.modTorus]

@[simp] theorem State.modObj_torusView (s : State) (r : ObjRef) (f : SyncObj → SyncObj) : (State.modObj s r
    f).torusView = s.torusView := by
  unfold State.modObj; simp [State.fold_torusView, State.torusView_mk, State.modTorus]

@[simp] theorem State.modPart_torusView (s : State) (k : Nat) (f : Participant → Participant) : (State.modPart s k
    f).torusView = s.torusView := by
  unfold State.modPart; simp [State.fold_torusView, State.torusView_mk, State.modTorus]

@[simp] theorem State.freeRemote_torusView (s : State) (k cause : Nat) : (State.freeRemote s k cause).torusView =
    s.torusView := by
  unfold State.freeRemote; simp [State.fold_torusView, State.torusView_mk, State.modTorus]

@[simp] theorem State.recordRelease_torusView (s : State) (k cause : Nat) : (State.recordRelease s k cause).torusView
    = s.torusView := by
  unfold State.recordRelease; simp [State.fold_torusView, State.torusView_mk, State.modTorus]

@[simp] theorem State.endWait_torusView (s : State) (r : ObjRef) (w : WaitReg) (cause : Nat) : (State.endWait s r w
    cause).torusView = s.torusView := by
  unfold State.endWait; simp [State.fold_torusView, State.torusView_mk, State.modTorus]

@[simp] theorem State.serveWaits_torusView (s : State) (r : ObjRef) : (State.serveWaits s r).torusView = s.torusView := by
  unfold State.serveWaits; simp [State.fold_torusView, State.torusView_mk, State.modTorus]

@[simp] theorem State.signal_torusView (s : State) (r : ObjRef) (amount : Nat) : (State.signal s r amount).torusView =
    s.torusView := by
  unfold State.signal; simp [State.fold_torusView, State.torusView_mk, State.modTorus]

@[simp] theorem State.registerWait_torusView (s : State) (r : ObjRef) (w : WaitReg) : (State.registerWait s r
    w).torusView = s.torusView := by
  unfold State.registerWait; simp [State.fold_torusView, State.torusView_mk, State.modTorus]

@[simp] theorem State.toModules_torusView (s : State) (ms : List Nat) (op : Nat) (r : ObjRef) (arg : Nat) :
    (State.toModules s ms op r arg).torusView = s.torusView := by
  unfold State.toModules; simp [State.fold_torusView, State.torusView_mk, State.modTorus]

@[simp] theorem State.nodeStep_torusView (s : State) (m : NodeMsg) (r : ObjRef) : (State.nodeStep s m r).1.torusView =
    s.torusView := by
  unfold State.nodeStep; dsimp only; (repeat' split) <;> simp [State.fold_torusView, State.torusView_mk, State.modTorus]

@[simp] theorem State.nodes_torusView (x0 : Nat) (x1 : List (NodeMsg × ObjRef)) (s : State) : (State.nodes x0 x1
    s).torusView = s.torusView := by
  induction x0 generalizing s x1 with
  | zero => rfl
  | succ f ih =>
    cases x1 with
    | nil => rfl
    | cons e ms => simp [State.nodes, ih]

@[simp] theorem State.nodeMsg_torusView (s : State) (m : NodeMsg) (r : ObjRef) : (State.nodeMsg s m r).torusView =
    s.torusView := by
  unfold State.nodeMsg; simp [State.fold_torusView, State.torusView_mk, State.modTorus]

@[simp] theorem State.ownerLost_torusView (s : State) (rs : List ObjRef) : (State.ownerLost s rs).torusView =
    s.torusView := by
  unfold State.ownerLost; simp [State.fold_torusView, State.torusView_mk, State.modTorus]

@[simp] theorem State.spanBroken_torusView (s : State) (tag : Nat) : (State.spanBroken s tag).torusView = s.torusView := by
  unfold State.spanBroken; simp [State.fold_torusView, State.torusView_mk, State.modTorus]

@[simp] theorem State.settleFault_torusView (s : State) (tag : Nat) : (State.settleFault s tag).torusView =
    s.torusView := by
  unfold State.settleFault; simp [State.fold_torusView, State.torusView_mk, State.modTorus]

@[simp] theorem State.settleFaults_torusView (x0 : Nat) (s : State) : (State.settleFaults x0 s).torusView =
    s.torusView := by
  induction x0 generalizing s with
  | zero => rfl
  | succ f ih =>
    unfold State.settleFaults
    split <;> simp [ih]

@[simp] theorem State.torusDone_torusView (s : State) : (State.torusDone s).torusView = s.torusView := by
  unfold State.torusDone; simp [State.fold_torusView, State.torusView_mk, State.modTorus]

@[simp] theorem State.memberLost_torusView (s : State) (m : Nat) : (State.memberLost s m).torusView = s.torusView := by
  unfold State.memberLost; dsimp only; (repeat' split) <;> simp [State.fold_torusView, State.torusView_mk, State.modTorus]

@[simp] theorem State.releasePair_torusView (s : State) (step : Nat) : (State.releasePair s step).torusView =
    s.torusView := by
  unfold State.releasePair; (repeat' split) <;> simp [State.fold_torusView, State.torusView_mk, State.modTorus]

@[simp] theorem State.loseStep_torusView (s : State) (step : Nat) : (State.loseStep s step).torusView = s.torusView := by
  unfold State.loseStep; (repeat' split) <;> simp [State.fold_torusView, State.torusView_mk, State.modTorus]

@[simp] theorem State.modDsp_torusView (s : State) (f : Dispatch → Dispatch) : (State.modDsp s f).torusView =
    s.torusView := by
  unfold State.modDsp; simp [State.fold_torusView, State.torusView_mk, State.modTorus]

@[simp] theorem State.modUplink_torusView (s : State) (u : Nat) (f : Uplink → Uplink) : (State.modUplink s u
    f).torusView = s.torusView := by
  unfold State.modUplink; simp [State.fold_torusView, State.torusView_mk, State.modTorus]

@[simp] theorem State.dropStep_torusView (s : State) (n : Nat) : (State.dropStep s n).torusView = s.torusView := by
  unfold State.dropStep; simp [State.fold_torusView, State.torusView_mk, State.modTorus]

@[simp] theorem State.dropRowsOf_torusView (s : State) (gone : Nat → Nat → Bool) : (State.dropRowsOf s gone).torusView
    = s.torusView := by
  unfold State.dropRowsOf; dsimp only; (repeat' split) <;> simp [State.fold_torusView, State.torusView_mk, State.modTorus]

@[simp] theorem State.rerunStep_torusView (s : State) (n : Nat) (f : PlanEntry → PlanEntry) : (State.rerunStep s n
    f).torusView = s.torusView := by
  unfold State.rerunStep; (repeat' split) <;> simp [State.fold_torusView, State.torusView_mk, State.modTorus]

@[simp] theorem State.rerunOwn_torusView (s : State) (n : Nat) : (State.rerunOwn s n).torusView = s.torusView := by
  unfold State.rerunOwn; simp [State.fold_torusView, State.torusView_mk, State.modTorus]

@[simp] theorem State.dropRows_torusView (s : State) (gone : Nat → Bool) : (State.dropRows s gone).torusView =
    s.torusView := by
  unfold State.dropRows; simp [State.fold_torusView, State.torusView_mk, State.modTorus]

@[simp] theorem State.uplinkDown_torusView (s : State) (u cause : Nat) : (State.uplinkDown s u cause).torusView =
    s.torusView := by
  unfold State.uplinkDown; simp [State.fold_torusView, State.torusView_mk, State.modTorus]

@[simp] theorem State.modStoreStack_torusView (s : State) (n : Nat) (f : StoreStack → StoreStack) :
    (State.modStoreStack s n f).torusView = s.torusView := by
  unfold State.modStoreStack; simp [State.fold_torusView, State.torusView_mk, State.modTorus]

@[simp] theorem State.readExtent_torusView (s : State) (tag n i bytes : Nat) : (State.readExtent s tag n i
    bytes).torusView = s.torusView := by
  unfold State.readExtent; simp [State.fold_torusView, State.torusView_mk, State.modTorus]

@[simp] theorem State.openNode_torusView (s : State) (object : Nat) : (State.openNode s object).torusView =
    s.torusView := by
  unfold State.openNode; simp [State.fold_torusView, State.torusView_mk, State.modTorus]

@[simp] theorem State.waitReleased_torusView (s : State) (object threshold : Nat) : (State.waitReleased s object
    threshold).torusView = s.torusView := by
  unfold State.waitReleased; (repeat' split) <;> simp [State.fold_torusView, State.torusView_mk, State.modTorus]

@[simp] theorem State.broken_torusView (s : State) (object cause : Nat) :
    (s.broken object cause).torusView = s.torusView := by
  unfold State.broken
  split <;> simp

@[simp] theorem State.syncPacket_torusView (s : State) (h : PacketHeader) : (State.syncPacket s h).torusView =
    s.torusView := by
  unfold State.syncPacket; (repeat' split) <;> simp [State.fold_torusView, State.torusView_mk, State.modTorus]

@[simp] theorem State.discardContext_torusView (s : State) (f : State → Nat → State) (h : ∀ t n, (f t n).torusView =
    t.torusView) : (s.discardContext f).torusView = s.torusView := by
  unfold State.discardContext
  split
  · rfl
  · dsimp only
    rw [h]
    simp [State.fold_torusView, State.torusView_mk, State.modTorus]

@[simp] theorem State.viewChanged_torusView (s before : State) : (State.viewChanged s before).torusView = s.torusView := by
  unfold State.viewChanged; simp [State.fold_torusView, State.torusView_mk, State.modTorus]

@[simp] theorem State.sendNotice_torusView (s : State) (notice subject lace effective : Nat) : (State.sendNotice s
    notice subject lace effective).torusView = s.torusView := by
  unfold State.sendNotice; simp [State.fold_torusView, State.torusView_mk, State.modTorus]

@[simp] theorem State.laceEmit_torusView (s : State) (i : Nat) : (State.laceEmit s i).torusView = s.torusView := by
  unfold State.laceEmit; (repeat' split) <;> simp [State.fold_torusView, State.torusView_mk, State.modTorus]

@[simp] theorem State.lacePoison_torusView (s : State) (flits : List Flit) : (State.lacePoison s flits).torusView =
    s.torusView := by
  unfold State.lacePoison; simp [State.fold_torusView, State.torusView_mk, State.modTorus]

@[simp] theorem State.dataPacket_torusView (s : State) (h : PacketHeader) (flits : List Flit) : (State.dataPacket s h
    flits).torusView = s.torusView := by
  unfold State.dataPacket; (repeat' split) <;> simp [State.fold_torusView, State.torusView_mk, State.modTorus]

@[simp] theorem State.rspPacket_torusView (s : State) (h : PacketHeader) (flits : List Flit) : (State.rspPacket s h
    flits).torusView = s.torusView := by
  unfold State.rspPacket; dsimp only; (repeat' split) <;> simp [State.fold_torusView, State.torusView_mk, State.modTorus]

@[simp] theorem State.answerFlits_torusView (at_ : Nat → Nat) (first size total x0 x1 : Nat) (s : State) :
    (State.answerFlits at_ first size total x0 x1 s).2.torusView = s.torusView := by
  induction x0 generalizing s x1 with
  | zero => simp [State.answerFlits]
  | succ n ih => simp [State.answerFlits, ih]

@[simp] theorem State.storeAnswer_torusView (s : State) (e : TensorEntry) (first n : Nat) : (State.storeAnswer s e
    first n).2.torusView = s.torusView := by
  unfold State.storeAnswer; simp

@[simp] theorem State.reqPacket_torusView (s : State) (h : PacketHeader) : (State.reqPacket s h).torusView =
    s.torusView := by
  unfold State.reqPacket; dsimp only; (repeat' split) <;> simp [State.fold_torusView, State.torusView_mk, State.modTorus]

@[simp] theorem State.packetIn_torusView (s : State) (l vc : Nat) (h : PacketHeader) (flits : List Flit) :
    (State.packetIn s l vc h flits).torusView = s.torusView := by
  unfold State.packetIn; dsimp only; (repeat' split) <;> simp [State.fold_torusView, State.torusView_mk, State.modTorus]

@[simp] theorem State.slotIn_torusView (s : State) (l : Nat) (x : LaceSlot) : (s.slotIn l x).torusView = s.torusView := by
  have receives (r : Lace → KMap (PacketHeader × List Flit)) :
      (s.modLace l fun a => { a with receiving := r a }).torusView = s.torusView :=
    State.modLace_torusView (by simp [Lace.steady])
  unfold State.slotIn
  (repeat' split) <;> simp [receives]

@[simp] theorem State.resetGroup_torusView (s : State) (g source : Nat) : (State.resetGroup s g source).torusView =
    s.torusView := by
  unfold State.resetGroup; simp [State.fold_torusView, State.torusView_mk, State.modTorus]

@[simp] theorem State.resetGroups_torusView (s : State) : (State.resetGroups s).torusView = s.torusView := by
  unfold State.resetGroups; simp [State.fold_torusView, State.torusView_mk, State.modTorus]

end Sys2Proof.Machine
end

section
/-! PROOFS. Frames of a lace, and the replays of those that are lost (R392, R394, R395). -/

namespace Sys2Proof.Machine

section
variable {s t u : State} {l : Nat} {a b : Lace}

/-! ### One lace, and a message on it -/

theorem State.lace_modLace_self (present : l < s.lce.laces.length) (f : Lace → Lace) :
    (s.modLace l f).lace l = f (s.lace l) := lget_lmod_self present f

theorem State.lace_modLace_ne {k : Nat} (other : k ≠ l) (f : Lace → Lace) : (s.modLace l f).lace k = s.lace k :=
  lget_lmod_ne _ other f

theorem State.modLace_length (s : State) (l : Nat) (f : Lace → Lace) :
    (s.modLace l f).lce.laces.length = s.lce.laces.length := List.length_modify ..

theorem State.length_of_torusView (same : t.torusView = s.torusView) : t.lce.laces.length = s.lce.laces.length := by
  have laces : t.lce.laces.map Lace.steady = s.lce.laces.map Lace.steady := congrArg TorusView.laces same
  simpa using congrArg List.length laces

/-- `t` differs from `s` in the laces alone, and in those but `l` only by slots that they give back. -/
structure State.Sent (s : State) (l : Nat) (t : State) : Prop where
  rest : { t with lce := { t.lce with laces := s.lce.laces } } = s
  others : ∀ k, k ≠ l → t.lace k = { s.lace k with creditReturns := (t.lace k).creditReturns }

theorem State.Sent.refl (s : State) (l : Nat) : s.Sent l s := ⟨rfl, fun _ _ => rfl⟩

theorem State.Sent.trans (h : s.Sent l t) (h' : t.Sent l u) : s.Sent l u := by
  refine ⟨?_, fun k other => ?_⟩
  · rw [← h.rest, ← h'.rest]
  · rw [h'.others k other, h.others k other]

theorem State.Sent.modLace (s : State) (l : Nat) (f : Lace → Lace) : s.Sent l (s.modLace l f) :=
  ⟨rfl, fun k other => by rw [State.lace_modLace_ne other]⟩

/-- Slots that go back change nothing else of any lace. -/
theorem State.Sent.freeSlots (s : State) (l : Nat) (xs : List (Nat × Nat × Bool × Nat)) : s.Sent l (s.freeSlots xs) := by
  induction xs generalizing s with
  | nil => exact .refl s l
  | cons c xs ih =>
    refine State.Sent.trans (t := s.modLace c.1 fun a => { a with creditReturns := a.creditReturns ++ [c.2] })
      ⟨rfl, fun k _ => ?_⟩ (ih _)
    by_cases here : k = c.1
    · subst here
      by_cases present : c.1 < s.lce.laces.length
      · rw [State.lace_modLace_self present]
      · simp [State.lace, State.modLace, lget, lmod, present]
    · rw [State.lace_modLace_ne here]

theorem State.Sent.laceDrain (s : State) (l : Nat) : s.Sent l (s.laceDrain l) :=
  (State.Sent.modLace s l _).trans (.freeSlots _ l _)

theorem State.Sent.laceSend (s : State) (l : Nat) (x : LaceTx) : s.Sent l (s.laceSend l x) :=
  (State.Sent.modLace s l _).trans (.laceDrain _ l)

theorem State.Sent.sendControl (s : State) (l : Nat) (m : ControlMsg) : s.Sent l (s.sendControl l m) := by
  unfold State.sendControl
  split
  · exact .laceSend s l _
  · exact .refl s l

/-- What a lace shows while it goes on sending. -/
structure Lace.Alike (a b : Lace) : Prop where
  state : a.state = b.state
  rxSeq : a.rxSeq = b.rxSeq
  awaitReplay : a.awaitReplay = b.awaitReplay
  fecCorrected : a.fecCorrected = b.fecCorrected
  fecUncorrectable : a.fecUncorrectable = b.fecUncorrectable
  replays : a.replays = b.replays
  replayTimes : a.replayTimes = b.replayTimes

theorem Lace.alike_of_steady (same : a.steady = b.steady) : a.Alike b := by
  have self (c : Lace) : c.steady.Alike c := by
    unfold Lace.steady
    dsimp only
    split <;> exact ⟨rfl, rfl, rfl, rfl, rfl, rfl, rfl⟩
  obtain ⟨h1, h2, h3, h4, h5, h6, h7⟩ := self a
  obtain ⟨g1, g2, g3, g4, g5, g6, g7⟩ := self b
  rw [same] at h1 h2 h3 h4 h5 h6 h7
  exact ⟨h1.symm.trans g1, h2.symm.trans g2, h3.symm.trans g3, h4.symm.trans g4, h5.symm.trans g5, h6.symm.trans g6,
    h7.symm.trans g7⟩

theorem State.alike_of_torusView (same : t.torusView = s.torusView) (l : Nat) : (t.lace l).Alike (s.lace l) :=
  Lace.alike_of_steady (State.steady_of_torusView same l)

/-! ### Replays (R395) -/

/-- A replay that is noted changes the lace alone; it retrains it, or leaves its state as it is. -/
theorem State.noteReplay_spec (present : l < s.lce.laces.length) : s.Sent l (s.noteReplay l) ∧
    (∀ k, k ≠ l → (s.noteReplay l).lace k = s.lace k) ∧
    ((s.noteReplay l).lace l).rxSeq = (s.lace l).rxSeq ∧
    ((s.noteReplay l).lace l).fecUncorrectable = (s.lace l).fecUncorrectable ∧
    ((s.noteReplay l).lace l).replays = (s.lace l).replays ∧
    ((s.lace l).replayTimes.length < 16 → ((s.noteReplay l).lace l).state = (s.lace l).state ∧
      ((s.noteReplay l).lace l).awaitReplay = (s.lace l).awaitReplay) := by
  have noted (f : Lace → Lace) : (s.modLace l f).lace l = f (s.lace l) := State.lace_modLace_self present f
  unfold State.noteReplay
  dsimp only
  rw [noted]
  split
  · next many =>
    have present' (f : Lace → Lace) : l < (s.modLace l f).lce.laces.length := by rwa [State.modLace_length]
    unfold State.retrain
    refine ⟨(State.Sent.modLace s l _).trans (.modLace _ l _), fun k other => ?_, ?_, ?_, ?_, fun few => ?_⟩
    · rw [State.lace_modLace_ne other, State.lace_modLace_ne other]
    · rw [State.lace_modLace_self (present' _), noted]; rfl
    · rw [State.lace_modLace_self (present' _), noted]; rfl
    · rw [State.lace_modLace_self (present' _), noted]; rfl
    · have most := List.length_filter_le (fun x => decide (s.clock < x + 1250000)) (s.clock :: (s.lace l).replayTimes)
      simp only [List.length_cons] at most
      have full : 16 < ((s.clock :: (s.lace l).replayTimes).filter fun x => s.clock < x + 1250000).length := many
      omega
  · refine ⟨State.Sent.modLace s l _, fun k other => State.lace_modLace_ne other _, ?_⟩
    rw [noted]
    exact ⟨rfl, rfl, rfl, fun _ => ⟨rfl, rfl⟩⟩

/-! ### A frame that is discarded (R392, R395) -/

/-- The lace once a discarded frame is counted. -/
def Lace.countLost (a : Lace) (code : Bool) : Lace :=
  if code then { a with fecUncorrectable := sat 32 (a.fecUncorrectable + 1) }
  else { a with replays := sat 32 (a.replays + 1) }

theorem State.frameLost_eq (s : State) (l : Nat) (code : Bool) : s.frameLost l code =
    if (s.lace l).awaitReplay then s.modLace l (·.countLost code)
    else (((s.modLace l (·.countLost code)).modLace l fun a => { a with awaitReplay := true }).sendControl l
      (.replayReq (s.lace l).rxSeq)).noteReplay l := by
  unfold State.frameLost State.countReplay Lace.countLost
  cases code <;> rfl

theorem State.frameLost_spec (present : l < s.lce.laces.length) (code : Bool) : s.Sent l (s.frameLost l code) ∧
    ((s.frameLost l code).lace l).rxSeq = (s.lace l).rxSeq ∧
    ((s.frameLost l code).lace l).fecUncorrectable = ((s.lace l).countLost code).fecUncorrectable ∧
    ((s.frameLost l code).lace l).replays = ((s.lace l).countLost code).replays ∧
    ((s.lace l).awaitReplay = true ∨ (s.lace l).replayTimes.length < 16 →
      ((s.frameLost l code).lace l).awaitReplay = true ∧ ((s.frameLost l code).lace l).state = (s.lace l).state) := by
  have fields : ((s.lace l).countLost code).rxSeq = (s.lace l).rxSeq ∧
      ((s.lace l).countLost code).awaitReplay = (s.lace l).awaitReplay ∧
      ((s.lace l).countLost code).state = (s.lace l).state ∧
      ((s.lace l).countLost code).replayTimes = (s.lace l).replayTimes := by
    unfold Lace.countLost
    split <;> exact ⟨rfl, rfl, rfl, rfl⟩
  obtain ⟨rxSeq, await, state, times⟩ := fields
  rw [State.frameLost_eq]
  split
  · next awaits =>
    rw [State.lace_modLace_self present]
    exact ⟨.modLace s l _, rxSeq, rfl, rfl, fun _ => ⟨await.trans awaits, state⟩⟩
  · next fresh =>
    generalize asked : (s.modLace l (·.countLost code)).modLace l (fun a => { a with awaitReplay := true }) = v
    have sent : s.Sent l v := by
      rw [← asked]
      exact (State.Sent.modLace s l _).trans (.modLace _ l _)
    have lace : v.lace l = { (s.lace l).countLost code with awaitReplay := true } := by
      rw [← asked, State.lace_modLace_self (by rwa [State.modLace_length]), State.lace_modLace_self present]
    have view := State.sendControl_torusView v l (.replayReq (s.lace l).rxSeq)
    have alike := State.alike_of_torusView view l
    rw [lace] at alike
    have present' : l < (v.sendControl l (.replayReq (s.lace l).rxSeq)).lce.laces.length := by
      rw [State.length_of_torusView view, ← asked, State.modLace_length, State.modLace_length]
      exact present
    obtain ⟨noted, -, rxSeq', uncorrectable, replays, few⟩ := State.noteReplay_spec present'
    refine ⟨(sent.trans (.sendControl v l _)).trans noted, rxSeq'.trans (alike.rxSeq.trans rxSeq),
      uncorrectable.trans alike.fecUncorrectable, replays.trans alike.replays, fun short => ?_⟩
    have short : ((v.sendControl l (.replayReq (s.lace l).rxSeq)).lace l).replayTimes.length < 16 := by
      rw [alike.replayTimes]
      exact times ▸ short.resolve_left fresh
    exact ⟨(few short).2.trans alike.awaitReplay, (few short).1.trans (alike.state.trans state)⟩

/-! ### A frame that is accepted (R394, R397) -/

theorem Lace.acked_steady (a : Lace) (ack : Nat) (up : a.state ≠ .down) : (a.acked ack).steady = a.steady := by
  simp [Lace.steady, Lace.acked, up]

theorem Lace.credited_steady (a : Lace) (cs : List (Nat × Bool × Nat)) (up : a.state ≠ .down) :
    (a.credited cs).steady = a.steady ∧ (a.credited cs).state = a.state := by
  refine List.foldlRecOn (motive := fun b : Lace => b.steady = a.steady ∧ b.state = a.state) _ _ ⟨rfl, rfl⟩ ?_
  rintro b ⟨steady, state⟩ c -
  have open_ : b.state ≠ .down := by rwa [state]
  split
  · exact ⟨.trans (by simp [Lace.steady, open_]) steady, state⟩
  · exact ⟨.trans (by simp [Lace.steady, open_]) steady, state⟩

theorem State.foldl_slotIn_torusView (s : State) (l : Nat) (xs : List LaceSlot) :
    (xs.foldl (fun t x => t.slotIn l x) s).torusView = s.torusView :=
  State.torusView_foldl (fun t x => t.slotIn_torusView l x) xs s

/-- The lace once the next frame in order is accepted, before what the frame carries is taken. -/
def Lace.accept (a : Lace) (f : LaceFrame) : Lace :=
  ({ a with rxSeq := (a.rxSeq + 1) % 65536, awaitReplay := false }.acked f.ackSeq).credited f.credits

theorem Lace.accept_steady (a : Lace) (f : LaceFrame) (up : a.state ≠ .down) : (a.accept f).steady =
    ({ a with rxSeq := (a.rxSeq + 1) % 65536, awaitReplay := false } : Lace).steady :=
  (Lace.credited_steady _ _ (by exact up)).1.trans (Lace.acked_steady _ _ up)

/-! ### The commands -/

variable {cyc : Nat} {f : LaceFrame}

/-- The state once the corrections of a frame's code are counted. -/
def State.frameSeen (s : State) (cyc l : Nat) (f : LaceFrame) : State :=
  (s.stamp cyc).modLace l fun a => { a with fecCorrected := sat 64 (a.fecCorrected + f.corrected) }

theorem exec_frame_uncorrectable (inside : l < 4) (framed : (s.lace l).state.framed = true) (bad : f.correctable = false) :
    exec (.laceFrameReceived cyc l f) s = .next ((s.frameSeen cyc l f).frameLost l true) := by
  have run : exec (.laceFrameReceived cyc l f) s = execLaceFrameReceived cyc l f s := rfl
  rw [run, execLaceFrameReceived, onUnit_true (by simpa using inside)]
  dsimp only
  rw [if_neg (by simp [framed]), if_pos (by simp [bad])]
  rfl

theorem exec_frame_discarded (inside : l < 4) (framed : (s.lace l).state.framed = true) (good : f.correctable = true)
    (wrong : f.crcGood = false ∨ f.linkEpoch ≠ (s.lace l).linkEpoch ∨ f.frameSeq ≠ (s.lace l).rxSeq ∨
      ((s.lace l).awaitReplay = true ∧ f.replay = false)) :
    exec (.laceFrameReceived cyc l f) s = .next ((s.frameSeen cyc l f).frameLost l false) := by
  have run : exec (.laceFrameReceived cyc l f) s = execLaceFrameReceived cyc l f s := rfl
  have discarded : (!f.crcGood || f.linkEpoch != (s.lace l).linkEpoch || f.frameSeq != (s.lace l).rxSeq ||
      ((s.lace l).awaitReplay && !f.replay)) = true := by simpa [or_assoc] using wrong
  rw [run, execLaceFrameReceived, onUnit_true (by simpa using inside)]
  dsimp only
  rw [if_neg (by simp [framed]), if_neg (by simp [good]), if_pos discarded]
  rfl

theorem exec_frame_accepted (inside : l < 4) (framed : (s.lace l).state.framed = true) (good : f.correctable = true)
    (crc : f.crcGood = true) (epoch : f.linkEpoch = (s.lace l).linkEpoch) (next : f.frameSeq = (s.lace l).rxSeq)
    (replayed : (s.lace l).awaitReplay = true → f.replay = true) :
    exec (.laceFrameReceived cyc l f) s = .next ((let t := (s.frameSeen cyc l f).modLace l (·.accept f)
      (if (s.lace l).state.carries then f.slots.foldl (fun t x => t.slotIn l x) t else t).laceDrain l).torusDone) := by
  have run : exec (.laceFrameReceived cyc l f) s = execLaceFrameReceived cyc l f s := rfl
  have taken : (!f.crcGood || f.linkEpoch != (s.lace l).linkEpoch || f.frameSeq != (s.lace l).rxSeq ||
      ((s.lace l).awaitReplay && !f.replay)) = false := by
    cases awaits : (s.lace l).awaitReplay
    · simp [crc, epoch, next]
    · simp [crc, epoch, next, replayed awaits]
  rw [run, execLaceFrameReceived, onUnit_true (by simpa using inside)]
  dsimp only
  rw [if_neg (by simp [framed]), if_neg (by simp [good]), if_neg (by simp [taken])]
  rfl

theorem exec_replayReq (inside : l < 4) (framed : (s.lace l).state.framed = true) (seq : Nat) :
    exec (.replayReq cyc l seq) s = .next (
      if ((s.lace l).txSeq + 65536 - seq) % 65536 ≤ (s.lace l).held then ((s.stamp cyc).countReplay l).noteReplay l
      else (s.stamp cyc).retrain l) := by
  have run : exec (.replayReq cyc l seq) s = execReplayReq cyc l seq s := rfl
  rw [run, execReplayReq, onUnit_true (by simpa using inside)]
  dsimp only
  rw [if_neg (by simp [framed])]

/-- What the next frame in order leaves of its lace. -/
theorem State.accepted_alike (present : l < s.lce.laces.length) (up : (s.lace l).state ≠ .down) (f : LaceFrame) (b : Bool) :
    (((if b then f.slots.foldl (fun t x => t.slotIn l x) (s.modLace l (·.accept f)) else s.modLace l (·.accept f)
      ).laceDrain l).lace l).Alike { s.lace l with rxSeq := ((s.lace l).rxSeq + 1) % 65536, awaitReplay := false } := by
  generalize accepted : s.modLace l (·.accept f) = t
  have steady : (t.lace l).steady =
      ({ s.lace l with rxSeq := ((s.lace l).rxSeq + 1) % 65536, awaitReplay := false } : Lace).steady := by
    rw [← accepted, State.lace_modLace_self present]
    exact Lace.accept_steady _ _ up
  have view : (if b then f.slots.foldl (fun t x => t.slotIn l x) t else t).torusView = t.torusView := by
    split
    · exact State.foldl_slotIn_torusView t l _
    · rfl
  have open_ : ((if b then f.slots.foldl (fun t x => t.slotIn l x) t else t).lace l).state ≠ .down := by
    rw [State.state_of_torusView view, (Lace.alike_of_steady steady).state]
    exact up
  exact Lace.alike_of_steady ((State.steady_of_torusView ((State.laceDrain_torusView open_).trans view) l).trans steady)

theorem LaceState.up_of_framed {x : LaceState} (framed : x.framed = true) : x ≠ .down := by
  rintro rfl
  exact absurd framed (by decide)

theorem State.Sent.stamped {cyc : Nat} (h : (s.stamp cyc).Sent l t) : { t with lce := s.lce, tb := s.tb } = s := by
  rw [show s = { s.stamp cyc with tb := s.tb } from rfl, ← h.rest]

end

/-- Settles O26: the frame's cases by `State.frameLost_spec` and `State.accepted_alike`, a replay by
`State.noteReplay_spec`. -/
theorem laceFramesAreAcceptedInOrder : Obligations.LaceFramesAreAcceptedInOrder := by
  unfold Obligations.LaceFramesAreAcceptedInOrder
  intro cyc l s inside present framed
  have seen (f : LaceFrame) : (s.frameSeen cyc l f).lace l =
      { s.lace l with fecCorrected := sat 64 ((s.lace l).fecCorrected + f.corrected) } :=
    State.lace_modLace_self (s := s.stamp cyc) present _
  have present' (f : LaceFrame) : l < (s.frameSeen cyc l f).lce.laces.length := by
    rw [State.frameSeen, State.modLace_length]
    exact present
  have sent (f : LaceFrame) : (s.stamp cyc).Sent l (s.frameSeen cyc l f) := .modLace _ l _
  refine ⟨fun f good crc epoch next replayed => ?accepted, fun f bad => ?uncorrectable, fun f good wrong => ?discarded,
    fun seq held => ?replay, fun seq beyond => ?retrain⟩
  case accepted =>
    have alike := State.accepted_alike (present' f) (by rw [seen]; exact LaceState.up_of_framed framed) f
      (s.lace l).state.carries
    rw [seen] at alike
    exact ⟨_, _, exec_frame_accepted inside framed good crc epoch next replayed, rfl, alike.rxSeq, alike.awaitReplay,
      alike.state, alike.fecCorrected⟩
  case uncorrectable =>
    obtain ⟨lost, rxSeq, uncorrectable, -, asked⟩ := State.frameLost_spec (present' f) true
    rw [seen] at rxSeq uncorrectable asked
    exact ⟨_, exec_frame_uncorrectable inside framed bad, rxSeq, uncorrectable, asked, ((sent f).trans lost).others,
      ((sent f).trans lost).stamped⟩
  case discarded =>
    obtain ⟨lost, rxSeq, -, replays, asked⟩ := State.frameLost_spec (present' f) false
    rw [seen] at rxSeq replays asked
    exact ⟨_, exec_frame_discarded inside framed good wrong, rxSeq, replays, asked, ((sent f).trans lost).others,
      ((sent f).trans lost).stamped⟩
  case replay =>
    have present'' : l < ((s.stamp cyc).countReplay l).lce.laces.length := by
      rw [State.countReplay, State.modLace_length]
      exact present
    obtain ⟨noted, others, -, -, replays, few⟩ := State.noteReplay_spec present''
    have counted : ((s.stamp cyc).countReplay l).lace l = { s.lace l with replays := sat 32 ((s.lace l).replays + 1) } :=
      State.lace_modLace_self (s := s.stamp cyc) present _
    rw [counted] at replays few
    rw [exec_replayReq inside framed, if_pos held]
    refine ⟨_, rfl, replays, fun short => (few short).1, fun k other => (others k other).trans ?_, State.Sent.stamped
      ((State.Sent.modLace _ l _).trans noted)⟩
    exact State.lace_modLace_ne (s := s.stamp cyc) other _
  case retrain =>
    rw [exec_replayReq inside framed, if_neg (Nat.not_le.2 beyond)]
    refine ⟨_, rfl, ?_, fun k other => State.lace_modLace_ne (s := s.stamp cyc) other _, rfl⟩
    rw [State.retrain, State.lace_modLace_self (s := s.stamp cyc) present]
    rfl

end Sys2Proof.Machine
end

section
/-! PROOFS. Notices, and what is heard of the span (R402, R407 to R414). -/

namespace Sys2Proof.Machine

/-- What the module has heard, and whether its pass is broken. -/
structure HeardView where
  seen : List (Nat × Nat)
  running : Option Bool
  tag : Nat

/-- The messages seen, and the running pass. -/
def State.heardView (s : State) : HeardView := {
    seen := s.lce.seen, running := s.planner.running.map (·.broken), tag := s.lce.spanTag }

theorem State.fold_heardView (s : State) : s.lce.seen = s.heardView.seen ∧ s.planner.running.map (·.broken) =
    s.heardView.running ∧ s.lce.spanTag = s.heardView.tag := by simp [State.heardView]

theorem State.heardView_mk (part : Part) (pending : List Instr) (free : Nat) (regs : KMap Nat) (blobs : KMap (List
    Byte)) (tb : TimeBase) (planner : Planner) (fab : Fabric) (mxe : Engine) (chn : ChainCounters) (mem : Memory)
    (pages : Pages) (store : Store) (srv : Serving) (syn : Sync) (lce : Torus) (dsp : Dispatch) (hlk : HostLink) (dict
    : Dict) (ras : Ras) (pwr : Power) (boot : Boot) (sec : Security) : State.heardView {
    part := part, pending := pending, free := free, regs := regs, blobs := blobs, tb := tb, planner := planner, fab :=
    fab, mxe := mxe, chn := chn, mem := mem, pages := pages, store := store, srv := srv, syn := syn, lce := lce,
    dsp := dsp, hlk := hlk, dict := dict, ras := ras, pwr := pwr, boot := boot, sec := sec } = {
    seen := lce.seen, running := planner.running.map (·.broken), tag := lce.spanTag } := rfl

@[simp] theorem State.heardView_ite (c : Prop) [Decidable c] (s t : State) :
    (if c then s else t).heardView = if c then s.heardView else t.heardView := by split <;> rfl

section
variable {α γ : Type} {f : State → α → State} {k : State × γ → α → State × γ} {h : γ × State → α → γ × State}

@[simp] theorem State.heardView_foldl (keeps : ∀ t a, (f t a).heardView = t.heardView) (l : List α) (s : State) :
    (l.foldl f s).heardView = s.heardView := State.keeps_foldl _ keeps l s
@[simp] theorem State.heardView_foldl_fst (keeps : ∀ p a, (k p a).1.heardView = p.1.heardView) (l : List α) (p : State × γ) :
    (l.foldl k p).1.heardView = p.1.heardView := State.keeps_foldl_fst (fun t => t.heardView) keeps l p
@[simp] theorem State.heardView_foldl_snd (keeps : ∀ p a, (h p a).2.heardView = p.2.heardView) (l : List α) (p : γ × State) :
    (l.foldl h p).2.heardView = p.2.heardView := State.keeps_foldl_snd (fun t => t.heardView) keeps l p

end

@[simp] theorem State.raiseFor_heardView (s : State) (code group arg0 arg1 arg2 : Nat) : (s.raiseFor code group arg0
    arg1 arg2).heardView = s.heardView := by
  simp [State.heardView]

@[simp] theorem State.raise_heardView (s : State) (code arg0 arg1 arg2 : Nat) : (s.raise code arg0 arg1
    arg2).heardView = s.heardView := by
  simp [State.heardView]

@[simp] theorem State.progress_heardView (s : State) : (State.progress s).heardView = s.heardView := by
  unfold State.progress; simp [State.fold_heardView, State.heardView_mk]

@[simp] theorem State.modLace_heardView (s : State) (l : Nat) (f : Lace → Lace) : (State.modLace s l f).heardView =
    s.heardView := by
  unfold State.modLace; simp [State.fold_heardView, State.heardView_mk]

@[simp] theorem State.freeSlots_heardView (s : State) (xs : List (Nat × Nat × Bool × Nat)) : (State.freeSlots s
    xs).heardView = s.heardView := by
  unfold State.freeSlots; simp [State.fold_heardView, State.heardView_mk]

@[simp] theorem State.laceDrain_heardView (s : State) (l : Nat) : (State.laceDrain s l).heardView = s.heardView := by
  unfold State.laceDrain; simp [State.fold_heardView, State.heardView_mk]

@[simp] theorem State.laceSend_heardView (s : State) (l : Nat) (x : LaceTx) : (State.laceSend s l x).heardView =
    s.heardView := by
  unfold State.laceSend; simp [State.fold_heardView, State.heardView_mk]

@[simp] theorem State.sendControl_heardView (s : State) (l : Nat) (m : ControlMsg) : (State.sendControl s l
    m).heardView = s.heardView := by
  unfold State.sendControl; simp [State.fold_heardView, State.heardView_mk]

@[simp] theorem State.flood_heardView (s : State) (except_ : Nat) (m : ControlMsg) : (State.flood s except_
    m).heardView = s.heardView := by
  unfold State.flood; simp [State.fold_heardView, State.heardView_mk]

@[simp] theorem State.oweFault_heardView (s : State) (tag : Nat) : (State.oweFault s tag).heardView = s.heardView := by
  unfold State.oweFault; simp [State.fold_heardView, State.heardView_mk, State.modTorus]

@[simp] theorem State.unreachable_heardView (s : State) (h : PacketHeader) : (State.unreachable s h).heardView =
    s.heardView := by
  unfold State.unreachable; simp [State.fold_heardView, State.heardView_mk, State.modTorus]

@[simp] theorem State.forward_heardView (s : State) (h : PacketHeader) (flits : List Flit) (p l : Nat) (turned : Bool)
    (origin : Option (Nat × Nat × Bool)) : (State.forward s h flits p l turned origin).heardView = s.heardView := by
  unfold State.forward; dsimp only; split <;> simp [State.fold_heardView, State.heardView_mk]

@[simp] theorem State.inject_heardView (s : State) (h : PacketHeader) (flits : List Flit) : (State.inject s h
    flits).heardView = s.heardView := by
  unfold State.inject; dsimp only; (repeat' split) <;> simp [State.fold_heardView, State.heardView_mk, State.modTorus]

@[simp] theorem State.sendSync_heardView (s : State) (dest op object arg : Nat) : (State.sendSync s dest op object
    arg).heardView = s.heardView := by
  unfold State.sendSync; simp [State.fold_heardView, State.heardView_mk]

@[simp] theorem State.followSpan_heardView (s : State) : (State.followSpan s).heardView = s.heardView := by
  unfold State.followSpan; simp [State.fold_heardView, State.heardView_mk, State.modTorus]

@[simp] theorem State.setObj_heardView (s : State) (r : ObjRef) (o : SyncObj) : (State.setObj s r o).heardView =
    s.heardView := by
  unfold State.setObj; simp [State.fold_heardView, State.heardView_mk]

@[simp] theorem State.modPart_heardView (s : State) (k : Nat) (f : Participant → Participant) : (State.modPart s k
    f).heardView = s.heardView := by
  unfold State.modPart; simp [State.fold_heardView, State.heardView_mk]

@[simp] theorem State.freeRemote_heardView (s : State) (k cause : Nat) : (State.freeRemote s k cause).heardView =
    s.heardView := by
  unfold State.freeRemote; simp [State.fold_heardView, State.heardView_mk]

@[simp] theorem State.recordRelease_heardView (s : State) (k cause : Nat) : (State.recordRelease s k cause).heardView
    = s.heardView := by
  unfold State.recordRelease; simp [State.fold_heardView, State.heardView_mk]

@[simp] theorem State.endWait_heardView (s : State) (r : ObjRef) (w : WaitReg) (cause : Nat) : (State.endWait s r w
    cause).heardView = s.heardView := by
  unfold State.endWait; simp [State.fold_heardView, State.heardView_mk]

@[simp] theorem State.toModules_heardView (s : State) (ms : List Nat) (op : Nat) (r : ObjRef) (arg : Nat) :
    (State.toModules s ms op r arg).heardView = s.heardView := by
  unfold State.toModules; simp [State.fold_heardView, State.heardView_mk]

@[simp] theorem State.nodeStep_heardView (s : State) (m : NodeMsg) (r : ObjRef) : (State.nodeStep s m r).1.heardView =
    s.heardView := by
  unfold State.nodeStep; dsimp only; (repeat' split) <;> simp [State.fold_heardView, State.heardView_mk]

@[simp] theorem State.nodes_heardView (x0 : Nat) (x1 : List (NodeMsg × ObjRef)) (s : State) : (State.nodes x0 x1
    s).heardView = s.heardView := by
  induction x0 generalizing s x1 with
  | zero => rfl
  | succ f ih =>
    cases x1 with
    | nil => rfl
    | cons e ms => simp [State.nodes, ih]

@[simp] theorem State.nodeMsg_heardView (s : State) (m : NodeMsg) (r : ObjRef) : (State.nodeMsg s m r).heardView =
    s.heardView := by
  unfold State.nodeMsg; simp [State.fold_heardView, State.heardView_mk]

@[simp] theorem State.ownerLost_heardView (s : State) (rs : List ObjRef) : (State.ownerLost s rs).heardView =
    s.heardView := by
  unfold State.ownerLost; simp [State.fold_heardView, State.heardView_mk]

@[simp] theorem State.memberLost_heardView (s : State) (m : Nat) : (State.memberLost s m).heardView = s.heardView := by
  unfold State.memberLost; dsimp only; (repeat' split) <;> simp [State.fold_heardView, State.heardView_mk]

section
variable {s t : State} {l cyc : Nat} {m : LinkNoticeMsg}

/-! ### The faults that are due -/

theorem State.steady_of_laces (same : t.torusView.laces = s.torusView.laces) (l : Nat) :
    (t.lace l).steady = (s.lace l).steady := by
  have laces : t.lce.laces.map Lace.steady = s.lce.laces.map Lace.steady := same
  have get (u : List Lace) : (u.map Lace.steady).getD l (Lace.steady default) = (lget u l).steady := List.getD_map ..
  rw [State.lace, State.lace, ← get, ← get, laces]

theorem State.breakPass_heardView (s : State) :
    s.breakPass.heardView = { s.heardView with running := s.heardView.running.map fun _ => true } := by
  simp [State.breakPass, State.heardView, Function.comp_def]

/-- A fault of the span breaks the running pass (R412). -/
theorem State.spanBroken_own {tag : Nat} (own : tag = s.lce.spanTag) (wide : 1 < s.lce.members.length) :
    (s.spanBroken tag).heardView = { s.heardView with running := s.heardView.running.map fun _ => true } := by
  unfold State.spanBroken
  rw [if_pos (by simp [own, wide])]
  dsimp only
  rw [State.breakPass_heardView, State.ownerLost_heardView]
  rfl

theorem State.spanBroken_other {tag : Nat} (other : ¬ (tag = s.lce.spanTag ∧ 1 < s.lce.members.length)) :
    s.spanBroken tag = s := by
  unfold State.spanBroken
  rw [if_neg (by simpa using other)]

theorem State.spanBroken_seen (s : State) (tag : Nat) : (s.spanBroken tag).lce.seen = s.lce.seen := by
  by_cases own : tag = s.lce.spanTag ∧ 1 < s.lce.members.length
  · exact congrArg HeardView.seen (State.spanBroken_own own.1 own.2)
  · rw [State.spanBroken_other own]

/-- What is due to be said is heard here too, and a pass that is broken stays so. -/
theorem State.settleFault_heard (s : State) (tag : Nat) : ∃ new, (s.settleFault tag).lce.seen = s.lce.seen ++ [new] ∧
    (s.heardView.running.map (fun _ => true) = s.heardView.running →
      (s.settleFault tag).heardView.running = s.heardView.running) := by
  unfold State.settleFault
  dsimp only
  generalize flooded : State.flood _ 4 _ = t
  have view : t.heardView = { s.heardView with seen := s.lce.seen ++ [(s.lce.position.getD 0, s.lce.noticeSeq)] } := by
    rw [← flooded, State.flood_heardView]
    rfl
  by_cases own : tag = t.lce.spanTag ∧ 1 < t.lce.members.length
  · have broken := State.spanBroken_own own.1 own.2
    rw [view] at broken
    exact ⟨_, congrArg HeardView.seen broken, fun all => (congrArg HeardView.running broken).trans all⟩
  · rw [State.spanBroken_other own]
    exact ⟨_, congrArg HeardView.seen view, fun _ => (congrArg HeardView.running view :)⟩

theorem State.settleFaults_heard (n : Nat) (s : State) : (∀ x ∈ s.lce.seen, x ∈ (s.settleFaults n).lce.seen) ∧
    (s.heardView.running.map (fun _ => true) = s.heardView.running →
      (s.settleFaults n).heardView.running = s.heardView.running) := by
  induction n generalizing s with
  | zero => exact ⟨fun _ h => h, fun _ => rfl⟩
  | succ n ih =>
    unfold State.settleFaults
    split
    · exact ⟨fun _ h => h, fun _ => rfl⟩
    · next tag rest due =>
      obtain ⟨new, seen, running⟩ := s.settleFault_heard tag
      obtain ⟨seen', running'⟩ := ih (s.settleFault tag)
      refine ⟨fun x h => seen' x (by rw [seen]; exact List.mem_append_left _ h), fun all => ?_⟩
      rw [running' (by rw [running all]; exact all), running all]

theorem State.viewChanged_seen (before : State) {x : Nat × Nat} (h : x ∈ s.lce.seen) :
    x ∈ (s.viewChanged before).lce.seen := by
  refine (State.settleFaults_heard 8 _).1 x ?_
  rw [show ∀ t : State, t.lce.seen = t.heardView.seen from fun _ => rfl, State.followSpan_heardView]
  split
  · rw [State.oweFault_heardView]
    exact h
  · exact h

/-! ### A message that goes out on every lace -/

/-- `t` differs from `s` in the laces alone. -/
def State.lacesMoved (s t : State) : Prop := { t with lce := { t.lce with laces := s.lce.laces } } = s

theorem State.flood_moved (s : State) (e : Nat) (x : ControlMsg) : s.lacesMoved (s.flood e x) := by
  refine List.foldlRecOn (motive := fun t => s.lacesMoved t) _ _ rfl ?_
  intro t moved l _
  split
  · exact moved
  · have sent := (State.Sent.sendControl t l x).rest
    exact (congrArg (fun u : State => ({ u with lce := { u.lce with laces := s.lce.laces } } : State)) sent).trans moved

theorem State.lacesMoved.eq (h : s.lacesMoved t) : t = { s with lce := { s.lce with laces := t.lce.laces } } := by
  have same : ({ t with lce := { t.lce with laces := s.lce.laces } } : State) = s := h
  rw [← same]

theorem State.flood_eq (s : State) (e : Nat) (x : ControlMsg) :
    s.flood e x = { s with lce := { s.lce with laces := (s.flood e x).lce.laces } } := (s.flood_moved e x).eq

/-- What a message that is heard and sent on leaves: the torus apart from its laces and from what was seen. -/
theorem State.heardOn (s : State) (cyc e origin seq : Nat) (x : ControlMsg) :
    ∃ laces, ((s.stamp cyc).see origin seq).flood e x = { s.stamp cyc with
      lce := { s.lce with seen := s.lce.seen ++ [(origin, seq)], laces := laces } } :=
  ⟨_, State.flood_eq _ e x⟩

/-! ### Notices (R411, R413, R414) -/

theorem exec_linkNotice (inside : l < 4) (framed : (s.lace l).state.framed = true)
    (new : s.firstSeen m.origin m.seq = true) : exec (.linkNotice cyc l m) s = .next (
      let t := ((s.stamp cyc).see m.origin m.seq).flood l (.linkNotice m)
      match m.notice with
      | 1 => (t.applyLost m.subject m.lace).viewChanged (s.stamp cyc)
      | 2 => t.modTorus fun x => { x with pendingNotices := x.pendingNotices ++ [m] }
      | 3 => t.hearReturned m
      | _ => t) := by
  have run : exec (.linkNotice cyc l m) s = execLinkNotice cyc l m s := rfl
  rw [run, execLinkNotice, onUnit_true (by simpa using inside), if_neg (by simp [framed, new])] <;> rfl

/-- A module that returns and was not missing waits for its EFFECTIVE alone. -/
theorem State.hearReturned_present (present : m.subject ∉ s.lce.missing) :
    s.hearReturned m = s.modTorus fun x => { x with pendingNotices := x.pendingNotices ++ [m] } := by
  unfold State.hearReturned
  dsimp only
  rw [if_neg (by simp [present])]

theorem State.hearReturned_lce (s : State) (m : LinkNoticeMsg) :
    (s.hearReturned m).lce = { s.lce with pendingNotices := s.lce.pendingNotices ++ [m] } := by
  unfold State.hearReturned
  dsimp only
  split
  · rw [State.raise_lce]; rfl
  · rfl

/-- What a change of the view of the torus leaves: the laces, the span and the laser inputs. -/
def TorusView.Seen (v w : TorusView) : Prop :=
  w = { v with missing := w.missing, lacesDown := w.lacesDown, pending := w.pending }

theorem TorusView.Seen.kept {v w : TorusView} (h : v.Seen w) :
    w.laces = v.laces ∧ w.laserA = v.laserA ∧ w.laserB = v.laserB := by
  unfold TorusView.Seen at h
  rw [h]
  exact ⟨rfl, rfl, rfl⟩

/-- A module that is declared missing is so, and what is down stays so. -/
theorem State.declareMissing_spec (s : State) (p : Nat) : p ∈ (s.declareMissing p).lce.missing ∧
    (s.declareMissing p).lce.lacesDown = s.lce.lacesDown ∧ (s.declareMissing p).lce.seen = s.lce.seen ∧
    s.torusView.Seen (s.declareMissing p).torusView := by
  unfold State.declareMissing
  split
  · next gone => exact ⟨by simpa using gone, rfl, rfl, rfl⟩
  · dsimp only
    generalize raised : State.raise _ _ _ _ _ = t
    have torus : t.torusView = { s.torusView with
        missing := s.lce.missing ++ [p], pending := s.lce.pendingNotices.filter fun n => n.subject != p } := by
      rw [← raised, State.raise_torusView]
      rfl
    have heard : t.heardView = s.heardView := by
      rw [← raised, State.raise_heardView]
      rfl
    have view : ∀ u : State, u.torusView = t.torusView → u.heardView = t.heardView → p ∈ u.lce.missing ∧
        u.lce.lacesDown = s.lce.lacesDown ∧ u.lce.seen = s.lce.seen ∧ s.torusView.Seen u.torusView := by
      intro u same same'
      rw [torus] at same
      rw [heard] at same'
      refine ⟨?_, congrArg TorusView.lacesDown same, congrArg HeardView.seen same', ?_⟩
      swap
      · rw [same]; rfl
      rw [show u.lce.missing = u.torusView.missing from rfl, same]
      exact List.mem_append_right _ (List.mem_singleton_self p)
    split
    · exact view _ (State.memberLost_torusView t p) (State.memberLost_heardView t p)
    · exact view _ rfl rfl

theorem State.applyLost_spec (s : State) (p l : Nat) : 4 * p + l ∈ (s.applyLost p l).lce.lacesDown ∧
    (s.applyLost p l).lce.seen = s.lce.seen ∧ s.torusView.Seen (s.applyLost p l).torusView := by
  have down (t : Torus) : 4 * p + l ∈
      (if t.lacesDown.contains (4 * p + l) then t.lacesDown else t.lacesDown ++ [4 * p + l]) := by
    split
    · next there => simpa using there
    · exact List.mem_append_right _ (List.mem_singleton_self _)
  unfold State.applyLost
  dsimp only
  split
  · obtain ⟨-, lacesDown, seen, view⟩ := State.declareMissing_spec (s.modTorus fun t =>
      { t with lacesDown := if t.lacesDown.contains (4 * p + l) then t.lacesDown else t.lacesDown ++ [4 * p + l] }) p
    exact ⟨lacesDown ▸ down s.lce, seen, view⟩
  · exact ⟨down s.lce, rfl, rfl⟩

/-! ### A lace that goes down (R411, R413) -/

/-- A lace that goes down is cleared, and stays so; the laces beside it keep what they are. -/
theorem State.laceDown_view (cause : Nat) (notice : Bool) (up : (s.lace l).state ≠ .down ∧ (s.lace l).state ≠ .off) :
    (s.modLace l fun a => { a.cleared .down cause with wasDown := true, downSince := s.uptime }).torusView.Seen
      (s.laceDown l cause notice).torusView := by
  obtain ⟨notDown, notOff⟩ := up
  unfold State.laceDown
  dsimp only
  rw [if_neg (by simp [notDown, notOff]), State.viewChanged_torusView]
  generalize s.modLace l _ = v
  have owed (t : State) (tags : List Nat) : (tags.foldl State.oweFault t).torusView = t.torusView :=
    State.torusView_foldl (fun t a => t.oweFault_torusView a) tags t
  generalize given : State.freeSlots v _ = t
  have same : t.torusView = v.torusView := by rw [← given, State.freeSlots_torusView]
  generalize told : (if cause = 2 || cause = 4 then _ else _ : State) = w
  have same' : w.torusView = v.torusView := by
    rw [← told]
    split
    · rw [owed, same]
    · rw [State.raise_torusView, owed, same]
  split
  · next _ p _ =>
    have lost := (State.applyLost_spec (w.sendNotice 1 (neighbour p l) (opposite l) w.fst) (neighbour p l) (opposite l)).2.2
    rw [State.sendNotice_torusView, same'] at lost
    exact lost
  · rw [same']
    rfl

/-- What a lace is once it has gone down, whatever it gives back afterwards. -/
theorem State.laceDown_down (cause : Nat) (notice : Bool) (present : l < s.lce.laces.length)
    (up : (s.lace l).state ≠ .down ∧ (s.lace l).state ≠ .off) (laces : t.torusView.laces =
      (s.laceDown l cause notice).torusView.laces) : (t.lace l).state = .down ∧ (t.lace l).cause = cause ∧
      (t.lace l).wasDown = true ∧ (t.lace l).waiting = [] ∧ (t.lace l).replayBuffer = [] := by
  have steady : (t.lace l).steady = ({ (s.lace l).cleared .down cause with wasDown := true, downSince := s.uptime } :
      Lace).steady := by
    rw [State.steady_of_laces (laces.trans (State.laceDown_view cause notice up).kept.1), State.lace_modLace_self present]
  have down : (t.lace l).state = .down := (Lace.alike_of_steady steady).state
  have self : (t.lace l).steady = { t.lace l with creditReturns := [], freed := [], receiving := [], discarded := 0 } := by
    unfold Lace.steady
    rw [if_pos down]
  rw [self] at steady
  exact ⟨down, congrArg Lace.cause steady, congrArg Lace.wasDown steady, congrArg Lace.waiting steady,
    congrArg Lace.replayBuffer steady⟩

/-! ### The messages of the span (R408, R409, R412) -/

theorem exec_goodbye (inside : l < 4) (framed : (s.lace l).state.framed = true) (p : Nat) : ∃ tag,
    exec (.goodbye cyc l p) s = .next (((((s.stamp cyc).laceDown l 2 false).declareMissing p).raise 0x0907 p tag 0
      ).viewChanged (s.stamp cyc)) := by
  have run : exec (.goodbye cyc l p) s = execGoodbye cyc l p s := rfl
  rw [run, execGoodbye, onUnit_true (by simpa using inside), if_neg (by simp [framed])]
  exact ⟨_, rfl⟩

theorem State.followSpan_rest (s : State) : (s.followSpan).syn = s.syn ∧ (s.followSpan).planner = s.planner ∧
    (s.followSpan).fab = s.fab ∧ (s.followSpan).torusView = s.torusView := by
  refine ⟨?_, ?_, ?_, s.followSpan_torusView⟩
  all_goals
    unfold State.followSpan
    dsimp only
    split <;> simp [State.modTorus]

theorem exec_spanHello (inside : l < 4) (framed : (s.lace l).state.framed = true) (origin tag mask : Nat) :
    ∃ laces heard hellos, exec (.spanHello cyc l origin tag mask) s = .next (State.followSpan { s.stamp cyc with
      lce := { s.lce with laces := laces, seenHello := heard, hellos := hellos } }) ∧ (origin, tag) ∈ heard ∧
      (origin, tag, mask) ∈ hellos := by
  have run : exec (.spanHello cyc l origin tag mask) s = execSpanHello cyc l origin tag mask s := rfl
  have listed (x : Nat × Nat × Nat) (xs : List (Nat × Nat × Nat)) : x ∈ if xs.contains x then xs else xs ++ [x] := by
    split
    · next there => simpa using there
    · exact List.mem_append_right _ (List.mem_singleton_self _)
  rw [run, execSpanHello, onUnit_true (by simpa using inside), if_neg (by simp [framed])]
  dsimp only
  by_cases known : (s.stamp cyc).lce.seenHello.contains (origin, tag) = true
  · rw [if_pos known]
    exact ⟨s.lce.laces, s.lce.seenHello, _, rfl, by simpa using known, listed _ _⟩
  · rw [if_neg known]
    rw [State.flood_eq]
    exact ⟨_, _, _, rfl, List.mem_append_right _ (List.mem_singleton_self _), listed _ s.lce.hellos⟩

theorem exec_spanFault (inside : l < 4) (framed : (s.lace l).state.framed = true) (origin seq tag subject : Nat)
    (new : s.firstSeen origin seq = true) : exec (.spanFault cyc l origin seq tag subject) s =
      .next (((((s.stamp cyc).see origin seq).flood l (.spanFault origin seq tag subject)).spanBroken tag).torusDone) := by
  have run : exec (.spanFault cyc l origin seq tag subject) s = execSpanFault cyc l origin seq tag subject s := rfl
  rw [run, execSpanFault, onUnit_true (by simpa using inside), if_neg (by simp [framed, new])]

/-! ### The commit of a span (R407, R408) -/

theorem exec_spanCommit {mask tag p : Nat} (wide : mask < 2 ^ 64) (tagged : tag < 2 ^ 32) (here : s.lce.position = some p)
    (member : bit mask p = true) (alive : ∀ q ∈ s.lce.missing, bit mask q = false) (free : s.anyStream = false) :
    ∃ laces heard, exec (.spanCommit mask tag) s = .next ((State.followSpan { s with
      lce := { s.lce with spanMask := mask, spanTag := tag, spanState := .forming, laces := laces, seenHello := heard }
      syn := { s.syn with banks := kdrop s.syn.banks 3584 4096, spanBound := true } }).status Status.OK) := by
  have run : exec (.spanCommit mask tag) s = execSpanCommit mask tag s := rfl
  have some : mask ≠ 0 := by
    rintro rfl
    simp [bit] at member
  have shape : (decide (mask = 0) || ((s.lce.position.any fun p => bit mask p) &&
      s.lce.missing.all fun p => !bit mask p)) = true := by
    simp only [here, Option.any_some, member, Bool.true_and, Bool.or_eq_true, List.all_eq_true]
    exact .inr fun q gone => by simp [alive q gone]
  rw [run, execSpanCommit]
  dsimp only
  rw [if_neg (by simp; omega), if_neg (by rw [shape]; nofun), if_neg (by simp [free])]
  split
  · exact ⟨s.lce.laces, s.lce.seenHello, rfl⟩
  · rw [State.flood_eq]
    exact ⟨_, _, rfl⟩

theorem exec_spanCommit_shape {mask tag p : Nat} (wide : mask < 2 ^ 64) (tagged : tag < 2 ^ 32)
    (here : s.lce.position = some p) (some : mask ≠ 0) (outside : bit mask p = false) :
    exec (.spanCommit mask tag) s = .next (s.status Status.LCE_SPAN_SHAPE) := by
  have run : exec (.spanCommit mask tag) s = execSpanCommit mask tag s := rfl
  rw [run, execSpanCommit]
  dsimp only
  rw [if_neg (by simp; omega), if_pos (by simp [some, here, outside])]

theorem exec_spanCommit_inUse {mask tag p : Nat} (wide : mask < 2 ^ 64) (tagged : tag < 2 ^ 32)
    (here : s.lce.position = some p) (member : bit mask p = true) (alive : s.lce.missing = []) (busy : s.anyStream = true) :
    exec (.spanCommit mask tag) s = .next (s.status Status.LCE_SPAN_IN_USE) := by
  have run : exec (.spanCommit mask tag) s = execSpanCommit mask tag s := rfl
  rw [run, execSpanCommit]
  dsimp only
  rw [if_neg (by simp; omega), if_neg (by simp [here, member, alive]), if_pos busy]

end

/-- Settles O27: each message by what it leaves of the torus, and the commit by its lemma. -/
theorem noticesAndSpansAreHeard : Obligations.NoticesAndSpansAreHeard := by
  unfold Obligations.NoticesAndSpansAreHeard
  refine ⟨fun cyc l s inside framed => ⟨fun m new => ⟨fun waits => ?waits, fun returned => ?returned, fun lost => ?lost⟩,
    fun p present => ?goodbye, fun origin tag mask => ?hello, fun origin seq tag subject new => ?fault⟩,
    fun mask tag p s wide tagged here member alive free => ?commit,
    fun mask tag p s wide tagged here some outside => ?shape,
    fun mask tag p s wide tagged here member alive busy => ?inUse⟩
  case waits =>
    obtain ⟨laces, heard⟩ := s.heardOn cyc l m.origin m.seq (.linkNotice m)
    refine ⟨_, exec_linkNotice inside framed new, ?_⟩
    obtain leaving | ⟨returned, present⟩ := waits
    · rw [leaving, heard]
      exact ⟨rfl, rfl, rfl, rfl, rfl⟩
    · rw [returned, heard]
      dsimp only
      rw [State.hearReturned_present (by exact present)]
      exact ⟨rfl, rfl, rfl, rfl, rfl⟩
  case returned =>
    obtain ⟨laces, heard⟩ := s.heardOn cyc l m.origin m.seq (.linkNotice m)
    have ran := exec_linkNotice (cyc := cyc) inside framed new
    rw [returned, heard] at ran
    dsimp only at ran
    have lce := State.hearReturned_lce ({ s.stamp cyc with
      lce := { s.lce with seen := s.lce.seen ++ [(m.origin, m.seq)], laces := laces } } : State) m
    exact ⟨_, ran, (congrArg Torus.seen lce :), (congrArg Torus.pendingNotices lce :), (congrArg Torus.missing lce :)⟩
  case lost =>
    obtain ⟨laces, heard⟩ := s.heardOn cyc l m.origin m.seq (.linkNotice m)
    have ran : exec (.linkNotice cyc l m) s = .next ((State.applyLost ({ s.stamp cyc with lce := { s.lce with
        seen := s.lce.seen ++ [(m.origin, m.seq)], laces := laces } } : State) m.subject m.lace).viewChanged (s.stamp cyc)) := by
      rw [exec_linkNotice inside framed new, lost, heard]
      rfl
    refine ⟨_, ran, State.viewChanged_seen _ ?_, ?_⟩
    · rw [(State.applyLost_spec _ _ _).2.1]
      exact List.mem_append_right _ (List.mem_singleton_self _)
    · rw [show ∀ t : State, t.lce.lacesDown = t.torusView.lacesDown from fun _ => rfl, State.viewChanged_torusView]
      exact (State.applyLost_spec _ _ _).1
  case goodbye =>
    obtain ⟨tag, ran⟩ := exec_goodbye (cyc := cyc) inside framed p
    obtain ⟨missing, -, -, seen⟩ := ((s.stamp cyc).laceDown l 2 false).declareMissing_spec p
    have up := LaceState.up_of_framed framed
    have lit : (s.lace l).state ≠ .off := fun off => by rw [off] at framed; exact absurd framed (by decide)
    have view (t : State) : ((t.raise 0x0907 p tag 0).viewChanged (s.stamp cyc)).torusView = t.torusView := by
      rw [State.viewChanged_torusView, State.raise_torusView]
    obtain ⟨down, cause, wasDown, -, -⟩ := State.laceDown_down (s := s.stamp cyc) 2 false present ⟨up, lit⟩
      ((congrArg TorusView.laces (view _)).trans seen.kept.1)
    exact ⟨_, ran, down, cause, wasDown, (congrArg (p ∈ TorusView.missing ·) (view _)).mpr missing⟩
  case hello =>
    obtain ⟨laces, heard, hellos, ran, listed, listed'⟩ := exec_spanHello (cyc := cyc) inside framed origin tag mask
    obtain ⟨syn, planner, -, view⟩ := State.followSpan_rest { s.stamp cyc with
      lce := { s.lce with laces := laces, seenHello := heard, hellos := hellos } }
    exact ⟨_, ran, (congrArg ((origin, tag, mask) ∈ TorusView.hellos ·) view).mpr listed', (congrArg ((origin, tag) ∈ TorusView.seenHello ·) view).mpr listed, syn, planner⟩
  case fault =>
    obtain ⟨laces, heard⟩ := s.heardOn cyc l origin seq (.spanFault origin seq tag subject)
    refine ⟨_, exec_spanFault inside framed origin seq tag subject new, ?_⟩
    rw [heard]
    generalize seen : ({ s.stamp cyc with
      lce := { s.lce with seen := s.lce.seen ++ [(origin, seq)], laces := laces } } : State) = v
    obtain ⟨kept, broken⟩ := State.settleFaults_heard 8 (v.spanBroken tag)
    refine ⟨kept _ ?_, fun own wide => ?_⟩
    · rw [State.spanBroken_seen, ← seen]
      exact List.mem_append_right _ (List.mem_singleton_self _)
    · have view := State.spanBroken_own (s := v) (tag := tag) (by rw [← seen]; exact own) (by rw [← seen]; exact wide)
      have running := congrArg HeardView.running view
      have twice : (v.spanBroken tag).heardView.running.map (fun _ => true) = (v.spanBroken tag).heardView.running := by
        rw [running]
        exact Option.map_map ..
      refine (broken twice).trans (running.trans ?_)
      rw [← seen]
      exact Option.map_map ..
  case commit =>
    obtain ⟨laces, heard, ran⟩ := exec_spanCommit wide tagged here member alive free
    obtain ⟨syn, planner, fab, view⟩ := State.followSpan_rest { s with
      lce := { s.lce with spanMask := mask, spanTag := tag, spanState := .forming, laces := laces, seenHello := heard }
      syn := { s.syn with banks := kdrop s.syn.banks 3584 4096, spanBound := true } }
    exact ⟨_, ran, congrArg TorusView.spanMask view, congrArg TorusView.spanTag view, congrArg Sync.banks syn,
      congrArg Sync.spanBound syn, (congrArg TorusView.position view).trans here, rfl, fab, planner⟩
  case shape => exact exec_spanCommit_shape wide tagged here some outside
  case inUse => exact exec_spanCommit_inUse wide tagged here member alive busy

end Sys2Proof.Machine
end

section
/-! PROOFS. The light of laces, and the laser inputs of eyelets (R411, R413, R418). -/

namespace Sys2Proof.Machine

section
variable {s t : State} {l k cyc e cause : Nat} {notice : Bool}

/-! ### Laces that go down, one after another -/

theorem State.laceDown_of_down (down : (s.lace k).state = .down ∨ (s.lace k).state = .off) :
    s.laceDown k cause notice = s := by
  unfold State.laceDown
  dsimp only
  rw [if_pos (by simpa using down)]

/-- The loss of one lace leaves the laser inputs, and every other lace in its state or DOWN. -/
theorem State.laceDown_lasers (s : State) (k cause : Nat) (notice : Bool) :
    (s.laceDown k cause notice).torusView.laserA = s.torusView.laserA ∧
    (s.laceDown k cause notice).torusView.laserB = s.torusView.laserB ∧
    (s.laceDown k cause notice).lce.laces.length = s.lce.laces.length ∧
    ∀ l, ((s.laceDown k cause notice).lace l).state = (s.lace l).state ∨
      ((s.laceDown k cause notice).lace l).state = .down := by
  by_cases up : (s.lace k).state ≠ .down ∧ (s.lace k).state ≠ .off
  · have seen := State.laceDown_view cause notice up
    obtain ⟨laces, laserA, laserB⟩ := seen.kept
    refine ⟨laserA, laserB, ?_, fun l => ?_⟩
    · simpa [State.torusView, State.modLace, lmod] using congrArg List.length laces
    · have alike := Lace.alike_of_steady (State.steady_of_laces laces l)
      rw [alike.state]
      by_cases here : l = k
      · subst here
        by_cases present : l < s.lce.laces.length
        · rw [State.lace_modLace_self present]
          exact .inr rfl
        · exact .inl (by simp [State.lace, State.modLace, lget, lmod, present])
      · rw [State.lace_modLace_ne here]
        exact .inl rfl
  · rw [State.laceDown_of_down (by tauto)]
    exact ⟨rfl, rfl, rfl, fun _ => .inl rfl⟩

theorem State.foldl_laceDown_kept (ns : List Nat) (s : State) :
    (ns.foldl (fun t k => t.laceDown k cause notice) s).torusView.laserA = s.torusView.laserA ∧
    (ns.foldl (fun t k => t.laceDown k cause notice) s).torusView.laserB = s.torusView.laserB ∧
    ∀ l, ((ns.foldl (fun t k => t.laceDown k cause notice) s).lace l).state = (s.lace l).state ∨
      ((ns.foldl (fun t k => t.laceDown k cause notice) s).lace l).state = .down := by
  induction ns generalizing s with
  | nil => exact ⟨rfl, rfl, fun _ => .inl rfl⟩
  | cons k ns ih =>
    obtain ⟨laserA, laserB, -, state⟩ := s.laceDown_lasers k cause notice
    obtain ⟨laserA', laserB', state'⟩ := ih (s.laceDown k cause notice)
    exact ⟨laserA'.trans laserA, laserB'.trans laserB, fun l => (state' l).elim (fun same => same ▸ state l) .inr⟩

/-- Each lace of a list that goes down, one after another, is DOWN in the end. -/
theorem State.foldl_laceDown_down {ns : List Nat} (member : l ∈ ns) (present : l < s.lce.laces.length)
    (lit : (s.lace l).state ≠ .off) : ((ns.foldl (fun t k => t.laceDown k cause notice) s).lace l).state = .down := by
  induction ns generalizing s with
  | nil => nomatch member
  | cons k ns ih =>
    obtain ⟨-, -, length, state⟩ := s.laceDown_lasers k cause notice
    obtain rfl | later := List.mem_cons.1 member
    · have down : ((s.laceDown l cause notice).lace l).state = .down := by
        by_cases already : (s.lace l).state = .down
        · rw [State.laceDown_of_down (.inl already), already]
        · exact (State.laceDown_down cause notice present ⟨already, lit⟩ rfl).1
      exact ((State.foldl_laceDown_kept ns (s.laceDown l cause notice)).2.2 l).elim (·.trans down) id
    · refine ih later (by rwa [length]) ?_
      obtain same | down := state l
      · rwa [same]
      · rw [down]; nofun

/-- A change that is its own repetition, made to each lace of a list. -/
theorem State.lace_foldl_modLace {f : Lace → Lace} (again : ∀ a, f (f a) = f a) {ns : List Nat} (s : State)
    (present : l < s.lce.laces.length) : (ns.foldl (fun t k => t.modLace k f) s).lace l =
      if l ∈ ns then f (s.lace l) else s.lace l := by
  induction ns generalizing s with
  | nil => rfl
  | cons k ns ih =>
    rw [List.foldl_cons, ih (s.modLace k f) (by rwa [State.modLace_length])]
    by_cases here : l = k
    · subst here
      rw [State.lace_modLace_self present, again]
      simp
    · rw [State.lace_modLace_ne here]
      simp [here]

theorem State.foldl_modLace_moved (f : Lace → Lace) (ns : List Nat) (s : State) :
    s.lacesMoved (ns.foldl (fun t k => t.modLace k f) s) := by
  refine List.foldlRecOn (motive := fun t => s.lacesMoved t) _ _ rfl ?_
  intro t moved k _
  rw [moved.eq]
  rfl

/-! ### The commands -/

/-- An event changes the serving state alone. -/
theorem State.raise_rest (s : State) (code a b c : Nat) : { s.raise code a b c with srv := s.srv } = s := by
  unfold State.raise State.raiseFor
  rfl


theorem exec_laceLightLost (inside : l < 4) : exec (.laceLightLost cyc l) s = .next (
    if (s.lace l).state.framed then (s.stamp cyc).laceDown l 1 true
    else if (s.lace l).state = .training then s.modLace l fun a => { a with state := .dark } else s) :=
  onUnit_true (by simpa using inside) _

theorem exec_leavingDrained (inside : l < 4) (leaving : (s.lace l).state = .leaving)
    (effective : s.pwr.drainEffective = true) (sent : (s.lace l).waiting = []) (acked : (s.lace l).replayBuffer = []) :
    ∃ here, exec (.leavingDrained cyc l) s = .next (((s.stamp cyc).sendControl l (.goodbye here)).modLace l fun a =>
      { a with state := .down, cause := 2, wasDown := true }) := by
  have run : exec (.leavingDrained cyc l) s = execLeavingDrained cyc l s := rfl
  rw [run, execLeavingDrained, onUnit_true (by simpa using inside)]
  dsimp only
  rw [if_pos (by simp [leaving, effective, sent, acked])]
  exact ⟨_, rfl⟩

/-- The module with an input of its lasers lost. -/
def State.laserLost (s : State) (cyc e : Nat) : State :=
  (s.stamp cyc).modTorus fun t => { t with laserA := t.laserA.set e false }

theorem exec_laserInputLost (inside : e < s.part.eyelets) (here : e < s.lce.laserA.length) :
    ∃ us : List Nat, exec (.laserInputLost cyc e 0) s = .next (
      if s.lce.laserB.getD e false then (s.laserLost cyc e).raise 0x0905 e 0 0
      else us.foldl (fun t u => t.uplinkDown u 5)
        ((s.lacesOf e).foldl (fun t l => t.laceDown l 5 true) (s.laserLost cyc e))) := by
  have run : exec (.laserInputLost cyc e 0) s = execLaserInputLost cyc e 0 s := rfl
  have dark : (s.laserLost cyc e).lce.laserA.getD e false = false := by
    simp [State.laserLost, State.modTorus, List.getD_eq_getElem?_getD, here]
  rw [run, execLaserInputLost, onUnit_true (by simpa using inside)]
  simp only [if_true]
  refine ⟨(State.uplinksOf ((s.lacesOf e).foldl (fun t l => t.laceDown l 5 true) (s.laserLost cyc e)) e), ?_⟩
  change Host.Outcome.next (if ((s.laserLost cyc e).lce.laserA.getD e false || s.lce.laserB.getD e false) = true then _
    else _) = _
  rw [dark, Bool.false_or]
  rfl

/-- What a laser input that returns does to a lace. -/
def Lace.relit (a : Lace) : Lace := if a.state = .down && a.cause = 5 then { a with state := .dark, cause := 0 } else a

theorem Lace.relit_relit (a : Lace) : a.relit.relit = a.relit := by
  unfold Lace.relit
  split
  · simp
  · rfl

theorem exec_laserInputReturn (inside : e < s.part.eyelets) : exec (.laserInputReturn cyc e 0) s = .next
    ((s.lacesOf e).foldl (fun t l => t.modLace l Lace.relit)
      ((s.stamp cyc).modTorus fun t => { t with laserA := t.laserA.set e true })) := by
  have run : exec (.laserInputReturn cyc e 0) s = execLaserInputReturn cyc e 0 s := rfl
  rw [run, execLaserInputReturn, onUnit_true (by simpa using inside)]
  simp only [if_true]
  rfl

end

/-- Settles O28: each command by what it does to the lace, and the laser inputs by the lemmas on lists of laces. -/
theorem lightIsLostAndReturns : Obligations.LightIsLostAndReturns := by
  unfold Obligations.LightIsLostAndReturns
  refine ⟨fun cyc l s inside present => ⟨fun framed => ?lost, fun training => ?dark,
    fun leaving effective sent acked => ?left⟩,
    fun cyc e s inside here => ⟨fun other => ?one, fun none => ?both, ?returned⟩⟩
  case lost =>
    have up := LaceState.up_of_framed framed
    have lit : (s.lace l).state ≠ .off := fun off => by rw [off] at framed; exact absurd framed (by decide)
    obtain ⟨down, cause, -, waiting, buffer⟩ := State.laceDown_down (s := s.stamp cyc) 1 true present ⟨up, lit⟩ rfl
    rw [exec_laceLightLost inside, if_pos framed]
    exact ⟨_, rfl, down, cause, waiting, buffer⟩
  case dark =>
    rw [exec_laceLightLost inside, if_neg (by rw [training]; decide), if_pos training]
    exact ⟨_, rfl, State.lace_modLace_self present _, fun k other => State.lace_modLace_ne other _, rfl⟩
  case left =>
    obtain ⟨position, ran⟩ := exec_leavingDrained (cyc := cyc) inside leaving effective sent acked
    have view := State.sendControl_torusView (s.stamp cyc) l (.goodbye position)
    have moved := (State.Sent.sendControl (s.stamp cyc) l (.goodbye position)).trans (.modLace _ l fun a =>
      { a with state := .down, cause := 2, wasDown := true })
    refine ⟨_, ran, ?_, ?_, ?_, moved.others, moved.stamped⟩
    all_goals
      rw [State.lace_modLace_self]
      rw [State.length_of_torusView view]
      exact present
  case one =>
    obtain ⟨us, ran⟩ := exec_laserInputLost (cyc := cyc) inside here
    rw [ran, if_pos other]
    refine ⟨_, rfl, ?_, ?_⟩
    · rw [State.raise_lce]; rfl
    · exact congrArg (fun t : State => ({ t with lce := s.lce, tb := s.tb } : State)) ((s.laserLost cyc e).raise_rest 0x0905 e 0 0)
  case both =>
    obtain ⟨us, ran⟩ := exec_laserInputLost (cyc := cyc) inside here
    rw [ran, if_neg (by rw [none]; nofun)]
    obtain ⟨laserA, laserB, -⟩ := State.foldl_laceDown_kept (cause := 5) (notice := true) (s.lacesOf e) (s.laserLost cyc e)
    have view := State.torusView_foldl (f := fun t u => t.uplinkDown u 5) (fun t u => t.uplinkDown_torusView u 5)
      us ((s.lacesOf e).foldl (fun t l => t.laceDown l 5 true) (s.laserLost cyc e))
    refine ⟨_, rfl, (congrArg TorusView.laserA view).trans laserA, (congrArg TorusView.laserB view).trans laserB,
      fun l member present lit => ?_⟩
    rw [State.state_of_torusView view]
    exact State.foldl_laceDown_down member present lit
  case returned =>
    have moved := State.foldl_modLace_moved Lace.relit (s.lacesOf e)
      ((s.stamp cyc).modTorus fun t => { t with laserA := t.laserA.set e true })
    refine ⟨_, exec_laserInputReturn inside, ?_, ?_, fun l member present down cause => ?_, ?_⟩
    · rw [moved.eq]; rfl
    · rw [moved.eq]; rfl
    · rw [State.lace_foldl_modLace Lace.relit_relit _ (by exact present), if_pos member]
      exact if_pos (by simpa using ⟨down, cause⟩)
    · rw [moved.eq]; rfl

end Sys2Proof.Machine
end

section
/-! PROOFS. Messages of expert dispatch, and the uplinks and tables under them (R419 to R423, R430, R434 to R438). -/

namespace Sys2Proof.Machine

section
variable {s t : State} {cyc up h : Nat} {e : HostEntry} {f : FrameCheck} {m : DispatchMsg}

/-! ### Uplinks -/

theorem State.uplink_modUplink_self (present : up < s.dsp.uplinks.length) (g : Uplink → Uplink) :
    (s.modUplink up g).uplink up = g (s.uplink up) := lget_lmod_self present g

theorem State.uplink_modUplink_ne {k : Nat} (other : k ≠ up) (g : Uplink → Uplink) :
    (s.modUplink up g).uplink k = s.uplink k := lget_lmod_ne _ other g

theorem State.uplink_raise (s : State) (code a b c k : Nat) : (s.raise code a b c).uplink k = s.uplink k := by
  rw [State.uplink, State.uplink, State.raise_dsp]

/-! ### Frames that bring a message (R419, R435) -/

/-- The checks that a frame passes on an uplink that is UP. -/
structure FramePasses (f : FrameCheck) : Prop where
  tagged : f.tagged = false
  extension : f.extension = false
  checksum : f.checksumGood = true
  addressed : f.addressed = true

/-- The module once a frame has come on an uplink. -/
def State.frameTaken (s : State) (cyc up : Nat) : State :=
  (s.stamp cyc).modUplink up fun x => { x with rxFrames := sat 64 (x.rxFrames + 1) }

theorem State.dspFrame_known (open_ : (s.uplink up).state = .up) (passes : FramePasses f) (good : m.good = true)
    (known : s.hostAt m.source = some (h, e)) :
    (s.stamp cyc).dspFrame up f m = (s.frameTaken cyc up, some (h, e)) := by
  obtain ⟨tagged, extension, checksum, addressed⟩ := passes
  have here : ((s.stamp cyc).modUplink up fun x => { x with rxFrames := sat 64 (x.rxFrames + 1) }).hostAt m.source =
      some (h, e) := known
  unfold State.dspFrame
  rw [if_neg (by simpa [State.uplink] using open_), if_neg (by simp [tagged, extension, checksum, addressed])]
  dsimp only
  rw [if_pos good, here]
  rfl

theorem State.dspFrame_discarded (open_ : (s.uplink up).state = .up)
    (bad : f.tagged = true ∨ f.extension = true ∨ f.checksumGood = false ∨ f.addressed = false) :
    (s.stamp cyc).dspFrame up f m =
      ((s.stamp cyc).modUplink up fun x => { x with rxDiscards := sat 32 (x.rxDiscards + 1) }, none) := by
  unfold State.dspFrame
  rw [if_neg (by simpa [State.uplink] using open_), if_pos (by simpa [or_assoc] using bad)]

/-- A message in one datagram is whole. -/
theorem State.gather_whole (s : State) (h : Nat) (ret : Bool) (whole : bit m.flags 2 = false) :
    s.gather h ret m = (s, some m.payload) := if_pos (by simp [whole])

/-- `t` differs from `s` in the state of expert dispatch alone. -/
def State.dspMoved (s t : State) : Prop := { t with dsp := s.dsp } = s

theorem State.serveEnds_eq (s : State) : ∃ cs, s.serveEnds = { s with dsp := { s.dsp with closedStations := cs } } := by
  unfold State.serveEnds
  dsimp only
  split <;> exact ⟨_, rfl⟩

theorem State.dspSend_eq (s : State) (sw dest type : Nat) (m : DispatchMsg) :
    ∃ us, s.dspSend sw dest type m = { s with dsp := { s.dsp with uplinks := us } } := by
  unfold State.dspSend
  split <;> exact ⟨_, rfl⟩

theorem State.dspTo_eq (s : State) (host type : Nat) (m : DispatchMsg) :
    ∃ us, s.dspTo host type m = { s with dsp := { s.dsp with uplinks := us } } := by
  unfold State.dspTo
  split
  · exact s.dspSend_eq _ _ _ _
  · exact ⟨_, rfl⟩

theorem State.serveRefused_eq (s : State) (h status : Nat) (m : DispatchMsg) : ∃ v,
    s.serveRefused h status m = { s with dsp := { s.dsp with refused := sat 32 (s.dsp.refused + 1) }, srv := v } := by
  have raised (t : State) (code a b c : Nat) : ∃ v, t.raise code a b c = { t with srv := v } :=
    ⟨_, rfl⟩
  unfold State.serveRefused
  dsimp only
  split
  · exact raised _ _ _ _ _
  · exact raised _ _ _ _ _
  · exact ⟨s.srv, rfl⟩

theorem exec_dispatch_taken (inside : up < s.part.uplinks) (open_ : (s.uplink up).state = .up) (passes : FramePasses f)
    (good : m.good = true) (known : s.hostAt m.source = some (h, e)) (whole : bit m.flags 2 = false)
    (allowed : s.serveRefusal m = none) : exec (.dispatch cyc up f m) s = .next (((s.frameTaken cyc up).modDsp fun d =>
      { d with
        arrivals := d.arrivals ++ [arrivalOf h up m]
        arrived := if s.dsp.arrivals.any (fun a => a.host = h && a.no = m.dispatchNo && a.gen = m.gen) then d.arrived
          else kcount d.arrived h (· + 1) }).serveEnds.dspAdvance) := by
  have run : exec (.dispatch cyc up f m) s = execDispatch cyc up f m s := rfl
  have allowed' : (s.frameTaken cyc up).serveRefusal m = none := allowed
  rw [run, execDispatch, onUnit_true (by simpa using inside), State.dspFrame_known open_ passes good known]
  dsimp only
  rw [State.gather_whole _ h false whole]
  dsimp only
  rw [allowed']
  rfl

theorem exec_dispatch_refused {status : Nat} (inside : up < s.part.uplinks) (open_ : (s.uplink up).state = .up)
    (passes : FramePasses f) (good : m.good = true) (known : s.hostAt m.source = some (h, e)) (whole : bit m.flags 2 = false)
    (refused : s.serveRefusal m = some status) : ∃ answer, exec (.dispatch cyc up f m) s =
      .next (((s.frameTaken cyc up).serveRefused h status m).dspAnswer up h 2 answer) := by
  have run : exec (.dispatch cyc up f m) s = execDispatch cyc up f m s := rfl
  have refused' : (s.frameTaken cyc up).serveRefusal m = some status := refused
  rw [run, execDispatch, onUnit_true (by simpa using inside), State.dspFrame_known open_ passes good known]
  dsimp only
  rw [State.gather_whole _ h false whole]
  dsimp only
  rw [refused']
  exact ⟨_, rfl⟩

/-- A frame that R419 discards does the same whatever its message. -/
theorem exec_frame_refused (inside : up < s.part.uplinks) (open_ : (s.uplink up).state = .up)
    (bad : f.tagged = true ∨ f.extension = true ∨ f.checksumGood = false ∨ f.addressed = false) :
    let t := (s.stamp cyc).modUplink up fun x => { x with rxDiscards := sat 32 (x.rxDiscards + 1) }
    exec (.dispatch cyc up f m) s = .next t ∧ exec (.returnMsg cyc up f m) s = .next t ∧
    exec (.batchEnd cyc up f m) s = .next t ∧ exec (.dispatchCancel cyc up f m) s = .next t ∧
    exec (.credit cyc up f m) s = .next t := by
  have discarded := State.dspFrame_discarded (cyc := cyc) (m := m) open_ bad
  have here : decide (up < s.part.uplinks) = true := by simpa using inside
  refine ⟨?_, ?_, ?_, ?_, ?_⟩
  · have run : exec (.dispatch cyc up f m) s = execDispatch cyc up f m s := rfl
    rw [run, execDispatch, onUnit_true here, discarded]
  · have run : exec (.returnMsg cyc up f m) s = execReturnMsg cyc up f m s := rfl
    rw [run, execReturnMsg, onUnit_true here, discarded]
  · have run : exec (.batchEnd cyc up f m) s = execBatchEnd cyc up f m s := rfl
    rw [run, execBatchEnd, onUnit_true here, discarded]
  · have run : exec (.dispatchCancel cyc up f m) s = execDispatchCancel cyc up f m s := rfl
    rw [run, execDispatchCancel, onUnit_true here, discarded]
  · have run : exec (.credit cyc up f m) s = execCredit cyc up f m s := rfl
    rw [run, execCredit, onUnit_true here, discarded]

end

/-- Settles O29: a DISPATCH by the two lemmas about it, a discarded frame by `exec_frame_refused`. -/
theorem dispatchesArrive : Obligations.DispatchesArrive := by
  unfold Obligations.DispatchesArrive
  intro cyc up h e f m s inside open_
  refine ⟨fun tagged extension checksum addressed good known whole => ⟨fun allowed => ?taken, fun status refused => ?refused⟩,
    fun present bad => ?discarded⟩
  case taken =>
    obtain ⟨cs, ends⟩ := State.serveEnds_eq ((s.frameTaken cyc up).modDsp fun d => { d with
      arrivals := d.arrivals ++ [arrivalOf h up m]
      arrived := if s.dsp.arrivals.any (fun a => a.host = h && a.no = m.dispatchNo && a.gen = m.gen) then d.arrived
        else kcount d.arrived h (· + 1) })
    refine ⟨_, _, exec_dispatch_taken inside open_ ⟨tagged, extension, checksum, addressed⟩ good known whole allowed, rfl, ?_⟩
    rw [ends]
    refine ⟨rfl, ?_, rfl, rfl, rfl⟩
    show kgetD (if _ then s.dsp.arrived else kcount s.dsp.arrived h (· + 1)) h 0 = _
    split
    · rfl
    · exact kgetD_kcount_self _ _ _
  case refused =>
    obtain ⟨answer, ran⟩ := exec_dispatch_refused (cyc := cyc) inside open_ ⟨tagged, extension, checksum, addressed⟩ good known
      whole refused
    obtain ⟨v, counted⟩ := (s.frameTaken cyc up).serveRefused_eq h status m
    obtain ⟨us, answered⟩ := ((s.frameTaken cyc up).serveRefused h status m).dspSend_eq
      (((s.frameTaken cyc up).serveRefused h status m).part.switchOfUplink up) h 2
      answer
    refine ⟨_, ran, ?_⟩
    rw [State.dspAnswer, answered, counted]
    exact ⟨rfl, rfl, rfl, rfl⟩
  case discarded =>
    obtain ⟨dispatch, rest⟩ := exec_frame_refused (cyc := cyc) (m := m) inside open_ bad
    obtain ⟨returned, ended, cancelled, credited⟩ := rest
    exact ⟨_, dispatch, congrArg Uplink.rxDiscards (State.uplink_modUplink_self (s := s.stamp cyc) present _),
      fun k other => State.uplink_modUplink_ne (s := s.stamp cyc) other _, rfl, returned, ended, cancelled, credited, rfl⟩

end Sys2Proof.Machine
end

section
/-! PROOFS. How dispatches end: RETURN, BATCH_END, DISPATCH_CANCEL and CREDIT, late returns, and the timers of the
serve side (R434 to R438). -/

namespace Sys2Proof.Machine

/-- The returns that a module has asked for again, and those that it has lost. -/
structure LossView where
  resends : Nat
  returnsLost : Nat
  lossNow : List Nat

/-- What `s` has counted of late returns. -/
def State.lossView (s : State) : LossView := {
    resends := s.dsp.resends, returnsLost := s.dsp.returnsLost, lossNow := s.dsp.lossNow }

theorem State.fold_lossView (s : State) : s.dsp.resends = s.lossView.resends ∧ s.dsp.returnsLost =
    s.lossView.returnsLost ∧ s.dsp.lossNow = s.lossView.lossNow := by simp [State.lossView]

theorem State.lossView_mk (part : Part) (pending : List Instr) (free : Nat) (regs : KMap Nat) (blobs : KMap (List
    Byte)) (tb : TimeBase) (planner : Planner) (fab : Fabric) (mxe : Engine) (chn : ChainCounters) (mem : Memory)
    (pages : Pages) (store : Store) (srv : Serving) (syn : Sync) (lce : Torus) (dsp : Dispatch) (hlk : HostLink) (dict
    : Dict) (ras : Ras) (pwr : Power) (boot : Boot) (sec : Security) : State.lossView {
    part := part, pending := pending, free := free, regs := regs, blobs := blobs, tb := tb, planner := planner, fab :=
    fab, mxe := mxe, chn := chn, mem := mem, pages := pages, store := store, srv := srv, syn := syn, lce := lce,
    dsp := dsp, hlk := hlk, dict := dict, ras := ras, pwr := pwr, boot := boot, sec := sec } = {
    resends := dsp.resends, returnsLost := dsp.returnsLost, lossNow := dsp.lossNow } := rfl

@[simp] theorem State.lossView_ite (c : Prop) [Decidable c] (s t : State) :
    (if c then s else t).lossView = if c then s.lossView else t.lossView := by split <;> rfl

section
variable {α γ : Type} {f : State → α → State} {k : State × γ → α → State × γ} {h : γ × State → α → γ × State}

@[simp] theorem State.lossView_foldl (keeps : ∀ t a, (f t a).lossView = t.lossView) (l : List α) (s : State) :
    (l.foldl f s).lossView = s.lossView := State.keeps_foldl _ keeps l s
@[simp] theorem State.lossView_foldl_fst (keeps : ∀ p a, (k p a).1.lossView = p.1.lossView) (l : List α) (p : State × γ) :
    (l.foldl k p).1.lossView = p.1.lossView := State.keeps_foldl_fst (fun t => t.lossView) keeps l p
@[simp] theorem State.lossView_foldl_snd (keeps : ∀ p a, (h p a).2.lossView = p.2.lossView) (l : List α) (p : γ × State) :
    (l.foldl h p).2.lossView = p.2.lossView := State.keeps_foldl_snd (fun t => t.lossView) keeps l p

end

@[simp] theorem State.raiseFor_lossView (s : State) (code group arg0 arg1 arg2 : Nat) : (s.raiseFor code group arg0
    arg1 arg2).lossView = s.lossView := by
  simp [State.lossView]

@[simp] theorem State.raise_lossView (s : State) (code arg0 arg1 arg2 : Nat) : (s.raise code arg0 arg1 arg2).lossView
    = s.lossView := by
  simp [State.lossView]

@[simp] theorem State.record_lossView (s : State) (info : RecordInfo) : (State.record s info).lossView = s.lossView := by
  unfold State.record; simp [State.fold_lossView, State.lossView_mk]

@[simp] theorem State.taint_lossView (s : State) (t : RecordInfo) : (State.taint s t).lossView = s.lossView := by
  unfold State.taint; (repeat' split) <;> simp [State.fold_lossView, State.lossView_mk]

@[simp] theorem State.notifyLater_lossView (s : State) (x : Notice) : (State.notifyLater s x).lossView = s.lossView := by
  unfold State.notifyLater; simp [State.fold_lossView, State.lossView_mk]

@[simp] theorem State.freeBuffer_lossView (s : State) (n : Nat) : (State.freeBuffer s n).lossView = s.lossView := by
  unfold State.freeBuffer; simp [State.fold_lossView, State.lossView_mk]

@[simp] theorem State.leaveTemplate_lossView (s : State) (n : Nat) (x : Stream) : (State.leaveTemplate s n x).lossView
    = s.lossView := by
  unfold State.leaveTemplate; dsimp only; (repeat' split) <;> simp [State.fold_lossView, State.lossView_mk]

@[simp] theorem State.dropStream_lossView (s : State) (n : Nat) : (State.dropStream s n).lossView = s.lossView := by
  unfold State.dropStream; (repeat' split) <;> simp [State.fold_lossView, State.lossView_mk]

@[simp] theorem State.endStream_lossView (s : State) (n status : Nat) : (State.endStream s n status).lossView =
    s.lossView := by
  unfold State.endStream; (repeat' split) <;> simp [State.fold_lossView, State.lossView_mk]

@[simp] theorem State.endAll_lossView (s : State) (status : Nat) : (State.endAll s status).lossView = s.lossView := by
  unfold State.endAll; simp [State.fold_lossView, State.lossView_mk]

@[simp] theorem State.startRefetch_lossView (s : State) (epoch shard : Nat) : (State.startRefetch s epoch
    shard).lossView = s.lossView := by
  unfold State.startRefetch; simp [State.fold_lossView, State.lossView_mk]

@[simp] theorem State.breakPass_lossView (s : State) : (State.breakPass s).lossView = s.lossView := by
  unfold State.breakPass; simp [State.fold_lossView, State.lossView_mk]

@[simp] theorem State.outOfService_lossView (s : State) : (State.outOfService s).lossView = s.lossView := by
  unfold State.outOfService; simp [State.fold_lossView, State.lossView_mk]

@[simp] theorem State.detect_lossView (s : State) (info : RecordInfo) : (State.detect s info).lossView = s.lossView := by
  unfold State.detect; dsimp only; (repeat' split) <;> simp [State.fold_lossView, State.lossView_mk]

@[simp] theorem State.progress_lossView (s : State) : (State.progress s).lossView = s.lossView := by
  unfold State.progress; simp [State.fold_lossView, State.lossView_mk]

@[simp] theorem State.modLace_lossView (s : State) (l : Nat) (f : Lace → Lace) : (State.modLace s l f).lossView =
    s.lossView := by
  unfold State.modLace; simp [State.fold_lossView, State.lossView_mk]

@[simp] theorem State.freeSlots_lossView (s : State) (xs : List (Nat × Nat × Bool × Nat)) : (State.freeSlots s
    xs).lossView = s.lossView := by
  unfold State.freeSlots; simp [State.fold_lossView, State.lossView_mk]

@[simp] theorem State.laceDrain_lossView (s : State) (l : Nat) : (State.laceDrain s l).lossView = s.lossView := by
  unfold State.laceDrain; simp [State.fold_lossView, State.lossView_mk]

@[simp] theorem State.laceSend_lossView (s : State) (l : Nat) (x : LaceTx) : (State.laceSend s l x).lossView =
    s.lossView := by
  unfold State.laceSend; simp [State.fold_lossView, State.lossView_mk]

@[simp] theorem State.sendControl_lossView (s : State) (l : Nat) (m : ControlMsg) : (State.sendControl s l m).lossView
    = s.lossView := by
  unfold State.sendControl; simp [State.fold_lossView, State.lossView_mk]

@[simp] theorem State.flood_lossView (s : State) (except_ : Nat) (m : ControlMsg) : (State.flood s except_ m).lossView
    = s.lossView := by
  unfold State.flood; simp [State.fold_lossView, State.lossView_mk]

@[simp] theorem State.oweFault_lossView (s : State) (tag : Nat) : (State.oweFault s tag).lossView = s.lossView := by
  unfold State.oweFault; simp [State.fold_lossView, State.lossView_mk, State.modTorus]

@[simp] theorem State.unreachable_lossView (s : State) (h : PacketHeader) : (State.unreachable s h).lossView =
    s.lossView := by
  unfold State.unreachable; simp [State.fold_lossView, State.lossView_mk, State.modTorus]

@[simp] theorem State.forward_lossView (s : State) (h : PacketHeader) (flits : List Flit) (p l : Nat) (turned : Bool)
    (origin : Option (Nat × Nat × Bool)) : (State.forward s h flits p l turned origin).lossView = s.lossView := by
  unfold State.forward; dsimp only; split <;> simp [State.fold_lossView, State.lossView_mk]

@[simp] theorem State.inject_lossView (s : State) (h : PacketHeader) (flits : List Flit) : (State.inject s h
    flits).lossView = s.lossView := by
  unfold State.inject; dsimp only; (repeat' split) <;> simp [State.fold_lossView, State.lossView_mk, State.modTorus]

@[simp] theorem State.sendSync_lossView (s : State) (dest op object arg : Nat) : (State.sendSync s dest op object
    arg).lossView = s.lossView := by
  unfold State.sendSync; simp [State.fold_lossView, State.lossView_mk]

@[simp] theorem State.setObj_lossView (s : State) (r : ObjRef) (o : SyncObj) : (State.setObj s r o).lossView =
    s.lossView := by
  unfold State.setObj; simp [State.fold_lossView, State.lossView_mk]

@[simp] theorem State.modPart_lossView (s : State) (k : Nat) (f : Participant → Participant) : (State.modPart s k
    f).lossView = s.lossView := by
  unfold State.modPart; simp [State.fold_lossView, State.lossView_mk]

@[simp] theorem State.freeRemote_lossView (s : State) (k cause : Nat) : (State.freeRemote s k cause).lossView =
    s.lossView := by
  unfold State.freeRemote; simp [State.fold_lossView, State.lossView_mk]

@[simp] theorem State.recordRelease_lossView (s : State) (k cause : Nat) : (State.recordRelease s k cause).lossView =
    s.lossView := by
  unfold State.recordRelease; simp [State.fold_lossView, State.lossView_mk]

@[simp] theorem State.endWait_lossView (s : State) (r : ObjRef) (w : WaitReg) (cause : Nat) : (State.endWait s r w
    cause).lossView = s.lossView := by
  unfold State.endWait; simp [State.fold_lossView, State.lossView_mk]

@[simp] theorem State.toModules_lossView (s : State) (ms : List Nat) (op : Nat) (r : ObjRef) (arg : Nat) :
    (State.toModules s ms op r arg).lossView = s.lossView := by
  unfold State.toModules; simp [State.fold_lossView, State.lossView_mk]

@[simp] theorem State.nodeStep_lossView (s : State) (m : NodeMsg) (r : ObjRef) : (State.nodeStep s m r).1.lossView =
    s.lossView := by
  unfold State.nodeStep; dsimp only; (repeat' split) <;> simp [State.fold_lossView, State.lossView_mk]

@[simp] theorem State.nodes_lossView (x0 : Nat) (x1 : List (NodeMsg × ObjRef)) (s : State) : (State.nodes x0 x1
    s).lossView = s.lossView := by
  induction x0 generalizing s x1 with
  | zero => rfl
  | succ f ih =>
    cases x1 with
    | nil => rfl
    | cons e ms => simp [State.nodes, ih]

@[simp] theorem State.nodeMsg_lossView (s : State) (m : NodeMsg) (r : ObjRef) : (State.nodeMsg s m r).lossView =
    s.lossView := by
  unfold State.nodeMsg; simp [State.fold_lossView, State.lossView_mk]

@[simp] theorem State.ownerLost_lossView (s : State) (rs : List ObjRef) : (State.ownerLost s rs).lossView = s.lossView := by
  unfold State.ownerLost; simp [State.fold_lossView, State.lossView_mk]

@[simp] theorem State.spanBroken_lossView (s : State) (tag : Nat) : (State.spanBroken s tag).lossView = s.lossView := by
  unfold State.spanBroken; simp [State.fold_lossView, State.lossView_mk]

@[simp] theorem State.settleFault_lossView (s : State) (tag : Nat) : (State.settleFault s tag).lossView = s.lossView := by
  unfold State.settleFault; simp [State.fold_lossView, State.lossView_mk, State.modTorus]

@[simp] theorem State.settleFaults_lossView (x0 : Nat) (s : State) : (State.settleFaults x0 s).lossView = s.lossView := by
  induction x0 generalizing s with
  | zero => rfl
  | succ f ih =>
    unfold State.settleFaults
    split <;> simp [ih]

@[simp] theorem State.torusDone_lossView (s : State) : (State.torusDone s).lossView = s.lossView := by
  unfold State.torusDone; simp [State.fold_lossView, State.lossView_mk]

@[simp] theorem State.modUplink_lossView (s : State) (u : Nat) (f : Uplink → Uplink) : (State.modUplink s u
    f).lossView = s.lossView := by
  unfold State.modUplink; simp [State.fold_lossView, State.lossView_mk, State.modDsp]

@[simp] theorem State.dspSend_lossView (s : State) (sw dest type : Nat) (m : DispatchMsg) : (State.dspSend s sw dest
    type m).lossView = s.lossView := by
  unfold State.dspSend; (repeat' split) <;> simp [State.fold_lossView, State.lossView_mk]

@[simp] theorem State.dspTo_lossView (s : State) (host type : Nat) (m : DispatchMsg) : (State.dspTo s host type
    m).lossView = s.lossView := by
  unfold State.dspTo; (repeat' split) <;> simp [State.fold_lossView, State.lossView_mk]

@[simp] theorem State.cancelBatch_lossView (s : State) (keep : Bool) : (State.cancelBatch s keep).lossView =
    s.lossView := by
  unfold State.cancelBatch; (repeat' split) <;> simp [State.fold_lossView, State.lossView_mk, State.modDsp]

@[simp] theorem State.voidBatch_lossView (s : State) : (State.voidBatch s).lossView = s.lossView := by
  unfold State.voidBatch; simp [State.fold_lossView, State.lossView_mk]

@[simp] theorem State.cancelReads_lossView (s : State) : (State.cancelReads s).lossView = s.lossView := by
  unfold State.cancelReads; simp [State.fold_lossView, State.lossView_mk]

@[simp] theorem State.startVoid_lossView (s : State) (cause : Nat) : (State.startVoid s cause).lossView = s.lossView := by
  unfold State.startVoid; simp [State.fold_lossView, State.lossView_mk]

@[simp] theorem State.dropChoice_lossView (s : State) (station row rank : Nat) : (State.dropChoice s station row
    rank).lossView = s.lossView := by
  unfold State.dropChoice; simp [State.fold_lossView, State.lossView_mk, State.modDsp]

@[simp] theorem State.serveRefused_lossView (s : State) (host status : Nat) (m : DispatchMsg) : (State.serveRefused s
    host status m).lossView = s.lossView := by
  unfold State.serveRefused; (repeat' split) <;> simp [State.fold_lossView, State.lossView_mk, State.modDsp]

section
variable {s : State} {cyc up h no i : Nat} {e : HostEntry} {f : FrameCheck} {m : DispatchMsg} {c : Choice}

theorem State.countLoss_spec (s : State) (host : Nat) : (s.countLoss host).dsp.resends = s.dsp.resends ∧
    (s.countLoss host).dsp.returnsLost = s.dsp.returnsLost ∧ host ∈ (s.countLoss host).dsp.lossNow := by
  unfold State.countLoss
  split
  · next known => exact ⟨rfl, rfl, by simpa using known⟩
  · dsimp only
    split
    · simp [State.raise_dsp, State.modDsp]
    · simp [State.modDsp]

/-- A lost return is counted, and its host has lost one in this window (R438). -/
theorem State.returnLost_spec (s : State) (c : Choice) : (s.returnLost c).dsp.resends = s.dsp.resends ∧
    (s.returnLost c).dsp.returnsLost = sat 32 (s.dsp.returnsLost + 1) ∧ c.host ∈ (s.returnLost c).dsp.lossNow := by
  have same {t : State} (counted : t.dsp.resends = s.dsp.resends ∧ t.dsp.returnsLost = sat 32 (s.dsp.returnsLost + 1) ∧
      c.host ∈ t.dsp.lossNow) {u : State} (kept : u.lossView = t.lossView) : u.dsp.resends = s.dsp.resends ∧
      u.dsp.returnsLost = sat 32 (s.dsp.returnsLost + 1) ∧ c.host ∈ u.dsp.lossNow := by
    rw [show u.dsp.resends = t.dsp.resends from congrArg LossView.resends kept,
      show u.dsp.returnsLost = t.dsp.returnsLost from congrArg LossView.returnsLost kept,
      show u.dsp.lossNow = t.dsp.lossNow from congrArg LossView.lossNow kept]
    exact counted
  have counted := State.countLoss_spec ((s.modDsp fun d => { d with returnsLost := sat 32 (d.returnsLost + 1) }).raise
    0x0A03 c.host (s.modDsp fun d => { d with returnsLost := sat 32 (d.returnsLost + 1) }).dsp.eventArg c.no) c.host
  rw [State.raise_dsp] at counted
  unfold State.returnLost
  dsimp only
  split
  · exact same counted (State.startVoid_lossView _ _)
  · exact same counted (State.cancelBatch_lossView _ _)

theorem State.closeChoice_resends (s : State) (c : Choice) (status : Nat) (payload : List Byte) :
    (s.closeChoice c status payload).dsp.resends = s.dsp.resends := by
  have credited : (s.progress.modDsp fun d => { d.credit c.host 1 with
      returns := sat 64 (d.returns + 1), closedNos := d.closedNos ++ [c.no] }).dsp.resends = s.dsp.resends := by
    show (Dispatch.credit _ _ _).resends = _
    unfold Dispatch.credit
    split <;> exact congrArg LossView.resends (State.progress_lossView s)
  have detected (t : State) (info : RecordInfo) : (t.detect info).dsp.resends = t.dsp.resends :=
    congrArg LossView.resends (t.detect_lossView info)
  have dropped (t : State) (a b d : Nat) : (t.dropChoice a b d).dsp.resends = t.dsp.resends :=
    congrArg LossView.resends (t.dropChoice_lossView a b d)
  unfold State.closeChoice
  dsimp only
  split
  · exact credited
  · exact (detected _ _).trans credited
  · exact (State.returnLost_spec _ _).1.trans credited
  · exact (dropped _ _ _ _).trans credited

/-- A credit of a host other than the module itself comes back. -/
theorem Dispatch.credit_eq (d : Dispatch) (host k : Nat) : ∃ n,
    (host ≠ 0xFFFF → kgetD n host 0 = kgetD d.inUse host 0 - k) ∧ d.credit host k = { d with inUse := n } := by
  unfold Dispatch.credit
  split
  · next own => exact ⟨_, fun other => absurd own other, rfl⟩
  · exact ⟨_, fun _ => kgetD_kcount_self _ _ _, rfl⟩

theorem State.closeChoice_answered (s : State) (c : Choice) (payload : List Byte) : ∃ n,
    (c.host ≠ 0xFFFF → kgetD n c.host 0 = kgetD s.dsp.inUse c.host 0 - 1) ∧
    s.closeChoice c 0 payload = s.progress.modDsp fun d => { d with
      inUse := n, returns := sat 64 (d.returns + 1), closedNos := d.closedNos ++ [c.no]
      choices := d.choices.map fun x => if x.no = c.no then { x with result := some (payload, false) } else x } := by
  obtain ⟨n, credits, credited⟩ := Dispatch.credit_eq s.progress.dsp c.host 1
  refine ⟨n, credits, ?_⟩
  unfold State.closeChoice State.modDsp
  dsimp only
  rw [credited]
  rfl

theorem State.deliverOwn_resends (s : State) (c : Choice) (m : DispatchMsg) :
    (s.deliverOwn c m).dsp.resends = s.dsp.resends := by
  unfold State.deliverOwn
  split
  · exact (State.closeChoice_resends _ _ _ _).trans (congrArg LossView.resends (State.serveRefused_lossView _ _ _ _))
  · rfl

/-! ### Messages from a known host -/

theorem exec_returnMsg_closes (inside : up < s.part.uplinks) (open_ : (s.uplink up).state = .up) (passes : FramePasses f)
    (good : m.good = true) (known : s.hostAt m.source = some (h, e)) (whole : bit m.flags 2 = false)
    (current : s.dsp.gen ≤ m.gen)
    (fresh : ∀ x ∈ s.dsp.cancelled, x.batch ≠ m.batchId ∨ x.gen ≠ m.gen ∨ x.host ≠ h ∨ x.no ≠ m.dispatchNo)
    (found : (s.dsp.choices.find? fun c => c.no = m.dispatchNo && c.host = h && c.sent && c.result.isNone &&
      c.gen = m.gen && s.dsp.batchId = some m.batchId) = some c) :
    exec (.returnMsg cyc up f m) s =
      .next ((s.frameTaken cyc up).closeChoice c m.status m.payload).dspAdvance := by
  have run : exec (.returnMsg cyc up f m) s = execReturnMsg cyc up f m s := rfl
  have old : (s.frameTaken cyc up).dsp.cancelled.find? (fun x => x.batch = m.batchId && x.gen = m.gen && x.host = h &&
      x.no = m.dispatchNo) = none := by
    rw [List.find?_eq_none]
    intro x mem
    have := fresh x mem
    simp only [Bool.and_eq_true, decide_eq_true_eq, not_and]
    tauto
  have found' : ((s.frameTaken cyc up).dsp.choices.find? fun c => c.no = m.dispatchNo && c.host = h && c.sent &&
      c.result.isNone && c.gen = m.gen && (s.frameTaken cyc up).dsp.batchId = some m.batchId) = some c := found
  have gen : (s.frameTaken cyc up).dsp.gen = s.dsp.gen := rfl
  rw [run, execReturnMsg, onUnit_true (by simpa using inside), State.dspFrame_known open_ passes good known]
  dsimp only
  rw [old, if_neg (by simp [gen]; intro _; exact current), found']
  dsimp only
  rw [State.gather_whole _ h true whole]

theorem exec_batchEnd_noted (inside : up < s.part.uplinks) (open_ : (s.uplink up).state = .up) (passes : FramePasses f)
    (good : m.good = true) (known : s.hostAt m.source = some (h, e)) (batch : s.dsp.batchId = some m.batchId) :
    exec (.batchEnd cyc up f m) s = .next (((s.frameTaken cyc up).modDsp fun d =>
      { d with ends := kset d.ends h m.dispatchNo }).serveEnds.dspAdvance) := by
  have run : exec (.batchEnd cyc up f m) s = execBatchEnd cyc up f m s := rfl
  have batch' : (s.frameTaken cyc up).dsp.batchId = some m.batchId := batch
  rw [run, execBatchEnd, onUnit_true (by simpa using inside), State.dspFrame_known open_ passes good known]
  dsimp only
  rw [if_neg (by simp [batch'])]

theorem exec_dispatchCancel_discards (inside : up < s.part.uplinks) (open_ : (s.uplink up).state = .up)
    (passes : FramePasses f) (good : m.good = true) (known : s.hostAt m.source = some (h, e))
    (batch : s.dsp.batchId = some m.batchId) :
    ∃ answer, exec (.dispatchCancel cyc up f m) s = .next (((s.frameTaken cyc up).modDsp fun d =>
      { d with arrivals := d.arrivals.filter fun a => !(a.host = h && !a.taken && a.gen < m.gen)
               arrived := kset d.arrived h 0, ends := kdel d.ends h }).dspAnswer up h 5 answer) := by
  have run : exec (.dispatchCancel cyc up f m) s = execDispatchCancel cyc up f m s := rfl
  have batch' : (s.frameTaken cyc up).dsp.batchId = some m.batchId := batch
  rw [run, execDispatchCancel, onUnit_true (by simpa using inside), State.dspFrame_known open_ passes good known]
  dsimp only
  rw [if_neg (by simp [batch'])]
  exact ⟨_, rfl⟩

/-- The cancelled choices of host `h` whose credits a CREDIT brings back (R436). -/
def State.creditedBy (s : State) (h : Nat) (m : DispatchMsg) : List CancelledChoice :=
  (s.dsp.cancelled.filter fun x => x.host = h && x.batch = m.batchId && x.gen < m.gen).take m.credits

theorem State.of_mem_creditedBy {x : CancelledChoice} (mem : x ∈ s.creditedBy h m) :
    x.host = h ∧ x.batch = m.batchId ∧ x.gen < m.gen := by
  have := (List.mem_filter.1 (List.mem_of_mem_take mem)).2
  simpa [and_assoc] using this

theorem exec_credit_known (inside : up < s.part.uplinks) (open_ : (s.uplink up).state = .up) (passes : FramePasses f)
    (good : m.good = true) (known : s.hostAt m.source = some (h, e)) :
    exec (.credit cyc up f m) s = .next (((s.frameTaken cyc up).modDsp fun d =>
      { d.credit h (s.creditedBy h m).length with
        cancelled := d.cancelled.filter fun x => !(s.creditedBy h m).contains x
        duplicates := if (s.creditedBy h m).length < m.credits then sat 32 (d.duplicates + 1) else d.duplicates
      }).dspAdvance) := by
  have run : exec (.credit cyc up f m) s = execCredit cyc up f m s := rfl
  rw [run, execCredit, onUnit_true (by simpa using inside), State.dspFrame_known open_ passes good known]
  rfl

/-! ### Timers -/

theorem exec_returnTimeout_due
    (found : (s.dsp.choices.find? fun c => c.no = no && c.sent && c.result.isNone) = some c)
    (late : c.sentAt + 1024 * s.reg Reg.DSP_RETURN_TIMEOUT ≤ (s.stamp cyc).clock) :
    exec (.returnTimeout cyc no) s = .next (
      if c.resent then
        ((s.stamp cyc).modDsp fun d => { d with choices := d.choices.filter (·.no != c.no) }).returnLost c
      else
        let t := (s.stamp cyc).modDsp fun d =>
          { d with resends := sat 32 (d.resends + 1), choices := d.choices.map fun x =>
              if x.no = c.no then { x with resent := true, sentAt := (s.stamp cyc).clock } else x }
        let m := { c.msg with gen := s.dsp.gen, flags := c.msg.flags ||| 1 }
        if c.host = 0xFFFF then (t.deliverOwn c m).dspAdvance else t.dspTo c.host 1 m) := by
  have run : exec (.returnTimeout cyc no) s = execReturnTimeout cyc no s := rfl
  have found' : ((s.stamp cyc).dsp.choices.find? fun c => c.no = no && c.sent && c.result.isNone) = some c := found
  rw [run, execReturnTimeout]
  dsimp only
  rw [found']
  dsimp only
  rw [if_neg (by omega)]
  split <;> rfl

/-- Credits that come back touch the counts of credits alone. -/
theorem State.credits_eq (s : State) (l : List CancelledChoice) : ∃ n,
    l.foldl (fun t x => t.modDsp fun d => d.credit x.host 1) s = { s with dsp := { s.dsp with inUse := n } } := by
  induction l generalizing s with
  | nil => exact ⟨_, rfl⟩
  | cons x xs ih =>
    have one : ∃ n, (s.modDsp fun d => d.credit x.host 1) = { s with dsp := { s.dsp with inUse := n } } := by
      unfold Dispatch.credit State.modDsp
      dsimp only
      split <;> exact ⟨_, rfl⟩
    obtain ⟨n, one⟩ := one
    obtain ⟨k, rest⟩ := ih { s with dsp := { s.dsp with inUse := n } }
    exact ⟨k, by rw [List.foldl_cons, one, rest]⟩

theorem exec_creditGraceExpiry (s : State) (cyc gen : Nat) :
    let due (x : CancelledChoice) : Bool :=
      x.gen = gen && x.since + 156250 * s.reg Reg.DSP_CREDIT_GRACE ≤ (s.stamp cyc).clock
    ∃ n, exec (.creditGraceExpiry cyc gen) s = .next (((s.stamp cyc).modDsp fun d => { d with
      inUse := n
      cancelled := d.cancelled.filter fun x => !due x
      closedNos := d.closedNos ++ (s.dsp.cancelled.filter due).map fun x => x.no
      reclaimed := sat 32 (d.reclaimed + (s.dsp.cancelled.filter due).length) }).dspAdvance) := by
  intro due
  have run : exec (.creditGraceExpiry cyc gen) s = execCreditGraceExpiry cyc gen s := rfl
  obtain ⟨n, credited⟩ := (s.stamp cyc).credits_eq (s.dsp.cancelled.filter due)
  have credited' : ((s.stamp cyc).dsp.cancelled.filter fun (x : CancelledChoice) => decide (x.gen = gen) &&
      decide (x.since + 156250 * (s.stamp cyc).reg Reg.DSP_CREDIT_GRACE ≤ (s.stamp cyc).clock)).foldl
        (fun t x => t.modDsp fun d => d.credit x.host 1) (s.stamp cyc) =
      { s.stamp cyc with dsp := { (s.stamp cyc).dsp with inUse := n } } := credited
  refine ⟨n, ?_⟩
  rw [run, execCreditGraceExpiry]
  dsimp only
  rw [credited']
  rfl

theorem exec_serveBatchClose_reached {p : PortOp} {r : PassRun} (running : s.planner.running = some r)
    (serves : (s.dspStations 1).find? (fun e => e.1 = i) = some (i, p)) (runs : s.fab.state = .running)
    (isOpen : i ∉ s.dsp.closedStations) (reached : r.start + p.closeCycles ≤ (s.stamp cyc).tb.now) :
    exec (.serveBatchClose cyc i) s = .next ((s.stamp cyc).modDsp fun d =>
      { d with closedStations := d.closedStations ++ [i] }).dspAdvance := by
  have run : exec (.serveBatchClose cyc i) s = execServeBatchClose cyc i s := rfl
  rw [run, execServeBatchClose, running, serves]
  dsimp only
  rw [decide_eq_false (not_lt.2 reached), if_neg (by simp [runs, isOpen])]

end

/-- Settles O30: each message and timer by the lemma that says what it does. -/
theorem dispatchesEnd : Obligations.DispatchesEnd := by
  unfold Obligations.DispatchesEnd
  refine ⟨fun cyc up h e f m s inside open_ tagged extension checksum addressed good known => ?messages, ?timeout, ?grace,
    ?close⟩
  case messages =>
    have passes : FramePasses f := ⟨tagged, extension, checksum, addressed⟩
    refine ⟨fun c whole ok _ current fresh found => ?returned, fun batch => ⟨?ended, ?cancelled⟩, ?credited⟩
    case returned =>
      have host : c.host = h := by
        have := List.find?_some found
        simp only [Bool.and_eq_true, decide_eq_true_eq] at this
        exact this.1.1.1.1.2
      have ran := exec_returnMsg_closes (cyc := cyc) inside open_ passes good known whole current fresh found
      rw [ok] at ran
      refine ⟨_, _, ran, rfl, ?_⟩
      obtain ⟨n, credits, answered⟩ := (s.frameTaken cyc up).closeChoice_answered c m.payload
      rw [answered]
      refine ⟨rfl, rfl, rfl, fun remote => ?_, rfl⟩
      rw [← host] at remote ⊢
      exact credits remote
    case ended =>
      obtain ⟨cs, ends⟩ := State.serveEnds_eq ((s.frameTaken cyc up).modDsp fun d =>
        { d with ends := kset d.ends h m.dispatchNo })
      refine ⟨_, _, exec_batchEnd_noted inside open_ passes good known batch, rfl, ?_⟩
      rw [ends]
      exact ⟨kget?_kset_self _ _ _, fun k other => kget?_kset_ne _ _ other, rfl, rfl⟩
    case cancelled =>
      obtain ⟨answer, ran⟩ := exec_dispatchCancel_discards (cyc := cyc) inside open_ passes good known batch
      obtain ⟨us, answered⟩ := State.dspSend_eq ((s.frameTaken cyc up).modDsp fun d =>
        { d with arrivals := d.arrivals.filter fun a => !(a.host = h && !a.taken && a.gen < m.gen)
                 arrived := kset d.arrived h 0, ends := kdel d.ends h }) (s.part.switchOfUplink up) h 5 answer
      refine ⟨_, ran, ?_⟩
      rw [State.dspAnswer, show ((s.frameTaken cyc up).modDsp _).part = s.part from rfl, answered]
      refine ⟨rfl, ?_, rfl, rfl, rfl⟩
      show kgetD (kset s.dsp.arrived h 0) h 0 = 0
      rw [kgetD, kget?_kset_self, Option.getD_some]
    case credited =>
      refine ⟨_, _, exec_credit_known inside open_ passes good known, rfl, fun x mem => List.mem_of_mem_filter mem,
        fun x mem other => List.mem_filter.2 ⟨mem, ?_⟩, ?_, ?_, rfl⟩
      · have notMine : x ∉ s.creditedBy h m := fun mine => by
          obtain ⟨isHost, isBatch, isGen⟩ := State.of_mem_creditedBy mine
          rcases other with no | no | no
          · exact no isHost
          · exact no isBatch
          · exact absurd isGen (by omega)
        simpa using notMine
      · obtain ⟨n, -, credited⟩ := Dispatch.credit_eq (s.frameTaken cyc up).dsp h (s.creditedBy h m).length
        exact (congrArg Dispatch.choices credited :)
      · obtain ⟨n, -, credited⟩ := Dispatch.credit_eq (s.frameTaken cyc up).dsp h (s.creditedBy h m).length
        exact (congrArg Dispatch.arrivals credited :)
  case timeout =>
    intro cyc no c s found late
    have ran := exec_returnTimeout_due (cyc := cyc) found late
    refine ⟨fun first own => ?_, fun first other => ?_, fun again => ?_⟩
    · rw [if_neg (by simp [first])] at ran
      dsimp only at ran
      rw [if_pos own] at ran
      exact ⟨_, _, ran, rfl, State.deliverOwn_resends _ _ _⟩
    · rw [if_neg (by simp [first])] at ran
      dsimp only at ran
      rw [if_neg other] at ran
      obtain ⟨us, sent⟩ := State.dspTo_eq ((s.stamp cyc).modDsp fun d =>
          { d with resends := sat 32 (d.resends + 1), choices := d.choices.map fun x =>
              if x.no = c.no then { x with resent := true, sentAt := (s.stamp cyc).clock } else x }) c.host 1
        { c.msg with gen := s.dsp.gen, flags := c.msg.flags ||| 1 }
      refine ⟨_, ran, ?_⟩
      rw [sent]
      exact ⟨rfl, rfl, rfl, rfl⟩
    · rw [if_pos again] at ran
      obtain ⟨resends, lost, host⟩ := State.returnLost_spec ((s.stamp cyc).modDsp fun d =>
        { d with choices := d.choices.filter (·.no != c.no) }) c
      exact ⟨_, ran, lost, host, resends⟩
  case grace =>
    intro cyc gen s
    obtain ⟨n, ran⟩ := exec_creditGraceExpiry s cyc gen
    refine ⟨_, _, ran, rfl, fun x => ?_, fun x mem of_gen late => ?_, ?_, rfl, rfl⟩
    · show x ∈ s.dsp.cancelled.filter _ ↔ _
      rw [List.mem_filter]
      simp only [Bool.not_eq_true', Bool.and_eq_false_iff, decide_eq_false_iff_not, not_le, ne_eq]
    · exact List.mem_append_right _ (List.mem_map.2 ⟨x, List.mem_filter.2 ⟨mem, by simp [of_gen, late]⟩, rfl⟩)
    · show sat 32 (s.dsp.reclaimed + (s.dsp.cancelled.filter _).length) =
        min (2 ^ 32 - 1) (s.dsp.reclaimed + (s.dsp.cancelled.length - (s.dsp.cancelled.filter _).length))
      rw [List.length_eq_length_filter_add (l := s.dsp.cancelled) fun x =>
        decide (x.gen = gen) && decide (x.since + 156250 * s.reg Reg.DSP_CREDIT_GRACE ≤ (s.stamp cyc).clock),
        Nat.add_sub_cancel]
      rfl
  case close =>
    intro cyc i p r s running serves runs isOpen reached
    exact ⟨_, _, exec_serveBatchClose_reached running serves runs isOpen reached, rfl, rfl, rfl, rfl⟩

end Sys2Proof.Machine
end

section
/-! PROOFS. Uplinks, and the tables of expert dispatch (R418, R419, R423, R427). -/

namespace Sys2Proof.Machine

section
variable {s : State} {cyc up : Nat}

theorem exec_uplinkUp_down (inside : up < s.part.uplinks) (down : (s.uplink up).state = .down) :
    exec (.uplinkUp cyc up) s =
      .next (((s.stamp cyc).modUplink up fun x => { x with state := .up, cause := 0 }).raise 0x0A02 up s.dsp.eventArg 0) := by
  have run : exec (.uplinkUp cyc up) s = execUplinkUp cyc up s := rfl
  rw [run, execUplinkUp, onUnit_true (by simpa using inside), if_pos down]
  rfl

theorem exec_uplinkDown_up (cause : Nat) (inside : up < s.part.uplinks) (isUp : (s.uplink up).state = .up) :
    exec (.uplinkDown cyc up cause) s = .next (((s.stamp cyc).modUplink up fun x =>
      { x with state := .down, cause := cause }).raise 0x0A01 up s.dsp.eventArg 0) := by
  have run : exec (.uplinkDown cyc up cause) s = execUplinkDown cyc up cause s := rfl
  have isUp' : ((s.stamp cyc).uplink up).state = .up := isUp
  rw [run, execUplinkDown, onUnit_true (by simpa using inside), State.uplinkDown, if_pos isUp']
  rfl

theorem exec_uplinkNeighborSolicitation (target : Nat) (inside : up < s.part.uplinks) :
    exec (.uplinkNeighborSolicitation up target) s = .next (
      if (s.uplink up).state = .up && target = s.dspAddress then
        s.modUplink up fun x => { x with
          advertised := x.advertised + 1, rxFrames := sat 64 (x.rxFrames + 1), txFrames := sat 64 (x.txFrames + 1) }
      else s) := by
  have run : exec (.uplinkNeighborSolicitation up target) s = execUplinkNeighborSolicitation up target s := rfl
  rw [run, execUplinkNeighborSolicitation, onUnit_true (by simpa using inside)]

/-- An uplink that changes its state leaves the others as they are, and raises an event. -/
theorem State.modUplink_raise_moved (present : up < s.dsp.uplinks.length) (g : Uplink → Uplink) (code a b c : Nat) :
    let t := ((s.stamp cyc).modUplink up g).raise code a b c
    t.uplink up = g (s.uplink up) ∧ (∀ k, k ≠ up → t.uplink k = s.uplink k) ∧
      { t with dsp := s.dsp, srv := s.srv, tb := s.tb } = s := by
  refine ⟨?_, fun k other => ?_, ?_⟩
  · rw [State.uplink_raise]
    exact State.uplink_modUplink_self (s := s.stamp cyc) present g
  · rw [State.uplink_raise]
    exact State.uplink_modUplink_ne (s := s.stamp cyc) other g
  · have rest := State.raise_rest ((s.stamp cyc).modUplink up g) code a b c
    exact congrArg (fun t : State => { t with dsp := s.dsp, srv := s.srv, tb := s.tb }) rest

/-! ### Tables (R423) -/

/-- A table that is taken stands in its object, and the command has succeeded. -/
def State.tableTaken (s : State) (sub : Nat) (b : List Byte) : State :=
  (s.setBlob (Reg.DSP_ROLE + sub - 1) b).status Status.OK

theorem State.tableTaken_spec {b : List Byte} (sub : Nat) (some_ : b ≠ []) :
    s.tableTaken sub b = { s with
      blobs := kset s.blobs (Reg.DSP_ROLE + sub - 1) b, dict := { s.dict with lastStatus := Status.OK } } := by
  have filled : b.isEmpty = false := by simpa using some_
  unfold State.tableTaken State.setBlob
  rw [filled]
  rfl

theorem exec_dspTableCommit_hosts {b : List Byte} {x : KMap HostEntry} (parsed : parseHosts b = some x) :
    exec (.dspTableCommit 6 b) s = .next ((s.modDsp fun d => { d with nextHosts := some x }).tableTaken 6 b) := by
  have run : exec (.dspTableCommit 6 b) s = execDspTableCommit 6 b s := rfl
  rw [run, execDspTableCommit, onUnit_true (b := decide (6 ≤ (6 : Nat)) && decide ((6 : Nat) ≤ 9)) (by decide)]
  dsimp only
  rw [parsed]
  rfl

theorem exec_dspTableCommit_hosts_invalid {b : List Byte} (parsed : parseHosts b = none) :
    exec (.dspTableCommit 6 b) s = .next (s.status Status.DSP_TABLE_INVALID) := by
  have run : exec (.dspTableCommit 6 b) s = execDspTableCommit 6 b s := rfl
  rw [run, execDspTableCommit, onUnit_true (b := decide (6 ≤ (6 : Nat)) && decide ((6 : Nat) ≤ 9)) (by decide)]
  dsimp only
  rw [parsed]

theorem exec_dspTableCommit_map {b : List Byte} {x : List MapEntry} (parsed : parseMap b = some x) :
    exec (.dspTableCommit 7 b) s = .next ((s.modDsp fun d => { d with nextMap := some x }).tableTaken 7 b) := by
  have run : exec (.dspTableCommit 7 b) s = execDspTableCommit 7 b s := rfl
  rw [run, execDspTableCommit, onUnit_true (b := decide (6 ≤ (7 : Nat)) && decide ((7 : Nat) ≤ 9)) (by decide)]
  dsimp only
  rw [parsed]
  rfl

theorem exec_dspTableCommit_serve {b : List Byte} {x : List ServeEntry} (parsed : parseServe b = some x) :
    exec (.dspTableCommit 8 b) s = .next ((s.modDsp fun d => { d with nextServe := some x }).tableTaken 8 b) := by
  have run : exec (.dspTableCommit 8 b) s = execDspTableCommit 8 b s := rfl
  rw [run, execDspTableCommit, onUnit_true (b := decide (6 ≤ (8 : Nat)) && decide ((8 : Nat) ≤ 9)) (by decide)]
  dsimp only
  rw [parsed]
  rfl

theorem exec_dspTableCommit_windows {b : List Byte} {x : List WindowEntry} (parsed : parseWindows b = some x) :
    exec (.dspTableCommit 9 b) s = .next (({ s.modDsp fun d => { d with nextWindows := some x } with
      planner := if x = s.dsp.windows ∧ s.dsp.nextWindows = none then s.planner
        else { s.planner with rerun := some 2 } } : State).tableTaken 9 b) := by
  have run : exec (.dspTableCommit 9 b) s = execDspTableCommit 9 b s := rfl
  rw [run]
  unfold execDspTableCommit
  rw [onUnit_true (b := decide (6 ≤ (9 : Nat)) && decide ((9 : Nat) ≤ 9)) (by decide)]
  dsimp only
  rw [parsed]
  dsimp only
  by_cases same : x = s.dsp.windows ∧ s.dsp.nextWindows = none
  · rw [if_pos (by simpa using same), if_pos same]
    rfl
  · rw [if_neg (by simpa using same), if_neg same]
    rfl

end

/-- Settles O31: each command by the lemma that says what it does. -/
theorem uplinksAndTables : Obligations.UplinksAndTables := by
  unfold Obligations.UplinksAndTables
  refine ⟨fun cyc up s inside present => ⟨fun down => ?up, fun cause isUp => ?down, fun isUp => ?asked,
    fun target other => ?unasked⟩, fun b s filled => ?tables, fun b s bad => exec_dspTableCommit_hosts_invalid bad⟩
  case up => exact ⟨_, exec_uplinkUp_down inside down, State.modUplink_raise_moved present _ _ _ _ _⟩
  case down => exact ⟨_, exec_uplinkDown_up cause inside isUp, State.modUplink_raise_moved present _ _ _ _ _⟩
  case asked =>
    refine ⟨_, exec_uplinkNeighborSolicitation _ inside, ?_⟩
    rw [if_pos (by simp [isUp])]
    exact ⟨State.uplink_modUplink_self present _, fun k other => State.uplink_modUplink_ne other _, rfl⟩
  case unasked =>
    rw [exec_uplinkNeighborSolicitation _ inside, if_neg (by simp [other])]
  case tables =>
    refine ⟨fun x parsed => ⟨_, exec_dspTableCommit_hosts parsed, ?_⟩, fun x parsed => ⟨_, exec_dspTableCommit_map parsed, ?_⟩,
      fun x parsed => ⟨_, exec_dspTableCommit_serve parsed, ?_⟩, fun x parsed => ⟨_, exec_dspTableCommit_windows parsed, ?_⟩⟩
    · rw [State.tableTaken_spec 6 filled]
      exact ⟨rfl, kget?_kset_self _ _ _, rfl, rfl⟩
    · rw [State.tableTaken_spec 7 filled]
      exact ⟨rfl, kget?_kset_self _ _ _, rfl, rfl⟩
    · rw [State.tableTaken_spec 8 filled]
      exact ⟨rfl, kget?_kset_self _ _ _, rfl, rfl⟩
    · rw [State.tableTaken_spec 9 filled]
      exact ⟨rfl, rfl, kget?_kset_self _ _ _, rfl, rfl⟩

end Sys2Proof.Machine
end

section
/-! PROOFS. The modules of the host link: training, retraining, CRC errors and going DOWN (R443, R444, R456, R458). -/

namespace Sys2Proof.Machine

/-- The states of the UCIe modules. -/
structure UcieView where
  states : List UcieState

/-- The states of the UCIe modules of `s`. -/
def State.ucieView (s : State) : UcieView := {
    states := s.hlk.modules.map (·.state) }

theorem State.fold_ucieView (s : State) : s.hlk.modules.map (·.state) = s.ucieView.states := by simp [State.ucieView]

theorem State.ucieView_mk (part : Part) (pending : List Instr) (free : Nat) (regs : KMap Nat) (blobs : KMap (List
    Byte)) (tb : TimeBase) (planner : Planner) (fab : Fabric) (mxe : Engine) (chn : ChainCounters) (mem : Memory)
    (pages : Pages) (store : Store) (srv : Serving) (syn : Sync) (lce : Torus) (dsp : Dispatch) (hlk : HostLink) (dict
    : Dict) (ras : Ras) (pwr : Power) (boot : Boot) (sec : Security) : State.ucieView {
    part := part, pending := pending, free := free, regs := regs, blobs := blobs, tb := tb, planner := planner, fab :=
    fab, mxe := mxe, chn := chn, mem := mem, pages := pages, store := store, srv := srv, syn := syn, lce := lce,
    dsp := dsp, hlk := hlk, dict := dict, ras := ras, pwr := pwr, boot := boot, sec := sec } = {
    states := hlk.modules.map (·.state) } := rfl

@[simp] theorem State.ucieView_ite (c : Prop) [Decidable c] (s t : State) :
    (if c then s else t).ucieView = if c then s.ucieView else t.ucieView := by split <;> rfl

section
variable {α γ : Type} {f : State → α → State} {k : State × γ → α → State × γ} {h : γ × State → α → γ × State}

@[simp] theorem State.ucieView_foldl (keeps : ∀ t a, (f t a).ucieView = t.ucieView) (l : List α) (s : State) :
    (l.foldl f s).ucieView = s.ucieView := State.keeps_foldl _ keeps l s
@[simp] theorem State.ucieView_foldl_fst (keeps : ∀ p a, (k p a).1.ucieView = p.1.ucieView) (l : List α) (p : State × γ) :
    (l.foldl k p).1.ucieView = p.1.ucieView := State.keeps_foldl_fst (fun t => t.ucieView) keeps l p
@[simp] theorem State.ucieView_foldl_snd (keeps : ∀ p a, (h p a).2.ucieView = p.2.ucieView) (l : List α) (p : γ × State) :
    (l.foldl h p).2.ucieView = p.2.ucieView := State.keeps_foldl_snd (fun t => t.ucieView) keeps l p

end
/-- A request that is sent changes no module's state. -/
theorem HostLink.send_states {h k : HostLink} {now : Nat} {o : HostOutstanding} (sent : h.send now o = some k) :
    k.modules.map (·.state) = h.modules.map (·.state) := by
  obtain ⟨m, -, moved⟩ := Option.map_eq_some_iff.1 sent
  rw [← moved]
  dsimp only
  split
  · refine List.ext_getElem (by simp) fun i _ inside => ?_
    have inside : i < h.modules.length := by simpa using inside
    simp only [List.getElem_map, List.getElem_set]
    split
    · next same => subst same; rw [lget, List.getD_eq_getElem _ _ inside]
    · rfl
  · rfl

@[simp] theorem HostLink.setAtt_modules (h : HostLink) (die : Nat) (c : List AttEntry) : (h.setAtt die c).modules = h.modules := by
  unfold HostLink.setAtt
  split <;> rfl


@[simp] theorem State.raiseFor_ucieView (s : State) (code group arg0 arg1 arg2 : Nat) : (s.raiseFor code group arg0
    arg1 arg2).ucieView = s.ucieView := by
  simp [State.ucieView]

@[simp] theorem State.raise_ucieView (s : State) (code arg0 arg1 arg2 : Nat) : (s.raise code arg0 arg1 arg2).ucieView
    = s.ucieView := by
  simp [State.ucieView]

@[simp] theorem State.breakPass_ucieView (s : State) : (State.breakPass s).ucieView = s.ucieView := by
  unfold State.breakPass; simp [State.fold_ucieView, State.ucieView_mk]

@[simp] theorem State.modStation_ucieView (s : State) (i : Nat) (g : StationRun → StationRun) : (State.modStation s i
    g).ucieView = s.ucieView := by
  unfold State.modStation; simp [State.fold_ucieView, State.ucieView_mk]

@[simp] theorem State.progress_ucieView (s : State) : (State.progress s).ucieView = s.ucieView := by
  unfold State.progress; simp [State.fold_ucieView, State.ucieView_mk]

@[simp] theorem State.portEmit_ucieView (s : State) (i : Nat) : (State.portEmit s i).ucieView = s.ucieView := by
  unfold State.portEmit; dsimp only; (repeat' split) <;> simp [State.fold_ucieView, State.ucieView_mk]

@[simp] theorem State.modLace_ucieView (s : State) (l : Nat) (f : Lace → Lace) : (State.modLace s l f).ucieView =
    s.ucieView := by
  unfold State.modLace; simp [State.fold_ucieView, State.ucieView_mk]

@[simp] theorem State.freeSlots_ucieView (s : State) (xs : List (Nat × Nat × Bool × Nat)) : (State.freeSlots s
    xs).ucieView = s.ucieView := by
  unfold State.freeSlots; simp [State.fold_ucieView, State.ucieView_mk]

@[simp] theorem State.laceDrain_ucieView (s : State) (l : Nat) : (State.laceDrain s l).ucieView = s.ucieView := by
  unfold State.laceDrain; simp [State.fold_ucieView, State.ucieView_mk]

@[simp] theorem State.laceSend_ucieView (s : State) (l : Nat) (x : LaceTx) : (State.laceSend s l x).ucieView =
    s.ucieView := by
  unfold State.laceSend; simp [State.fold_ucieView, State.ucieView_mk]

@[simp] theorem State.sendControl_ucieView (s : State) (l : Nat) (m : ControlMsg) : (State.sendControl s l m).ucieView
    = s.ucieView := by
  unfold State.sendControl; simp [State.fold_ucieView, State.ucieView_mk]

@[simp] theorem State.flood_ucieView (s : State) (except_ : Nat) (m : ControlMsg) : (State.flood s except_ m).ucieView
    = s.ucieView := by
  unfold State.flood; simp [State.fold_ucieView, State.ucieView_mk]

@[simp] theorem State.oweFault_ucieView (s : State) (tag : Nat) : (State.oweFault s tag).ucieView = s.ucieView := by
  unfold State.oweFault; simp [State.fold_ucieView, State.ucieView_mk, State.modTorus]

@[simp] theorem State.unreachable_ucieView (s : State) (h : PacketHeader) : (State.unreachable s h).ucieView =
    s.ucieView := by
  unfold State.unreachable; simp [State.fold_ucieView, State.ucieView_mk, State.modTorus]

@[simp] theorem State.forward_ucieView (s : State) (h : PacketHeader) (flits : List Flit) (p l : Nat) (turned : Bool)
    (origin : Option (Nat × Nat × Bool)) : (State.forward s h flits p l turned origin).ucieView = s.ucieView := by
  unfold State.forward; dsimp only; split <;> simp [State.fold_ucieView, State.ucieView_mk]

@[simp] theorem State.inject_ucieView (s : State) (h : PacketHeader) (flits : List Flit) : (State.inject s h
    flits).ucieView = s.ucieView := by
  unfold State.inject; dsimp only; (repeat' split) <;> simp [State.fold_ucieView, State.ucieView_mk, State.modTorus]

@[simp] theorem State.sendSync_ucieView (s : State) (dest op object arg : Nat) : (State.sendSync s dest op object
    arg).ucieView = s.ucieView := by
  unfold State.sendSync; simp [State.fold_ucieView, State.ucieView_mk]

@[simp] theorem State.setObj_ucieView (s : State) (r : ObjRef) (o : SyncObj) : (State.setObj s r o).ucieView =
    s.ucieView := by
  unfold State.setObj; simp [State.fold_ucieView, State.ucieView_mk]

@[simp] theorem State.modPart_ucieView (s : State) (k : Nat) (f : Participant → Participant) : (State.modPart s k
    f).ucieView = s.ucieView := by
  unfold State.modPart; simp [State.fold_ucieView, State.ucieView_mk]

@[simp] theorem State.freeRemote_ucieView (s : State) (k cause : Nat) : (State.freeRemote s k cause).ucieView =
    s.ucieView := by
  unfold State.freeRemote; simp [State.fold_ucieView, State.ucieView_mk]

@[simp] theorem State.recordRelease_ucieView (s : State) (k cause : Nat) : (State.recordRelease s k cause).ucieView =
    s.ucieView := by
  unfold State.recordRelease; simp [State.fold_ucieView, State.ucieView_mk]

@[simp] theorem State.endWait_ucieView (s : State) (r : ObjRef) (w : WaitReg) (cause : Nat) : (State.endWait s r w
    cause).ucieView = s.ucieView := by
  unfold State.endWait; simp [State.fold_ucieView, State.ucieView_mk]

@[simp] theorem State.toModules_ucieView (s : State) (ms : List Nat) (op : Nat) (r : ObjRef) (arg : Nat) :
    (State.toModules s ms op r arg).ucieView = s.ucieView := by
  unfold State.toModules; simp [State.fold_ucieView, State.ucieView_mk]

@[simp] theorem State.nodeStep_ucieView (s : State) (m : NodeMsg) (r : ObjRef) : (State.nodeStep s m r).1.ucieView =
    s.ucieView := by
  unfold State.nodeStep; dsimp only; (repeat' split) <;> simp [State.fold_ucieView, State.ucieView_mk]

@[simp] theorem State.nodes_ucieView (x0 : Nat) (x1 : List (NodeMsg × ObjRef)) (s : State) : (State.nodes x0 x1
    s).ucieView = s.ucieView := by
  induction x0 generalizing s x1 with
  | zero => rfl
  | succ f ih =>
    cases x1 with
    | nil => rfl
    | cons e ms => simp [State.nodes, ih]

@[simp] theorem State.nodeMsg_ucieView (s : State) (m : NodeMsg) (r : ObjRef) : (State.nodeMsg s m r).ucieView =
    s.ucieView := by
  unfold State.nodeMsg; simp [State.fold_ucieView, State.ucieView_mk]

@[simp] theorem State.ownerLost_ucieView (s : State) (rs : List ObjRef) : (State.ownerLost s rs).ucieView = s.ucieView := by
  unfold State.ownerLost; simp [State.fold_ucieView, State.ucieView_mk]

@[simp] theorem State.spanBroken_ucieView (s : State) (tag : Nat) : (State.spanBroken s tag).ucieView = s.ucieView := by
  unfold State.spanBroken; simp [State.fold_ucieView, State.ucieView_mk]

@[simp] theorem State.settleFault_ucieView (s : State) (tag : Nat) : (State.settleFault s tag).ucieView = s.ucieView := by
  unfold State.settleFault; simp [State.fold_ucieView, State.ucieView_mk, State.modTorus]

@[simp] theorem State.settleFaults_ucieView (x0 : Nat) (s : State) : (State.settleFaults x0 s).ucieView = s.ucieView := by
  induction x0 generalizing s with
  | zero => rfl
  | succ f ih =>
    unfold State.settleFaults
    split <;> simp [ih]

@[simp] theorem State.torusDone_ucieView (s : State) : (State.torusDone s).ucieView = s.ucieView := by
  unfold State.torusDone; simp [State.fold_ucieView, State.ucieView_mk]

@[simp] theorem State.releasePair_ucieView (s : State) (step : Nat) : (State.releasePair s step).ucieView = s.ucieView := by
  unfold State.releasePair; (repeat' split) <;> simp [State.fold_ucieView, State.ucieView_mk]

@[simp] theorem State.loseStep_ucieView (s : State) (step : Nat) : (State.loseStep s step).ucieView = s.ucieView := by
  unfold State.loseStep; (repeat' split) <;> simp [State.fold_ucieView, State.ucieView_mk]

@[simp] theorem State.dropStep_ucieView (s : State) (n : Nat) : (State.dropStep s n).ucieView = s.ucieView := by
  unfold State.dropStep; simp [State.fold_ucieView, State.ucieView_mk]

@[simp] theorem State.rerunStep_ucieView (s : State) (n : Nat) (f : PlanEntry → PlanEntry) : (State.rerunStep s n
    f).ucieView = s.ucieView := by
  unfold State.rerunStep; (repeat' split) <;> simp [State.fold_ucieView, State.ucieView_mk]

@[simp] theorem State.rerunOwn_ucieView (s : State) (n : Nat) : (State.rerunOwn s n).ucieView = s.ucieView := by
  unfold State.rerunOwn; simp [State.fold_ucieView, State.ucieView_mk]

@[simp] theorem State.unseal_ucieView (s : State) (step : Nat) : (State.unseal s step).ucieView = s.ucieView := by
  unfold State.unseal; (repeat' split) <;> simp [State.fold_ucieView, State.ucieView_mk]

@[simp] theorem State.loseEvent_ucieView (s : State) : (State.loseEvent s).ucieView = s.ucieView := by
  unfold State.loseEvent; simp [State.fold_ucieView, State.ucieView_mk]

@[simp] theorem State.stationWrote_ucieView (s : State) (i : Nat) : (State.stationWrote s i).ucieView = s.ucieView := by
  unfold State.stationWrote; simp [State.fold_ucieView, State.ucieView_mk]

@[simp] theorem State.hostFailed_ucieView (s : State) (a : HostAccess) : (State.hostFailed s a).ucieView = s.ucieView := by
  unfold State.hostFailed; (repeat' split) <;> simp [State.fold_ucieView, State.ucieView_mk]

@[simp] theorem State.refuseAccess_ucieView (s : State) (a : HostAccess) : (State.refuseAccess s a).ucieView =
    s.ucieView := by
  unfold State.refuseAccess; simp [State.fold_ucieView, State.ucieView_mk]

@[simp] theorem State.hostRefused_ucieView (s : State) (a : HostAccess) : (State.hostRefused s a).ucieView =
    s.ucieView := by
  unfold State.hostRefused; simp [State.fold_ucieView, State.ucieView_mk]

@[simp] theorem State.hostTranslated_ucieView (s : State) (a : HostAccess) (e : BitVec 64) : (State.hostTranslated s a
    e).ucieView = s.ucieView := by
  unfold State.hostTranslated
  by_cases refused : (!bit e.toNat 0 || !bit e.toNat (if a.write then 2 else 1)) = true
  · rw [if_pos refused]
    simp
  · rw [if_neg refused]
    split
    · next sent => exact congrArg UcieView.mk (HostLink.send_states sent :)
    · simp

@[simp] theorem State.hostTranslate_ucieView (s : State) (a : HostAccess) : (State.hostTranslate s a).ucieView =
    s.ucieView := by
  unfold State.hostTranslate
  dsimp only
  split
  · simp
  · split
    · simp [State.fold_ucieView, State.ucieView_mk, HostLink.setAtt_modules]
    · split
      · rfl
      · split
        · next sent => exact congrArg UcieView.mk (HostLink.send_states sent :)
        · simp

@[simp] theorem State.hostIssue_ucieView (s : State) (a : HostAccess) : (State.hostIssue s a).ucieView = s.ucieView := by
  unfold State.hostIssue; (repeat' split) <;> simp [State.fold_ucieView, State.ucieView_mk]

@[simp] theorem State.pump_ucieView (s : State) : (State.pump s).ucieView = s.ucieView := by
  unfold State.pump; (repeat' split) <;> simp [State.fold_ucieView, State.ucieView_mk]

@[simp] theorem State.chain_ucieView (s : State) (ws : List HostAccess) : (State.chain s ws).ucieView = s.ucieView := by
  unfold State.chain; simp [State.fold_ucieView, State.ucieView_mk]

@[simp] theorem State.endRead_ucieView (s : State) : (State.endRead s).ucieView = s.ucieView := by
  unfold State.endRead; simp [State.fold_ucieView, State.ucieView_mk]

@[simp] theorem State.translationDone_ucieView (s : State) (die entry : Nat) (e : BitVec 64) : (State.translationDone
    s die entry e).ucieView = s.ucieView := by
  unfold State.translationDone; simp [State.fold_ucieView, State.ucieView_mk]

@[simp] theorem State.hostLost_ucieView (s : State) (a : HostAccess) : (State.hostLost s a).ucieView = s.ucieView := by
  unfold State.hostLost; (repeat' split) <;> simp [State.fold_ucieView, State.ucieView_mk]

@[simp] theorem State.finishOp_ucieView (s : State) (result : Nat) : (State.finishOp s result).ucieView = s.ucieView := by
  unfold State.finishOp; simp [State.fold_ucieView, State.ucieView_mk]

@[simp] theorem State.loseBundle_ucieView (s : State) : (State.loseBundle s).ucieView = s.ucieView := by
  unfold State.loseBundle; (repeat' split) <;> simp [State.fold_ucieView, State.ucieView_mk]

@[simp] theorem State.linkDown_ucieView (s : State) : (State.linkDown s).ucieView = s.ucieView := by
  unfold State.linkDown; simp [State.fold_ucieView, State.ucieView_mk]

@[simp] theorem State.linkState_ucieView (s : State) : (State.linkState s).ucieView = s.ucieView := by
  unfold State.linkState; simp [State.fold_ucieView, State.ucieView_mk]

/-! ### One module -/

section
variable {s : State} {cyc m : Nat}

theorem State.module_modModule_self (present : m < s.hlk.modules.length) (g : UcieModule → UcieModule) :
    (s.modModule m g).module m = g (s.module m) := lget_lmod_self present g

theorem State.module_modModule_ne {k : Nat} (other : k ≠ m) (g : UcieModule → UcieModule) :
    (s.modModule m g).module k = s.module k := lget_lmod_ne _ other g

theorem State.module_raise (s : State) (code a b c k : Nat) : (s.raise code a b c).module k = s.module k := by
  rw [State.module, State.module, State.raise_hlk]

/-- Two states with the same module states agree on each one. -/
theorem State.state_of_ucieView {s t : State} (same : t.ucieView = s.ucieView) (m : Nat) :
    (t.module m).state = (s.module m).state := by
  have states (u : State) : (u.module m).state = u.ucieView.states.getD m (default : UcieModule).state := by
    rw [State.module, lget, State.ucieView, List.getD_map]
  rw [states, states, same]

theorem State.modules_length_of_ucieView {s t : State} (same : t.ucieView = s.ucieView) :
    t.hlk.modules.length = s.hlk.modules.length := by
  have := congrArg (fun v => v.states.length) same
  simpa [State.ucieView] using this

/-- A module that has gone DOWN or OFF. -/
def UcieModule.fallen (next : UcieState) (uptime : Nat) (x : UcieModule) : UcieModule :=
  { x with state := next, speed := 0, outstanding := [], waitReplies := [], headerCredits := 256, chunkCredits := 2048
           slow := false, retrainFails := [], downSince := uptime }

/-- A module that goes DOWN or OFF takes that state; the others keep theirs. -/
theorem State.failModule_ucieView (s : State) (m : Nat) (next : UcieState) : ∃ g : UcieModule → UcieModule,
    (∀ u, (g u).state = next) ∧ (s.failModule m next).ucieView = (s.modModule m g).ucieView :=
  ⟨UcieModule.fallen next s.uptime, fun _ => rfl,
    State.ucieView_foldl (fun (t : State) (o : HostOutstanding) => t.hostLost_ucieView o.access) _ _⟩

theorem State.moduleDown_ucieView (s : State) (m : Nat) : ∃ g : UcieModule → UcieModule,
    (∀ u, (g u).state = .down) ∧ (s.moduleDown m).ucieView = (s.modModule m g).ucieView := by
  obtain ⟨g, down, failed⟩ := s.failModule_ucieView m .down
  refine ⟨g, down, ?_⟩
  rw [State.moduleDown, State.pump_ucieView, State.linkState_ucieView, State.raise_ucieView, failed]

theorem State.moduleDown_state_self (present : m < s.hlk.modules.length) :
    ((s.moduleDown m).module m).state = .down := by
  obtain ⟨g, down, view⟩ := s.moduleDown_ucieView m
  rw [State.state_of_ucieView view, State.module_modModule_self present, down]

theorem State.moduleDown_state_ne {k : Nat} (other : k ≠ m) :
    ((s.moduleDown m).module k).state = (s.module k).state := by
  obtain ⟨g, -, view⟩ := s.moduleDown_ucieView m
  rw [State.state_of_ucieView view, State.module_modModule_ne other]

theorem State.moduleDown_length (s : State) (m : Nat) : (s.moduleDown m).hlk.modules.length = s.hlk.modules.length := by
  obtain ⟨g, -, view⟩ := s.moduleDown_ucieView m
  rw [State.modules_length_of_ucieView view]
  exact List.length_modify _ _ _

theorem State.protocolError_state (present : m < s.hlk.modules.length) (powered : (s.module m).state ≠ .off) :
    ((s.protocolError m).module m).state = .down := by
  rw [State.protocolError, if_neg powered]
  exact State.moduleDown_state_self (by rwa [State.raise_hlk])

/-! ### A reset of the host die (Table 14-9) -/

/-- A module that is not OFF goes DOWN with the host die. -/
def State.loseModule (s : State) (m : Nat) : State :=
  if (s.module m).state = .off || (s.module m).state = .down then s else s.moduleDown m

theorem State.loseModule_length (s : State) (m : Nat) : (s.loseModule m).hlk.modules.length = s.hlk.modules.length := by
  unfold State.loseModule
  split
  · rfl
  · exact s.moduleDown_length m

theorem State.loseModule_state_ne {k : Nat} (other : k ≠ m) :
    ((s.loseModule m).module k).state = (s.module k).state := by
  unfold State.loseModule
  split
  · rfl
  · exact State.moduleDown_state_ne other

theorem State.loseModule_state_self (present : m < s.hlk.modules.length) :
    ((s.loseModule m).module m).state = if (s.module m).state = .off then .off else .down := by
  unfold State.loseModule
  by_cases off : (s.module m).state = .off
  · rw [if_pos (by simp [off]), if_pos off, off]
  · rw [if_neg off]
    split
    · next still => simpa [off] using still
    · exact State.moduleDown_state_self present

theorem State.foldl_loseModule_state (l : List Nat) (distinct : l.Nodup) (s : State) {m : Nat}
    (present : m < s.hlk.modules.length) : ((l.foldl State.loseModule s).module m).state =
      if m ∈ l ∧ (s.module m).state ≠ .off then .down else (s.module m).state := by
  induction l generalizing s with
  | nil => simp
  | cons k ks ih =>
    obtain ⟨apart, distinct⟩ := List.nodup_cons.1 distinct
    rw [List.foldl_cons, ih distinct (s.loseModule k) (by rwa [s.loseModule_length])]
    by_cases same : m = k
    · subst same
      rw [if_neg (fun both => apart both.1), State.loseModule_state_self present]
      by_cases off : (s.module m).state = .off <;> simp [off]
    · rw [State.loseModule_state_ne same]
      simp [same]

theorem exec_hostDieReset (cyc : Nat) (s : State) :
    exec (.hostDieReset cyc) s = .next ((List.range 4).foldl State.loseModule (s.stamp cyc)) := by
  have run : exec (.hostDieReset cyc) s = execHostDieReset cyc s := rfl
  rw [run]
  unfold execHostDieReset State.loseModule
  with_reducible rfl

/-! ### Training (R443, R444) -/

theorem exec_ucieTrainingComplete_up {speed : Nat} (repaired : Nat) (inside : m < 4)
    (trains : (s.module m).state = .training) (known : speed = 16 ∨ speed = 32) :
    exec (.ucieTrainingComplete cyc m true speed repaired) s = .next (((s.stamp cyc).modModule m fun u =>
      { u with state := .active, speed := speed, repaired := sat 8 repaired }).raise 0x0B02 m 0 0).linkState := by
  have run : exec (.ucieTrainingComplete cyc m true speed repaired) s =
    execUcieTrainingComplete cyc m true speed repaired s := rfl
  rw [run, execUcieTrainingComplete, onUnit_true (by simpa using inside), if_neg (by simp [trains])]
  dsimp only
  rw [if_pos (by simpa using known.symm)]

theorem exec_ucieTrainingComplete_failed (speed repaired : Nat) (inside : m < 4)
    (trains : (s.module m).state = .training) :
    exec (.ucieTrainingComplete cyc m false speed repaired) s = .next (
      if speed = 32 && !(s.module m).slow then (s.stamp cyc).modModule m fun u => { u with slow := true }
      else (s.stamp cyc).moduleDown m) := by
  have run : exec (.ucieTrainingComplete cyc m false speed repaired) s =
    execUcieTrainingComplete cyc m false speed repaired s := rfl
  rw [run, execUcieTrainingComplete, onUnit_true (by simpa using inside), if_neg (by simp [trains])]
  rfl

theorem exec_ucieTrainingRetry_due (inside : m < 4) (down : (s.module m).state = .down)
    (waited : (s.module m).downSince + 160 ≤ s.uptime) : exec (.ucieTrainingRetry m) s = .next (s.modModule m fun u =>
      { u with state := .training, retrains := sat 32 (u.retrains + 1) }) := by
  have run : exec (.ucieTrainingRetry m) s = execUcieTrainingRetry m s := rfl
  rw [run, execUcieTrainingRetry, onUnit_true (by simpa using inside), if_pos (by simp [down, waited])]

/-! ### CRC errors and retraining (R458) -/

/-- A module that has met a CRC error. -/
def State.crcMet (s : State) (cyc m : Nat) : State :=
  (s.stamp cyc).modModule m fun u => { u with crcErrors := sat 32 (u.crcErrors + 1), replays := sat 32 (u.replays + 1) }

theorem exec_ucieCrcError (recovered : Bool) (inside : m < 4) (active : (s.module m).state = .active) :
    exec (.ucieCrcError cyc m recovered) s = .next (if recovered then s.crcMet cyc m
      else (((s.crcMet cyc m).modModule m fun u => { u with state := .retrain, retrains := sat 32 (u.retrains + 1) }).raise
        0x0B08 m 0 0).linkState) := by
  have run : exec (.ucieCrcError cyc m recovered) s = execUcieCrcError cyc m recovered s := rfl
  rw [run, execUcieCrcError, onUnit_true (by simpa using inside), if_neg (by simp [active])]
  rfl

theorem exec_ucieRetrainComplete_up (repaired : Nat) (inside : m < 4) (retrains : (s.module m).state = .retrain) :
    exec (.ucieRetrainComplete cyc m true repaired) s = .next ((s.stamp cyc).modModule m fun u =>
      { u with state := .active, repaired := sat 8 repaired }).linkState := by
  have run : exec (.ucieRetrainComplete cyc m true repaired) s = execUcieRetrainComplete cyc m true repaired s := rfl
  rw [run, execUcieRetrainComplete, onUnit_true (by simpa using inside), if_neg (by simp [retrains])]
  dsimp only
  rw [if_pos rfl]

/-- The failed retrainings of a module in the last second, now that one more has failed. -/
def State.failsWith (s : State) (cyc m : Nat) : List Nat :=
  (s.stamp cyc).clock :: (s.module m).retrainFails.filter fun x => (s.stamp cyc).clock < x + 1250000000

theorem exec_ucieRetrainComplete_failed (repaired : Nat) (inside : m < 4) (retrains : (s.module m).state = .retrain) :
    exec (.ucieRetrainComplete cyc m false repaired) s = .next (
      if 3 ≤ (s.failsWith cyc m).length then (s.stamp cyc).moduleDown m
      else (s.stamp cyc).modModule m fun u => { u with
        retrains := sat 32 (u.retrains + 1), retrainFails := s.failsWith cyc m }) := by
  have run : exec (.ucieRetrainComplete cyc m false repaired) s = execUcieRetrainComplete cyc m false repaired s := rfl
  have fails : ((s.stamp cyc).clock :: ((s.stamp cyc).module m).retrainFails).filter
      (fun x => (s.stamp cyc).clock < x + 1250000000) = s.failsWith cyc m :=
    List.filter_cons_of_pos (by simp)
  rw [run, execUcieRetrainComplete, onUnit_true (by simpa using inside), if_neg (by simp [retrains])]
  dsimp only
  rw [fails]
  rfl

theorem exec_ucieProtocolError (inside : m < 4) :
    exec (.ucieProtocolError cyc m) s = .next ((s.stamp cyc).protocolError m) := by
  have run : exec (.ucieProtocolError cyc m) s = execUcieProtocolError cyc m s := rfl
  rw [run, execUcieProtocolError, onUnit_true (by simpa using inside)]

end

/-- Settles O32: a module's own state by the lemmas about each command, the modules after a reset of the host die by
`State.foldl_loseModule_state`. -/
theorem ucieModulesChangeState : Obligations.UcieModulesChangeState := by
  unfold Obligations.UcieModulesChangeState
  refine ⟨fun cyc m s inside present => ?one, fun cyc s => ?reset⟩
  case one =>
    refine ⟨fun speed repaired trains known => ?up, fun repaired trains fast => ?slow, fun speed repaired trains last => ?down,
      fun down waited => ?retry, fun active => ⟨?recovered, ?lost⟩, fun repaired retrains => ⟨?back, fun few => ?again,
      fun many => ?third⟩, fun powered => ?protocol⟩
    case up =>
      refine ⟨_, _, exec_ucieTrainingComplete_up repaired inside trains known, rfl, ?_, fun k other => ?_, ?_⟩
      · rw [State.module_raise]
        exact State.module_modModule_self (s := s.stamp cyc) present _
      · rw [State.module_raise]
        exact State.module_modModule_ne (s := s.stamp cyc) other _
      · exact congrArg (fun t : State => { t with hlk := s.hlk, srv := s.srv, tb := s.tb })
          (((s.stamp cyc).modModule m fun u =>
            { u with state := .active, speed := speed, repaired := sat 8 repaired }).raise_rest 0x0B02 m 0 0)
    case slow =>
      refine ⟨_, exec_ucieTrainingComplete_failed 32 repaired inside trains, ?_⟩
      rw [if_pos (by simp [fast])]
      exact ⟨State.module_modModule_self (s := s.stamp cyc) present _,
        fun k other => State.module_modModule_ne (s := s.stamp cyc) other _, rfl⟩
    case down =>
      refine ⟨_, exec_ucieTrainingComplete_failed speed repaired inside trains, ?_⟩
      rw [if_neg (by rcases last with other | slow <;> simp [*])]
      exact State.moduleDown_state_self (s := s.stamp cyc) present
    case retry =>
      exact ⟨_, exec_ucieTrainingRetry_due inside down waited, State.module_modModule_self present _,
        fun k other => State.module_modModule_ne other _, rfl⟩
    case recovered =>
      exact ⟨_, exec_ucieCrcError true inside active, State.module_modModule_self (s := s.stamp cyc) present _,
        fun k other => State.module_modModule_ne (s := s.stamp cyc) other _, rfl⟩
    case lost =>
      refine ⟨_, _, exec_ucieCrcError false inside active, rfl, ?_, ?_⟩
      · have still : m < (s.crcMet cyc m).hlk.modules.length := by
          rw [State.crcMet, State.modModule, lmod, List.length_modify]
          exact present
        rw [State.module_raise, State.module_modModule_self still, State.crcMet]
        exact congrArg (fun u : UcieModule => { u with state := .retrain, retrains := sat 32 (u.retrains + 1) })
          (State.module_modModule_self (s := s.stamp cyc) present _)
      · exact congrArg (fun t : State => { t with hlk := s.hlk, srv := s.srv, tb := s.tb })
          (((s.crcMet cyc m).modModule m fun u =>
            { u with state := .retrain, retrains := sat 32 (u.retrains + 1) }).raise_rest 0x0B08 m 0 0)
    case back =>
      exact ⟨_, _, exec_ucieRetrainComplete_up repaired inside retrains, rfl,
        State.module_modModule_self (s := s.stamp cyc) present _, rfl⟩
    case again =>
      refine ⟨_, exec_ucieRetrainComplete_failed repaired inside retrains, ?_⟩
      rw [if_neg (by rw [State.failsWith, List.length_cons]; omega)]
      have met := State.module_modModule_self (s := s.stamp cyc) present fun u =>
        { u with retrains := sat 32 (u.retrains + 1), retrainFails := s.failsWith cyc m }
      rw [met]
      exact ⟨rfl, rfl, rfl⟩
    case third =>
      refine ⟨_, exec_ucieRetrainComplete_failed repaired inside retrains, ?_⟩
      rw [if_pos (by rw [State.failsWith, List.length_cons]; omega)]
      exact State.moduleDown_state_self (s := s.stamp cyc) present
    case protocol =>
      exact ⟨_, exec_ucieProtocolError inside, State.protocolError_state (s := s.stamp cyc) present powered⟩
  case reset =>
    refine ⟨_, exec_hostDieReset cyc s, fun m inside present => ?_⟩
    rw [State.foldl_loseModule_state _ List.nodup_range (s.stamp cyc) present]
    show (if m ∈ List.range 4 ∧ (s.module m).state ≠ .off then UcieState.down else (s.module m).state) = _
    by_cases off : (s.module m).state = .off <;> simp [off, inside]

end Sys2Proof.Machine
end

section
/-! PROOFS. Answers of the host end the accesses that are outstanding (R446, R459). -/

namespace Sys2Proof.Machine

section
variable {s : State} {cyc m tag : Nat} {o : HostOutstanding}

/-! ### Answers to a read -/

/-- A module that has taken the data of an answer. -/
def State.dataTaken (s : State) (cyc m n : Nat) : State :=
  (s.stamp cyc).modModule m fun u => { u.took (n / 64) with rxBytes := sat 64 (u.rxBytes + n) }

theorem State.dataTaken_module (present : m < s.hlk.modules.length) (n : Nat) : (s.dataTaken cyc m n).module m =
    { (s.module m).took (n / 64) with rxBytes := sat 64 ((s.module m).rxBytes + n) } :=
  State.module_modModule_self (s := s.stamp cyc) present _

theorem State.dataTaken_present (present : m < s.hlk.modules.length) (n : Nat) :
    m < (s.dataTaken cyc m n).hlk.modules.length := by
  rw [State.dataTaken, State.modModule, lmod, List.length_modify]
  exact present

/-- An access that failed is counted as a failed read. -/
def State.readFailed (s : State) : State := { s with hlk := { s.hlk with readErrors := sat 32 (s.hlk.readErrors + 1) } }

/-- An access that failed is counted as a failed write. -/
def State.writeFailed (s : State) : State :=
  { s with hlk := { s.hlk with writeErrors := sat 32 (s.hlk.writeErrors + 1) } }

/-- The request is no longer outstanding at module `m`. -/
def State.closeRequest (s : State) (m tag : Nat) : State := s.modModule m fun u => u.close tag

theorem State.closeRequest_module (present : m < s.hlk.modules.length) :
    (s.closeRequest m tag).module m = (s.module m).close tag := State.module_modModule_self present _

theorem exec_readData (found : (s.module m).find tag false = some o) (status : Nat) (poison final : Bool)
    (data : List Byte) : exec (.readData cyc m tag status poison final data) s = .next (
      let t := s.dataTaken cyc m data.length
      if status ≠ 0 || poison then ((t.closeRequest m tag).readFailed.hostLost o.access).pump
      else if o.badData final data.length then t.protocolError m
      else if final then ((t.closeRequest m tag).hostDone o.access o.address (o.received ++ data)).pump
      else t.modModule m fun u => { u with outstanding := u.outstanding.map fun x =>
        if x.tag = tag then { x with received := x.received ++ data } else x }) := by
  have run : exec (.readData cyc m tag status poison final data) s = execReadData cyc m tag status poison final data s := rfl
  rw [run, execReadData, found]
  dsimp only
  (repeat' split) <;> rfl

theorem exec_readData_unasked (absent : (s.module m).find tag false = none) (status : Nat) (poison final : Bool)
    (data : List Byte) : exec (.readData cyc m tag status poison final data) s = .next s := by
  have run : exec (.readData cyc m tag status poison final data) s = execReadData cyc m tag status poison final data s := rfl
  rw [run, execReadData, absent]

/-! ### Acknowledgements of a write -/

theorem exec_writeAck (found : (s.module m).find tag true = some o) (status : Nat) :
    exec (.writeAck cyc m tag status) s = .next (
      let t := (s.stamp cyc).modModule m fun u => (u.close tag).took 0
      if status = 0 then (t.hostDone o.access o.address []).pump else (t.writeFailed.hostLost o.access).pump) := by
  have run : exec (.writeAck cyc m tag status) s = execWriteAck cyc m tag status s := rfl
  rw [run, execWriteAck, found]
  dsimp only
  split <;> rfl

theorem exec_writeAck_unasked (absent : (s.module m).find tag true = none) (status : Nat) :
    exec (.writeAck cyc m tag status) s = .next s := by
  have run : exec (.writeAck cyc m tag status) s = execWriteAck cyc m tag status s := rfl
  rw [run, execWriteAck, absent]

/-! ### Timeouts -/

theorem exec_hostReadTimeout_late (found : (s.module m).find tag false = some o)
    (late : o.sentAt + 1250 * s.reg Reg.HLK_READ_TIMEOUT ≤ (s.stamp cyc).clock) :
    exec (.hostReadTimeout cyc m tag) s = .next (((((s.stamp cyc).closeRequest m tag).readFailed.raise 0x0B05 m
      o.access.offset 0).hostLost o.access).pump) := by
  have run : exec (.hostReadTimeout cyc m tag) s = execHostReadTimeout cyc m tag s := rfl
  have isLate : (!(s.stamp cyc).hostLate o (s.reg Reg.HLK_READ_TIMEOUT)) = false := by
    simpa only [State.hostLate, Bool.not_eq_false', decide_eq_true_eq] using late
  rw [run, execHostReadTimeout, found]
  dsimp only
  rw [isLate, if_neg Bool.false_ne_true]
  rfl

theorem exec_hostReadTimeout_unasked (absent : (s.module m).find tag false = none) :
    exec (.hostReadTimeout cyc m tag) s = .next s := by
  have run : exec (.hostReadTimeout cyc m tag) s = execHostReadTimeout cyc m tag s := rfl
  rw [run, execHostReadTimeout, absent]

theorem exec_hostWriteTimeout_late (found : (s.module m).find tag true = some o)
    (late : o.sentAt + 1250 * s.reg Reg.HLK_WRITE_TIMEOUT ≤ (s.stamp cyc).clock) :
    exec (.hostWriteTimeout cyc m tag) s = .next (((((s.stamp cyc).closeRequest m tag).writeFailed.raise 0x0B05 m
      o.access.offset 0).hostLost o.access).pump) := by
  have run : exec (.hostWriteTimeout cyc m tag) s = execHostWriteTimeout cyc m tag s := rfl
  have isLate : (!(s.stamp cyc).hostLate o (s.reg Reg.HLK_WRITE_TIMEOUT)) = false := by
    simpa only [State.hostLate, Bool.not_eq_false', decide_eq_true_eq] using late
  rw [run, execHostWriteTimeout, found]
  dsimp only
  rw [isLate, if_neg Bool.false_ne_true]
  rfl

theorem exec_hostWriteTimeout_unasked (absent : (s.module m).find tag true = none) :
    exec (.hostWriteTimeout cyc m tag) s = .next s := by
  have run : exec (.hostWriteTimeout cyc m tag) s = execHostWriteTimeout cyc m tag s := rfl
  rw [run, execHostWriteTimeout, absent]

theorem UcieModule.find_none {u : UcieModule} (empty : u.outstanding = []) (write : Bool) : u.find tag write = none := by
  rw [UcieModule.find, empty, List.find?_nil]

end

/-- Settles O33: each answer and each timeout by the lemma that says what it does. -/
theorem hostAccessesEnd : Obligations.HostAccessesEnd := by
  unfold Obligations.HostAccessesEnd
  refine ⟨fun cyc m tag o s found present => ⟨fun data fits => ?last, fun data fits => ?more, fun final data bad powered => ?bad,
    fun status poison final data failed => ?failed, fun late => ?readLate⟩,
    fun cyc m tag o s found present => ⟨?done, fun status failed => ?writeFailed, fun late => ?writeLate⟩,
    fun cyc m tag status poison final data s empty => ?unasked⟩
  case last =>
    have ran := exec_readData (cyc := cyc) found 0 false true data
    dsimp only at ran
    rw [if_neg (by simp), if_neg (by simp [fits]), if_pos rfl] at ran
    refine ⟨_, _, ran, rfl, ?_, ?_, rfl⟩
    · rw [State.closeRequest_module (State.dataTaken_present present _), State.dataTaken_module present]
      rfl
    · rw [State.closeRequest_module (State.dataTaken_present present _), State.dataTaken_module present]
      rfl
  case more =>
    have ran := exec_readData (cyc := cyc) found 0 false false data
    dsimp only at ran
    rw [if_neg (by simp), if_neg (by simp [fits]), if_neg Bool.false_ne_true] at ran
    refine ⟨_, ran, ?_, rfl⟩
    rw [State.module_modModule_self (State.dataTaken_present present _), State.dataTaken_module present]
    rfl
  case bad =>
    have ran := exec_readData (cyc := cyc) found 0 false final data
    dsimp only at ran
    rw [if_neg (by simp), if_pos bad] at ran
    refine ⟨_, ran, State.protocolError_state (State.dataTaken_present present _) ?_⟩
    rw [State.dataTaken_module present]
    exact powered
  case failed =>
    have ran := exec_readData (cyc := cyc) found status poison final data
    dsimp only at ran
    rw [if_pos (by simpa using failed)] at ran
    refine ⟨_, _, ran, rfl, ?_, rfl, rfl⟩
    show (((s.dataTaken cyc m data.length).closeRequest m tag).module m).outstanding = _
    rw [State.closeRequest_module (State.dataTaken_present present _), State.dataTaken_module present]
    rfl
  case readLate =>
    refine ⟨_, _, exec_hostReadTimeout_late found late, rfl, ?_, ?_, ?_⟩
    · rw [State.module_raise]
      exact congrArg UcieModule.outstanding (State.closeRequest_module (s := s.stamp cyc) present)
    · rw [State.raise_hlk]
      rfl
    · exact congrArg (fun t : State => { t with hlk := s.hlk, srv := s.srv, tb := s.tb })
        (((s.stamp cyc).closeRequest m tag).readFailed.raise_rest 0x0B05 m o.access.offset 0)
  case done =>
    have ran := exec_writeAck (cyc := cyc) found 0
    dsimp only at ran
    rw [if_pos rfl] at ran
    exact ⟨_, _, ran, rfl, congrArg UcieModule.outstanding (State.module_modModule_self (s := s.stamp cyc) present _), rfl⟩
  case writeFailed =>
    have ran := exec_writeAck (cyc := cyc) found status
    dsimp only at ran
    rw [if_neg failed] at ran
    exact ⟨_, _, ran, rfl, rfl, rfl⟩
  case writeLate =>
    refine ⟨_, _, exec_hostWriteTimeout_late found late, rfl, ?_, ?_, ?_⟩
    · rw [State.module_raise]
      exact congrArg UcieModule.outstanding (State.closeRequest_module (s := s.stamp cyc) present)
    · rw [State.raise_hlk]
      rfl
    · exact congrArg (fun t : State => { t with hlk := s.hlk, srv := s.srv, tb := s.tb })
        (((s.stamp cyc).closeRequest m tag).writeFailed.raise_rest 0x0B05 m o.access.offset 0)
  case unasked =>
    have absent := UcieModule.find_none (tag := tag) empty
    exact ⟨exec_readData_unasked (absent false) status poison final data, exec_writeAck_unasked (absent true) status,
      exec_hostReadTimeout_unasked (absent false), exec_hostWriteTimeout_unasked (absent true)⟩

end Sys2Proof.Machine
end

section
/-! PROOFS. The apertures for the host, its credits, and the invalidation of translations (R447, R452, R455, R456). -/

namespace Sys2Proof.Machine

section
variable {s : State} {cyc m tag offset : Nat}

/-! ### Credits and apertures -/

/-- The bytes of a WIN_WRITE have been taken. -/
def State.writeTaken (s : State) (cyc m : Nat) : State :=
  (s.stamp cyc).modModule m fun u => { u.took 1 with rxBytes := sat 64 (u.rxBytes + 64) }

theorem State.writeTaken_module (present : m < s.hlk.modules.length) : (s.writeTaken cyc m).module m =
    { (s.module m).took 1 with rxBytes := sat 64 ((s.module m).rxBytes + 64) } :=
  State.module_modModule_self (s := s.stamp cyc) present _

theorem State.modModule_length (s : State) (m : Nat) (g : UcieModule → UcieModule) :
    (s.modModule m g).hlk.modules.length = s.hlk.modules.length := List.length_modify _ _ _

/-- The dictionary slots with bytes put at an offset. -/
def State.putSlot (s : State) (offset head : Nat) (part : List Byte) : State :=
  let slots := lmod s.hlk.slots (offset / 4096) fun d => DictSlot.ofBytes (splice d.bytes (offset % 4096 + head) part)
  { s with hlk := { s.hlk with slots := slots } }

theorem exec_ucieCredit (headers chunks : Nat) (inside : m < 4) :
    exec (.ucieCredit cyc m headers chunks) s = .next (
      let t := (s.stamp cyc).modModule m fun u => UcieModule.answerMore u.waitReplies.length { u with
        headerCredits := min 256 (u.headerCredits + headers), chunkCredits := min 2048 (u.chunkCredits + chunks) }
      { t with hlk := t.hlk.sendMore t.clock }) := by
  have run : exec (.ucieCredit cyc m headers chunks) s = execUcieCredit cyc m headers chunks s := rfl
  rw [run, execUcieCredit, onUnit_true (by simpa using inside)]

theorem exec_winWrite {head tail : Nat} {data : List Byte} (inside : m < 4) (active : (s.module m).state = .active)
    (numbered : tag < 1024) (aligned : offset % 64 = 0) (heads : head < 64) (tails : tail < 64) (whole : data.length = 64) :
    exec (.winWrite cyc m tag offset head tail data) s = .next (
      let r : WinReply := { tag := tag, isRead := false, status := 0, data := [], offset := offset }
      if offset < 0x10000 then
        ((s.writeTaken cyc m).putSlot offset head ((data.take (64 - tail)).drop head)).modModule m fun u => u.answer r
      else (s.writeTaken cyc m).apertureFault m offset r) := by
  have run : exec (.winWrite cyc m tag offset head tail data) s = execWinWrite cyc m tag offset head tail data s := rfl
  rw [run, execWinWrite, onUnit_true (by simpa using inside), if_neg (by simp [active])]
  dsimp only
  rw [if_neg (by simp [aligned, heads, tails, whole]; omega)]
  rfl

theorem exec_winRead {chunks : Nat} {data : List Byte} (inside : m < 4) (active : (s.module m).state = .active)
    (numbered : tag < 1024) (aligned : offset % 64 = 0) (some_ : 0 < chunks) (fits : chunks ≤ 64)
    (bytes : (s.stamp cyc).aperture offset (64 * chunks) = some data) :
    exec (.winRead cyc m tag offset chunks) s = .next (((s.stamp cyc).modModule m fun u => u.took 0).modModule m fun u =>
      u.answer { tag := tag, isRead := true, status := 0, data := data, offset := offset }) := by
  have run : exec (.winRead cyc m tag offset chunks) s = execWinRead cyc m tag offset chunks s := rfl
  have bytes' : ((s.stamp cyc).modModule m fun u => u.took 0).aperture offset (64 * chunks) = some data := bytes
  rw [run, execWinRead, onUnit_true (by simpa using inside), if_neg (by simp [active])]
  dsimp only
  rw [if_neg (by simp [aligned]; omega), bytes']

theorem exec_winRead_malformed {chunks : Nat} (inside : m < 4) (active : (s.module m).state = .active)
    (malformed : offset % 64 ≠ 0 ∨ chunks = 0 ∨ 64 < chunks) :
    exec (.winRead cyc m tag offset chunks) s = .next ((s.stamp cyc).protocolError m) := by
  have run : exec (.winRead cyc m tag offset chunks) s = execWinRead cyc m tag offset chunks s := rfl
  rw [run, execWinRead, onUnit_true (by simpa using inside), if_neg (by simp [active])]
  dsimp only
  rw [if_pos (by simp only [Bool.or_eq_true, decide_eq_true_eq]; tauto)]

/-! ### Translations (R452, R455) -/

theorem exec_attInvalidate {w : Nat} (known : w ≤ 3 ∨ w = 0xFF) :
    exec (.attInvalidate w) s = .next (((s.attDrop w).setReg Reg.HLK_ATT_INVALIDATE w).status Status.OK) := by
  have run : exec (.attInvalidate w) s = execAttInvalidate w s := rfl
  rw [run, execAttInvalidate, if_pos (by simpa using known)]

theorem exec_attInvalidate_refused {v : Nat} (above : 3 < v) (other : v ≠ 0xFF) :
    exec (.attInvalidate v) s = .next (s.status Status.VALUE_RANGE) := by
  have run : exec (.attInvalidate v) s = execAttInvalidate v s := rfl
  rw [run, execAttInvalidate, if_neg (by simp [other]; omega)]

/-- Every translation is dropped with FFh. -/
theorem State.attDrop_all (s : State) : (s.attDrop 0xFF).hlk.att0 = [] ∧ (s.attDrop 0xFF).hlk.att1 = [] :=
  ⟨List.filter_eq_nil_iff.2 fun _ _ => by simp, List.filter_eq_nil_iff.2 fun _ _ => by simp⟩

/-- Every access that is outstanding was translated before. -/
theorem State.attDrop_old (s : State) (w : Nat) :
    ∀ u ∈ (s.attDrop w).hlk.modules, ∀ o ∈ u.outstanding, o.oldTranslation = true := by
  intro u mem o out
  obtain ⟨v, -, rfl⟩ := List.mem_map.1 mem
  obtain ⟨p, -, rfl⟩ := List.mem_map.1 out
  rfl

/-- What is kept of the cache after the translations of a window were dropped. -/
theorem State.attDrop_window {w : Nat} (known : w ≤ 3) {e : AttEntry} (mem : e ∈ (s.attDrop w).hlk.att0) :
    e ∈ s.hlk.att0 ∧
      (e.entry * 2 ^ 21 < (s.window w).1 ∨ (s.window w).1 + (s.window w).2 ≤ e.entry * 2 ^ 21) := by
  obtain ⟨kept, apart⟩ := List.mem_filter.1 mem
  refine ⟨kept, ?_⟩
  rw [if_neg (by omega)] at apart
  simpa [imp_iff_not_or] using apart

theorem exec_attInvalidateComplete :
    exec .attInvalidateComplete s = .next (if s.hlk.invPending = 0 || s.hlk.oldOut then s
      else { s with hlk := { s.hlk with
        invPending := s.hlk.invPending - 1, invSeq := (s.hlk.invSeq + 1) % 2 ^ 32 } }) := by
  have run : exec .attInvalidateComplete s = execAttInvalidateComplete s := rfl
  rw [run, execAttInvalidateComplete]
  split <;> rfl

end

/-- Settles O34: each message by the lemma that says what it does. -/
theorem apertureIsServed : Obligations.ApertureIsServed := by
  unfold Obligations.ApertureIsServed
  refine ⟨fun cyc m tag s inside present => ⟨fun headers chunks => ?credit, fun active numbered =>
    ⟨fun offset head tail data aligned heads tails whole => ⟨fun low => ?written, fun high => ?refused⟩,
      fun offset chunks data aligned some_ fits bytes => ?read, fun offset chunks malformed => ?malformed⟩⟩,
    fun s sorted => ?all, fun w s known => ?window, fun v s above other => exec_attInvalidate_refused above other,
    fun s pending clear => ?complete, fun s pending out => ?waits⟩
  case credit =>
    exact ⟨_, _, exec_ucieCredit headers chunks inside, rfl, State.module_modModule_self (s := s.stamp cyc) present _,
      fun k other => State.module_modModule_ne (s := s.stamp cyc) other _, rfl⟩
  case written =>
    have ran := exec_winWrite (cyc := cyc) inside active numbered aligned heads tails whole
    dsimp only at ran
    rw [if_pos low] at ran
    refine ⟨_, ran, rfl, ?_, fun k other => ?_, rfl⟩
    · have still : m < ((s.writeTaken cyc m).putSlot offset head ((data.take (64 - tail)).drop head)).hlk.modules.length := by
        show m < (s.writeTaken cyc m).hlk.modules.length
        rw [State.writeTaken, State.modModule_length]
        exact present
      rw [State.module_modModule_self still]
      exact congrArg (fun u => UcieModule.answer u _) (State.writeTaken_module present)
    · rw [State.module_modModule_ne other]
      exact State.module_modModule_ne (s := s.stamp cyc) other _
  case refused =>
    have ran := exec_winWrite (cyc := cyc) inside active numbered aligned heads tails whole
    dsimp only at ran
    rw [if_neg (by omega)] at ran
    refine ⟨_, ran, ?_, ?_, ?_⟩
    · rw [State.apertureFault, State.raise_hlk]
      rfl
    · rw [State.apertureFault, State.raise_hlk]
      rfl
    · exact congrArg (fun t : State => { t with hlk := s.hlk, srv := s.srv, tb := s.tb })
        (State.raise_rest _ 0x0B06 m offset 0)
  case read =>
    refine ⟨_, exec_winRead inside active numbered aligned some_ fits bytes, ?_, fun k other => ?_, rfl, rfl⟩
    · rw [State.module_modModule_self (by rw [State.modModule_length]; exact present)]
      exact congrArg (fun u => UcieModule.answer u _) (State.module_modModule_self (s := s.stamp cyc) present _)
    · rw [State.module_modModule_ne other]
      exact State.module_modModule_ne (s := s.stamp cyc) other _
  case malformed =>
    refine ⟨_, exec_winRead_malformed inside active malformed, State.protocolError_state (s := s.stamp cyc) present ?_⟩
    show (s.module m).state ≠ .off
    rw [active]
    nofun
  case all =>
    obtain ⟨die0, die1⟩ := s.attDrop_all
    exact ⟨_, exec_attInvalidate (.inr rfl), die0, die1, rfl, rfl, s.attDrop_old 0xFF,
      (State.reg_setReg_self (s.attDrop 0xFF) Reg.HLK_ATT_INVALIDATE 0xFF sorted :), rfl, rfl⟩
  case window => exact ⟨_, exec_attInvalidate (.inl known), fun e mem => State.attDrop_window known mem, rfl, rfl⟩
  case complete => rw [exec_attInvalidateComplete, if_neg (by simp [pending, clear])]
  case waits => rw [exec_attInvalidateComplete, if_pos (by simp [out])]

end Sys2Proof.Machine
end

section
/-! PROOFS. Requests of the dictionary that change no object, and their answers (R457, R468, R477, R483, R491). -/

namespace Sys2Proof.Machine

section
variable {s t : State} {cyc n : Nat} {rq : Request} {a : Answer} {op : DapOp}

/-! ### A request of a slot -/

/-- The state with an answer in a slot, whose DONE_SEQ follows its SEQ. -/
def State.slotAnswered (s : State) (n : Nat) (message : List Byte) : State :=
  s.reply 0 (.slot n) 0 message

theorem State.slotAnswered_self (present : n < s.hlk.slots.length) (message : List Byte) :
    lget (s.slotAnswered n message).hlk.slots n = { lget s.hlk.slots n with
      response := message, doneSeq := (lget s.hlk.slots n).seq } := lget_lmod_self present _

theorem State.slotAnswered_ne {k : Nat} (other : k ≠ n) (message : List Byte) :
    lget (s.slotAnswered n message).hlk.slots k = lget s.hlk.slots k := lget_lmod_ne _ other _

/-- A request has been counted. -/
def State.received (s : State) (cyc : Nat) : State := s.counted cyc s.dict.delayed

theorem State.handle_slot (session : rq.session = .slot n) :
    (s.stamp cyc).handle rq op = (s.received cyc).serve rq op := by
  unfold State.handle
  rw [session]
  rfl

theorem State.request_slot (session : rq.session = .slot n) (inside : n < 16) (served : s.slotsServed = true)
    (free : s.slotWaits n = false) (shaped : op.shaped = true) :
    (s.stamp cyc).request rq op = .next ((s.stamp cyc).answerTo rq op).beginCommanded := by
  have served' : (s.stamp cyc).slotsServed = true := served
  have free' : (s.stamp cyc).slotWaits n = false := free
  unfold State.request
  rw [session]
  dsimp only
  rw [onUnit_true (by simpa using inside), if_neg (by simp [served', free']), if_neg (by simp [shaped])]

/-- A request that is answered at once. -/
theorem State.answerTo_now (session : rq.session = .slot n) (serves : (s.received cyc).serve rq op = (t, some a))
    (fits : a.body.length ≤ 1212) :
    (s.stamp cyc).answerTo rq op = t.slotAnswered n (a.message op.code rq.reqId rq.txId) := by
  unfold State.answerTo
  rw [State.handle_slot session, serves]
  dsimp only
  rw [if_neg (by unfold bodyLimit; omega), session]
  rfl

/-- A request that is answered later. -/
theorem State.answerTo_later (session : rq.session = .slot n) (serves : (s.received cyc).serve rq op = (t, none)) :
    (s.stamp cyc).answerTo rq op = t := by
  unfold State.answerTo
  rw [State.handle_slot session, serves]

/-! ### Lengths of what is answered -/

theorem pad4_length_le (b : List Byte) : (pad4 b).length ≤ b.length + 3 := by
  unfold pad4 padTo
  rw [List.length_append, List.length_replicate]
  omega

theorem ObjType.size_le (x : ObjType) : x.size ≤ 8 := by cases x <;> decide

/-! ### Objects that may be read -/

/-- The entry of one object of fixed length in the answer to a READ (Table 15-4). -/
def readEntry (index sub : Nat) (type : ObjType) (value : Nat) : List Byte :=
  le 2 index ++ le 1 sub ++ le 1 type.code ++ le 2 Status.OK ++ le 2 type.size ++ pad4 (le type.size value)

theorem readEntry_length_le (index sub : Nat) (type : ObjType) (value : Nat) :
    (readEntry index sub type value).length ≤ 19 := by
  have padded := pad4_length_le (le type.size value)
  have size := type.size_le
  simp only [readEntry, List.length_append, le_length] at padded ⊢
  omega

theorem State.itemValue_fixed {index sub : Nat} {r : ObjRow} (row : objRow index sub = some r) (notDomain : r.type ≠ .domain)
    (notStr : r.type ≠ .str) (present : absent s.part index sub = false) :
    s.itemValue [] index sub = ((r.type.code, le r.type.size (s.valueOf index sub r.access)), s) := by
  unfold State.itemValue
  rw [row]
  dsimp only
  rw [if_neg (by simp [present]), if_neg notDomain]
  exact if_neg notStr

theorem State.readItem_fixed {index sub : Nat} {r : ObjRow} (row : objRow index sub = some r) (notDomain : r.type ≠ .domain)
    (notStr : r.type ≠ .str) (present : absent s.part index sub = false) (ready : s.readable index sub = (Status.OK, 0)) :
    State.readItem [] (s, {}) (index, sub) =
      (s, { count := 1, body := readEntry index sub r.type (s.valueOf index sub r.access) }) := by
  unfold State.readItem
  dsimp only
  rw [ready]
  dsimp only
  rw [if_pos rfl, State.itemValue_fixed row notDomain notStr present, le_length]
  rfl

theorem State.serveRead_fixed {index sub : Nat} {r : ObjRow} (outside : rq.txId = 0) (row : objRow index sub = some r)
    (notDomain : r.type ≠ .domain) (notStr : r.type ≠ .str) (present : absent s.part index sub = false)
    (ready : (s.touchTx rq).readable index sub = (Status.OK, 0)) :
    s.serveRead rq [(index, sub)] = (s.touchTx rq,
      { count := 1, body := readEntry index sub r.type ((s.touchTx rq).valueOf index sub r.access) }) := by
  unfold State.serveRead State.stagedFor
  rw [if_pos outside]
  exact State.readItem_fixed row notDomain notStr present ready

/-- What a look at a DOMAIN changes. -/
theorem State.lookDomain_eq (s : State) (key : Nat) (content : List Byte) : ∃ seen,
    (s.lookDomain key content).2 = { s with dict := { s.dict with domainSeen := seen } } := by
  unfold State.lookDomain
  dsimp only
  (repeat' split) <;> exact ⟨_, rfl⟩

/-- The body of the answer to a READ_SEGMENT (Table 15-4). -/
def segmentBody (index sub offset total seq : Nat) (data : List Byte) : List Byte :=
  le 2 index ++ le 1 sub ++ le 1 0 ++ le 4 offset ++ le 4 total ++ le 4 seq ++ le 2 data.length ++ le 2 0 ++ data

theorem State.serveReadSegment_whole {index sub : Nat} {r : ObjRow} (outside : rq.txId = 0)
    (row : objRow index sub = some r) (domain : r.type = .domain)
    (ready : (s.touchTx rq).readable index sub = (Status.OK, 0)) (offset length : Nat) :
    s.serveReadSegment rq index sub offset length 0 =
      (((s.touchTx rq).lookDomain (256 * index + sub) ((s.touchTx rq).bytesOf index sub)).2,
        { body := segmentBody index sub offset ((s.touchTx rq).bytesOf index sub).length
            ((s.touchTx rq).lookDomain (256 * index + sub) ((s.touchTx rq).bytesOf index sub)).1
            ((((s.touchTx rq).bytesOf index sub).drop offset).take length) }) := by
  unfold State.serveReadSegment State.stagedFor
  rw [if_pos outside]
  dsimp only
  rw [ready]
  dsimp only
  rw [if_neg (by simp), row]
  dsimp only
  rw [if_neg (by simp [domain])]
  rfl

/-! ### TX_STATUS -/

/-- A transaction of the same session is the one that a request names. -/
theorem State.txNamed_open {x : Tx} (found : s.dict.txs.find? (·.id = rq.txId) = some x)
    (session : x.session = rq.session) : s.txNamed rq = some x := by
  have named : s.dict.txs.find? (Tx.named · rq) = some x := by
    rw [List.find?_eq_some_iff_append] at found ⊢
    obtain ⟨isNamed, before, after, split, others⟩ := found
    refine ⟨by simpa [Tx.named, session] using isNamed, before, after, split, fun y mem => ?_⟩
    have := others y mem
    simp only [Bool.not_eq_true', decide_eq_false_iff_not] at this
    simp [Tx.named, this]
  rw [State.txNamed, named]

/-- A touched transaction keeps its name and its items. -/
def Tx.touched (x : Tx) (rq : Request) : Tx := if x.named rq then { x with idle := 0 } else x

theorem Tx.touched_id (x : Tx) (rq : Request) : (x.touched rq).id = x.id := by
  unfold Tx.touched
  split <;> rfl

theorem Tx.touched_session (x : Tx) (rq : Request) : (x.touched rq).session = x.session := by
  unfold Tx.touched
  split <;> rfl

theorem Tx.touched_items (x : Tx) (rq : Request) : (x.touched rq).items = x.items := by
  unfold Tx.touched
  split <;> rfl

theorem State.touchTx_find {x : Tx} (found : s.dict.txs.find? (·.id = rq.txId) = some x)
    (session : x.session = rq.session) :
    (s.touchTx rq).dict.txs.find? (·.id = rq.txId) = some { x with idle := 0 } := by
  have touched : (s.touchTx rq).dict.txs = s.dict.txs.map (Tx.touched · rq) := rfl
  have same : ((fun y : Tx => decide (y.id = rq.txId)) ∘ (Tx.touched · rq)) = fun y => decide (y.id = rq.txId) :=
    funext fun y => by simp [Tx.touched_id]
  have name : x.id = rq.txId := by simpa using List.find?_some found
  rw [touched, List.find?_map, same, found, Option.map_some, Tx.touched, if_pos (by simp [Tx.named, name, session])]

theorem Tx.bytes_length (x : Tx) : x.bytes.length = 32 := by
  simp [Tx.bytes]

theorem State.serveTxStatus_open {x : Tx} (found : s.dict.txs.find? (·.id = rq.txId) = some x)
    (session : x.session = rq.session) :
    s.serveTxStatus rq = (s.touchTx rq, { body := Tx.bytes { x with idle := 0 } }) := by
  unfold State.serveTxStatus
  rw [State.txNamed_open found session]
  dsimp only
  rw [State.txNamed_open (State.touchTx_find found session) session]
  rfl

/-! ### A READ on the field network -/

/-- What a READ changes: it touches its transaction, and looks at DOMAINs. -/
def State.looked (s t : State) : Prop :=
  ∃ txs seen, t = { s with dict := { s.dict with txs := txs, domainSeen := seen } }

theorem State.itemValue_looked (s : State) (staged : List StagedItem) (index sub : Nat) :
    s.looked (s.itemValue staged index sub).2 := by
  unfold State.itemValue
  split
  · exact ⟨s.dict.txs, s.dict.domainSeen, rfl⟩
  · split
    · exact ⟨s.dict.txs, s.dict.domainSeen, rfl⟩
    · split
      · obtain ⟨seen, look⟩ := s.lookDomain_eq (256 * index + sub) (s.bytesOf index sub)
        exact ⟨s.dict.txs, seen, look⟩
      · split
        · exact ⟨s.dict.txs, s.dict.domainSeen, rfl⟩
        · split <;> exact ⟨s.dict.txs, s.dict.domainSeen, rfl⟩

theorem State.looked.trans {u : State} (first : s.looked t) (second : t.looked u) : s.looked u := by
  obtain ⟨txs, seen, rfl⟩ := first
  obtain ⟨txs', seen', rfl⟩ := second
  exact ⟨txs', seen', rfl⟩

theorem State.readItem_looked (staged : List StagedItem) (p : State × Answer) (i : Nat × Nat) :
    p.1.looked (State.readItem staged p i).1 := by
  unfold State.readItem
  dsimp only
  split
  · exact p.1.itemValue_looked staged i.1 i.2
  · exact ⟨p.1.dict.txs, p.1.dict.domainSeen, rfl⟩

theorem State.foldl_readItem_looked (staged : List StagedItem) (items : List (Nat × Nat)) (p : State × Answer) :
    p.1.looked (items.foldl (State.readItem staged) p).1 := by
  induction items generalizing p with
  | nil => exact ⟨p.1.dict.txs, p.1.dict.domainSeen, rfl⟩
  | cons i rest ih => exact (State.readItem_looked staged p i).trans (ih _)

theorem State.serveRead_looked (s : State) (rq : Request) (items : List (Nat × Nat)) :
    s.looked (s.serveRead rq items).1 := by
  unfold State.serveRead
  split
  · exact ⟨s.dict.txs, s.dict.domainSeen, rfl⟩
  · exact State.looked.trans ⟨_, s.dict.domainSeen, rfl⟩ (State.foldl_readItem_looked _ items (s.touchTx rq, {}))

/-- `t` differs from `s` in the dictionary and in slots, and the same all-nodes READs wait. -/
def State.answered (s t : State) : Prop := ∃ d slots, d.delayed = s.dict.delayed ∧
  t = { s with dict := d, hlk := { s.hlk with slots := slots } }

theorem State.answered_of_dict {d : Dict} (delayed : d.delayed = s.dict.delayed) : s.answered { s with dict := d } :=
  ⟨d, s.hlk.slots, delayed, rfl⟩

theorem State.reply_answered (s : State) (port : Nat) (session : Session) (reqId : Nat) (message : List Byte) :
    s.answered (s.reply port session reqId message) := by
  unfold State.reply
  split
  · exact ⟨s.dict, _, rfl, rfl⟩
  · dsimp only
    unfold State.sendField
    split
    · exact State.answered_of_dict rfl
    · exact State.answered_of_dict rfl

theorem State.answered.trans {u : State} (first : s.answered t) (second : t.answered u) : s.answered u := by
  obtain ⟨d, slots, delayed, rfl⟩ := first
  obtain ⟨d', slots', delayed', rfl⟩ := second
  exact ⟨d', slots', delayed'.trans delayed, rfl⟩

theorem State.malformed_answered (s : State) (session : Session) (op reqId txId : Nat) :
    s.answered (s.malformed session op reqId txId) := by
  unfold State.malformed
  dsimp only
  split
  · exact State.answered_of_dict rfl
  · exact State.answered.trans (t := { s with dict := { s.dict with errors := sat 32 (s.dict.errors + 1) } })
      (State.answered_of_dict rfl) (State.reply_answered _ _ _ _ _)

/-- A READ is counted and served, on either path. -/
theorem State.handle_read (s : State) (rq : Request) (items : List (Nat × Nat)) :
    s.handle rq (.read items) = ((({ s with dict := { s.dict with requests := sat 64 (s.dict.requests + 1) } } :
      State).serveRead rq items).1, some (({ s with dict := { s.dict with
        requests := sat 64 (s.dict.requests + 1) } } : State).serveRead rq items).2) := by
  unfold State.handle
  dsimp only
  split <;> rfl

theorem State.answerTo_read_answered (s : State) (rq : Request) (items : List (Nat × Nat)) :
    s.answered (s.answerTo rq (.read items)) := by
  unfold State.answerTo
  rw [s.handle_read rq items]
  dsimp only
  split
  · exact s.malformed_answered _ _ _ _
  · obtain ⟨txs, seen, served⟩ := State.serveRead_looked
      { s with dict := { s.dict with requests := sat 64 (s.dict.requests + 1) } } rq items
    refine State.answered.trans ?_ (State.reply_answered _ _ _ _ _)
    rw [served]
    exact State.answered_of_dict rfl

theorem State.sendCached_answered (s : State) (r : Reply) : s.answered (s.sendCached r) := by
  unfold State.sendCached State.sendField
  split <;> exact State.answered_of_dict rfl

theorem State.fieldServe_read_answered (s : State) (rq : Request) (items : List (Nat × Nat)) :
    s.answered (s.fieldServe rq (.read items)) := by
  unfold State.fieldServe
  split
  · exact s.sendCached_answered _
  · split
    · exact State.answered_of_dict rfl
    · split
      · exact s.reply_answered _ _ _ _
      · exact s.answerTo_read_answered rq items

/-- An answer leaves the field port as its last reply. -/
theorem State.reply_field {address port from_ : Nat} (session : rq.session = .field address port)
    (up : s.fieldUp = true) (message : List Byte) : (s.reply from_ rq.session rq.reqId message).dict.lastReply =
      some { session := rq.session, reqId := rq.reqId, port := from_, bytes := message } := by
  have up' (c : List (Nat × Reply)) : State.fieldUp { s with dict := { s.dict with cache := c } } = true := up
  unfold State.reply
  rw [session]
  dsimp only
  rw [State.sendField, if_pos (up' _)]

theorem State.answerTo_read_field {address port : Nat} {items : List (Nat × Nat)}
    (session : rq.session = .field address port) (up : s.fieldUp = true)
    (serves : (({ s with dict := { s.dict with requests := sat 64 (s.dict.requests + 1) } } : State).serveRead rq
      items).2 = a) (fits : a.body.length ≤ bodyLimit) : (s.answerTo rq (.read items)).dict.lastReply =
        some { session := rq.session, reqId := rq.reqId, port := s.reg Reg.HLK_FIELD_UDP_PORT
               bytes := a.message 1 rq.reqId rq.txId } := by
  obtain ⟨txs, seen, served⟩ := State.serveRead_looked
    { s with dict := { s.dict with requests := sat 64 (s.dict.requests + 1) } } rq items
  unfold State.answerTo
  rw [s.handle_read rq items]
  dsimp only
  rw [serves, if_neg (by omega), served]
  exact State.reply_field session (by exact up) _

/-- The all-nodes READ whose delay has passed waits no more. -/
def State.readDue (s : State) (cyc : Nat) (e : Nat × Request × List (Nat × Nat)) : State :=
  { s.stamp cyc with dict := { s.dict with delayed := s.dict.delayed.erase e } }

theorem exec_multicastReadReply {e : Nat × Request × List (Nat × Nat)}
    (found : s.dict.delayed.find? (fun e => e.1 ≤ s.uptime) = some e) :
    exec (.multicastReadReply cyc) s = .next (if (s.readDue cyc e).fieldUp then
      (s.readDue cyc e).fieldServe e.2.1 (.read e.2.2) else s.readDue cyc e) := by
  have run : exec (.multicastReadReply cyc) s = execMulticastReadReply cyc s := rfl
  have found' : (s.stamp cyc).dict.delayed.find? (fun e => e.1 ≤ (s.stamp cyc).uptime) = some e := found
  rw [run, execMulticastReadReply]
  dsimp only
  rw [found']
  rfl

end

/-- Settles O35: each request by the lemma about what serves it. -/
theorem readsAreAnswered : Obligations.ReadsAreAnswered := by
  unfold Obligations.ReadsAreAnswered
  refine ⟨fun cyc n rq s v session inside present served free isServed => ?slot, fun cyc e s found => ?delayed⟩
  case slot =>
    subst isServed
    refine ⟨fun index sub r outside row notDomain notStr here ready => ?read,
      fun index sub offset length r outside row domain ready some_ short => ?segment, fun x found own => ?status⟩
    case read =>
      have serves := State.serveRead_fixed (s := s.received cyc) outside row notDomain notStr here ready
      have answer := State.answerTo_now (op := .read [(index, sub)]) session
        (congrArg (fun p : State × Answer => (p.1, some p.2)) serves) ((readEntry_length_le _ _ _ _).trans (by decide))
      refine ⟨_, _, State.request_slot session inside served free rfl, rfl, ?_⟩
      rw [answer]
      refine ⟨?_, fun k other => State.slotAnswered_ne other _, rfl, rfl⟩
      rw [outside]
      exact State.slotAnswered_self (s := (s.received cyc).touchTx rq) present _
    case segment =>
      have serves := State.serveReadSegment_whole (s := s.received cyc) outside row domain ready offset length
      have answer := State.answerTo_now (op := .readSegment index sub offset length 0) session
        (congrArg (fun p : State × Answer => (p.1, some p.2)) serves) (by
          simp only [segmentBody, List.length_append, le_length, List.length_take]
          omega)
      obtain ⟨seen, look⟩ := ((s.received cyc).touchTx rq).lookDomain_eq (256 * index + sub)
        (((s.received cyc).touchTx rq).bytesOf index sub)
      refine ⟨_, _, _, State.request_slot session inside served free (by simp [DapOp.shaped, some_, short]), rfl, rfl, ?_⟩
      rw [answer, look]
      refine ⟨?_, rfl⟩
      rw [outside]
      exact State.slotAnswered_self (s := { (s.received cyc).touchTx rq with dict :=
        { ((s.received cyc).touchTx rq).dict with domainSeen := seen } }) present _
    case status =>
      have serves := State.serveTxStatus_open (s := s.received cyc) found own
      have answer := State.answerTo_now (op := .txStatus) session
        (congrArg (fun p : State × Answer => (p.1, some p.2)) serves) (by
          rw [Tx.bytes_length]
          decide)
      refine ⟨_, _, State.request_slot session inside served free rfl, rfl, ?_⟩
      rw [answer]
      exact ⟨State.slotAnswered_self (s := (s.received cyc).touchTx rq) present _, rfl⟩
  case delayed =>
    refine ⟨_, exec_multicastReadReply found, ?_⟩
    by_cases up : (s.readDue cyc e).fieldUp = true
    · rw [if_pos up]
      obtain ⟨d, slots, delayed, answer⟩ := (s.readDue cyc e).fieldServe_read_answered e.2.1 e.2.2
      refine ⟨?_, ?_, ?_, ?_, fun address port a session _ booted new settled serves fits => ?_⟩
      · rw [answer]
        exact delayed
      · rw [answer]
        rfl
      · rw [answer]
        rfl
      · rw [answer]
        rfl
      · have new' : (s.readDue cyc e).cached e.2.1 = none := new
        have settled' : (s.readDue cyc e).commitWaits e.2.1 = false := settled
        have booted' : ¬ (s.readDue cyc e).boot.slots < 800 := Nat.not_lt.2 booted
        unfold State.fieldServe
        rw [new']
        dsimp only
        rw [if_neg (by simp [settled']), if_neg booted']
        exact State.answerTo_read_field session up serves fits
    · rw [if_neg up]
      exact ⟨rfl, rfl, rfl, rfl, fun _ _ _ _ isUp => absurd isUp up⟩

end Sys2Proof.Machine
end

section
/-! PROOFS. Transactions: BEGIN, staged items, COMMIT, ROLLBACK and expiry, and writes outside them (R480, R484 to
R491). -/

namespace Sys2Proof.Machine

section
variable {s t : State} {cyc n : Nat} {rq : Request} {x : Tx}

/-! ### Staged items -/

/-- What a WRITE stages. -/
def stagedWrite (w : WriteItem) : StagedItem := { index := w.index, sub := w.sub, domain := false, value := w.value }

/-- What the first WRITE_SEGMENT of a DOMAIN stages. -/
def wholeItem (index sub total : Nat) (data : List Byte) : StagedItem :=
  { index := index, sub := sub, domain := true, value := [], total := total, segments := [(0, data)] }

/-- An item that is staged is the one that its object has. -/
theorem Tx.stagedAt_stage (x : Tx) (i : StagedItem) : stagedAt (x.stage i).items i.index i.sub = some i := by
  have own : (i.index = i.index && i.sub = i.sub) = true := by simp
  unfold Tx.stage
  split
  · next known =>
    obtain ⟨old, found⟩ := Option.isSome_iff_exists.1 known
    have test : ((fun y : StagedItem => decide (y.index = i.index) && decide (y.sub = i.sub)) ∘
        fun y => if y.index = i.index && y.sub = i.sub then i else y) =
        fun y => decide (y.index = i.index) && decide (y.sub = i.sub) := by
      funext y
      by_cases same : (y.index = i.index && y.sub = i.sub) = true
      · rw [Function.comp, if_pos same]
        exact own.trans same.symm
      · rw [Function.comp, if_neg same]
    have isOld := List.find?_some found
    show (x.items.map _).find? _ = some i
    rw [List.find?_map, test, show x.items.find? _ = some old from found, Option.map_some, if_pos isOld]
  · next unknown =>
    have absent : x.items.find? (fun y => y.index = i.index && y.sub = i.sub) = none := by
      simpa [stagedAt] using unknown
    show (x.items ++ [i]).find? _ = some i
    rw [List.find?_append, absent, Option.none_or]
    exact List.find?_cons_of_pos own

theorem Tx.stage_id (x : Tx) (i : StagedItem) : (x.stage i).id = x.id := by
  unfold Tx.stage
  split <;> rfl

theorem Tx.stage_state (x : Tx) (i : StagedItem) : (x.stage i).state = x.state := by
  unfold Tx.stage
  split <;> rfl

theorem State.modTx_find {id : Nat} {g : Tx → Tx} (found : s.dict.txs.find? (·.id = id) = some x)
    (keeps : ∀ y, (g y).id = y.id) : (s.modTx id g).dict.txs.find? (·.id = id) = some (g x) := by
  have name : x.id = id := by simpa using List.find?_some found
  have test : ((fun y : Tx => decide (y.id = id)) ∘ fun y => if y.id = id then g y else y) =
      fun y => decide (y.id = id) := by
    funext y
    by_cases same : y.id = id
    · simp [same, keeps]
    · simp [same]
  show (s.dict.txs.map _).find? _ = _
  rw [List.find?_map, test, found, Option.map_some, if_pos name]

theorem State.touchTx_claimer (s : State) (rq : Request) (index sub : Nat) :
    (s.touchTx rq).claimer index sub = s.claimer index sub := by
  have touched : (s.touchTx rq).dict.txs = s.dict.txs.map (Tx.touched · rq) := rfl
  have test : ((fun y : Tx => (stagedAt y.items index sub).isSome) ∘ (Tx.touched · rq)) =
      fun y => (stagedAt y.items index sub).isSome := funext fun y => by simp [Tx.touched_items]
  rw [State.claimer, State.claimer, touched, List.find?_map, test, Option.map_map]
  exact congrArg (Option.map · _) (funext fun y => y.touched_id rq)

theorem State.openTx_ok (found : s.dict.txs.find? (·.id = rq.txId) = some x) (session : x.session = rq.session)
    (isOpen : x.state = .opn) : s.openTx rq = .ok x := by
  rw [State.openTx, State.txNamed_open found session]
  exact if_pos isOpen

/-- The entry of one item in the answer to a WRITE (Table 15-4). -/
def writeEntry (w : WriteItem) (status : Nat) : List Byte :=
  le 2 w.index ++ le 1 w.sub ++ le 1 0 ++ le 2 status ++ le 2 0

theorem writeEntry_length (w : WriteItem) (status : Nat) : (writeEntry w status).length = 8 := by
  simp [writeEntry]

/-- A WRITE of one item, whose object is served. -/
theorem State.writeItems_one {one : State → WriteItem → Nat × State} {w : WriteItem} {e : Nat}
    (does : one s w = (e, t)) (served : e ≠ Status.NOT_READY) :
    s.writeItems one [w] = (t, { status := e, count := 1, body := writeEntry w e }) := by
  unfold State.writeItems
  rw [List.foldl_cons, List.foldl_nil]
  dsimp only
  rw [does]
  dsimp only
  rw [if_neg served]
  rfl

/-! ### BEGIN, COMMIT and ROLLBACK -/

theorem State.serveBegin_room (room : s.dict.txs.length < 8) : s.serveBegin rq =
    ({ s with dict := { s.dict with
        txs := s.dict.txs ++ [{ id := s.dict.freeId, session := rq.session }], nextId := s.dict.freeId % 65535 + 1 } },
      { tx := some s.dict.freeId }) := by
  unfold State.serveBegin
  dsimp only
  rw [if_neg (by omega)]

/-- A transaction that is scheduled for the boundary `k` slots ahead. -/
def State.scheduled (s : State) (rq : Request) (at_ k : Nat) (x : Tx) : Tx :=
  { x with state := .scheduled, at_ := s.tb.aheadFst k, next := at_ = 0, due := k - 1 + ofBit s.tb.boundaryDue
           order := s.dict.commitOrder, reqId := rq.reqId }

theorem State.serveCommit_ahead {at_ k : Nat} (found : s.dict.txs.find? (·.id = rq.txId) = some x)
    (session : x.session = rq.session) (isOpen : x.state = .opn) (ahead : s.tb.ahead at_ = some k) :
    s.serveCommit rq at_ =
      ({ (s.touchTx rq).modTx x.id (s.scheduled rq at_ k) with dict :=
          { ((s.touchTx rq).modTx x.id (s.scheduled rq at_ k)).dict with commitOrder := s.dict.commitOrder + 1 } },
        none) := by
  unfold State.serveCommit
  rw [State.openTx_ok found session isOpen]
  dsimp only
  rw [ahead]
  rfl

theorem State.rollTx_eq (s : State) (x : Tx) : ∃ ended, s.rollTx x = { s with dict := { s.dict with
    txs := s.dict.txs.filter fun y => y.id ≠ x.id, ended := ended
    rolledBack := sat 32 (s.dict.rolledBack + 1) } } := by
  unfold State.rollTx State.endTx
  exact ⟨_, rfl⟩

theorem State.serveRollback_open (found : s.dict.txs.find? (·.id = rq.txId) = some x)
    (session : x.session = rq.session) (isOpen : x.state = .opn) : s.serveRollback rq = (s.rollTx x, {}) := by
  rw [State.serveRollback, State.openTx_ok found session isOpen]

/-! ### WRITE and WRITE_SEGMENT in a transaction -/

theorem State.stageItem_taken {w : WriteItem} {r : ObjRow} (found : s.dict.txs.find? (·.id = x.id) = some x)
    (row : objRow w.index w.sub = some r) (writable : s.writable w.index w.sub true = Status.OK)
    (value : r.check s.part w.type w.value = Status.OK) (mine : ∀ k, s.claimer w.index w.sub = some k → k = x.id)
    (room : x.items.length < 256) : s.stageItem x.id w = (Status.OK, s.modTx x.id
      (Tx.stage · (stagedWrite w))) := by
  have claimed : ¬ ((s.claimer w.index w.sub).any fun y => y ≠ x.id) = true := by
    cases claim : s.claimer w.index w.sub with
    | none => simp
    | some k => simp [mine k claim]
  unfold State.stageItem
  rw [row, found]
  dsimp only
  rw [if_neg (by simp [writable]), if_neg (by simp [value]), if_neg claimed, if_neg (by simp; omega)]
  rfl

theorem State.serveWrite_stages {w : WriteItem} {r : ObjRow} (inTx : rq.txId ≠ 0)
    (found : s.dict.txs.find? (·.id = rq.txId) = some x) (session : x.session = rq.session) (isOpen : x.state = .opn)
    (row : objRow w.index w.sub = some r) (writable : s.writable w.index w.sub true = Status.OK)
    (value : r.check s.part w.type w.value = Status.OK) (mine : ∀ k, s.claimer w.index w.sub = some k → k = x.id)
    (room : x.items.length < 256) : s.serveWrite rq [w] = ((s.touchTx rq).modTx x.id
      (Tx.stage · (stagedWrite w)),
        { count := 1, body := writeEntry w Status.OK }) := by
  have name : x.id = rq.txId := by simpa using List.find?_some found
  have touched := State.touchTx_find found session
  rw [← name] at touched
  have stages := State.stageItem_taken (s := s.touchTx rq) (x := { x with idle := 0 }) touched row writable value
    (fun k claim => mine k (by rwa [State.touchTx_claimer] at claim)) room
  rw [State.serveWrite, if_neg inTx, State.openTx_ok found session isOpen]
  exact State.writeItems_one (s := s.touchTx rq) (one := fun t w => t.stageItem x.id w) stages (by decide)

theorem State.serveWriteSegment_first {index sub total : Nat} {data : List Byte} {r : ObjRow} (inTx : rq.txId ≠ 0)
    (found : s.dict.txs.find? (·.id = rq.txId) = some x) (session : x.session = rq.session) (isOpen : x.state = .opn)
    (row : objRow index sub = some r) (domain : r.type = .domain) (writable : s.writable index sub true = Status.OK)
    (unclaimed : s.claimer index sub = none) (within : data.length ≤ total)
    (range : r.range.holds s.part total = true)
    (room : x.items.length < 256) (exempt : ownArea index sub = true) :
    s.serveWriteSegment rq index sub true 0 total data = ((s.touchTx rq).modTx x.id
      (Tx.stage · (wholeItem index sub total data)),
        {}) := by
  have writable' : (s.touchTx rq).writable index sub true = Status.OK := writable
  have range' : r.range.holds (s.touchTx rq).part total = true := range
  unfold State.serveWriteSegment
  rw [if_neg inTx, State.openTx_ok found session isOpen]
  dsimp only
  rw [row]
  dsimp only
  rw [writable', if_neg (by decide), if_neg (by simp), if_neg (by simp [domain]), State.touchTx_claimer, unclaimed,
    if_neg (by simp), if_pos rfl, if_neg (by simp [range', within]), if_neg (by simp; omega), if_neg (by simp [exempt]),
    if_pos rfl]
  rfl

/-! ### Writes outside transactions -/

/-- A request that only gets an answer changes the dictionary and the slots. -/
theorem State.received_slotAnswered_rest (s : State) (cyc n : Nat) (message : List Byte) :
    ({ (s.received cyc).slotAnswered n message with dict := s.dict, hlk := s.hlk, tb := s.tb } : State) = s := rfl

theorem State.staged_slotAnswered_rest (s : State) (cyc n id : Nat) (rq : Request) (g : Tx → Tx)
    (message : List Byte) :
    ({ (((s.received cyc).touchTx rq).modTx id g).slotAnswered n message with
      dict := s.dict, hlk := s.hlk, tb := s.tb } : State) = s := rfl

theorem State.received_waitFor (s : State) (cyc index sub : Nat) :
    (s.received cyc).waitFor index sub = (s.stamp cyc).waitFor index sub := by
  unfold State.waitFor State.received State.counted
  rfl

theorem State.received_writable (s : State) (cyc index sub : Nat) (inTx : Bool) :
    (s.received cyc).writable index sub inTx = (s.stamp cyc).writable index sub inTx := by
  unfold State.writable
  rw [State.received_waitFor]
  rfl

theorem State.writable_txRequired {index sub : Nat} {r : ObjRow} (row : objRow index sub = some r)
    (access : r.access = .tx) (present : absent s.part index sub = false) (ready : s.waitFor index sub = none) :
    s.writable index sub false = Status.TX_REQUIRED := by
  rw [State.writable, row]
  dsimp only
  rw [present, ready, access]
  rfl

theorem State.writeItem_refused {w : WriteItem} {e : Nat} (refused : s.writable w.index w.sub false = e)
    (bad : e ≠ Status.OK) : s.writeItem w = (e, s) := by
  unfold State.writeItem
  dsimp only
  rw [refused]
  split
  · rfl
  · rw [if_pos bad]

/-- An object that may be written is served. -/
theorem State.waitFor_of_writable {index sub : Nat} {inTx : Bool} (writable : s.writable index sub inTx = Status.OK) :
    s.waitFor index sub = none := by
  by_contra waits
  have waits : (s.waitFor index sub).isSome = true := Option.isSome_iff_ne_none.2 waits
  unfold State.writable at writable
  split at writable
  · split at writable <;> exact absurd writable (by decide)
  · rw [waits] at writable
    split at writable
    · exact absurd writable (by decide)
    · rw [if_pos rfl] at writable
      exact absurd writable (by decide)

/-- A commit of one item whose check succeeds. -/
theorem State.commitAll_one {i : StagedItem} (fixed : i.domain = false) (ready : s.waitFor i.index i.sub = none)
    (done : (((s.presetAll [i]).commitItem s [i] i)).dict.lastStatus = Status.OK) :
    s.commitAll [i] = (((s.presetAll [i]).commitItem s [i] i).status Status.OK, none) := by
  have applied : State.commitItems s [i] [i] (s.presetAll [i]) = ((s.presetAll [i]).commitItem s [i] i, none) := by
    rw [State.commitItems, if_neg (by simp [fixed]), if_neg (by simp [ready])]
    dsimp only
    rw [if_pos done, State.commitItems]
  unfold State.commitAll
  rw [applied]

/-- A write of FAB_SNAP_RELEASE with the value 1, and the item that it commits. -/
def releaseWrite : WriteItem := { index := 0x2011, sub := 5, type := 1, value := [1] }
def releaseItem : StagedItem := { index := 0x2011, sub := 5, domain := false, value := [1] }

theorem State.commitAll_release (ready : s.waitFor 0x2011 5 = none) : s.commitAll [releaseItem] =
    ({ s with fab := { s.fab with snapshot := none } }.status Status.OK, none) := by
  have preset : s.presetAll [releaseItem] = s := rfl
  have item : s.commitItem s [releaseItem] releaseItem =
      ({ s with fab := { s.fab with snapshot := none } }.status Status.OK).status Status.OK := rfl
  rw [State.commitAll_one rfl ready (by rw [preset, item]; rfl), preset, item]
  rfl

theorem State.serveWrite_release (outside : rq.txId = 0) (writable : s.writable 0x2011 5 false = Status.OK)
    (unclaimed : s.claimer 0x2011 5 = none) :
    s.serveWrite rq [releaseWrite] =
      ({ s with fab := { s.fab with snapshot := none } }.status Status.OK,
        { count := 1, body := writeEntry releaseWrite Status.OK }) := by
  obtain ⟨r, row, checks⟩ : ∃ r, objRow releaseWrite.index releaseWrite.sub = some r ∧
      ∀ p, r.check p releaseWrite.type releaseWrite.value = Status.OK := ⟨_, rfl, fun p => rfl⟩
  have writable' : s.writable releaseWrite.index releaseWrite.sub false = Status.OK := writable
  have unclaimed' : s.claimer releaseWrite.index releaseWrite.sub = none := unclaimed
  have does : s.writeItem releaseWrite =
      (Status.OK, { s with fab := { s.fab with snapshot := none } }.status Status.OK) := by
    unfold State.writeItem
    dsimp only
    rw [row, writable']
    dsimp only
    rw [if_neg (by simp), if_neg (fun bad => bad (checks _)), if_neg (by simp [unclaimed'])]
    exact congrArg (fun p : State × Option (StagedItem × Nat) => ((p.2.map Prod.snd).getD Status.OK, p.1))
      (State.commitAll_release (State.waitFor_of_writable writable))
  rw [State.serveWrite, if_pos outside]
  exact State.writeItems_one does (by decide)

/-! ### Requests of a slot -/

section
variable (session : rq.session = .slot n) (inside : n < 16) (served : s.slotsServed = true)
  (free : s.slotWaits n = false)
include session inside served free

theorem exec_begin_room (room : s.dict.txs.length < 8) : exec (.begin cyc rq) s =
    .next (({ s.received cyc with dict := { (s.received cyc).dict with
      txs := s.dict.txs ++ [{ id := s.dict.freeId, session := rq.session }]
      nextId := s.dict.freeId % 65535 + 1 } } : State).slotAnswered n
        (Answer.message { tx := some s.dict.freeId } 0x10 rq.reqId rq.txId)).beginCommanded := by
  have serves := State.serveBegin_room (s := s.received cyc) (rq := rq) room
  refine (State.request_slot (op := .begin) session inside served free rfl).trans ?_
  rw [State.answerTo_now (op := .begin) session (congrArg (fun p : State × Answer => (p.1, some p.2)) serves)
    (Nat.zero_le _)]
  rfl

theorem exec_write_stages {w : WriteItem} {r : ObjRow} (inTx : rq.txId ≠ 0)
    (found : s.dict.txs.find? (·.id = rq.txId) = some x) (own : x.session = rq.session) (isOpen : x.state = .opn)
    (shaped : (DapOp.write [w]).shaped = true) (row : objRow w.index w.sub = some r)
    (writable : (s.stamp cyc).writable w.index w.sub true = Status.OK)
    (value : r.check s.part w.type w.value = Status.OK) (mine : ∀ k, s.claimer w.index w.sub = some k → k = x.id)
    (room : x.items.length < 256) : exec (.write cyc rq [w]) s = .next ((((s.received cyc).touchTx rq).modTx x.id
      (Tx.stage · (stagedWrite w))).slotAnswered n
        (Answer.message { count := 1, body := writeEntry w Status.OK } 2 rq.reqId rq.txId)).beginCommanded := by
  have serves := State.serveWrite_stages (s := s.received cyc) inTx found own isOpen row
    ((s.received_writable cyc w.index w.sub true).trans writable) value mine room
  refine (State.request_slot session inside served free shaped).trans ?_
  rw [State.answerTo_now (op := .write [w]) session (congrArg (fun p : State × Answer => (p.1, some p.2)) serves)
    (by rw [writeEntry_length]; decide)]
  rfl

theorem exec_writeSegment_first {index sub total : Nat} {data : List Byte} {r : ObjRow} (inTx : rq.txId ≠ 0)
    (found : s.dict.txs.find? (·.id = rq.txId) = some x) (own : x.session = rq.session) (isOpen : x.state = .opn)
    (some_ : 1 ≤ data.length) (short : data.length ≤ 1024)
    (row : objRow index sub = some r) (domain : r.type = .domain)
    (writable : (s.stamp cyc).writable index sub true = Status.OK)
    (unclaimed : s.claimer index sub = none) (within : data.length ≤ total)
    (range : r.range.holds s.part total = true)
    (room : x.items.length < 256) (exempt : ownArea index sub = true) :
    exec (.writeSegment cyc rq index sub true 0 total data) s = .next ((((s.received cyc).touchTx rq).modTx x.id
      (Tx.stage · (wholeItem index sub total data))).slotAnswered n
        (Answer.message {} 4 rq.reqId rq.txId)).beginCommanded := by
  have serves := State.serveWriteSegment_first (s := s.received cyc) inTx found own isOpen row domain
    ((s.received_writable cyc index sub true).trans writable) unclaimed within range room exempt
  refine (State.request_slot session inside served free (by simp [DapOp.shaped, some_, short])).trans ?_
  rw [State.answerTo_now (op := .writeSegment index sub true 0 total data) session
    (congrArg (fun p : State × Answer => (p.1, some p.2)) serves) (Nat.zero_le _)]
  rfl

theorem exec_commit_ahead {at_ k : Nat} (found : s.dict.txs.find? (·.id = rq.txId) = some x)
    (own : x.session = rq.session) (isOpen : x.state = .opn) (ahead : s.tb.ahead at_ = some k) :
    exec (.commit cyc rq at_) s = .next (State.beginCommanded
      { ((s.received cyc).touchTx rq).modTx x.id ((s.received cyc).scheduled rq at_ k) with dict :=
        { (((s.received cyc).touchTx rq).modTx x.id ((s.received cyc).scheduled rq at_ k)).dict with
          commitOrder := s.dict.commitOrder + 1 } }) := by
  have serves := State.serveCommit_ahead (s := s.received cyc) (at_ := at_) found own isOpen ahead
  refine (State.request_slot (op := .commit at_) session inside served free rfl).trans ?_
  rw [State.answerTo_later (op := .commit at_) session serves]
  rfl

theorem exec_rollback_open (found : s.dict.txs.find? (·.id = rq.txId) = some x)
    (own : x.session = rq.session) (isOpen : x.state = .opn) : exec (.rollback cyc rq) s =
      .next (((s.received cyc).rollTx x).slotAnswered n (Answer.message {} 0x12 rq.reqId rq.txId)).beginCommanded := by
  have serves := State.serveRollback_open (s := s.received cyc) found own isOpen
  refine (State.request_slot (op := .rollback) session inside served free rfl).trans ?_
  rw [State.answerTo_now (op := .rollback) session (congrArg (fun p : State × Answer => (p.1, some p.2)) serves)
    (Nat.zero_le _)]
  rfl

theorem exec_write_txRequired {w : WriteItem} {r : ObjRow} (outside : rq.txId = 0)
    (shaped : (DapOp.write [w]).shaped = true) (row : objRow w.index w.sub = some r) (access : r.access = .tx)
    (present : absent s.part w.index w.sub = false) (ready : (s.stamp cyc).waitFor w.index w.sub = none) :
    exec (.write cyc rq [w]) s = .next ((s.received cyc).slotAnswered n (Answer.message
      { status := Status.TX_REQUIRED, count := 1, body := writeEntry w Status.TX_REQUIRED } 2 rq.reqId 0)
      ).beginCommanded := by
  have refused := State.writable_txRequired (s := s.received cyc) row access present
    ((s.received_waitFor cyc w.index w.sub).trans ready)
  have serves : (s.received cyc).serveWrite rq [w] = (s.received cyc,
      { status := Status.TX_REQUIRED, count := 1, body := writeEntry w Status.TX_REQUIRED }) := by
    rw [State.serveWrite, if_pos outside]
    exact State.writeItems_one (State.writeItem_refused refused (by decide)) (by decide)
  refine (State.request_slot session inside served free shaped).trans ?_
  rw [State.answerTo_now (op := .write [w]) session (congrArg (fun p : State × Answer => (p.1, some p.2)) serves)
    (by rw [writeEntry_length]; decide), outside]
  rfl

theorem exec_write_release (outside : rq.txId = 0) (writable : (s.stamp cyc).writable 0x2011 5 false = Status.OK)
    (unclaimed : s.claimer 0x2011 5 = none) :
    exec (.write cyc rq [releaseWrite]) s =
      .next ((({ s.received cyc with fab := { s.fab with snapshot := none } } : State).status Status.OK).slotAnswered n
        (Answer.message { count := 1, body := writeEntry releaseWrite Status.OK } 2 rq.reqId rq.txId)
        ).beginCommanded := by
  have writable' : (s.received cyc).writable 0x2011 5 false = Status.OK := by rwa [State.received_writable]
  have unclaimed' : (s.received cyc).claimer 0x2011 5 = none := unclaimed
  have serves := State.serveWrite_release outside writable' unclaimed'
  refine (State.request_slot session inside served free (by decide)).trans ?_
  rw [State.answerTo_now (op := .write [releaseWrite]) session
    (congrArg (fun p : State × Answer => (p.1, some p.2)) serves) (by rw [writeEntry_length]; decide)]
  rfl

end

/-! ### Expiry -/

theorem exec_txExpire_idle {id : Nat} (found : s.dict.txs.find? (fun x => x.id = id && x.state = .opn &&
    s.reg Reg.HLK_TX_IDLE_LIMIT ≤ x.idle) = some x) :
    exec (.txExpire cyc id) s =
      .next (((s.stamp cyc).rollTx x).raise 0x0B09 x.id (sessionNumber x.session) 0) := by
  have run : exec (.txExpire cyc id) s = execTxExpire cyc id s := rfl
  have found' : (s.stamp cyc).dict.txs.find? (fun x => x.id = id && x.state = .opn &&
    (s.stamp cyc).reg Reg.HLK_TX_IDLE_LIMIT ≤ x.idle) = some x := found
  rw [run, execTxExpire, found']

end

/-- Settles O36: each request by the lemma that says what it does. -/
theorem transactionsAreKept : Obligations.TransactionsAreKept := by
  unfold Obligations.TransactionsAreKept
  refine ⟨fun cyc n rq s session inside present served free => ⟨fun room => ?begin, fun x found own isOpen inTx =>
    ⟨fun w r shaped row writable value mine room => ?write, fun index sub total data r some_ short row domain writable
      unclaimed within range room exempt => ?segment, fun at_ k ahead => ?commit, ?rollback⟩,
    fun index sub type value r outside row access here ready shaped => ?required,
    fun outside writable unclaimed => ?release⟩, fun cyc id x s found => ?expire⟩
  case begin =>
    exact ⟨_, _, exec_begin_room session inside served free room, rfl, rfl, rfl,
      congrArg DictSlot.response (State.slotAnswered_self present _), rfl⟩
  case write =>
    have name : x.id = rq.txId := by simpa using List.find?_some found
    have touched := State.touchTx_find (s := s.received cyc) found own
    rw [← name] at touched
    refine ⟨_, _, Tx.stage { x with idle := 0 } (stagedWrite w),
      exec_write_stages session inside served free inTx found own isOpen shaped row writable value mine room, rfl, ?_,
      (Tx.stage_state _ _).trans isOpen, Tx.stagedAt_stage _ _, s.staged_slotAnswered_rest cyc n x.id rq _ _⟩
    rw [← name]
    exact State.modTx_find touched fun y => y.stage_id _
  case segment =>
    have name : x.id = rq.txId := by simpa using List.find?_some found
    have touched := State.touchTx_find (s := s.received cyc) found own
    rw [← name] at touched
    refine ⟨_, _, Tx.stage { x with idle := 0 } (wholeItem index sub total data),
      exec_writeSegment_first session inside served free inTx found own isOpen some_ short row domain writable unclaimed
        within range room exempt, rfl, ?_, Tx.stagedAt_stage _ _, s.staged_slotAnswered_rest cyc n x.id rq _ _⟩
    rw [← name]
    exact State.modTx_find touched fun y => y.stage_id _
  case commit =>
    have name : x.id = rq.txId := by simpa using List.find?_some found
    have touched := State.touchTx_find (s := s.received cyc) found own
    rw [← name] at touched
    refine ⟨_, _, (s.received cyc).scheduled rq at_ k { x with idle := 0 },
      exec_commit_ahead session inside served free found own isOpen ahead, rfl, ?_, rfl, rfl, rfl, rfl, rfl, rfl,
      rfl, rfl, rfl⟩
    rw [← name]
    exact State.modTx_find touched fun y => rfl
  case rollback =>
    obtain ⟨ended, rolled⟩ := (s.received cyc).rollTx_eq x
    refine ⟨_, _, exec_rollback_open session inside served free found own isOpen, rfl, ?_⟩
    rw [rolled]
    exact ⟨rfl, rfl, rfl⟩
  case required =>
    refine ⟨_, _, exec_write_txRequired session inside served free outside shaped row access here ready, rfl, ?_,
      s.received_slotAnswered_rest cyc n _⟩
    rw [State.slotAnswered_self (s := s.received cyc) present]
    rfl
  case release =>
    exact ⟨_, _, exec_write_release session inside served free outside writable unclaimed, rfl, rfl, rfl⟩
  case expire =>
    obtain ⟨ended, rolled⟩ := (s.stamp cyc).rollTx_eq x
    refine ⟨_, exec_txExpire_idle found, ?_, ?_, ?_⟩
    · rw [State.raise_dict, rolled]
      rfl
    · rw [State.raise_dict, rolled]
      rfl
    · refine (congrArg (fun t : State => { t with dict := s.dict, srv := s.srv, tb := s.tb })
        (((s.stamp cyc).rollTx x).raise_rest 0x0B09 x.id (sessionNumber x.session) 0)).trans ?_
      rw [rolled]
      rfl

end Sys2Proof.Machine
end

section
/-! PROOFS. OBJECT_WRITE of a setting (R476, R480, R489). -/

namespace Sys2Proof.Machine

section
variable {s : State} {cyc index sub : Nat} {value : List Byte}

/-- The settings of the statement: FAB_JOIN_GUARD, MXE_CHECK_TOL and SYN_GUARD_DEFAULT. -/
def plainSettings : List (Nat × Nat) := [(0x2010, 3), (0x2020, 2), (0x2060, 1)]

/-- The item of a setting that is written. -/
def settingItem (index sub : Nat) (value : List Byte) : StagedItem :=
  { index := index, sub := sub, domain := false, value := value }

/-- A plain setting has a row that is written in a transaction and holds no DOMAIN. -/
theorem plainSettings_row (mem : (index, sub) ∈ plainSettings) :
    ∃ r, objRow index sub = some r ∧ r.type ≠ .domain := by
  simp only [plainSettings, List.mem_cons, Prod.mk.injEq, List.not_mem_nil, or_false] at mem
  rcases mem with ⟨rfl, rfl⟩ | ⟨rfl, rfl⟩ | ⟨rfl, rfl⟩ <;> exact ⟨_, rfl, by decide⟩

/-- A plain setting is in force for the checks of its own commit. -/
theorem State.presetAll_plain (s : State) (mem : (index, sub) ∈ plainSettings) (value : List Byte) :
    s.presetAll [settingItem index sub value] = s.setReg (256 * index + sub) (ofLe value) := by
  simp only [plainSettings, List.mem_cons, Prod.mk.injEq, List.not_mem_nil, or_false] at mem
  rcases mem with ⟨rfl, rfl⟩ | ⟨rfl, rfl⟩ | ⟨rfl, rfl⟩ <;> rfl

/-- The commit of a plain setting checks nothing more. -/
theorem State.commitItem_plain (s t : State) (mem : (index, sub) ∈ plainSettings) (value : List Byte) :
    t.commitItem s [settingItem index sub value] (settingItem index sub value) = t.status Status.OK := by
  simp only [plainSettings, List.mem_cons, Prod.mk.injEq, List.not_mem_nil, or_false] at mem
  rcases mem with ⟨rfl, rfl⟩ | ⟨rfl, rfl⟩ | ⟨rfl, rfl⟩ <;> rfl

theorem State.commitAll_plain (mem : (index, sub) ∈ plainSettings) (ready : s.waitFor index sub = none) :
    (s.commitAll [settingItem index sub value]).1 =
      (s.setReg (256 * index + sub) (ofLe value)).status Status.OK := by
  rw [State.commitAll_one rfl ready (by rw [State.commitItem_plain _ _ mem]; rfl), State.commitItem_plain _ _ mem,
    State.presetAll_plain s mem]
  rfl

theorem exec_objectWrite_plain (mem : (index, sub) ∈ plainSettings)
    (writable : (s.stamp cyc).writable index sub true = Status.OK)
    (good : ∀ r, objRow index sub = some r → r.check s.part r.type.code value = Status.OK)
    (unclaimed : s.claimer index sub = none) : exec (.objectWrite cyc index sub value) s =
      .next (((s.stamp cyc).setReg (256 * index + sub) (ofLe value)).status Status.OK).beginCommanded := by
  have run : exec (.objectWrite cyc index sub value) s = execObjectWrite cyc index sub value s := rfl
  obtain ⟨r, row, notDomain⟩ := plainSettings_row mem
  have unclaimed' : (s.stamp cyc).claimer index sub = none := unclaimed
  have checked : r.check (s.stamp cyc).part r.type.code value = Status.OK := good r row
  have committed := State.commitAll_plain (value := value) mem (State.waitFor_of_writable writable)
  rw [settingItem] at committed
  rw [run, execObjectWrite]
  dsimp only
  rw [row]
  dsimp only
  rw [writable, if_neg (by simp), if_neg notDomain, checked, if_neg (by simp),
    if_neg (by simp [unclaimed']), if_neg notDomain, committed]

theorem exec_objectWrite_refused (refused : (s.stamp cyc).writable index sub true ≠ Status.OK) :
    exec (.objectWrite cyc index sub value) s =
      .next ((s.stamp cyc).status ((s.stamp cyc).writable index sub true)) := by
  have run : exec (.objectWrite cyc index sub value) s = execObjectWrite cyc index sub value s := rfl
  rw [run, execObjectWrite]
  dsimp only
  split
  · rfl
  · rw [if_pos refused]

end

/-- Settles O37: `exec_objectWrite_plain` for the three settings, `exec_objectWrite_refused` for a refused write. -/
theorem objectWriteSetsOneObject : Obligations.ObjectWriteSetsOneObject := by
  unfold Obligations.ObjectWriteSetsOneObject
  refine ⟨fun cyc index sub value s mem sorted writable good unclaimed => ?_,
    fun cyc index sub value s refused => ?_⟩
  · exact ⟨_, _, exec_objectWrite_plain mem writable good unclaimed, rfl,
      (State.reg_setReg_self (s.stamp cyc) (256 * index + sub) (ofLe value) sorted :),
      fun k other => (State.reg_setReg_ne (s.stamp cyc) (ofLe value) other :), rfl, rfl⟩
  · exact ⟨_, exec_objectWrite_refused refused, rfl, rfl⟩

end Sys2Proof.Machine
end

section
/-! PROOFS. The slots in turn, malformed messages, and the field port (R457, R469 to R471, R475, R478). -/

namespace Sys2Proof.Machine

section
variable {s : State} {cyc n : Nat} {rq : Request}

/-! ### Slots -/

theorem exec_dictSlotPoll (served : s.slotsServed = true) : exec (.dictSlotPoll cyc) s =
    .next ((List.range 16).foldl State.pollSlot (s.stamp cyc)).beginCommanded := by
  have run : exec (.dictSlotPoll cyc) s = execDictSlotPoll cyc s := rfl
  rw [run, execDictSlotPoll, if_pos served]

theorem State.pollSlot_done (done : (lget s.hlk.slots n).seq = (lget s.hlk.slots n).doneSeq) : s.pollSlot n = s := by
  unfold State.pollSlot
  dsimp only
  rw [if_pos (by simp [done])]

theorem State.pollSlot_new {op : DapOp} (free : s.slotWaits n = false)
    (new : (lget s.hlk.slots n).seq ≠ (lget s.hlk.slots n).doneSeq)
    (parsed : parseMessage (lget s.hlk.slots n).request = some op) :
    s.pollSlot n = s.answerTo { session := .slot n, reqId := field (lget s.hlk.slots n).request 4 4
                                txId := field (lget s.hlk.slots n).request 8 2 } op := by
  unfold State.pollSlot
  dsimp only
  rw [if_neg (by simp [new, free]), parsed]

/-- The module once a malformed message has been counted. -/
def State.errorCounted (s : State) (cyc : Nat) : State :=
  { s.stamp cyc with dict := { s.dict with errors := sat 32 (s.dict.errors + 1) } }

theorem exec_dapMessageMalformed_slot (reqId : Nat) (inside : n < 16) (served : s.slotsServed = true)
    (free : s.slotWaits n = false) : exec (.dapMessageMalformed cyc (.slot n) reqId) s =
      .next ((s.errorCounted cyc).slotAnswered n ((Answer.refuse Status.MESSAGE_INVALID).message
        (field (lget s.hlk.slots n).request 3 1) reqId (field (lget s.hlk.slots n).request 8 2))) := by
  have run : exec (.dapMessageMalformed cyc (.slot n) reqId) s = execDapMessageMalformed cyc (.slot n) reqId s := rfl
  have served' : (s.stamp cyc).slotsServed = true := served
  have free' : (s.stamp cyc).slotWaits n = false := free
  rw [run, execDapMessageMalformed, onUnit_true (by simpa using inside), if_pos (by simp [served', free'])]
  rfl

/-! ### The field port -/

theorem exec_plcaStatusChange_inCycle (waits : s.dict.field = .waitBeacon) : ∃ sent,
    exec (.plcaStatusChange cyc true) s = .next (({ s.stamp cyc with dict := { s.dict with
      plca := true, field := .inCycle, solicited := true, txFrames := sent } } : State).raise 0x0B0C
        s.dict.nodeId 0 0) := by
  have run : exec (.plcaStatusChange cyc true) s = execPlcaStatusChange cyc true s := rfl
  rw [run]
  unfold execPlcaStatusChange
  rw [waits]
  exact ⟨_, rfl⟩

theorem exec_plcaStatusChange_lost (inCycle : s.dict.field = .inCycle) :
    exec (.plcaStatusChange cyc false) s = .next (({ s.stamp cyc with dict := { s.dict with
      plca := false, field := .waitBeacon, beaconLosses := sat 32 (s.dict.beaconLosses + 1) } } : State).raise 0x0B0B
        s.dict.nodeId 0 0) := by
  have run : exec (.plcaStatusChange cyc false) s = execPlcaStatusChange cyc false s := rfl
  rw [run]
  unfold execPlcaStatusChange
  rw [inCycle]

theorem exec_fieldAddressConflict (inCycle : s.dict.field = .inCycle) (solicited : s.dict.solicited = true) :
    exec (.fieldAddressConflict cyc) s = .next (if s.dict.addressUsed then s
      else (({ s.stamp cyc with dict := { s.dict with field := .fault } } : State).raise 0x0B0D s.dict.nodeId 0 0).raise
        0x0B0B s.dict.nodeId 0 0) := by
  have run : exec (.fieldAddressConflict cyc) s = execFieldAddressConflict cyc s := rfl
  rw [run, execFieldAddressConflict]
  dsimp only
  cases used : s.dict.addressUsed
  · rw [if_pos (by simp [inCycle, solicited]), if_pos inCycle, if_neg Bool.false_ne_true]
  · rw [if_neg (by simp), if_pos rfl]

theorem exec_fieldAddressInUse (inCycle : s.dict.field = .inCycle) (solicited : s.dict.solicited = true) :
    exec .fieldAddressInUse s = .next { s with dict := { s.dict with addressUsed := true } } := by
  have run : exec .fieldAddressInUse s = execFieldAddressInUse s := rfl
  rw [run, execFieldAddressInUse, if_pos (by simp [inCycle, solicited])]

theorem exec_fieldNeighborSolicitation_own (up : s.fieldUp = true) :
    exec (.fieldNeighborSolicitation (ofBe fieldAddress)) s = .next { s with dict := { s.dict with
      advertised := s.dict.advertised + 1, rxFrames := sat 64 (s.dict.rxFrames + 1)
      txFrames := sat 64 (s.dict.txFrames + 1) } } := by
  have run : exec (.fieldNeighborSolicitation (ofBe fieldAddress)) s =
    execFieldNeighborSolicitation (ofBe fieldAddress) s := rfl
  rw [run, execFieldNeighborSolicitation, if_pos (by rw [up]; simp)]

/-- Two events leave everything but the event path. -/
theorem State.raise_raise_rest (s : State) (code a b c code' a' b' c' : Nat) :
    ({ (s.raise code a b c).raise code' a' b' c' with srv := s.srv } : State) = s :=
  (congrArg (fun t : State => { t with srv := s.srv }) ((s.raise code a b c).raise_rest code' a' b' c')).trans
    (s.raise_rest code a b c)

/-! ### A request of the field network (R475) -/

/-- A datagram of the field network has been counted. -/
def State.datagram (s : State) (cyc : Nat) : State :=
  { s.stamp cyc with dict := { s.dict with rxFrames := sat 64 (s.dict.rxFrames + 1) } }

theorem exec_begin_field {a p : Nat} (session : rq.session = .field a p) (good : rq.good = true)
    (unicast : rq.multicast = false) (up : s.fieldUp = true) (booted : 800 ≤ s.boot.slots) (new : s.cached rq = none)
    (settled : s.commitWaits rq = false) :
    exec (.begin cyc rq) s = .next ((s.datagram cyc).answerTo rq .begin).beginCommanded := by
  have run : exec (.begin cyc rq) s = (s.stamp cyc).request rq .begin := rfl
  have up' : (s.stamp cyc).fieldUp = true := up
  have booted' : 800 ≤ (s.stamp cyc).boot.slots := booted
  have serves : (s.datagram cyc).fieldServe rq .begin = (s.datagram cyc).answerTo rq .begin := by
    have new' : (s.datagram cyc).cached rq = none := new
    have settled' : (s.datagram cyc).commitWaits rq = false := settled
    have booted' : ¬ (s.datagram cyc).boot.slots < 800 := Nat.not_lt.2 booted
    unfold State.fieldServe
    rw [new']
    dsimp only
    rw [if_neg (by simp [settled']), if_neg booted']
  rw [run, State.request, session]
  dsimp only
  unfold State.fieldRequest
  rw [if_neg (by simp [up'])]
  dsimp only
  rw [if_neg (by simp [good]), if_neg (by omega), if_neg (by simp [unicast]), if_neg (by decide)]
  exact congrArg (fun t : State => Host.Outcome.next t.beginCommanded) serves

theorem State.answerTo_begin_refused {a p : Nat} (session : rq.session = .field a p)
    (off : s.reg Reg.HLK_FIELD_WRITE_ENABLE = 0) : s.answerTo rq .begin =
      ({ s with dict := { s.dict with requests := sat 64 (s.dict.requests + 1) } } : State).reply
        (s.reg Reg.HLK_FIELD_UDP_PORT) rq.session rq.reqId
        ((Answer.refuse Status.ACCESS).message 0x10 rq.reqId rq.txId) := by
  have refuses : s.handle rq .begin = ({ s with dict := { s.dict with requests := sat 64 (s.dict.requests + 1) } },
      some (.refuse Status.ACCESS)) := by
    unfold State.handle
    rw [session]
    dsimp only
    rw [if_pos (by simp [DapOp.guarded, off])]
  unfold State.answerTo
  rw [refuses]
  rfl

/-- A reply on the field network changes the dictionary alone, and no transaction. -/
theorem State.reply_field_rest {a p : Nat} (session : rq.session = .field a p) (from_ : Nat) (message : List Byte) :
    ∃ d, d.txs = s.dict.txs ∧ s.reply from_ rq.session rq.reqId message = { s with dict := d } := by
  have moved {d : Dict} (txs : d.txs = s.dict.txs) : ∃ e, e.txs = s.dict.txs ∧
      ({ s with dict := d } : State) = { s with dict := e } := ⟨d, txs, rfl⟩
  unfold State.reply
  rw [session]
  dsimp only
  unfold State.sendField
  split <;> exact moved rfl

end

/-- Settles O38: each command by the lemma that says what it does. -/
theorem fieldPortAndSlots : Obligations.FieldPortAndSlots := by
  unfold Obligations.FieldPortAndSlots
  refine ⟨fun cyc s served => exec_dictSlotPoll served, fun n s free => ⟨State.pollSlot_done, fun op new parsed =>
    State.pollSlot_new free new parsed⟩, fun cyc n reqId s inside present served free => ?malformed,
    fun cyc s waits => ?beacon, fun cyc s inCycle => ⟨?lost, fun solicited unused => ⟨?conflict,
      exec_fieldAddressInUse inCycle solicited⟩, fun solicited used => ?settled⟩, fun s up => ?solicited,
    fun cyc a p rq s session good unicast up booted new settled off => ?refused⟩
  case malformed =>
    exact ⟨_, exec_dapMessageMalformed_slot reqId inside served free, rfl,
      State.slotAnswered_self (s := s.errorCounted cyc) present _, rfl⟩
  case beacon =>
    obtain ⟨sent, ran⟩ := exec_plcaStatusChange_inCycle (cyc := cyc) waits
    refine ⟨_, ran, ?_, ?_, ?_, ?_⟩
    · rw [State.raise_dict]
    · rw [State.raise_dict]
    · rw [State.raise_dict]
    · exact congrArg (fun t : State => { t with dict := s.dict, srv := s.srv, tb := s.tb }) (State.raise_rest
        { s.stamp cyc with dict := { s.dict with
          plca := true, field := .inCycle, solicited := true, txFrames := sent } } 0x0B0C s.dict.nodeId 0 0)
  case lost =>
    refine ⟨_, exec_plcaStatusChange_lost inCycle, ?_, ?_, ?_, ?_⟩
    · rw [State.raise_dict]
    · rw [State.raise_dict]
    · rw [State.raise_dict]
      rfl
    · exact congrArg (fun t : State => { t with dict := s.dict, srv := s.srv, tb := s.tb }) (State.raise_rest
        { s.stamp cyc with dict := { s.dict with
          plca := false, field := .waitBeacon, beaconLosses := sat 32 (s.dict.beaconLosses + 1) } }
        0x0B0B s.dict.nodeId 0 0)
  case conflict =>
    refine ⟨_, exec_fieldAddressConflict inCycle solicited, ?_⟩
    rw [if_neg (by simp [unused])]
    refine ⟨?_, ?_⟩
    · rw [State.raise_dict, State.raise_dict]
    · exact congrArg (fun t : State => { t with dict := s.dict, srv := s.srv, tb := s.tb }) (State.raise_raise_rest
        { s.stamp cyc with dict := { s.dict with field := .fault } } 0x0B0D s.dict.nodeId 0 0 0x0B0B s.dict.nodeId 0 0)
  case settled => rw [exec_fieldAddressConflict inCycle solicited, if_pos used]
  case solicited => exact ⟨_, exec_fieldNeighborSolicitation_own up, rfl, rfl, rfl, rfl⟩
  case refused =>
    have answered := State.answerTo_begin_refused (s := s.datagram cyc) session off
    obtain ⟨d, txs, moved⟩ := State.reply_field_rest
      (s := { s.datagram cyc with dict := { (s.datagram cyc).dict with
        requests := sat 64 ((s.datagram cyc).dict.requests + 1) } }) session
      ((s.datagram cyc).reg Reg.HLK_FIELD_UDP_PORT) ((Answer.refuse Status.ACCESS).message 0x10 rq.reqId rq.txId)
    refine ⟨_, _, exec_begin_field session good unicast up booted new settled, rfl, ?_, ?_, ?_⟩
    · rw [answered, moved]
      exact txs
    · rw [answered, State.reply_field session (by exact up)]
      rfl
    · rw [answered, moved]
      rfl

end Sys2Proof.Machine
end

section
/-! PROOFS. Pattern sets of the awl engines and the persistent log (R529, R533, R536). -/

namespace Sys2Proof.Machine

section
variable {s : State} {cyc : Nat} {b : List Byte}

/-! ### Pattern sets -/

/-- A pattern set that has been taken. -/
def State.setTaken (s : State) (b : List Byte) : State :=
  let sets := insertSet (parseAwlSet b) s.ras.sets
  { s with ras := { s.ras with sets := sets, storedSets := sets } }.setBlob Reg.RAS_AWL_LOAD b

theorem State.commitAwlSet_taken (signed : s.sec.verifies .awlSet b = true) (format : awlFormat b = true)
    (version : field b 6 2 = 0x00B1)
    (newer : ∀ y ∈ s.ras.sets, y.id = (parseAwlSet b).id → y.version ≤ (parseAwlSet b).version)
    (few : (s.ras.sets.filter fun y => y.id != (parseAwlSet b).id).length < 4)
    (fits : (parseAwlSet b).size + ((s.ras.sets.filter fun y => y.id != (parseAwlSet b).id).map (·.size)).sum ≤
      4 * 2 ^ 20) :
    s.commitAwlSet b = ((s.setTaken b).raise 0x0D09 0 s.ras.recordSeq 0).status Status.OK := by
  have older : (s.ras.sets.any fun y => y.id = (parseAwlSet b).id && (parseAwlSet b).version < y.version) = false := by
    rw [List.any_eq_false]
    intro y mem
    have := newer y mem
    simp only [Bool.and_eq_true, decide_eq_true_eq, not_and, not_lt]
    exact this
  unfold State.commitAwlSet
  rw [State.verify_accepts signed]
  dsimp only
  rw [older, decide_eq_false (Nat.not_le.2 few), decide_eq_false (Nat.not_lt.2 fits),
    if_neg (by simp [format, version])]
  rfl

/-- A refused set leaves what the check of its signature leaves. -/
theorem State.commitAwlSet_refused (bad : (s.verify .awlSet b).1 = false ∨ awlFormat b = false) :
    s.commitAwlSet b = (s.verify .awlSet b).2.status Status.VALUE_STATE := by
  unfold State.commitAwlSet
  generalize s.verify .awlSet b = v at bad ⊢
  exact if_pos (by rcases bad with bad | bad <;> simp [bad])

theorem State.verify_ras (s : State) (what : Item) (item : List Byte) : (s.verify what item).2.ras = s.ras := by
  unfold State.verify
  split <;> simp

theorem State.verify_blobs (s : State) (what : Item) (item : List Byte) : (s.verify what item).2.blobs = s.blobs := by
  unfold State.verify
  split <;> simp

theorem exec_awlSetLoad (cyc : Nat) (b : List Byte) (s : State) :
    exec (.awlSetLoad cyc b) s = .next ((s.stamp cyc).commitAwlSet b) := rfl

theorem State.setBlob_rest (s : State) (key : Nat) (v : List Byte) :
    ∃ blobs, s.setBlob key v = { s with blobs := blobs } := ⟨_, rfl⟩

/-! ### The persistent log -/

theorem exec_persistWriteComplete_pending (pending : s.ras.persistWrite = some b) :
    exec .persistWriteComplete s = .next { s with ras := { s.ras with
      persist := (s.ras.persist ++ [b]).drop (s.ras.persist.length + 1 - 1024)
      persistWrite := if s.pwr.presenceBroken then none else s.ras.persistQueue.head?
      persistQueue := s.ras.persistQueue.drop 1 } } := by
  have run : exec .persistWriteComplete s = execPersistWriteComplete s := rfl
  rw [run, execPersistWriteComplete, pending]

theorem exec_persistClear (v : Nat) (s : State) : exec (.persistClear v) s = .next (s.commitPersistClear v) := rfl

theorem State.commitPersistClear_refused {v : Nat} (above : 1 < v) :
    s.commitPersistClear v = s.status Status.VALUE_RANGE := by
  match v, above with
  | v + 2, _ => rfl

end

/-- Settles O40: a load by the two lemmas about its commit, the log by the lemmas about its commands. -/
theorem setsAndRecordsAreKept : Obligations.SetsAndRecordsAreKept := by
  unfold Obligations.SetsAndRecordsAreKept
  refine ⟨fun cyc b s format version newer few fits => ⟨_, exec_awlSetLoad cyc b s, fun signed => ?taken,
    fun unsigned => ?unsigned⟩, fun cyc b s format => ⟨_, exec_awlSetLoad cyc b s, ?malformed⟩,
    fun b s pending => ?written, fun s sorted => ?cleared, fun v s above => ?refused⟩
  case taken =>
    obtain ⟨blobs, put⟩ := State.setBlob_rest { s.stamp cyc with ras := { s.ras with
      sets := insertSet (parseAwlSet b) s.ras.sets, storedSets := insertSet (parseAwlSet b) s.ras.sets } }
      Reg.RAS_AWL_LOAD b
    have taken : (s.stamp cyc).setTaken b = { s.stamp cyc with
      ras := { s.ras with
        sets := insertSet (parseAwlSet b) s.ras.sets, storedSets := insertSet (parseAwlSet b) s.ras.sets }
      blobs := blobs } := put
    rw [State.commitAwlSet_taken (s := s.stamp cyc) signed format version newer few fits, taken]
    refine ⟨?_, ?_, ?_, rfl, ?_⟩
    · rw [State.status_ras, State.raise_ras]
    · rw [State.status_ras, State.raise_ras]
    · rw [State.status_ras, State.raise_ras]
    · exact congrArg (fun t : State => { t with
        ras := s.ras, blobs := s.blobs, srv := s.srv, dict := s.dict, tb := s.tb }) (State.raise_rest
        { s.stamp cyc with
          ras := { s.ras with
            sets := insertSet (parseAwlSet b) s.ras.sets, storedSets := insertSet (parseAwlSet b) s.ras.sets }
          blobs := blobs } 0x0D09 0 s.ras.recordSeq 0)
  case unsigned =>
    have refuses := State.verify_refuses (s := s.stamp cyc) unsigned
    rw [State.commitAwlSet_refused (s := s.stamp cyc) (.inl (by rw [refuses])), refuses]
    refine ⟨?_, ?_, rfl, ?_⟩
    · rw [State.status_ras, State.raise_ras]
      rfl
    · rw [State.status_sec, State.raise_sec]
      rfl
    · rw [State.status_blobs, State.raise_blobs]
      rfl
  case malformed =>
    rw [State.commitAwlSet_refused (s := s.stamp cyc) (.inr format)]
    exact ⟨(s.stamp cyc).verify_ras _ _, rfl, (s.stamp cyc).verify_blobs _ _⟩
  case written =>
    refine ⟨_, exec_persistWriteComplete_pending pending, fun short => ?_, fun full => ?_, rfl, rfl, rfl, rfl⟩
    · dsimp only
      rw [show s.ras.persist.length + 1 - 1024 = 0 by omega, List.drop_zero]
    · dsimp only
      rw [full]
      exact List.drop_append_of_le_length (by omega)
  case cleared =>
    exact ⟨_, exec_persistClear 1 s, rfl, (State.reg_setReg_self { s with ras := { s.ras with persist := [] } }
      Reg.RAS_PERSIST_CLEAR 1 sorted :), rfl, rfl⟩
  case refused => rw [exec_persistClear, State.commitPersistClear_refused above]

end Sys2Proof.Machine
end

section
/-! PROOFS. Power domains: enabling and disabling, starts and stops (R537, R540 to R542). -/

namespace Sys2Proof.Machine

/-- The power state, and whether the module is in service. -/
structure PowerView where
  pwr : Power
  service : ServiceState

/-- The power state and the service state of `s`. -/
def State.powerView (s : State) : PowerView := {
    pwr := s.pwr, service := s.ras.service }

theorem State.fold_powerView (s : State) : s.pwr = s.powerView.pwr ∧ s.ras.service = s.powerView.service := by simp
    [State.powerView]

theorem State.powerView_mk (part : Part) (pending : List Instr) (free : Nat) (regs : KMap Nat) (blobs : KMap (List
    Byte)) (tb : TimeBase) (planner : Planner) (fab : Fabric) (mxe : Engine) (chn : ChainCounters) (mem : Memory)
    (pages : Pages) (store : Store) (srv : Serving) (syn : Sync) (lce : Torus) (dsp : Dispatch) (hlk : HostLink) (dict
    : Dict) (ras : Ras) (pwr : Power) (boot : Boot) (sec : Security) : State.powerView {
    part := part, pending := pending, free := free, regs := regs, blobs := blobs, tb := tb, planner := planner, fab :=
    fab, mxe := mxe, chn := chn, mem := mem, pages := pages, store := store, srv := srv, syn := syn, lce := lce,
    dsp := dsp, hlk := hlk, dict := dict, ras := ras, pwr := pwr, boot := boot, sec := sec } = {
    pwr := pwr, service := ras.service } := rfl

@[simp] theorem State.powerView_ite (c : Prop) [Decidable c] (s t : State) :
    (if c then s else t).powerView = if c then s.powerView else t.powerView := by split <;> rfl

section
variable {α γ : Type} {f : State → α → State} {k : State × γ → α → State × γ} {h : γ × State → α → γ × State}

@[simp] theorem State.powerView_foldl (keeps : ∀ t a, (f t a).powerView = t.powerView) (l : List α) (s : State) :
    (l.foldl f s).powerView = s.powerView := State.keeps_foldl _ keeps l s
@[simp] theorem State.powerView_foldl_fst (keeps : ∀ p a, (k p a).1.powerView = p.1.powerView) (l : List α) (p : State × γ) :
    (l.foldl k p).1.powerView = p.1.powerView := State.keeps_foldl_fst (fun t => t.powerView) keeps l p
@[simp] theorem State.powerView_foldl_snd (keeps : ∀ p a, (h p a).2.powerView = p.2.powerView) (l : List α) (p : γ × State) :
    (l.foldl h p).2.powerView = p.2.powerView := State.keeps_foldl_snd (fun t => t.powerView) keeps l p

end

@[simp] theorem Ras.keep_service (r : Ras) (seq severity : Nat) (b : List Byte) :
    (r.keep seq severity b).service = r.service := by
  unfold Ras.keep Ras.persistRecord
  dsimp only
  (repeat' split) <;> rfl

@[simp] theorem State.raiseFor_powerView (s : State) (code group arg0 arg1 arg2 : Nat) : (s.raiseFor code group arg0
    arg1 arg2).powerView = s.powerView := by
  simp [State.powerView]

@[simp] theorem State.raise_powerView (s : State) (code arg0 arg1 arg2 : Nat) : (s.raise code arg0 arg1
    arg2).powerView = s.powerView := by
  simp [State.powerView]

@[simp] theorem State.modQuad_powerView (s : State) (q : Nat) (f : Quadrant → Quadrant) : (State.modQuad s q
    f).powerView = s.powerView := by
  unfold State.modQuad; simp [State.fold_powerView, State.powerView_mk]

@[simp] theorem State.record_powerView (s : State) (info : RecordInfo) : (State.record s info).powerView = s.powerView := by
  unfold State.record; simp [State.fold_powerView, State.powerView_mk]

@[simp] theorem State.notifyLater_powerView (s : State) (x : Notice) : (State.notifyLater s x).powerView = s.powerView := by
  unfold State.notifyLater; simp [State.fold_powerView, State.powerView_mk]

@[simp] theorem State.freeBuffer_powerView (s : State) (n : Nat) : (State.freeBuffer s n).powerView = s.powerView := by
  unfold State.freeBuffer; simp [State.fold_powerView, State.powerView_mk]

@[simp] theorem State.leaveTemplate_powerView (s : State) (n : Nat) (x : Stream) : (State.leaveTemplate s n
    x).powerView = s.powerView := by
  unfold State.leaveTemplate; dsimp only; (repeat' split) <;> simp [State.fold_powerView, State.powerView_mk]

@[simp] theorem State.dropStream_powerView (s : State) (n : Nat) : (State.dropStream s n).powerView = s.powerView := by
  unfold State.dropStream; (repeat' split) <;> simp [State.fold_powerView, State.powerView_mk]

@[simp] theorem State.endStream_powerView (s : State) (n status : Nat) : (State.endStream s n status).powerView =
    s.powerView := by
  unfold State.endStream; (repeat' split) <;> simp [State.fold_powerView, State.powerView_mk]

@[simp] theorem State.endAll_powerView (s : State) (status : Nat) : (State.endAll s status).powerView = s.powerView := by
  unfold State.endAll; simp [State.fold_powerView, State.powerView_mk]

@[simp] theorem State.breakPass_powerView (s : State) : (State.breakPass s).powerView = s.powerView := by
  unfold State.breakPass; simp [State.fold_powerView, State.powerView_mk]

@[simp] theorem State.setInsole_powerView (s : State) (stack : Nat) (n : Insole) (hbm : List Host.Cell) :
    (State.setInsole s stack n hbm).powerView = s.powerView := by
  unfold State.setInsole; simp [State.fold_powerView, State.powerView_mk]

@[simp] theorem State.modStation_powerView (s : State) (i : Nat) (g : StationRun → StationRun) : (State.modStation s i
    g).powerView = s.powerView := by
  unfold State.modStation; simp [State.fold_powerView, State.powerView_mk]

@[simp] theorem State.progress_powerView (s : State) : (State.progress s).powerView = s.powerView := by
  unfold State.progress; simp [State.fold_powerView, State.powerView_mk]

@[simp] theorem State.portEmit_powerView (s : State) (i : Nat) : (State.portEmit s i).powerView = s.powerView := by
  unfold State.portEmit; dsimp only; (repeat' split) <;> simp [State.fold_powerView, State.powerView_mk]

@[simp] theorem State.modLace_powerView (s : State) (l : Nat) (f : Lace → Lace) : (State.modLace s l f).powerView =
    s.powerView := by
  unfold State.modLace; simp [State.fold_powerView, State.powerView_mk]

@[simp] theorem State.freeSlots_powerView (s : State) (xs : List (Nat × Nat × Bool × Nat)) : (State.freeSlots s
    xs).powerView = s.powerView := by
  unfold State.freeSlots; simp [State.fold_powerView, State.powerView_mk]

@[simp] theorem State.laceDrain_powerView (s : State) (l : Nat) : (State.laceDrain s l).powerView = s.powerView := by
  unfold State.laceDrain; simp [State.fold_powerView, State.powerView_mk]

@[simp] theorem State.laceSend_powerView (s : State) (l : Nat) (x : LaceTx) : (State.laceSend s l x).powerView =
    s.powerView := by
  unfold State.laceSend; simp [State.fold_powerView, State.powerView_mk]

@[simp] theorem State.sendControl_powerView (s : State) (l : Nat) (m : ControlMsg) : (State.sendControl s l
    m).powerView = s.powerView := by
  unfold State.sendControl; simp [State.fold_powerView, State.powerView_mk]

@[simp] theorem State.flood_powerView (s : State) (except_ : Nat) (m : ControlMsg) : (State.flood s except_
    m).powerView = s.powerView := by
  unfold State.flood; simp [State.fold_powerView, State.powerView_mk]

@[simp] theorem State.oweFault_powerView (s : State) (tag : Nat) : (State.oweFault s tag).powerView = s.powerView := by
  unfold State.oweFault; simp [State.fold_powerView, State.powerView_mk, State.modTorus]

@[simp] theorem State.unreachable_powerView (s : State) (h : PacketHeader) : (State.unreachable s h).powerView =
    s.powerView := by
  unfold State.unreachable; simp [State.fold_powerView, State.powerView_mk, State.modTorus]

@[simp] theorem State.forward_powerView (s : State) (h : PacketHeader) (flits : List Flit) (p l : Nat) (turned : Bool)
    (origin : Option (Nat × Nat × Bool)) : (State.forward s h flits p l turned origin).powerView = s.powerView := by
  unfold State.forward; dsimp only; split <;> simp [State.fold_powerView, State.powerView_mk]

@[simp] theorem State.inject_powerView (s : State) (h : PacketHeader) (flits : List Flit) : (State.inject s h
    flits).powerView = s.powerView := by
  unfold State.inject; dsimp only; (repeat' split) <;> simp [State.fold_powerView, State.powerView_mk, State.modTorus]

@[simp] theorem State.sendSync_powerView (s : State) (dest op object arg : Nat) : (State.sendSync s dest op object
    arg).powerView = s.powerView := by
  unfold State.sendSync; simp [State.fold_powerView, State.powerView_mk]

@[simp] theorem State.followSpan_powerView (s : State) : (State.followSpan s).powerView = s.powerView := by
  unfold State.followSpan; simp [State.fold_powerView, State.powerView_mk, State.modTorus]

@[simp] theorem State.setObj_powerView (s : State) (r : ObjRef) (o : SyncObj) : (State.setObj s r o).powerView =
    s.powerView := by
  unfold State.setObj; simp [State.fold_powerView, State.powerView_mk]

@[simp] theorem State.modPart_powerView (s : State) (k : Nat) (f : Participant → Participant) : (State.modPart s k
    f).powerView = s.powerView := by
  unfold State.modPart; simp [State.fold_powerView, State.powerView_mk]

@[simp] theorem State.freeRemote_powerView (s : State) (k cause : Nat) : (State.freeRemote s k cause).powerView =
    s.powerView := by
  unfold State.freeRemote; simp [State.fold_powerView, State.powerView_mk]

@[simp] theorem State.recordRelease_powerView (s : State) (k cause : Nat) : (State.recordRelease s k cause).powerView
    = s.powerView := by
  unfold State.recordRelease; simp [State.fold_powerView, State.powerView_mk]

@[simp] theorem State.endWait_powerView (s : State) (r : ObjRef) (w : WaitReg) (cause : Nat) : (State.endWait s r w
    cause).powerView = s.powerView := by
  unfold State.endWait; simp [State.fold_powerView, State.powerView_mk]

@[simp] theorem State.toModules_powerView (s : State) (ms : List Nat) (op : Nat) (r : ObjRef) (arg : Nat) :
    (State.toModules s ms op r arg).powerView = s.powerView := by
  unfold State.toModules; simp [State.fold_powerView, State.powerView_mk]

@[simp] theorem State.nodeStep_powerView (s : State) (m : NodeMsg) (r : ObjRef) : (State.nodeStep s m r).1.powerView =
    s.powerView := by
  unfold State.nodeStep; dsimp only; (repeat' split) <;> simp [State.fold_powerView, State.powerView_mk]

@[simp] theorem State.nodes_powerView (x0 : Nat) (x1 : List (NodeMsg × ObjRef)) (s : State) : (State.nodes x0 x1
    s).powerView = s.powerView := by
  induction x0 generalizing s x1 with
  | zero => rfl
  | succ f ih =>
    cases x1 with
    | nil => rfl
    | cons e ms => simp [State.nodes, ih]

@[simp] theorem State.nodeMsg_powerView (s : State) (m : NodeMsg) (r : ObjRef) : (State.nodeMsg s m r).powerView =
    s.powerView := by
  unfold State.nodeMsg; simp [State.fold_powerView, State.powerView_mk]

@[simp] theorem State.ownerLost_powerView (s : State) (rs : List ObjRef) : (State.ownerLost s rs).powerView =
    s.powerView := by
  unfold State.ownerLost; simp [State.fold_powerView, State.powerView_mk]

@[simp] theorem State.spanBroken_powerView (s : State) (tag : Nat) : (State.spanBroken s tag).powerView = s.powerView := by
  unfold State.spanBroken; simp [State.fold_powerView, State.powerView_mk]

@[simp] theorem State.settleFault_powerView (s : State) (tag : Nat) : (State.settleFault s tag).powerView =
    s.powerView := by
  unfold State.settleFault; simp [State.fold_powerView, State.powerView_mk, State.modTorus]

@[simp] theorem State.settleFaults_powerView (x0 : Nat) (s : State) : (State.settleFaults x0 s).powerView =
    s.powerView := by
  induction x0 generalizing s with
  | zero => rfl
  | succ f ih =>
    unfold State.settleFaults
    split <;> simp [ih]

@[simp] theorem State.torusDone_powerView (s : State) : (State.torusDone s).powerView = s.powerView := by
  unfold State.torusDone; simp [State.fold_powerView, State.powerView_mk]

@[simp] theorem State.releasePair_powerView (s : State) (step : Nat) : (State.releasePair s step).powerView =
    s.powerView := by
  unfold State.releasePair; (repeat' split) <;> simp [State.fold_powerView, State.powerView_mk]

@[simp] theorem State.loseStep_powerView (s : State) (step : Nat) : (State.loseStep s step).powerView = s.powerView := by
  unfold State.loseStep; (repeat' split) <;> simp [State.fold_powerView, State.powerView_mk]

@[simp] theorem State.modUplink_powerView (s : State) (u : Nat) (f : Uplink → Uplink) : (State.modUplink s u
    f).powerView = s.powerView := by
  unfold State.modUplink; simp [State.fold_powerView, State.powerView_mk, State.modDsp]

@[simp] theorem State.dspSend_powerView (s : State) (sw dest type : Nat) (m : DispatchMsg) : (State.dspSend s sw dest
    type m).powerView = s.powerView := by
  unfold State.dspSend; (repeat' split) <;> simp [State.fold_powerView, State.powerView_mk]

@[simp] theorem State.dspTo_powerView (s : State) (host type : Nat) (m : DispatchMsg) : (State.dspTo s host type
    m).powerView = s.powerView := by
  unfold State.dspTo; (repeat' split) <;> simp [State.fold_powerView, State.powerView_mk]

@[simp] theorem State.cancelBatch_powerView (s : State) (keep : Bool) : (State.cancelBatch s keep).powerView =
    s.powerView := by
  unfold State.cancelBatch; (repeat' split) <;> simp [State.fold_powerView, State.powerView_mk, State.modDsp]

@[simp] theorem State.voidBatch_powerView (s : State) : (State.voidBatch s).powerView = s.powerView := by
  unfold State.voidBatch; simp [State.fold_powerView, State.powerView_mk]

@[simp] theorem State.dropStep_powerView (s : State) (n : Nat) : (State.dropStep s n).powerView = s.powerView := by
  unfold State.dropStep; simp [State.fold_powerView, State.powerView_mk]

@[simp] theorem State.rerunStep_powerView (s : State) (n : Nat) (f : PlanEntry → PlanEntry) : (State.rerunStep s n
    f).powerView = s.powerView := by
  unfold State.rerunStep; (repeat' split) <;> simp [State.fold_powerView, State.powerView_mk]

@[simp] theorem State.rerunOwn_powerView (s : State) (n : Nat) : (State.rerunOwn s n).powerView = s.powerView := by
  unfold State.rerunOwn; simp [State.fold_powerView, State.powerView_mk]

@[simp] theorem State.cancelReads_powerView (s : State) : (State.cancelReads s).powerView = s.powerView := by
  unfold State.cancelReads; simp [State.fold_powerView, State.powerView_mk]

@[simp] theorem State.startVoid_powerView (s : State) (cause : Nat) : (State.startVoid s cause).powerView =
    s.powerView := by
  unfold State.startVoid; simp [State.fold_powerView, State.powerView_mk]

@[simp] theorem State.modModule_powerView (s : State) (m : Nat) (f : UcieModule → UcieModule) : (State.modModule s m
    f).powerView = s.powerView := by
  unfold State.modModule; simp [State.fold_powerView, State.powerView_mk]

@[simp] theorem State.unseal_powerView (s : State) (step : Nat) : (State.unseal s step).powerView = s.powerView := by
  unfold State.unseal; (repeat' split) <;> simp [State.fold_powerView, State.powerView_mk]

@[simp] theorem State.loseEvent_powerView (s : State) : (State.loseEvent s).powerView = s.powerView := by
  unfold State.loseEvent; simp [State.fold_powerView, State.powerView_mk]

@[simp] theorem State.stationWrote_powerView (s : State) (i : Nat) : (State.stationWrote s i).powerView = s.powerView := by
  unfold State.stationWrote; simp [State.fold_powerView, State.powerView_mk]

@[simp] theorem State.hostFailed_powerView (s : State) (a : HostAccess) : (State.hostFailed s a).powerView =
    s.powerView := by
  unfold State.hostFailed; (repeat' split) <;> simp [State.fold_powerView, State.powerView_mk]

@[simp] theorem State.refuseAccess_powerView (s : State) (a : HostAccess) : (State.refuseAccess s a).powerView =
    s.powerView := by
  unfold State.refuseAccess; simp [State.fold_powerView, State.powerView_mk]

@[simp] theorem State.hostRefused_powerView (s : State) (a : HostAccess) : (State.hostRefused s a).powerView =
    s.powerView := by
  unfold State.hostRefused; simp [State.fold_powerView, State.powerView_mk]

@[simp] theorem State.hostTranslated_powerView (s : State) (a : HostAccess) (e : BitVec 64) : (State.hostTranslated s
    a e).powerView = s.powerView := by
  unfold State.hostTranslated; (repeat' split) <;> simp [State.fold_powerView, State.powerView_mk]

@[simp] theorem State.hostTranslate_powerView (s : State) (a : HostAccess) : (State.hostTranslate s a).powerView =
    s.powerView := by
  unfold State.hostTranslate; dsimp only; (repeat' split) <;> simp [State.fold_powerView, State.powerView_mk]

@[simp] theorem State.hostIssue_powerView (s : State) (a : HostAccess) : (State.hostIssue s a).powerView = s.powerView := by
  unfold State.hostIssue; (repeat' split) <;> simp [State.fold_powerView, State.powerView_mk]

@[simp] theorem State.pump_powerView (s : State) : (State.pump s).powerView = s.powerView := by
  unfold State.pump; (repeat' split) <;> simp [State.fold_powerView, State.powerView_mk]

@[simp] theorem State.chain_powerView (s : State) (ws : List HostAccess) : (State.chain s ws).powerView = s.powerView := by
  unfold State.chain; simp [State.fold_powerView, State.powerView_mk]

@[simp] theorem State.endRead_powerView (s : State) : (State.endRead s).powerView = s.powerView := by
  unfold State.endRead; simp [State.fold_powerView, State.powerView_mk]

@[simp] theorem State.translationDone_powerView (s : State) (die entry : Nat) (e : BitVec 64) : (State.translationDone
    s die entry e).powerView = s.powerView := by
  unfold State.translationDone; simp [State.fold_powerView, State.powerView_mk]

@[simp] theorem State.hostLost_powerView (s : State) (a : HostAccess) : (State.hostLost s a).powerView = s.powerView := by
  unfold State.hostLost; (repeat' split) <;> simp [State.fold_powerView, State.powerView_mk]

@[simp] theorem State.finishOp_powerView (s : State) (result : Nat) : (State.finishOp s result).powerView =
    s.powerView := by
  unfold State.finishOp; simp [State.fold_powerView, State.powerView_mk]

@[simp] theorem State.loseBundle_powerView (s : State) : (State.loseBundle s).powerView = s.powerView := by
  unfold State.loseBundle; (repeat' split) <;> simp [State.fold_powerView, State.powerView_mk]

@[simp] theorem State.linkDown_powerView (s : State) : (State.linkDown s).powerView = s.powerView := by
  unfold State.linkDown; simp [State.fold_powerView, State.powerView_mk]

@[simp] theorem State.linkState_powerView (s : State) : (State.linkState s).powerView = s.powerView := by
  unfold State.linkState; simp [State.fold_powerView, State.powerView_mk]

@[simp] theorem State.failModule_powerView (s : State) (m : Nat) (next : UcieState) : (State.failModule s m
    next).powerView = s.powerView := by
  unfold State.failModule; simp [State.fold_powerView, State.powerView_mk]

@[simp] theorem State.linkOff_powerView (s : State) : (State.linkOff s).powerView = s.powerView := by
  unfold State.linkOff; simp [State.fold_powerView, State.powerView_mk]

@[simp] theorem State.linkOn_powerView (s : State) : (State.linkOn s).powerView = s.powerView := by
  unfold State.linkOn; simp [State.fold_powerView, State.powerView_mk]

@[simp] theorem State.modStoreStack_powerView (s : State) (n : Nat) (f : StoreStack → StoreStack) :
    (State.modStoreStack s n f).powerView = s.powerView := by
  unfold State.modStoreStack; simp [State.fold_powerView, State.powerView_mk]

@[simp] theorem State.viewChanged_powerView (s before : State) : (State.viewChanged s before).powerView = s.powerView := by
  unfold State.viewChanged; simp [State.fold_powerView, State.powerView_mk]

@[simp] theorem State.eyeletOn_powerView (s : State) (e : Nat) : (State.eyeletOn s e).powerView = s.powerView := by
  unfold State.eyeletOn; simp [State.fold_powerView, State.powerView_mk]

@[simp] theorem State.eyeletOff_powerView (s : State) (e : Nat) : (State.eyeletOff s e).powerView = s.powerView := by
  unfold State.eyeletOff; simp [State.fold_powerView, State.powerView_mk]

@[simp] theorem State.dropIncoming_powerView (s : State) : (State.dropIncoming s).powerView = s.powerView := by
  unfold State.dropIncoming; simp [State.fold_powerView, State.powerView_mk]

@[simp] theorem State.refuseHeld_powerView (s : State) : (State.refuseHeld s).powerView = s.powerView := by
  unfold State.refuseHeld; simp [State.fold_powerView, State.powerView_mk]

@[simp] theorem State.endSwitch_powerView (s : State) (result : Nat) : (State.endSwitch s result).powerView =
    s.powerView := by
  unfold State.endSwitch; simp [State.fold_powerView, State.powerView_mk]

@[simp] theorem State.storeLost_powerView (s : State) : (State.storeLost s).powerView = s.powerView := by
  unfold State.storeLost; simp [State.fold_powerView, State.powerView_mk]

@[simp] theorem State.abandonOp_powerView (s : State) : (State.abandonOp s).powerView = s.powerView := by
  unfold State.abandonOp; simp [State.fold_powerView, State.powerView_mk]

@[simp] theorem State.quiesce_powerView (s : State) : (State.quiesce s).powerView = s.powerView := by
  unfold State.quiesce; simp [State.fold_powerView, State.powerView_mk]

@[simp] theorem State.clearQuad_powerView (s : State) (q : Nat) : (State.clearQuad s q).powerView = s.powerView := by
  unfold State.clearQuad; simp [State.fold_powerView, State.powerView_mk]

@[simp] theorem State.loseStack_powerView (s : State) (n : Nat) (state : StackState) : (State.loseStack s n
    state).powerView = s.powerView := by
  unfold State.loseStack; simp [State.fold_powerView, State.powerView_mk]

@[simp] theorem State.stackOff_powerView (s : State) (n : Nat) : (State.stackOff s n).powerView = s.powerView := by
  unfold State.stackOff; simp [State.fold_powerView, State.powerView_mk]

@[simp] theorem State.storeOff_powerView (s : State) (g : Nat) : (State.storeOff s g).powerView = s.powerView := by
  unfold State.storeOff; simp [State.fold_powerView, State.powerView_mk]

@[simp] theorem State.unitsOff_powerView (s : State) (d : Nat) : (State.unitsOff s d).powerView = s.powerView := by
  unfold State.unitsOff
  (repeat' split) <;> simp [State.fold_powerView, State.powerView_mk]

/-! ### One domain -/

section
variable {s t : State} {cyc d : Nat}

theorem State.domain_modDomain_self (present : d < s.pwr.domains.length) (g : Domain → Domain) :
    (s.modDomain d g).domain d = g (s.domain d) := lget_lmod_self present g

theorem State.domain_modDomain_ne {k : Nat} (other : k ≠ d) (g : Domain → Domain) :
    (s.modDomain d g).domain k = s.domain k := lget_lmod_ne _ other g

theorem State.domain_of_pwr (same : t.pwr = s.pwr) (k : Nat) : t.domain k = s.domain k := by
  rw [State.domain, State.domain, same]

theorem State.pwr_of_powerView (same : t.powerView = s.powerView) : t.pwr = s.pwr := congrArg PowerView.pwr same

/-! ### What a domain holds goes into and out of service -/

theorem State.judgeService_pwr (s : State) : s.judgeService.pwr = s.pwr := by
  unfold State.judgeService
  (repeat' split) <;> simp

theorem State.judgeService_quad (s : State) (k : Nat) : s.judgeService.quad k = s.quad k := by
  unfold State.judgeService State.quad
  (repeat' split) <;> simp

theorem State.unitsOn_pwr (s : State) (d : Nat) : (s.unitsOn d).pwr = s.pwr := by
  unfold State.unitsOn
  split
  · rw [State.judgeService_pwr]
    exact State.pwr_of_powerView (by simp)
  · (repeat' split) <;> exact State.pwr_of_powerView (by simp)

/-- The quadrant of a domain that is on is FENCED (Table 17-4). -/
theorem State.unitsOn_quad (quadrant : d < 8) (present : d < s.ras.quads.length) :
    ((s.unitsOn d).quad d).state = .fenced := by
  have present : d < (s.clearQuad d).ras.quads.length := present
  rw [State.unitsOn, if_pos quadrant, State.judgeService_quad, State.quad_modQuad_self _ present]

/-- With the host link's domain on, no module of it is OFF. -/
theorem State.unitsOn_link (s : State) : ∀ u ∈ (s.unitsOn 18).hlk.modules, u.state ≠ .off := by
  intro u mem
  obtain ⟨v, -, rfl⟩ := List.mem_map.1 mem
  split
  · nofun
  · next powered => exact powered

theorem State.unitsOff_pwr (s : State) (d : Nat) : (s.unitsOff d).pwr = s.pwr :=
  State.pwr_of_powerView (s.unitsOff_powerView d)

theorem State.stopDomain_domain_self (present : d < s.pwr.domains.length) : (s.stopDomain d).domain d =
    { s.domain d with state := .stopping, disableAsked := false, pending := 0, since := s.clock } := by
  rw [State.stopDomain, State.domain_of_pwr (State.unitsOff_pwr _ _), State.domain_modDomain_self present]

theorem State.stopDomain_domain_ne {k : Nat} (other : k ≠ d) : (s.stopDomain d).domain k = s.domain k := by
  rw [State.stopDomain, State.domain_of_pwr (State.unitsOff_pwr _ _), State.domain_modDomain_ne other]

/-! ### Enables and disables (R540, R541) -/

theorem exec_domainEnable (inside : d < 20) :
    exec (.domainEnable cyc d) s = .next ((s.stamp cyc).commitDomain d 1) := by
  have run : exec (.domainEnable cyc d) s = execDomainEnable cyc d s := rfl
  rw [run, execDomainEnable, onUnit_true (by simpa using inside)]

theorem exec_domainDisable (inside : d < 20) :
    exec (.domainDisable cyc d) s = .next ((s.stamp cyc).commitDomain d 2) := by
  have run : exec (.domainDisable cyc d) s = execDomainDisable cyc d s := rfl
  rw [run, execDomainDisable, onUnit_true (by simpa using inside)]

/-- A command of a domain that succeeds. -/
def State.domainTaken (t : State) (d value : Nat) : State :=
  (t.setReg (Reg.PWR_DOMAIN_CMD + 256 * d) value).status Status.OK

theorem State.commitDomain_enabled (enables : s.enableDomain d = (Status.OK, t)) :
    s.commitDomain d 1 = t.domainTaken d 1 := by
  unfold State.commitDomain
  dsimp only
  rw [enables]
  rfl

theorem State.commitDomain_disabled (disables : s.disableDomain d = (Status.OK, t)) :
    s.commitDomain d 2 = t.domainTaken d 2 := by
  unfold State.commitDomain
  dsimp only
  rw [disables]
  rfl

theorem State.enableDomain_off (off : (s.domain d).state = .off) (xu : s.xuFor d = true) (going : s.pwr.stopping = none)
    (powered : s.pwr.shutDown = false) (seated : s.pwr.ejectReady = false) :
    s.enableDomain d = (Status.OK, if (s.domain d).minOff then s.addPending d else s.startDomain d) := by
  unfold State.enableDomain
  dsimp only
  rw [if_neg (by simp [off]), if_neg (by simp [xu, going, powered, seated]), off]

theorem State.commitDomain_unpopulated (absent : (s.domain d).state = .unpopulated) :
    s.commitDomain d 1 = s.status Status.NOT_PRESENT ∧ s.commitDomain d 2 = s.status Status.NOT_PRESENT := by
  have enables : s.enableDomain d = (Status.NOT_PRESENT, s) := if_pos absent
  have disables : s.disableDomain d = (Status.NOT_PRESENT, s) := if_pos absent
  unfold State.commitDomain
  dsimp only
  rw [enables, disables]
  exact ⟨rfl, rfl⟩

theorem State.disableDomain_on (settled : (s.domain d).pending = 0) (may : s.mayDisable d = true)
    (on : (s.domain d).state = .on) : s.disableDomain d = (Status.OK, s.stopDomain d) := by
  unfold State.disableDomain
  dsimp only
  rw [if_neg (by simp [on]), if_neg (by simp [settled]), if_neg (by simp [may]), on]

theorem State.disableDomain_starting (settled : (s.domain d).pending = 0) (may : s.mayDisable d = true)
    (starting : (s.domain d).state = .starting) :
    s.disableDomain d = (Status.OK, s.modDomain d fun y => { y with disableAsked := true }) := by
  unfold State.disableDomain
  dsimp only
  rw [if_neg (by simp [starting]), if_neg (by simp [settled]), if_neg (by simp [may]), starting]

/-! ### Starts, stops and the minimum off time (R541, R542) -/

/-- A start that waited for XU begins. -/
def State.startPending (t : State) (d : Nat) : State :=
  if (t.domain d).state = .off && (t.domain d).pending != 0 && !(t.domain d).minOff then t.startDomain d else t

theorem State.foldl_startPending_domain {k : Nat} (l : List Nat) (apart : k ∉ l) (t : State) :
    (l.foldl State.startPending t).domain k = t.domain k := by
  induction l generalizing t with
  | nil => rfl
  | cons d ds ih =>
    obtain ⟨other, apart⟩ := List.ne_and_not_mem_of_not_mem_cons apart
    rw [List.foldl_cons, ih apart, State.startPending]
    split
    · exact State.domain_modDomain_ne other _
    · rfl

theorem exec_domainStartComplete_on (inside : d < 20) (starting : (s.domain d).state = .starting)
    (wanted : (s.domain d).disableAsked = false) : exec (.domainStartComplete cyc d) s = .next (
      let t := ((s.stamp cyc).modDomain d fun x => { x with state := .on }).unitsOn d
      if d = 19 then (List.range 19).foldl State.startPending t else t) := by
  have run : exec (.domainStartComplete cyc d) s = execDomainStartComplete cyc d s := rfl
  rw [run, execDomainStartComplete, onUnit_true (by simpa using inside), starting]
  dsimp only
  rw [if_neg (by simp [wanted])]
  rfl

theorem exec_domainStopComplete_off (inside : d < 20) (stopping : (s.domain d).state = .stopping) :
    exec (.domainStopComplete cyc d) s = .next ((s.stamp cyc).modDomain d fun x =>
      { x with state := .off, minOff := true, since := (s.stamp cyc).clock }).stopOn := by
  have run : exec (.domainStopComplete cyc d) s = execDomainStopComplete cyc d s := rfl
  rw [run, execDomainStopComplete, onUnit_true (by simpa using inside), stopping]

theorem exec_minOffTimeExpiry_over (inside : d < 20) (off : (s.domain d).state = .off)
    (waits : (s.domain d).minOff = true) (elapsed : (s.domain d).since + 250000 ≤ (s.stamp cyc).clock) : exec (.minOffTimeExpiry cyc d) s = .next (
      let t := (s.stamp cyc).modDomain d fun y => { y with minOff := false }
      if (s.domain d).pending ≠ 0 && s.xuFor d then t.startDomain d else t) := by
  have run : exec (.minOffTimeExpiry cyc d) s = execMinOffTimeExpiry cyc d s := rfl
  rw [run, execMinOffTimeExpiry, onUnit_true (by simpa using inside), if_neg (by simp [off, waits]; exact elapsed)]

end

/-- Settles O41: each command by the lemma that says what it does. -/
theorem domainsStartAndStop : Obligations.DomainsStartAndStop := by
  unfold Obligations.DomainsStartAndStop
  intro cyc d s inside present
  have present' : d < (s.stamp cyc).pwr.domains.length := present
  refine ⟨fun off xu going powered seated => ?enable, fun absent => ?absent, fun settled may => ⟨fun on => ?stop,
    fun starting => ?ask⟩, fun starting wanted => ?started, fun stopping => ?stopped, fun off waits elapsed => ?minOff⟩
  case enable =>
    have enables := State.enableDomain_off (s := s.stamp cyc) off xu going powered seated
    refine ⟨_, exec_domainEnable inside, ?_⟩
    rw [State.commitDomain_enabled enables]
    cases minOff : (s.domain d).minOff
    · have minOff' : ((s.stamp cyc).domain d).minOff = false := minOff
      rw [minOff', if_neg Bool.false_ne_true]
      exact ⟨fun _ => (State.domain_modDomain_self present' _).trans (by rw [← minOff]; rfl), nofun,
        fun k other => (State.domain_modDomain_ne other _ :), rfl, rfl⟩
    · have minOff' : ((s.stamp cyc).domain d).minOff = true := minOff
      rw [minOff', if_pos rfl]
      exact ⟨nofun, fun _ => (State.domain_modDomain_self present' _ :),
        fun k other => (State.domain_modDomain_ne other _ :), rfl, rfl⟩
  case absent =>
    obtain ⟨enable, disable⟩ := State.commitDomain_unpopulated (s := s.stamp cyc) absent
    exact ⟨by rw [exec_domainEnable inside, enable], by rw [exec_domainDisable inside, disable]⟩
  case stop =>
    refine ⟨_, exec_domainDisable inside, ?_⟩
    rw [State.commitDomain_disabled (State.disableDomain_on (s := s.stamp cyc) settled may on)]
    exact ⟨congrArg Domain.state (State.stopDomain_domain_self present'), rfl⟩
  case ask =>
    refine ⟨_, exec_domainDisable inside, ?_⟩
    rw [State.commitDomain_disabled (State.disableDomain_starting (s := s.stamp cyc) settled may starting)]
    exact ⟨State.domain_modDomain_self present' _,
      fun k other => State.domain_modDomain_ne (s := s.stamp cyc) other _, rfl⟩
  case started =>
    have isOn : ((((s.stamp cyc).modDomain d fun x => { x with state := .on }).unitsOn d).domain d).state = .on := by
      rw [State.domain_of_pwr (State.unitsOn_pwr _ _), State.domain_modDomain_self present']
    refine ⟨_, exec_domainStartComplete_on inside starting wanted, ?_⟩
    dsimp only
    by_cases xu : d = 19
    · subst xu
      rw [if_pos rfl, State.foldl_startPending_domain _ (by decide)]
      exact ⟨isOn, fun quadrant => absurd quadrant (by decide), fun link => absurd link (by decide)⟩
    · rw [if_neg xu]
      refine ⟨isOn, fun quadrant here => State.unitsOn_quad quadrant here, fun link => ?_⟩
      subst link
      exact State.unitsOn_link _
  case stopped =>
    exact ⟨_, _, exec_domainStopComplete_off inside stopping, rfl, State.domain_modDomain_self present' _,
      fun k other => State.domain_modDomain_ne (s := s.stamp cyc) other _, rfl⟩
  case minOff =>
    refine ⟨_, exec_minOffTimeExpiry_over inside off waits elapsed, ?_⟩
    dsimp only
    have cleared := State.domain_modDomain_self present' fun y => { y with minOff := false }
    have still : d < ((s.stamp cyc).modDomain d fun y => { y with minOff := false }).pwr.domains.length := by
      rw [State.modDomain, lmod, List.length_modify]
      exact present
    by_cases starts : ((s.domain d).pending ≠ 0 && s.xuFor d) = true
    · rw [if_pos starts]
      have begun := State.domain_modDomain_self still fun x => { x with
        state := .starting, pending := 0, minOff := false, disableAsked := false
        since := ((s.stamp cyc).modDomain d fun y => { y with minOff := false }).clock
        starts := sat 32 (x.starts + 1) }
      refine ⟨congrArg Domain.minOff begun, fun idle => ?_, fun _ _ => ⟨congrArg Domain.state begun,
        congrArg Domain.pending begun⟩, fun k other => ?_, rfl⟩
      · simp [idle] at starts
      · exact (State.domain_modDomain_ne other _).trans (State.domain_modDomain_ne (s := s.stamp cyc) other _)
    · rw [if_neg starts]
      refine ⟨congrArg Domain.minOff cleared, fun _ => cleared, fun some_ xu => ?_,
        fun k other => State.domain_modDomain_ne (s := s.stamp cyc) other _, rfl⟩
      simp [some_, xu] at starts

end Sys2Proof.Machine
end

section
/-! PROOFS. Faults, trips and removal: what cuts the power domains, and what is left then (R541, R543, R552, R558, R560,
R616). -/

namespace Sys2Proof.Machine

/-- The host link and the error records. -/
structure HostView where
  hlk : HostLink
  ras : Ras

/-- The host link and the error records of `s`. -/
def State.hostView (s : State) : HostView := {
    hlk := s.hlk, ras := s.ras }

theorem State.fold_hostView (s : State) : s.hlk = s.hostView.hlk ∧ s.ras = s.hostView.ras := by simp [State.hostView]

theorem State.hostView_mk (part : Part) (pending : List Instr) (free : Nat) (regs : KMap Nat) (blobs : KMap (List
    Byte)) (tb : TimeBase) (planner : Planner) (fab : Fabric) (mxe : Engine) (chn : ChainCounters) (mem : Memory)
    (pages : Pages) (store : Store) (srv : Serving) (syn : Sync) (lce : Torus) (dsp : Dispatch) (hlk : HostLink) (dict
    : Dict) (ras : Ras) (pwr : Power) (boot : Boot) (sec : Security) : State.hostView {
    part := part, pending := pending, free := free, regs := regs, blobs := blobs, tb := tb, planner := planner, fab :=
    fab, mxe := mxe, chn := chn, mem := mem, pages := pages, store := store, srv := srv, syn := syn, lce := lce,
    dsp := dsp, hlk := hlk, dict := dict, ras := ras, pwr := pwr, boot := boot, sec := sec } = {
    hlk := hlk, ras := ras } := rfl

@[simp] theorem State.hostView_ite (c : Prop) [Decidable c] (s t : State) :
    (if c then s else t).hostView = if c then s.hostView else t.hostView := by split <;> rfl

section
variable {α γ : Type} {f : State → α → State} {k : State × γ → α → State × γ} {h : γ × State → α → γ × State}

@[simp] theorem State.hostView_foldl (keeps : ∀ t a, (f t a).hostView = t.hostView) (l : List α) (s : State) :
    (l.foldl f s).hostView = s.hostView := State.keeps_foldl _ keeps l s
@[simp] theorem State.hostView_foldl_fst (keeps : ∀ p a, (k p a).1.hostView = p.1.hostView) (l : List α) (p : State × γ) :
    (l.foldl k p).1.hostView = p.1.hostView := State.keeps_foldl_fst (fun t => t.hostView) keeps l p
@[simp] theorem State.hostView_foldl_snd (keeps : ∀ p a, (h p a).2.hostView = p.2.hostView) (l : List α) (p : γ × State) :
    (l.foldl h p).2.hostView = p.2.hostView := State.keeps_foldl_snd (fun t => t.hostView) keeps l p

end

@[simp] theorem State.raiseFor_hostView (s : State) (code group arg0 arg1 arg2 : Nat) : (s.raiseFor code group arg0
    arg1 arg2).hostView = s.hostView := by
  simp [State.hostView]

@[simp] theorem State.raise_hostView (s : State) (code arg0 arg1 arg2 : Nat) : (s.raise code arg0 arg1 arg2).hostView
    = s.hostView := by
  simp [State.hostView]

@[simp] theorem State.breakPass_hostView (s : State) : (State.breakPass s).hostView = s.hostView := by
  unfold State.breakPass; simp [State.fold_hostView, State.hostView_mk]

@[simp] theorem State.progress_hostView (s : State) : (State.progress s).hostView = s.hostView := by
  unfold State.progress; simp [State.fold_hostView, State.hostView_mk]

@[simp] theorem State.modLace_hostView (s : State) (l : Nat) (f : Lace → Lace) : (State.modLace s l f).hostView =
    s.hostView := by
  unfold State.modLace; simp [State.fold_hostView, State.hostView_mk]

@[simp] theorem State.freeSlots_hostView (s : State) (xs : List (Nat × Nat × Bool × Nat)) : (State.freeSlots s
    xs).hostView = s.hostView := by
  unfold State.freeSlots; simp [State.fold_hostView, State.hostView_mk]

@[simp] theorem State.laceDrain_hostView (s : State) (l : Nat) : (State.laceDrain s l).hostView = s.hostView := by
  unfold State.laceDrain; simp [State.fold_hostView, State.hostView_mk]

@[simp] theorem State.laceSend_hostView (s : State) (l : Nat) (x : LaceTx) : (State.laceSend s l x).hostView =
    s.hostView := by
  unfold State.laceSend; simp [State.fold_hostView, State.hostView_mk]

@[simp] theorem State.sendControl_hostView (s : State) (l : Nat) (m : ControlMsg) : (State.sendControl s l m).hostView
    = s.hostView := by
  unfold State.sendControl; simp [State.fold_hostView, State.hostView_mk]

@[simp] theorem State.flood_hostView (s : State) (except_ : Nat) (m : ControlMsg) : (State.flood s except_ m).hostView
    = s.hostView := by
  unfold State.flood; simp [State.fold_hostView, State.hostView_mk]

@[simp] theorem State.oweFault_hostView (s : State) (tag : Nat) : (State.oweFault s tag).hostView = s.hostView := by
  unfold State.oweFault; simp [State.fold_hostView, State.hostView_mk, State.modTorus]

@[simp] theorem State.unreachable_hostView (s : State) (h : PacketHeader) : (State.unreachable s h).hostView =
    s.hostView := by
  unfold State.unreachable; simp [State.fold_hostView, State.hostView_mk, State.modTorus]

@[simp] theorem State.forward_hostView (s : State) (h : PacketHeader) (flits : List Flit) (p l : Nat) (turned : Bool)
    (origin : Option (Nat × Nat × Bool)) : (State.forward s h flits p l turned origin).hostView = s.hostView := by
  unfold State.forward; dsimp only; split <;> simp [State.fold_hostView, State.hostView_mk]

@[simp] theorem State.inject_hostView (s : State) (h : PacketHeader) (flits : List Flit) : (State.inject s h
    flits).hostView = s.hostView := by
  unfold State.inject; dsimp only; (repeat' split) <;> simp [State.fold_hostView, State.hostView_mk, State.modTorus]

@[simp] theorem State.sendSync_hostView (s : State) (dest op object arg : Nat) : (State.sendSync s dest op object
    arg).hostView = s.hostView := by
  unfold State.sendSync; simp [State.fold_hostView, State.hostView_mk]

@[simp] theorem State.followSpan_hostView (s : State) : (State.followSpan s).hostView = s.hostView := by
  unfold State.followSpan; simp [State.fold_hostView, State.hostView_mk, State.modTorus]

@[simp] theorem State.setObj_hostView (s : State) (r : ObjRef) (o : SyncObj) : (State.setObj s r o).hostView =
    s.hostView := by
  unfold State.setObj; simp [State.fold_hostView, State.hostView_mk]

@[simp] theorem State.modPart_hostView (s : State) (k : Nat) (f : Participant → Participant) : (State.modPart s k
    f).hostView = s.hostView := by
  unfold State.modPart; simp [State.fold_hostView, State.hostView_mk]

@[simp] theorem State.freeRemote_hostView (s : State) (k cause : Nat) : (State.freeRemote s k cause).hostView =
    s.hostView := by
  unfold State.freeRemote; simp [State.fold_hostView, State.hostView_mk]

@[simp] theorem State.recordRelease_hostView (s : State) (k cause : Nat) : (State.recordRelease s k cause).hostView =
    s.hostView := by
  unfold State.recordRelease; simp [State.fold_hostView, State.hostView_mk]

@[simp] theorem State.endWait_hostView (s : State) (r : ObjRef) (w : WaitReg) (cause : Nat) : (State.endWait s r w
    cause).hostView = s.hostView := by
  unfold State.endWait; simp [State.fold_hostView, State.hostView_mk]

@[simp] theorem State.toModules_hostView (s : State) (ms : List Nat) (op : Nat) (r : ObjRef) (arg : Nat) :
    (State.toModules s ms op r arg).hostView = s.hostView := by
  unfold State.toModules; simp [State.fold_hostView, State.hostView_mk]

@[simp] theorem State.nodeStep_hostView (s : State) (m : NodeMsg) (r : ObjRef) : (State.nodeStep s m r).1.hostView =
    s.hostView := by
  unfold State.nodeStep; dsimp only; (repeat' split) <;> simp [State.fold_hostView, State.hostView_mk]

@[simp] theorem State.nodes_hostView (x0 : Nat) (x1 : List (NodeMsg × ObjRef)) (s : State) : (State.nodes x0 x1
    s).hostView = s.hostView := by
  induction x0 generalizing s x1 with
  | zero => rfl
  | succ f ih =>
    cases x1 with
    | nil => rfl
    | cons e ms => simp [State.nodes, ih]

@[simp] theorem State.nodeMsg_hostView (s : State) (m : NodeMsg) (r : ObjRef) : (State.nodeMsg s m r).hostView =
    s.hostView := by
  unfold State.nodeMsg; simp [State.fold_hostView, State.hostView_mk]

@[simp] theorem State.ownerLost_hostView (s : State) (rs : List ObjRef) : (State.ownerLost s rs).hostView = s.hostView := by
  unfold State.ownerLost; simp [State.fold_hostView, State.hostView_mk]

@[simp] theorem State.spanBroken_hostView (s : State) (tag : Nat) : (State.spanBroken s tag).hostView = s.hostView := by
  unfold State.spanBroken; simp [State.fold_hostView, State.hostView_mk]

@[simp] theorem State.settleFault_hostView (s : State) (tag : Nat) : (State.settleFault s tag).hostView = s.hostView := by
  unfold State.settleFault; simp [State.fold_hostView, State.hostView_mk, State.modTorus]

@[simp] theorem State.settleFaults_hostView (x0 : Nat) (s : State) : (State.settleFaults x0 s).hostView = s.hostView := by
  induction x0 generalizing s with
  | zero => rfl
  | succ f ih =>
    unfold State.settleFaults
    split <;> simp [ih]

@[simp] theorem State.torusDone_hostView (s : State) : (State.torusDone s).hostView = s.hostView := by
  unfold State.torusDone; simp [State.fold_hostView, State.hostView_mk]

@[simp] theorem State.viewChanged_hostView (s before : State) : (State.viewChanged s before).hostView = s.hostView := by
  unfold State.viewChanged; simp [State.fold_hostView, State.hostView_mk]

/-! ### Domains that are cut (R543) -/

section
variable {s t : State} {cyc d k : Nat} {bits : BitVec 16}

theorem State.outOfService_pwr (s : State) : s.outOfService.pwr = s.pwr :=
  congrArg Devices.pwr s.outOfService_devices

theorem State.outOfService_service (s : State) : s.outOfService.ras.service = .outOfService := by
  unfold State.outOfService
  split
  · next already => exact already
  · dsimp only
    rw [State.raise_ras]
    exact congrArg PowerView.service (State.endAll_powerView _ _)

/-- A domain whose rails are cut. -/
def Domain.cut (bits : BitVec 16) (y : Domain) : Domain :=
  { y with state := .fault, fault := y.fault ||| bits, pending := 0, minOff := false, disableAsked := false }

theorem State.cutDomain_pwr_up (up : (s.domain d).state.down = false) :
    (s.cutDomain d bits).pwr = (s.modDomain d (Domain.cut bits)).pwr := by
  have off : ¬ (((s.domain d).state = .off || (s.domain d).state = .unpopulated) = true) := by
    intro isOff
    cases state : (s.domain d).state <;> simp [state, DomainState.down] at up isOff
  have fault : (s.domain d).state ≠ .fault := by
    intro isFault
    simp [isFault, DomainState.down] at up
  have lost (t : State) (l : List Nat) :
      (l.foldl (fun (t : State) n => (t.loseStack n .failed).raise 0x0503 n 0 0) t).powerView = t.powerView :=
    State.powerView_foldl (fun t n => by simp) l t
  have cut (a b : Nat) (info : RecordInfo) :
      (((s.modDomain d (Domain.cut bits)).raise 0x0C01 d a b).record info).powerView =
        (s.modDomain d (Domain.cut bits)).powerView := by
    rw [State.record_powerView, State.raise_powerView]
  unfold State.cutDomain
  dsimp only
  rw [if_neg off, if_neg fault]
  split
  · refine State.pwr_of_powerView ?_
    rw [State.modQuad_powerView]
    split
    · exact (State.startVoid_powerView _ 6).trans ((State.clearQuad_powerView _ d).trans (cut _ _ _))
    · exact (State.clearQuad_powerView _ d).trans (cut _ _ _)
  · split
    · rw [State.outOfService_pwr]
      exact State.pwr_of_powerView ((lost _ _).trans (cut _ _ _))
    · split
      · rw [State.outOfService_pwr]
        exact State.pwr_of_powerView (cut _ _ _)
      · exact State.pwr_of_powerView ((State.unitsOff_powerView _ d).trans (cut _ _ _))

/-- A domain that is down gains FAULT bits at most. -/
theorem State.cutDomain_pwr_down (down : (s.domain d).state.down = true) : ∃ g : Domain → Domain,
    (∀ y, (g y).state = y.state) ∧ (s.cutDomain d bits).pwr = (s.modDomain d g).pwr := by
  unfold State.cutDomain
  dsimp only
  by_cases off : ((s.domain d).state = .off || (s.domain d).state = .unpopulated) = true
  · rw [if_pos off]
    refine ⟨id, fun _ => rfl, ?_⟩
    rw [State.modDomain, lmod, List.modify_id]
  · rw [if_neg off]
    have fault : (s.domain d).state = .fault := by
      cases state : (s.domain d).state <;> simp [state, DomainState.down] at down off ⊢
    rw [if_pos fault]
    exact ⟨fun y => { y with fault := y.fault ||| bits }, fun _ => rfl, rfl⟩

theorem State.cutDomain_domain_up (up : (s.domain d).state.down = false) (present : d < s.pwr.domains.length) :
    (s.cutDomain d bits).domain d = (s.domain d).cut bits := by
  rw [State.domain_of_pwr (State.cutDomain_pwr_up up), State.domain_modDomain_self present]

/-- A cut changes the domain alone, and nothing else of the power state. -/
theorem State.cutDomain_pwr (s : State) (d : Nat) (bits : BitVec 16) :
    ∃ g, (s.cutDomain d bits).pwr = (s.modDomain d g).pwr := by
  cases up : (s.domain d).state.down
  · exact ⟨_, State.cutDomain_pwr_up up⟩
  · obtain ⟨g, -, same⟩ := State.cutDomain_pwr_down (bits := bits) up
    exact ⟨g, same⟩

theorem State.cutDomain_domain_ne (other : k ≠ d) : (s.cutDomain d bits).domain k = s.domain k := by
  obtain ⟨g, same⟩ := s.cutDomain_pwr d bits
  rw [State.domain_of_pwr same, State.domain_modDomain_ne other]

/-- A domain number past the last reads as OFF. -/
theorem State.domain_absent (absent : ¬ d < s.pwr.domains.length) : (s.domain d).state.down = true := by
  rw [State.domain, lget, List.getD_eq_default _ _ (by omega)]
  decide

theorem State.cutDomain_down_self (s : State) (d : Nat) (bits : BitVec 16) :
    ((s.cutDomain d bits).domain d).state.down = true := by
  by_cases present : d < s.pwr.domains.length
  · cases up : (s.domain d).state.down
    · rw [State.cutDomain_domain_up up present]
      rfl
    · obtain ⟨g, keeps, same⟩ := State.cutDomain_pwr_down (bits := bits) up
      rw [State.domain_of_pwr same, State.domain_modDomain_self present, keeps]
      exact up
  · refine State.domain_absent ?_
    obtain ⟨g, same⟩ := s.cutDomain_pwr d bits
    rwa [same, State.modDomain, lmod, List.length_modify]

theorem State.foldl_cutDomain_down (bits : BitVec 16) (l : List Nat) (s : State)
    (reached : k ∈ l ∨ (s.domain k).state.down = true) :
    ((l.foldl (fun (t : State) d => t.cutDomain d bits) s).domain k).state.down = true := by
  induction l generalizing s with
  | nil => simpa using reached
  | cons d ds ih =>
    refine ih (s.cutDomain d bits) ?_
    by_cases same : k = d
    · subst same
      exact .inr (s.cutDomain_down_self k bits)
    · rw [State.cutDomain_domain_ne same]
      simpa [same] using reached

theorem State.foldl_cutDomain_flags (bits : BitVec 16) (l : List Nat) (s : State) :
    (l.foldl (fun (t : State) d => t.cutDomain d bits) s).pwr.trip = s.pwr.trip ∧
      (l.foldl (fun (t : State) d => t.cutDomain d bits) s).pwr.underVoltage = s.pwr.underVoltage := by
  have trip (t : State) (d : Nat) : (t.cutDomain d bits).pwr.trip = t.pwr.trip := by
    obtain ⟨g, same⟩ := t.cutDomain_pwr d bits
    rw [same]
    rfl
  have under (t : State) (d : Nat) : (t.cutDomain d bits).pwr.underVoltage = t.pwr.underVoltage := by
    obtain ⟨g, same⟩ := t.cutDomain_pwr d bits
    rw [same]
    rfl
  exact ⟨State.keeps_foldl (fun t => t.pwr.trip) trip l s, State.keeps_foldl (fun t => t.pwr.underVoltage) under l s⟩

/-! ### Stopping all domains in order -/

/-- `t` comes from `s` by stopping domains: no domain that was down is up again, and the flags stay. -/
structure State.StopsTo (s t : State) : Prop where
  service : t.ras.service = s.ras.service
  trip : t.pwr.trip = s.pwr.trip
  underVoltage : t.pwr.underVoltage = s.pwr.underVoltage
  down : ∀ k, (s.domain k).state.down = true → (t.domain k).state.down = true

theorem State.StopsTo.refl (s : State) : s.StopsTo s := ⟨rfl, rfl, rfl, fun _ => id⟩

theorem State.StopsTo.trans {u : State} (first : s.StopsTo t) (second : t.StopsTo u) : s.StopsTo u :=
  ⟨second.service.trans first.service, second.trip.trans first.trip, second.underVoltage.trans first.underVoltage,
    fun k down => second.down k (first.down k down)⟩

theorem State.StopsTo.of_powerView (same : t.powerView = s.powerView) : s.StopsTo t := by
  have pwr := State.pwr_of_powerView same
  exact ⟨congrArg PowerView.service same, by rw [pwr], by rw [pwr], fun k down => by rwa [State.domain_of_pwr pwr]⟩

theorem State.StopsTo.modDomain {g : Domain → Domain} (keeps : (s.domain d).state.down = true →
    (g (s.domain d)).state.down = true) : s.StopsTo (s.modDomain d g) := by
  refine ⟨rfl, rfl, rfl, fun k down => ?_⟩
  by_cases same : k = d
  · subst same
    by_cases present : k < s.pwr.domains.length
    · rw [State.domain_modDomain_self present]
      exact keeps down
    · refine State.domain_absent ?_
      rwa [State.modDomain, lmod, List.length_modify]
  · rwa [State.domain_modDomain_ne same]

theorem State.stopDomain_stopsTo (up : (s.domain d).state.down = false) : s.StopsTo (s.stopDomain d) := by
  refine (State.StopsTo.modDomain ?_).trans (State.StopsTo.of_powerView (State.unitsOff_powerView _ d))
  rw [up]
  nofun

/-- A domain of the group that is to stop. -/
def State.stopMember (t : State) (d : Nat) : State :=
  match (t.domain d).state with
  | .on => t.stopDomain d
  | .starting => t.modDomain d fun x => { x with disableAsked := true }
  | .stopping => t.modDomain d fun x => { x with pending := 0 }
  | _ => t

theorem State.stopGroup_eq (s : State) (g : List Nat) : s.stopGroup g = g.foldl State.stopMember s := rfl

theorem State.stopMember_stopsTo (s : State) (d : Nat) : s.StopsTo (s.stopMember d) := by
  unfold State.stopMember
  split
  · next on => exact State.stopDomain_stopsTo (by rw [on]; rfl)
  · exact State.StopsTo.modDomain id
  · exact State.StopsTo.modDomain id
  · exact State.StopsTo.refl s

theorem State.stopGroup_stopsTo (s : State) (g : List Nat) : s.StopsTo (s.stopGroup g) := by
  rw [State.stopGroup_eq]
  induction g generalizing s with
  | nil => exact State.StopsTo.refl s
  | cons d ds ih => exact (s.stopMember_stopsTo d).trans (ih _)

theorem State.stopNext_stopsTo (n : Nat) (s : State) : s.StopsTo (State.stopNext n s) := by
  induction n generalizing s with
  | zero => exact State.StopsTo.refl s
  | succ n ih =>
    unfold State.stopNext
    split
    · exact State.StopsTo.refl s
    · split
      · refine State.StopsTo.trans ?_ (ih _)
        exact ⟨rfl, rfl, rfl, fun _ => id⟩
      · exact s.stopGroup_stopsTo _

/-- The module once PWR_EJECT_READY has been raised at the end of the first part of a drain. -/
def State.drainTold (s : State) : State :=
  if s.pwr.ejectNotices then s
  else ({ s with pwr := { s.pwr with ejectNotices := true } }.raise 0x0C09 0 s.effectiveCap s.pwr.k).pump

theorem State.drainTold_stopsTo (s : State) : s.StopsTo s.drainTold := by
  have noticed (u : State) : u.StopsTo (u.raise 0x0C09 0 s.effectiveCap s.pwr.k).pump :=
    State.StopsTo.of_powerView (by simp)
  unfold State.drainTold
  split
  · exact State.StopsTo.refl s
  · refine State.StopsTo.trans ?_ (noticed _)
    exact ⟨rfl, rfl, rfl, fun _ => id⟩

theorem State.drainOn_stopsTo (s : State) : s.StopsTo s.drainOn := by
  unfold State.drainOn
  split
  · split
    · exact State.StopsTo.refl s
    · have told : (if s.pwr.ejectNotices then s
          else ({ s with pwr := { s.pwr with ejectNotices := true } }.raise 0x0C09 0 s.effectiveCap s.pwr.k).pump) =
          s.drainTold := rfl
      dsimp only
      rw [told]
      split
      · refine s.drainTold_stopsTo.trans (State.StopsTo.trans ?_ (State.stopNext_stopsTo 8 _))
        exact ⟨rfl, rfl, rfl, fun _ => id⟩
      · exact s.drainTold_stopsTo
  · exact State.StopsTo.refl s

theorem State.shutEnds_stopsTo (s : State) : s.StopsTo s.shutEnds := by
  unfold State.shutEnds
  split
  · exact ⟨rfl, rfl, rfl, fun _ => id⟩
  · exact State.StopsTo.refl s

theorem State.stopOn_stopsTo (s : State) : s.StopsTo s.stopOn := by
  unfold State.stopOn
  split
  · exact ((State.stopNext_stopsTo 8 s).trans (State.drainOn_stopsTo _)).trans (State.shutEnds_stopsTo _)
  · exact State.StopsTo.refl s

/-- With the domains of a list cut the module is OUT_OF_SERVICE, and none of them is up. -/
theorem State.cutThese_spec (s : State) (bits : BitVec 16) (l : List Nat) :
    let t := (l.foldl (fun (t : State) d => t.cutDomain d bits) s).outOfService.stopOn
    t.ras.service = .outOfService ∧ t.pwr.trip = s.pwr.trip ∧ t.pwr.underVoltage = s.pwr.underVoltage ∧
      ∀ d ∈ l, (t.domain d).state.down = true := by
  obtain ⟨trip, under⟩ := State.foldl_cutDomain_flags bits l s
  have out := (l.foldl (fun (t : State) d => t.cutDomain d bits) s).outOfService_pwr
  have stops := State.stopOn_stopsTo (l.foldl (fun (t : State) d => t.cutDomain d bits) s).outOfService
  refine ⟨stops.service.trans (State.outOfService_service _), ?_, ?_, fun d inside => stops.down d ?_⟩
  · exact stops.trip.trans ((congrArg Power.trip out).trans trip)
  · exact stops.underVoltage.trans ((congrArg Power.underVoltage out).trans under)
  · rw [State.domain_of_pwr out]
    exact State.foldl_cutDomain_down bits l s (.inl inside)

theorem State.cutAll_spec (s : State) (bits : BitVec 16) : (s.cutAll bits).ras.service = .outOfService ∧
    (s.cutAll bits).pwr.trip = s.pwr.trip ∧ (s.cutAll bits).pwr.underVoltage = s.pwr.underVoltage ∧
    ∀ d, d < 20 → ((s.cutAll bits).domain d).state.down = true := by
  obtain ⟨service, trip, under, down⟩ := s.cutThese_spec bits (List.range 20)
  unfold State.cutAll
  exact ⟨service, trip, under, fun d inside => down d (List.mem_range.2 inside)⟩

/-! ### The commands -/

theorem exec_domainTimeout_starting (inside : d < 20) (starting : (s.domain d).state = .starting)
    (late : startBound d < (s.stamp cyc).clock - (s.domain d).since) :
    exec (.domainTimeout cyc d) s = .next ((s.stamp cyc).cutDomain d 4).stopOn := by
  have run : exec (.domainTimeout cyc d) s = execDomainTimeout cyc d s := rfl
  rw [run, execDomainTimeout, onUnit_true (by simpa using inside)]
  dsimp only
  rw [starting]
  dsimp only
  rw [if_pos late]
  rfl

theorem exec_domainTimeout_stopping (inside : d < 20) (stopping : (s.domain d).state = .stopping)
    (late : stopBound d < (s.stamp cyc).clock - (s.domain d).since) :
    exec (.domainTimeout cyc d) s = .next ((s.stamp cyc).cutDomain d 8).stopOn := by
  have run : exec (.domainTimeout cyc d) s = execDomainTimeout cyc d s := rfl
  rw [run, execDomainTimeout, onUnit_true (by simpa using inside)]
  dsimp only
  rw [stopping]
  dsimp only
  rw [if_pos late]
  rfl

theorem exec_domainRailFault_met (inside : d < 20) (met : bits &&& 0x1F ≠ 0) :
    exec (.domainRailFault cyc d bits) s = .next ((s.stamp cyc).cutDomain d (bits &&& 0x1F)).stopOn := by
  have run : exec (.domainRailFault cyc d bits) s = execDomainRailFault cyc d bits s := rfl
  rw [run, execDomainRailFault, onUnit_true (by simpa using inside), if_neg met]
  rfl

theorem exec_faultClear (inside : d < 20) (v : BitVec 32) : exec (.faultClear d v) s = .next (s.clearFault d v) := by
  have run : exec (.faultClear d v) s = execFaultClear d v s := rfl
  rw [run, execFaultClear, onUnit_true (by simpa using inside)]

/-- The module with the flag of a thermal trip, and with that of an undervoltage. -/
def State.tripped (s : State) (cyc : Nat) : State := { s.stamp cyc with pwr := { s.pwr with trip := true } }
def State.starved (s : State) (cyc : Nat) : State := { s.stamp cyc with pwr := { s.pwr with underVoltage := true } }

theorem exec_thermalTrip_first (sensor : Nat) (first : s.pwr.trip = false) : exec (.thermalTrip cyc sensor) s =
    .next (((s.tripped cyc).cutAll 16).raise 0x0C06 sensor (s.tripped cyc).effectiveCap s.pwr.k) := by
  have run : exec (.thermalTrip cyc sensor) s = execThermalTrip cyc sensor s := rfl
  rw [run, execThermalTrip, if_neg (by simp [first])]
  rfl

theorem exec_vinUndervoltage_first (first : s.pwr.underVoltage = false) : exec (.vinUndervoltage cyc) s =
    .next ((s.starved cyc).cutAll 2) := by
  have run : exec (.vinUndervoltage cyc) s = execVinUndervoltage cyc s := rfl
  rw [run, execVinUndervoltage, if_neg (by simp [first])]
  rfl

/-! ### Surprise removal (R558) -/

/-- The module once its presence pins have parted: nothing waits to be written to the host. -/
def State.parted (s : State) : State :=
  { s with pwr := { s.pwr with presenceBroken := true }
           hlk := { s.hlk with waitCredit := s.hlk.waitCredit.filter fun o => !o.access.write
                               waitTranslation := s.hlk.waitTranslation.filter fun a => !a.write } }

theorem exec_surpriseRemoval_seated (seated : s.pwr.ejectReady = false) (whole : s.pwr.presenceBroken = false) :
    exec .surpriseRemoval s = .next ((List.range 6).foldl State.eyeletOff s.parted) := by
  have run : exec .surpriseRemoval s = execSurpriseRemoval s := rfl
  rw [run, execSurpriseRemoval, if_neg (by simp [seated, whole])]
  rfl

theorem State.modUplink_hostView (s : State) (u : Nat) (f : Uplink → Uplink) :
    (s.modUplink u f).hostView = s.hostView := rfl

theorem State.eyeletOff_hostView (s : State) (e : Nat) : (s.eyeletOff e).hostView = s.hostView := by
  unfold State.eyeletOff
  dsimp only
  rw [State.viewChanged_hostView, State.hostView_foldl (fun t u => t.modUplink_hostView u _),
    State.hostView_foldl (fun t l => t.modLace_hostView l _)]

/-- The laces of a list go dark. -/
theorem State.foldl_modLace_state {g : Lace → Lace} (dark : ∀ a, (g a).state = .off) (ls : List Nat) (s : State)
    {l : Nat} (present : l < s.lce.laces.length) (reached : l ∈ ls ∨ (s.lace l).state = .off) :
    ((ls.foldl (fun t k => t.modLace k g) s).lace l).state = .off := by
  induction ls generalizing s with
  | nil => simpa using reached
  | cons k ks ih =>
    refine ih (s.modLace k g) (by rw [modLace_length]; exact present) ?_
    by_cases same : l = k
    · subst same
      rw [State.lace_modLace_self present]
      exact .inr (dark _)
    · rw [State.lace_modLace_ne same]
      simpa [same] using reached

theorem State.foldl_modLace_length (g : Lace → Lace) (ls : List Nat) (s : State) :
    (ls.foldl (fun t k => t.modLace k g) s).lce.laces.length = s.lce.laces.length :=
  State.keeps_foldl (fun t => t.lce.laces.length) (fun t k => modLace_length t k g) ls s

theorem State.eyeletOff_torusView (s : State) (e : Nat) : (s.eyeletOff e).torusView =
    ((s.lacesOf e).foldl (fun t l => t.modLace l fun a => { a.cleared .off 0 with wasDown := a.wasDown }) s).torusView := by
  unfold State.eyeletOff
  dsimp only
  rw [State.viewChanged_torusView]
  exact State.keeps_foldl (fun t => t.torusView) (fun t u => t.modUplink_torusView u _) _ _

/-- The laces of an eyelet that goes dark are OFF, and those that were OFF stay OFF. -/
theorem State.eyeletOff_state {e l : Nat} (present : l < s.lce.laces.length) (inside : l < 4)
    (reached : s.part.eyeletOfLace l = e ∨ (s.lace l).state = .off) : ((s.eyeletOff e).lace l).state = .off := by
  have same := congrArg TorusView.laces (s.eyeletOff_torusView e)
  rw [(Lace.alike_of_steady (State.steady_of_laces same l)).state]
  refine State.foldl_modLace_state (fun _ => rfl) _ s present (reached.imp_left fun here => ?_)
  rw [State.lacesOf, List.mem_filter]
  exact ⟨List.mem_range.2 inside, by simpa using here⟩

theorem State.eyeletOff_length (s : State) (e : Nat) : (s.eyeletOff e).lce.laces.length = s.lce.laces.length :=
  (State.length_of_torusView (s.eyeletOff_torusView e)).trans (State.foldl_modLace_length _ _ _)

theorem State.foldl_eyeletOff_state (es : List Nat) (s : State) {l : Nat} (present : l < s.lce.laces.length)
    (inside : l < 4) (reached : s.part.eyeletOfLace l ∈ es ∨ (s.lace l).state = .off) :
    ((es.foldl State.eyeletOff s).lace l).state = .off := by
  induction es generalizing s with
  | nil => simpa using reached
  | cons e es ih =>
    have part : (s.eyeletOff e).part = s.part := congrArg Kept.part (s.eyeletOff_kept e)
    refine ih (s.eyeletOff e) (by rwa [s.eyeletOff_length]) ?_
    rw [part]
    rcases reached with member | off
    · rcases List.mem_cons.1 member with here | later
      · exact .inr (State.eyeletOff_state present inside (.inl here))
      · exact .inl later
    · exact .inr (State.eyeletOff_state present inside (.inr off))

theorem Part.eyeletOfLace_lt (p : Part) {l : Nat} (inside : l < 4) : p.eyeletOfLace l < 6 := by
  cases p <;> interval_cases l <;> decide

theorem State.foldl_eyeletOff_rest (es : List Nat) (s : State) : (es.foldl State.eyeletOff s).pwr = s.pwr ∧
    (es.foldl State.eyeletOff s).hlk = s.hlk ∧ (es.foldl State.eyeletOff s).ras = s.ras := by
  have host : (es.foldl State.eyeletOff s).hostView = s.hostView :=
    State.keeps_foldl (fun t => t.hostView) (fun t e => t.eyeletOff_hostView e) es s
  exact ⟨State.keeps_foldl (fun t => t.pwr) (fun t e => State.pwr_of_powerView (t.eyeletOff_powerView e)) es s,
    congrArg HostView.hlk host, congrArg HostView.ras host⟩

end

/-- Settles O42: a cut by `State.cutDomain_domain_up` and `State.cutAll_spec`, a removal by
`State.foldl_eyeletOff_state`. -/
theorem domainsFaultAndTrip : Obligations.DomainsFaultAndTrip := by
  unfold Obligations.DomainsFaultAndTrip
  refine ⟨⟨fun cyc d s inside present => ⟨fun starting late => ?start, fun stopping late => ?stop,
    fun b met up => ?rail⟩, fun d v s inside present => ?clear⟩, fun cyc sensor s first => ?trip, fun cyc s first => ?under, fun s => rfl,
    fun s seated whole => ?removal⟩
  case start =>
    have up : (((s.stamp cyc).domain d).state).down = false := by
      rw [show ((s.stamp cyc).domain d).state = .starting from starting]
      rfl
    have cut := State.cutDomain_domain_up (bits := 4) up present
    exact ⟨_, _, exec_domainTimeout_starting inside starting late, rfl, congrArg Domain.state cut,
      congrArg Domain.fault cut, fun k other => State.cutDomain_domain_ne (s := s.stamp cyc) other⟩
  case stop =>
    have up : (((s.stamp cyc).domain d).state).down = false := by
      rw [show ((s.stamp cyc).domain d).state = .stopping from stopping]
      rfl
    have cut := State.cutDomain_domain_up (bits := 8) up present
    exact ⟨_, _, exec_domainTimeout_stopping inside stopping late, rfl, congrArg Domain.state cut,
      congrArg Domain.fault cut, fun k other => State.cutDomain_domain_ne (s := s.stamp cyc) other⟩
  case rail =>
    have up' : (((s.stamp cyc).domain d).state).down = false := by
      show (s.domain d).state.down = false
      rcases up with state | state | state <;> rw [state] <;> rfl
    have cut := State.cutDomain_domain_up (bits := b &&& 0x1F) up' present
    exact ⟨_, _, exec_domainRailFault_met inside met, rfl, congrArg Domain.state cut, congrArg Domain.fault cut,
      congrArg Domain.pending cut, fun k other => State.cutDomain_domain_ne (s := s.stamp cyc) other⟩
  case clear =>
    exact ⟨_, exec_faultClear inside v, State.domain_modDomain_self present _, fun k other =>
      State.domain_modDomain_ne other _, rfl⟩
  case trip =>
    obtain ⟨service, trip, -, down⟩ := (s.tripped cyc).cutAll_spec 16
    refine ⟨_, exec_thermalTrip_first sensor first, ?_, ?_, fun d inside => ?_⟩
    · rw [State.raise_pwr, trip]
      rfl
    · rw [State.raise_ras, service]
    · rw [State.domain, State.raise_pwr]
      exact down d inside
  case under =>
    obtain ⟨service, -, under, down⟩ := (s.starved cyc).cutAll_spec 2
    refine ⟨_, exec_vinUndervoltage_first first, ?_, service, down⟩
    rw [under]
    rfl
  case removal =>
    obtain ⟨pwr, hlk, ras⟩ := State.foldl_eyeletOff_rest (List.range 6) s.parted
    refine ⟨_, exec_surpriseRemoval_seated seated whole, ?_, fun l inside present => ?_, ?_, ?_⟩
    · rw [pwr]
      rfl
    · have eyelet : s.parted.part.eyeletOfLace l ∈ List.range 6 := List.mem_range.2 (Part.eyeletOfLace_lt _ inside)
      exact State.foldl_eyeletOff_state _ s.parted present inside (.inl eyelet)
    · rw [hlk]
      rfl
    · rw [ras]
      rfl

end Sys2Proof.Machine
end

section
/-! PROOFS. The CAP_FAST levels, the power-fail warning and the orderly removal (R547, R549, R554, R556, R557). -/

namespace Sys2Proof.Machine

section
variable {s : State} {cyc level : Nat}

/-- An event moves the event path alone. -/
theorem State.raise_eq (s : State) (code a b c : Nat) :
    s.raise code a b c = { s with srv := (s.raise code a b c).srv } := by
  unfold State.raise State.raiseFor
  dsimp only

/-! ### CAP_FAST levels (R549) -/

/-- σ follows the cap; the rest of the power state is counts. -/
theorem State.followCap_eq (s : State) : ∃ breach breaches srv, s.followCap = { s with
    pwr := { s.pwr with k := sigmaOf s.part s.sigmaCap, breach := breach, breaches := breaches }, srv := srv } := by
  unfold State.followCap
  dsimp only
  split
  · exact ⟨_, _, _, State.raise_eq _ _ _ _ _⟩
  · split
    · exact ⟨_, _, _, State.raise_eq _ _ _ _ _⟩
    · exact ⟨_, _, s.srv, rfl⟩

theorem State.capFastEvent_eq (s before : State) : ∃ srv, s.capFastEvent before = { s with srv := srv } := by
  unfold State.capFastEvent
  split
  · exact ⟨s.srv, rfl⟩
  · exact ⟨_, State.raise_eq _ _ _ _ _⟩

theorem exec_capFastLevelChange_same (inside : level < 4) (same : level = s.pwr.fastLevel) :
    exec (.capFastLevelChange cyc level) s = .next { s.stamp cyc with pwr := { s.pwr with fastNext := none } } := by
  have run : exec (.capFastLevelChange cyc level) s = execCapFastLevelChange cyc level s := rfl
  rw [run, execCapFastLevelChange, onUnit_true (by simpa using inside)]
  dsimp only
  rw [if_pos (by exact same), State.stamp]

/-- The module at a level that does not raise the cap. -/
def State.lowered (s : State) (cyc level : Nat) : State := (s.stamp cyc).atLevel level

theorem exec_capFastLevelChange_lower (inside : level < 4) (other : level ≠ s.pwr.fastLevel)
    (lower : (s.atLevel level).sigmaCap ≤ s.sigmaCap) : exec (.capFastLevelChange cyc level) s =
      .next (State.capFastEvent { (s.lowered cyc level).followCap with pwr :=
        { (s.lowered cyc level).followCap.pwr with recost := true } } (s.stamp cyc)) := by
  have run : exec (.capFastLevelChange cyc level) s = execCapFastLevelChange cyc level s := rfl
  rw [run, execCapFastLevelChange, onUnit_true (by simpa using inside)]
  dsimp only
  rw [if_neg (by exact other), if_pos (by exact lower)]
  rfl

theorem exec_capFastLevelChange_raise (inside : level < 4) (other : level ≠ s.pwr.fastLevel)
    (higher : s.sigmaCap < (s.atLevel level).sigmaCap) : exec (.capFastLevelChange cyc level) s =
      .next { s.stamp cyc with pwr := { s.pwr with fastNext := some (level, cyc == 0) } } := by
  have run : exec (.capFastLevelChange cyc level) s = execCapFastLevelChange cyc level s := rfl
  rw [run, execCapFastLevelChange, onUnit_true (by simpa using inside)]
  dsimp only
  rw [if_neg (by exact other), if_neg (by exact Nat.not_le.2 higher)]
  rfl

/-! ### The power-fail warning (R554) -/

/-- The module with the warning, which has been counted. -/
def State.warned (s : State) (cyc : Nat) : State := { s.stamp cyc with pwr := { s.pwr with
  warn := true, warnAt := (s.stamp cyc).clock, warnings := sat 32 (s.pwr.warnings + 1) } }

theorem exec_pwrFailWarn_first (first : s.pwr.warn = false) : exec (.pwrFailWarn cyc) s =
    .next ((s.warned cyc).raise 0x0C07 0 (s.warned cyc).effectiveCap s.pwr.k) := by
  have run : exec (.pwrFailWarn cyc) s = execPwrFailWarn cyc s := rfl
  rw [run, execPwrFailWarn, if_neg (by simp [first])]
  rfl

/-- The domains are about to stop: the running pass is lost, and nothing more is planned. -/
theorem State.beginStop_eq (s : State) (reason : StopReason) (order : List (List Nat)) : ∃ fab syn,
    s.beginStop reason order = State.stopOn { s with
      planner := { s.planner with plan := [], moved := [], running := none }
      pwr := { s.pwr with stopping := some reason, stopLeft := order }
      fab := fab
      syn := syn } := by
  unfold State.beginStop
  dsimp only
  split
  · exact ⟨_, _, rfl⟩
  · exact ⟨s.fab, s.syn, rfl⟩

theorem exec_powerFailShutdown_due (warned : s.pwr.warn = true) (going : s.pwr.shutDown = false)
    (due : s.warnLimit ≤ (s.stamp cyc).clock) : exec (.powerFailShutdown cyc) s =
      .next (State.beginStop { s.stamp cyc with pwr := { s.pwr with shutDown := true } } .powerFail stopOrder) := by
  have run : exec (.powerFailShutdown cyc) s = execPowerFailShutdown cyc s := rfl
  rw [run, execPowerFailShutdown, decide_eq_false (Nat.not_lt.2 due), if_neg (by simp [warned, going])]

theorem exec_powerFailShutdown_early (early : s.pwr.warn = false ∨ s.pwr.shutDown = true ∨
    (s.stamp cyc).clock < s.warnLimit) : exec (.powerFailShutdown cyc) s = .next s := by
  have run : exec (.powerFailShutdown cyc) s = execPowerFailShutdown cyc s := rfl
  rw [run, execPowerFailShutdown, if_pos]
  rcases early with off | going | early
  · simp [off]
  · simp [going]
  · rw [decide_eq_true early, Bool.or_true]

/-! ### Orderly removal (R556, R557) -/

theorem exec_ejectReq : exec .ejectReq s = .next (if s.pwr.hotSwap = .inService then { s with pwr := { s.pwr with
    ejectAsked := true, ejectLate := s.tb.boundaryDue && (!s.pwr.ejectAsked || s.pwr.ejectLate) } } else s) := by
  have run : exec .ejectReq s = execEjectReq s := rfl
  rw [run, execEjectReq]
  split <;> rfl

/-- No notice waits any more. -/
def State.noticesDropped (s : State) (cyc : Nat) : State :=
  { s.stamp cyc with srv := { s.srv with notices := [], noticesLater := [] } }

theorem exec_ejectNoticeTimeout_due (effective : s.pwr.drainEffective = true)
    (waits : ((s.srv.notices ++ s.srv.noticesLater).map fun e => e.2.length).sum ≠ 0)
    (due : s.pwr.effectiveAt + 40 * 156250 ≤ (s.stamp cyc).clock) : exec (.ejectNoticeTimeout cyc) s =
      .next ((s.noticesDropped cyc).raise 0x070E
        ((s.srv.notices ++ s.srv.noticesLater).map fun e => e.2.length).sum 0 0) := by
  have run : exec (.ejectNoticeTimeout cyc) s = execEjectNoticeTimeout cyc s := rfl
  have goes : ¬(!s.pwr.drainEffective ||
      decide (((s.srv.notices ++ s.srv.noticesLater).map fun e => e.2.length).sum = 0) ||
      decide ((s.stamp cyc).clock < s.pwr.effectiveAt + 40 * 156250)) = true := by
    rw [decide_eq_false (Nat.not_lt.2 due), decide_eq_false waits, effective]
    decide
  rw [run, execEjectNoticeTimeout, if_neg goes, State.noticesDropped]

theorem Serving.raise_notices (v : Serving) (entries : Nat) (e : Event) :
    (v.raise entries e).notices = v.notices ∧ (v.raise entries e).noticesLater = v.noticesLater := by
  unfold Serving.raise
  dsimp only
  (repeat' split) <;> exact ⟨rfl, rfl⟩

theorem State.raise_notices (s : State) (code a b c : Nat) : (s.raise code a b c).srv.notices = s.srv.notices ∧
    (s.raise code a b c).srv.noticesLater = s.srv.noticesLater :=
  Serving.raise_notices _ _ _

theorem exec_ejectReady_done (stopping : s.pwr.stopping = some .eject) (written : s.pwr.ejectWritten = true)
    (down : (s.domain 19).state.down = true) : exec (.ejectReady cyc) s = .next { s.stamp cyc with pwr := { s.pwr with
      hotSwap := .readyToRemove, ejectReady := true, stopping := none, stopLeft := [] } } := by
  have run : exec (.ejectReady cyc) s = execEjectReady cyc s := rfl
  rw [run, execEjectReady, if_pos (by simp [stopping, written, down])]

end

/-- Settles O43: each command by the lemma that says what it does. -/
theorem capsAndEjection : Obligations.CapsAndEjection := by
  unfold Obligations.CapsAndEjection
  refine ⟨⟨fun cyc level s inside => ⟨fun same => exec_capFastLevelChange_same inside same, fun other lower => ?lower,
    fun other higher => ⟨_, exec_capFastLevelChange_raise inside other higher⟩⟩, fun cyc s first => ?warn, fun s => rfl,
    fun cyc s warned going due => ?shutDown, fun cyc s early => exec_powerFailShutdown_early early⟩,
    fun s serves => ?asked, fun s away => ?unasked, fun cyc s effective waits due => ?dropped,
    fun cyc s stopping written down => exec_ejectReady_done stopping written down⟩
  case lower =>
    obtain ⟨breach, breaches, srv, followed⟩ := (s.lowered cyc level).followCap_eq
    obtain ⟨srv', told⟩ := State.capFastEvent_eq { (s.lowered cyc level).followCap with pwr :=
        { (s.lowered cyc level).followCap.pwr with recost := true } } (s.stamp cyc)
    refine ⟨_, exec_capFastLevelChange_lower inside other lower, ?_⟩
    rw [told, followed]
    exact ⟨rfl, rfl, rfl, rfl, rfl, rfl⟩
  case warn =>
    refine ⟨_, exec_pwrFailWarn_first first, ?_⟩
    rw [State.effectiveCap, State.raise_pwr]
    exact ⟨rfl, rfl, rfl, rfl, congrArg (fun t : State => { t with pwr := s.pwr, srv := s.srv, tb := s.tb })
      ((s.warned cyc).raise_rest 0x0C07 0 (s.warned cyc).effectiveCap s.pwr.k)⟩
  case shutDown =>
    obtain ⟨fab, syn, begun⟩ := State.beginStop_eq { s.stamp cyc with pwr := { s.pwr with shutDown := true } } .powerFail
      stopOrder
    refine ⟨_, _, exec_powerFailShutdown_due warned going due, begun, rfl, rfl, rfl, rfl⟩
  case asked => rw [exec_ejectReq, if_pos serves]
  case unasked => rw [exec_ejectReq, if_neg away]
  case dropped =>
    obtain ⟨notices, later⟩ := (s.noticesDropped cyc).raise_notices 0x070E
      ((s.srv.notices ++ s.srv.noticesLater).map fun e => e.2.length).sum 0 0
    refine ⟨_, exec_ejectNoticeTimeout_due effective waits due, notices, later, State.raise_streams _ _ _ _ _, ?_⟩
    exact congrArg (fun t : State => { t with srv := s.srv, tb := s.tb })
      ((s.noticesDropped cyc).raise_rest 0x070E ((s.srv.notices ++ s.srv.noticesLater).map fun e => e.2.length).sum 0 0)

end Sys2Proof.Machine
end

section
/-! PROOFS. Resets (R554, R557, R562 to R566): how each kind begins, and what it leaves of the state. -/

namespace Sys2Proof.Machine

/-- The status of the last message. -/
structure StatusView where
  lastStatus : Nat

/-- The status of the last message in `s`. -/
def State.statusView (s : State) : StatusView := {
    lastStatus := s.dict.lastStatus }

theorem State.fold_statusView (s : State) : s.dict.lastStatus = s.statusView.lastStatus := by simp [State.statusView]

theorem State.statusView_mk (part : Part) (pending : List Instr) (free : Nat) (regs : KMap Nat) (blobs : KMap (List
    Byte)) (tb : TimeBase) (planner : Planner) (fab : Fabric) (mxe : Engine) (chn : ChainCounters) (mem : Memory)
    (pages : Pages) (store : Store) (srv : Serving) (syn : Sync) (lce : Torus) (dsp : Dispatch) (hlk : HostLink) (dict
    : Dict) (ras : Ras) (pwr : Power) (boot : Boot) (sec : Security) : State.statusView {
    part := part, pending := pending, free := free, regs := regs, blobs := blobs, tb := tb, planner := planner, fab :=
    fab, mxe := mxe, chn := chn, mem := mem, pages := pages, store := store, srv := srv, syn := syn, lce := lce,
    dsp := dsp, hlk := hlk, dict := dict, ras := ras, pwr := pwr, boot := boot, sec := sec } = {
    lastStatus := dict.lastStatus } := rfl

@[simp] theorem State.statusView_ite (c : Prop) [Decidable c] (s t : State) :
    (if c then s else t).statusView = if c then s.statusView else t.statusView := by split <;> rfl

section
variable {α γ : Type} {f : State → α → State} {k : State × γ → α → State × γ} {h : γ × State → α → γ × State}

@[simp] theorem State.statusView_foldl (keeps : ∀ t a, (f t a).statusView = t.statusView) (l : List α) (s : State) :
    (l.foldl f s).statusView = s.statusView := State.keeps_foldl _ keeps l s
@[simp] theorem State.statusView_foldl_fst (keeps : ∀ p a, (k p a).1.statusView = p.1.statusView) (l : List α) (p : State × γ) :
    (l.foldl k p).1.statusView = p.1.statusView := State.keeps_foldl_fst (fun t => t.statusView) keeps l p
@[simp] theorem State.statusView_foldl_snd (keeps : ∀ p a, (h p a).2.statusView = p.2.statusView) (l : List α) (p : γ × State) :
    (l.foldl h p).2.statusView = p.2.statusView := State.keeps_foldl_snd (fun t => t.statusView) keeps l p

end

@[simp] theorem State.raiseFor_statusView (s : State) (code group arg0 arg1 arg2 : Nat) : (s.raiseFor code group arg0
    arg1 arg2).statusView = s.statusView := by
  simp [State.statusView]

@[simp] theorem State.raise_statusView (s : State) (code arg0 arg1 arg2 : Nat) : (s.raise code arg0 arg1
    arg2).statusView = s.statusView := by
  simp [State.statusView]

@[simp] theorem State.modQuad_statusView (s : State) (q : Nat) (f : Quadrant → Quadrant) : (State.modQuad s q
    f).statusView = s.statusView := by
  unfold State.modQuad; simp [State.fold_statusView, State.statusView_mk]

@[simp] theorem State.modDomain_statusView (s : State) (d : Nat) (f : Domain → Domain) : (State.modDomain s d
    f).statusView = s.statusView := by
  unfold State.modDomain; simp [State.fold_statusView, State.statusView_mk]

@[simp] theorem State.notifyLater_statusView (s : State) (x : Notice) : (State.notifyLater s x).statusView =
    s.statusView := by
  unfold State.notifyLater; simp [State.fold_statusView, State.statusView_mk]

@[simp] theorem State.freeBuffer_statusView (s : State) (n : Nat) : (State.freeBuffer s n).statusView = s.statusView := by
  unfold State.freeBuffer; simp [State.fold_statusView, State.statusView_mk]

@[simp] theorem State.leaveTemplate_statusView (s : State) (n : Nat) (x : Stream) : (State.leaveTemplate s n
    x).statusView = s.statusView := by
  unfold State.leaveTemplate; dsimp only; (repeat' split) <;> simp [State.fold_statusView, State.statusView_mk]

@[simp] theorem State.dropStream_statusView (s : State) (n : Nat) : (State.dropStream s n).statusView = s.statusView := by
  unfold State.dropStream; (repeat' split) <;> simp [State.fold_statusView, State.statusView_mk]

@[simp] theorem State.breakPass_statusView (s : State) : (State.breakPass s).statusView = s.statusView := by
  unfold State.breakPass; simp [State.fold_statusView, State.statusView_mk]

@[simp] theorem State.setInsole_statusView (s : State) (stack : Nat) (n : Insole) (hbm : List Host.Cell) :
    (State.setInsole s stack n hbm).statusView = s.statusView := by
  unfold State.setInsole; simp [State.fold_statusView, State.statusView_mk]

@[simp] theorem State.modStation_statusView (s : State) (i : Nat) (g : StationRun → StationRun) : (State.modStation s
    i g).statusView = s.statusView := by
  unfold State.modStation; simp [State.fold_statusView, State.statusView_mk]

@[simp] theorem State.progress_statusView (s : State) : (State.progress s).statusView = s.statusView := by
  unfold State.progress; simp [State.fold_statusView, State.statusView_mk]

@[simp] theorem State.portEmit_statusView (s : State) (i : Nat) : (State.portEmit s i).statusView = s.statusView := by
  unfold State.portEmit; dsimp only; (repeat' split) <;> simp [State.fold_statusView, State.statusView_mk]

@[simp] theorem State.modLace_statusView (s : State) (l : Nat) (f : Lace → Lace) : (State.modLace s l f).statusView =
    s.statusView := by
  unfold State.modLace; simp [State.fold_statusView, State.statusView_mk]

@[simp] theorem State.freeSlots_statusView (s : State) (xs : List (Nat × Nat × Bool × Nat)) : (State.freeSlots s
    xs).statusView = s.statusView := by
  unfold State.freeSlots; simp [State.fold_statusView, State.statusView_mk]

@[simp] theorem State.laceDrain_statusView (s : State) (l : Nat) : (State.laceDrain s l).statusView = s.statusView := by
  unfold State.laceDrain; simp [State.fold_statusView, State.statusView_mk]

@[simp] theorem State.laceSend_statusView (s : State) (l : Nat) (x : LaceTx) : (State.laceSend s l x).statusView =
    s.statusView := by
  unfold State.laceSend; simp [State.fold_statusView, State.statusView_mk]

@[simp] theorem State.sendControl_statusView (s : State) (l : Nat) (m : ControlMsg) : (State.sendControl s l
    m).statusView = s.statusView := by
  unfold State.sendControl; simp [State.fold_statusView, State.statusView_mk]

@[simp] theorem State.flood_statusView (s : State) (except_ : Nat) (m : ControlMsg) : (State.flood s except_
    m).statusView = s.statusView := by
  unfold State.flood; simp [State.fold_statusView, State.statusView_mk]

@[simp] theorem State.oweFault_statusView (s : State) (tag : Nat) : (State.oweFault s tag).statusView = s.statusView := by
  unfold State.oweFault; simp [State.fold_statusView, State.statusView_mk, State.modTorus]

@[simp] theorem State.unreachable_statusView (s : State) (h : PacketHeader) : (State.unreachable s h).statusView =
    s.statusView := by
  unfold State.unreachable; simp [State.fold_statusView, State.statusView_mk, State.modTorus]

@[simp] theorem State.forward_statusView (s : State) (h : PacketHeader) (flits : List Flit) (p l : Nat) (turned :
    Bool) (origin : Option (Nat × Nat × Bool)) : (State.forward s h flits p l turned origin).statusView = s.statusView := by
  unfold State.forward; dsimp only; split <;> simp [State.fold_statusView, State.statusView_mk]

@[simp] theorem State.inject_statusView (s : State) (h : PacketHeader) (flits : List Flit) : (State.inject s h
    flits).statusView = s.statusView := by
  unfold State.inject; dsimp only; (repeat' split) <;> simp [State.fold_statusView, State.statusView_mk, State.modTorus]

@[simp] theorem State.sendSync_statusView (s : State) (dest op object arg : Nat) : (State.sendSync s dest op object
    arg).statusView = s.statusView := by
  unfold State.sendSync; simp [State.fold_statusView, State.statusView_mk]

@[simp] theorem State.followSpan_statusView (s : State) : (State.followSpan s).statusView = s.statusView := by
  unfold State.followSpan; simp [State.fold_statusView, State.statusView_mk, State.modTorus]

@[simp] theorem State.setObj_statusView (s : State) (r : ObjRef) (o : SyncObj) : (State.setObj s r o).statusView =
    s.statusView := by
  unfold State.setObj; simp [State.fold_statusView, State.statusView_mk]

@[simp] theorem State.modPart_statusView (s : State) (k : Nat) (f : Participant → Participant) : (State.modPart s k
    f).statusView = s.statusView := by
  unfold State.modPart; simp [State.fold_statusView, State.statusView_mk]

@[simp] theorem State.freeRemote_statusView (s : State) (k cause : Nat) : (State.freeRemote s k cause).statusView =
    s.statusView := by
  unfold State.freeRemote; simp [State.fold_statusView, State.statusView_mk]

@[simp] theorem State.recordRelease_statusView (s : State) (k cause : Nat) : (State.recordRelease s k
    cause).statusView = s.statusView := by
  unfold State.recordRelease; simp [State.fold_statusView, State.statusView_mk]

@[simp] theorem State.endWait_statusView (s : State) (r : ObjRef) (w : WaitReg) (cause : Nat) : (State.endWait s r w
    cause).statusView = s.statusView := by
  unfold State.endWait; simp [State.fold_statusView, State.statusView_mk]

@[simp] theorem State.toModules_statusView (s : State) (ms : List Nat) (op : Nat) (r : ObjRef) (arg : Nat) :
    (State.toModules s ms op r arg).statusView = s.statusView := by
  unfold State.toModules; simp [State.fold_statusView, State.statusView_mk]

@[simp] theorem State.nodeStep_statusView (s : State) (m : NodeMsg) (r : ObjRef) : (State.nodeStep s m r).1.statusView
    = s.statusView := by
  unfold State.nodeStep; dsimp only; (repeat' split) <;> simp [State.fold_statusView, State.statusView_mk]

@[simp] theorem State.nodes_statusView (x0 : Nat) (x1 : List (NodeMsg × ObjRef)) (s : State) : (State.nodes x0 x1
    s).statusView = s.statusView := by
  induction x0 generalizing s x1 with
  | zero => rfl
  | succ f ih =>
    cases x1 with
    | nil => rfl
    | cons e ms => simp [State.nodes, ih]

@[simp] theorem State.nodeMsg_statusView (s : State) (m : NodeMsg) (r : ObjRef) : (State.nodeMsg s m r).statusView =
    s.statusView := by
  unfold State.nodeMsg; simp [State.fold_statusView, State.statusView_mk]

@[simp] theorem State.ownerLost_statusView (s : State) (rs : List ObjRef) : (State.ownerLost s rs).statusView =
    s.statusView := by
  unfold State.ownerLost; simp [State.fold_statusView, State.statusView_mk]

@[simp] theorem State.spanBroken_statusView (s : State) (tag : Nat) : (State.spanBroken s tag).statusView =
    s.statusView := by
  unfold State.spanBroken; simp [State.fold_statusView, State.statusView_mk]

@[simp] theorem State.settleFault_statusView (s : State) (tag : Nat) : (State.settleFault s tag).statusView =
    s.statusView := by
  unfold State.settleFault; simp [State.fold_statusView, State.statusView_mk, State.modTorus]

@[simp] theorem State.settleFaults_statusView (x0 : Nat) (s : State) : (State.settleFaults x0 s).statusView =
    s.statusView := by
  induction x0 generalizing s with
  | zero => rfl
  | succ f ih =>
    unfold State.settleFaults
    split <;> simp [ih]

@[simp] theorem State.torusDone_statusView (s : State) : (State.torusDone s).statusView = s.statusView := by
  unfold State.torusDone; simp [State.fold_statusView, State.statusView_mk]

@[simp] theorem State.releasePair_statusView (s : State) (step : Nat) : (State.releasePair s step).statusView =
    s.statusView := by
  unfold State.releasePair; (repeat' split) <;> simp [State.fold_statusView, State.statusView_mk]

@[simp] theorem State.loseStep_statusView (s : State) (step : Nat) : (State.loseStep s step).statusView = s.statusView := by
  unfold State.loseStep; (repeat' split) <;> simp [State.fold_statusView, State.statusView_mk]

@[simp] theorem State.modUplink_statusView (s : State) (u : Nat) (f : Uplink → Uplink) : (State.modUplink s u
    f).statusView = s.statusView := by
  unfold State.modUplink; simp [State.fold_statusView, State.statusView_mk, State.modDsp]

@[simp] theorem State.dropStep_statusView (s : State) (n : Nat) : (State.dropStep s n).statusView = s.statusView := by
  unfold State.dropStep; simp [State.fold_statusView, State.statusView_mk]

@[simp] theorem State.rerunStep_statusView (s : State) (n : Nat) (f : PlanEntry → PlanEntry) : (State.rerunStep s n
    f).statusView = s.statusView := by
  unfold State.rerunStep; (repeat' split) <;> simp [State.fold_statusView, State.statusView_mk]

@[simp] theorem State.rerunOwn_statusView (s : State) (n : Nat) : (State.rerunOwn s n).statusView = s.statusView := by
  unfold State.rerunOwn; simp [State.fold_statusView, State.statusView_mk]

@[simp] theorem State.modModule_statusView (s : State) (m : Nat) (f : UcieModule → UcieModule) : (State.modModule s m
    f).statusView = s.statusView := by
  unfold State.modModule; simp [State.fold_statusView, State.statusView_mk]

@[simp] theorem State.unseal_statusView (s : State) (step : Nat) : (State.unseal s step).statusView = s.statusView := by
  unfold State.unseal; (repeat' split) <;> simp [State.fold_statusView, State.statusView_mk]

@[simp] theorem State.loseEvent_statusView (s : State) : (State.loseEvent s).statusView = s.statusView := by
  unfold State.loseEvent; simp [State.fold_statusView, State.statusView_mk]

@[simp] theorem State.stationWrote_statusView (s : State) (i : Nat) : (State.stationWrote s i).statusView =
    s.statusView := by
  unfold State.stationWrote; simp [State.fold_statusView, State.statusView_mk]

@[simp] theorem State.hostFailed_statusView (s : State) (a : HostAccess) : (State.hostFailed s a).statusView =
    s.statusView := by
  unfold State.hostFailed; (repeat' split) <;> simp [State.fold_statusView, State.statusView_mk]

@[simp] theorem State.refuseAccess_statusView (s : State) (a : HostAccess) : (State.refuseAccess s a).statusView =
    s.statusView := by
  unfold State.refuseAccess; simp [State.fold_statusView, State.statusView_mk]

@[simp] theorem State.hostRefused_statusView (s : State) (a : HostAccess) : (State.hostRefused s a).statusView =
    s.statusView := by
  unfold State.hostRefused; simp [State.fold_statusView, State.statusView_mk]

@[simp] theorem State.hostTranslated_statusView (s : State) (a : HostAccess) (e : BitVec 64) : (State.hostTranslated s
    a e).statusView = s.statusView := by
  unfold State.hostTranslated; (repeat' split) <;> simp [State.fold_statusView, State.statusView_mk]

@[simp] theorem State.hostTranslate_statusView (s : State) (a : HostAccess) : (State.hostTranslate s a).statusView =
    s.statusView := by
  unfold State.hostTranslate; dsimp only; (repeat' split) <;> simp [State.fold_statusView, State.statusView_mk]

@[simp] theorem State.hostIssue_statusView (s : State) (a : HostAccess) : (State.hostIssue s a).statusView =
    s.statusView := by
  unfold State.hostIssue; (repeat' split) <;> simp [State.fold_statusView, State.statusView_mk]

@[simp] theorem State.pump_statusView (s : State) : (State.pump s).statusView = s.statusView := by
  unfold State.pump; (repeat' split) <;> simp [State.fold_statusView, State.statusView_mk]

@[simp] theorem State.chain_statusView (s : State) (ws : List HostAccess) : (State.chain s ws).statusView =
    s.statusView := by
  unfold State.chain; simp [State.fold_statusView, State.statusView_mk]

@[simp] theorem State.endRead_statusView (s : State) : (State.endRead s).statusView = s.statusView := by
  unfold State.endRead; simp [State.fold_statusView, State.statusView_mk]

@[simp] theorem State.translationDone_statusView (s : State) (die entry : Nat) (e : BitVec 64) :
    (State.translationDone s die entry e).statusView = s.statusView := by
  unfold State.translationDone; simp [State.fold_statusView, State.statusView_mk]

@[simp] theorem State.hostLost_statusView (s : State) (a : HostAccess) : (State.hostLost s a).statusView =
    s.statusView := by
  unfold State.hostLost; (repeat' split) <;> simp [State.fold_statusView, State.statusView_mk]

@[simp] theorem State.finishOp_statusView (s : State) (result : Nat) : (State.finishOp s result).statusView =
    s.statusView := by
  unfold State.finishOp; simp [State.fold_statusView, State.statusView_mk]

@[simp] theorem State.loseBundle_statusView (s : State) : (State.loseBundle s).statusView = s.statusView := by
  unfold State.loseBundle; (repeat' split) <;> simp [State.fold_statusView, State.statusView_mk]

@[simp] theorem State.linkDown_statusView (s : State) : (State.linkDown s).statusView = s.statusView := by
  unfold State.linkDown; simp [State.fold_statusView, State.statusView_mk]

@[simp] theorem State.linkState_statusView (s : State) : (State.linkState s).statusView = s.statusView := by
  unfold State.linkState; simp [State.fold_statusView, State.statusView_mk]

@[simp] theorem State.failModule_statusView (s : State) (m : Nat) (next : UcieState) : (State.failModule s m
    next).statusView = s.statusView := by
  unfold State.failModule; simp [State.fold_statusView, State.statusView_mk]

@[simp] theorem State.linkOff_statusView (s : State) : (State.linkOff s).statusView = s.statusView := by
  unfold State.linkOff; simp [State.fold_statusView, State.statusView_mk]

@[simp] theorem State.modStoreStack_statusView (s : State) (n : Nat) (f : StoreStack → StoreStack) :
    (State.modStoreStack s n f).statusView = s.statusView := by
  unfold State.modStoreStack; simp [State.fold_statusView, State.statusView_mk]

@[simp] theorem State.viewChanged_statusView (s before : State) : (State.viewChanged s before).statusView =
    s.statusView := by
  unfold State.viewChanged; simp [State.fold_statusView, State.statusView_mk]

@[simp] theorem State.eyeletOff_statusView (s : State) (e : Nat) : (State.eyeletOff s e).statusView = s.statusView := by
  unfold State.eyeletOff; simp [State.fold_statusView, State.statusView_mk]

@[simp] theorem State.dropIncoming_statusView (s : State) : (State.dropIncoming s).statusView = s.statusView := by
  unfold State.dropIncoming; simp [State.fold_statusView, State.statusView_mk]

@[simp] theorem State.refuseHeld_statusView (s : State) : (State.refuseHeld s).statusView = s.statusView := by
  unfold State.refuseHeld; simp [State.fold_statusView, State.statusView_mk]

@[simp] theorem State.endSwitch_statusView (s : State) (result : Nat) : (State.endSwitch s result).statusView =
    s.statusView := by
  unfold State.endSwitch; simp [State.fold_statusView, State.statusView_mk]

@[simp] theorem State.storeLost_statusView (s : State) : (State.storeLost s).statusView = s.statusView := by
  unfold State.storeLost; simp [State.fold_statusView, State.statusView_mk]

@[simp] theorem State.abandonOp_statusView (s : State) : (State.abandonOp s).statusView = s.statusView := by
  unfold State.abandonOp; simp [State.fold_statusView, State.statusView_mk]

@[simp] theorem State.clearQuad_statusView (s : State) (q : Nat) : (State.clearQuad s q).statusView = s.statusView := by
  unfold State.clearQuad; simp [State.fold_statusView, State.statusView_mk]

@[simp] theorem State.loseStack_statusView (s : State) (n : Nat) (state : StackState) : (State.loseStack s n
    state).statusView = s.statusView := by
  unfold State.loseStack; simp [State.fold_statusView, State.statusView_mk]

@[simp] theorem State.stackOff_statusView (s : State) (n : Nat) : (State.stackOff s n).statusView = s.statusView := by
  unfold State.stackOff; simp [State.fold_statusView, State.statusView_mk]

@[simp] theorem State.storeOff_statusView (s : State) (g : Nat) : (State.storeOff s g).statusView = s.statusView := by
  unfold State.storeOff; simp [State.fold_statusView, State.statusView_mk]

@[simp] theorem State.unitsOff_statusView (s : State) (d : Nat) : (State.unitsOff s d).statusView = s.statusView := by
  unfold State.unitsOff
  (repeat' split) <;> simp [State.fold_statusView, State.statusView_mk]

@[simp] theorem State.stopDomain_statusView (s : State) (d : Nat) : (State.stopDomain s d).statusView = s.statusView := by
  unfold State.stopDomain; simp [State.fold_statusView, State.statusView_mk]

@[simp] theorem State.stopGroup_statusView (s : State) (g : List Nat) : (State.stopGroup s g).statusView =
    s.statusView := by
  unfold State.stopGroup
  refine State.statusView_foldl (fun t d => ?_) g s
  split <;> simp

@[simp] theorem State.stopNext_statusView (x0 : Nat) (s : State) : (State.stopNext x0 s).statusView = s.statusView := by
  induction x0 generalizing s with
  | zero => simp [State.stopNext]
  | succ n ih =>
    unfold State.stopNext
    split
    · simp
    · split <;> simp [ih, State.fold_statusView, State.statusView_mk]

@[simp] theorem State.drainOn_statusView (s : State) : (State.drainOn s).statusView = s.statusView := by
  unfold State.drainOn; dsimp only; (repeat' split) <;> simp [State.fold_statusView, State.statusView_mk]

@[simp] theorem State.shutEnds_statusView (s : State) : (State.shutEnds s).statusView = s.statusView := by
  unfold State.shutEnds; (repeat' split) <;> simp [State.fold_statusView, State.statusView_mk]

@[simp] theorem State.stopOn_statusView (s : State) : (State.stopOn s).statusView = s.statusView := by
  unfold State.stopOn; (repeat' split) <;> simp [State.fold_statusView, State.statusView_mk]

section
variable {s : State} {cyc cause : Nat}

/-! ### POWER_ON resets (R562, R567) -/

theorem exec_powerFailRestart_due (shut : s.pwr.shutDown = true) (stopped : s.pwr.stopping = none)
    (calm : s.pwr.warn = false) (due : s.pwr.releasedAt + 1250000 ≤ s.clock) :
    exec (.powerFailRestart true) s = .next (s.powerOnReset 2) := by
  have run : exec (.powerFailRestart true) s = execPowerFailRestart true s := rfl
  rw [run, execPowerFailRestart, decide_eq_true due, if_pos (by simp [shut, stopped, calm])]

theorem exec_ejectRestart_due (ready : s.pwr.hotSwap = .readyToRemove) :
    exec .ejectRestart s = .next (s.powerOnReset 3) := by
  have run : exec .ejectRestart s = execEjectRestart s := rfl
  rw [run, execEjectRestart, if_pos ready]

/-- No POWER_ON reset leaves the module unlocked. -/
theorem State.powerOnReset_debug (s : State) (cause : Nat) : (s.powerOnReset cause).sec.debug ≠ .unlocked := by
  have left : (s.powerOnReset cause).sec.debug = if s.sec.debug = DebugState.opn then .opn else .locked := rfl
  rw [left]
  split <;> decide

/-! ### MODULE resets (R563, R565, R566) -/

theorem State.beginReset_eq (runs : s.pwr.shutDown = false) (supplied : s.pwr.coreOff = false)
    (outside : s.inReset = false) : s.beginReset cause = s.beginStop (.reset cause) stopOrder := by
  rw [State.beginReset, if_neg (by simp [runs, supplied, outside])]

theorem State.beginReset_lastStatus (s : State) (cause : Nat) :
    (s.beginReset cause).dict.lastStatus = s.dict.lastStatus := by
  unfold State.beginReset
  split
  · rfl
  · obtain ⟨fab, syn, begun⟩ := s.beginStop_eq (.reset cause) stopOrder
    rw [begun]
    exact congrArg StatusView.lastStatus (State.stopOn_statusView _)

/-- The module whose SRV_RESET_CMD is 1, and whose reset is about to begin. -/
def State.resetCommanded (s : State) (cyc : Nat) : State :=
  ((({ s.stamp cyc with boot := { s.boot with restart := some 1 } }).setReg Reg.SRV_RESET_CMD 1).status Status.OK)

theorem exec_resetModuleCmd : exec (.resetModuleCmd cyc) s = .next (State.beginReset
    { s.resetCommanded cyc with boot := { s.boot with restart := none } } 5) := rfl

/-! ### FIRMWARE resets (R564) -/

theorem State.commitReset_refused (busy : s.anyStream = true ∨ s.store.opState ≠ .idle ∨ s.store.switchState ≠ .idle ∨
    s.pwr.hotSwap ≠ .inService) : s.commitReset 2 = s.status Status.VALUE_STATE := by
  rw [State.commitReset, if_pos]
  rcases busy with streams | op | change | leaving
  · simp [streams]
  · simp [op]
  · simp [change]
  · simp [leaving]

theorem State.commitReset_firmware (free : s.anyStream = false) (still : s.store.opState = .idle)
    (settled : s.store.switchState = .idle) (serves : s.pwr.hotSwap = .inService) : s.commitReset 2 =
      (({ s with boot := { s.boot with restart := some 2 } }).setReg Reg.SRV_RESET_CMD 2).status Status.OK := by
  rw [State.commitReset, if_neg (by simp [free, still, settled, serves])]

theorem exec_resetFirmwareCmd : exec (.resetFirmwareCmd cyc) s = .next ((s.stamp cyc).commitReset 2).beginCommanded :=
  rfl

/-! ### The end of a MODULE reset (R566) -/

theorem exec_moduleRstLRelease_stopped (stopping : s.pwr.stopping = some (.reset cause)) (left : s.pwr.stopLeft = []) :
    exec .moduleRstLRelease s = .next (State.moduleReset { s with boot := { s.boot with resetHeld := false } } cause) := by
  have run : exec .moduleRstLRelease s =
    .next (State.resetOn { s with boot := { s.boot with resetHeld := false } }) := rfl
  rw [run, State.resetOn]
  dsimp only
  rw [stopping, left]
  rfl

theorem exec_moduleRstLRelease_running (none : s.pwr.stopping = none) :
    exec .moduleRstLRelease s = .next { s with boot := { s.boot with resetHeld := false } } := by
  have run : exec .moduleRstLRelease s =
    .next (State.resetOn { s with boot := { s.boot with resetHeld := false } }) := rfl
  rw [run, State.resetOn]
  dsimp only
  rw [none]

theorem State.followCap_streams (s : State) : s.followCap.srv.streams = s.srv.streams := by
  unfold State.followCap
  dsimp only
  (repeat' split) <;> simp

/-- What a MODULE reset leaves with the debug state it sets, before the cap and its event. -/
def State.moduleCleared (s : State) (cause : Nat) (debug : DebugState) : State :=
  { s.cleared cause s.boot.uptime debug with
    tb := { s.tb with armed := false, load := none, holdSlots := 0, missed := 0, outOfWindow := 0, markFaults := 0 }
    dict := { lastReply := s.dict.lastReply, lastStatus := s.dict.lastStatus, ended := (s.dict.rollBack s.fst).ended
              nextId := s.dict.nextId, plca := s.dict.plca }
    ras := { persist := s.ras.persist, storedSets := s.ras.storedSets
             service := if s.pwr.underVoltage then .outOfService else .serving }
    pwr := { domains := freshDomains s.part, warn := s.pwr.warn, warnAt := s.pwr.warnAt, fastLevel := s.pwr.fastLevel
             fastNext := s.pwr.fastNext, inputPower := s.pwr.inputPower, inputVoltage := s.pwr.inputVoltage
             tempMax := s.pwr.tempMax, underVoltage := s.pwr.underVoltage } }

/-- Beside the power state and the event path, a MODULE reset leaves what `State.moduleCleared` says. -/
theorem State.moduleReset_eq (s : State) (cause : Nat) : ∃ debug pwr srv, srv.streams = [] ∧
    s.moduleReset cause = { s.moduleCleared cause debug with pwr := pwr, srv := srv } := by
  obtain ⟨debug, reset⟩ : ∃ debug, s.moduleReset cause = if debug = .unlocked then
      (s.moduleCleared cause debug).followCap.raise 0x0E07 0 (s.moduleCleared cause debug).followCap.tb.boundaryFst 0
    else (s.moduleCleared cause debug).followCap := ⟨_, rfl⟩
  obtain ⟨breach, breaches, srv, followed⟩ := (s.moduleCleared cause debug).followCap_eq
  have empty : (s.moduleCleared cause debug).followCap.srv.streams = [] := State.followCap_streams _
  refine ⟨debug, (s.moduleCleared cause debug).followCap.pwr, (s.moduleReset cause).srv, ?_, ?_⟩
  · rw [reset]
    split
    · rw [State.raise_streams, empty]
    · exact empty
  · rw [reset]
    split
    · rw [State.raise_eq, followed]
    · rw [followed]

end

/-- Settles O44: each kind of reset by the lemma that says how it begins, and the state it leaves. -/
theorem resetsBegin : Obligations.ResetsBegin := by
  unfold Obligations.ResetsBegin
  refine ⟨fun cause c s kind => ?powerOn, fun cyc s runs supplied outside => ⟨?pin, ?watchdog, ?command⟩,
    fun cyc s busy none => ?refused, fun cyc s => ⟨_, exec_resetModuleCmd, State.beginReset_lastStatus _ 5⟩,
    fun cyc s free still settled serves => ?firmware, fun cause s stopping left => ?released,
    fun s none => exec_moduleRstLRelease_running none⟩
  case powerOn =>
    have ran : exec c s = .next (s.powerOnReset cause) := by
      rcases kind with ⟨rfl, rfl⟩ | ⟨rfl, rfl, shut, stopped, calm, due⟩ | ⟨rfl, rfl, ready⟩
      · rfl
      · exact exec_powerFailRestart_due shut stopped calm due
      · exact exec_ejectRestart_due ready
    exact ⟨_, ran, rfl, rfl, rfl, rfl, rfl, rfl, rfl, rfl, rfl, rfl, rfl, rfl, rfl, rfl, rfl, rfl, rfl, rfl, rfl, rfl,
      s.powerOnReset_debug cause, rfl, rfl, rfl, rfl, rfl, rfl, rfl, rfl, rfl⟩
  case pin =>
    obtain ⟨fab, syn, begun⟩ := State.beginStop_eq { s.stamp cyc with boot := { s.boot with resetHeld := true } }
      (.reset 4) stopOrder
    have ran : exec (.moduleResetPin cyc) s =
      .next (State.beginReset { s.stamp cyc with boot := { s.boot with resetHeld := true } } 4) := rfl
    rw [State.beginReset_eq (by exact runs) (by exact supplied) (by exact outside)] at ran
    exact ⟨_, _, ran, begun, rfl, rfl, rfl, rfl, rfl, rfl, rfl⟩
  case watchdog =>
    obtain ⟨fab, syn, begun⟩ := (s.stamp cyc).beginStop_eq (.reset 6) stopOrder
    have ran : exec (.watchdogExpire cyc) s = .next ((s.stamp cyc).beginReset 6) := rfl
    rw [State.beginReset_eq (by exact runs) (by exact supplied) (by exact outside)] at ran
    exact ⟨_, _, ran, begun, rfl, rfl, rfl, rfl, rfl, rfl, rfl⟩
  case command =>
    obtain ⟨fab, syn, begun⟩ := State.beginStop_eq
      { s.resetCommanded cyc with boot := { s.boot with restart := none } } (.reset 5) stopOrder
    have ran := exec_resetModuleCmd (s := s) (cyc := cyc)
    rw [State.beginReset_eq (by exact runs) (by exact supplied) (by exact outside)] at ran
    exact ⟨_, _, ran, begun, rfl, rfl, rfl, rfl, rfl, rfl, rfl, rfl⟩
  case refused =>
    rw [exec_resetFirmwareCmd, State.commitReset_refused (by exact busy), State.beginCommanded,
      show ((s.stamp cyc).status Status.VALUE_STATE).boot.restart = Option.none from none]
  case firmware =>
    have ran := exec_resetFirmwareCmd (s := s) (cyc := cyc)
    rw [State.commitReset_firmware (by exact free) (by exact still) (by exact settled) (by exact serves)] at ran
    exact ⟨_, ran, rfl, rfl, rfl, rfl, rfl, rfl, rfl, rfl, rfl, rfl, rfl, rfl⟩
  case released =>
    obtain ⟨debug, pwr, srv, streams, reset⟩ :=
      State.moduleReset_eq { s with boot := { s.boot with resetHeld := false } } cause
    refine ⟨_, exec_moduleRstLRelease_stopped stopping left, ?_⟩
    rw [reset]
    exact ⟨rfl, rfl, rfl, rfl, rfl, rfl, rfl, streams, rfl⟩

end Sys2Proof.Machine
end

section
/-! PROOFS. The first second (R568, R569, Tables 18-3 and 18-6): items that begin in their slot, and rows that are cut. -/

namespace Sys2Proof.Machine

section
variable {s : State} {cyc row part d k : Nat} {env : BringupEnv} {bits : BitVec 16}

/-! ### Items that begin -/

/-- An item that is before its slot, has begun, or whose row is complete begins nothing. -/
theorem exec_bringupItemStart_early (known : (itemStart row part).isSome = true)
    (early : s.boot.slots < (itemStart row part).getD 0 ∨ 16 * row + part ∈ s.boot.begun ∨ row ∈ s.boot.completed) :
    exec (.bringupItemStart cyc row part env) s = .next s := by
  have run : exec (.bringupItemStart cyc row part env) s = execBringupItemStart cyc row part env s := rfl
  rw [run, execBringupItemStart, onUnit_true (by simpa using known), if_pos]
  rcases early with soon | begun | complete
  · rw [decide_eq_true soon]; rfl
  · simp [begun]
  · simp [complete]

/-- The item of a domain that may start begins, and the domain starts. -/
theorem exec_bringupItemStart_domain (domain : itemDomain row part = some d) (known : (itemStart row part).isSome = true)
    (due : (itemStart row part).getD 0 ≤ s.boot.slots) (new : 16 * row + part ∉ s.boot.begun)
    (open_ : row ∉ s.boot.completed) (bringUp : s.boot.state = .bringUp)
    (cool : env.temperature ≤ (s.reg Reg.PWR_THERMAL_LIMIT : Int) * 100) (calm : s.pwr.warn = false)
    (enables : (s.stamp cyc).enableDomain d = (Status.OK, (s.stamp cyc).startDomain d)) :
    exec (.bringupItemStart cyc row part env) s = .next (((s.stamp cyc).startDomain d).itemBegan row part) := by
  have run : exec (.bringupItemStart cyc row part env) s = execBringupItemStart cyc row part env s := rfl
  have goes : ¬ (decide (s.boot.slots < (itemStart row part).getD 0) || s.boot.begun.contains (16 * row + part) ||
      s.boot.completed.contains row) = true := by
    rw [decide_eq_false (Nat.not_lt.2 due)]
    simp [new, open_]
  have allowed : ¬ (decide (s.boot.state ≠ .bringUp) ||
      decide ((s.reg Reg.PWR_THERMAL_LIMIT : Int) * 100 < env.temperature) || s.pwr.warn) = true := by
    rw [decide_eq_false (not_lt.2 cool)]
    simp [bringUp, calm]
  rw [run, execBringupItemStart, onUnit_true (by simpa using known), if_neg goes, domain]
  dsimp only
  rw [if_neg allowed, enables, if_pos rfl]

/-- The ROM chooses a bank once the memories have been read. -/
theorem exec_bringupItemStart_bank (due : 8 ≤ s.boot.slots) (new : 16 ∉ s.boot.begun) (open_ : 1 ∉ s.boot.completed)
    (rom : s.boot.state = .rom) (hasRead : 0 ∈ s.boot.begun) :
    exec (.bringupItemStart cyc 1 0 env) s = .next ((s.stamp cyc).chooseBank.itemBegan 1 0) := by
  have run : exec (.bringupItemStart cyc 1 0 env) s = execBringupItemStart cyc 1 0 env s := rfl
  have goes : ¬ (decide (s.boot.slots < (itemStart 1 0).getD 0) || s.boot.begun.contains (16 * 1 + 0) ||
      s.boot.completed.contains 1) = true := by
    rw [show (itemStart 1 0).getD 0 = 8 from rfl, decide_eq_false (Nat.not_lt.2 due)]
    simp [new, open_]
  have none : itemDomain 1 0 = none := rfl
  rw [run, execBringupItemStart, onUnit_true (by decide), if_neg goes, none]
  exact congrArg _ (if_pos (by simp [rom, hasRead]))

/-! ### Rows that are cut (R569) -/

theorem exec_bringupTimeout_due (inside : row < 14) (other : row ≠ 11) (due : 40000 ≤ s.boot.slots)
    (bringUp : s.boot.state = .bringUp) : exec (.bringupTimeout cyc row) s =
      .next ((((List.range (itemParts row)).filter fun p => !s.itemDone row p).filterMap (itemDomain row)).foldl
        (fun (t : State) d => t.failDomain d 4) (s.stamp cyc)) := by
  have run : exec (.bringupTimeout cyc row) s = execBringupTimeout cyc row s := rfl
  have goes : ¬ (decide (s.boot.slots < 40000) || decide (s.boot.state ≠ .bringUp)) = true := by
    rw [decide_eq_false (Nat.not_lt.2 due)]
    simp [bringUp]
  rw [run, execBringupTimeout, onUnit_true (by simpa using inside), if_neg goes]
  dsimp only
  rw [if_neg other]

/-- The item of a domain that is STARTING is not done. -/
theorem State.itemDone_starting (domain : itemDomain row part = some d) (hard : s.boot.cause ≠ 7)
    (starting : (s.domain d).state = .starting) (xu : (s.domain 19).state ≠ .fault) : s.itemDone row part = false := by
  unfold State.itemDone
  rw [domain]
  dsimp only
  rw [starting]
  simp [hard, xu]

/-- The items of a row of quadrants or of memory, store or power groups enable different domains. -/
theorem itemDomain_injective (first : 7 ≤ row) (last : row < 11) {p q : Nat} (one : itemDomain row p = some d)
    (two : itemDomain row q = some d) : p = q := by
  obtain rfl | rfl | rfl | rfl : row = 7 ∨ row = 8 ∨ row = 9 ∨ row = 10 := by omega
  all_goals
    simp only [itemDomain, Option.some.injEq] at one two
    omega

theorem State.failDomain_running (going : s.pwr.stopping = none) : s.failDomain d bits = s.cutDomain d bits := by
  obtain ⟨g, same⟩ := s.cutDomain_pwr d bits
  have stays : (s.cutDomain d bits).pwr.stopping = none := by rw [same]; exact going
  rw [State.failDomain, State.stopOn, if_neg (by simp [stays])]

theorem State.failDomain_stopping (going : s.pwr.stopping = none) : (s.failDomain d bits).pwr.stopping = none := by
  obtain ⟨g, same⟩ := s.cutDomain_pwr d bits
  rw [State.failDomain_running going, same]
  exact going

theorem State.foldl_failDomain_ne (l : List Nat) (going : s.pwr.stopping = none) (other : k ∉ l) :
    (l.foldl (fun (t : State) d => t.failDomain d bits) s).domain k = s.domain k := by
  induction l generalizing s with
  | nil => rfl
  | cons d ds ih =>
    obtain ⟨ne, rest⟩ := not_or.1 (mt List.mem_cons.2 other)
    rw [List.foldl_cons, ih (State.failDomain_stopping going) rest, State.failDomain_running going,
      State.cutDomain_domain_ne ne]

/-- Of a list of domains that fail, one that is up and stands in the list once is cut. -/
theorem State.foldl_failDomain_domain (l : List Nat) (going : s.pwr.stopping = none) (inside : d ∈ l) (once : l.Nodup)
    (up : (s.domain d).state.down = false) (present : d < s.pwr.domains.length) :
    (l.foldl (fun (t : State) d => t.failDomain d bits) s).domain d = (s.domain d).cut bits := by
  induction l generalizing s with
  | nil => exact absurd inside List.not_mem_nil
  | cons e es ih =>
    obtain ⟨new, rest⟩ := List.nodup_cons.1 once
    rw [List.foldl_cons]
    by_cases same : d = e
    · subst same
      rw [State.foldl_failDomain_ne es (State.failDomain_stopping going) new, State.failDomain_running going,
        State.cutDomain_domain_up up present]
    · obtain ⟨g, moved⟩ := s.cutDomain_pwr e bits
      have keeps : (s.failDomain e bits).domain d = s.domain d := by
        rw [State.failDomain_running going, State.cutDomain_domain_ne same]
      have long : d < (s.failDomain e bits).pwr.domains.length := by
        rw [State.failDomain_running going, moved, State.modDomain, lmod, List.length_modify]
        exact present
      rw [ih (State.failDomain_stopping going) (List.mem_of_ne_of_mem same inside) rest (by rw [keeps]; exact up) long,
        keeps]

end

/-- Settles O45: each item and each row by the lemma that says what begins or is cut. -/
theorem bringUpProceeds : Obligations.BringUpProceeds := by
  unfold Obligations.BringUpProceeds
  refine ⟨fun cyc row part d env s domain known due new open_ bringUp cool calm present off old xu going powered seated =>
    ?starts, fun cyc row part env s known early => exec_bringupItemStart_early known early,
    fun cyc env s due new open_ rom hasRead =>
      ⟨_, _, exec_bringupItemStart_bank due new open_ rom hasRead, rfl, rfl, rfl, rfl⟩,
    fun cyc row part d s last first inside domain due bringUp hard starting xu going present => ?cut⟩
  case starts =>
    have enables := State.enableDomain_off (s := s.stamp cyc) off xu going powered seated
    have old' : ((s.stamp cyc).domain d).minOff = false := old
    rw [old', if_neg Bool.false_ne_true] at enables
    exact ⟨_, exec_bringupItemStart_domain domain known due new open_ bringUp cool calm enables, rfl,
      (congrArg Domain.state (State.domain_modDomain_self (s := s.stamp cyc) present _) :),
      fun k other => (State.domain_modDomain_ne (s := s.stamp cyc) other _ :), rfl⟩
  case cut =>
    have waits : d ∈ ((List.range (itemParts row)).filter fun p => !s.itemDone row p).filterMap (itemDomain row) := by
      refine List.mem_filterMap.2 ⟨part, List.mem_filter.2 ⟨List.mem_range.2 inside, ?_⟩, domain⟩
      rw [State.itemDone_starting domain hard starting xu]
      rfl
    have once : (((List.range (itemParts row)).filter fun p => !s.itemDone row p).filterMap (itemDomain row)).Nodup :=
      (List.nodup_range.filter _).filterMap fun p q x one two => itemDomain_injective first last one two
    have failed := State.foldl_failDomain_domain (bits := 4) _ (s := s.stamp cyc) going waits once
      (by rw [show (s.stamp cyc).domain d = s.domain d from rfl, starting]; rfl) present
    exact ⟨_, exec_bringupTimeout_due (by omega) (by omega) due bringUp, congrArg Domain.state failed,
      congrArg Domain.fault failed⟩

end Sys2Proof.Machine
end

section
/-! PROOFS. Key records, tickets, attestation and the security version (R589 to R602). -/

namespace Sys2Proof.Machine

section
variable {s : State} {cyc i : Nat} {b c nonce : List Byte}

/-! ### Checks of a signed item -/

theorem State.verify_keys (s : State) (what : Item) (b : List Byte) : (s.verify what b).2.sec.keys = s.sec.keys ∧
    (s.verify what b).2.sec.keySeq = s.sec.keySeq := by
  cases signed : s.sec.verifies what b
  · rw [State.verify_refuses signed, State.raise_sec]
    exact ⟨rfl, rfl⟩
  · rw [State.verify_accepts signed]
    exact ⟨rfl, rfl⟩

/-- Where an item verifies, nothing else has happened. -/
theorem State.verify_true {what : Item} (ok : (s.verify what b).1 = true) : (s.verify what b).2 = s := by
  cases signed : s.sec.verifies what b
  · rw [State.verify_refuses signed] at ok
    cases ok
  · rw [State.verify_accepts signed]

/-! ### Key records (R593) -/

/-- The checks of one key record beside its signature. -/
def Security.keyFits (x : Security) (b : List Byte) : Bool :=
  keyFormat b && decide (x.keySeq < (parseKey b).seq) && !x.revoked.contains (parseKey b).serial

theorem State.verifyKeys_cons (s : State) (b : List Byte) (bs : List (List Byte)) : s.verifyKeys (b :: bs) =
    if (s.verify .keyRecord b).1 && s.sec.keyFits b then (s.verify .keyRecord b).2.verifyKeys bs
    else (false, (s.verify .keyRecord b).2) := by
  simp only [State.verifyKeys, Security.keyFits, Bool.and_assoc]

/-- Records that all verify change nothing by it. -/
theorem State.verifyKeys_true (bs : List (List Byte)) (ok : (s.verifyKeys bs).1 = true) : (s.verifyKeys bs).2 = s := by
  induction bs with
  | nil => rfl
  | cons b bs ih =>
    rw [State.verifyKeys_cons] at ok ⊢
    split at ok
    · next good =>
      rw [if_pos good]
      have still := State.verify_true (Bool.and_eq_true_iff.1 good).1
      rw [still] at ok ⊢
      exact ih ok
    · cases ok

/-- Whatever the records, no key has been added when they have been checked. -/
theorem State.verifyKeys_keys (bs : List (List Byte)) (s : State) : (s.verifyKeys bs).2.sec.keys = s.sec.keys ∧
    (s.verifyKeys bs).2.sec.keySeq = s.sec.keySeq ∧ (s.verifyKeys bs).2.blobs = s.blobs := by
  induction bs generalizing s with
  | nil => exact ⟨rfl, rfl, rfl⟩
  | cons b bs ih =>
    obtain ⟨keys, seq⟩ := s.verify_keys .keyRecord b
    have blobs := s.verify_blobs .keyRecord b
    rw [State.verifyKeys_cons]
    split
    · obtain ⟨keys', seq', blobs'⟩ := ih (s.verify .keyRecord b).2
      exact ⟨keys'.trans keys, seq'.trans seq, blobs'.trans blobs⟩
    · exact ⟨keys, seq, blobs⟩

/-- The module with key records added. -/
def State.keysAdded (s : State) (b : List Byte) : State :=
  { s with sec := ((pieces 320 64 b).map parseKey).foldl Security.addKey s.sec }.setBlob Reg.SEC_KEY_UPDATE b

theorem State.commitKeys_eq (whole : b.length % 320 = 0) (some_ : 1 ≤ b.length / 320) (most : b.length / 320 ≤ 64) :
    s.commitKeys b = if (s.verifyKeys (pieces 320 64 b)).1 then
      (((s.verifyKeys (pieces 320 64 b)).2.keysAdded b).raise 0x0E06
        (((pieces 320 64 b).getLast?.map fun b => (parseKey b).serial).getD 0)
        ((s.verifyKeys (pieces 320 64 b)).2.keysAdded b).tb.boundaryFst 0).status Status.OK
    else (s.verifyKeys (pieces 320 64 b)).2.status Status.VALUE_STATE := by
  have fits : ¬ (decide (b.length % 320 ≠ 0) || decide (b.length / 320 = 0) || decide (64 < b.length / 320)) = true := by
    simp only [Bool.or_eq_true, decide_eq_true_eq]
    omega
  rw [State.commitKeys]
  dsimp only
  rw [if_neg fits]
  cases (s.verifyKeys (pieces 320 64 b)).1 <;> rfl

/-! ### Tickets (R595 to R597, R602) -/

/-- What a ticket of a kind is signed as. -/
def ticketItem : Nat → Item
  | 1 => .enrol
  | 2 => .release
  | _ => .debugUnlock

theorem State.commitTicket_enrol (signed : s.sec.verifies .enrol b = true) (fits : s.ticketFits b 1 = true) :
    s.commitTicket 1 b c = (s.setBlob Reg.SEC_TICKET b).newNonce.enrol b := by
  have good : ¬ (!true || !true || !((decide (1 = 1) || decide (1 = 2) || decide (1 = 3)) && s.ticketFits b 1 &&
      (!(decide (1 = 3) && s.sec.ownerSlot != 0) ||
        (s.ticketFits c 3 && decide (c.take 160 = b.take 160))))) = true := by
    simp [fits]
  unfold State.commitTicket
  dsimp only
  erw [State.verify_accepts signed]
  exact if_neg good

theorem State.commitTicket_release (signed : s.sec.verifies .release b = true) (fits : s.ticketFits b 2 = true) :
    s.commitTicket 2 b c = (s.setBlob Reg.SEC_TICKET b).newNonce.release := by
  have good : ¬ (!true || !true || !((decide (2 = 1) || decide (2 = 2) || decide (2 = 3)) && s.ticketFits b 2 &&
      (!(decide (2 = 3) && s.sec.ownerSlot != 0) ||
        (s.ticketFits c 3 && decide (c.take 160 = b.take 160))))) = true := by
    simp [fits]
  unfold State.commitTicket
  dsimp only
  erw [State.verify_accepts signed]
  exact if_neg good

/-- Without an owner a DEBUG_UNLOCK ticket needs no co-signature. -/
theorem State.commitTicket_debugUnlock (none_ : s.sec.ownerSlot = 0) (signed : s.sec.verifies .debugUnlock b = true)
    (fits : s.ticketFits b 3 = true) : s.commitTicket 3 b c =
      ((s.setBlob Reg.SEC_TICKET b).newNonce.setBlob Reg.SEC_TICKET_COSIGN c).unlockDebug := by
  have alone : (decide (3 = 3) && s.sec.ownerSlot != 0) = false := by simp [none_]
  have good : ¬ (!true || !true || !((decide (3 = 1) || decide (3 = 2) || decide (3 = 3)) && s.ticketFits b 3 &&
      (!false || (s.ticketFits c 3 && decide (c.take 160 = b.take 160))))) = true := by
    simp [fits]
  unfold State.commitTicket
  dsimp only
  erw [State.verify_accepts signed, alone]
  exact if_neg good

/-- A ticket that does not verify draws a new nonce and is counted. -/
theorem State.commitTicket_unsigned {kind : Nat} (known : kind = 1 ∨ kind = 2 ∨ kind = 3)
    (unsigned : s.sec.verifies (ticketItem kind) b = false) :
    s.commitTicket kind b c = (s.verify (ticketItem kind) b).2.newNonce.status Status.VALUE_STATE := by
  have refuses := State.verify_refuses unsigned
  unfold State.commitTicket
  rcases known with rfl | rfl | rfl
  · have item : s.verify .enrol b = (false, _) := refuses
    simp only [ticketItem, item]
    rfl
  · have item : s.verify .release b = (false, _) := refuses
    simp only [ticketItem, item]
    rfl
  · have item : s.verify .debugUnlock b = (false, _) := refuses
    simp only [ticketItem, item]
    rfl

/-- What a ticket that does not verify leaves. -/
theorem State.refused_newNonce {what : Item} (unsigned : s.sec.verifies what b = false) :
    ∃ srv, (s.verify what b).2.newNonce.status Status.VALUE_STATE = { s with
      sec := { s.sec with sigFailures := sat 32 (s.sec.sigFailures + 1), nonce := s.sec.nonce + 1 }
      dict := { s.dict with lastStatus := Status.VALUE_STATE }
      srv := srv } := by
  obtain ⟨srv, raised⟩ : ∃ srv, (s.verify what b).2 = { s with
      sec := { s.sec with sigFailures := sat 32 (s.sec.sigFailures + 1) }, srv := srv } :=
    ⟨_, (congrArg Prod.snd (State.verify_refuses unsigned)).trans (State.raise_eq _ _ _ _ _)⟩
  rw [raised]
  exact ⟨srv, rfl⟩

/-- The security state once slot `i` holds the owner of an ENROL ticket. -/
def Security.enrolledIn (x : Security) (i : Nat) (b : List Byte) : Security :=
  { x with owners := x.owners.set i (.enrolled (sha384 (slice b 0x38 97)) (slice b 0x38 97))
           ownerFw := bit (field b 5 1) 0, ownerFresh := true }

theorem State.enrol_first (none_ : s.sec.ownerSlot = 0) (free : s.sec.owners.findIdx? (· = .free) = some i) :
    s.enrol b = ({ s with sec := s.sec.enrolledIn i b }.raise 0x0E04 (i + 1) s.tb.boundaryFst 0).status Status.OK := by
  rw [State.enrol, free]
  dsimp only
  rw [if_pos none_]
  rfl

theorem State.release_owner (owner : s.sec.ownerSlot ≠ 0) (free : s.ownerStaged = false) (signer : s.boot.signer ≠ 2) :
    s.release = ({ s with sec := { s.sec with owners := s.sec.owners.set (s.sec.ownerSlot - 1) .revoked
                                              ownerFw := false } }.raise
      0x0E05 s.sec.ownerSlot s.tb.boundaryFst 0).status Status.OK := by
  rw [State.release, if_neg (by simp [owner, free, signer])]

/-! ### Attestation and the security version (R599 to R601) -/

/-- The module that makes a report over a nonce. -/
def State.attesting (s : State) (nonce : List Byte) : State :=
  { s with sec := { s.sec with attest := .generating, report := s.reportBody nonce } }

theorem State.commitAttest_free (long : nonce.length = 32) (free : s.sec.attest ≠ .generating) :
    s.commitAttest nonce = ((s.attesting nonce).setBlob Reg.SEC_ATTEST_NONCE nonce).status Status.OK := by
  rw [State.commitAttest, if_neg (by simp [long]), if_neg free]
  rfl

/-- The security state once the report that was made is signed. -/
def Security.reported (x : Security) : Security :=
  { x with attest := .ready, report := x.report ++ x.attestBlock x.report, signDraw := x.signDraw + 1 }

theorem exec_attestReportReady_due (making : s.sec.attest = .generating) : exec (.attestReportReady cyc) s =
    .next ({ s.stamp cyc with sec := s.sec.reported }.raise 0x0E08 0 (field s.sec.report 0x18 8) 0) := by
  have run : exec (.attestReportReady cyc) s = execAttestReportReady cyc s := rfl
  rw [run, execAttestReportReady, if_neg (by simp [making])]
  rfl

/-- The module whose minimum is the security version that runs. -/
def State.svnRaised (s : State) : State :=
  { s with sec := { s.sec with minSvn := s.boot.securityVersion } }.setReg Reg.SEC_SVN_RAISE 1

theorem State.commitSvn_higher (higher : s.sec.minSvn < s.boot.securityVersion) (fused : s.boot.securityVersion ≤ 64)
    (settled : s.boot.trialBoot = false) : s.commitSvn 1 =
      (s.svnRaised.raise 0x0E09 0 s.svnRaised.tb.boundaryFst 0).status Status.OK := by
  have may : ¬ (decide (s.boot.securityVersion ≤ s.sec.minSvn) || decide (64 < s.boot.securityVersion) ||
      s.boot.trialBoot) = true := by
    simp only [settled, Bool.or_false, Bool.or_eq_true, decide_eq_true_eq]
    omega
  rw [State.commitSvn]
  dsimp only
  rw [if_neg may]
  rfl

theorem State.commitSvn_refused (low : s.boot.securityVersion ≤ s.sec.minSvn ∨ s.boot.trialBoot = true) :
    s.commitSvn 1 = s.status Status.VALUE_STATE := by
  rw [State.commitSvn]
  refine if_pos ?_
  rcases low with low | trial
  · simp [low]
  · simp [trial]

end

/-- Settles O47: each commit by the lemma that says what it does where its item verifies and where it does not. -/
theorem ticketsAndAttestation : Obligations.TicketsAndAttestation := by
  unfold Obligations.TicketsAndAttestation
  refine ⟨⟨fun cyc b s whole some_ most => ⟨_, rfl, fun u checked => ?added, fun u checked => ?unadded⟩,
    fun cyc b s none_ => ⟨_, rfl, fun i signed fits free => ?enrolled, fun unsigned => ?unenrolled⟩,
    fun cyc b s owner free signer => ⟨_, rfl, fun signed fits => ?released, fun unsigned => ?unreleased⟩,
    fun cyc b c s none_ closed => ⟨_, rfl, fun signed fits => ?unlocks, fun unsigned => ?locked⟩⟩,
    fun cyc nonce s long free => ?attest, fun cyc nonce s short => congrArg Host.Outcome.next (if_pos short), fun cyc s making => ?report,
    fun cyc s higher fused settled => ?raised,
    fun cyc s low => congrArg Host.Outcome.next (State.commitSvn_refused (s := s.stamp cyc) low)⟩
  case added =>
    have still := State.verifyKeys_true (s := s.stamp cyc) (pieces 320 64 b) (by rw [checked])
    rw [State.commitKeys_eq whole some_ most, still, checked, if_pos rfl, State.raise_eq]
    exact ⟨rfl, rfl, rfl⟩
  case unadded =>
    obtain ⟨keys, seq, blobs⟩ := State.verifyKeys_keys (pieces 320 64 b) (s.stamp cyc)
    rw [State.commitKeys_eq whole some_ most, checked, if_neg Bool.false_ne_true, ← congrArg Prod.snd checked]
    exact ⟨keys, seq, rfl, blobs⟩
  case enrolled =>
    rw [State.commitTicket_enrol (s := s.stamp cyc) signed fits]
    rw [State.enrol_first (s := ((s.stamp cyc).setBlob Reg.SEC_TICKET b).newNonce) none_ free, State.raise_eq]
    exact ⟨rfl, rfl, rfl⟩
  case unenrolled =>
    obtain ⟨srv, refused⟩ := State.refused_newNonce (s := s.stamp cyc) (what := ticketItem 1) unsigned
    rw [State.commitTicket_unsigned (s := s.stamp cyc) (.inl rfl) unsigned, refused]
    exact ⟨rfl, rfl, rfl⟩
  case released =>
    rw [State.commitTicket_release (s := s.stamp cyc) signed fits]
    rw [State.release_owner (s := ((s.stamp cyc).setBlob Reg.SEC_TICKET b).newNonce) owner free signer, State.raise_eq]
    exact ⟨rfl, rfl, rfl⟩
  case unreleased =>
    obtain ⟨srv, refused⟩ := State.refused_newNonce (s := s.stamp cyc) (what := ticketItem 2) unsigned
    rw [State.commitTicket_unsigned (s := s.stamp cyc) (.inr (.inl rfl)) unsigned, refused]
    exact ⟨rfl, rfl, rfl⟩
  case unlocks =>
    rw [State.commitTicket_debugUnlock (s := s.stamp cyc) none_ signed fits]
    have pending : (if s.sec.debug = .opn then DebugState.opn else .unlockPending) = .unlockPending := if_neg closed
    refine ⟨?_, rfl, rfl⟩
    exact congrArg (fun d => { s.sec with debug := d, nonce := s.sec.nonce + 1 }) pending
  case locked =>
    obtain ⟨srv, refused⟩ := State.refused_newNonce (s := s.stamp cyc) (what := ticketItem 3) unsigned
    rw [State.commitTicket_unsigned (s := s.stamp cyc) (.inr (.inr rfl)) unsigned, refused]
    exact ⟨rfl, rfl, rfl⟩
  case attest =>
    have free' : (s.stamp cyc).sec.attest ≠ .generating := free
    exact ⟨_, congrArg Host.Outcome.next (State.commitAttest_free long free'), rfl, rfl, rfl⟩
  case report =>
    refine ⟨_, exec_attestReportReady_due making, ?_⟩
    rw [State.raise_eq]
    exact ⟨rfl, rfl, rfl, rfl⟩
  case raised =>
    refine ⟨_, congrArg Host.Outcome.next (State.commitSvn_higher (s := s.stamp cyc) higher fused settled), ?_⟩
    rw [State.raise_eq]
    exact ⟨rfl, rfl, rfl⟩

end Sys2Proof.Machine
end

section
/-! PROOFS. Settings stay in order (R476): every operation that writes one writes it into the ordered map. -/

namespace Sys2Proof.Machine

/-- The settings of a state in order. -/
structure Kept.Ordered (k : Kept) : Prop where
  regs : ksorted k.regs = true
  blobs : ksorted k.blobs = true

theorem Kept.ordered_mk {part : Part} {pending : List Instr} {regs : KMap Nat} {blobs : KMap (List Byte)} {boot : Boot}
    {sec : Security} {slot frame : Nat} {txs ended : List Tx} {cache : List (Nat × Reply)} {sram hbm : List Host.Cell} :
    Kept.Ordered {
      part := part, pending := pending, regs := regs, blobs := blobs, boot := boot, sec := sec, slot := slot, frame :=
        frame
      txs := txs, ended := ended, cache := cache, sram := sram, hbm := hbm } ↔
      ksorted regs = true ∧ ksorted blobs = true :=
  ⟨fun h => ⟨h.regs, h.blobs⟩, fun ⟨regs, blobs⟩ => ⟨regs, blobs⟩⟩

theorem Kept.Ordered.of_same {k l : Kept} (h : k.Ordered) (regs : l.regs = k.regs) (blobs : l.blobs = k.blobs) :
    l.Ordered :=
  ⟨regs ▸ h.regs, blobs ▸ h.blobs⟩

@[simp] theorem Kept.ordered_regs {k : Kept} (h : k.Ordered) : ksorted k.regs = true := h.regs
@[simp] theorem Kept.ordered_blobs {k : Kept} (h : k.Ordered) : ksorted k.blobs = true := h.blobs

@[simp] theorem State.ordered_ite (c : Prop) [Decidable c] (s t : State) :
    (if c then s.kept else t.kept).Ordered ↔ if c then s.kept.Ordered else t.kept.Ordered := by split <;> rfl

theorem State.ordered_of_ite {c : Prop} [Decidable c] {s t : State} (yes : s.kept.Ordered) (no : t.kept.Ordered) :
    (if c then s else t).kept.Ordered := by
  split
  · exact yes
  · exact no

/-! `State.kept_mk` and `State.stamp_kept` once more, not as definitional equations: `simp` then keeps them as steps of
the proofs of the conditions that it meets. -/

theorem State.kept_lit (part : Part) (pending : List Instr) (free : Nat) (regs : KMap Nat) (blobs : KMap (List Byte))
    (tb : TimeBase) (planner : Planner) (fab : Fabric) (mxe : Engine) (chn : ChainCounters) (mem : Memory)
    (pages : Pages) (store : Store) (srv : Serving) (syn : Sync) (lce : Torus) (dsp : Dispatch) (hlk : HostLink)
    (dict : Dict) (ras : Ras) (pwr : Power) (boot : Boot) (sec : Security) :
    State.kept { part := part, pending := pending, free := free, regs := regs, blobs := blobs, tb := tb
                 planner := planner, fab := fab, mxe := mxe, chn := chn, mem := mem, pages := pages, store := store
                 srv := srv, syn := syn, lce := lce, dsp := dsp, hlk := hlk, dict := dict, ras := ras, pwr := pwr
                 boot := boot, sec := sec } =
    { part := part, pending := pending, regs := regs, blobs := blobs, boot := boot, sec := sec, slot := tb.slot
      frame := tb.frame, txs := dict.txs, ended := dict.ended, cache := dict.cache, sram := mem.sram
      hbm := mem.hbm } := by rw [State.kept]

theorem State.kept_stamp (s : State) (c : Nat) : (s.stamp c).kept = s.kept := by rw [State.stamp_kept]

/-- What every step of a fold keeps in order, the fold does. -/
theorem State.ordered_foldl {α β : Type} {f : β → α → β} (g : β → State)
    (step : ∀ b a, (g b).kept.Ordered → (g (f b a)).kept.Ordered) (l : List α) {b : β} (ordered : (g b).kept.Ordered) :
    (g (l.foldl f b)).kept.Ordered := by
  induction l generalizing b with
  | nil => exact ordered
  | cons a l ih => exact ih (step b a ordered)

theorem State.ordered_foldl_state {α : Type} {f : State → α → State}
    (step : ∀ t a, t.kept.Ordered → (f t a).kept.Ordered) (l : List α) {s : State} (ordered : s.kept.Ordered) :
    (l.foldl f s).kept.Ordered := State.ordered_foldl (fun t => t) step l ordered

theorem State.ordered_foldl_fst {α γ : Type} {f : State × γ → α → State × γ}
    (step : ∀ p a, p.1.kept.Ordered → (f p a).1.kept.Ordered) (l : List α) {p : State × γ}
    (ordered : p.1.kept.Ordered) :
    (l.foldl f p).1.kept.Ordered := State.ordered_foldl (fun p : State × γ => p.1) step l ordered

theorem State.ordered_foldl_snd {α γ : Type} {f : γ × State → α → γ × State}
    (step : ∀ p a, p.2.kept.Ordered → (f p a).2.kept.Ordered) (l : List α) {p : γ × State}
    (ordered : p.2.kept.Ordered) :
    (l.foldl f p).2.kept.Ordered := State.ordered_foldl (fun p : γ × State => p.2) step l ordered

@[simp] theorem State.setReg_ordered (s : State) (key v : Nat) (h : s.kept.Ordered) : (s.setReg key v).kept.Ordered :=
  ⟨State.ksorted_setReg h.regs, h.blobs⟩

@[simp] theorem State.setBlob_ordered (s : State) (key : Nat) (v : List Byte) (h : s.kept.Ordered) :
    (s.setBlob key v).kept.Ordered := by
  refine ⟨h.regs, ?_⟩
  show ksorted (if v.isEmpty then kdel s.blobs key else kset s.blobs key v) = true
  split
  · exact ksorted_kdel key h.blobs
  · exact ksorted_kset key v h.blobs

@[simp] theorem State.verify_ordered (s : State) (what : Item) (item : List Byte)
    (ordered : s.kept.Ordered) : (State.verify s what item).2.kept.Ordered := by
  refine ordered.of_same ?_ ?_ <;> simp

@[simp] theorem execAttInvalidate_ordered (value : Nat) (s : State)
    (ordered : s.kept.Ordered) : (outcomeState s (execAttInvalidate value s)).kept.Ordered := by
  unfold execAttInvalidate
  (repeat' split) <;> simp [-State.stamp_kept, ordered]

@[simp] theorem State.commitRing_ordered (s before : State) (sub value : Nat) (zero : Bool)
    (ordered : s.kept.Ordered) : (State.commitRing s before sub value zero).kept.Ordered := by
  unfold State.commitRing
  dsimp only
  (repeat' split) <;> simp [-State.stamp_kept, ordered]

@[simp] theorem execRingConfigCommit_ordered (sub value : Nat) (s : State)
    (ordered : s.kept.Ordered) : (outcomeState s (execRingConfigCommit sub value s)).kept.Ordered := by
  unfold execRingConfigCommit
  rw [outcomeState_onUnit]
  split <;> simp [-State.stamp_kept, ordered]

@[simp] theorem execDspTableCommit_ordered (sub : Nat) (bytes : List Byte) (s : State)
    (ordered : s.kept.Ordered) : (outcomeState s (execDspTableCommit sub bytes s)).kept.Ordered := by
  unfold execDspTableCommit
  simp [State.fold_kept, -State.stamp_kept, ordered]
  (repeat' split) <;> simp [State.fold_kept, State.kept_lit, -State.stamp_kept, ordered]

@[simp] theorem State.commitOp_ordered (s : State) (cmd source tag length : Nat)
    (ordered : s.kept.Ordered) : (State.commitOp s cmd source tag length).kept.Ordered := by
  have command := State.setReg_ordered s Reg.STO_OP_CMD cmd ordered
  have sourced := State.setReg_ordered _ Reg.STO_OP_LENGTH length (State.setReg_ordered _ Reg.STO_OP_SOURCE source
    command)
  have tagged := State.setReg_ordered _ Reg.STO_OP_TAG tag command
  have both := State.setReg_ordered _ Reg.STO_OP_TAG tag sourced
  unfold State.commitOp
  dsimp only
  (repeat' split) <;> simp [ordered, command, sourced, tagged, both]

@[simp] theorem execStoreInstall_ordered (source length : Nat) (s : State)
    (ordered : s.kept.Ordered) : (outcomeState s (execStoreInstall source length s)).kept.Ordered := by
  unfold execStoreInstall
  simp [-State.stamp_kept, ordered]

@[simp] theorem execStoreDelete_ordered (tag : Nat) (s : State)
    (ordered : s.kept.Ordered) : (outcomeState s (execStoreDelete tag s)).kept.Ordered := by
  unfold execStoreDelete
  simp [-State.stamp_kept, ordered]

@[simp] theorem execAdapterInstall_ordered (source length : Nat) (s : State)
    (ordered : s.kept.Ordered) : (outcomeState s (execAdapterInstall source length s)).kept.Ordered := by
  unfold execAdapterInstall
  simp [-State.stamp_kept, ordered]

@[simp] theorem execAdapterDelete_ordered (tag : Nat) (s : State)
    (ordered : s.kept.Ordered) : (outcomeState s (execAdapterDelete tag s)).kept.Ordered := by
  unfold execAdapterDelete
  simp [-State.stamp_kept, ordered]

@[simp] theorem execStoreRepair_ordered (tag source length : Nat) (s : State)
    (ordered : s.kept.Ordered) : (outcomeState s (execStoreRepair tag source length s)).kept.Ordered := by
  unfold execStoreRepair
  simp [-State.stamp_kept, ordered]

@[simp] theorem State.commitMode_ordered (s : State) (value : Nat)
    (ordered : s.kept.Ordered) : (State.commitMode s value).kept.Ordered := by
  unfold State.commitMode
  dsimp only
  (repeat' split) <;> simp [State.fold_kept, State.kept_lit, -State.stamp_kept, ordered]

@[simp] theorem execStoModeSet_ordered (value : Nat) (s : State)
    (ordered : s.kept.Ordered) : (outcomeState s (execStoModeSet value s)).kept.Ordered := by
  unfold execStoModeSet
  simp [-State.stamp_kept, ordered]

@[simp] theorem State.commitSwitch_ordered (s : State) (kind target mode asked : Nat)
    (ordered : s.kept.Ordered) : (State.commitSwitch s kind target mode asked).kept.Ordered := by
  unfold State.commitSwitch
  dsimp only
  split
  · simp [ordered]
  · split
    · simp [ordered]
    · rw [State.status_kept]
      refine State.setReg_ordered _ _ _ (State.setReg_ordered _ _ _ (State.setReg_ordered _ _ _ (State.setReg_ordered
        _ _ _ ?_)))
      exact ordered.of_same rfl rfl

@[simp] theorem execModelSwitchRequest_ordered (target mode plan : Nat) (s : State)
    (ordered : s.kept.Ordered) : (outcomeState s (execModelSwitchRequest target mode plan s)).kept.Ordered := by
  unfold execModelSwitchRequest
  simp [-State.stamp_kept, ordered]

@[simp] theorem execEpochSwitchRequest_ordered (target plan : Nat) (s : State)
    (ordered : s.kept.Ordered) : (outcomeState s (execEpochSwitchRequest target plan s)).kept.Ordered := by
  unfold execEpochSwitchRequest
  simp [-State.stamp_kept, ordered]

@[simp] theorem State.commitCancel_ordered (s : State) (value : Nat)
    (ordered : s.kept.Ordered) : (State.commitCancel s value).kept.Ordered := by
  unfold State.commitCancel
  (repeat' split) <;> simp [-State.stamp_kept, ordered]

@[simp] theorem execSwitchCancel_ordered (value : Nat) (s : State)
    (ordered : s.kept.Ordered) : (outcomeState s (execSwitchCancel value s)).kept.Ordered := by
  unfold execSwitchCancel
  simp [-State.stamp_kept, ordered]

@[simp] theorem State.commitFence_ordered (s : State) (q value : Nat)
    (ordered : s.kept.Ordered) : (State.commitFence s q value).kept.Ordered := by
  unfold State.commitFence
  dsimp only
  (repeat' split) <;> simp [-State.stamp_kept, ordered]

@[simp] theorem execFenceCmd_ordered (cyc quadrant : Nat) (s : State)
    (ordered : s.kept.Ordered) : (outcomeState s (execFenceCmd cyc quadrant s)).kept.Ordered := by
  unfold execFenceCmd
  simp [-State.stamp_kept, State.kept_stamp, ordered]

@[simp] theorem execUnfenceCmd_ordered (cyc quadrant : Nat) (s : State)
    (ordered : s.kept.Ordered) : (outcomeState s (execUnfenceCmd cyc quadrant s)).kept.Ordered := by
  unfold execUnfenceCmd
  simp [-State.stamp_kept, State.kept_stamp, ordered]

@[simp] theorem State.commitAwlRun_ordered (s : State) (q value : Nat)
    (ordered : s.kept.Ordered) : (State.commitAwlRun s q value).kept.Ordered := by
  unfold State.commitAwlRun
  (repeat' split) <;> simp [-State.stamp_kept, ordered]

@[simp] theorem execAwlRunTargeted_ordered (quadrant : Nat) (s : State)
    (ordered : s.kept.Ordered) : (outcomeState s (execAwlRunTargeted quadrant s)).kept.Ordered := by
  unfold execAwlRunTargeted
  simp [-State.stamp_kept, ordered]

@[simp] theorem execAwlRunDestructive_ordered (quadrant : Nat) (s : State)
    (ordered : s.kept.Ordered) : (outcomeState s (execAwlRunDestructive quadrant s)).kept.Ordered := by
  unfold execAwlRunDestructive
  simp [-State.stamp_kept, ordered]

@[simp] theorem State.commitAwlSet_ordered (s : State) (b : List Byte)
    (ordered : s.kept.Ordered) : (State.commitAwlSet s b).kept.Ordered := by
  unfold State.commitAwlSet
  dsimp only
  (repeat' split) <;> simp [State.fold_kept, State.kept_lit, Kept.ordered_mk, -State.stamp_kept, ordered]

@[simp] theorem execAwlSetLoad_ordered (cyc : Nat) (image : List Byte) (s : State)
    (ordered : s.kept.Ordered) : (outcomeState s (execAwlSetLoad cyc image s)).kept.Ordered := by
  unfold execAwlSetLoad
  simp [-State.stamp_kept, State.kept_stamp, ordered]

@[simp] theorem State.commitPersistClear_ordered (s : State) (value : Nat)
    (ordered : s.kept.Ordered) : (State.commitPersistClear s value).kept.Ordered := by
  unfold State.commitPersistClear
  (repeat' split) <;> simp [State.fold_kept, State.kept_lit, -State.stamp_kept, ordered]

@[simp] theorem execPersistClear_ordered (value : Nat) (s : State)
    (ordered : s.kept.Ordered) : (outcomeState s (execPersistClear value s)).kept.Ordered := by
  unfold execPersistClear
  simp [-State.stamp_kept, ordered]

@[simp] theorem State.disableDomain_ordered (s : State) (d : Nat)
    (ordered : s.kept.Ordered) : (State.disableDomain s d).2.kept.Ordered := by
  refine ordered.of_same ?_ ?_ <;> simp

@[simp] theorem State.commitDomain_ordered (s : State) (d value : Nat)
    (ordered : s.kept.Ordered) : (State.commitDomain s d value).kept.Ordered := by
  unfold State.commitDomain
  dsimp only
  (repeat' split) <;> simp [-State.stamp_kept, ordered]

@[simp] theorem execDomainEnable_ordered (cyc domain : Nat) (s : State)
    (ordered : s.kept.Ordered) : (outcomeState s (execDomainEnable cyc domain s)).kept.Ordered := by
  unfold execDomainEnable
  simp [-State.stamp_kept, State.kept_stamp, ordered]

@[simp] theorem execDomainDisable_ordered (cyc domain : Nat) (s : State)
    (ordered : s.kept.Ordered) : (outcomeState s (execDomainDisable cyc domain s)).kept.Ordered := by
  unfold execDomainDisable
  simp [-State.stamp_kept, State.kept_stamp, ordered]

@[simp] theorem State.commitCap_ordered (s : State) (sub value : Nat)
    (ordered : s.kept.Ordered) : (State.commitCap s sub value).kept.Ordered := by
  unfold State.commitCap
  (repeat' split) <;> simp [-State.stamp_kept, ordered]

@[simp] theorem State.commitFloor_ordered (s : State) (before value : Nat)
    (ordered : s.kept.Ordered) : (State.commitFloor s before value).kept.Ordered := by
  unfold State.commitFloor
  (repeat' split) <;> simp [State.fold_kept, State.kept_lit, Kept.ordered_mk, -State.stamp_kept, ordered]

@[simp] theorem State.verifyKeys_ordered (s : State) (x0 : List (List Byte))
    (ordered : s.kept.Ordered) : (State.verifyKeys s x0).2.kept.Ordered := by
  refine ordered.of_same ?_ ?_ <;> simp

@[simp] theorem State.commitKeys_ordered (s : State) (records : List Byte)
    (ordered : s.kept.Ordered) : (State.commitKeys s records).kept.Ordered := by
  unfold State.commitKeys
  dsimp only
  (repeat' split) <;> simp [State.fold_kept, State.kept_lit, Kept.ordered_mk, -State.stamp_kept, ordered]

@[simp] theorem execKeyUpdate_ordered (cyc : Nat) (records : List Byte) (s : State)
    (ordered : s.kept.Ordered) : (outcomeState s (execKeyUpdate cyc records s)).kept.Ordered := by
  unfold execKeyUpdate
  simp [-State.stamp_kept, State.kept_stamp, ordered]

@[simp] theorem State.newNonce_ordered (s : State)
    (ordered : s.kept.Ordered) : (State.newNonce s).kept.Ordered := by
  refine ordered.of_same ?_ ?_ <;> simp

@[simp] theorem State.enrol_ordered (s : State) (b : List Byte)
    (ordered : s.kept.Ordered) : (State.enrol s b).kept.Ordered := by
  refine ordered.of_same ?_ ?_ <;> simp

@[simp] theorem State.release_ordered (s : State)
    (ordered : s.kept.Ordered) : (State.release s).kept.Ordered := by
  refine ordered.of_same ?_ ?_ <;> simp

@[simp] theorem State.unlockDebug_ordered (s : State)
    (ordered : s.kept.Ordered) : (State.unlockDebug s).kept.Ordered := by
  refine ordered.of_same ?_ ?_ <;> simp

@[simp] theorem State.commitTicket_ordered (s : State) (kind : Nat) (ticket cosign : List Byte)
    (ordered : s.kept.Ordered) : (State.commitTicket s kind ticket cosign).kept.Ordered := by
  have checked (what : Item) (c : Bool) : (if c = true then (s.verify what ticket).2.verify .cosign cosign
      else ((s.verify what ticket).1, (s.verify what ticket).2)).2.kept.Ordered := by
    split
    · exact State.verify_ordered _ .cosign cosign (State.verify_ordered s what ticket ordered)
    · exact State.verify_ordered s what ticket ordered
  unfold State.commitTicket
  dsimp only
  refine State.ordered_of_ite ?_ ?_
  · rw [State.status_kept]
    exact State.newNonce_ordered _ (checked _ _)
  · split
    · exact State.enrol_ordered _ _ (State.newNonce_ordered _ (State.setBlob_ordered _ _ _ (checked _ _)))
    · exact State.release_ordered _ (State.newNonce_ordered _ (State.setBlob_ordered _ _ _ (checked _ _)))
    · exact State.unlockDebug_ordered _ (State.setBlob_ordered _ _ _ (State.newNonce_ordered _
        (State.setBlob_ordered _ _ _ (checked _ _))))

@[simp] theorem execEnrolTicket_ordered (cyc : Nat) (ticket : List Byte) (s : State)
    (ordered : s.kept.Ordered) : (outcomeState s (execEnrolTicket cyc ticket s)).kept.Ordered := by
  unfold execEnrolTicket
  simp [-State.stamp_kept, State.kept_stamp, ordered]

@[simp] theorem execReleaseTicket_ordered (cyc : Nat) (ticket : List Byte) (s : State)
    (ordered : s.kept.Ordered) : (outcomeState s (execReleaseTicket cyc ticket s)).kept.Ordered := by
  unfold execReleaseTicket
  simp [-State.stamp_kept, State.kept_stamp, ordered]

@[simp] theorem execDebugUnlockTicket_ordered (cyc : Nat) (ticket cosign : List Byte) (s : State)
    (ordered : s.kept.Ordered) : (outcomeState s (execDebugUnlockTicket cyc ticket cosign s)).kept.Ordered := by
  unfold execDebugUnlockTicket
  simp [-State.stamp_kept, State.kept_stamp, ordered]

@[simp] theorem State.commitAttest_ordered (s : State) (nonce : List Byte)
    (ordered : s.kept.Ordered) : (State.commitAttest s nonce).kept.Ordered := by
  unfold State.commitAttest
  (repeat' split) <;> simp [State.fold_kept, State.kept_lit, Kept.ordered_mk, -State.stamp_kept, ordered]

@[simp] theorem execAttestRequest_ordered (cyc : Nat) (nonce : List Byte) (s : State)
    (ordered : s.kept.Ordered) : (outcomeState s (execAttestRequest cyc nonce s)).kept.Ordered := by
  unfold execAttestRequest
  simp [-State.stamp_kept, State.kept_stamp, ordered]

@[simp] theorem State.commitSvn_ordered (s : State) (value : Nat)
    (ordered : s.kept.Ordered) : (State.commitSvn s value).kept.Ordered := by
  unfold State.commitSvn
  dsimp only
  (repeat' split) <;> simp [State.fold_kept, State.kept_lit, Kept.ordered_mk, -State.stamp_kept, ordered]

@[simp] theorem execSvnRaise_ordered (cyc : Nat) (s : State)
    (ordered : s.kept.Ordered) : (outcomeState s (execSvnRaise cyc s)).kept.Ordered := by
  unfold execSvnRaise
  simp [-State.stamp_kept, State.kept_stamp, ordered]

@[simp] theorem State.cleared_ordered (s : State) (cause uptime : Nat) (debug : DebugState)
    (ordered : s.kept.Ordered) : (State.cleared s cause uptime debug).kept.Ordered := by
  exact Kept.ordered_mk.mpr ⟨rfl, rfl⟩

@[simp] theorem State.powerOnReset_ordered (s : State) (cause : Nat)
    (ordered : s.kept.Ordered) : (State.powerOnReset s cause).kept.Ordered := by
  unfold State.powerOnReset
  simp [State.fold_kept, -State.stamp_kept, ordered]

@[simp] theorem State.moduleReset_ordered (s : State) (cause : Nat)
    (ordered : s.kept.Ordered) : (State.moduleReset s cause).kept.Ordered := by
  unfold State.moduleReset
  simp [State.fold_kept, State.kept_lit, Kept.ordered_mk, -State.stamp_kept, ordered]

@[simp] theorem State.resetOn_ordered (s : State)
    (ordered : s.kept.Ordered) : (State.resetOn s).kept.Ordered := by
  unfold State.resetOn
  (repeat' split) <;> simp [-State.stamp_kept, ordered]

@[simp] theorem State.beginCommanded_ordered (s : State)
    (ordered : s.kept.Ordered) : (State.beginCommanded s).kept.Ordered := by
  refine ordered.of_same ?_ ?_ <;> simp

@[simp] theorem State.commitReset_ordered (s : State) (value : Nat)
    (ordered : s.kept.Ordered) : (State.commitReset s value).kept.Ordered := by
  unfold State.commitReset
  (repeat' split) <;> simp [State.fold_kept, State.kept_lit, Kept.ordered_mk, -State.stamp_kept, ordered]

@[simp] theorem execResetModuleCmd_ordered (cyc : Nat) (s : State)
    (ordered : s.kept.Ordered) : (outcomeState s (execResetModuleCmd cyc s)).kept.Ordered := by
  unfold execResetModuleCmd
  simp [-State.stamp_kept, State.kept_stamp, ordered]

@[simp] theorem execResetFirmwareCmd_ordered (cyc : Nat) (s : State)
    (ordered : s.kept.Ordered) : (outcomeState s (execResetFirmwareCmd cyc s)).kept.Ordered := by
  unfold execResetFirmwareCmd
  simp [-State.stamp_kept, State.kept_stamp, ordered]

@[simp] theorem execModuleRstLRelease_ordered (s : State)
    (ordered : s.kept.Ordered) : (outcomeState s (execModuleRstLRelease s)).kept.Ordered := by
  unfold execModuleRstLRelease
  simp [State.fold_kept, State.kept_lit, Kept.ordered_mk, -State.stamp_kept, ordered]

@[simp] theorem execPowerOn_ordered (s : State)
    (ordered : s.kept.Ordered) : (outcomeState s (execPowerOn s)).kept.Ordered := by
  unfold execPowerOn
  simp [-State.stamp_kept, ordered]

@[simp] theorem execPowerFailRestart_ordered (vinGood : Bool) (s : State)
    (ordered : s.kept.Ordered) : (outcomeState s (execPowerFailRestart vinGood s)).kept.Ordered := by
  unfold execPowerFailRestart
  split <;> simp [-State.stamp_kept, ordered]

@[simp] theorem execEjectRestart_ordered (s : State)
    (ordered : s.kept.Ordered) : (outcomeState s (execEjectRestart s)).kept.Ordered := by
  unfold execEjectRestart
  split <;> simp [-State.stamp_kept, ordered]

@[simp] theorem State.fwCheck_ordered (s : State) (image : List Byte)
    (ordered : s.kept.Ordered) : (State.fwCheck s image).2.kept.Ordered := by
  refine ordered.of_same ?_ ?_ <;> simp

@[simp] theorem State.commitFwLoad_ordered (s : State) (image : List Byte)
    (ordered : s.kept.Ordered) : (State.commitFwLoad s image).kept.Ordered := by
  unfold State.commitFwLoad
  dsimp only
  (repeat' split) <;> simp [State.fold_kept, State.kept_lit, Kept.ordered_mk, -State.stamp_kept, ordered]

@[simp] theorem execFwLoad_ordered (cyc : Nat) (image : List Byte) (s : State)
    (ordered : s.kept.Ordered) : (outcomeState s (execFwLoad cyc image s)).kept.Ordered := by
  unfold execFwLoad
  simp [-State.stamp_kept, State.kept_stamp, ordered]

@[simp] theorem State.commitActivate_ordered (s : State) (value : Nat)
    (ordered : s.kept.Ordered) : (State.commitActivate s value).kept.Ordered := by
  unfold State.commitActivate
  (repeat' split) <;> simp [State.fold_kept, State.kept_lit, Kept.ordered_mk, -State.stamp_kept, ordered]

@[simp] theorem execFwActivate_ordered (s : State)
    (ordered : s.kept.Ordered) : (outcomeState s (execFwActivate s)).kept.Ordered := by
  unfold execFwActivate
  simp [-State.stamp_kept, ordered]

@[simp] theorem execFwDeactivate_ordered (s : State)
    (ordered : s.kept.Ordered) : (outcomeState s (execFwDeactivate s)).kept.Ordered := by
  unfold execFwDeactivate
  simp [-State.stamp_kept, ordered]

@[simp] theorem State.commitServe_ordered (s : State) (value : Nat)
    (ordered : s.kept.Ordered) : (State.commitServe s value).kept.Ordered := by
  unfold State.commitServe
  (repeat' split) <;> simp [State.fold_kept, State.kept_lit, Kept.ordered_mk, -State.stamp_kept, ordered]

@[simp] theorem execServeStart_ordered (cyc : Nat) (s : State)
    (ordered : s.kept.Ordered) : (outcomeState s (execServeStart cyc s)).kept.Ordered := by
  unfold execServeStart
  simp [-State.stamp_kept, State.kept_stamp, ordered]

@[simp] theorem execServeStop_ordered (s : State)
    (ordered : s.kept.Ordered) : (outcomeState s (execServeStop s)).kept.Ordered := by
  unfold execServeStop
  simp [-State.stamp_kept, ordered]

@[simp] theorem State.applyIdentity_ordered (s : State)
    (ordered : s.kept.Ordered) : (State.applyIdentity s).kept.Ordered := by
  refine ordered.of_same ?_ ?_ <;> simp

@[simp] theorem State.bootBoundary_ordered (s : State)
    (ordered : s.kept.Ordered) : (State.bootBoundary s).kept.Ordered := by
  refine ordered.of_same ?_ ?_ <;> simp

@[simp] theorem execFrameCountLoad_ordered (value : Nat) (s : State)
    (ordered : s.kept.Ordered) : (outcomeState s (execFrameCountLoad value s)).kept.Ordered := by
  unfold execFrameCountLoad
  (repeat' split) <;> simp [State.fold_kept, State.kept_lit, -State.stamp_kept, ordered]

@[simp] theorem State.preset_ordered (t : State) (x : StagedItem)
    (ordered : t.kept.Ordered) : (State.preset t x).kept.Ordered := by
  unfold State.preset
  (repeat' split) <;> simp [State.fold_kept, State.kept_lit, Kept.ordered_mk, -State.stamp_kept, ordered]

@[simp] theorem State.presetAll_ordered (s : State) (xs : List StagedItem)
    (ordered : s.kept.Ordered) : (State.presetAll s xs).kept.Ordered := by
  have preset := State.ordered_foldl_state (fun t x ordered => State.preset_ordered t x ordered) xs ordered
  unfold State.presetAll
  dsimp only
  split <;> simp [preset]

@[simp] theorem State.commitStore_ordered (t : State) (xs : List StagedItem) (sub value : Nat)
    (ordered : t.kept.Ordered) : (State.commitStore t xs sub value).kept.Ordered := by
  unfold State.commitStore
  (repeat' split) <;> simp [-State.stamp_kept, ordered]

@[simp] theorem State.commitStaging_ordered (t : State) (xs : List StagedItem) (sub value : Nat)
    (ordered : t.kept.Ordered) : (State.commitStaging t xs sub value).kept.Ordered := by
  unfold State.commitStaging
  (repeat' split) <;> simp [-State.stamp_kept, ordered]

@[simp] theorem State.commitDispatch_ordered (t before : State) (sub : Nat) (b : List Byte)
    (ordered : t.kept.Ordered) : (State.commitDispatch t before sub b).kept.Ordered := by
  unfold State.commitDispatch
  dsimp only
  (repeat' split) <;> simp [State.fold_kept, State.kept_lit, Kept.ordered_mk, -State.stamp_kept, ordered, ksorted_kset]

@[simp] theorem State.commitLink_ordered (t : State) (sub value : Nat)
    (ordered : t.kept.Ordered) : (State.commitLink t sub value).kept.Ordered := by
  unfold State.commitLink
  (repeat' split) <;> simp [-State.stamp_kept, ordered]

@[simp] theorem State.commitCaps_ordered (t before : State) (xs : List StagedItem) (sub value : Nat)
    (ordered : t.kept.Ordered) : (State.commitCaps t before xs sub value).kept.Ordered := by
  unfold State.commitCaps
  dsimp only
  (repeat' split) <;> simp [-State.stamp_kept, ordered]

@[simp] theorem State.commitTickets_ordered (t : State) (xs : List StagedItem) (x : StagedItem)
    (ordered : t.kept.Ordered) : (State.commitTickets t xs x).kept.Ordered := by
  unfold State.commitTickets
  (repeat' split) <;> simp [-State.stamp_kept, ordered]

@[simp] theorem State.commitBudgets_ordered (t : State) (b : List Byte)
    (ordered : t.kept.Ordered) : (State.commitBudgets t b).kept.Ordered := by
  unfold State.commitBudgets
  dsimp only
  (repeat' split) <;> simp [State.fold_kept, State.kept_lit, Kept.ordered_mk, -State.stamp_kept, ordered, ksorted_kset]

@[simp] theorem State.commitItem_ordered (t before : State) (xs : List StagedItem) (x : StagedItem)
    (ordered : t.kept.Ordered) : (State.commitItem t before xs x).kept.Ordered := by
  unfold State.commitItem
  dsimp only
  (repeat' split) <;> simp [-State.stamp_kept, ordered]

@[simp] theorem State.commitItems_ordered (before : State) (xs l : List StagedItem) (t : State)
    (ordered : t.kept.Ordered) : (State.commitItems before xs l t).1.kept.Ordered := by
  induction l generalizing t with
  | nil => exact ordered
  | cons x rest ih =>
    have item := State.commitItem_ordered t before xs x ordered
    unfold State.commitItems
    dsimp only
    (repeat' split) <;> simp [ih, ordered, item]

@[simp] theorem State.refusedBy_ordered (s t : State)
    (ordered : s.kept.Ordered) : (State.refusedBy s t).kept.Ordered := by
  refine ordered.of_same ?_ ?_ <;> simp

@[simp] theorem State.commitAll_ordered (s : State) (xs : List StagedItem)
    (ordered : s.kept.Ordered) : (State.commitAll s xs).1.kept.Ordered := by
  unfold State.commitAll
  dsimp only
  split <;> simp [-State.stamp_kept, ordered]

@[simp] theorem execObjectWrite_ordered (cyc index sub : Nat) (value : List Byte) (s : State)
    (ordered : s.kept.Ordered) : (outcomeState s (execObjectWrite cyc index sub value s)).kept.Ordered := by
  unfold execObjectWrite
  dsimp only
  (repeat' split) <;> simp [State.fold_kept, -State.stamp_kept, State.kept_stamp, ordered]

@[simp] theorem State.touchTx_ordered (s : State) (rq : Request)
    (ordered : s.kept.Ordered) : (State.touchTx s rq).kept.Ordered := by
  refine ordered.of_same ?_ ?_ <;> simp

@[simp] theorem State.serveRead_ordered (s : State) (rq : Request) (items : List (Nat × Nat))
    (ordered : s.kept.Ordered) : (State.serveRead s rq items).1.kept.Ordered := by
  refine ordered.of_same ?_ ?_ <;> simp

@[simp] theorem State.serveReadSegment_ordered (s : State) (rq : Request) (index sub offset length expectSeq : Nat)
    (ordered : s.kept.Ordered) : (State.serveReadSegment s rq index sub offset length expectSeq).1.kept.Ordered := by
  refine ordered.of_same ?_ ?_ <;> simp

@[simp] theorem State.stageItem_ordered (s : State) (id : Nat) (w : WriteItem)
    (ordered : s.kept.Ordered) : (State.stageItem s id w).2.kept.Ordered := by
  refine ordered.of_same ?_ ?_ <;> simp

@[simp] theorem State.writeItem_ordered (s : State) (w : WriteItem)
    (ordered : s.kept.Ordered) : (State.writeItem s w).2.kept.Ordered := by
  unfold State.writeItem
  dsimp only
  (repeat' split) <;> simp [-State.stamp_kept, ordered]

/-- What every item of a WRITE keeps ordered, the WRITE does. -/
theorem State.writeItems_ordered (one : State → WriteItem → Nat × State)
    (step : ∀ t w, t.kept.Ordered → (one t w).2.kept.Ordered) (items : List WriteItem) (s : State) (ordered :
      s.kept.Ordered) :
    (State.writeItems one items s).1.kept.Ordered := by
  unfold State.writeItems
  exact State.ordered_foldl_fst (fun p w ordered => step p.1 w ordered) items (p := (s, ({} : Answer))) ordered

@[simp] theorem State.serveWrite_ordered (s : State) (rq : Request) (items : List WriteItem)
    (ordered : s.kept.Ordered) : (State.serveWrite s rq items).1.kept.Ordered := by
  unfold State.serveWrite
  split
  · exact State.writeItems_ordered _ (fun t w ordered => by simp [ordered]) _ _ ordered
  · split
    · exact State.touchTx_ordered s rq ordered
    · exact State.writeItems_ordered _ (fun t w ordered => by simp [ordered]) _ _ (State.touchTx_ordered s rq ordered)

@[simp] theorem State.serveWriteSegment_ordered (s : State) (rq : Request) (index sub : Nat) (first : Bool) (offset
    total : Nat) (data : List Byte)
    (ordered : s.kept.Ordered) : (State.serveWriteSegment s rq index sub first offset total data).1.kept.Ordered := by
  refine ordered.of_same ?_ ?_ <;> simp

@[simp] theorem State.serveBegin_ordered (s : State) (rq : Request)
    (ordered : s.kept.Ordered) : (State.serveBegin s rq).1.kept.Ordered := by
  refine ordered.of_same ?_ ?_ <;> simp

@[simp] theorem State.serveCommit_ordered (s : State) (rq : Request) (at_ : Nat)
    (ordered : s.kept.Ordered) : (State.serveCommit s rq at_).1.kept.Ordered := by
  refine ordered.of_same ?_ ?_ <;> simp

@[simp] theorem State.serveRollback_ordered (s : State) (rq : Request)
    (ordered : s.kept.Ordered) : (State.serveRollback s rq).1.kept.Ordered := by
  refine ordered.of_same ?_ ?_ <;> simp

@[simp] theorem State.serveTxStatus_ordered (s : State) (rq : Request)
    (ordered : s.kept.Ordered) : (State.serveTxStatus s rq).1.kept.Ordered := by
  refine ordered.of_same ?_ ?_ <;> simp

@[simp] theorem State.serve_ordered (s : State) (rq : Request) (x0 : DapOp)
    (ordered : s.kept.Ordered) : (State.serve s rq x0).1.kept.Ordered := by
  (induction x0 generalizing s <;> simp [State.serve, *])

@[simp] theorem State.handle_ordered (s : State) (rq : Request) (op : DapOp)
    (ordered : s.kept.Ordered) : (State.handle s rq op).1.kept.Ordered := by
  unfold State.handle
  (repeat' split) <;> simp [State.fold_kept, State.kept_lit, -State.stamp_kept, ordered]

@[simp] theorem State.reply_ordered (s : State) (port : Nat) (session : Session) (reqId : Nat) (message : List Byte)
    (ordered : s.kept.Ordered) : (State.reply s port session reqId message).kept.Ordered := by
  refine ordered.of_same ?_ ?_ <;> simp

@[simp] theorem State.malformed_ordered (s : State) (session : Session) (op reqId txId : Nat)
    (ordered : s.kept.Ordered) : (State.malformed s session op reqId txId).kept.Ordered := by
  refine ordered.of_same ?_ ?_ <;> simp

@[simp] theorem State.answerTo_ordered (s : State) (rq : Request) (op : DapOp)
    (ordered : s.kept.Ordered) : (State.answerTo s rq op).kept.Ordered := by
  unfold State.answerTo
  dsimp only
  (repeat' split) <;> simp [-State.stamp_kept, ordered]

@[simp] theorem State.fieldServe_ordered (s : State) (rq : Request) (op : DapOp)
    (ordered : s.kept.Ordered) : (State.fieldServe s rq op).kept.Ordered := by
  unfold State.fieldServe
  (repeat' split) <;> simp [State.fold_kept, -State.stamp_kept, ordered]

@[simp] theorem State.fieldRequest_ordered (s : State) (rq : Request) (op : DapOp)
    (ordered : s.kept.Ordered) : (State.fieldRequest s rq op).kept.Ordered := by
  unfold State.fieldRequest
  (repeat' split) <;> simp [State.fold_kept, State.kept_lit, -State.stamp_kept, ordered]

@[simp] theorem State.request_ordered (s t : State) (k : t.kept = s.kept) (rq : Request) (op : DapOp)
    (ordered : s.kept.Ordered) : (outcomeState s (t.request rq op)).kept.Ordered := by
  have handed : t.kept.Ordered := k ▸ ordered
  unfold State.request
  split
  · simp [handed]
  · rw [outcomeState_onUnit]
    (repeat' split) <;> simp [ordered, handed]

@[simp] theorem execRead_ordered (cyc : Nat) (rq : Request) (items : List (Nat × Nat)) (s : State)
    (ordered : s.kept.Ordered) : (outcomeState s (execRead cyc rq items s)).kept.Ordered := by
  unfold execRead
  exact State.request_ordered s _ (State.stamp_kept ..) _ _ ordered

@[simp] theorem execWrite_ordered (cyc : Nat) (rq : Request) (items : List WriteItem) (s : State)
    (ordered : s.kept.Ordered) : (outcomeState s (execWrite cyc rq items s)).kept.Ordered := by
  unfold execWrite
  exact State.request_ordered s _ (State.stamp_kept ..) _ _ ordered

@[simp] theorem execReadSegment_ordered (cyc : Nat) (rq : Request) (index sub offset length expectSeq : Nat) (s : State)
    (ordered : s.kept.Ordered) : (outcomeState s (execReadSegment cyc rq index sub offset length expectSeq
      s)).kept.Ordered := by
  unfold execReadSegment
  exact State.request_ordered s _ (State.stamp_kept ..) _ _ ordered

@[simp] theorem execWriteSegment_ordered (cyc : Nat) (rq : Request) (index sub : Nat) (first : Bool) (offset total :
    Nat) (data : List Byte) (s : State)
    (ordered : s.kept.Ordered) : (outcomeState s (execWriteSegment cyc rq index sub first offset total data
      s)).kept.Ordered := by
  unfold execWriteSegment
  exact State.request_ordered s _ (State.stamp_kept ..) _ _ ordered

@[simp] theorem execBegin_ordered (cyc : Nat) (rq : Request) (s : State)
    (ordered : s.kept.Ordered) : (outcomeState s (execBegin cyc rq s)).kept.Ordered := by
  unfold execBegin
  exact State.request_ordered s _ (State.stamp_kept ..) _ _ ordered

@[simp] theorem execCommit_ordered (cyc : Nat) (rq : Request) (at_ : Nat) (s : State)
    (ordered : s.kept.Ordered) : (outcomeState s (execCommit cyc rq at_ s)).kept.Ordered := by
  unfold execCommit
  exact State.request_ordered s _ (State.stamp_kept ..) _ _ ordered

@[simp] theorem execRollback_ordered (cyc : Nat) (rq : Request) (s : State)
    (ordered : s.kept.Ordered) : (outcomeState s (execRollback cyc rq s)).kept.Ordered := by
  unfold execRollback
  exact State.request_ordered s _ (State.stamp_kept ..) _ _ ordered

@[simp] theorem execTxStatus_ordered (cyc : Nat) (rq : Request) (s : State)
    (ordered : s.kept.Ordered) : (outcomeState s (execTxStatus cyc rq s)).kept.Ordered := by
  unfold execTxStatus
  exact State.request_ordered s _ (State.stamp_kept ..) _ _ ordered

@[simp] theorem execMulticastReadReply_ordered (cyc : Nat) (s : State)
    (ordered : s.kept.Ordered) : (outcomeState s (execMulticastReadReply cyc s)).kept.Ordered := by
  unfold execMulticastReadReply
  dsimp only
  split
  · exact ordered
  · simp only [outcomeState_next]
    split <;> simp [State.fold_kept, State.kept_lit, -State.stamp_kept, State.kept_stamp, ordered]

@[simp] theorem State.pollSlot_ordered (s : State) (n : Nat)
    (ordered : s.kept.Ordered) : (State.pollSlot s n).kept.Ordered := by
  unfold State.pollSlot
  dsimp only
  (repeat' split) <;> simp [-State.stamp_kept, ordered]

@[simp] theorem execDictSlotPoll_ordered (cyc : Nat) (s : State)
    (ordered : s.kept.Ordered) : (outcomeState s (execDictSlotPoll cyc s)).kept.Ordered := by
  have polled := State.ordered_foldl_state State.pollSlot_ordered (List.range 16) (s := s.stamp cyc) (by simpa using
    ordered)
  unfold execDictSlotPoll
  split
  · rw [outcomeState_next]
    exact State.beginCommanded_ordered _ polled
  · rw [outcomeState_next]
    exact ordered

@[simp] theorem State.decide__ordered (s : State) (x : Tx)
    (ordered : s.kept.Ordered) : (State.decide_ s x).kept.Ordered := by
  unfold State.decide_
  have committed := State.commitAll_ordered s x.items ordered
  dsimp only
  (repeat' split) <;> simp [committed, State.fold_kept, State.kept_lit, Kept.ordered_mk, -State.stamp_kept]

@[simp] theorem State.txBoundary_ordered (s : State)
    (ordered : s.kept.Ordered) : (State.txBoundary s).kept.Ordered := by
  unfold State.txBoundary
  refine State.beginCommanded_ordered _ ?_
  exact Kept.Ordered.of_same (State.ordered_foldl_state State.decide__ordered _ ordered) rfl rfl

@[simp] theorem State.clockBoundary_ordered (s : State)
    (ordered : s.kept.Ordered) : (State.clockBoundary s).kept.Ordered := by
  refine ordered.of_same ?_ ?_ <;> simp

@[simp] theorem State.drainSlot_ordered (s : State)
    (ordered : s.kept.Ordered) : (State.drainSlot s).kept.Ordered := by
  refine ordered.of_same ?_ ?_ <;> simp

@[simp] theorem State.earlyBoundary_ordered (s : State) (env : BoundaryEnv) (frame : Bool)
    (ordered : s.kept.Ordered) : (State.earlyBoundary s env frame).kept.Ordered := by
  unfold State.earlyBoundary
  refine State.resetOn_ordered _ (State.drainSlot_ordered _ (State.applyIdentity_ordered _ (State.bootBoundary_ordered
    _ ?_)))
  rw [State.capBoundary_kept]
  split
  · simpa using State.clockBoundary_ordered s ordered
  · exact State.clockBoundary_ordered s ordered

@[simp] theorem State.lateBoundary_ordered (s : State) (env : BoundaryEnv) (frame : Bool)
    (ordered : s.kept.Ordered) : (State.lateBoundary s env frame).kept.Ordered := by
  unfold State.lateBoundary
  simp [State.fold_kept, State.kept_lit, -State.stamp_kept, ordered]

@[simp] theorem execSlotBoundary_ordered (env : BoundaryEnv) (s : State)
    (ordered : s.kept.Ordered) : (outcomeState s (execSlotBoundary env s)).kept.Ordered := by
  have early (frame : Bool) := State.earlyBoundary_ordered s env frame ordered
  unfold execSlotBoundary
  dsimp only
  split
  · exact ordered
  · rw [outcomeState_next]
    split
    · exact early _
    · exact State.lateBoundary_ordered _ env _ (early _)

/-- Every command keeps the settings in order: one that the lists of Safety.lean name by the law of its operation. -/
theorem exec_ordered (c : Instr) (s : State) (ordered : s.kept.Ordered) : (outcomeState s (exec c s)).kept.Ordered := by
  by_cases unlisted : c.writesSettings = false ∧ c.writesBlobs = false
  · obtain ⟨settings, blobs⟩ := unlisted
    exact ordered.of_same (outcome_regs c s settings) (outcome_blobs c s blobs)
  · cases c with
    | attInvalidate value => exact execAttInvalidate_ordered value s ordered
    | ringConfigCommit sub value => exact execRingConfigCommit_ordered sub value s ordered
    | dspTableCommit sub bytes => exact execDspTableCommit_ordered sub bytes s ordered
    | storeInstall source length => exact execStoreInstall_ordered source length s ordered
    | storeDelete tag => exact execStoreDelete_ordered tag s ordered
    | adapterInstall source length => exact execAdapterInstall_ordered source length s ordered
    | adapterDelete tag => exact execAdapterDelete_ordered tag s ordered
    | storeRepair tag source length => exact execStoreRepair_ordered tag source length s ordered
    | stoModeSet value => exact execStoModeSet_ordered value s ordered
    | modelSwitchRequest target mode plan => exact execModelSwitchRequest_ordered target mode plan s ordered
    | epochSwitchRequest target plan => exact execEpochSwitchRequest_ordered target plan s ordered
    | switchCancel value => exact execSwitchCancel_ordered value s ordered
    | fenceCmd cyc quadrant => exact execFenceCmd_ordered cyc quadrant s ordered
    | unfenceCmd cyc quadrant => exact execUnfenceCmd_ordered cyc quadrant s ordered
    | awlRunTargeted quadrant => exact execAwlRunTargeted_ordered quadrant s ordered
    | awlRunDestructive quadrant => exact execAwlRunDestructive_ordered quadrant s ordered
    | awlSetLoad cyc image => exact execAwlSetLoad_ordered cyc image s ordered
    | persistClear value => exact execPersistClear_ordered value s ordered
    | domainEnable cyc domain => exact execDomainEnable_ordered cyc domain s ordered
    | domainDisable cyc domain => exact execDomainDisable_ordered cyc domain s ordered
    | keyUpdate cyc records => exact execKeyUpdate_ordered cyc records s ordered
    | enrolTicket cyc ticket => exact execEnrolTicket_ordered cyc ticket s ordered
    | releaseTicket cyc ticket => exact execReleaseTicket_ordered cyc ticket s ordered
    | debugUnlockTicket cyc ticket cosign => exact execDebugUnlockTicket_ordered cyc ticket cosign s ordered
    | attestRequest cyc nonce => exact execAttestRequest_ordered cyc nonce s ordered
    | svnRaise cyc => exact execSvnRaise_ordered cyc s ordered
    | resetModuleCmd cyc => exact execResetModuleCmd_ordered cyc s ordered
    | resetFirmwareCmd cyc => exact execResetFirmwareCmd_ordered cyc s ordered
    | moduleRstLRelease => exact execModuleRstLRelease_ordered s ordered
    | powerOn => exact execPowerOn_ordered s ordered
    | powerFailRestart vinGood => exact execPowerFailRestart_ordered vinGood s ordered
    | ejectRestart => exact execEjectRestart_ordered s ordered
    | fwLoad cyc image => exact execFwLoad_ordered cyc image s ordered
    | fwActivate => exact execFwActivate_ordered s ordered
    | fwDeactivate => exact execFwDeactivate_ordered s ordered
    | serveStart cyc => exact execServeStart_ordered cyc s ordered
    | serveStop => exact execServeStop_ordered s ordered
    | frameCountLoad value => exact execFrameCountLoad_ordered value s ordered
    | objectWrite cyc index sub value => exact execObjectWrite_ordered cyc index sub value s ordered
    | read cyc rq items => exact execRead_ordered cyc rq items s ordered
    | write cyc rq items => exact execWrite_ordered cyc rq items s ordered
    | readSegment cyc rq index sub offset length expectSeq =>
      exact execReadSegment_ordered cyc rq index sub offset length expectSeq s ordered
    | writeSegment cyc rq index sub first offset total data =>
      exact execWriteSegment_ordered cyc rq index sub first offset total data s ordered
    | begin cyc rq => exact execBegin_ordered cyc rq s ordered
    | commit cyc rq at_ => exact execCommit_ordered cyc rq at_ s ordered
    | rollback cyc rq => exact execRollback_ordered cyc rq s ordered
    | txStatus cyc rq => exact execTxStatus_ordered cyc rq s ordered
    | multicastReadReply cyc => exact execMulticastReadReply_ordered cyc s ordered
    | dictSlotPoll cyc => exact execDictSlotPoll_ordered cyc s ordered
    | slotBoundary env => exact execSlotBoundary_ordered env s ordered
    | _ => exact absurd ⟨rfl, rfl⟩ unlisted

/-- Settles O54: a step by `exec_ordered`, a written setting by the laws of the ordered map. -/
theorem settingsStayOrdered : Obligations.SettingsStayOrdered := by
  unfold Obligations.SettingsStayOrdered
  refine ⟨fun s t run legal => ?_, fun key v s legal => ?_⟩
  · refine step_keeps (P := State.settingsOrdered) (fun s q h => h) (fun c s t run held => ?_) run legal
    obtain ⟨regs, blobs⟩ := held
    have kept := exec_ordered c s ⟨regs, blobs⟩
    rw [run] at kept
    exact ⟨kept.regs, kept.blobs⟩
  · obtain ⟨regs, blobs⟩ := legal
    exact ⟨⟨State.ksorted_setReg regs, blobs⟩, State.reg_setReg_self s key v regs,
      fun k other => State.reg_setReg_ne s v other⟩

end Sys2Proof.Machine
end

section
/-! PROOFS. Memories in canonical form (log entry 10): every operation that writes a byte writes it into a memory whose
addresses rise and that lists no zero byte. -/

namespace Sys2Proof.Machine

/-! ### Memories in canonical form -/

/-- What stays of a memory in canonical form is in canonical form. -/
@[simp] theorem Memory.canonical_filter {m : List Host.Cell} (keep : Host.Cell → Bool)
    (h : Memory.canonical m = true) : Memory.canonical (m.filter keep) = true := by
  induction m with
  | nil => rfl
  | cons c m ih =>
    obtain ⟨a, b⟩ := c
    obtain ⟨hb, ha, hm⟩ := Memory.canonical_cons.mp h
    simp only [List.filter_cons]
    split
    · exact Memory.canonical_cons.mpr ⟨hb, fun c hc => ha c (List.mem_of_mem_filter hc), ih hm⟩
    · exact ih hm

@[simp] theorem writeBack_canonical (n : Insole) {hbm : List Host.Cell} (base : Nat) (l : CacheLine)
    (h : Memory.canonical hbm = true) : Memory.canonical (writeBack n hbm base l).2 = true := by
  unfold writeBack
  generalize List.range 4 = quarters
  generalize started : (n, hbm) = p
  have clean : Memory.canonical p.2 = true := by rw [← started]; exact h
  clear started
  induction quarters generalizing p with
  | nil => exact clean
  | cons i is ih =>
    refine ih _ ?_
    dsimp only
    split
    · exact Memory.canonical_putSector _ _ clean
    · exact clean

@[simp] theorem allocate_canonical (stack : Nat) (n : Insole) {hbm : List Host.Cell} (line : Nat)
    (h : Memory.canonical hbm = true) : Memory.canonical (allocate stack n hbm line).2.2 = true := by
  unfold allocate
  dsimp only
  (repeat' split) <;> simp [h]

@[simp] theorem place_canonical (stack : Nat) (n : Insole) {hbm : List Host.Cell} (mpa : Nat) (symbols : List Byte)
    (dirty : Bool) (h : Memory.canonical hbm = true) :
    Memory.canonical (place stack n hbm mpa symbols dirty).2 = true := allocate_canonical stack n (lineOf mpa) h

@[simp] theorem readSector_canonical (stack : Nat) (n : Insole) {hbm : List Host.Cell} (mpa : Nat) (noAllocate : Bool)
    (errors : List (Nat × Byte)) (h : Memory.canonical hbm = true) :
    Memory.canonical (readSector stack n hbm mpa noAllocate errors).2.2 = true := by
  unfold readSector
  dsimp only
  (repeat' split) <;> simp [h]

@[simp] theorem writeSector_canonical (stack : Nat) (n : Insole) {hbm : List Host.Cell} (mpa : Nat)
    (data mask : List Byte) (noAllocate : Bool) (mode : Nat) (errors : List (Nat × Byte))
    (h : Memory.canonical hbm = true) :
    Memory.canonical (writeSector stack n hbm mpa data mask noAllocate mode errors).2 = true := by
  unfold writeSector
  dsimp only
  (repeat' split) <;> simp [h, Memory.canonical_putSector]

@[simp] theorem flush_canonical (stack : Nat) (n : Insole) {hbm : List Host.Cell} (h : Memory.canonical hbm = true) :
    Memory.canonical (flush stack n hbm).2 = true := by
  unfold flush
  dsimp only
  generalize n.lines = lines
  induction lines generalizing n hbm with
  | nil => exact h
  | cons e es ih => exact ih _ (writeBack_canonical n _ _ h)

/-- Both memories of a state in canonical form. -/
structure Kept.Clean (k : Kept) : Prop where
  sram : Memory.canonical k.sram = true
  hbm : Memory.canonical k.hbm = true

theorem Kept.clean_mk {part : Part} {pending : List Instr} {regs : KMap Nat} {blobs : KMap (List Byte)} {boot : Boot}
    {sec : Security} {slot frame : Nat} {txs ended : List Tx} {cache : List (Nat × Reply)} {sram hbm : List Host.Cell} :
    Kept.Clean {
      part := part, pending := pending, regs := regs, blobs := blobs, boot := boot, sec := sec, slot := slot, frame :=
        frame
      txs := txs, ended := ended, cache := cache, sram := sram, hbm := hbm } ↔
      Memory.canonical sram = true ∧ Memory.canonical hbm = true :=
  ⟨fun h => ⟨h.sram, h.hbm⟩, fun ⟨sram, hbm⟩ => ⟨sram, hbm⟩⟩

theorem Kept.Clean.of_same {k l : Kept} (h : k.Clean) (sram : l.sram = k.sram) (hbm : l.hbm = k.hbm) : l.Clean :=
  ⟨sram ▸ h.sram, hbm ▸ h.hbm⟩

@[simp] theorem Kept.clean_sram {k : Kept} (h : k.Clean) : Memory.canonical k.sram = true := h.sram
@[simp] theorem Kept.clean_hbm {k : Kept} (h : k.Clean) : Memory.canonical k.hbm = true := h.hbm

@[simp] theorem State.clean_ite (c : Prop) [Decidable c] (s t : State) :
    (if c then s.kept else t.kept).Clean ↔ if c then s.kept.Clean else t.kept.Clean := by split <;> rfl

theorem State.clean_of_ite {c : Prop} [Decidable c] {s t : State} (yes : s.kept.Clean) (no : t.kept.Clean) :
    (if c then s else t).kept.Clean := by
  split
  · exact yes
  · exact no

/-- What every step of a fold keeps in canonical form, the fold does. -/
theorem State.clean_foldl {α β : Type} {f : β → α → β} (g : β → State)
    (step : ∀ b a, (g b).kept.Clean → (g (f b a)).kept.Clean) (l : List α) {b : β} (clean : (g b).kept.Clean) :
    (g (l.foldl f b)).kept.Clean := by
  induction l generalizing b with
  | nil => exact clean
  | cons a l ih => exact ih (step b a clean)

theorem State.clean_foldl_state {α : Type} {f : State → α → State}
    (step : ∀ t a, t.kept.Clean → (f t a).kept.Clean) (l : List α) {s : State} (clean : s.kept.Clean) :
    (l.foldl f s).kept.Clean := State.clean_foldl (fun t => t) step l clean

theorem State.clean_foldl_fst {α γ : Type} {f : State × γ → α → State × γ}
    (step : ∀ p a, p.1.kept.Clean → (f p a).1.kept.Clean) (l : List α) {p : State × γ}
    (clean : p.1.kept.Clean) :
    (l.foldl f p).1.kept.Clean := State.clean_foldl (fun p : State × γ => p.1) step l clean

theorem State.clean_foldl_snd {α γ : Type} {f : γ × State → α → γ × State}
    (step : ∀ p a, p.2.kept.Clean → (f p a).2.kept.Clean) (l : List α) {p : γ × State}
    (clean : p.2.kept.Clean) :
    (l.foldl f p).2.kept.Clean := State.clean_foldl (fun p : γ × State => p.2) step l clean

/-- An insole changes, and with it the stack's content as given. -/
@[simp] theorem State.setInsole_clean (s : State) (stack : Nat) (n : Insole) (hbm : List Host.Cell)
    (clean : s.kept.Clean) (content : Memory.canonical hbm = true) : (s.setInsole stack n hbm).kept.Clean :=
  Kept.clean_mk.mpr ⟨clean.sram, content⟩

@[simp] theorem State.setInsole_readSector_clean {s t : State} (held : s.kept.Clean) (clean : t.kept.Clean)
    (k stack mpa : Nat) (n i : Insole) (noAllocate : Bool) (errors : List (Nat × Byte)) :
    (t.setInsole k n (readSector stack i s.kept.hbm mpa noAllocate errors).2.2).kept.Clean :=
  State.setInsole_clean _ _ _ _ clean (readSector_canonical _ _ _ _ _ held.hbm)

@[simp] theorem State.setInsole_writeSector_clean {s t : State} (held : s.kept.Clean) (clean : t.kept.Clean)
    (k stack mpa mode : Nat) (n i : Insole) (data mask : List Byte) (noAllocate : Bool) (errors : List (Nat × Byte)) :
    (t.setInsole k n (writeSector stack i s.kept.hbm mpa data mask noAllocate mode errors).2).kept.Clean :=
  State.setInsole_clean _ _ _ _ clean (writeSector_canonical _ _ _ _ _ _ _ _ held.hbm)

@[simp] theorem State.setInsole_clearBytes_clean {s t : State} (held : s.kept.Clean) (clean : t.kept.Clean)
    (k lo hi : Nat) (n : Insole) : (t.setInsole k n (clearBytes s.kept.hbm lo hi)).kept.Clean :=
  State.setInsole_clean _ _ _ _ clean (Memory.canonical_clearBytes _ _ held.hbm)

@[simp] theorem State.setReg_clean (s : State) (key v : Nat)
    (clean : s.kept.Clean) : (State.setReg s key v).kept.Clean := by
  refine clean.of_same ?_ ?_ <;> simp

@[simp] theorem State.engineWrite_clean (s : State) (mpa : Nat) (data : List Byte)
    (clean : s.kept.Clean) : (State.engineWrite s mpa data).kept.Clean := by
  unfold State.engineWrite
  split <;> simp [State.fold_kept, -State.stamp_kept, clean]

@[simp] theorem State.readNow_clean (s : State) (mpa location group : Nat) (noAllocate : Bool)
    (clean : s.kept.Clean) : (State.readNow s mpa location group noAllocate).2.2.kept.Clean := by
  unfold State.readNow
  split <;> simp [State.fold_kept, -State.stamp_kept, clean]

@[simp] theorem State.readBytesNow_clean (s : State) (location : Nat) (noAllocate : Bool) (at_ : List Nat)
    (clean : s.kept.Clean) : (State.readBytesNow s location noAllocate at_).2.2.kept.Clean := by
  exact State.clean_foldl (fun p : List Host.Cell × Bool × State => p.2.2)
    (fun p a clean => State.readNow_clean p.2.2 a location 0xFF noAllocate clean) _ clean

@[simp] theorem State.spillStore_clean (s : State) (tile base depth n : Nat) (x : Flit)
    (clean : s.kept.Clean) : (State.spillStore s tile base depth n x).kept.Clean := by
  unfold State.spillStore
  simp [State.fold_kept, State.kept_lit, Kept.clean_mk, -State.stamp_kept, clean, Memory.canonical_writeBytes]

@[simp] theorem State.spillIn_clean (s : State) (i : Nat)
    (clean : s.kept.Clean) : (State.spillIn s i).kept.Clean := by
  unfold State.spillIn
  split
  · next base depth d region desc =>
    have stored := State.clean_foldl_state (f := fun t (e : Flit × Nat) =>
      t.spillStore (locTile d.location) base depth ((s.station i).writePos + e.2) e.1)
      (fun t e clean => State.spillStore_clean t _ _ _ _ _ clean)
      ((s.fab.input d 0).take (depth - (s.station i).fifo.length)).zipIdx clean
    exact stored.of_same rfl rfl
  · exact clean

@[simp] theorem State.spillQueueIn_clean (s : State) (queue : Nat)
    (clean : s.kept.Clean) : (State.spillQueueIn s queue).kept.Clean := by
  unfold State.spillQueueIn; (repeat' split) <;> simp [-State.stamp_kept, clean]

@[simp] theorem execFlitDelivered_clean (cyc queue : Nat) (ecc : EccEvent) (s : State)
    (clean : s.kept.Clean) : (outcomeState s (execFlitDelivered cyc queue ecc s)).kept.Clean := by
  unfold execFlitDelivered
  dsimp only
  (repeat' split) <;> simp [State.fold_kept, State.kept_lit, Kept.clean_mk, -State.stamp_kept, State.kept_stamp, clean]

@[simp] theorem State.commitRing_clean (s before : State) (sub value : Nat) (zero : Bool)
    (clean : s.kept.Clean) : (State.commitRing s before sub value zero).kept.Clean := by
  refine clean.of_same ?_ ?_ <;> simp

@[simp] theorem State.answerFlits_clean (at_ : Nat → Nat) (first size total x0 x1 : Nat) (s : State)
    (clean : s.kept.Clean) : (State.answerFlits at_ first size total x0 x1 s).2.kept.Clean := by
  induction x0 generalizing s x1 with
  | zero => exact clean
  | succ n ih => exact ih _ _ (State.readBytesNow_clean s _ _ _ clean)

@[simp] theorem State.reqPacket_clean (s : State) (h : PacketHeader)
    (clean : s.kept.Clean) : (State.reqPacket s h).kept.Clean := by
  unfold State.reqPacket; dsimp only; (repeat' split) <;> simp [State.fold_kept, -State.stamp_kept, clean]

@[simp] theorem State.packetIn_clean (s : State) (l vc : Nat) (h : PacketHeader) (flits : List Flit)
    (clean : s.kept.Clean) : (State.packetIn s l vc h flits).kept.Clean := by
  unfold State.packetIn; dsimp only; (repeat' split) <;> simp [-State.stamp_kept, clean]

@[simp] theorem State.slotIn_clean (s : State) (l : Nat) (x : LaceSlot)
    (clean : s.kept.Clean) : (State.slotIn s l x).kept.Clean := by
  unfold State.slotIn; (repeat' split) <;> simp [-State.stamp_kept, clean]

@[simp] theorem execLaceFrameReceived_clean (cyc lace : Nat) (f : LaceFrame) (s : State)
    (clean : s.kept.Clean) : (outcomeState s (execLaceFrameReceived cyc lace f s)).kept.Clean := by
  have slots (ls : List LaceSlot) (t : State) (held : t.kept.Clean) :=
    State.clean_foldl_state (fun t x clean => State.slotIn_clean t lace x clean) ls held
  unfold execLaceFrameReceived
  rw [outcomeState_onUnit]
  dsimp only
  (repeat' split) <;> simp [slots, -State.stamp_kept, State.kept_stamp, clean]

@[simp] theorem State.placeTensor_clean (s : State) (epoch number : Nat) (e : TensorEntry) (data : List Byte)
    (clean : s.kept.Clean) : (State.placeTensor s epoch number e data).kept.Clean := by
  exact State.clean_foldl_state (fun t die clean =>
    State.clean_foldl_state (fun t i clean => State.engineWrite_clean t _ _ clean) _ clean) _ clean

@[simp] theorem State.placeShard_clean (s : State) (r : Resident) (n : Nat) (data : List Byte)
    (clean : s.kept.Clean) : (State.placeShard s r n data).kept.Clean := by
  exact State.clean_foldl_state (fun t x clean => State.placeTensor_clean t _ _ _ _ clean) _ clean

@[simp] theorem State.placeAdapters_clean (s : State) (m : Manifest) (n : Nat) (data : List Byte)
    (clean : s.kept.Clean) : (State.placeAdapters s m n data).kept.Clean := by
  exact State.clean_foldl_state (fun t a clean =>
    State.clean_foldl_state (fun t x clean => State.placeTensor_clean t _ _ _ _ clean) _ clean) _ clean

@[simp] theorem State.adapterArrival_clean (s : State) (a : AdapterLoad) (rest : List AdapterLoad) (n : Nat) (readable
    : Bool)
    (clean : s.kept.Clean) : (State.adapterArrival s a rest n readable).kept.Clean := by
  unfold State.adapterArrival
  dsimp only
  (repeat' split) <;> simp [State.fold_kept, State.kept_lit, -State.stamp_kept, clean]

@[simp] theorem State.stagingArrival_clean (s : State) (g : Staging) (owner n : Nat) (readable : Bool)
    (clean : s.kept.Clean) : (State.stagingArrival s g owner n readable).kept.Clean := by
  unfold State.stagingArrival; dsimp only; (repeat' split) <;> simp [-State.stamp_kept, clean]

@[simp] theorem execShardArrival_clean (cyc : Nat) (readable : Bool) (s : State)
    (clean : s.kept.Clean) : (outcomeState s (execShardArrival cyc readable s)).kept.Clean := by
  unfold execShardArrival
  dsimp only
  (repeat' split) <;> simp [State.fold_kept, State.kept_lit, -State.stamp_kept, State.kept_stamp, clean]

@[simp] theorem State.refetched_clean (s : State) (r : Resident) (n : Nat) (valid staged : Bool)
    (clean : s.kept.Clean) : (State.refetched s r n valid staged).kept.Clean := by
  unfold State.refetched; dsimp only; (repeat' split) <;> simp [-State.stamp_kept, clean]

@[simp] theorem execShardRefetchComplete_clean (cyc shard : Nat) (valid : Bool) (s : State)
    (clean : s.kept.Clean) : (outcomeState s (execShardRefetchComplete cyc shard valid s)).kept.Clean := by
  unfold execShardRefetchComplete; dsimp only; (repeat' split) <;> simp [-State.stamp_kept, State.kept_stamp, clean]

@[simp] theorem State.lineMatches_clean (p : Bool × State) (mpa n : Nat) (want : List Byte)
    (clean : p.2.kept.Clean) : (State.lineMatches p mpa n want).2.kept.Clean := by
  exact State.readNow_clean p.2 _ _ _ _ clean

@[simp] theorem State.copyMatches_clean (s : State) (r : Resident) (number : Nat) (e : TensorEntry) (data : List Byte)
    (clean : s.kept.Clean) : (State.copyMatches s r number e data).2.kept.Clean := by
  unfold State.copyMatches
  exact State.clean_foldl_snd (fun p die clean =>
    State.clean_foldl_snd (fun p i clean => State.lineMatches_clean p _ _ _ clean) _ clean) _ clean

@[simp] theorem State.copiesMatch_clean (s : State) (r : Resident) (n : Nat) (data : List Byte)
    (clean : s.kept.Clean) : (State.copiesMatch s r n data).2.kept.Clean := by
  unfold State.copiesMatch
  exact State.clean_foldl_snd (fun p x clean => State.copyMatches_clean p.2 r x.2 x.1 data clean) _ clean

@[simp] theorem State.digestScrub_clean (s : State)
    (clean : s.kept.Clean) : (State.digestScrub s).kept.Clean := by
  unfold State.digestScrub
  dsimp only
  (repeat' split) <;> simp [State.fold_kept, State.kept_lit, -State.stamp_kept, clean]

@[simp] theorem State.commitFence_clean (s : State) (q value : Nat)
    (clean : s.kept.Clean) : (State.commitFence s q value).kept.Clean := by
  refine clean.of_same ?_ ?_ <;> simp

@[simp] theorem State.endMaintenance_clean (s : State)
    (clean : s.kept.Clean) : (State.endMaintenance s).kept.Clean := by
  unfold State.endMaintenance; (repeat' split) <;> simp [State.fold_kept, State.kept_lit, -State.stamp_kept, clean]

@[simp] theorem execAwlTestComplete_clean (cyc quadrant : Nat) (misr : BitVec 64) (s : State)
    (clean : s.kept.Clean) : (outcomeState s (execAwlTestComplete cyc quadrant misr s)).kept.Clean := by
  unfold execAwlTestComplete; (repeat' split) <;>
    simp [State.fold_kept, apply_ite State.kept] <;> (repeat' split) <;> simp [State.fold_kept, State.kept_lit,
      -State.stamp_kept, clean]

@[simp] theorem State.commitAwlRun_clean (s : State) (q value : Nat)
    (clean : s.kept.Clean) : (State.commitAwlRun s q value).kept.Clean := by
  refine clean.of_same ?_ ?_ <;> simp

@[simp] theorem State.commitAwlSet_clean (s : State) (b : List Byte)
    (clean : s.kept.Clean) : (State.commitAwlSet s b).kept.Clean := by
  refine clean.of_same ?_ ?_ <;> simp

@[simp] theorem State.commitPersistClear_clean (s : State) (value : Nat)
    (clean : s.kept.Clean) : (State.commitPersistClear s value).kept.Clean := by
  refine clean.of_same ?_ ?_ <;> simp

@[simp] theorem State.startMaintenance_clean (s : State) (e : PlanEntry)
    (clean : s.kept.Clean) : (State.startMaintenance s e).kept.Clean := by
  unfold State.startMaintenance; simp [State.fold_kept, State.kept_lit, -State.stamp_kept, clean]

@[simp] theorem execPlanEntryStart_clean (cyc : Nat) (s : State)
    (clean : s.kept.Clean) : (outcomeState s (execPlanEntryStart cyc s)).kept.Clean := by
  unfold execPlanEntryStart; dsimp only; (repeat' split) <;> simp [-State.stamp_kept, State.kept_stamp, clean]

@[simp] theorem State.clearQuad_clean (s : State) (q : Nat)
    (clean : s.kept.Clean) : (State.clearQuad s q).kept.Clean := by
  exact Kept.clean_mk.mpr ⟨Memory.canonical_filter _ clean.sram, clean.hbm⟩

@[simp] theorem State.loseStack_clean (s : State) (n : Nat) (state : StackState)
    (clean : s.kept.Clean) : (State.loseStack s n state).kept.Clean := by
  unfold State.loseStack
  simp [State.fold_kept, -State.stamp_kept, clean]

@[simp] theorem State.stackOff_clean (s : State) (n : Nat)
    (clean : s.kept.Clean) : (State.stackOff s n).kept.Clean := by
  exact State.loseStack_clean _ _ _ (State.setInsole_clean _ _ _ _ clean (flush_canonical _ _ clean.hbm))

@[simp] theorem State.unitsOn_clean (s : State) (d : Nat)
    (clean : s.kept.Clean) : (State.unitsOn s d).kept.Clean := by
  have lost (l : List Nat) := State.clean_foldl_state (fun t n clean => State.loseStack_clean t n .init clean) l clean
  unfold State.unitsOn
  (repeat' split) <;> simp [lost, State.fold_kept, -State.stamp_kept, clean]

@[simp] theorem State.unitsOff_clean (s : State) (d : Nat)
    (clean : s.kept.Clean) : (State.unitsOff s d).kept.Clean := by
  have lost (l : List Nat) := State.clean_foldl_state (State.stackOff_clean) l clean
  unfold State.unitsOff
  (repeat' split) <;> simp [lost, State.fold_kept, -State.stamp_kept, clean]

@[simp] theorem State.stopDomain_clean (s : State) (d : Nat)
    (clean : s.kept.Clean) : (State.stopDomain s d).kept.Clean := by
  unfold State.stopDomain; simp [-State.stamp_kept, clean]

@[simp] theorem State.disableDomain_clean (s : State) (d : Nat)
    (clean : s.kept.Clean) : (State.disableDomain s d).2.kept.Clean := by
  unfold State.disableDomain; dsimp only; (repeat' split) <;> simp [-State.stamp_kept, clean]

@[simp] theorem State.commitDomain_clean (s : State) (d value : Nat)
    (clean : s.kept.Clean) : (State.commitDomain s d value).kept.Clean := by
  unfold State.commitDomain; dsimp only; (repeat' split) <;> simp [-State.stamp_kept, clean]

@[simp] theorem execDomainEnable_clean (cyc domain : Nat) (s : State)
    (clean : s.kept.Clean) : (outcomeState s (execDomainEnable cyc domain s)).kept.Clean := by
  unfold execDomainEnable; simp [-State.stamp_kept, State.kept_stamp, clean]

@[simp] theorem execDomainDisable_clean (cyc domain : Nat) (s : State)
    (clean : s.kept.Clean) : (outcomeState s (execDomainDisable cyc domain s)).kept.Clean := by
  unfold execDomainDisable; simp [-State.stamp_kept, State.kept_stamp, clean]

@[simp] theorem State.stopGroup_clean (s : State) (g : List Nat)
    (clean : s.kept.Clean) : (State.stopGroup s g).kept.Clean := by
  unfold State.stopGroup
  refine State.clean_foldl_state (fun t d clean => ?_) _ clean
  split <;> simp [clean]

@[simp] theorem State.stopNext_clean (x0 : Nat) (s : State)
    (clean : s.kept.Clean) : (State.stopNext x0 s).kept.Clean := by
  induction x0 generalizing s with
  | zero => exact clean
  | succ n ih =>
    unfold State.stopNext
    split
    · exact clean
    · split
      · exact ih _ clean
      · exact State.stopGroup_clean _ _ clean

@[simp] theorem State.drainOn_clean (s : State)
    (clean : s.kept.Clean) : (State.drainOn s).kept.Clean := by
  unfold State.drainOn
  dsimp only
  (repeat' split) <;> simp [State.fold_kept, State.kept_lit, -State.stamp_kept, clean]

@[simp] theorem State.stopOn_clean (s : State)
    (clean : s.kept.Clean) : (State.stopOn s).kept.Clean := by
  unfold State.stopOn; (repeat' split) <;> simp [-State.stamp_kept, clean]

@[simp] theorem State.beginStop_clean (s : State) (reason : StopReason) (order : List (List Nat))
    (clean : s.kept.Clean) : (State.beginStop s reason order).kept.Clean := by
  unfold State.beginStop; simp [State.fold_kept, State.kept_lit, -State.stamp_kept, clean]

@[simp] theorem State.cutDomain_clean (s : State) (d : Nat) (bits_ : BitVec 16)
    (clean : s.kept.Clean) : (State.cutDomain s d bits_).kept.Clean := by
  have lost (l : List Nat) (t : State) (held : t.kept.Clean) :
      (l.foldl (fun (t : State) n => (t.loseStack n .failed).raise 0x0503 n 0 0) t).kept.Clean :=
    State.clean_foldl_state (fun t n clean => by simp [clean]) l held
  unfold State.cutDomain
  dsimp only
  (repeat' split) <;> simp [lost, State.fold_kept, State.kept_lit, Kept.clean_mk, -State.stamp_kept, clean]

@[simp] theorem State.failDomain_clean (s : State) (d : Nat) (bits_ : BitVec 16)
    (clean : s.kept.Clean) : (State.failDomain s d bits_).kept.Clean := by
  unfold State.failDomain; simp [-State.stamp_kept, clean]

@[simp] theorem execDomainRailFault_clean (cyc domain : Nat) (bits : BitVec 16) (s : State)
    (clean : s.kept.Clean) : (outcomeState s (execDomainRailFault cyc domain bits s)).kept.Clean := by
  unfold execDomainRailFault
  simp [-State.stamp_kept]
  (repeat' split) <;> simp [-State.stamp_kept, State.kept_stamp, clean]

@[simp] theorem execDomainTimeout_clean (cyc domain : Nat) (s : State)
    (clean : s.kept.Clean) : (outcomeState s (execDomainTimeout cyc domain s)).kept.Clean := by
  unfold execDomainTimeout
  simp [-State.stamp_kept, clean]
  (repeat' split) <;> simp [-State.stamp_kept, State.kept_stamp, clean]

@[simp] theorem execDomainStartComplete_clean (cyc domain : Nat) (s : State)
    (clean : s.kept.Clean) : (outcomeState s (execDomainStartComplete cyc domain s)).kept.Clean := by
  have started (f : Domain → Domain) := State.unitsOn_clean ((s.stamp cyc).modDomain domain f) domain
    (by simp [-State.stamp_kept, State.kept_stamp, clean])
  unfold execDomainStartComplete
  rw [outcomeState_onUnit]
  dsimp only
  (repeat' split) <;> simp [started, -State.stamp_kept, clean]

@[simp] theorem execDomainStopComplete_clean (cyc domain : Nat) (s : State)
    (clean : s.kept.Clean) : (outcomeState s (execDomainStopComplete cyc domain s)).kept.Clean := by
  unfold execDomainStopComplete
  simp [-State.stamp_kept, clean]
  (repeat' split) <;> simp [-State.stamp_kept, State.kept_stamp, clean]

@[simp] theorem State.cutAll_clean (s : State) (bits_ : BitVec 16)
    (clean : s.kept.Clean) : (State.cutAll s bits_).kept.Clean := by
  have cut := State.clean_foldl_state (fun t d clean => State.cutDomain_clean t d bits_ clean) (List.range 20) clean
  unfold State.cutAll
  exact State.stopOn_clean _ (by simpa using cut)

@[simp] theorem execThermalTrip_clean (cyc sensor : Nat) (s : State)
    (clean : s.kept.Clean) : (outcomeState s (execThermalTrip cyc sensor s)).kept.Clean := by
  unfold execThermalTrip
  (repeat' split) <;> simp [State.fold_kept, State.kept_lit, -State.stamp_kept, State.kept_stamp, clean]

@[simp] theorem execVinUndervoltage_clean (cyc : Nat) (s : State)
    (clean : s.kept.Clean) : (outcomeState s (execVinUndervoltage cyc s)).kept.Clean := by
  unfold execVinUndervoltage
  (repeat' split) <;> simp [State.fold_kept, State.kept_lit, -State.stamp_kept, State.kept_stamp, clean]

@[simp] theorem execPowerFailShutdown_clean (cyc : Nat) (s : State)
    (clean : s.kept.Clean) : (outcomeState s (execPowerFailShutdown cyc s)).kept.Clean := by
  unfold execPowerFailShutdown
  (repeat' split) <;> simp [State.fold_kept, State.kept_lit, -State.stamp_kept, State.kept_stamp, clean]

@[simp] theorem State.drainBoundary_clean (s : State)
    (clean : s.kept.Clean) : (State.drainBoundary s).kept.Clean := by
  unfold State.drainBoundary; (repeat' split) <;> simp [-State.stamp_kept, clean]

@[simp] theorem State.commitKeys_clean (s : State) (records : List Byte)
    (clean : s.kept.Clean) : (State.commitKeys s records).kept.Clean := by
  refine clean.of_same ?_ ?_ <;> simp

@[simp] theorem State.commitAttest_clean (s : State) (nonce : List Byte)
    (clean : s.kept.Clean) : (State.commitAttest s nonce).kept.Clean := by
  refine clean.of_same ?_ ?_ <;> simp

@[simp] theorem State.commitSvn_clean (s : State) (value : Nat)
    (clean : s.kept.Clean) : (State.commitSvn s value).kept.Clean := by
  refine clean.of_same ?_ ?_ <;> simp

@[simp] theorem State.cleared_clean (s : State) (cause uptime : Nat) (debug : DebugState)
    (clean : s.kept.Clean) : (State.cleared s cause uptime debug).kept.Clean := by
  exact Kept.clean_mk.mpr ⟨rfl, rfl⟩

@[simp] theorem State.powerOnReset_clean (s : State) (cause : Nat)
    (clean : s.kept.Clean) : (State.powerOnReset s cause).kept.Clean := by
  unfold State.powerOnReset; simp [State.fold_kept, -State.stamp_kept, clean]

@[simp] theorem State.moduleReset_clean (s : State) (cause : Nat)
    (clean : s.kept.Clean) : (State.moduleReset s cause).kept.Clean := by
  unfold State.moduleReset; simp [State.fold_kept, State.kept_lit, Kept.clean_mk, -State.stamp_kept, clean]

@[simp] theorem State.firmwareReset_clean (s : State)
    (clean : s.kept.Clean) : (State.firmwareReset s).kept.Clean := by
  refine clean.of_same ?_ ?_ <;> simp

@[simp] theorem State.beginReset_clean (s : State) (cause : Nat)
    (clean : s.kept.Clean) : (State.beginReset s cause).kept.Clean := by
  unfold State.beginReset; (repeat' split) <;> simp [-State.stamp_kept, clean]

@[simp] theorem State.resetOn_clean (s : State)
    (clean : s.kept.Clean) : (State.resetOn s).kept.Clean := by
  unfold State.resetOn; (repeat' split) <;> simp [-State.stamp_kept, clean]

@[simp] theorem State.beginCommanded_clean (s : State)
    (clean : s.kept.Clean) : (State.beginCommanded s).kept.Clean := by
  unfold State.beginCommanded
  (repeat' split) <;> simp [State.fold_kept, State.kept_lit, Kept.clean_mk, -State.stamp_kept, clean]

@[simp] theorem State.commitReset_clean (s : State) (value : Nat)
    (clean : s.kept.Clean) : (State.commitReset s value).kept.Clean := by
  refine clean.of_same ?_ ?_ <;> simp

@[simp] theorem execResetModuleCmd_clean (cyc : Nat) (s : State)
    (clean : s.kept.Clean) : (outcomeState s (execResetModuleCmd cyc s)).kept.Clean := by
  unfold execResetModuleCmd
  simp [-State.stamp_kept, State.kept_stamp, clean]

@[simp] theorem execResetFirmwareCmd_clean (cyc : Nat) (s : State)
    (clean : s.kept.Clean) : (outcomeState s (execResetFirmwareCmd cyc s)).kept.Clean := by
  unfold execResetFirmwareCmd
  simp [-State.stamp_kept, State.kept_stamp, clean]

@[simp] theorem execModuleResetPin_clean (cyc : Nat) (s : State)
    (clean : s.kept.Clean) : (outcomeState s (execModuleResetPin cyc s)).kept.Clean := by
  unfold execModuleResetPin
  simp [State.fold_kept, State.kept_lit, Kept.clean_mk, -State.stamp_kept, State.kept_stamp, clean]

@[simp] theorem execModuleRstLRelease_clean (s : State)
    (clean : s.kept.Clean) : (outcomeState s (execModuleRstLRelease s)).kept.Clean := by
  unfold execModuleRstLRelease
  simp [State.fold_kept, State.kept_lit, Kept.clean_mk, -State.stamp_kept, clean]

@[simp] theorem execWatchdogExpire_clean (cyc : Nat) (s : State)
    (clean : s.kept.Clean) : (outcomeState s (execWatchdogExpire cyc s)).kept.Clean := by
  unfold execWatchdogExpire
  simp [-State.stamp_kept, State.kept_stamp, clean]

@[simp] theorem execPowerOn_clean (s : State)
    (clean : s.kept.Clean) : (outcomeState s (execPowerOn s)).kept.Clean := by
  unfold execPowerOn
  simp [-State.stamp_kept, clean]

@[simp] theorem execPowerFailRestart_clean (vinGood : Bool) (s : State)
    (clean : s.kept.Clean) : (outcomeState s (execPowerFailRestart vinGood s)).kept.Clean := by
  unfold execPowerFailRestart
  split <;> simp [-State.stamp_kept, clean]

@[simp] theorem execEjectRestart_clean (s : State)
    (clean : s.kept.Clean) : (outcomeState s (execEjectRestart s)).kept.Clean := by
  unfold execEjectRestart
  split <;> simp [-State.stamp_kept, clean]

@[simp] theorem State.commitFwLoad_clean (s : State) (image : List Byte)
    (clean : s.kept.Clean) : (State.commitFwLoad s image).kept.Clean := by
  refine clean.of_same ?_ ?_ <;> simp

@[simp] theorem State.commitActivate_clean (s : State) (value : Nat)
    (clean : s.kept.Clean) : (State.commitActivate s value).kept.Clean := by
  refine clean.of_same ?_ ?_ <;> simp

@[simp] theorem State.commitServe_clean (s : State) (value : Nat)
    (clean : s.kept.Clean) : (State.commitServe s value).kept.Clean := by
  refine clean.of_same ?_ ?_ <;> simp

@[simp] theorem State.applyIdentity_clean (s : State)
    (clean : s.kept.Clean) : (State.applyIdentity s).kept.Clean := by
  refine clean.of_same ?_ ?_ <;> simp

@[simp] theorem execBringupTimeout_clean (cyc row : Nat) (s : State)
    (clean : s.kept.Clean) : (outcomeState s (execBringupTimeout cyc row s)).kept.Clean := by
  have failed (l : List Nat) := State.clean_foldl_state (fun t d clean => State.failDomain_clean t d 4 clean) l
    (s := s.stamp cyc) clean
  unfold execBringupTimeout
  rw [outcomeState_onUnit]
  split
  · split
    · exact clean
    · exact failed _
  · exact clean

@[simp] theorem State.bootBoundary_clean (s : State)
    (clean : s.kept.Clean) : (State.bootBoundary s).kept.Clean := by
  refine clean.of_same ?_ ?_ <;> simp

@[simp] theorem execFrameCountLoad_clean (value : Nat) (s : State)
    (clean : s.kept.Clean) : (outcomeState s (execFrameCountLoad value s)).kept.Clean := by
  refine clean.of_same ?_ ?_ <;> simp

@[simp] theorem State.presetAll_clean (s : State) (xs : List StagedItem)
    (clean : s.kept.Clean) : (State.presetAll s xs).kept.Clean := by
  refine clean.of_same ?_ ?_ <;> simp

@[simp] theorem State.commitStore_clean (t : State) (xs : List StagedItem) (sub value : Nat)
    (clean : t.kept.Clean) : (State.commitStore t xs sub value).kept.Clean := by
  refine clean.of_same ?_ ?_ <;> simp

@[simp] theorem State.commitStaging_clean (t : State) (xs : List StagedItem) (sub value : Nat)
    (clean : t.kept.Clean) : (State.commitStaging t xs sub value).kept.Clean := by
  refine clean.of_same ?_ ?_ <;> simp

@[simp] theorem State.commitDispatch_clean (t before : State) (sub : Nat) (b : List Byte)
    (clean : t.kept.Clean) : (State.commitDispatch t before sub b).kept.Clean := by
  refine clean.of_same ?_ ?_ <;> simp

@[simp] theorem State.commitLink_clean (t : State) (sub value : Nat)
    (clean : t.kept.Clean) : (State.commitLink t sub value).kept.Clean := by
  refine clean.of_same ?_ ?_ <;> simp

@[simp] theorem State.commitCaps_clean (t before : State) (xs : List StagedItem) (sub value : Nat)
    (clean : t.kept.Clean) : (State.commitCaps t before xs sub value).kept.Clean := by
  refine clean.of_same ?_ ?_ <;> simp

@[simp] theorem State.commitTickets_clean (t : State) (xs : List StagedItem) (x : StagedItem)
    (clean : t.kept.Clean) : (State.commitTickets t xs x).kept.Clean := by
  refine clean.of_same ?_ ?_ <;> simp

@[simp] theorem State.commitBudgets_clean (t : State) (b : List Byte)
    (clean : t.kept.Clean) : (State.commitBudgets t b).kept.Clean := by
  refine clean.of_same ?_ ?_ <;> simp

@[simp] theorem State.commitItem_clean (t before : State) (xs : List StagedItem) (x : StagedItem)
    (clean : t.kept.Clean) : (State.commitItem t before xs x).kept.Clean := by
  unfold State.commitItem
  dsimp only
  (repeat' split) <;> simp [-State.stamp_kept, clean]

@[simp] theorem State.commitItems_clean (before : State) (xs l : List StagedItem) (t : State)
    (clean : t.kept.Clean) : (State.commitItems before xs l t).1.kept.Clean := by
  induction l generalizing t with
  | nil => exact clean
  | cons x rest ih =>
    have item := State.commitItem_clean t before xs x clean
    unfold State.commitItems
    dsimp only
    (repeat' split) <;> simp [ih, clean, item]

@[simp] theorem State.refusedBy_clean (s t : State)
    (clean : s.kept.Clean) : (State.refusedBy s t).kept.Clean := by
  refine clean.of_same ?_ ?_ <;> simp

@[simp] theorem State.commitAll_clean (s : State) (xs : List StagedItem)
    (clean : s.kept.Clean) : (State.commitAll s xs).1.kept.Clean := by
  unfold State.commitAll
  dsimp only
  split <;> simp [-State.stamp_kept, clean]

@[simp] theorem execObjectWrite_clean (cyc index sub : Nat) (value : List Byte) (s : State)
    (clean : s.kept.Clean) : (outcomeState s (execObjectWrite cyc index sub value s)).kept.Clean := by
  unfold execObjectWrite
  dsimp only
  (repeat' split) <;> simp [State.fold_kept, -State.stamp_kept, State.kept_stamp, clean]

@[simp] theorem State.touchTx_clean (s : State) (rq : Request)
    (clean : s.kept.Clean) : (State.touchTx s rq).kept.Clean := by
  refine clean.of_same ?_ ?_ <;> simp

@[simp] theorem State.serveRead_clean (s : State) (rq : Request) (items : List (Nat × Nat))
    (clean : s.kept.Clean) : (State.serveRead s rq items).1.kept.Clean := by
  refine clean.of_same ?_ ?_ <;> simp

@[simp] theorem State.serveReadSegment_clean (s : State) (rq : Request) (index sub offset length expectSeq : Nat)
    (clean : s.kept.Clean) : (State.serveReadSegment s rq index sub offset length expectSeq).1.kept.Clean := by
  refine clean.of_same ?_ ?_ <;> simp

@[simp] theorem State.stageItem_clean (s : State) (id : Nat) (w : WriteItem)
    (clean : s.kept.Clean) : (State.stageItem s id w).2.kept.Clean := by
  refine clean.of_same ?_ ?_ <;> simp

@[simp] theorem State.writeItem_clean (s : State) (w : WriteItem)
    (clean : s.kept.Clean) : (State.writeItem s w).2.kept.Clean := by
  unfold State.writeItem; dsimp only; (repeat' split) <;> simp [-State.stamp_kept, clean]

/-- What every item of a WRITE keeps clean, the WRITE does. -/
theorem State.writeItems_clean (one : State → WriteItem → Nat × State)
    (step : ∀ t w, t.kept.Clean → (one t w).2.kept.Clean) (items : List WriteItem) (s : State) (clean : s.kept.Clean) :
    (State.writeItems one items s).1.kept.Clean := by
  unfold State.writeItems
  exact State.clean_foldl_fst (fun p w clean => step p.1 w clean) items (p := (s, ({} : Answer))) clean

@[simp] theorem State.serveWrite_clean (s : State) (rq : Request) (items : List WriteItem)
    (clean : s.kept.Clean) : (State.serveWrite s rq items).1.kept.Clean := by
  unfold State.serveWrite
  split
  · exact State.writeItems_clean _ (fun t w clean => by simp [clean]) _ _ clean
  · split
    · exact State.touchTx_clean s rq clean
    · exact State.writeItems_clean _ (fun t w clean => by simp [clean]) _ _ (State.touchTx_clean s rq clean)

@[simp] theorem State.serveWriteSegment_clean (s : State) (rq : Request) (index sub : Nat) (first : Bool) (offset
    total : Nat) (data : List Byte)
    (clean : s.kept.Clean) : (State.serveWriteSegment s rq index sub first offset total data).1.kept.Clean := by
  refine clean.of_same ?_ ?_ <;> simp

@[simp] theorem State.serveBegin_clean (s : State) (rq : Request)
    (clean : s.kept.Clean) : (State.serveBegin s rq).1.kept.Clean := by
  refine clean.of_same ?_ ?_ <;> simp

@[simp] theorem State.serveCommit_clean (s : State) (rq : Request) (at_ : Nat)
    (clean : s.kept.Clean) : (State.serveCommit s rq at_).1.kept.Clean := by
  refine clean.of_same ?_ ?_ <;> simp

@[simp] theorem State.serveRollback_clean (s : State) (rq : Request)
    (clean : s.kept.Clean) : (State.serveRollback s rq).1.kept.Clean := by
  refine clean.of_same ?_ ?_ <;> simp

@[simp] theorem State.serveTxStatus_clean (s : State) (rq : Request)
    (clean : s.kept.Clean) : (State.serveTxStatus s rq).1.kept.Clean := by
  refine clean.of_same ?_ ?_ <;> simp

@[simp] theorem State.serve_clean (s : State) (rq : Request) (x0 : DapOp)
    (clean : s.kept.Clean) : (State.serve s rq x0).1.kept.Clean := by
  (induction x0 generalizing s <;> simp [State.serve, *])

@[simp] theorem State.handle_clean (s : State) (rq : Request) (op : DapOp)
    (clean : s.kept.Clean) : (State.handle s rq op).1.kept.Clean := by
  unfold State.handle; (repeat' split) <;> simp [State.fold_kept, State.kept_lit, -State.stamp_kept, clean]

@[simp] theorem State.reply_clean (s : State) (port : Nat) (session : Session) (reqId : Nat) (message : List Byte)
    (clean : s.kept.Clean) : (State.reply s port session reqId message).kept.Clean := by
  refine clean.of_same ?_ ?_ <;> simp

@[simp] theorem State.malformed_clean (s : State) (session : Session) (op reqId txId : Nat)
    (clean : s.kept.Clean) : (State.malformed s session op reqId txId).kept.Clean := by
  refine clean.of_same ?_ ?_ <;> simp

@[simp] theorem State.answerTo_clean (s : State) (rq : Request) (op : DapOp)
    (clean : s.kept.Clean) : (State.answerTo s rq op).kept.Clean := by
  unfold State.answerTo
  dsimp only
  (repeat' split) <;> simp [-State.stamp_kept, clean]

@[simp] theorem State.fieldServe_clean (s : State) (rq : Request) (op : DapOp)
    (clean : s.kept.Clean) : (State.fieldServe s rq op).kept.Clean := by
  unfold State.fieldServe; (repeat' split) <;> simp [State.fold_kept, -State.stamp_kept, clean]

@[simp] theorem State.fieldRequest_clean (s : State) (rq : Request) (op : DapOp)
    (clean : s.kept.Clean) : (State.fieldRequest s rq op).kept.Clean := by
  unfold State.fieldRequest; (repeat' split) <;> simp [State.fold_kept, State.kept_lit, -State.stamp_kept, clean]

@[simp] theorem State.request_clean (s t : State) (k : t.kept = s.kept) (rq : Request) (op : DapOp)
    (clean : s.kept.Clean) : (outcomeState s (t.request rq op)).kept.Clean := by
  have handed : t.kept.Clean := k ▸ clean
  unfold State.request
  split
  · simp [handed]
  · rw [outcomeState_onUnit]
    (repeat' split) <;> simp [clean, handed]

@[simp] theorem execRead_clean (cyc : Nat) (rq : Request) (items : List (Nat × Nat)) (s : State)
    (clean : s.kept.Clean) : (outcomeState s (execRead cyc rq items s)).kept.Clean := by
  unfold execRead
  exact State.request_clean s _ (State.stamp_kept ..) _ _ clean

@[simp] theorem execWrite_clean (cyc : Nat) (rq : Request) (items : List WriteItem) (s : State)
    (clean : s.kept.Clean) : (outcomeState s (execWrite cyc rq items s)).kept.Clean := by
  unfold execWrite
  exact State.request_clean s _ (State.stamp_kept ..) _ _ clean

@[simp] theorem execReadSegment_clean (cyc : Nat) (rq : Request) (index sub offset length expectSeq : Nat) (s : State)
    (clean : s.kept.Clean) : (outcomeState s (execReadSegment cyc rq index sub offset length expectSeq s)).kept.Clean
      := by
  unfold execReadSegment
  exact State.request_clean s _ (State.stamp_kept ..) _ _ clean

@[simp] theorem execWriteSegment_clean (cyc : Nat) (rq : Request) (index sub : Nat) (first : Bool) (offset total :
    Nat) (data : List Byte) (s : State)
    (clean : s.kept.Clean) : (outcomeState s (execWriteSegment cyc rq index sub first offset total data s)).kept.Clean
      := by
  unfold execWriteSegment
  exact State.request_clean s _ (State.stamp_kept ..) _ _ clean

@[simp] theorem execBegin_clean (cyc : Nat) (rq : Request) (s : State)
    (clean : s.kept.Clean) : (outcomeState s (execBegin cyc rq s)).kept.Clean := by
  unfold execBegin
  exact State.request_clean s _ (State.stamp_kept ..) _ _ clean

@[simp] theorem execCommit_clean (cyc : Nat) (rq : Request) (at_ : Nat) (s : State)
    (clean : s.kept.Clean) : (outcomeState s (execCommit cyc rq at_ s)).kept.Clean := by
  unfold execCommit
  exact State.request_clean s _ (State.stamp_kept ..) _ _ clean

@[simp] theorem execRollback_clean (cyc : Nat) (rq : Request) (s : State)
    (clean : s.kept.Clean) : (outcomeState s (execRollback cyc rq s)).kept.Clean := by
  unfold execRollback
  exact State.request_clean s _ (State.stamp_kept ..) _ _ clean

@[simp] theorem execTxStatus_clean (cyc : Nat) (rq : Request) (s : State)
    (clean : s.kept.Clean) : (outcomeState s (execTxStatus cyc rq s)).kept.Clean := by
  unfold execTxStatus
  exact State.request_clean s _ (State.stamp_kept ..) _ _ clean

@[simp] theorem execMulticastReadReply_clean (cyc : Nat) (s : State)
    (clean : s.kept.Clean) : (outcomeState s (execMulticastReadReply cyc s)).kept.Clean := by
  unfold execMulticastReadReply
  dsimp only
  split
  · exact clean
  · simp only [outcomeState_next]
    split <;> simp [State.fold_kept, State.kept_lit, -State.stamp_kept, State.kept_stamp, clean]

@[simp] theorem State.pollSlot_clean (s : State) (n : Nat)
    (clean : s.kept.Clean) : (State.pollSlot s n).kept.Clean := by
  unfold State.pollSlot; dsimp only; (repeat' split) <;> simp [-State.stamp_kept, clean]

@[simp] theorem execDictSlotPoll_clean (cyc : Nat) (s : State)
    (clean : s.kept.Clean) : (outcomeState s (execDictSlotPoll cyc s)).kept.Clean := by
  have polled := State.clean_foldl_state State.pollSlot_clean (List.range 16) (s := s.stamp cyc) (by simpa using clean)
  unfold execDictSlotPoll
  split
  · rw [outcomeState_next]
    exact State.beginCommanded_clean _ polled
  · rw [outcomeState_next]
    exact clean

@[simp] theorem State.decide__clean (s : State) (x : Tx)
    (clean : s.kept.Clean) : (State.decide_ s x).kept.Clean := by
  unfold State.decide_
  have committed := State.commitAll_clean s x.items clean
  dsimp only
  (repeat' split) <;> simp [committed, State.fold_kept, State.kept_lit, Kept.clean_mk, -State.stamp_kept]

@[simp] theorem State.txBoundary_clean (s : State)
    (clean : s.kept.Clean) : (State.txBoundary s).kept.Clean := by
  unfold State.txBoundary
  refine State.beginCommanded_clean _ ?_
  exact Kept.Clean.of_same (State.clean_foldl_state State.decide__clean _ clean) rfl rfl

@[simp] theorem State.sramWrite_clean (s : State) (i : Nat) (d : StationDesc) (g : AddrGen) (x : Flit)
    (clean : s.kept.Clean) : (State.sramWrite s i d g x).kept.Clean := by
  unfold State.sramWrite
  simp [State.fold_kept, State.kept_lit, Kept.clean_mk, -State.stamp_kept, clean, Memory.canonical_writeSram]

@[simp] theorem State.fireStore_clean (s : State) (i : Nat) (d : StationDesc) (readGen writeGen : AddrGen) (q :
    SeqEntry) (env : FireEnv)
    (clean : s.kept.Clean) : (State.fireStore s i d readGen writeGen q env).kept.Clean := by
  have stored := State.clean_foldl_state (fun t x clean => State.sramWrite_clean t i d writeGen x clean)
    (s.fab.allTaken d q (badLink env)) clean
  unfold State.fireStore
  simp [stored, -State.stamp_kept]

@[simp] theorem State.fireSpill_clean (s : State) (i : Nat) (d : StationDesc) (base depth : Nat) (q : SeqEntry) (env :
    FireEnv)
    (clean : s.kept.Clean) : (State.fireSpill s i d base depth q env).kept.Clean := by
  unfold State.fireSpill
  dsimp only
  (repeat' split) <;> simp [State.fold_kept, State.kept_lit, -State.stamp_kept, clean]

@[simp] theorem State.fireEntry_clean (s : State) (i : Nat) (d : StationDesc) (m : Image) (env : FireEnv)
    (clean : s.kept.Clean) : (State.fireEntry s i d m env).kept.Clean := by
  unfold State.fireEntry; (repeat' split) <;> dsimp only <;> (repeat' split) <;>
    simp [-State.stamp_kept, clean]

@[simp] theorem State.examine_clean (s : State) (i : Nat) (d : StationDesc) (m : Image) (env : FireEnv)
    (clean : s.kept.Clean) : (State.examine s i d m env).kept.Clean := by
  unfold State.examine; (repeat' split) <;> dsimp only <;> (repeat' split) <;>
    simp [-State.stamp_kept, clean]

@[simp] theorem execStationFire_clean (cyc station : Nat) (env : FireEnv) (s : State)
    (clean : s.kept.Clean) : (outcomeState s (execStationFire cyc station env s)).kept.Clean := by
  unfold execStationFire; (repeat' split) <;> simp [-State.stamp_kept, State.kept_stamp, clean]

@[simp] theorem State.clockBoundary_clean (s : State)
    (clean : s.kept.Clean) : (State.clockBoundary s).kept.Clean := by
  refine clean.of_same ?_ ?_ <;> simp

@[simp] theorem State.drainSlot_clean (s : State)
    (clean : s.kept.Clean) : (State.drainSlot s).kept.Clean := by
  unfold State.drainSlot; simp [-State.stamp_kept, clean]

@[simp] theorem State.earlyBoundary_clean (s : State) (env : BoundaryEnv) (frame : Bool)
    (clean : s.kept.Clean) : (State.earlyBoundary s env frame).kept.Clean := by
  unfold State.earlyBoundary
  refine State.resetOn_clean _ (State.drainSlot_clean _ (State.applyIdentity_clean _ (State.bootBoundary_clean _ ?_)))
  rw [State.capBoundary_kept]
  split
  · simpa using State.clockBoundary_clean s clean
  · exact State.clockBoundary_clean s clean

@[simp] theorem State.lateBoundary_clean (s : State) (env : BoundaryEnv) (frame : Bool)
    (clean : s.kept.Clean) : (State.lateBoundary s env frame).kept.Clean := by
  unfold State.lateBoundary; simp [State.fold_kept, State.kept_lit, -State.stamp_kept, clean]

@[simp] theorem execSlotBoundary_clean (env : BoundaryEnv) (s : State)
    (clean : s.kept.Clean) : (outcomeState s (execSlotBoundary env s)).kept.Clean := by
  have early (frame : Bool) := State.earlyBoundary_clean s env frame clean
  unfold execSlotBoundary
  dsimp only
  split
  · exact clean
  · rw [outcomeState_next]
    split
    · exact early _
    · exact State.lateBoundary_clean _ env _ (early _)

@[simp] theorem execHbmReadComplete_clean (cyc read : Nat) (errors : List (Nat × Byte)) (s : State)
    (clean : s.kept.Clean) : (outcomeState s (execHbmReadComplete cyc read errors s)).kept.Clean := by
  unfold execHbmReadComplete
  dsimp only
  (repeat' split) <;> simp [State.fold_kept, State.kept_lit, -State.stamp_kept, State.kept_stamp, clean]

@[simp] theorem execHbmWriteAccepted_clean (cyc write : Nat) (errors : List (Nat × Byte)) (s : State)
    (clean : s.kept.Clean) : (outcomeState s (execHbmWriteAccepted cyc write errors s)).kept.Clean := by
  unfold execHbmWriteAccepted
  dsimp only
  (repeat' split) <;> simp [State.fold_kept, State.kept_lit, -State.stamp_kept, State.kept_stamp, clean]

@[simp] theorem execPatrolScrubRead_clean (cyc stack sector : Nat) (errors : List (Nat × Byte)) (last : Bool) (s :
    State)
    (clean : s.kept.Clean) : (outcomeState s (execPatrolScrubRead cyc stack sector errors last s)).kept.Clean := by
  unfold execPatrolScrubRead
  simp [State.fold_kept, -State.stamp_kept, State.kept_stamp]
  (repeat' split) <;> simp [State.fold_kept, State.kept_lit, Kept.clean_mk, -State.stamp_kept, State.kept_stamp, clean,
      Memory.canonical_putSector]

@[simp] theorem State.readPart_clean (s : State) (b : Bool) (mpa : Nat)
    (clean : s.kept.Clean) : (State.readPart (b, s) mpa).2.kept.Clean := by
  exact State.readNow_clean s _ _ _ _ clean

@[simp] theorem State.pageRead_clean (s : State) (frame : Nat)
    (clean : s.kept.Clean) : (State.pageRead s frame).2.kept.Clean := by
  exact State.clean_foldl_snd (fun p a clean => State.readPart_clean p.2 p.1 a clean) _ clean

@[simp] theorem State.pageWrite_clean (s : State) (frame : Nat) (data : List Byte)
    (clean : s.kept.Clean) : (State.pageWrite s frame data).kept.Clean := by
  exact State.clean_foldl_state (fun t e clean => State.engineWrite_clean t _ _ clean) _ clean

@[simp] theorem execStackInitComplete_clean (stack : Nat) (s : State)
    (clean : s.kept.Clean) : (outcomeState s (execStackInitComplete stack s)).kept.Clean := by
  unfold execStackInitComplete
  rw [outcomeState_onUnit]
  dsimp only
  (repeat' split) <;> simp [State.fold_kept, -State.stamp_kept, clean]

@[simp] theorem execPageParked_clean (cyc stream page : Nat) (outcome : MoveOutcome) (s : State)
    (clean : s.kept.Clean) : (outcomeState s (execPageParked cyc stream page outcome s)).kept.Clean := by
  unfold execPageParked
  split
  · exact clean
  · split
    · exact clean
    · simp only [outcomeState_next, State.moveOutEnds_kept]
      split <;> simp [-State.stamp_kept, State.kept_stamp, clean]

@[simp] theorem execPageUnparked_clean (cyc stream page : Nat) (outcome : PageCopy) (s : State)
    (clean : s.kept.Clean) : (outcomeState s (execPageUnparked cyc stream page outcome s)).kept.Clean := by
  unfold execPageUnparked; dsimp only; (repeat' split) <;> simp [-State.stamp_kept, State.kept_stamp, clean]

/-- A context that comes back brings its SRAM with it. -/
theorem execContextRestored_clean (cyc : Nat) (s : State) (clean : s.kept.Clean)
    (saved : ∀ x, s.syn.context = some x → Memory.canonical x.sram = true) :
    (outcomeState s (execContextRestored cyc s)).kept.Clean := by
  unfold execContextRestored
  split
  · exact clean
  · next x held =>
    have sram := saved x held
    split <;> simp [State.fold_kept, State.kept_lit, Kept.clean_mk, -State.stamp_kept, State.kept_stamp, clean, sram]

/-- Every command keeps both memories in canonical form: one that the lists of Safety.lean name by the law of its
operation. -/
theorem exec_clean (c : Instr) (s : State) (clean : s.kept.Clean)
    (saved : ∀ x, s.syn.context = some x → Memory.canonical x.sram = true) :
    (outcomeState s (exec c s)).kept.Clean := by
  by_cases unlisted : c.changesSram = false ∧ c.changesHbm = false
  · obtain ⟨sram, hbm⟩ := unlisted
    exact clean.of_same (outcome_sram c s sram) (outcome_hbm c s hbm)
  · cases c with
    | flitDelivered cyc queue ecc => exact execFlitDelivered_clean cyc queue ecc s clean
    | contextRestored cyc => exact execContextRestored_clean cyc s clean saved
    | laceFrameReceived cyc lace f => exact execLaceFrameReceived_clean cyc lace f s clean
    | shardArrival cyc readable => exact execShardArrival_clean cyc readable s clean
    | shardRefetchComplete cyc shard valid => exact execShardRefetchComplete_clean cyc shard valid s clean
    | awlTestComplete cyc quadrant misr => exact execAwlTestComplete_clean cyc quadrant misr s clean
    | planEntryStart cyc => exact execPlanEntryStart_clean cyc s clean
    | domainEnable cyc domain => exact execDomainEnable_clean cyc domain s clean
    | domainDisable cyc domain => exact execDomainDisable_clean cyc domain s clean
    | domainRailFault cyc domain bits => exact execDomainRailFault_clean cyc domain bits s clean
    | domainTimeout cyc domain => exact execDomainTimeout_clean cyc domain s clean
    | domainStartComplete cyc domain => exact execDomainStartComplete_clean cyc domain s clean
    | domainStopComplete cyc domain => exact execDomainStopComplete_clean cyc domain s clean
    | thermalTrip cyc sensor => exact execThermalTrip_clean cyc sensor s clean
    | vinUndervoltage cyc => exact execVinUndervoltage_clean cyc s clean
    | powerFailShutdown cyc => exact execPowerFailShutdown_clean cyc s clean
    | resetModuleCmd cyc => exact execResetModuleCmd_clean cyc s clean
    | resetFirmwareCmd cyc => exact execResetFirmwareCmd_clean cyc s clean
    | moduleResetPin cyc => exact execModuleResetPin_clean cyc s clean
    | moduleRstLRelease => exact execModuleRstLRelease_clean s clean
    | watchdogExpire cyc => exact execWatchdogExpire_clean cyc s clean
    | powerOn => exact execPowerOn_clean s clean
    | powerFailRestart vinGood => exact execPowerFailRestart_clean vinGood s clean
    | ejectRestart => exact execEjectRestart_clean s clean
    | bringupTimeout cyc row => exact execBringupTimeout_clean cyc row s clean
    | objectWrite cyc index sub value => exact execObjectWrite_clean cyc index sub value s clean
    | read cyc rq items => exact execRead_clean cyc rq items s clean
    | write cyc rq items => exact execWrite_clean cyc rq items s clean
    | readSegment cyc rq index sub offset length expectSeq =>
      exact execReadSegment_clean cyc rq index sub offset length expectSeq s clean
    | writeSegment cyc rq index sub first offset total data =>
      exact execWriteSegment_clean cyc rq index sub first offset total data s clean
    | begin cyc rq => exact execBegin_clean cyc rq s clean
    | commit cyc rq at_ => exact execCommit_clean cyc rq at_ s clean
    | rollback cyc rq => exact execRollback_clean cyc rq s clean
    | txStatus cyc rq => exact execTxStatus_clean cyc rq s clean
    | multicastReadReply cyc => exact execMulticastReadReply_clean cyc s clean
    | dictSlotPoll cyc => exact execDictSlotPoll_clean cyc s clean
    | stationFire cyc station env => exact execStationFire_clean cyc station env s clean
    | slotBoundary env => exact execSlotBoundary_clean env s clean
    | hbmReadComplete cyc read errors => exact execHbmReadComplete_clean cyc read errors s clean
    | hbmWriteAccepted cyc write errors => exact execHbmWriteAccepted_clean cyc write errors s clean
    | patrolScrubRead cyc stack sector errors last =>
      exact execPatrolScrubRead_clean cyc stack sector errors last s clean
    | stackInitComplete stack => exact execStackInitComplete_clean stack s clean
    | pageParked cyc stream page outcome => exact execPageParked_clean cyc stream page outcome s clean
    | pageUnparked cyc stream page outcome => exact execPageUnparked_clean cyc stream page outcome s clean
    | _ => exact absurd ⟨rfl, rfl⟩ unlisted

end Sys2Proof.Machine
end

section
/-! PROOFS. The SRAM of a saved context (log entry 10): what is saved is the SRAM of the tiles, and nothing writes into
it until the context is restored or discarded. -/

namespace Sys2Proof.Machine

/-- The SRAM of the saved context. -/
structure SavedView where
  sram : Option (List Host.Cell)

/-- The SRAM of the saved context of `s`. -/
def State.savedView (s : State) : SavedView := {
    sram := s.syn.context.map (·.sram) }

theorem State.fold_savedView (s : State) : s.syn.context.map (·.sram) = s.savedView.sram := by simp [State.savedView]

theorem State.savedView_mk (part : Part) (pending : List Instr) (free : Nat) (regs : KMap Nat) (blobs : KMap (List
    Byte)) (tb : TimeBase) (planner : Planner) (fab : Fabric) (mxe : Engine) (chn : ChainCounters) (mem : Memory)
    (pages : Pages) (store : Store) (srv : Serving) (syn : Sync) (lce : Torus) (dsp : Dispatch) (hlk : HostLink) (dict
    : Dict) (ras : Ras) (pwr : Power) (boot : Boot) (sec : Security) : State.savedView {
    part := part, pending := pending, free := free, regs := regs, blobs := blobs, tb := tb, planner := planner, fab :=
    fab, mxe := mxe, chn := chn, mem := mem, pages := pages, store := store, srv := srv, syn := syn, lce := lce,
    dsp := dsp, hlk := hlk, dict := dict, ras := ras, pwr := pwr, boot := boot, sec := sec } = {
    sram := syn.context.map (·.sram) } := rfl

@[simp] theorem State.savedView_ite (c : Prop) [Decidable c] (s t : State) :
    (if c then s else t).savedView = if c then s.savedView else t.savedView := by split <;> rfl

section
variable {α γ : Type} {f : State → α → State} {k : State × γ → α → State × γ} {h : γ × State → α → γ × State}

@[simp] theorem State.savedView_foldl (keeps : ∀ t a, (f t a).savedView = t.savedView) (l : List α) (s : State) :
    (l.foldl f s).savedView = s.savedView := State.keeps_foldl _ keeps l s
@[simp] theorem State.savedView_foldl_fst (keeps : ∀ p a, (k p a).1.savedView = p.1.savedView) (l : List α) (p : State
    × γ) :
    (l.foldl k p).1.savedView = p.1.savedView := State.keeps_foldl_fst (fun t => t.savedView) keeps l p
@[simp] theorem State.savedView_foldl_snd (keeps : ∀ p a, (h p a).2.savedView = p.2.savedView) (l : List α) (p : γ ×
    State) :
    (l.foldl h p).2.savedView = p.2.savedView := State.keeps_foldl_snd (fun t => t.savedView) keeps l p

end

@[simp] theorem State.stamp_savedView (s : State) (c : Nat) : (s.stamp c).savedView = s.savedView := by
  simp [State.savedView]

@[simp] theorem State.draw_savedView (s : State) : s.draw.2.savedView = s.savedView := by
  simp [State.savedView]

@[simp] theorem State.raiseFor_savedView (s : State) (code group arg0 arg1 arg2 : Nat) :
    (s.raiseFor code group arg0 arg1 arg2).savedView = s.savedView := by
  simp [State.savedView]

@[simp] theorem State.raise_savedView (s : State) (code arg0 arg1 arg2 : Nat) :
    (s.raise code arg0 arg1 arg2).savedView = s.savedView := by
  simp [State.savedView]

@[simp] theorem State.setReg_savedView (s : State) (key v : Nat) :
    (State.setReg s key v).savedView = s.savedView := by
  unfold State.setReg; simp [State.fold_savedView, State.savedView_mk]

@[simp] theorem State.setBlob_savedView (s : State) (key : Nat) (v : List Byte) :
    (State.setBlob s key v).savedView = s.savedView := by
  unfold State.setBlob; simp [State.fold_savedView, State.savedView_mk]

@[simp] theorem State.followCap_savedView (s : State) : (State.followCap s).savedView = s.savedView := by
  unfold State.followCap; simp [State.fold_savedView, State.savedView_mk]

@[simp] theorem State.modQuad_savedView (s : State) (q : Nat) (f : Quadrant → Quadrant) :
    (State.modQuad s q f).savedView = s.savedView := by
  unfold State.modQuad; simp [State.fold_savedView, State.savedView_mk]

@[simp] theorem State.modDomain_savedView (s : State) (d : Nat) (f : Domain → Domain) :
    (State.modDomain s d f).savedView = s.savedView := by
  unfold State.modDomain; simp [State.fold_savedView, State.savedView_mk]

@[simp] theorem State.status_savedView (s : State) (code : Nat) : (State.status s code).savedView = s.savedView := by
  unfold State.status; simp [State.fold_savedView, State.savedView_mk]

@[simp] theorem State.record_savedView (s : State) (info : RecordInfo) :
    (State.record s info).savedView = s.savedView := by
  unfold State.record; simp [State.fold_savedView, State.savedView_mk]

@[simp] theorem State.correctedError_savedView (s : State) (unit : Nat) (info : RecordInfo) :
    (State.correctedError s unit info).savedView = s.savedView := by
  unfold State.correctedError; simp [State.fold_savedView, State.savedView_mk]

@[simp] theorem State.taint_savedView (s : State) (t : RecordInfo) : (State.taint s t).savedView = s.savedView := by
  unfold State.taint; (repeat' split) <;> simp [State.fold_savedView, State.savedView_mk]

@[simp] theorem State.judge_savedView (s : State) (q cause source : Nat) :
    (State.judge s q cause source).savedView = s.savedView := by
  unfold State.judge; (repeat' split) <;> simp

@[simp] theorem State.strike_savedView (s : State) (q : Nat) (kind : StrikeKind) (source : Nat) :
    (State.strike s q kind source).savedView = s.savedView := by
  unfold State.strike; simp

@[simp] theorem State.modStream_savedView (s : State) (n : Nat) (f : Stream → Stream) :
    (State.modStream s n f).savedView = s.savedView := by
  unfold State.modStream; simp [State.fold_savedView, State.savedView_mk]

@[simp] theorem State.notify_savedView (s : State) (x : Notice) : (State.notify s x).savedView = s.savedView := by
  unfold State.notify; simp [State.fold_savedView, State.savedView_mk]

@[simp] theorem State.notifyLater_savedView (s : State) (x : Notice) :
    (State.notifyLater s x).savedView = s.savedView := by
  unfold State.notifyLater; simp [State.fold_savedView, State.savedView_mk]

@[simp] theorem State.freeBuffer_savedView (s : State) (n : Nat) :
    (State.freeBuffer s n).savedView = s.savedView := by
  unfold State.freeBuffer; simp [State.fold_savedView, State.savedView_mk]

@[simp] theorem State.leaveTemplate_savedView (s : State) (n : Nat) (x : Stream) :
    (State.leaveTemplate s n x).savedView = s.savedView := by
  unfold State.leaveTemplate; dsimp only; (repeat' split) <;> simp [State.fold_savedView, State.savedView_mk]

@[simp] theorem State.dropStream_savedView (s : State) (n : Nat) :
    (State.dropStream s n).savedView = s.savedView := by
  unfold State.dropStream; (repeat' split) <;> simp [State.fold_savedView, State.savedView_mk]

@[simp] theorem State.endStream_savedView (s : State) (n status : Nat) :
    (State.endStream s n status).savedView = s.savedView := by
  unfold State.endStream; (repeat' split) <;> simp

@[simp] theorem State.endAll_savedView (s : State) (status : Nat) :
    (State.endAll s status).savedView = s.savedView := by
  unfold State.endAll; simp

@[simp] theorem State.askPark_savedView (s : State) (n : Nat) : (State.askPark s n).savedView = s.savedView := by
  unfold State.askPark; simp [State.fold_savedView, State.savedView_mk]

@[simp] theorem State.endTurn_savedView (s : State) (n : Nat) : (State.endTurn s n).savedView = s.savedView := by
  unfold State.endTurn; (repeat' split) <;> simp

@[simp] theorem State.failTurn_savedView (s : State) (n status : Nat) :
    (State.failTurn s n status).savedView = s.savedView := by
  unfold State.failTurn; (repeat' split) <;> simp

@[simp] theorem State.settleEnding_savedView (s : State) (n : Nat) :
    (State.settleEnding s n).savedView = s.savedView := by
  unfold State.settleEnding; (repeat' split) <;> simp [State.fold_savedView, State.savedView_mk]

@[simp] theorem State.startPark_savedView (s : State) (n : Nat) : (State.startPark s n).savedView = s.savedView := by
  unfold State.startPark; (repeat' split) <;> simp [State.fold_savedView, State.savedView_mk]

@[simp] theorem State.startUnpark_savedView (s : State) (n tag : Nat) :
    (State.startUnpark s n tag).savedView = s.savedView := by
  unfold State.startUnpark; simp [State.fold_savedView, State.savedView_mk]

@[simp] theorem State.startRefetch_savedView (s : State) (epoch shard : Nat) :
    (State.startRefetch s epoch shard).savedView = s.savedView := by
  unfold State.startRefetch; simp [State.fold_savedView, State.savedView_mk]

@[simp] theorem State.breakPass_savedView (s : State) : (State.breakPass s).savedView = s.savedView := by
  unfold State.breakPass; simp [State.fold_savedView, State.savedView_mk]

@[simp] theorem State.askReset_savedView (s : State) (group source : Nat) :
    (State.askReset s group source).savedView = s.savedView := by
  unfold State.askReset; simp [State.fold_savedView, State.savedView_mk]

@[simp] theorem State.outOfService_savedView (s : State) : (State.outOfService s).savedView = s.savedView := by
  unfold State.outOfService; simp [State.fold_savedView, State.savedView_mk]

@[simp] theorem State.detect_savedView (s : State) (info : RecordInfo) :
    (State.detect s info).savedView = s.savedView := by
  unfold State.detect; dsimp only; (repeat' split) <;> simp [State.fold_savedView, State.savedView_mk]

@[simp] theorem State.sectorLost_savedView (s : State) (stack mpa : Nat) (detail : List Byte) :
    (State.sectorLost s stack mpa detail).savedView = s.savedView := by
  unfold State.sectorLost; dsimp only; (repeat' split) <;> simp [State.fold_savedView, State.savedView_mk]

@[simp] theorem State.setInsole_savedView (s : State) (stack : Nat) (n : Insole) (hbm : List Host.Cell) :
    (State.setInsole s stack n hbm).savedView = s.savedView := by
  unfold State.setInsole; simp [State.fold_savedView, State.savedView_mk]

@[simp] theorem State.modInsole_savedView (s : State) (stack : Nat) (f : Insole → Insole) :
    (State.modInsole s stack f).savedView = s.savedView := by
  unfold State.modInsole; simp [State.fold_savedView, State.savedView_mk]

@[simp] theorem State.failStack_savedView (s : State) (stack : Nat) :
    (State.failStack s stack).savedView = s.savedView := by
  unfold State.failStack; simp

@[simp] theorem State.decoded_savedView (s : State) (stack mpa location : Nat) (symbols : List Byte) (d : Decoded) :
    (State.decoded s stack mpa location symbols d).2.2.savedView = s.savedView := by
  unfold State.decoded; (repeat' split) <;> simp

@[simp] theorem State.protect_savedView (s : State) (kind mpa group : Nat) :
    (State.protect s kind mpa group).savedView = s.savedView := by
  unfold State.protect; simp [State.fold_savedView, State.savedView_mk]

@[simp] theorem State.engineWrite_savedView (s : State) (mpa : Nat) (data : List Byte) :
    (State.engineWrite s mpa data).savedView = s.savedView := by
  unfold State.engineWrite; (repeat' split) <;> simp

@[simp] theorem State.readNow_savedView (s : State) (mpa location group : Nat) (noAllocate : Bool) :
    (State.readNow s mpa location group noAllocate).2.2.savedView = s.savedView := by
  unfold State.readNow; (repeat' split) <;> simp

@[simp] theorem State.readBytesNow_savedView (s : State) (location : Nat) (noAllocate : Bool) (at_ : List Nat) :
    (State.readBytesNow s location noAllocate at_).2.2.savedView = s.savedView := by
  unfold State.readBytesNow
  exact State.keeps_foldl_thd (fun t => t.savedView) (fun p a => by simp) _ _

@[simp] theorem State.verify_savedView (s : State) (what : Item) (item : List Byte) :
    (State.verify s what item).2.savedView = s.savedView := by
  unfold State.verify; (repeat' split) <;> simp [State.fold_savedView, State.savedView_mk]

@[simp] theorem State.countPad_savedView (s : State) (places : List Place) :
    (State.countPad s places).savedView = s.savedView := by
  unfold State.countPad; simp [State.fold_savedView, State.savedView_mk]

@[simp] theorem State.modStation_savedView (s : State) (i : Nat) (g : StationRun → StationRun) :
    (State.modStation s i g).savedView = s.savedView := by
  unfold State.modStation; simp [State.fold_savedView, State.savedView_mk]

@[simp] theorem State.progress_savedView (s : State) : (State.progress s).savedView = s.savedView := by
  unfold State.progress; simp [State.fold_savedView, State.savedView_mk]

@[simp] theorem State.stopGuard_savedView (s : State) : (State.stopGuard s).savedView = s.savedView := by
  unfold State.stopGuard; simp [State.fold_savedView, State.savedView_mk]

@[simp] theorem State.resumeGuard_savedView (s : State) : (State.resumeGuard s).savedView = s.savedView := by
  unfold State.resumeGuard; simp [State.fold_savedView, State.savedView_mk]

@[simp] theorem State.portEmit_savedView (s : State) (i : Nat) : (State.portEmit s i).savedView = s.savedView := by
  unfold State.portEmit; dsimp only; (repeat' split) <;> simp [State.fold_savedView, State.savedView_mk]

@[simp] theorem State.askSector_savedView (s : State) (i mpa : Nat) (noAllocate : Bool) :
    (State.askSector s i mpa noAllocate).1.savedView = s.savedView := by
  unfold State.askSector; (repeat' split) <;> simp [State.fold_savedView, State.savedView_mk]

@[simp] theorem State.portIssue_savedView (i maxOut : Nat) (noAllocate : Bool) (x0 : Nat) (s : State) :
    (State.portIssue i maxOut noAllocate x0 s).savedView = s.savedView := by
  induction x0 generalizing s with
  | zero => rfl
  | succ f ih =>
    unfold State.portIssue
    (repeat' split) <;> simp [ih]

@[simp] theorem State.sendWrite_savedView (i : Nat) (noAllocate : Bool) (s : State) (x : Nat × List Byte × List Byte)
    :
    (State.sendWrite i noAllocate s x).savedView = s.savedView := by
  unfold State.sendWrite; dsimp only; (repeat' split) <;> simp [State.fold_savedView, State.savedView_mk]

@[simp] theorem State.writeIssue_savedView (i maxOut : Nat) (noAllocate : Bool) (x0 : Nat) (s : State) :
    (State.writeIssue i maxOut noAllocate x0 s).savedView = s.savedView := by
  induction x0 generalizing s with
  | zero => rfl
  | succ f ih =>
    unfold State.writeIssue
    (repeat' split) <;> simp [ih]

@[simp] theorem State.portAdvance_savedView (s : State) (i : Nat) :
    (State.portAdvance s i).savedView = s.savedView := by
  unfold State.portAdvance; (repeat' split) <;> simp

@[simp] theorem State.prepareFlit_savedView (s : State) (i base k total seq : Nat) :
    (State.prepareFlit s i base k total seq).1.savedView = s.savedView := by
  unfold State.prepareFlit; dsimp only; (repeat' split) <;> simp

@[simp] theorem State.prepareFlits_savedView (i base total seq : Nat) (x0 : Nat) (x1 : Nat) (s : State) :
    (State.prepareFlits i base total seq x0 x1 s).1.savedView = s.savedView := by
  induction x0 generalizing s x1 with
  | zero => rfl
  | succ n ih => simp [State.prepareFlits, ih]

@[simp] theorem State.dirtyPages_savedView (s : State) (i : Nat) (g : AddrGen) (st : StationRun) (x : Flit) :
    (State.dirtyPages s i g st x).savedView = s.savedView := by
  unfold State.dirtyPages; simp [State.fold_savedView, State.savedView_mk]

@[simp] theorem State.hbmWriteFlit_savedView (s : State) (i : Nat) (x : Flit) :
    (State.hbmWriteFlit s i x).savedView = s.savedView := by
  unfold State.hbmWriteFlit; dsimp only; (repeat' split) <;> simp

@[simp] theorem State.modLace_savedView (s : State) (l : Nat) (f : Lace → Lace) :
    (State.modLace s l f).savedView = s.savedView := by
  unfold State.modLace; simp [State.fold_savedView, State.savedView_mk]

@[simp] theorem State.modTorus_savedView (s : State) (f : Torus → Torus) :
    (State.modTorus s f).savedView = s.savedView := by
  unfold State.modTorus; simp [State.fold_savedView, State.savedView_mk]

@[simp] theorem State.freeSlots_savedView (s : State) (xs : List (Nat × Nat × Bool × Nat)) :
    (State.freeSlots s xs).savedView = s.savedView := by
  unfold State.freeSlots; simp

@[simp] theorem State.laceDrain_savedView (s : State) (l : Nat) : (State.laceDrain s l).savedView = s.savedView := by
  unfold State.laceDrain; simp

@[simp] theorem State.laceSend_savedView (s : State) (l : Nat) (x : LaceTx) :
    (State.laceSend s l x).savedView = s.savedView := by
  unfold State.laceSend; simp

@[simp] theorem State.sendControl_savedView (s : State) (l : Nat) (m : ControlMsg) :
    (State.sendControl s l m).savedView = s.savedView := by
  unfold State.sendControl; simp

@[simp] theorem State.flood_savedView (s : State) (except_ : Nat) (m : ControlMsg) :
    (State.flood s except_ m).savedView = s.savedView := by
  unfold State.flood; simp

@[simp] theorem State.oweFault_savedView (s : State) (tag : Nat) :
    (State.oweFault s tag).savedView = s.savedView := by
  unfold State.oweFault; simp

@[simp] theorem State.unreachable_savedView (s : State) (h : PacketHeader) :
    (State.unreachable s h).savedView = s.savedView := by
  unfold State.unreachable; simp

@[simp] theorem State.forward_savedView (s : State) (h : PacketHeader) (flits : List Flit) (p l : Nat) (turned : Bool)
    (origin : Option (Nat × Nat × Bool)) :
    (State.forward s h flits p l turned origin).savedView = s.savedView := by
  unfold State.forward; dsimp only; split <;> simp

@[simp] theorem State.inject_savedView (s : State) (h : PacketHeader) (flits : List Flit) :
    (State.inject s h flits).savedView = s.savedView := by
  unfold State.inject; dsimp only; (repeat' split) <;> simp

@[simp] theorem State.sendSync_savedView (s : State) (dest op object arg : Nat) :
    (State.sendSync s dest op object arg).savedView = s.savedView := by
  unfold State.sendSync; simp

@[simp] theorem State.followSpan_savedView (s : State) : (State.followSpan s).savedView = s.savedView := by
  unfold State.followSpan; simp

@[simp] theorem State.setObj_savedView (s : State) (r : ObjRef) (o : SyncObj) :
    (State.setObj s r o).savedView = s.savedView := by
  unfold State.setObj; simp [State.fold_savedView, State.savedView_mk]

@[simp] theorem State.modObj_savedView (s : State) (r : ObjRef) (f : SyncObj → SyncObj) :
    (State.modObj s r f).savedView = s.savedView := by
  unfold State.modObj; simp

@[simp] theorem State.modPart_savedView (s : State) (k : Nat) (f : Participant → Participant) :
    (State.modPart s k f).savedView = s.savedView := by
  unfold State.modPart; simp [State.fold_savedView, State.savedView_mk]

@[simp] theorem State.freeRemote_savedView (s : State) (k cause : Nat) :
    (State.freeRemote s k cause).savedView = s.savedView := by
  unfold State.freeRemote; simp

@[simp] theorem State.hold_savedView (s : State) (k : Nat) : (State.hold s k).savedView = s.savedView := by
  unfold State.hold; simp

@[simp] theorem State.recordRelease_savedView (s : State) (k cause : Nat) :
    (State.recordRelease s k cause).savedView = s.savedView := by
  unfold State.recordRelease State.savedView
  dsimp only
  rw [Option.map_map]
  refine congrArg SavedView.mk (congrArg (Option.map · s.syn.context) (funext fun c => ?_))
  simp only [Function.comp_apply]
  split <;> rfl

@[simp] theorem State.endWait_savedView (s : State) (r : ObjRef) (w : WaitReg) (cause : Nat) :
    (State.endWait s r w cause).savedView = s.savedView := by
  unfold State.endWait; simp

@[simp] theorem State.serveWaits_savedView (s : State) (r : ObjRef) :
    (State.serveWaits s r).savedView = s.savedView := by
  unfold State.serveWaits; simp

@[simp] theorem State.signal_savedView (s : State) (r : ObjRef) (amount : Nat) :
    (State.signal s r amount).savedView = s.savedView := by
  unfold State.signal; simp [State.fold_savedView, State.savedView_mk]

@[simp] theorem State.registerWait_savedView (s : State) (r : ObjRef) (w : WaitReg) :
    (State.registerWait s r w).savedView = s.savedView := by
  unfold State.registerWait; simp

@[simp] theorem State.toModules_savedView (s : State) (ms : List Nat) (op : Nat) (r : ObjRef) (arg : Nat) :
    (State.toModules s ms op r arg).savedView = s.savedView := by
  unfold State.toModules; simp

@[simp] theorem State.nodeStep_savedView (s : State) (m : NodeMsg) (r : ObjRef) :
    (State.nodeStep s m r).1.savedView = s.savedView := by
  unfold State.nodeStep; dsimp only; (repeat' split) <;> simp

@[simp] theorem State.nodes_savedView (x0 : Nat) (x1 : List (NodeMsg × ObjRef)) (s : State) :
    (State.nodes x0 x1 s).savedView = s.savedView := by
  induction x0 generalizing s x1 with
  | zero => rfl
  | succ f ih =>
    cases x1 with
    | nil => rfl
    | cons e ms => simp [State.nodes, ih]

@[simp] theorem State.nodeMsg_savedView (s : State) (m : NodeMsg) (r : ObjRef) :
    (State.nodeMsg s m r).savedView = s.savedView := by
  unfold State.nodeMsg; simp

@[simp] theorem State.ownerLost_savedView (s : State) (rs : List ObjRef) :
    (State.ownerLost s rs).savedView = s.savedView := by
  unfold State.ownerLost; simp [State.fold_savedView, State.savedView_mk]

@[simp] theorem State.spanBroken_savedView (s : State) (tag : Nat) :
    (State.spanBroken s tag).savedView = s.savedView := by
  unfold State.spanBroken
  split
  · simp [State.savedView_mk]
    simp [State.savedView, Function.comp_def]
  · rfl

@[simp] theorem State.settleFault_savedView (s : State) (tag : Nat) :
    (State.settleFault s tag).savedView = s.savedView := by
  unfold State.settleFault; simp

@[simp] theorem State.settleFaults_savedView (x0 : Nat) (s : State) :
    (State.settleFaults x0 s).savedView = s.savedView := by
  induction x0 generalizing s with
  | zero => rfl
  | succ f ih =>
    unfold State.settleFaults
    split <;> simp [ih]

@[simp] theorem State.torusDone_savedView (s : State) : (State.torusDone s).savedView = s.savedView := by
  unfold State.torusDone; simp

@[simp] theorem State.memberLost_savedView (s : State) (m : Nat) :
    (State.memberLost s m).savedView = s.savedView := by
  unfold State.memberLost; dsimp only; (repeat' split) <;> simp [State.fold_savedView, State.savedView_mk]

@[simp] theorem State.bindPair_savedView (s : State) (step cls : Nat) (m : Image) :
    (State.bindPair s step cls m).savedView = s.savedView := by
  unfold State.bindPair; (repeat' split) <;> simp [State.fold_savedView, State.savedView_mk]

@[simp] theorem State.releasePair_savedView (s : State) (step : Nat) :
    (State.releasePair s step).savedView = s.savedView := by
  unfold State.releasePair; (repeat' split) <;> simp [State.fold_savedView, State.savedView_mk]

@[simp] theorem State.loseStep_savedView (s : State) (step : Nat) :
    (State.loseStep s step).savedView = s.savedView := by
  unfold State.loseStep; (repeat' split) <;> simp

@[simp] theorem State.modDsp_savedView (s : State) (f : Dispatch → Dispatch) :
    (State.modDsp s f).savedView = s.savedView := by
  unfold State.modDsp; simp [State.fold_savedView, State.savedView_mk]

@[simp] theorem State.modUplink_savedView (s : State) (u : Nat) (f : Uplink → Uplink) :
    (State.modUplink s u f).savedView = s.savedView := by
  unfold State.modUplink; simp

@[simp] theorem State.dspSend_savedView (s : State) (sw dest type : Nat) (m : DispatchMsg) :
    (State.dspSend s sw dest type m).savedView = s.savedView := by
  unfold State.dspSend; (repeat' split) <;> simp

@[simp] theorem State.dspTo_savedView (s : State) (host type : Nat) (m : DispatchMsg) :
    (State.dspTo s host type m).savedView = s.savedView := by
  unfold State.dspTo; (repeat' split) <;> simp

@[simp] theorem State.dspAnswer_savedView (s : State) (uplink host type : Nat) (m : DispatchMsg) :
    (State.dspAnswer s uplink host type m).savedView = s.savedView := by
  unfold State.dspAnswer; simp

@[simp] theorem State.cancelBatch_savedView (s : State) (keep : Bool) :
    (State.cancelBatch s keep).savedView = s.savedView := by
  unfold State.cancelBatch; (repeat' split) <;> simp

@[simp] theorem State.voidBatch_savedView (s : State) : (State.voidBatch s).savedView = s.savedView := by
  unfold State.voidBatch; simp

@[simp] theorem State.recostPlan_savedView (s : State) (fence : Bool) :
    (State.recostPlan s fence).savedView = s.savedView := by
  unfold State.recostPlan; simp [State.fold_savedView, State.savedView_mk]

@[simp] theorem State.modStep_savedView (s : State) (n : Nat) (f : StepRun → StepRun) :
    (State.modStep s n f).savedView = s.savedView := by
  unfold State.modStep; simp [State.fold_savedView, State.savedView_mk]

@[simp] theorem State.dropStep_savedView (s : State) (n : Nat) : (State.dropStep s n).savedView = s.savedView := by
  unfold State.dropStep; simp [State.fold_savedView, State.savedView_mk]

@[simp] theorem State.dropRowsOf_savedView (s : State) (gone : Nat → Nat → Bool) :
    (State.dropRowsOf s gone).savedView = s.savedView := by
  unfold State.dropRowsOf; dsimp only; simp [State.fold_savedView, State.savedView_mk]

@[simp] theorem State.failStep_savedView (s : State) (n : Nat) : (State.failStep s n).savedView = s.savedView := by
  unfold State.failStep; (repeat' split) <;> simp

@[simp] theorem State.rerunStep_savedView (s : State) (n : Nat) (f : PlanEntry → PlanEntry) :
    (State.rerunStep s n f).savedView = s.savedView := by
  unfold State.rerunStep; (repeat' split) <;> simp [State.fold_savedView, State.savedView_mk]

@[simp] theorem State.rerunOwn_savedView (s : State) (n : Nat) : (State.rerunOwn s n).savedView = s.savedView := by
  unfold State.rerunOwn; simp

@[simp] theorem State.rerunSafe_savedView (s : State) (n last : Nat) :
    (State.rerunSafe s n last).savedView = s.savedView := by
  unfold State.rerunSafe; (repeat' split) <;> simp [State.fold_savedView, State.savedView_mk]

@[simp] theorem State.closeStrikes_savedView (s : State) (step actions : Nat) :
    (State.closeStrikes s step actions).savedView = s.savedView := by
  unfold State.closeStrikes; simp

@[simp] theorem State.taintRecords_savedView (s : State) (causes : List RecordInfo) (step actions groups : Nat) :
    (State.taintRecords s causes step actions groups).savedView = s.savedView := by
  unfold State.taintRecords; simp

@[simp] theorem State.settlePass_savedView (s : State) (p : PassRun) (voided failed : Bool) :
    (State.settlePass s p voided failed).savedView = s.savedView := by
  unfold State.settlePass; simp

@[simp] theorem State.failGroups_savedView (s : State) (n : Nat) (gs : List Nat) :
    (State.failGroups s n gs).savedView = s.savedView := by
  unfold State.failGroups; simp

@[simp] theorem State.endPass_savedView (s : State) (p : PassRun) : (State.endPass s p).savedView = s.savedView := by
  unfold State.endPass; simp [State.fold_savedView, State.savedView_mk]

@[simp] theorem State.dropRows_savedView (s : State) (gone : Nat → Bool) :
    (State.dropRows s gone).savedView = s.savedView := by
  unfold State.dropRows; simp

@[simp] theorem State.adopt_savedView (s : State) (n : Nat) (g : Grant) :
    (State.adopt s n g).savedView = s.savedView := by
  unfold State.adopt; simp [State.fold_savedView, State.savedView_mk]

@[simp] theorem State.retemplate_savedView (s : State) : (State.retemplate s).savedView = s.savedView := by
  unfold State.retemplate; (repeat' split) <;> simp [State.fold_savedView, State.savedView_mk]

@[simp] theorem State.setClass_savedView (s : State) (n cls : Nat) (cause : Option Nat) :
    (State.setClass s n cls cause).savedView = s.savedView := by
  unfold State.setClass; simp

@[simp] theorem State.downgrade_savedView (s : State) (ns : List Nat) (cause : Nat) :
    (State.downgrade s ns cause).savedView = s.savedView := by
  unfold State.downgrade; simp

@[simp] theorem State.readmit_savedView (s : State) (cause : Nat) :
    (State.readmit s cause).savedView = s.savedView := by
  unfold State.readmit
  split
  · simp
  · dsimp only
    split
    · simp
    · rw [State.downgrade_savedView, State.savedView_foldl_fst]
      · simp [State.fold_savedView, State.savedView_mk]
      · intro p a
        (repeat' split) <;> simp [State.fold_savedView, State.savedView_mk]

@[simp] theorem State.restore_savedView (s : State) : (State.restore s).savedView = s.savedView := by
  unfold State.restore
  split
  · rfl
  · split
    · rfl
    · dsimp only
      rw [State.savedView_foldl (by simp), State.savedView_foldl_fst]
      intro p a
      (repeat' split) <;> simp

@[simp] theorem State.releaseReservations_savedView (s : State) :
    (State.releaseReservations s).savedView = s.savedView := by
  unfold State.releaseReservations; simp [State.fold_savedView, State.savedView_mk]

@[simp] theorem State.tileError_savedView (s : State) (source loc : Nat) :
    (State.tileError s source loc).savedView = s.savedView := by
  unfold State.tileError; simp

@[simp] theorem State.spillStore_savedView (s : State) (tile base depth n : Nat) (x : Flit) :
    (State.spillStore s tile base depth n x).savedView = s.savedView := by
  unfold State.spillStore; simp [State.fold_savedView, State.savedView_mk]

@[simp] theorem State.spillIn_savedView (s : State) (i : Nat) : (State.spillIn s i).savedView = s.savedView := by
  unfold State.spillIn; dsimp only; split <;> simp [State.fold_savedView, State.savedView_mk]

@[simp] theorem State.spillQueueIn_savedView (s : State) (queue : Nat) :
    (State.spillQueueIn s queue).savedView = s.savedView := by
  unfold State.spillQueueIn; (repeat' split) <;> simp

@[simp] theorem execFlitDelivered_savedView (cyc queue : Nat) (ecc : EccEvent) (s : State) :
    (outcomeState s (execFlitDelivered cyc queue ecc s)).savedView = s.savedView := by
  unfold execFlitDelivered; dsimp only; (repeat' split) <;> simp [State.fold_savedView, State.savedView_mk]

@[simp] theorem execCreditReturned_savedView (queue : Nat) (s : State) :
    (outcomeState s (execCreditReturned queue s)).savedView = s.savedView := by
  unfold execCreditReturned; (repeat' split) <;> simp [State.fold_savedView, State.savedView_mk]

@[simp] theorem State.capture_savedView (s : State) (cause : Nat) :
    (State.capture s cause).savedView = s.savedView := by
  unfold State.capture; simp [State.fold_savedView, State.savedView_mk]

@[simp] theorem execFabSnapRelease_savedView (value : Nat) (s : State) :
    (outcomeState s (execFabSnapRelease value s)).savedView = s.savedView := by
  unfold execFabSnapRelease; (repeat' split) <;> simp [State.fold_savedView, State.savedView_mk]

@[simp] theorem State.cancelReads_savedView (s : State) : (State.cancelReads s).savedView = s.savedView := by
  unfold State.cancelReads; simp [State.fold_savedView, State.savedView_mk]

@[simp] theorem State.startVoid_savedView (s : State) (cause : Nat) :
    (State.startVoid s cause).savedView = s.savedView := by
  unfold State.startVoid; simp [State.fold_savedView, State.savedView_mk]

@[simp] theorem State.stallSafe_savedView (s : State) (r : PassRun) (quads : List Nat) :
    (State.stallSafe s r quads).savedView = s.savedView := by
  unfold State.stallSafe; simp

@[simp] theorem State.stall_savedView (s : State) (cause : Nat) : (State.stall s cause).savedView = s.savedView := by
  unfold State.stall; (repeat' split) <;> simp [State.fold_savedView, State.savedView_mk]

@[simp] theorem execFabricStall_savedView (cyc : Nat) (s : State) :
    (outcomeState s (execFabricStall cyc s)).savedView = s.savedView := by
  unfold execFabricStall; simp

@[simp] theorem State.voidedPass_savedView (s : State) (r : PassRun) :
    (State.voidedPass s r).savedView = s.savedView := by
  unfold State.voidedPass; simp [State.fold_savedView, State.savedView_mk]

@[simp] theorem State.residue_savedView (s : State) (r : PassRun) (n : Nat) :
    (State.residue s r n).savedView = s.savedView := by
  unfold State.residue; simp [State.fold_savedView, State.savedView_mk]

@[simp] theorem State.startSwap_savedView (s : State) (n : Nat) : (State.startSwap s n).savedView = s.savedView := by
  unfold State.startSwap; simp [State.fold_savedView, State.savedView_mk]

@[simp] theorem State.endSwap_savedView (s : State) (n : Nat) : (State.endSwap s n).savedView = s.savedView := by
  unfold State.endSwap; dsimp only; (repeat' split) <;> simp [State.fold_savedView, State.savedView_mk]

@[simp] theorem execQueueSample_savedView (cyc : Nat) (s : State) :
    (outcomeState s (execQueueSample cyc s)).savedView = s.savedView := by
  unfold execQueueSample; (repeat' split) <;> simp [State.fold_savedView, State.savedView_mk]

@[simp] theorem State.mismatch_savedView (s : State) (op : MatmulOp) (loc : Nat) (m : MatmulRun) (c : Comparison) :
    (State.mismatch s op loc m c).savedView = s.savedView := by
  unfold State.mismatch; simp [State.fold_savedView, State.savedView_mk]

@[simp] theorem execChecksumCompare_savedView (cyc : Nat) (c : Comparison) (s : State) :
    (outcomeState s (execChecksumCompare cyc c s)).savedView = s.savedView := by
  unfold execChecksumCompare; dsimp only; (repeat' split) <;> simp [State.fold_savedView, State.savedView_mk]

@[simp] theorem execMxeRecRelease_savedView (value : Nat) (s : State) :
    (outcomeState s (execMxeRecRelease value s)).savedView = s.savedView := by
  unfold execMxeRecRelease; (repeat' split) <;> simp [State.fold_savedView, State.savedView_mk]

@[simp] theorem State.modModule_savedView (s : State) (m : Nat) (f : UcieModule → UcieModule) :
    (State.modModule s m f).savedView = s.savedView := by
  unfold State.modModule; simp [State.fold_savedView, State.savedView_mk]

@[simp] theorem State.unseal_savedView (s : State) (step : Nat) : (State.unseal s step).savedView = s.savedView := by
  unfold State.unseal; (repeat' split) <;> simp [State.fold_savedView, State.savedView_mk]

@[simp] theorem State.loseEvent_savedView (s : State) : (State.loseEvent s).savedView = s.savedView := by
  unfold State.loseEvent; simp [State.fold_savedView, State.savedView_mk]

@[simp] theorem State.stationWrote_savedView (s : State) (i : Nat) :
    (State.stationWrote s i).savedView = s.savedView := by
  unfold State.stationWrote; simp

@[simp] theorem State.hostFailed_savedView (s : State) (a : HostAccess) :
    (State.hostFailed s a).savedView = s.savedView := by
  unfold State.hostFailed; (repeat' split) <;> simp [State.fold_savedView, State.savedView_mk]

@[simp] theorem State.refuseAccess_savedView (s : State) (a : HostAccess) :
    (State.refuseAccess s a).savedView = s.savedView := by
  unfold State.refuseAccess; simp [State.fold_savedView, State.savedView_mk]

@[simp] theorem State.hostRefused_savedView (s : State) (a : HostAccess) :
    (State.hostRefused s a).savedView = s.savedView := by
  unfold State.hostRefused; simp

@[simp] theorem State.indexRead_savedView (s : State) (w o : Nat) (f : State → State) (h : ∀ t, (f t).savedView =
    t.savedView) :
    (State.indexRead s w o f).savedView = s.savedView := by
  unfold State.indexRead; dsimp only; split <;> simp [h]

@[simp] theorem State.hostTranslated_savedView (s : State) (a : HostAccess) (e : BitVec 64) :
    (State.hostTranslated s a e).savedView = s.savedView := by
  unfold State.hostTranslated; (repeat' split) <;> simp [State.fold_savedView, State.savedView_mk]

@[simp] theorem State.hostTranslate_savedView (s : State) (a : HostAccess) :
    (State.hostTranslate s a).savedView = s.savedView := by
  unfold State.hostTranslate; dsimp only; (repeat' split) <;> simp [State.fold_savedView, State.savedView_mk]

@[simp] theorem State.hostIssue_savedView (s : State) (a : HostAccess) :
    (State.hostIssue s a).savedView = s.savedView := by
  unfold State.hostIssue; (repeat' split) <;> simp

@[simp] theorem State.pump_savedView (s : State) : (State.pump s).savedView = s.savedView := by
  unfold State.pump; (repeat' split) <;> simp [State.fold_savedView, State.savedView_mk]

@[simp] theorem State.chain_savedView (s : State) (ws : List HostAccess) :
    (State.chain s ws).savedView = s.savedView := by
  unfold State.chain; simp [State.fold_savedView, State.savedView_mk]

@[simp] theorem State.chainDone_savedView (s : State) : (State.chainDone s).savedView = s.savedView := by
  unfold State.chainDone; simp [State.fold_savedView, State.savedView_mk]

@[simp] theorem State.endRead_savedView (s : State) : (State.endRead s).savedView = s.savedView := by
  unfold State.endRead; simp [State.fold_savedView, State.savedView_mk]

@[simp] theorem State.translationDone_savedView (s : State) (die entry : Nat) (e : BitVec 64) :
    (State.translationDone s die entry e).savedView = s.savedView := by
  unfold State.translationDone; simp [State.fold_savedView, State.savedView_mk]

@[simp] theorem State.hostDone_savedView (s : State) (a : HostAccess) (address : Nat) (data : List Byte) :
    (State.hostDone s a address data).savedView = s.savedView := by
  unfold State.hostDone; (repeat' split) <;> simp [State.fold_savedView, State.savedView_mk]

@[simp] theorem State.hostLost_savedView (s : State) (a : HostAccess) :
    (State.hostLost s a).savedView = s.savedView := by
  unfold State.hostLost; (repeat' split) <;> simp

@[simp] theorem State.finishOp_savedView (s : State) (result : Nat) :
    (State.finishOp s result).savedView = s.savedView := by
  unfold State.finishOp; simp [State.fold_savedView, State.savedView_mk]

@[simp] theorem State.loseBundle_savedView (s : State) : (State.loseBundle s).savedView = s.savedView := by
  unfold State.loseBundle; (repeat' split) <;> simp

@[simp] theorem State.linkDown_savedView (s : State) : (State.linkDown s).savedView = s.savedView := by
  unfold State.linkDown; simp [State.fold_savedView, State.savedView_mk]

@[simp] theorem State.linkState_savedView (s : State) : (State.linkState s).savedView = s.savedView := by
  unfold State.linkState; simp [State.fold_savedView, State.savedView_mk]

@[simp] theorem State.failModule_savedView (s : State) (m : Nat) (next : UcieState) :
    (State.failModule s m next).savedView = s.savedView := by
  unfold State.failModule; simp

@[simp] theorem State.moduleDown_savedView (s : State) (m : Nat) :
    (State.moduleDown s m).savedView = s.savedView := by
  unfold State.moduleDown; simp

@[simp] theorem State.protocolError_savedView (s : State) (m : Nat) :
    (State.protocolError s m).savedView = s.savedView := by
  unfold State.protocolError; simp

@[simp] theorem execReadData_savedView (cyc module tag status : Nat) (poison final : Bool) (data : List Byte) (s :
    State) :
    (outcomeState s (execReadData cyc module tag status poison final data s)).savedView = s.savedView := by
  unfold execReadData; (repeat' split) <;> simp [State.fold_savedView, State.savedView_mk]

@[simp] theorem execWriteAck_savedView (cyc module tag status : Nat) (s : State) :
    (outcomeState s (execWriteAck cyc module tag status s)).savedView = s.savedView := by
  unfold execWriteAck; (repeat' split) <;> simp [State.fold_savedView, State.savedView_mk]

@[simp] theorem execHostReadTimeout_savedView (cyc module tag : Nat) (s : State) :
    (outcomeState s (execHostReadTimeout cyc module tag s)).savedView = s.savedView := by
  unfold execHostReadTimeout; (repeat' split) <;> simp [State.fold_savedView, State.savedView_mk]

@[simp] theorem execHostWriteTimeout_savedView (cyc module tag : Nat) (s : State) :
    (outcomeState s (execHostWriteTimeout cyc module tag s)).savedView = s.savedView := by
  unfold execHostWriteTimeout; (repeat' split) <;> simp [State.fold_savedView, State.savedView_mk]

@[simp] theorem execUcieCredit_savedView (cyc module headers chunks : Nat) (s : State) :
    (outcomeState s (execUcieCredit cyc module headers chunks s)).savedView = s.savedView := by
  unfold execUcieCredit; simp [State.fold_savedView, State.savedView_mk]

@[simp] theorem execUcieTrainingComplete_savedView (cyc module : Nat) (success : Bool) (speed repaired : Nat) (s :
    State) :
    (outcomeState s (execUcieTrainingComplete cyc module success speed repaired s)).savedView = s.savedView := by
  unfold execUcieTrainingComplete; (repeat' split) <;> simp

@[simp] theorem execUcieTrainingRetry_savedView (module : Nat) (s : State) :
    (outcomeState s (execUcieTrainingRetry module s)).savedView = s.savedView := by
  unfold execUcieTrainingRetry; (repeat' split) <;> simp

@[simp] theorem execUcieCrcError_savedView (cyc module : Nat) (recovered : Bool) (s : State) :
    (outcomeState s (execUcieCrcError cyc module recovered s)).savedView = s.savedView := by
  unfold execUcieCrcError; (repeat' split) <;> simp

@[simp] theorem execUcieRetrainComplete_savedView (cyc module : Nat) (success : Bool) (repaired : Nat) (s : State) :
    (outcomeState s (execUcieRetrainComplete cyc module success repaired s)).savedView = s.savedView := by
  unfold execUcieRetrainComplete; (repeat' split) <;> simp

@[simp] theorem execUcieProtocolError_savedView (cyc module : Nat) (s : State) :
    (outcomeState s (execUcieProtocolError cyc module s)).savedView = s.savedView := by
  unfold execUcieProtocolError; simp

@[simp] theorem execHostDieReset_savedView (cyc : Nat) (s : State) :
    (outcomeState s (execHostDieReset cyc s)).savedView = s.savedView := by
  unfold execHostDieReset; simp

@[simp] theorem State.linkOff_savedView (s : State) : (State.linkOff s).savedView = s.savedView := by
  unfold State.linkOff; simp

@[simp] theorem State.linkOn_savedView (s : State) : (State.linkOn s).savedView = s.savedView := by
  unfold State.linkOn; simp [State.fold_savedView, State.savedView_mk]

@[simp] theorem State.apertureFault_savedView (s : State) (m offset : Nat) (r : WinReply) :
    (State.apertureFault s m offset r).savedView = s.savedView := by
  unfold State.apertureFault; simp [State.fold_savedView, State.savedView_mk]

@[simp] theorem execWinWrite_savedView (cyc module tag offset headSkip tailSkip : Nat) (data : List Byte) (s : State)
    :
    (outcomeState s (execWinWrite cyc module tag offset headSkip tailSkip data s)).savedView = s.savedView := by
  unfold execWinWrite; (repeat' split) <;> simp [State.fold_savedView, State.savedView_mk]

@[simp] theorem execWinRead_savedView (cyc module tag offset chunks : Nat) (s : State) :
    (outcomeState s (execWinRead cyc module tag offset chunks s)).savedView = s.savedView := by
  unfold execWinRead; dsimp only; (repeat' split) <;> simp

@[simp] theorem State.attDrop_savedView (s : State) (w : Nat) : (State.attDrop s w).savedView = s.savedView := by
  unfold State.attDrop; simp [State.fold_savedView, State.savedView_mk]

@[simp] theorem execAttInvalidate_savedView (value : Nat) (s : State) :
    (outcomeState s (execAttInvalidate value s)).savedView = s.savedView := by
  unfold execAttInvalidate; (repeat' split) <;> simp

@[simp] theorem execAttInvalidateComplete_savedView (s : State) :
    (outcomeState s (execAttInvalidateComplete s)).savedView = s.savedView := by
  unfold execAttInvalidateComplete; (repeat' split) <;> simp [State.fold_savedView, State.savedView_mk]

@[simp] theorem State.holdFull_savedView (s : State) : (State.holdFull s).savedView = s.savedView := by
  unfold State.holdFull; simp

@[simp] theorem State.acceptTurn_savedView (s : State) (n : Nat) :
    (State.acceptTurn s n).savedView = s.savedView := by
  unfold State.acceptTurn; simp

@[simp] theorem State.tailTurns_savedView (s : State) (rows : List PassRow) :
    (State.tailTurns s rows).savedView = s.savedView := by
  unfold State.tailTurns
  refine State.keeps_foldl State.savedView (fun t r => ?_) _ _
  (repeat' split) <;> simp

@[simp] theorem State.allocPages_savedView {s t : State} {n upTo : Nat} (h : s.allocPages n upTo = some t) :
    t.savedView = s.savedView := by
  have fold : ∀ (f : Option State → Nat → Option State)
      (_ : ∀ o a u, f o a = some u → ∃ v, o = some v ∧ u.savedView = v.savedView) (l : List Nat) (o : Option State) (u
        : State),
      l.foldl f o = some u → ∃ v, o = some v ∧ u.savedView = v.savedView := by
    intro f hf l
    induction l with
    | nil => exact fun o u hu => ⟨u, hu, rfl⟩
    | cons a l ih =>
      intro o u hu
      obtain ⟨v, hv, e⟩ := ih _ _ hu
      obtain ⟨w, hw, e'⟩ := hf o a v hv
      exact ⟨w, hw, e.trans e'⟩
  unfold State.allocPages at h
  split at h
  · cases h; rfl
  · obtain ⟨v, hv, e⟩ := fold _ (by
      intro o a u hu
      cases o with
      | none => simp at hu
      | some v =>
        refine ⟨v, rfl, ?_⟩
        simp only [Option.bind_some] at hu
        split at hu
        · split at hu
          · cases hu; rfl
          · cases hu
        · split at hu
          · cases hu
          · cases hu; simp [State.fold_savedView, State.savedView_mk]) _ _ _ h
    cases hv
    exact e

@[simp] theorem State.entryOf_savedView {s t : State} {epoch : Nat} {p : Proposal} {e : PlanEntry} (h : s.entryOf
    epoch p = some (t, e)) :
    t.savedView = s.savedView := by
  have alloc : ∀ (up : PassRow → Nat) (l : List PassRow) (o : Option State) (u : State),
      l.foldl (fun (o : Option State) r => o.bind fun t => t.allocPages r.stream (up r)) o = some u →
        ∃ v, o = some v ∧ u.savedView = v.savedView := by
    intro up l
    induction l with
    | nil => exact fun o u hu => ⟨u, hu, rfl⟩
    | cons a l ih =>
      intro o u hu
      obtain ⟨v, hv, e⟩ := ih _ _ hu
      cases o with
      | none => simp at hv
      | some w => exact ⟨w, rfl, e.trans (State.allocPages_savedView (by simpa using hv))⟩
  unfold State.entryOf at h
  dsimp only at h
  split at h
  · cases h
  · split at h
    · split at h
      · cases h
      · split at h
        · cases h
        · obtain ⟨u, hu, he⟩ := Option.map_eq_some_iff.mp h
          obtain ⟨v, hv, k⟩ := alloc _ _ _ _ hu
          cases hv
          cases he
          rw [← k]
          simp [State.fold_savedView, State.savedView_mk]
    · cases h

@[simp] theorem State.passEntry_savedView {s t : State} {tail : Bool} {p : Proposal} {e : PlanEntry} (h : s.passEntry
    tail p = some (t, e)) :
    t.savedView = s.savedView := by
  unfold State.passEntry at h
  split at h
  · split at h
    · unfold State.poolEntry at h
      split at h
      · cases h
      · dsimp only at h
        split at h
        · obtain ⟨e', _, he⟩ := Option.map_eq_some_iff.mp h
          cases he; rfl
        · cases h
    · cases h
  · refine (State.entryOf_savedView h).trans ?_
    split <;> simp

@[simp] theorem State.putEntry_savedView (s : State) (tail : Bool) (e : PlanEntry) :
    (State.putEntry s tail e).savedView = s.savedView := by
  unfold State.putEntry; dsimp only; (repeat' split) <;> simp [State.fold_savedView, State.savedView_mk]

@[simp] theorem State.tryProposal_savedView (s : State) (tail : Bool) (p : Proposal) :
    (State.tryProposal s tail p).savedView = s.savedView := by
  unfold State.tryProposal
  dsimp only
  split
  iterate 2
    · split
      · rfl
      · split
        · rename_i h
          split
          · simpa using State.passEntry_savedView h
          · rfl
        · rfl
  · (repeat' split) <;> simp
  · rfl

@[simp] theorem State.placeOld_savedView (s : State) (e : PlanEntry) :
    (State.placeOld s e).savedView = s.savedView := by
  unfold State.placeOld; (repeat' split) <;> simp [State.fold_savedView, State.savedView_mk]

@[simp] theorem State.placeItem_savedView (s : State) (x : PlanItem) :
    (State.placeItem s x).savedView = s.savedView := by
  cases x <;> simp [State.placeItem]

@[simp] theorem State.dropDangling_savedView (s : State) : (State.dropDangling s).savedView = s.savedView := by
  unfold State.dropDangling; simp

@[simp] theorem State.tryStep_savedView (s : State) (ps : List Proposal) :
    (State.tryStep s ps).savedView = s.savedView := by
  unfold State.tryStep; dsimp only; (repeat' split) <;> simp

@[simp] theorem State.planDecode_savedView (s : State) (ns : List Nat) :
    (State.planDecode s ns).savedView = s.savedView := by
  unfold State.planDecode; simp

@[simp] theorem State.planDecodes_savedView (s : State) : (State.planDecodes s).savedView = s.savedView := by
  unfold State.planDecodes; dsimp only; simp

@[simp] theorem State.planChunks_savedView (n fuel : Nat) (s : State) :
    (State.planChunks s n fuel).savedView = s.savedView := by
  induction fuel generalizing s with
  | zero => rfl
  | succ f ih =>
    unfold State.planChunks
    dsimp only
    (repeat' split) <;> simp [ih]

@[simp] theorem State.sortClass0_savedView (s : State) : (State.sortClass0 s).savedView = s.savedView := by
  unfold State.sortClass0; simp [State.fold_savedView, State.savedView_mk]

@[simp] theorem State.planClass0_savedView (s : State) (ps : List Proposal) :
    (State.planClass0 s ps).savedView = s.savedView := by
  unfold State.planClass0; dsimp only; (repeat' split) <;> simp

@[simp] theorem State.planSwitch_savedView (s : State) (left : List PlanEntry) :
    (State.planSwitch s left).savedView = s.savedView := by
  unfold State.planSwitch; dsimp only; (repeat' split) <;> simp

@[simp] theorem State.fixPlan_savedView (s : State) (ps : List Proposal) :
    (State.fixPlan s ps).savedView = s.savedView := by
  unfold State.fixPlan; dsimp only; simp [State.fold_savedView, State.savedView_mk]

@[simp] theorem State.tailFill_savedView (s : State) (ps : List Proposal) :
    (State.tailFill s ps).savedView = s.savedView := by
  unfold State.tailFill
  refine (State.keeps_foldl State.savedView (fun t x => ?_) _ _).trans (by simp)
  cases x <;> simp

@[simp] theorem execWcetOverrun_savedView (cyc : Nat) (s : State) :
    (outcomeState s (execWcetOverrun cyc s)).savedView = s.savedView := by
  unfold execWcetOverrun; (repeat' split) <;> simp [State.fold_savedView, State.savedView_mk]

@[simp] theorem execHoldoverLimit_savedView (s : State) :
    (outcomeState s (execHoldoverLimit s)).savedView = s.savedView := by
  unfold execHoldoverLimit; (repeat' split) <;> simp [State.fold_savedView, State.savedView_mk]

@[simp] theorem State.modIntake_savedView (s : State) (f : Intake → Intake) :
    (State.modIntake s f).savedView = s.savedView := by
  unfold State.modIntake; simp [State.fold_savedView, State.savedView_mk]

@[simp] theorem State.recordDone_savedView (s : State) : (State.recordDone s).savedView = s.savedView := by
  unfold State.recordDone; simp

@[simp] theorem State.answer_savedView (s : State) (r : IntakeRecord) (status flags : Nat) :
    (State.answer s r status flags).savedView = s.savedView := by
  unfold State.answer; simp

@[simp] theorem State.intakeFault_savedView (s : State) (index why : Nat) :
    (State.intakeFault s index why).savedView = s.savedView := by
  unfold State.intakeFault; simp

@[simp] theorem State.charge_savedView (s : State) (tenant units : Nat) :
    (State.charge s tenant units).savedView = s.savedView := by
  unfold State.charge; simp [State.fold_savedView, State.savedView_mk]

@[simp] theorem State.takeInput_savedView (s : State) (r : IntakeRecord) (tenant : Nat) :
    (State.takeInput s r tenant).savedView = s.savedView := by
  unfold State.takeInput; simp

@[simp] theorem State.refuse_savedView (s : State) (r : IntakeRecord) (status : Nat) :
    (State.refuse s r status).savedView = s.savedView := by
  unfold State.refuse; simp [State.fold_savedView, State.savedView_mk]

@[simp] theorem State.takeOpen_savedView (s : State) (r : IntakeRecord) (held : Bool) :
    (State.takeOpen s r held).savedView = s.savedView := by
  unfold State.takeOpen; simp [State.fold_savedView, State.savedView_mk]

@[simp] theorem execOpenStream_savedView (cyc : Nat) (r : IntakeRecord) (s : State) :
    (outcomeState s (execOpenStream cyc r s)).savedView = s.savedView := by
  unfold execOpenStream
  dsimp only
  split
  · rfl
  · (repeat' split) <;> (rw [outcomeState_next]; simp)

@[simp] theorem State.wantUnpark_savedView (s : State) (n tag : Nat) :
    (State.wantUnpark s n tag).savedView = s.savedView := by
  unfold State.wantUnpark; (repeat' split) <;> simp

@[simp] theorem State.takeAppend_savedView (s : State) (r : IntakeRecord) (x : Stream) :
    (State.takeAppend s r x).savedView = s.savedView := by
  unfold State.takeAppend; simp

@[simp] theorem execAppend_savedView (cyc : Nat) (r : IntakeRecord) (s : State) :
    (outcomeState s (execAppend cyc r s)).savedView = s.savedView := by
  unfold execAppend
  dsimp only
  split
  · rfl
  · (repeat' split) <;> (rw [outcomeState_next]; simp)

@[simp] theorem execNop_savedView (cyc : Nat) (r : IntakeRecord) (s : State) :
    (outcomeState s (execNop cyc r s)).savedView = s.savedView := by
  unfold execNop
  dsimp only
  split
  · rfl
  · (repeat' split) <;> (rw [outcomeState_next]; simp)

@[simp] theorem State.dropQueued_savedView (s : State) (n : Nat) :
    (State.dropQueued s n).savedView = s.savedView := by
  unfold State.dropQueued; (repeat' split) <;> simp

@[simp] theorem State.cancelNow_savedView (s : State) (n : Nat) (x : Stream) (turnOnly : Bool) :
    (State.cancelNow s n x turnOnly).1.savedView = s.savedView := by
  unfold State.cancelNow; (repeat' split) <;> simp

@[simp] theorem execCancel_savedView (cyc : Nat) (r : IntakeRecord) (s : State) :
    (outcomeState s (execCancel cyc r s)).savedView = s.savedView := by
  unfold execCancel
  dsimp only
  split
  · rfl
  · (repeat' split) <;> (rw [outcomeState_next]; simp)

@[simp] theorem execClose_savedView (cyc : Nat) (r : IntakeRecord) (s : State) :
    (outcomeState s (execClose cyc r s)).savedView = s.savedView := by
  unfold execClose
  dsimp only
  split
  · rfl
  · (repeat' split) <;> (rw [outcomeState_next]; simp)

@[simp] theorem execPark_savedView (cyc : Nat) (r : IntakeRecord) (s : State) :
    (outcomeState s (execPark cyc r s)).savedView = s.savedView := by
  unfold execPark
  dsimp only
  split
  · rfl
  · (repeat' split) <;> (rw [outcomeState_next]; simp)

@[simp] theorem execUnpark_savedView (cyc : Nat) (r : IntakeRecord) (s : State) :
    (outcomeState s (execUnpark cyc r s)).savedView = s.savedView := by
  unfold execUnpark
  dsimp only
  split
  · rfl
  · (repeat' split) <;> (rw [outcomeState_next]; simp)

@[simp] theorem State.copyFailed_savedView (s : State) (n : Nat) :
    (State.copyFailed s n).savedView = s.savedView := by
  unfold State.copyFailed; (repeat' split) <;> simp

@[simp] theorem execInputCopyComplete_savedView (cyc : Nat) (failed : List Nat) (s : State) :
    (outcomeState s (execInputCopyComplete cyc failed s)).savedView = s.savedView := by
  unfold execInputCopyComplete; simp

@[simp] theorem State.dropTurn_savedView (s : State) (n status : Nat) (u : Turn) :
    (State.dropTurn s n status u).savedView = s.savedView := by
  unfold State.dropTurn; simp

@[simp] theorem State.afterTurns_savedView (s : State) (n : Nat) :
    (State.afterTurns s n).savedView = s.savedView := by
  unfold State.afterTurns; (repeat' split) <;> simp

@[simp] theorem State.lateTest_savedView {s t : State} {n : Nat} {x : Stream} (h : s.lateTest n x = .ok t) :
    t.savedView = s.savedView := by
  unfold State.lateTest at h
  split at h
  · cases h
  · split at h
    · cases h; simp
    · cases h

@[simp] theorem State.acceptNext_savedView (s : State) (n : Nat) (x0 : Nat) :
    (State.acceptNext s n x0).savedView = s.savedView := by
  induction x0 generalizing s with
  | zero => rfl
  | succ f ih =>
    unfold State.acceptNext
    split
    · rfl
    · dsimp only
      split
      · split
        · rfl
        · split
          · simp
          · split
            · rename_i t h
              have k : t.savedView = s.savedView := by
                split at h
                · split at h
                  · cases h
                  · exact State.lateTest_savedView h
                · cases h; rfl
              simp [k]
            · split <;> simp [ih]
      · split
        · simp [ih]
        · split <;> simp [ih]
      · rfl

@[simp] theorem State.acceptAll_savedView (s : State) : (State.acceptAll s).savedView = s.savedView := by
  unfold State.acceptAll; simp

@[simp] theorem execNoticeWrite_savedView (cyc group : Nat) (s : State) :
    (outcomeState s (execNoticeWrite cyc group s)).savedView = s.savedView := by
  unfold execNoticeWrite; simp [State.fold_savedView, State.savedView_mk]

@[simp] theorem execSealStart_savedView (cyc step : Nat) (s : State) :
    (outcomeState s (execSealStart cyc step s)).savedView = s.savedView := by
  unfold execSealStart; (repeat' split) <;> simp [State.fold_savedView, State.savedView_mk]

@[simp] theorem State.applyRow_savedView (s : State) (r : SealRow) :
    (State.applyRow s r).savedView = s.savedView := by
  unfold State.applyRow; (repeat' split) <;> simp [State.fold_savedView, State.savedView_mk]

@[simp] theorem execSealComplete_savedView (cyc step : Nat) (s : State) :
    (outcomeState s (execSealComplete cyc step s)).savedView = s.savedView := by
  unfold execSealComplete; (repeat' split) <;> simp [State.fold_savedView, State.savedView_mk]

@[simp] theorem State.zeroRing_savedView (s : State) (ring : Nat) :
    (State.zeroRing s ring).savedView = s.savedView := by
  unfold State.zeroRing; (repeat' split) <;> simp [State.fold_savedView, State.savedView_mk]

@[simp] theorem State.commitRing_savedView (s before : State) (sub value : Nat) (zero : Bool) :
    (State.commitRing s before sub value zero).savedView = s.savedView := by
  unfold State.commitRing; dsimp only; (repeat' split) <;> simp

@[simp] theorem execRingConfigCommit_savedView (sub value : Nat) (s : State) :
    (outcomeState s (execRingConfigCommit sub value s)).savedView = s.savedView := by
  unfold execRingConfigCommit
  rw [outcomeState_onUnit]
  split <;> simp

@[simp] theorem State.newWindow_savedView (s : State) : (State.newWindow s).savedView = s.savedView := by
  unfold State.newWindow; simp [State.fold_savedView, State.savedView_mk]

@[simp] theorem State.countLoss_savedView (s : State) (host : Nat) :
    (State.countLoss s host).savedView = s.savedView := by
  unfold State.countLoss; dsimp only; (repeat' split) <;> simp

@[simp] theorem State.returnLost_savedView (s : State) (c : Choice) :
    (State.returnLost s c).savedView = s.savedView := by
  unfold State.returnLost; simp

@[simp] theorem State.dropChoice_savedView (s : State) (station row rank : Nat) :
    (State.dropChoice s station row rank).savedView = s.savedView := by
  unfold State.dropChoice; simp

@[simp] theorem State.closeChoice_savedView (s : State) (c : Choice) (status : Nat) (payload : List Byte) :
    (State.closeChoice s c status payload).savedView = s.savedView := by
  unfold State.closeChoice; (repeat' split) <;> simp

@[simp] theorem State.serveRefused_savedView (s : State) (host status : Nat) (m : DispatchMsg) :
    (State.serveRefused s host status m).savedView = s.savedView := by
  unfold State.serveRefused; (repeat' split) <;> simp

@[simp] theorem State.serveEnds_savedView (s : State) : (State.serveEnds s).savedView = s.savedView := by
  unfold State.serveEnds; simp

@[simp] theorem State.serveEmit_savedView (i : Nat) (x0 : Nat) (s : State) :
    (State.serveEmit i x0 s).savedView = s.savedView := by
  induction x0 generalizing s with
  | zero => rfl
  | succ f ih =>
    unfold State.serveEmit
    dsimp only
    split <;> simp [ih, State.fold_savedView, State.savedView_mk]

@[simp] theorem State.deliverOwn_savedView (s : State) (c : Choice) (m : DispatchMsg) :
    (State.deliverOwn s c m).savedView = s.savedView := by
  unfold State.deliverOwn; (repeat' split) <;> simp

@[simp] theorem State.sendChoice_savedView (s : State) (c : Choice) :
    (State.sendChoice s c).savedView = s.savedView := by
  unfold State.sendChoice; dsimp only; (repeat' split) <;> simp

@[simp] theorem State.sendChoices_savedView (s : State) : (State.sendChoices s).savedView = s.savedView := by
  unfold State.sendChoices; simp

@[simp] theorem State.takeRow_savedView (s : State) (i : Nat) (p : PortOp) (flits : List Flit) :
    (State.takeRow s i p flits).savedView = s.savedView := by
  unfold State.takeRow; simp

@[simp] theorem State.takeRows_savedView (i : Nat) (p : PortOp) (x0 : Nat) (s : State) :
    (State.takeRows i p x0 s).savedView = s.savedView := by
  (induction x0 generalizing s <;> simp [State.takeRows, *])

@[simp] theorem State.returnEmit_savedView (i : Nat) (x0 : Nat) (s : State) :
    (State.returnEmit i x0 s).savedView = s.savedView := by
  induction x0 generalizing s with
  | zero => rfl
  | succ f ih =>
    unfold State.returnEmit
    dsimp only
    split
    · split
      · rfl
      · rw [ih]
        split <;> simp [State.fold_savedView, State.savedView_mk]
    · rfl

@[simp] theorem State.batchEnds_savedView (s : State) : (State.batchEnds s).savedView = s.savedView := by
  unfold State.batchEnds; simp

@[simp] theorem State.dspAdvance_savedView (s : State) : (State.dspAdvance s).savedView = s.savedView := by
  unfold State.dspAdvance; simp

@[simp] theorem State.serveResults_savedView (i : Nat) (p : PortOp) (x0 : Nat) (s : State) :
    (State.serveResults i p x0 s).savedView = s.savedView := by
  induction x0 generalizing s with
  | zero => rfl
  | succ f ih =>
    unfold State.serveResults
    dsimp only
    split
    · rfl
    · rw [ih]
      (repeat' split) <;> simp

@[simp] theorem State.dspFrame_savedView (s : State) (uplink : Nat) (f : FrameCheck) (m : DispatchMsg) :
    (State.dspFrame s uplink f m).1.savedView = s.savedView := by
  unfold State.dspFrame; dsimp only; (repeat' split) <;> simp

@[simp] theorem State.gather_savedView (s : State) (host : Nat) (ret : Bool) (m : DispatchMsg) :
    (State.gather s host ret m).1.savedView = s.savedView := by
  unfold State.gather; dsimp only; (repeat' split) <;> simp

@[simp] theorem execDispatch_savedView (cyc uplink : Nat) (f : FrameCheck) (m : DispatchMsg) (s : State) :
    (outcomeState s (execDispatch cyc uplink f m s)).savedView = s.savedView := by
  unfold execDispatch
  rw [outcomeState_onUnit]
  dsimp only
  split
  · (repeat' split) <;> simp
  · rfl

@[simp] theorem execReturnMsg_savedView (cyc uplink : Nat) (f : FrameCheck) (m : DispatchMsg) (s : State) :
    (outcomeState s (execReturnMsg cyc uplink f m s)).savedView = s.savedView := by
  unfold execReturnMsg
  rw [outcomeState_onUnit]
  dsimp only
  split
  · (repeat' split) <;> simp
  · rfl

@[simp] theorem execBatchEnd_savedView (cyc uplink : Nat) (f : FrameCheck) (m : DispatchMsg) (s : State) :
    (outcomeState s (execBatchEnd cyc uplink f m s)).savedView = s.savedView := by
  unfold execBatchEnd
  rw [outcomeState_onUnit]
  dsimp only
  split
  · (repeat' split) <;> simp
  · rfl

@[simp] theorem execDispatchCancel_savedView (cyc uplink : Nat) (f : FrameCheck) (m : DispatchMsg) (s : State) :
    (outcomeState s (execDispatchCancel cyc uplink f m s)).savedView = s.savedView := by
  unfold execDispatchCancel
  rw [outcomeState_onUnit]
  dsimp only
  split
  · (repeat' split) <;> simp
  · rfl

@[simp] theorem execCredit_savedView (cyc uplink : Nat) (f : FrameCheck) (m : DispatchMsg) (s : State) :
    (outcomeState s (execCredit cyc uplink f m s)).savedView = s.savedView := by
  unfold execCredit
  rw [outcomeState_onUnit]
  dsimp only
  split
  · (repeat' split) <;> simp
  · rfl

@[simp] theorem execUplinkNeighborSolicitation_savedView (uplink target : Nat) (s : State) :
    (outcomeState s (execUplinkNeighborSolicitation uplink target s)).savedView = s.savedView := by
  unfold execUplinkNeighborSolicitation; (repeat' split) <;> simp

@[simp] theorem execReturnTimeout_savedView (cyc dispatchNo : Nat) (s : State) :
    (outcomeState s (execReturnTimeout cyc dispatchNo s)).savedView = s.savedView := by
  unfold execReturnTimeout; dsimp only; (repeat' split) <;> simp

@[simp] theorem execCreditGraceExpiry_savedView (cyc gen : Nat) (s : State) :
    (outcomeState s (execCreditGraceExpiry cyc gen s)).savedView = s.savedView := by
  unfold execCreditGraceExpiry; simp

@[simp] theorem execServeBatchClose_savedView (cyc station : Nat) (s : State) :
    (outcomeState s (execServeBatchClose cyc station s)).savedView = s.savedView := by
  unfold execServeBatchClose; (repeat' split) <;> simp

@[simp] theorem execUplinkUp_savedView (cyc uplink : Nat) (s : State) :
    (outcomeState s (execUplinkUp cyc uplink s)).savedView = s.savedView := by
  unfold execUplinkUp; (repeat' split) <;> simp

@[simp] theorem State.uplinkDown_savedView (s : State) (u cause : Nat) :
    (State.uplinkDown s u cause).savedView = s.savedView := by
  unfold State.uplinkDown; simp

@[simp] theorem execUplinkDown_savedView (cyc uplink cause : Nat) (s : State) :
    (outcomeState s (execUplinkDown cyc uplink cause s)).savedView = s.savedView := by
  unfold execUplinkDown; simp

@[simp] theorem execDspTableCommit_savedView (sub : Nat) (bytes : List Byte) (s : State) :
    (outcomeState s (execDspTableCommit sub bytes s)).savedView = s.savedView := by
  unfold execDspTableCommit; simp; (repeat' split) <;> simp [State.fold_savedView, State.savedView_mk]

@[simp] theorem State.applyTables_savedView (s : State) : (State.applyTables s).savedView = s.savedView := by
  unfold State.applyTables; simp

@[simp] theorem State.closeWindow_savedView (s : State) : (State.closeWindow s).savedView = s.savedView := by
  unfold State.closeWindow; simp

@[simp] theorem State.openBatch_savedView (s : State) (id step : Nat) (fresh : Bool) :
    (State.openBatch s id step fresh).savedView = s.savedView := by
  unfold State.openBatch; simp

@[simp] theorem State.markCorrupt_savedView (s : State) (tag n : Nat) :
    (State.markCorrupt s tag n).savedView = s.savedView := by
  unfold State.markCorrupt; (repeat' split) <;> simp [State.fold_savedView, State.savedView_mk]

@[simp] theorem State.modStoreStack_savedView (s : State) (n : Nat) (f : StoreStack → StoreStack) :
    (State.modStoreStack s n f).savedView = s.savedView := by
  unfold State.modStoreStack; simp [State.fold_savedView, State.savedView_mk]

@[simp] theorem State.readExtent_savedView (s : State) (tag n i bytes : Nat) :
    (State.readExtent s tag n i bytes).savedView = s.savedView := by
  unfold State.readExtent; simp

@[simp] theorem State.readShard_savedView (s : State) (tag n : Nat) :
    (State.readShard s tag n).savedView = s.savedView := by
  unfold State.readShard; simp

@[simp] theorem State.readBack_savedView (s : State) (tag : Nat) (p : Nat → Shard → Bool) :
    (State.readBack s tag p).savedView = s.savedView := by
  unfold State.readBack; simp

@[simp] theorem State.startOp_savedView (s : State) (cmd tag length : Nat) :
    (State.startOp s cmd tag length).savedView = s.savedView := by
  unfold State.startOp; simp [State.fold_savedView, State.savedView_mk]

@[simp] theorem State.commitOp_savedView (s : State) (cmd source tag length : Nat) :
    (State.commitOp s cmd source tag length).savedView = s.savedView := by
  unfold State.commitOp; (repeat' split) <;> simp

@[simp] theorem execStoreInstall_savedView (source length : Nat) (s : State) :
    (outcomeState s (execStoreInstall source length s)).savedView = s.savedView := by
  unfold execStoreInstall; simp

@[simp] theorem execStoreDelete_savedView (tag : Nat) (s : State) :
    (outcomeState s (execStoreDelete tag s)).savedView = s.savedView := by
  unfold execStoreDelete; simp

@[simp] theorem execAdapterInstall_savedView (source length : Nat) (s : State) :
    (outcomeState s (execAdapterInstall source length s)).savedView = s.savedView := by
  unfold execAdapterInstall; simp

@[simp] theorem execAdapterDelete_savedView (tag : Nat) (s : State) :
    (outcomeState s (execAdapterDelete tag s)).savedView = s.savedView := by
  unfold execAdapterDelete; simp

@[simp] theorem execStoreRepair_savedView (tag source length : Nat) (s : State) :
    (outcomeState s (execStoreRepair tag source length s)).savedView = s.savedView := by
  unfold execStoreRepair; simp

@[simp] theorem State.commitMode_savedView (s : State) (value : Nat) :
    (State.commitMode s value).savedView = s.savedView := by
  unfold State.commitMode; dsimp only; (repeat' split) <;> simp [State.fold_savedView, State.savedView_mk]

@[simp] theorem execStoModeSet_savedView (value : Nat) (s : State) :
    (outcomeState s (execStoModeSet value s)).savedView = s.savedView := by
  unfold execStoModeSet; simp

@[simp] theorem State.digestFailed_savedView (s : State) (shards : List Shard) :
    (State.digestFailed s shards).savedView = s.savedView := by
  unfold State.digestFailed; simp [State.fold_savedView, State.savedView_mk]

@[simp] theorem State.readBundle_savedView (s : State) (adapters : Bool) (b : List Byte) :
    (State.readBundle s adapters b).2.savedView = s.savedView := by
  unfold State.readBundle; dsimp only; (repeat' split) <;> simp

@[simp] theorem State.installOp_savedView (s : State) (b : List Byte) :
    (State.installOp s b).savedView = s.savedView := by
  unfold State.installOp
  have h := State.readBundle_savedView s false b
  generalize s.readBundle false b = r at h ⊢
  obtain ⟨r, t⟩ := r
  cases r <;> dsimp only at h ⊢
  · simpa using h
  · (repeat' split) <;> simp [State.fold_savedView, State.savedView_mk] <;> simp_all

@[simp] theorem State.adapterOp_savedView (s : State) (b : List Byte) :
    (State.adapterOp s b).savedView = s.savedView := by
  unfold State.adapterOp
  have h := State.readBundle_savedView s true b
  generalize s.readBundle true b = r at h ⊢
  obtain ⟨r, t⟩ := r
  cases r <;> dsimp only at h ⊢
  · simpa using h
  · (repeat' split) <;> simp [State.fold_savedView, State.savedView_mk] <;> simp_all

@[simp] theorem State.repairOp_savedView (s : State) (b : List Byte) :
    (State.repairOp s b).savedView = s.savedView := by
  unfold State.repairOp; dsimp only; (repeat' split) <;> simp [State.fold_savedView, State.savedView_mk]

@[simp] theorem State.deleteOp_savedView (s : State) : (State.deleteOp s).savedView = s.savedView := by
  unfold State.deleteOp; simp [State.fold_savedView, State.savedView_mk]

@[simp] theorem State.bundleRefused_savedView (s : State) : (State.bundleRefused s).savedView = s.savedView := by
  unfold State.bundleRefused; simp [State.fold_savedView, State.savedView_mk]

@[simp] theorem execStoreOpComplete_savedView (cyc : Nat) (bundle : BundleRead) (s : State) :
    (outcomeState s (execStoreOpComplete cyc bundle s)).savedView = s.savedView := by
  unfold execStoreOpComplete; dsimp only; (repeat' split) <;> simp

@[simp] theorem State.storeReadLost_savedView (s : State) (failed : Bool) (stack logical tag shard : Nat) :
    (State.storeReadLost s failed stack logical tag shard).savedView = s.savedView := by
  unfold State.storeReadLost; simp

@[simp] theorem State.storeReadDone_savedView (s : State) (i read : Nat) (got : List Host.Cell) (bad : Bool) :
    (State.storeReadDone s i read got bad).savedView = s.savedView := by
  unfold State.storeReadDone; simp

@[simp] theorem execStoreReadComplete_savedView (cyc read retries : Nat) (decoded : Bool) (s : State) :
    (outcomeState s (execStoreReadComplete cyc read retries decoded s)).savedView = s.savedView := by
  unfold execStoreReadComplete
  split
  · simp
  · simp only [outcomeState_next, State.storeReadDone_savedView]
    split <;> simp

@[simp] theorem execBlockRelocate_savedView (cyc stack block : Nat) (s : State) :
    (outcomeState s (execBlockRelocate cyc stack block s)).savedView = s.savedView := by
  unfold execBlockRelocate; simp

@[simp] theorem execStoStackInitComplete_savedView (stack spareBlocks wear : Nat) (s : State) :
    (outcomeState s (execStoStackInitComplete stack spareBlocks wear s)).savedView = s.savedView := by
  unfold execStoStackInitComplete; (repeat' split) <;> simp [State.fold_savedView, State.savedView_mk]

@[simp] theorem State.setPatrolFails_savedView (s : State) (tag shard n : Nat) :
    (State.setPatrolFails s tag shard n).savedView = s.savedView := by
  unfold State.setPatrolFails; simp [State.fold_savedView, State.savedView_mk]

@[simp] theorem execStorePatrol_savedView (cyc tag shard : Nat) (matched : Bool) (s : State) :
    (outcomeState s (execStorePatrol cyc tag shard matched s)).savedView = s.savedView := by
  unfold execStorePatrol; (repeat' split) <;> simp

@[simp] theorem State.passBroken_savedView (s : State) (k cause : Nat) :
    (State.passBroken s k cause).savedView = s.savedView := by
  unfold State.passBroken; simp

@[simp] theorem execSyncSignal_savedView (cyc station input : Nat) (s : State) :
    (outcomeState s (execSyncSignal cyc station input s)).savedView = s.savedView := by
  unfold execSyncSignal; dsimp only; (repeat' split) <;> simp

@[simp] theorem execSyncWait_savedView (cyc station input : Nat) (s : State) :
    (outcomeState s (execSyncWait cyc station input s)).savedView = s.savedView := by
  unfold execSyncWait; dsimp only; (repeat' split) <;> simp

@[simp] theorem State.arriveAt_savedView (s : State) (k : Nat) (o : SyncOp) (moves : Bool) :
    (State.arriveAt s k o moves).savedView = s.savedView := by
  unfold State.arriveAt; simp

@[simp] theorem execSyncArrive_savedView (cyc station input : Nat) (s : State) :
    (outcomeState s (execSyncArrive cyc station input s)).savedView = s.savedView := by
  unfold execSyncArrive; (repeat' split) <;> simp

@[simp] theorem execSyncBarrier_savedView (cyc station input : Nat) (s : State) :
    (outcomeState s (execSyncBarrier cyc station input s)).savedView = s.savedView := by
  unfold execSyncBarrier; (repeat' split) <;> simp

@[simp] theorem State.tileLeft_savedView (s : State) (station input : Nat) :
    (State.tileLeft s station input).savedView = s.savedView := by
  unfold State.tileLeft; dsimp only; (repeat' split) <;> simp

@[simp] theorem State.openNode_savedView (s : State) (object : Nat) :
    (State.openNode s object).savedView = s.savedView := by
  unfold State.openNode; simp

@[simp] theorem State.waitReleased_savedView (s : State) (object threshold : Nat) :
    (State.waitReleased s object threshold).savedView = s.savedView := by
  unfold State.waitReleased; (repeat' split) <;> simp

@[simp] theorem State.broken_savedView (s : State) (object cause : Nat) :
    (State.broken s object cause).savedView = s.savedView := by
  unfold State.broken; simp

@[simp] theorem State.syncPacket_savedView (s : State) (h : PacketHeader) :
    (State.syncPacket s h).savedView = s.savedView := by
  unfold State.syncPacket; (repeat' split) <;> simp

@[simp] theorem execSpanSignal_savedView (cyc object amount : Nat) (s : State) :
    (outcomeState s (execSpanSignal cyc object amount s)).savedView = s.savedView := by
  unfold execSpanSignal; simp

@[simp] theorem execRegister_savedView (cyc object : Nat) (w : WaitReg) (s : State) :
    (outcomeState s (execRegister cyc object w s)).savedView = s.savedView := by
  unfold execRegister; simp

@[simp] theorem execWaitRelease_savedView (cyc station input : Nat) (s : State) :
    (outcomeState s (execWaitRelease cyc station input s)).savedView = s.savedView := by
  unfold execWaitRelease; dsimp only; (repeat' split) <;> simp

@[simp] theorem execArrive_savedView (cyc object : Nat) (s : State) :
    (outcomeState s (execArrive cyc object s)).savedView = s.savedView := by
  unfold execArrive; simp

@[simp] theorem execRelease_savedView (cyc object : Nat) (s : State) :
    (outcomeState s (execRelease cyc object s)).savedView = s.savedView := by
  unfold execRelease; simp

@[simp] theorem execReleased_savedView (cyc object : Nat) (s : State) :
    (outcomeState s (execReleased cyc object s)).savedView = s.savedView := by
  unfold execReleased; simp

@[simp] theorem execReopen_savedView (cyc object : Nat) (s : State) :
    (outcomeState s (execReopen cyc object s)).savedView = s.savedView := by
  unfold execReopen; simp

@[simp] theorem execBreakNode_savedView (cyc object cause : Nat) (s : State) :
    (outcomeState s (execBreakNode cyc object cause s)).savedView = s.savedView := by
  unfold execBreakNode; simp

@[simp] theorem execGuardExpired_savedView (cyc station input : Nat) (s : State) :
    (outcomeState s (execGuardExpired cyc station input s)).savedView = s.savedView := by
  unfold execGuardExpired; dsimp only; (repeat' split) <;> simp [State.fold_savedView, State.savedView_mk]

@[simp] theorem State.endHold_savedView (s : State) : (State.endHold s).savedView = s.savedView := by
  unfold State.endHold; (repeat' split) <;> simp [State.fold_savedView, State.savedView_mk]

@[simp] theorem State.planResume_savedView (s : State) : (State.planResume s).savedView = s.savedView := by
  unfold State.planResume; (repeat' split) <;> simp [State.fold_savedView, State.savedView_mk]

@[simp] theorem State.sendReq_savedView (s : State) (i number offset : Nat) :
    (State.sendReq s i number offset).savedView = s.savedView := by
  unfold State.sendReq; (repeat' split) <;> simp

@[simp] theorem State.reissue_savedView (s : State) : (State.reissue s).savedView = s.savedView := by
  unfold State.reissue; simp

@[simp] theorem State.applyRelease_savedView (s : State) (x : Nat × Nat) :
    (State.applyRelease s x).savedView = s.savedView := by
  unfold State.applyRelease; simp

@[simp] theorem State.startRestore_savedView (s : State) (c : SavedContext) :
    (State.startRestore s c).savedView = s.savedView := by
  unfold State.startRestore; simp [State.fold_savedView, State.savedView_mk]

@[simp] theorem State.resumeBatch_savedView (s : State) (b : SavedBatch) :
    (State.resumeBatch s b).savedView = s.savedView := by
  unfold State.resumeBatch; (repeat' split) <;> simp

@[simp] theorem State.viewChanged_savedView (s before : State) :
    (State.viewChanged s before).savedView = s.savedView := by
  unfold State.viewChanged; simp

@[simp] theorem State.declareMissing_savedView (s : State) (p : Nat) :
    (State.declareMissing s p).savedView = s.savedView := by
  unfold State.declareMissing; simp

@[simp] theorem State.applyLost_savedView (s : State) (p l : Nat) :
    (State.applyLost s p l).savedView = s.savedView := by
  unfold State.applyLost; simp

@[simp] theorem State.sendNotice_savedView (s : State) (notice subject lace effective : Nat) :
    (State.sendNotice s notice subject lace effective).savedView = s.savedView := by
  unfold State.sendNotice; simp

@[simp] theorem State.laceDown_savedView (s : State) (l cause : Nat) (notice : Bool) :
    (State.laceDown s l cause notice).savedView = s.savedView := by
  unfold State.laceDown; (repeat' split) <;> simp

@[simp] theorem State.retrain_savedView (s : State) (l : Nat) : (State.retrain s l).savedView = s.savedView := by
  unfold State.retrain; simp

@[simp] theorem State.noteReplay_savedView (s : State) (l : Nat) :
    (State.noteReplay s l).savedView = s.savedView := by
  unfold State.noteReplay; dsimp only; (repeat' split) <;> simp

@[simp] theorem State.countReplay_savedView (s : State) (l : Nat) :
    (State.countReplay s l).savedView = s.savedView := by
  unfold State.countReplay; simp

@[simp] theorem execLaceLightDetected_savedView (lace : Nat) (s : State) :
    (outcomeState s (execLaceLightDetected lace s)).savedView = s.savedView := by
  unfold execLaceLightDetected; simp

@[simp] theorem execLaceTrainingComplete_savedView (cyc lace : Nat) (s : State) :
    (outcomeState s (execLaceTrainingComplete cyc lace s)).savedView = s.savedView := by
  unfold execLaceTrainingComplete; (repeat' split) <;> simp

@[simp] theorem execLaceTrainingTimeout_savedView (cyc lace : Nat) (s : State) :
    (outcomeState s (execLaceTrainingTimeout cyc lace s)).savedView = s.savedView := by
  unfold execLaceTrainingTimeout; simp

@[simp] theorem execLaceMiswiredRetry_savedView (lace : Nat) (s : State) :
    (outcomeState s (execLaceMiswiredRetry lace s)).savedView = s.savedView := by
  unfold execLaceMiswiredRetry; (repeat' split) <;> simp

@[simp] theorem execRingHeaterStep_savedView (cyc lace : Nat) (step failed : Bool) (rxPower : Int) (s : State) :
    (outcomeState s (execRingHeaterStep cyc lace step failed rxPower s)).savedView = s.savedView := by
  unfold execRingHeaterStep; (repeat' split) <;> simp

@[simp] theorem execLaceLightLost_savedView (cyc lace : Nat) (s : State) :
    (outcomeState s (execLaceLightLost cyc lace s)).savedView = s.savedView := by
  unfold execLaceLightLost; simp

@[simp] theorem execHello_savedView (cyc lace : Nat) (m : HelloMsg) (s : State) :
    (outcomeState s (execHello cyc lace m s)).savedView = s.savedView := by
  unfold execHello; simp

@[simp] theorem execHelloAck_savedView (cyc lace : Nat) (m : HelloMsg) (echoFst : Nat) (s : State) :
    (outcomeState s (execHelloAck cyc lace m echoFst s)).savedView = s.savedView := by
  unfold execHelloAck; dsimp only; (repeat' split) <;> simp

@[simp] theorem execNotReady_savedView (lace retryAfter : Nat) (s : State) :
    (outcomeState s (execNotReady lace retryAfter s)).savedView = s.savedView := by
  unfold execNotReady; (repeat' split) <;> simp

@[simp] theorem State.laceEmit_savedView (s : State) (i : Nat) : (State.laceEmit s i).savedView = s.savedView := by
  unfold State.laceEmit; (repeat' split) <;> simp [State.fold_savedView, State.savedView_mk]

@[simp] theorem State.lacePoison_savedView (s : State) (flits : List Flit) :
    (State.lacePoison s flits).savedView = s.savedView := by
  unfold State.lacePoison; simp

@[simp] theorem State.dataPacket_savedView (s : State) (h : PacketHeader) (flits : List Flit) :
    (State.dataPacket s h flits).savedView = s.savedView := by
  unfold State.dataPacket; (repeat' split) <;> simp

@[simp] theorem State.rspPacket_savedView (s : State) (h : PacketHeader) (flits : List Flit) :
    (State.rspPacket s h flits).savedView = s.savedView := by
  unfold State.rspPacket; dsimp only; (repeat' split) <;> simp [State.fold_savedView, State.savedView_mk]

@[simp] theorem State.answerFlits_savedView (at_ : Nat → Nat) (first size total x0 x1 : Nat) (s : State) :
    (State.answerFlits at_ first size total x0 x1 s).2.savedView = s.savedView := by
  induction x0 generalizing s x1 with
  | zero => simp [State.answerFlits]
  | succ n ih => simp [State.answerFlits, ih]

@[simp] theorem State.storeAnswer_savedView (s : State) (e : TensorEntry) (first n : Nat) :
    (State.storeAnswer s e first n).2.savedView = s.savedView := by
  unfold State.storeAnswer; simp

@[simp] theorem State.reqPacket_savedView (s : State) (h : PacketHeader) :
    (State.reqPacket s h).savedView = s.savedView := by
  unfold State.reqPacket; dsimp only; (repeat' split) <;> simp

@[simp] theorem State.packetIn_savedView (s : State) (l vc : Nat) (h : PacketHeader) (flits : List Flit) :
    (State.packetIn s l vc h flits).savedView = s.savedView := by
  unfold State.packetIn; dsimp only; (repeat' split) <;> simp

@[simp] theorem State.slotIn_savedView (s : State) (l : Nat) (x : LaceSlot) :
    (State.slotIn s l x).savedView = s.savedView := by
  unfold State.slotIn; (repeat' split) <;> simp

@[simp] theorem State.frameLost_savedView (s : State) (l : Nat) (code : Bool) :
    (State.frameLost s l code).savedView = s.savedView := by
  unfold State.frameLost; simp

@[simp] theorem execLaceFrameReceived_savedView (cyc lace : Nat) (f : LaceFrame) (s : State) :
    (outcomeState s (execLaceFrameReceived cyc lace f s)).savedView = s.savedView := by
  unfold execLaceFrameReceived; (repeat' split) <;> simp

@[simp] theorem execReplayReq_savedView (cyc lace fromSeq : Nat) (s : State) :
    (outcomeState s (execReplayReq cyc lace fromSeq s)).savedView = s.savedView := by
  unfold execReplayReq; simp

@[simp] theorem State.see_savedView (s : State) (origin seq : Nat) :
    (State.see s origin seq).savedView = s.savedView := by
  unfold State.see; simp

@[simp] theorem State.hearReturned_savedView (s : State) (m : LinkNoticeMsg) :
    (State.hearReturned s m).savedView = s.savedView := by
  unfold State.hearReturned; dsimp only; (repeat' split) <;> simp

@[simp] theorem execLinkNotice_savedView (cyc lace : Nat) (m : LinkNoticeMsg) (s : State) :
    (outcomeState s (execLinkNotice cyc lace m s)).savedView = s.savedView := by
  unfold execLinkNotice; (repeat' split) <;> simp

@[simp] theorem execGoodbye_savedView (cyc lace position : Nat) (s : State) :
    (outcomeState s (execGoodbye cyc lace position s)).savedView = s.savedView := by
  unfold execGoodbye; (repeat' split) <;> simp

@[simp] theorem execSpanHello_savedView (cyc lace origin tag mask : Nat) (s : State) :
    (outcomeState s (execSpanHello cyc lace origin tag mask s)).savedView = s.savedView := by
  unfold execSpanHello; (repeat' split) <;> simp

@[simp] theorem execSpanFault_savedView (cyc lace origin seq tag subject : Nat) (s : State) :
    (outcomeState s (execSpanFault cyc lace origin seq tag subject s)).savedView = s.savedView := by
  unfold execSpanFault; (repeat' split) <;> simp

@[simp] theorem execSpanCommit_savedView (mask tag : Nat) (s : State) :
    (outcomeState s (execSpanCommit mask tag s)).savedView = s.savedView := by
  unfold execSpanCommit; (repeat' split) <;> simp [State.fold_savedView, State.savedView_mk]

@[simp] theorem State.startLeaving_savedView (s : State) (effective : Nat) :
    (State.startLeaving s effective).savedView = s.savedView := by
  unfold State.startLeaving; simp

@[simp] theorem execLeavingDrained_savedView (cyc lace : Nat) (s : State) :
    (outcomeState s (execLeavingDrained cyc lace s)).savedView = s.savedView := by
  unfold execLeavingDrained; simp

@[simp] theorem State.laceUp_savedView (s : State) (l : Nat) : (State.laceUp s l).savedView = s.savedView := by
  unfold State.laceUp; dsimp only; (repeat' split) <;> simp

@[simp] theorem State.laceSlot_savedView (s : State) (l : Nat) : (State.laceSlot s l).savedView = s.savedView := by
  unfold State.laceSlot; dsimp only; (repeat' split) <;> simp

@[simp] theorem State.laceWiden_savedView (s : State) (l : Nat) : (State.laceWiden s l).savedView = s.savedView := by
  unfold State.laceWiden; simp

@[simp] theorem State.applyReturned_savedView (s : State) (m : LinkNoticeMsg) :
    (State.applyReturned s m).savedView = s.savedView := by
  unfold State.applyReturned; simp

@[simp] theorem State.laceBoundary_savedView (s : State) (frame : Bool) :
    (State.laceBoundary s frame).savedView = s.savedView := by
  unfold State.laceBoundary; simp

@[simp] theorem State.eyeletOn_savedView (s : State) (e : Nat) : (State.eyeletOn s e).savedView = s.savedView := by
  unfold State.eyeletOn; simp

@[simp] theorem State.eyeletOff_savedView (s : State) (e : Nat) : (State.eyeletOff s e).savedView = s.savedView := by
  unfold State.eyeletOff; simp

@[simp] theorem execLaserInputLost_savedView (cyc eyelet input : Nat) (s : State) :
    (outcomeState s (execLaserInputLost cyc eyelet input s)).savedView = s.savedView := by
  unfold execLaserInputLost; (repeat' split) <;> simp

@[simp] theorem execLaserInputReturn_savedView (cyc eyelet input : Nat) (s : State) :
    (outcomeState s (execLaserInputReturn cyc eyelet input s)).savedView = s.savedView := by
  unfold execLaserInputReturn; (repeat' split) <;> simp

@[simp] theorem State.acceptLoad_savedView (s : State) (n image : Nat) (h : ImageHeader) :
    (State.acceptLoad s n image h).savedView = s.savedView := by
  unfold State.acceptLoad; simp [State.fold_savedView, State.savedView_mk]

@[simp] theorem execLoadRequest_savedView (slot image : Nat) (s : State) :
    (outcomeState s (execLoadRequest slot image s)).savedView = s.savedView := by
  unfold execLoadRequest; dsimp only; (repeat' split) <;> simp

@[simp] theorem execSlotFreeRequest_savedView (slot : Nat) (s : State) :
    (outcomeState s (execSlotFreeRequest slot s)).savedView = s.savedView := by
  unfold execSlotFreeRequest; (repeat' split) <;> simp [State.fold_savedView, State.savedView_mk]

@[simp] theorem execLoadBegin_savedView (s : State) : (outcomeState s (execLoadBegin s)).savedView = s.savedView := by
  unfold execLoadBegin; (repeat' split) <;> simp [State.fold_savedView, State.savedView_mk]

@[simp] theorem State.validateImage_savedView (s : State) (bs : List Byte) :
    (State.validateImage s bs).2.savedView = s.savedView := by
  unfold State.validateImage; dsimp only; (repeat' split) <;> simp

@[simp] theorem State.loadFailed_savedView (s : State) (n lastId : Nat) (e : LoadFault) :
    (State.loadFailed s n lastId e).savedView = s.savedView := by
  unfold State.loadFailed; simp [State.fold_savedView, State.savedView_mk]

@[simp] theorem State.loadReady_savedView (s : State) (n image : Nat) (m : Image) :
    (State.loadReady s n image m).savedView = s.savedView := by
  unfold State.loadReady; simp [State.fold_savedView, State.savedView_mk]

@[simp] theorem execLoadComplete_savedView (cyc : Nat) (s : State) :
    (outcomeState s (execLoadComplete cyc s)).savedView = s.savedView := by
  unfold execLoadComplete
  split
  · simp
  · dsimp only
    split
    · simp [State.fold_savedView, State.savedView_mk]
    · split <;> simp [State.fold_savedView, State.savedView_mk]

@[simp] theorem State.emptySlots_savedView (s : State) : (State.emptySlots s).savedView = s.savedView := by
  unfold State.emptySlots; simp [State.fold_savedView, State.savedView_mk]

@[simp] theorem State.loadInto_savedView (s : State) (image : Nat) (l : StagedLast) :
    (State.loadInto s image l).savedView = s.savedView := by
  unfold State.loadInto; dsimp only; (repeat' split) <;> simp

@[simp] theorem State.reload_savedView (s : State) : (State.reload s).savedView = s.savedView := by
  unfold State.reload; simp

@[simp] theorem State.placeTensor_savedView (s : State) (epoch number : Nat) (e : TensorEntry) (data : List Byte) :
    (State.placeTensor s epoch number e data).savedView = s.savedView := by
  exact State.savedView_foldl (fun t die => State.savedView_foldl (fun t i => by simp) _ t) _ s

@[simp] theorem State.placeShard_savedView (s : State) (r : Resident) (n : Nat) (data : List Byte) :
    (State.placeShard s r n data).savedView = s.savedView := by
  exact State.savedView_foldl (fun t x => by simp) _ s

@[simp] theorem State.placeAdapters_savedView (s : State) (m : Manifest) (n : Nat) (data : List Byte) :
    (State.placeAdapters s m n data).savedView = s.savedView := by
  exact State.savedView_foldl (fun t a => State.savedView_foldl (fun t x => by simp) _ t) _ s

@[simp] theorem State.commitSwitch_savedView (s : State) (kind target mode asked : Nat) :
    (State.commitSwitch s kind target mode asked).savedView = s.savedView := by
  unfold State.commitSwitch; (repeat' split) <;> simp [State.fold_savedView, State.savedView_mk]

@[simp] theorem execModelSwitchRequest_savedView (target mode plan : Nat) (s : State) :
    (outcomeState s (execModelSwitchRequest target mode plan s)).savedView = s.savedView := by
  unfold execModelSwitchRequest; simp

@[simp] theorem execEpochSwitchRequest_savedView (target plan : Nat) (s : State) :
    (outcomeState s (execEpochSwitchRequest target plan s)).savedView = s.savedView := by
  unfold execEpochSwitchRequest; simp

@[simp] theorem State.dropIncoming_savedView (s : State) : (State.dropIncoming s).savedView = s.savedView := by
  unfold State.dropIncoming; simp [State.fold_savedView, State.savedView_mk]

@[simp] theorem State.refuseHeld_savedView (s : State) : (State.refuseHeld s).savedView = s.savedView := by
  unfold State.refuseHeld; simp

@[simp] theorem State.endSwitch_savedView (s : State) (result : Nat) :
    (State.endSwitch s result).savedView = s.savedView := by
  unfold State.endSwitch; simp [State.fold_savedView, State.savedView_mk]

@[simp] theorem State.commitCancel_savedView (s : State) (value : Nat) :
    (State.commitCancel s value).savedView = s.savedView := by
  unfold State.commitCancel; (repeat' split) <;> simp

@[simp] theorem execSwitchCancel_savedView (value : Nat) (s : State) :
    (outcomeState s (execSwitchCancel value s)).savedView = s.savedView := by
  unfold execSwitchCancel; simp

@[simp] theorem State.storeLost_savedView (s : State) : (State.storeLost s).savedView = s.savedView := by
  unfold State.storeLost; simp

@[simp] theorem execStoreStackFailure_savedView (cyc stack : Nat) (s : State) :
    (outcomeState s (execStoreStackFailure cyc stack s)).savedView = s.savedView := by
  unfold execStoreStackFailure; (repeat' split) <;> simp

@[simp] theorem State.modStore_savedView (s : State) (f : Store → Store) :
    (State.modStore s f).savedView = s.savedView := by
  unfold State.modStore; simp [State.fold_savedView, State.savedView_mk]

@[simp] theorem State.mismatched_savedView (s : State) (n : Nat) :
    (State.mismatched s n).savedView = s.savedView := by
  unfold State.mismatched; simp

@[simp] theorem State.modStaging_savedView (s : State) (f : Staging → Staging) :
    (State.modStaging s f).savedView = s.savedView := by
  unfold State.modStaging; simp [State.fold_savedView, State.savedView_mk]

@[simp] theorem State.shardFailed_savedView (s : State) (tag n : Nat) (x : Shard) (set : Bool) :
    (State.shardFailed s tag n x set).savedView = s.savedView := by
  unfold State.shardFailed; simp

@[simp] theorem State.adapterArrival_savedView (s : State) (a : AdapterLoad) (rest : List AdapterLoad) (n : Nat)
    (readable : Bool) :
    (State.adapterArrival s a rest n readable).savedView = s.savedView := by
  unfold State.adapterArrival; dsimp only; (repeat' split) <;> simp [State.fold_savedView, State.savedView_mk]

@[simp] theorem State.stagingArrival_savedView (s : State) (g : Staging) (owner n : Nat) (readable : Bool) :
    (State.stagingArrival s g owner n readable).savedView = s.savedView := by
  unfold State.stagingArrival; dsimp only; (repeat' split) <;> simp

@[simp] theorem execShardArrival_savedView (cyc : Nat) (readable : Bool) (s : State) :
    (outcomeState s (execShardArrival cyc readable s)).savedView = s.savedView := by
  unfold execShardArrival; dsimp only; (repeat' split) <;> simp [State.fold_savedView, State.savedView_mk]

@[simp] theorem State.loadAhead_savedView (s : State) : (State.loadAhead s).savedView = s.savedView := by
  unfold State.loadAhead; (repeat' split) <;> simp

@[simp] theorem execStagingComplete_savedView (cyc : Nat) (s : State) :
    (outcomeState s (execStagingComplete cyc s)).savedView = s.savedView := by
  unfold execStagingComplete; (repeat' split) <;> simp [State.fold_savedView, State.savedView_mk]

@[simp] theorem State.loadFirst_savedView (t : State) (base : Nat) :
    (State.loadFirst t base).savedView = t.savedView := by
  unfold State.loadFirst; (repeat' split) <;> simp

@[simp] theorem execSwitchComplete_savedView (cyc : Nat) (s : State) :
    (outcomeState s (execSwitchComplete cyc s)).savedView = s.savedView := by
  unfold execSwitchComplete; (repeat' split) <;> simp [State.fold_savedView, State.savedView_mk]

@[simp] theorem State.epochCommit_savedView (s : State) : (State.epochCommit s).savedView = s.savedView := by
  unfold State.epochCommit; (repeat' split) <;> simp [State.fold_savedView, State.savedView_mk]

@[simp] theorem State.epochRelease_savedView (s : State) : (State.epochRelease s).savedView = s.savedView := by
  unfold State.epochRelease; (repeat' split) <;> simp [State.fold_savedView, State.savedView_mk]

@[simp] theorem State.shardLost_savedView (s : State) (r : Resident) (n : Nat) :
    (State.shardLost s r n).savedView = s.savedView := by
  unfold State.shardLost; simp [State.fold_savedView, State.savedView_mk]

@[simp] theorem State.refetched_savedView (s : State) (r : Resident) (n : Nat) (valid staged : Bool) :
    (State.refetched s r n valid staged).savedView = s.savedView := by
  unfold State.refetched; dsimp only; (repeat' split) <;> simp

@[simp] theorem execShardRefetchComplete_savedView (cyc shard : Nat) (valid : Bool) (s : State) :
    (outcomeState s (execShardRefetchComplete cyc shard valid s)).savedView = s.savedView := by
  unfold execShardRefetchComplete; dsimp only; (repeat' split) <;> simp

@[simp] theorem State.lineMatches_savedView (p : Bool × State) (mpa n : Nat) (want : List Byte) :
    (State.lineMatches p mpa n want).2.savedView = p.2.savedView := by
  unfold State.lineMatches; simp

@[simp] theorem State.copyMatches_savedView (s : State) (r : Resident) (number : Nat) (e : TensorEntry) (data : List
    Byte) :
    (State.copyMatches s r number e data).2.savedView = s.savedView := by
  unfold State.copyMatches
  exact State.savedView_foldl_snd (fun p die => State.savedView_foldl_snd (fun p i => by simp) _ p) _ _

@[simp] theorem State.copiesMatch_savedView (s : State) (r : Resident) (n : Nat) (data : List Byte) :
    (State.copiesMatch s r n data).2.savedView = s.savedView := by
  unfold State.copiesMatch
  exact State.savedView_foldl_snd (fun p x => by simp) _ _

@[simp] theorem State.digestScrub_savedView (s : State) : (State.digestScrub s).savedView = s.savedView := by
  unfold State.digestScrub; dsimp only; (repeat' split) <;> simp [State.fold_savedView, State.savedView_mk]

@[simp] theorem State.abandonOp_savedView (s : State) : (State.abandonOp s).savedView = s.savedView := by
  unfold State.abandonOp; simp

@[simp] theorem State.abandonStaging_savedView (s : State) : (State.abandonStaging s).savedView = s.savedView := by
  unfold State.abandonStaging; simp

@[simp] theorem execStrikeExpire_savedView (quadrant : Nat) (s : State) :
    (outcomeState s (execStrikeExpire quadrant s)).savedView = s.savedView := by
  unfold execStrikeExpire; (repeat' split) <;> simp

@[simp] theorem State.commitFence_savedView (s : State) (q value : Nat) :
    (State.commitFence s q value).savedView = s.savedView := by
  unfold State.commitFence; dsimp only; (repeat' split) <;> simp

@[simp] theorem execFenceCmd_savedView (cyc quadrant : Nat) (s : State) :
    (outcomeState s (execFenceCmd cyc quadrant s)).savedView = s.savedView := by
  unfold execFenceCmd; simp

@[simp] theorem execUnfenceCmd_savedView (cyc quadrant : Nat) (s : State) :
    (outcomeState s (execUnfenceCmd cyc quadrant s)).savedView = s.savedView := by
  unfold execUnfenceCmd; simp

@[simp] theorem State.judgeService_savedView (s : State) : (State.judgeService s).savedView = s.savedView := by
  unfold State.judgeService; simp [State.fold_savedView, State.savedView_mk]

@[simp] theorem State.reloadAll_savedView (s : State) : (State.reloadAll s).savedView = s.savedView := by
  unfold State.reloadAll; (repeat' split) <;> simp

@[simp] theorem State.fenceRecord_savedView (s : State) (before q : Nat) (fence : Bool) :
    (State.fenceRecord s before q fence).savedView = s.savedView := by
  unfold State.fenceRecord; simp

@[simp] theorem State.startSlices_savedView (s : State) (quads w : Nat) :
    (State.startSlices s quads w).savedView = s.savedView := by
  unfold State.startSlices; simp

@[simp] theorem State.endMaintenance_savedView (s : State) : (State.endMaintenance s).savedView = s.savedView := by
  unfold State.endMaintenance; (repeat' split) <;> simp [State.fold_savedView, State.savedView_mk]

@[simp] theorem execAwlTestComplete_savedView (cyc quadrant : Nat) (misr : BitVec 64) (s : State) :
    (outcomeState s (execAwlTestComplete cyc quadrant misr s)).savedView = s.savedView := by
  unfold execAwlTestComplete
  (repeat' split) <;> simp [State.fold_savedView, State.savedView_mk, apply_ite State.savedView]

@[simp] theorem State.commitAwlRun_savedView (s : State) (q value : Nat) :
    (State.commitAwlRun s q value).savedView = s.savedView := by
  unfold State.commitAwlRun; (repeat' split) <;> simp

@[simp] theorem execAwlRunTargeted_savedView (quadrant : Nat) (s : State) :
    (outcomeState s (execAwlRunTargeted quadrant s)).savedView = s.savedView := by
  unfold execAwlRunTargeted; simp

@[simp] theorem execAwlRunDestructive_savedView (quadrant : Nat) (s : State) :
    (outcomeState s (execAwlRunDestructive quadrant s)).savedView = s.savedView := by
  unfold execAwlRunDestructive; simp

@[simp] theorem State.commitAwlSet_savedView (s : State) (b : List Byte) :
    (State.commitAwlSet s b).savedView = s.savedView := by
  unfold State.commitAwlSet; dsimp only; (repeat' split) <;> simp [State.fold_savedView, State.savedView_mk]

@[simp] theorem execAwlSetLoad_savedView (cyc : Nat) (image : List Byte) (s : State) :
    (outcomeState s (execAwlSetLoad cyc image s)).savedView = s.savedView := by
  unfold execAwlSetLoad; simp

@[simp] theorem execPersistWriteComplete_savedView (s : State) :
    (outcomeState s (execPersistWriteComplete s)).savedView = s.savedView := by
  unfold execPersistWriteComplete; (repeat' split) <;> simp [State.fold_savedView, State.savedView_mk]

@[simp] theorem State.commitPersistClear_savedView (s : State) (value : Nat) :
    (State.commitPersistClear s value).savedView = s.savedView := by
  unfold State.commitPersistClear; (repeat' split) <;> simp [State.fold_savedView, State.savedView_mk]

@[simp] theorem execPersistClear_savedView (value : Nat) (s : State) :
    (outcomeState s (execPersistClear value s)).savedView = s.savedView := by
  unfold execPersistClear; simp

@[simp] theorem State.dropEntry_savedView (s : State) (e : PlanEntry) :
    (State.dropEntry s e).savedView = s.savedView := by
  unfold State.dropEntry; (repeat' split) <;> simp

@[simp] theorem State.issuePass_savedView (s : State) : (State.issuePass s).savedView = s.savedView := by
  unfold State.issuePass; dsimp only; (repeat' split) <;> simp [State.fold_savedView, State.savedView_mk]

@[simp] theorem State.runPass_savedView (s : State) (e : PlanEntry) :
    (State.runPass s e).savedView = s.savedView := by
  unfold State.runPass; (repeat' split) <;> simp [State.fold_savedView, State.savedView_mk]

@[simp] theorem State.runResume_savedView (s : State) (e : PlanEntry) :
    (State.runResume s e).savedView = s.savedView := by
  unfold State.runResume; (repeat' split) <;> simp [State.fold_savedView, State.savedView_mk]

@[simp] theorem State.moveStep_savedView (s : State) (n : Nat) : (State.moveStep s n).savedView = s.savedView := by
  unfold State.moveStep; simp [State.fold_savedView, State.savedView_mk]

@[simp] theorem State.askImage_savedView (s : State) (lastId : Nat) :
    (State.askImage s lastId).savedView = s.savedView := by
  unfold State.askImage; (repeat' split) <;> simp

@[simp] theorem State.startPass_savedView (s : State) (e : PlanEntry) :
    (State.startPass s e).savedView = s.savedView := by
  unfold State.startPass; simp [State.fold_savedView, State.savedView_mk]

@[simp] theorem State.startMaintenance_savedView (s : State) (e : PlanEntry) :
    (State.startMaintenance s e).savedView = s.savedView := by
  unfold State.startMaintenance; simp [State.fold_savedView, State.savedView_mk]

@[simp] theorem State.quiesce_savedView (s : State) : (State.quiesce s).savedView = s.savedView := by
  unfold State.quiesce; simp [State.fold_savedView, State.savedView_mk]

@[simp] theorem State.endOwn_savedView (s : State) (r : PassRun) : (State.endOwn s r).savedView = s.savedView := by
  unfold State.endOwn; simp

@[simp] theorem execPassEnd_savedView (cyc : Nat) (s : State) :
    (outcomeState s (execPassEnd cyc s)).savedView = s.savedView := by
  unfold execPassEnd; dsimp only; (repeat' split) <;> simp

@[simp] theorem execVoidingComplete_savedView (cyc : Nat) (s : State) :
    (outcomeState s (execVoidingComplete cyc s)).savedView = s.savedView := by
  unfold execVoidingComplete; (repeat' split) <;> simp [State.fold_savedView, State.savedView_mk]

@[simp] theorem State.heldBack_savedView (s : State) (e : PlanEntry) :
    (State.heldBack s e).savedView = s.savedView := by
  unfold State.heldBack; simp [State.fold_savedView, State.savedView_mk]

@[simp] theorem execSwapComplete_savedView (cyc : Nat) (s : State) :
    (outcomeState s (execSwapComplete cyc s)).savedView = s.savedView := by
  unfold execSwapComplete; dsimp only; (repeat' split) <;> simp

@[simp] theorem State.clearQuad_savedView (s : State) (q : Nat) : (State.clearQuad s q).savedView = s.savedView := by
  unfold State.clearQuad; simp [State.fold_savedView, State.savedView_mk]

@[simp] theorem State.loseStack_savedView (s : State) (n : Nat) (state : StackState) :
    (State.loseStack s n state).savedView = s.savedView := by
  unfold State.loseStack; simp

@[simp] theorem State.stackOff_savedView (s : State) (n : Nat) : (State.stackOff s n).savedView = s.savedView := by
  unfold State.stackOff; simp

@[simp] theorem State.storeOff_savedView (s : State) (g : Nat) : (State.storeOff s g).savedView = s.savedView := by
  unfold State.storeOff; simp

@[simp] theorem State.unitsOn_savedView (s : State) (d : Nat) : (State.unitsOn s d).savedView = s.savedView := by
  unfold State.unitsOn
  split
  · simp
  · (repeat' split) <;> simp

@[simp] theorem State.unitsOff_savedView (s : State) (d : Nat) : (State.unitsOff s d).savedView = s.savedView := by
  unfold State.unitsOff
  (repeat' split) <;> simp

@[simp] theorem State.startDomain_savedView (s : State) (d : Nat) :
    (State.startDomain s d).savedView = s.savedView := by
  unfold State.startDomain; simp

@[simp] theorem State.stopDomain_savedView (s : State) (d : Nat) :
    (State.stopDomain s d).savedView = s.savedView := by
  unfold State.stopDomain; simp

@[simp] theorem State.addPending_savedView (s : State) (d : Nat) :
    (State.addPending s d).savedView = s.savedView := by
  unfold State.addPending; simp

@[simp] theorem State.enableDomain_savedView (s : State) (d : Nat) :
    (State.enableDomain s d).2.savedView = s.savedView := by
  unfold State.enableDomain; dsimp only; (repeat' split) <;> simp

@[simp] theorem State.disableDomain_savedView (s : State) (d : Nat) :
    (State.disableDomain s d).2.savedView = s.savedView := by
  unfold State.disableDomain; dsimp only; (repeat' split) <;> simp

@[simp] theorem State.commitDomain_savedView (s : State) (d value : Nat) :
    (State.commitDomain s d value).savedView = s.savedView := by
  unfold State.commitDomain; dsimp only; (repeat' split) <;> simp

@[simp] theorem execDomainEnable_savedView (cyc domain : Nat) (s : State) :
    (outcomeState s (execDomainEnable cyc domain s)).savedView = s.savedView := by
  unfold execDomainEnable; simp

@[simp] theorem execDomainDisable_savedView (cyc domain : Nat) (s : State) :
    (outcomeState s (execDomainDisable cyc domain s)).savedView = s.savedView := by
  unfold execDomainDisable; simp

@[simp] theorem State.stopGroup_savedView (s : State) (g : List Nat) :
    (State.stopGroup s g).savedView = s.savedView := by
  unfold State.stopGroup
  refine State.savedView_foldl (fun t d => ?_) g s
  split <;> simp

@[simp] theorem State.stopNext_savedView (x0 : Nat) (s : State) : (State.stopNext x0 s).savedView = s.savedView := by
  induction x0 generalizing s with
  | zero => simp [State.stopNext]
  | succ n ih =>
    unfold State.stopNext
    split
    · simp
    · split <;> simp [ih, State.fold_savedView, State.savedView_mk]

@[simp] theorem State.drainOn_savedView (s : State) : (State.drainOn s).savedView = s.savedView := by
  unfold State.drainOn; dsimp only; (repeat' split) <;> simp [State.fold_savedView, State.savedView_mk]

@[simp] theorem State.shutEnds_savedView (s : State) : (State.shutEnds s).savedView = s.savedView := by
  unfold State.shutEnds; (repeat' split) <;> simp [State.fold_savedView, State.savedView_mk]

@[simp] theorem State.stopOn_savedView (s : State) : (State.stopOn s).savedView = s.savedView := by
  unfold State.stopOn; (repeat' split) <;> simp

@[simp] theorem State.beginStop_savedView (s : State) (reason : StopReason) (order : List (List Nat)) :
    (State.beginStop s reason order).savedView = s.savedView := by
  unfold State.beginStop; simp [State.fold_savedView, State.savedView_mk]

@[simp] theorem State.cutDomain_savedView (s : State) (d : Nat) (bits_ : BitVec 16) :
    (State.cutDomain s d bits_).savedView = s.savedView := by
  unfold State.cutDomain
  dsimp only
  (repeat' split) <;> simp [State.fold_savedView, State.savedView_mk]

@[simp] theorem State.failDomain_savedView (s : State) (d : Nat) (bits_ : BitVec 16) :
    (State.failDomain s d bits_).savedView = s.savedView := by
  unfold State.failDomain; simp

@[simp] theorem execDomainRailFault_savedView (cyc domain : Nat) (bits : BitVec 16) (s : State) :
    (outcomeState s (execDomainRailFault cyc domain bits s)).savedView = s.savedView := by
  unfold execDomainRailFault; simp

@[simp] theorem execDomainTimeout_savedView (cyc domain : Nat) (s : State) :
    (outcomeState s (execDomainTimeout cyc domain s)).savedView = s.savedView := by
  unfold execDomainTimeout; simp; (repeat' split) <;> simp

@[simp] theorem State.clearFault_savedView (s : State) (d : Nat) (value : BitVec 32) :
    (State.clearFault s d value).savedView = s.savedView := by
  unfold State.clearFault; simp

@[simp] theorem execFaultClear_savedView (domain : Nat) (value : BitVec 32) (s : State) :
    (outcomeState s (execFaultClear domain value s)).savedView = s.savedView := by
  unfold execFaultClear; simp

@[simp] theorem execDomainStartComplete_savedView (cyc domain : Nat) (s : State) :
    (outcomeState s (execDomainStartComplete cyc domain s)).savedView = s.savedView := by
  unfold execDomainStartComplete; simp; (repeat' split) <;> simp

@[simp] theorem execDomainStopComplete_savedView (cyc domain : Nat) (s : State) :
    (outcomeState s (execDomainStopComplete cyc domain s)).savedView = s.savedView := by
  unfold execDomainStopComplete; simp; (repeat' split) <;> simp

@[simp] theorem execMinOffTimeExpiry_savedView (cyc domain : Nat) (s : State) :
    (outcomeState s (execMinOffTimeExpiry cyc domain s)).savedView = s.savedView := by
  unfold execMinOffTimeExpiry; simp

@[simp] theorem State.cutAll_savedView (s : State) (bits_ : BitVec 16) :
    (State.cutAll s bits_).savedView = s.savedView := by
  unfold State.cutAll
  simp

@[simp] theorem execThermalTrip_savedView (cyc sensor : Nat) (s : State) :
    (outcomeState s (execThermalTrip cyc sensor s)).savedView = s.savedView := by
  unfold execThermalTrip; (repeat' split) <;> simp [State.fold_savedView, State.savedView_mk]

@[simp] theorem execVinUndervoltage_savedView (cyc : Nat) (s : State) :
    (outcomeState s (execVinUndervoltage cyc s)).savedView = s.savedView := by
  unfold execVinUndervoltage; (repeat' split) <;> simp [State.fold_savedView, State.savedView_mk]

@[simp] theorem execVinCoreLoss_savedView (s : State) :
    (outcomeState s (execVinCoreLoss s)).savedView = s.savedView := by
  unfold execVinCoreLoss; simp [State.fold_savedView, State.savedView_mk]

@[simp] theorem State.capChanged_savedView (s : State) : (State.capChanged s).savedView = s.savedView := by
  unfold State.capChanged; simp

@[simp] theorem State.capFastEvent_savedView (s before : State) :
    (State.capFastEvent s before).savedView = s.savedView := by
  unfold State.capFastEvent; simp

@[simp] theorem execCapFastLevelChange_savedView (cyc level : Nat) (s : State) :
    (outcomeState s (execCapFastLevelChange cyc level s)).savedView = s.savedView := by
  unfold execCapFastLevelChange; simp [State.fold_savedView, State.savedView_mk]

@[simp] theorem State.fastBoundary_savedView (s : State) : (State.fastBoundary s).savedView = s.savedView := by
  unfold State.fastBoundary; (repeat' split) <;> simp [State.fold_savedView, State.savedView_mk]

@[simp] theorem State.commitCap_savedView (s : State) (sub value : Nat) :
    (State.commitCap s sub value).savedView = s.savedView := by
  unfold State.commitCap; (repeat' split) <;> simp

@[simp] theorem State.commitFloor_savedView (s : State) (before value : Nat) :
    (State.commitFloor s before value).savedView = s.savedView := by
  unfold State.commitFloor; (repeat' split) <;> simp [State.fold_savedView, State.savedView_mk]

@[simp] theorem State.thermalBoundary_savedView (s : State) (temperature : Int) (frame : Bool) :
    (State.thermalBoundary s temperature frame).savedView = s.savedView := by
  unfold State.thermalBoundary; simp [State.fold_savedView, State.savedView_mk]

@[simp] theorem execPwrFailWarn_savedView (cyc : Nat) (s : State) :
    (outcomeState s (execPwrFailWarn cyc s)).savedView = s.savedView := by
  unfold execPwrFailWarn; (repeat' split) <;> simp [State.fold_savedView, State.savedView_mk]

@[simp] theorem execPwrFailWarnClear_savedView (s : State) :
    (outcomeState s (execPwrFailWarnClear s)).savedView = s.savedView := by
  unfold execPwrFailWarnClear; simp [State.fold_savedView, State.savedView_mk]

@[simp] theorem execPowerFailShutdown_savedView (cyc : Nat) (s : State) :
    (outcomeState s (execPowerFailShutdown cyc s)).savedView = s.savedView := by
  unfold execPowerFailShutdown; (repeat' split) <;> simp [State.fold_savedView, State.savedView_mk]

@[simp] theorem execEjectReq_savedView (s : State) : (outcomeState s (execEjectReq s)).savedView = s.savedView := by
  unfold execEjectReq; (repeat' split) <;> simp [State.fold_savedView, State.savedView_mk]

@[simp] theorem State.startDrain_savedView (s : State) : (State.startDrain s).savedView = s.savedView := by
  unfold State.startDrain; simp [State.fold_savedView, State.savedView_mk]

@[simp] theorem State.drainFrame_savedView (s : State) : (State.drainFrame s).savedView = s.savedView := by
  unfold State.drainFrame; (repeat' split) <;> simp [State.fold_savedView, State.savedView_mk]

@[simp] theorem State.drainBoundary_savedView (s : State) : (State.drainBoundary s).savedView = s.savedView := by
  unfold State.drainBoundary; (repeat' split) <;> simp

@[simp] theorem execEjectNoticeTimeout_savedView (cyc : Nat) (s : State) :
    (outcomeState s (execEjectNoticeTimeout cyc s)).savedView = s.savedView := by
  unfold execEjectNoticeTimeout; simp [State.fold_savedView, State.savedView_mk]

@[simp] theorem execEjectReady_savedView (cyc : Nat) (s : State) :
    (outcomeState s (execEjectReady cyc s)).savedView = s.savedView := by
  unfold execEjectReady; (repeat' split) <;> simp [State.fold_savedView, State.savedView_mk]

@[simp] theorem execSurpriseRemoval_savedView (s : State) :
    (outcomeState s (execSurpriseRemoval s)).savedView = s.savedView := by
  unfold execSurpriseRemoval; (repeat' split) <;> simp [State.fold_savedView, State.savedView_mk]

@[simp] theorem State.verifyKeys_savedView (s : State) (x0 : List (List Byte)) :
    (State.verifyKeys s x0).2.savedView = s.savedView := by
  induction x0 generalizing s with
  | nil => simp [State.verifyKeys]
  | cons b bs ih =>
    unfold State.verifyKeys
    dsimp only
    split <;> simp [ih]

@[simp] theorem State.commitKeys_savedView (s : State) (records : List Byte) :
    (State.commitKeys s records).savedView = s.savedView := by
  unfold State.commitKeys; dsimp only; (repeat' split) <;> simp [State.fold_savedView, State.savedView_mk]

@[simp] theorem execKeyUpdate_savedView (cyc : Nat) (records : List Byte) (s : State) :
    (outcomeState s (execKeyUpdate cyc records s)).savedView = s.savedView := by
  unfold execKeyUpdate; simp

@[simp] theorem State.newNonce_savedView (s : State) : (State.newNonce s).savedView = s.savedView := by
  unfold State.newNonce; simp [State.fold_savedView, State.savedView_mk]

@[simp] theorem State.enrol_savedView (s : State) (b : List Byte) : (State.enrol s b).savedView = s.savedView := by
  unfold State.enrol; (repeat' split) <;> simp [State.fold_savedView, State.savedView_mk]

@[simp] theorem State.release_savedView (s : State) : (State.release s).savedView = s.savedView := by
  unfold State.release; dsimp only; (repeat' split) <;> simp [State.fold_savedView, State.savedView_mk]

@[simp] theorem State.unlockDebug_savedView (s : State) : (State.unlockDebug s).savedView = s.savedView := by
  unfold State.unlockDebug; simp [State.fold_savedView, State.savedView_mk]

@[simp] theorem State.commitTicket_savedView (s : State) (kind : Nat) (ticket cosign : List Byte) :
    (State.commitTicket s kind ticket cosign).savedView = s.savedView := by
  unfold State.commitTicket; dsimp only; (repeat' split) <;> simp

@[simp] theorem execEnrolTicket_savedView (cyc : Nat) (ticket : List Byte) (s : State) :
    (outcomeState s (execEnrolTicket cyc ticket s)).savedView = s.savedView := by
  unfold execEnrolTicket; simp

@[simp] theorem execReleaseTicket_savedView (cyc : Nat) (ticket : List Byte) (s : State) :
    (outcomeState s (execReleaseTicket cyc ticket s)).savedView = s.savedView := by
  unfold execReleaseTicket; simp

@[simp] theorem execDebugUnlockTicket_savedView (cyc : Nat) (ticket cosign : List Byte) (s : State) :
    (outcomeState s (execDebugUnlockTicket cyc ticket cosign s)).savedView = s.savedView := by
  unfold execDebugUnlockTicket; simp

@[simp] theorem State.commitAttest_savedView (s : State) (nonce : List Byte) :
    (State.commitAttest s nonce).savedView = s.savedView := by
  unfold State.commitAttest; (repeat' split) <;> simp [State.fold_savedView, State.savedView_mk]

@[simp] theorem execAttestRequest_savedView (cyc : Nat) (nonce : List Byte) (s : State) :
    (outcomeState s (execAttestRequest cyc nonce s)).savedView = s.savedView := by
  unfold execAttestRequest; simp

@[simp] theorem execAttestReportReady_savedView (cyc : Nat) (s : State) :
    (outcomeState s (execAttestReportReady cyc s)).savedView = s.savedView := by
  unfold execAttestReportReady; (repeat' split) <;> simp [State.fold_savedView, State.savedView_mk]

@[simp] theorem State.commitSvn_savedView (s : State) (value : Nat) :
    (State.commitSvn s value).savedView = s.savedView := by
  unfold State.commitSvn; dsimp only; (repeat' split) <;> simp [State.fold_savedView, State.savedView_mk]

@[simp] theorem execSvnRaise_savedView (cyc : Nat) (s : State) :
    (outcomeState s (execSvnRaise cyc s)).savedView = s.savedView := by
  unfold execSvnRaise; simp

@[simp] theorem State.firmwareReset_savedView (s : State) : (State.firmwareReset s).savedView = s.savedView := by
  unfold State.firmwareReset Dict.rollBack
  simp [State.fold_savedView, State.savedView_mk]

@[simp] theorem State.beginReset_savedView (s : State) (cause : Nat) :
    (State.beginReset s cause).savedView = s.savedView := by
  unfold State.beginReset; (repeat' split) <;> simp

@[simp] theorem State.beginCommanded_savedView (s : State) : (State.beginCommanded s).savedView = s.savedView := by
  unfold State.beginCommanded; (repeat' split) <;> simp [State.fold_savedView, State.savedView_mk]

@[simp] theorem State.commitReset_savedView (s : State) (value : Nat) :
    (State.commitReset s value).savedView = s.savedView := by
  unfold State.commitReset; (repeat' split) <;> simp [State.fold_savedView, State.savedView_mk]

@[simp] theorem execResetModuleCmd_savedView (cyc : Nat) (s : State) :
    (outcomeState s (execResetModuleCmd cyc s)).savedView = s.savedView := by
  unfold execResetModuleCmd; simp

@[simp] theorem execResetFirmwareCmd_savedView (cyc : Nat) (s : State) :
    (outcomeState s (execResetFirmwareCmd cyc s)).savedView = s.savedView := by
  unfold execResetFirmwareCmd; simp

@[simp] theorem execModuleResetPin_savedView (cyc : Nat) (s : State) :
    (outcomeState s (execModuleResetPin cyc s)).savedView = s.savedView := by
  unfold execModuleResetPin; simp [State.fold_savedView, State.savedView_mk]

@[simp] theorem execWatchdogExpire_savedView (cyc : Nat) (s : State) :
    (outcomeState s (execWatchdogExpire cyc s)).savedView = s.savedView := by
  unfold execWatchdogExpire; simp

@[simp] theorem State.fwCheck_savedView (s : State) (image : List Byte) :
    (State.fwCheck s image).2.savedView = s.savedView := by
  unfold State.fwCheck; dsimp only; (repeat' split) <;> simp

@[simp] theorem State.tryBanks_savedView (s : State) (x0 : List Nat) :
    (State.tryBanks s x0).2.savedView = s.savedView := by
  induction x0 generalizing s with
  | nil => simp [State.tryBanks]
  | cons n ns ih =>
    unfold State.tryBanks
    split
    · split
      · dsimp only
        split <;> simp [ih]
      · simp [ih]
    · simp [ih]

@[simp] theorem State.runBank_savedView (s : State) (n : Nat) : (State.runBank s n).savedView = s.savedView := by
  unfold State.runBank; simp [State.fold_savedView, State.savedView_mk]

@[simp] theorem State.chooseBank_savedView (s : State) : (State.chooseBank s).savedView = s.savedView := by
  unfold State.chooseBank
  dsimp only
  (repeat' split) <;> simp [State.fold_savedView, State.savedView_mk]

@[simp] theorem State.commitFwLoad_savedView (s : State) (image : List Byte) :
    (State.commitFwLoad s image).savedView = s.savedView := by
  unfold State.commitFwLoad; dsimp only; (repeat' split) <;> simp [State.fold_savedView, State.savedView_mk]

@[simp] theorem execFwLoad_savedView (cyc : Nat) (image : List Byte) (s : State) :
    (outcomeState s (execFwLoad cyc image s)).savedView = s.savedView := by
  unfold execFwLoad; simp

@[simp] theorem execFwLoadComplete_savedView (cyc : Nat) (matched : Bool) (s : State) :
    (outcomeState s (execFwLoadComplete cyc matched s)).savedView = s.savedView := by
  unfold execFwLoadComplete; (repeat' split) <;> simp [State.fold_savedView, State.savedView_mk]

@[simp] theorem State.commitActivate_savedView (s : State) (value : Nat) :
    (State.commitActivate s value).savedView = s.savedView := by
  unfold State.commitActivate; (repeat' split) <;> simp [State.fold_savedView, State.savedView_mk]

@[simp] theorem execFwActivate_savedView (s : State) :
    (outcomeState s (execFwActivate s)).savedView = s.savedView := by
  unfold execFwActivate; simp

@[simp] theorem execFwDeactivate_savedView (s : State) :
    (outcomeState s (execFwDeactivate s)).savedView = s.savedView := by
  unfold execFwDeactivate; simp

@[simp] theorem State.commitServe_savedView (s : State) (value : Nat) :
    (State.commitServe s value).savedView = s.savedView := by
  unfold State.commitServe; (repeat' split) <;> simp [State.fold_savedView, State.savedView_mk]

@[simp] theorem execServeStart_savedView (cyc : Nat) (s : State) :
    (outcomeState s (execServeStart cyc s)).savedView = s.savedView := by
  unfold execServeStart; simp

@[simp] theorem execServeStop_savedView (s : State) : (outcomeState s (execServeStop s)).savedView = s.savedView := by
  unfold execServeStop; simp

@[simp] theorem State.readMemories_savedView (s : State) (ms : List (Option (List Byte))) :
    (State.readMemories s ms).savedView = s.savedView := by
  unfold State.readMemories; simp [State.fold_savedView, State.savedView_mk]

@[simp] theorem State.applyTray_savedView (s : State) : (State.applyTray s).savedView = s.savedView := by
  unfold State.applyTray; simp [State.fold_savedView, State.savedView_mk]

@[simp] theorem State.applyBackplane_savedView (s : State) : (State.applyBackplane s).savedView = s.savedView := by
  unfold State.applyBackplane; simp

@[simp] theorem State.applyLasers_savedView (s : State) : (State.applyLasers s).savedView = s.savedView := by
  unfold State.applyLasers; simp

@[simp] theorem State.fieldStart_savedView (s : State) : (State.fieldStart s).savedView = s.savedView := by
  unfold State.fieldStart; simp [State.fold_savedView, State.savedView_mk]

@[simp] theorem State.fieldRestart_savedView (s : State) : (State.fieldRestart s).savedView = s.savedView := by
  unfold State.fieldRestart; simp [State.fold_savedView, State.savedView_mk]

@[simp] theorem State.applyIdentity_savedView (s : State) : (State.applyIdentity s).savedView = s.savedView := by
  unfold State.applyIdentity; simp [State.fold_savedView, State.savedView_mk]

@[simp] theorem execIdentityReread_savedView (cyc : Nat) (memories : List (Option (List Byte))) (s : State) :
    (outcomeState s (execIdentityReread cyc memories s)).savedView = s.savedView := by
  unfold execIdentityReread; simp [State.fold_savedView, State.savedView_mk]

@[simp] theorem State.itemBegan_savedView (s : State) (row part : Nat) :
    (State.itemBegan s row part).savedView = s.savedView := by
  unfold State.itemBegan; simp [State.fold_savedView, State.savedView_mk]

@[simp] theorem State.firmwareStarts_savedView (s : State) : (State.firmwareStarts s).savedView = s.savedView := by
  unfold State.firmwareStarts; dsimp only; (repeat' split) <;> simp [State.fold_savedView, State.savedView_mk]

@[simp] theorem State.pushedRuns_savedView (s : State) : (State.pushedRuns s).savedView = s.savedView := by
  unfold State.pushedRuns; simp

@[simp] theorem execBringupItemStart_savedView (cyc row part : Nat) (env : BringupEnv) (s : State) :
    (outcomeState s (execBringupItemStart cyc row part env s)).savedView = s.savedView := by
  unfold execBringupItemStart
  rw [outcomeState_onUnit]
  dsimp only
  split
  · split
    · simp
    · (repeat' split) <;> simp
  · simp

@[simp] theorem execBringupTimeout_savedView (cyc row : Nat) (s : State) :
    (outcomeState s (execBringupTimeout cyc row s)).savedView = s.savedView := by
  unfold execBringupTimeout
  rw [outcomeState_onUnit]
  dsimp only
  split
  · split
    · simp
    · simp
  · simp

@[simp] theorem State.becomeReady_savedView (s : State) : (State.becomeReady s).savedView = s.savedView := by
  unfold State.becomeReady; simp [State.fold_savedView, State.savedView_mk]

@[simp] theorem State.placeBoundary_savedView (s : State) : (State.placeBoundary s).savedView = s.savedView := by
  unfold State.placeBoundary; simp [State.fold_savedView, State.savedView_mk]

@[simp] theorem State.realign_savedView (s : State) (ended cyc : Nat) :
    (State.realign s ended cyc).savedView = s.savedView := by
  unfold State.realign; simp [State.fold_savedView, State.savedView_mk]

@[simp] theorem execFrefEdge_savedView (refclks : Nat) (s : State) :
    (outcomeState s (execFrefEdge refclks s)).savedView = s.savedView := by
  unfold execFrefEdge; dsimp only; (repeat' split) <;> simp [State.fold_savedView, State.savedView_mk]

@[simp] theorem State.openHoldover_savedView (s : State) : (State.openHoldover s).savedView = s.savedView := by
  unfold State.openHoldover; simp [State.fold_savedView, State.savedView_mk]

@[simp] theorem State.filterPhase_savedView (s : State) : (State.filterPhase s).savedView = s.savedView := by
  unfold State.filterPhase; simp [State.fold_savedView, State.savedView_mk]

@[simp] theorem State.lock_savedView (s : State) : (State.lock s).savedView = s.savedView := by
  unfold State.lock; (repeat' split) <;> simp [State.fold_savedView, State.savedView_mk]

@[simp] theorem State.validPulse_savedView (s : State) (wide : Bool) :
    (State.validPulse s wide).savedView = s.savedView := by
  unfold State.validPulse; dsimp only; (repeat' split) <;> simp [State.fold_savedView, State.savedView_mk]

@[simp] theorem State.jumpPulse_savedView (s : State) (e : FrefEdge) (wide : Bool) :
    (State.jumpPulse s e wide).savedView = s.savedView := by
  unfold State.jumpPulse; dsimp only; (repeat' split) <;> simp [State.fold_savedView, State.savedView_mk]

@[simp] theorem execFrefPulseClassified_savedView (cyc highTime : Nat) (s : State) :
    (outcomeState s (execFrefPulseClassified cyc highTime s)).savedView = s.savedView := by
  unfold execFrefPulseClassified; (repeat' split) <;> simp [State.fold_savedView, State.savedView_mk]

@[simp] theorem execFlywheelBoundary_savedView (s : State) :
    (outcomeState s (execFlywheelBoundary s)).savedView = s.savedView := by
  unfold execFlywheelBoundary; dsimp only; (repeat' split) <;> simp [State.fold_savedView, State.savedView_mk]

@[simp] theorem execRefclkLoss_savedView (s : State) :
    (outcomeState s (execRefclkLoss s)).savedView = s.savedView := by
  unfold execRefclkLoss; simp [State.fold_savedView, State.savedView_mk]

@[simp] theorem execRefclkReturn_savedView (cycles : Nat) (s : State) :
    (outcomeState s (execRefclkReturn cycles s)).savedView = s.savedView := by
  unfold execRefclkReturn; simp [State.fold_savedView, State.savedView_mk]

@[simp] theorem execFrameCountLoad_savedView (value : Nat) (s : State) :
    (outcomeState s (execFrameCountLoad value s)).savedView = s.savedView := by
  unfold execFrameCountLoad; (repeat' split) <;> simp [State.fold_savedView, State.savedView_mk]

@[simp] theorem execRealignArm_savedView (s : State) :
    (outcomeState s (execRealignArm s)).savedView = s.savedView := by
  unfold execRealignArm; simp [State.fold_savedView, State.savedView_mk]

@[simp] theorem execRealignDisarm_savedView (s : State) :
    (outcomeState s (execRealignDisarm s)).savedView = s.savedView := by
  unfold execRealignDisarm; simp [State.fold_savedView, State.savedView_mk]

@[simp] theorem State.preset_savedView (t : State) (x : StagedItem) : (State.preset t x).savedView = t.savedView := by
  unfold State.preset; (repeat' split) <;> simp [State.fold_savedView, State.savedView_mk]

@[simp] theorem State.presetAll_savedView (s : State) (xs : List StagedItem) :
    (State.presetAll s xs).savedView = s.savedView := by
  unfold State.presetAll
  dsimp only
  split <;> simp

@[simp] theorem State.commitPlanner_savedView (t : State) (xs : List StagedItem) (sub : Nat) :
    (State.commitPlanner t xs sub).savedView = t.savedView := by
  unfold State.commitPlanner; simp

@[simp] theorem State.commitPark_savedView (t before : State) (sub : Nat) :
    (State.commitPark t before sub).savedView = t.savedView := by
  unfold State.commitPark; simp

@[simp] theorem State.commitStore_savedView (t : State) (xs : List StagedItem) (sub value : Nat) :
    (State.commitStore t xs sub value).savedView = t.savedView := by
  unfold State.commitStore; (repeat' split) <;> simp

@[simp] theorem State.commitStaging_savedView (t : State) (xs : List StagedItem) (sub value : Nat) :
    (State.commitStaging t xs sub value).savedView = t.savedView := by
  unfold State.commitStaging; (repeat' split) <;> simp

@[simp] theorem State.commitSpan_savedView (t : State) (xs : List StagedItem) (x : StagedItem) :
    (State.commitSpan t xs x).savedView = t.savedView := by
  unfold State.commitSpan; simp

@[simp] theorem State.commitDispatch_savedView (t before : State) (sub : Nat) (b : List Byte) :
    (State.commitDispatch t before sub b).savedView = t.savedView := by
  unfold State.commitDispatch; (repeat' split) <;> simp [State.fold_savedView, State.savedView_mk]

@[simp] theorem State.commitLink_savedView (t : State) (sub value : Nat) :
    (State.commitLink t sub value).savedView = t.savedView := by
  unfold State.commitLink; (repeat' split) <;> simp

@[simp] theorem State.commitCaps_savedView (t before : State) (xs : List StagedItem) (sub value : Nat) :
    (State.commitCaps t before xs sub value).savedView = t.savedView := by
  unfold State.commitCaps; dsimp only; (repeat' split) <;> simp

@[simp] theorem State.commitTickets_savedView (t : State) (xs : List StagedItem) (x : StagedItem) :
    (State.commitTickets t xs x).savedView = t.savedView := by
  unfold State.commitTickets; (repeat' split) <;> simp

@[simp] theorem State.commitBudgets_savedView (t : State) (b : List Byte) :
    (State.commitBudgets t b).savedView = t.savedView := by
  unfold State.commitBudgets; (repeat' split) <;> simp [State.fold_savedView, State.savedView_mk]

@[simp] theorem State.commitItem_savedView (t before : State) (xs : List StagedItem) (x : StagedItem) :
    (State.commitItem t before xs x).savedView = t.savedView := by
  unfold State.commitItem; dsimp only; (repeat' split) <;> simp

@[simp] theorem State.commitItems_savedView (before : State) (xs l : List StagedItem) (t : State) :
    (State.commitItems before xs l t).1.savedView = t.savedView := by
  induction l generalizing t with
  | nil => simp [State.commitItems]
  | cons x rest ih =>
    unfold State.commitItems
    dsimp only
    (repeat' split) <;> simp [ih]

@[simp] theorem State.refusedBy_savedView (s t : State) : (State.refusedBy s t).savedView = s.savedView := by
  unfold State.refusedBy; (repeat' split) <;> simp [State.fold_savedView, State.savedView_mk]

@[simp] theorem State.commitAll_savedView (s : State) (xs : List StagedItem) :
    (State.commitAll s xs).1.savedView = s.savedView := by
  unfold State.commitAll
  dsimp only
  split <;> simp

@[simp] theorem execObjectWrite_savedView (cyc index sub : Nat) (value : List Byte) (s : State) :
    (outcomeState s (execObjectWrite cyc index sub value s)).savedView = s.savedView := by
  unfold execObjectWrite; (repeat' split) <;> simp

@[simp] theorem State.modTx_savedView (s : State) (id : Nat) (f : Tx → Tx) :
    (State.modTx s id f).savedView = s.savedView := by
  unfold State.modTx; simp [State.fold_savedView, State.savedView_mk]

@[simp] theorem State.touchTx_savedView (s : State) (rq : Request) :
    (State.touchTx s rq).savedView = s.savedView := by
  unfold State.touchTx; simp [State.fold_savedView, State.savedView_mk]

@[simp] theorem State.endTx_savedView (s : State) (x : Tx) : (State.endTx s x).savedView = s.savedView := by
  unfold State.endTx; simp [State.fold_savedView, State.savedView_mk]

@[simp] theorem State.rollTx_savedView (s : State) (x : Tx) : (State.rollTx s x).savedView = s.savedView := by
  unfold State.rollTx; simp [State.fold_savedView, State.savedView_mk]

@[simp] theorem State.lookDomain_savedView (s : State) (key : Nat) (content : List Byte) :
    (State.lookDomain s key content).2.savedView = s.savedView := by
  unfold State.lookDomain; (repeat' split) <;> simp [State.fold_savedView, State.savedView_mk]

@[simp] theorem State.itemValue_savedView (s : State) (staged : List StagedItem) (index sub : Nat) :
    (State.itemValue s staged index sub).2.savedView = s.savedView := by
  unfold State.itemValue; (repeat' split) <;> simp

@[simp] theorem State.readItem_savedView (staged : List StagedItem) (p : State × Answer) (i : Nat × Nat) :
    (State.readItem staged p i).1.savedView = p.1.savedView := by
  unfold State.readItem
  dsimp only
  split <;> simp

@[simp] theorem State.serveRead_savedView (s : State) (rq : Request) (items : List (Nat × Nat)) :
    (State.serveRead s rq items).1.savedView = s.savedView := by
  unfold State.serveRead
  split
  · simp
  · have h : ∀ (l : List (Nat × Nat)) (xs : List StagedItem) (p : State × Answer),
        (l.foldl (State.readItem xs) p).1.savedView = p.1.savedView := fun l xs p => State.savedView_foldl_fst (by
          simp) l p
    simp [h]

@[simp] theorem State.serveReadSegment_savedView (s : State) (rq : Request) (index sub offset length expectSeq : Nat)
    :
    (State.serveReadSegment s rq index sub offset length expectSeq).1.savedView = s.savedView := by
  unfold State.serveReadSegment; dsimp only; (repeat' split) <;> simp [State.fold_savedView, State.savedView_mk]

@[simp] theorem State.stageItem_savedView (s : State) (id : Nat) (w : WriteItem) :
    (State.stageItem s id w).2.savedView = s.savedView := by
  unfold State.stageItem; dsimp only; (repeat' split) <;> simp

@[simp] theorem State.writeItem_savedView (s : State) (w : WriteItem) :
    (State.writeItem s w).2.savedView = s.savedView := by
  unfold State.writeItem; dsimp only; (repeat' split) <;> simp

@[simp] theorem State.serveWrite_savedView (s : State) (rq : Request) (items : List WriteItem) :
    (State.serveWrite s rq items).1.savedView = s.savedView := by
  unfold State.serveWrite
  split
  · exact (State.writeItems_keeps (fun t => t.savedView) _ (by simp) _ _).trans (by simp)
  · split
    · simp
    · exact (State.writeItems_keeps (fun t => t.savedView) _ (by simp) _ _).trans (by simp)

@[simp] theorem State.serveWriteSegment_savedView (s : State) (rq : Request) (index sub : Nat) (first : Bool) (offset
    total : Nat) (data : List Byte) :
    (State.serveWriteSegment s rq index sub first offset total data).1.savedView = s.savedView := by
  unfold State.serveWriteSegment; dsimp only; (repeat' split) <;> simp

@[simp] theorem State.serveBegin_savedView (s : State) (rq : Request) :
    (State.serveBegin s rq).1.savedView = s.savedView := by
  unfold State.serveBegin; dsimp only; (repeat' split) <;> simp [State.fold_savedView, State.savedView_mk]

@[simp] theorem State.serveCommit_savedView (s : State) (rq : Request) (at_ : Nat) :
    (State.serveCommit s rq at_).1.savedView = s.savedView := by
  unfold State.serveCommit; (repeat' split) <;> simp [State.fold_savedView, State.savedView_mk]

@[simp] theorem State.serveRollback_savedView (s : State) (rq : Request) :
    (State.serveRollback s rq).1.savedView = s.savedView := by
  unfold State.serveRollback; (repeat' split) <;> simp

@[simp] theorem State.serveTxStatus_savedView (s : State) (rq : Request) :
    (State.serveTxStatus s rq).1.savedView = s.savedView := by
  unfold State.serveTxStatus; (repeat' split) <;> simp

@[simp] theorem State.serve_savedView (s : State) (rq : Request) (x0 : DapOp) :
    (State.serve s rq x0).1.savedView = s.savedView := by
  (induction x0 generalizing s <;> simp [State.serve, *])

@[simp] theorem State.handle_savedView (s : State) (rq : Request) (op : DapOp) :
    (State.handle s rq op).1.savedView = s.savedView := by
  unfold State.handle; (repeat' split) <;> simp [State.fold_savedView, State.savedView_mk]

@[simp] theorem State.sendField_savedView (s : State) (r : Reply) :
    (State.sendField s r).savedView = s.savedView := by
  unfold State.sendField; simp [State.fold_savedView, State.savedView_mk]

@[simp] theorem State.reply_savedView (s : State) (port : Nat) (session : Session) (reqId : Nat) (message : List Byte)
    :
    (State.reply s port session reqId message).savedView = s.savedView := by
  unfold State.reply; (repeat' split) <;> simp [State.fold_savedView, State.savedView_mk]

@[simp] theorem State.malformed_savedView (s : State) (session : Session) (op reqId txId : Nat) :
    (State.malformed s session op reqId txId).savedView = s.savedView := by
  unfold State.malformed; (repeat' split) <;> simp [State.fold_savedView, State.savedView_mk]

@[simp] theorem State.answerTo_savedView (s : State) (rq : Request) (op : DapOp) :
    (State.answerTo s rq op).savedView = s.savedView := by
  unfold State.answerTo
  dsimp only
  (repeat' split) <;> simp

@[simp] theorem State.sendCached_savedView (s : State) (r : Reply) :
    (State.sendCached s r).savedView = s.savedView := by
  unfold State.sendCached; simp [State.fold_savedView, State.savedView_mk]

@[simp] theorem State.fieldServe_savedView (s : State) (rq : Request) (op : DapOp) :
    (State.fieldServe s rq op).savedView = s.savedView := by
  unfold State.fieldServe; (repeat' split) <;> simp

@[simp] theorem State.fieldRequest_savedView (s : State) (rq : Request) (op : DapOp) :
    (State.fieldRequest s rq op).savedView = s.savedView := by
  unfold State.fieldRequest; (repeat' split) <;> simp [State.fold_savedView, State.savedView_mk]

@[simp] theorem State.request_savedView (s t : State) (k : t.savedView = s.savedView) (rq : Request) (op : DapOp) :
    (outcomeState s (t.request rq op)).savedView = s.savedView := by
  unfold State.request
  split
  · simp [k]
  · rw [outcomeState_onUnit]
    split
    · split
      · simp [k]
      · split <;> simp [k]
    · simp

@[simp] theorem execRead_savedView (cyc : Nat) (rq : Request) (items : List (Nat × Nat)) (s : State) :
    (outcomeState s (execRead cyc rq items s)).savedView = s.savedView := by
  unfold execRead
  exact State.request_savedView s _ (State.stamp_savedView ..) _ _

@[simp] theorem execWrite_savedView (cyc : Nat) (rq : Request) (items : List WriteItem) (s : State) :
    (outcomeState s (execWrite cyc rq items s)).savedView = s.savedView := by
  unfold execWrite
  exact State.request_savedView s _ (State.stamp_savedView ..) _ _

@[simp] theorem execReadSegment_savedView (cyc : Nat) (rq : Request) (index sub offset length expectSeq : Nat) (s :
    State) :
    (outcomeState s (execReadSegment cyc rq index sub offset length expectSeq s)).savedView = s.savedView := by
  unfold execReadSegment
  exact State.request_savedView s _ (State.stamp_savedView ..) _ _

@[simp] theorem execWriteSegment_savedView (cyc : Nat) (rq : Request) (index sub : Nat) (first : Bool) (offset total :
    Nat) (data : List Byte) (s : State) :
    (outcomeState s (execWriteSegment cyc rq index sub first offset total data s)).savedView = s.savedView := by
  unfold execWriteSegment
  exact State.request_savedView s _ (State.stamp_savedView ..) _ _

@[simp] theorem execBegin_savedView (cyc : Nat) (rq : Request) (s : State) :
    (outcomeState s (execBegin cyc rq s)).savedView = s.savedView := by
  unfold execBegin
  exact State.request_savedView s _ (State.stamp_savedView ..) _ _

@[simp] theorem execCommit_savedView (cyc : Nat) (rq : Request) (at_ : Nat) (s : State) :
    (outcomeState s (execCommit cyc rq at_ s)).savedView = s.savedView := by
  unfold execCommit
  exact State.request_savedView s _ (State.stamp_savedView ..) _ _

@[simp] theorem execRollback_savedView (cyc : Nat) (rq : Request) (s : State) :
    (outcomeState s (execRollback cyc rq s)).savedView = s.savedView := by
  unfold execRollback
  exact State.request_savedView s _ (State.stamp_savedView ..) _ _

@[simp] theorem execTxStatus_savedView (cyc : Nat) (rq : Request) (s : State) :
    (outcomeState s (execTxStatus cyc rq s)).savedView = s.savedView := by
  unfold execTxStatus
  exact State.request_savedView s _ (State.stamp_savedView ..) _ _

@[simp] theorem execMulticastReadReply_savedView (cyc : Nat) (s : State) :
    (outcomeState s (execMulticastReadReply cyc s)).savedView = s.savedView := by
  unfold execMulticastReadReply
  dsimp only
  split
  · simp
  · simp only [outcomeState_next]
    split <;> simp [State.fold_savedView, State.savedView_mk]

@[simp] theorem execDapMessageMalformed_savedView (cyc : Nat) (session : Session) (reqId : Nat) (s : State) :
    (outcomeState s (execDapMessageMalformed cyc session reqId s)).savedView = s.savedView := by
  unfold execDapMessageMalformed
  dsimp only
  split
  · simp only [outcomeState_next]
    split
    · split <;> simp [State.fold_savedView, State.savedView_mk]
    · simp
  · rw [outcomeState_onUnit]
    split
    · split <;> simp
    · simp

@[simp] theorem State.pollSlot_savedView (s : State) (n : Nat) : (State.pollSlot s n).savedView = s.savedView := by
  unfold State.pollSlot; dsimp only; (repeat' split) <;> simp

@[simp] theorem execDictSlotPoll_savedView (cyc : Nat) (s : State) :
    (outcomeState s (execDictSlotPoll cyc s)).savedView = s.savedView := by
  unfold execDictSlotPoll
  split <;> simp

@[simp] theorem State.decide__savedView (s : State) (x : Tx) : (State.decide_ s x).savedView = s.savedView := by
  unfold State.decide_
  dsimp only
  (repeat' split) <;> simp [State.fold_savedView, State.savedView_mk]

@[simp] theorem State.txBoundary_savedView (s : State) : (State.txBoundary s).savedView = s.savedView := by
  unfold State.txBoundary
  simp [State.fold_savedView, State.savedView_mk]

@[simp] theorem execTxExpire_savedView (cyc tx : Nat) (s : State) :
    (outcomeState s (execTxExpire cyc tx s)).savedView = s.savedView := by
  unfold execTxExpire
  dsimp only
  split <;> simp

@[simp] theorem execPlcaStatusChange_savedView (cyc : Nat) (status : Bool) (s : State) :
    (outcomeState s (execPlcaStatusChange cyc status s)).savedView = s.savedView := by
  unfold execPlcaStatusChange; (repeat' split) <;> simp [State.fold_savedView, State.savedView_mk]

@[simp] theorem execFieldAddressInUse_savedView (s : State) :
    (outcomeState s (execFieldAddressInUse s)).savedView = s.savedView := by
  unfold execFieldAddressInUse; (repeat' split) <;> simp [State.fold_savedView, State.savedView_mk]

@[simp] theorem execFieldAddressConflict_savedView (cyc : Nat) (s : State) :
    (outcomeState s (execFieldAddressConflict cyc s)).savedView = s.savedView := by
  unfold execFieldAddressConflict; simp [State.fold_savedView, State.savedView_mk]

@[simp] theorem execFieldNeighborSolicitation_savedView (target : Nat) (s : State) :
    (outcomeState s (execFieldNeighborSolicitation target s)).savedView = s.savedView := by
  unfold execFieldNeighborSolicitation; (repeat' split) <;> simp [State.fold_savedView, State.savedView_mk]

@[simp] theorem State.begin_savedView (s : State) (i : Nat) (d : StationDesc) (q : SeqEntry) :
    (State.begin s i d q).savedView = s.savedView := by
  unfold State.begin; simp [State.fold_savedView, State.savedView_mk]

@[simp] theorem State.put_savedView (s : State) (i : Nat) (d : StationDesc) (p : Nat) (xs : List Flit) :
    (State.put s i d p xs).savedView = s.savedView := by
  unfold State.put; simp [State.fold_savedView, State.savedView_mk]

@[simp] theorem State.sramError_savedView (s : State) (d : StationDesc) (e : EccEvent) :
    (State.sramError s d e).savedView = s.savedView := by
  unfold State.sramError; (repeat' split) <;> simp [State.fold_savedView, State.savedView_mk]

@[simp] theorem State.fireErrors_savedView (s : State) (d : StationDesc) (env : FireEnv) :
    (State.fireErrors s d env).savedView = s.savedView := by
  unfold State.fireErrors; dsimp only
  rw [State.keeps_foldl (f := fun (t : State) (e : Nat × EccEvent) => t.sramError d e.2) State.savedView
    (fun t a => State.sramError_savedView t d a.2)]
  (repeat' split) <;> simp [State.fold_savedView, State.savedView_mk]

@[simp] theorem State.sendCopies_savedView (s : State) (i : Nat) (d : StationDesc) :
    (State.sendCopies s i d).savedView = s.savedView := by
  unfold State.sendCopies; (repeat' split) <;> simp [State.fold_savedView, State.savedView_mk]

@[simp] theorem State.reportToken_savedView (s : State) (i : Nat) (x : Flit) :
    (State.reportToken s i x).savedView = s.savedView := by
  unfold State.reportToken; simp [State.fold_savedView, State.savedView_mk]

@[simp] theorem State.takeStatus_savedView (s : State) (i : Nat) (d : StationDesc) (p : Nat) (outs : List Nat) :
    (State.takeStatus s i d p outs).savedView = s.savedView := by
  unfold State.takeStatus; (repeat' split) <;> simp [State.fold_savedView, State.savedView_mk]

@[simp] theorem State.shadowHeld_savedView (s : State) : (State.shadowHeld s).savedView = s.savedView := by
  unfold State.shadowHeld; simp [State.fold_savedView, State.savedView_mk]

@[simp] theorem State.fireMatmul_savedView (s : State) (i : Nat) (d : StationDesc) (op : MatmulOp) (e : Nat) (q :
    SeqEntry) (env : FireEnv) :
    (State.fireMatmul s i d op e q env).savedView = s.savedView := by
  unfold State.fireMatmul; dsimp only; (repeat' split) <;> simp [State.fold_savedView, State.savedView_mk]

@[simp] theorem State.loadHeld_savedView (s : State) (i : Nat) (d : StationDesc) (op : MatmulOp) (q : SeqEntry) :
    (State.loadHeld s i d op q).savedView = s.savedView := by
  unfold State.loadHeld; dsimp only; (repeat' split) <;> simp

@[simp] theorem State.matmulCycle_savedView (s : State) (i : Nat) (d : StationDesc) (op : MatmulOp) (env : FireEnv) :
    (State.matmulCycle s i d op env).savedView = s.savedView := by
  unfold State.matmulCycle; dsimp only; (repeat' split) <;> simp [State.fold_savedView, State.savedView_mk]

@[simp] theorem State.fireChain_savedView (s : State) (i : Nat) (d : StationDesc) (m : Image) (q : SeqEntry) (env :
    FireEnv) :
    (State.fireChain s i d m q env).savedView = s.savedView := by
  unfold State.fireChain; dsimp only; (repeat' split) <;> simp [State.fold_savedView, State.savedView_mk]

@[simp] theorem State.sramWrite_savedView (s : State) (i : Nat) (d : StationDesc) (g : AddrGen) (x : Flit) :
    (State.sramWrite s i d g x).savedView = s.savedView := by
  unfold State.sramWrite; simp [State.fold_savedView, State.savedView_mk]

@[simp] theorem State.fireStore_savedView (s : State) (i : Nat) (d : StationDesc) (readGen writeGen : AddrGen) (q :
    SeqEntry) (env : FireEnv) :
    (State.fireStore s i d readGen writeGen q env).savedView = s.savedView := by
  unfold State.fireStore
  simp

@[simp] theorem State.claimBanks_savedView (s : State) (i : Nat) (d : StationDesc) (m : Image) :
    (State.claimBanks s i d m).savedView = s.savedView := by
  unfold State.claimBanks; simp [State.fold_savedView, State.savedView_mk]

@[simp] theorem State.bankStall_savedView (s : State) (n : Nat) : (State.bankStall s n).savedView = s.savedView := by
  unfold State.bankStall; simp [State.fold_savedView, State.savedView_mk]

@[simp] theorem State.fireSpill_savedView (s : State) (i : Nat) (d : StationDesc) (base depth : Nat) (q : SeqEntry)
    (env : FireEnv) :
    (State.fireSpill s i d base depth q env).savedView = s.savedView := by
  unfold State.fireSpill; dsimp only; (repeat' split) <;> simp [State.fold_savedView, State.savedView_mk]

@[simp] theorem State.moveFlit_savedView (s : State) (i : Nat) (d : StationDesc) (p : Nat) (outs : List Nat) (bad :
    Bool) (env : FireEnv) (g : StationRun → StationRun) :
    (State.moveFlit s i d p outs bad env g).savedView = s.savedView := by
  unfold State.moveFlit; (repeat' split) <;> simp [State.fold_savedView, State.savedView_mk]

@[simp] theorem State.fireFork_savedView (s : State) (i : Nat) (d : StationDesc) (outs : Nat) (env : FireEnv) :
    (State.fireFork s i d outs env).savedView = s.savedView := by
  unfold State.fireFork; (repeat' split) <;> simp

@[simp] theorem State.fireSteered_savedView (s : State) (i : Nat) (d : StationDesc) (limit outs : Nat) (discards :
    Bool) (input : Nat → Nat) (output : Nat → List Nat) (env : FireEnv) :
    (State.fireSteered s i d limit outs discards input output env).savedView = s.savedView := by
  unfold State.fireSteered; dsimp only; (repeat' split) <;> simp [State.fold_savedView, State.savedView_mk]

@[simp] theorem State.fireMerge_savedView (s : State) (i : Nat) (d : StationDesc) (ins : Nat) (rot : List Nat) (env :
    FireEnv) :
    (State.fireMerge s i d ins rot env).savedView = s.savedView := by
  unfold State.fireMerge; dsimp only; (repeat' split) <;> simp

@[simp] theorem State.fireWelt_savedView (s : State) (i : Nat) (d : StationDesc) (operation ins outs : Nat) (rot :
    List Nat) (env : FireEnv) :
    (State.fireWelt s i d operation ins outs rot env).savedView = s.savedView := by
  unfold State.fireWelt; (repeat' split) <;> simp

@[simp] theorem State.fireSyncInput_savedView (i : Nat) (d : StationDesc) (o : SyncOp) (env : FireEnv) (s : State) (p
    : Nat) :
    (State.fireSyncInput i d o env s p).savedView = s.savedView := by
  unfold State.fireSyncInput; dsimp only; (repeat' split) <;> simp [State.fold_savedView, State.savedView_mk]

@[simp] theorem State.fireSync_savedView (s : State) (i : Nat) (d : StationDesc) (env : FireEnv) :
    (State.fireSync s i d env).savedView = s.savedView := by
  unfold State.fireSync; (repeat' split) <;> simp

@[simp] theorem State.laceReqs_savedView (i : Nat) (bad : Bool) (base total seq per x0 x1 x2 : Nat) (s : State) :
    (State.laceReqs i bad base total seq per x0 x1 x2 s).savedView = s.savedView := by
  induction x0 generalizing s x1 x2 with
  | zero => rfl
  | succ f ih =>
    unfold State.laceReqs
    split
    · rfl
    · dsimp only; rw [ih]; simp [State.fold_savedView, State.savedView_mk]

@[simp] theorem State.fireRead_savedView (s : State) (i : Nat) (d : StationDesc) (p : PortOp) (q : SeqEntry) (env :
    FireEnv) :
    (State.fireRead s i d p q env).savedView = s.savedView := by
  unfold State.fireRead; (repeat' split) <;> simp [State.fold_savedView, State.savedView_mk]

@[simp] theorem State.notePoison_savedView (s : State) (gs : List Nat) :
    (State.notePoison s gs).savedView = s.savedView := by
  unfold State.notePoison; simp [State.fold_savedView, State.savedView_mk]

@[simp] theorem State.stationWrites_savedView (s : State) (i : Nat) (ws : List HostAccess) :
    (State.stationWrites s i ws).savedView = s.savedView := by
  unfold State.stationWrites; simp

@[simp] theorem State.outputRow_savedView (s : State) (i : Nat) (d : StationDesc) (row : Nat) (tensor : Option (List
    Byte)) (token : Nat) :
    (State.outputRow s i d row tensor token).savedView = s.savedView := by
  unfold State.outputRow; (repeat' split) <;> simp

@[simp] theorem State.outputFlit_savedView (s : State) (i : Nat) (d : StationDesc) (p : PortOp) (x : Flit) :
    (State.outputFlit s i d p x).savedView = s.savedView := by
  unfold State.outputFlit; simp

@[simp] theorem State.windowFlit_savedView (s : State) (i : Nat) (d : StationDesc) (p : PortOp) (x : Flit) :
    (State.windowFlit s i d p x).savedView = s.savedView := by
  unfold State.windowFlit; dsimp only; (repeat' split) <;> simp

@[simp] theorem State.laceFlit_savedView (s : State) (i : Nat) (p : PortOp) (x : Flit) :
    (State.laceFlit s i p x).savedView = s.savedView := by
  unfold State.laceFlit; simp

@[simp] theorem State.writeFlit_savedView (s : State) (i : Nat) (d : StationDesc) (p : PortOp) (x : Flit) :
    (State.writeFlit s i d p x).savedView = s.savedView := by
  unfold State.writeFlit; dsimp only; (repeat' split) <;> simp

@[simp] theorem State.endOfPass_savedView (s : State) (i : Nat) (p : PortOp) :
    (State.endOfPass s i p).savedView = s.savedView := by
  unfold State.endOfPass; simp

@[simp] theorem State.controls_savedView (s : State) (i : Nat) (p : PortOp) (xs : List Flit) :
    (State.controls s i p xs).savedView = s.savedView := by
  unfold State.controls; (repeat' split) <;> simp

@[simp] theorem State.fireDispatch_savedView (s : State) (i : Nat) (d : StationDesc) (p : PortOp) (q : SeqEntry) (env
    : FireEnv) :
    (State.fireDispatch s i d p q env).savedView = s.savedView := by
  unfold State.fireDispatch; simp

@[simp] theorem State.fireWrite_savedView (s : State) (i : Nat) (d : StationDesc) (p : PortOp) (q : SeqEntry) (env :
    FireEnv) :
    (State.fireWrite s i d p q env).savedView = s.savedView := by
  unfold State.fireWrite; dsimp only; simp

@[simp] theorem State.firePort_savedView (s : State) (i : Nat) (d : StationDesc) (p : PortOp) (q : SeqEntry) (env :
    FireEnv) :
    (State.firePort s i d p q env).savedView = s.savedView := by
  unfold State.firePort; (repeat' split) <;> simp

@[simp] theorem State.fireEntry_savedView (s : State) (i : Nat) (d : StationDesc) (m : Image) (env : FireEnv) :
    (State.fireEntry s i d m env).savedView = s.savedView := by
  unfold State.fireEntry; (repeat' split) <;> dsimp only <;> (repeat' split) <;>
    simp

@[simp] theorem State.examine_savedView (s : State) (i : Nat) (d : StationDesc) (m : Image) (env : FireEnv) :
    (State.examine s i d m env).savedView = s.savedView := by
  unfold State.examine; (repeat' split) <;> dsimp only <;> (repeat' split) <;>
    simp

@[simp] theorem execStationFire_savedView (cyc station : Nat) (env : FireEnv) (s : State) :
    (outcomeState s (execStationFire cyc station env s)).savedView = s.savedView := by
  unfold execStationFire; (repeat' split) <;> simp

@[simp] theorem State.clockBoundary_savedView (s : State) : (State.clockBoundary s).savedView = s.savedView := by
  unfold State.clockBoundary; simp [State.fold_savedView, State.savedView_mk]

@[simp] theorem State.histBoundary_savedView (s : State) : (State.histBoundary s).savedView = s.savedView := by
  unfold State.histBoundary; simp [State.fold_savedView, State.savedView_mk]

@[simp] theorem State.readSensors_savedView (s : State) (env : BoundaryEnv) :
    (State.readSensors s env).savedView = s.savedView := by
  unfold State.readSensors; simp [State.fold_savedView, State.savedView_mk]

@[simp] theorem State.capBoundary_savedView (s : State) (env : BoundaryEnv) (frame : Bool) :
    (State.capBoundary s env frame).savedView = s.savedView := by
  unfold State.capBoundary; simp [State.fold_savedView, State.savedView_mk]

@[simp] theorem State.readComp_savedView (s : State) (e : Nat × Nat) :
    (State.readComp s e).savedView = s.savedView := by
  unfold State.readComp; (repeat' split) <;> simp [State.fold_savedView, State.savedView_mk]

@[simp] theorem State.readOutput_savedView (s : State) (e : Nat × Nat) :
    (State.readOutput s e).savedView = s.savedView := by
  unfold State.readOutput; (repeat' split) <;> simp

@[simp] theorem State.readEvent_savedView (s : State) (consumer : Nat) :
    (State.readEvent s consumer).savedView = s.savedView := by
  unfold State.readEvent; (repeat' split) <;> simp [State.fold_savedView, State.savedView_mk]

@[simp] theorem State.readConsumers_savedView (s : State) (env : BoundaryEnv) :
    (State.readConsumers s env).savedView = s.savedView := by
  unfold State.readConsumers; simp

@[simp] theorem State.frameObjects_savedView (s : State) : (State.frameObjects s).savedView = s.savedView := by
  unfold State.frameObjects; simp [State.fold_savedView, State.savedView_mk]

@[simp] theorem State.admissionBoundary_savedView (s : State) :
    (State.admissionBoundary s).savedView = s.savedView := by
  unfold State.admissionBoundary; dsimp only; (repeat' split) <;> simp [State.fold_savedView, State.savedView_mk]

@[simp] theorem State.planBoundary_savedView (s : State) (env : BoundaryEnv) (frame : Bool) :
    (State.planBoundary s env frame).savedView = s.savedView := by
  unfold State.planBoundary; simp [State.fold_savedView, State.savedView_mk]

@[simp] theorem State.parkBoundary_savedView (s : State) : (State.parkBoundary s).savedView = s.savedView := by
  unfold State.parkBoundary
  dsimp only
  rw [State.savedView_foldl, State.savedView_foldl]
  · intro t a
    (repeat' split) <;> simp
  · intro t a
    (repeat' split) <;> simp

@[simp] theorem State.intakeRead_savedView (s : State) (producer : Option Nat) :
    (State.intakeRead s producer).savedView = s.savedView := by
  unfold State.intakeRead; (repeat' split) <;> simp

@[simp] theorem State.intakeProbe_savedView (s : State) (producer : Option Nat) :
    (State.intakeProbe s producer).savedView = s.savedView := by
  unfold State.intakeProbe; simp

@[simp] theorem State.reportBoundary_savedView (s : State) : (State.reportBoundary s).savedView = s.savedView := by
  unfold State.reportBoundary; simp [State.fold_savedView, State.savedView_mk]

@[simp] theorem execHbmReadComplete_savedView (cyc read : Nat) (errors : List (Nat × Byte)) (s : State) :
    (outcomeState s (execHbmReadComplete cyc read errors s)).savedView = s.savedView := by
  unfold execHbmReadComplete; (repeat' split) <;> simp [State.fold_savedView, State.savedView_mk]

@[simp] theorem execHbmWriteAccepted_savedView (cyc write : Nat) (errors : List (Nat × Byte)) (s : State) :
    (outcomeState s (execHbmWriteAccepted cyc write errors s)).savedView = s.savedView := by
  unfold execHbmWriteAccepted; (repeat' split) <;> simp [State.fold_savedView, State.savedView_mk]

@[simp] theorem execPatrolScrubRead_savedView (cyc stack sector : Nat) (errors : List (Nat × Byte)) (last : Bool) (s :
    State) :
    (outcomeState s (execPatrolScrubRead cyc stack sector errors last s)).savedView = s.savedView := by
  unfold execPatrolScrubRead; simp; (repeat' split) <;> simp [State.fold_savedView, State.savedView_mk]

@[simp] theorem State.readPart_savedView (s : State) (b : Bool) (mpa : Nat) :
    (State.readPart (b, s) mpa).2.savedView = s.savedView := by
  simp [State.readPart]

@[simp] theorem State.pageRead_savedView (s : State) (frame : Nat) :
    (State.pageRead s frame).2.savedView = s.savedView := by
  exact State.keeps_foldl_snd (·.savedView) (fun p a => by simp [State.readPart]) _ _

@[simp] theorem State.pageWrite_savedView (s : State) (frame : Nat) (data : List Byte) :
    (State.pageWrite s frame data).savedView = s.savedView := by
  unfold State.pageWrite; simp

@[simp] theorem State.degradePin_savedView (s : State) (stack pc pin eye : Nat) :
    (State.degradePin s stack pc pin eye).savedView = s.savedView := by
  unfold State.degradePin; simp

@[simp] theorem execEyeAdjust_savedView (cyc stack pseudoChannel pin : Nat) (reading : EyeReading) (s : State) :
    (outcomeState s (execEyeAdjust cyc stack pseudoChannel pin reading s)).savedView = s.savedView := by
  unfold execEyeAdjust; (repeat' split) <;> simp

@[simp] theorem execStackInitComplete_savedView (stack : Nat) (s : State) :
    (outcomeState s (execStackInitComplete stack s)).savedView = s.savedView := by
  unfold execStackInitComplete; simp

@[simp] theorem State.parkFailed_savedView (s : State) (n page row : Nat) :
    (State.parkFailed s n page row).savedView = s.savedView := by
  unfold State.parkFailed; simp [State.fold_savedView, State.savedView_mk]

@[simp] theorem State.endPark_savedView (s : State) (n : Nat) : (State.endPark s n).savedView = s.savedView := by
  unfold State.endPark; (repeat' split) <;> simp [State.fold_savedView, State.savedView_mk]

@[simp] theorem State.pageOut_savedView (s : State) (n copied : Nat) :
    (State.pageOut s n copied).savedView = s.savedView := by
  unfold State.pageOut; dsimp only; (repeat' split) <;> simp [State.fold_savedView, State.savedView_mk]

@[simp] theorem State.pageIn_savedView (s : State) (stream page : Nat) (clean : Bool) :
    (State.pageIn s stream page clean).savedView = s.savedView := by
  unfold State.pageIn; simp [State.fold_savedView, State.savedView_mk]

@[simp] theorem State.parkBack_savedView (s : State) (stream page row : Nat) :
    (State.parkBack s stream page row).savedView = s.savedView := by
  unfold State.parkBack; simp [State.fold_savedView, State.savedView_mk]

@[simp] theorem State.moveOutEnds_savedView (s : State) (stream page : Nat) (clean : Bool) (outcome : MoveOutcome) :
    (State.moveOutEnds s stream page clean outcome).savedView = s.savedView := by
  cases outcome <;> simp [State.moveOutEnds]

@[simp] theorem execPageParked_savedView (cyc stream page : Nat) (outcome : MoveOutcome) (s : State) :
    (outcomeState s (execPageParked cyc stream page outcome s)).savedView = s.savedView := by
  unfold execPageParked
  split
  · simp
  · split
    · simp
    · simp only [outcomeState_next, State.moveOutEnds_savedView]
      split <;> simp

@[simp] theorem execUnparkPageStart_savedView (cyc stream page : Nat) (s : State) :
    (outcomeState s (execUnparkPageStart cyc stream page s)).savedView = s.savedView := by
  unfold execUnparkPageStart
  split
  · dsimp only
    split
    · rfl
    · rfl
  · rfl

@[simp] theorem State.unparkDone_savedView (s : State) (n : Nat) :
    (State.unparkDone s n).savedView = s.savedView := by
  unfold State.unparkDone; (repeat' split) <;> simp [State.fold_savedView, State.savedView_mk]

@[simp] theorem State.pageBack_savedView (s : State) (stream page : Nat) :
    (State.pageBack s stream page).savedView = s.savedView := by
  unfold State.pageBack; simp [State.fold_savedView, State.savedView_mk]

@[simp] theorem State.moveInEnds_savedView (s : State) (stream page : Nat) (outcome : MoveOutcome) :
    (State.moveInEnds s stream page outcome).savedView = s.savedView := by
  cases outcome <;> simp [State.moveInEnds, State.fold_savedView, State.savedView_mk]

@[simp] theorem execPageUnparked_savedView (cyc stream page : Nat) (outcome : PageCopy) (s : State) :
    (outcomeState s (execPageUnparked cyc stream page outcome s)).savedView = s.savedView := by
  unfold execPageUnparked; dsimp only; (repeat' split) <;> simp

end Sys2Proof.Machine
end

section
/-! PROOFS. Memory stays in canonical form (log entry 10): what saves, restores and discards a context, and the step. -/

namespace Sys2Proof.Machine

/-! ### Contexts that are saved, restored and discarded -/

/-- The SRAM of a saved context, where there is one, in canonical form. -/
def SavedView.Clean (v : SavedView) : Prop := ∀ m, v.sram = some m → Memory.canonical m = true

theorem State.saved_iff {s : State} :
    s.savedView.Clean ↔ ∀ c, s.syn.context = some c → Memory.canonical c.sram = true := by
  simp [SavedView.Clean, State.savedView]

theorem State.saved_of_none {s : State} (none : s.syn.context = none) : s.savedView.Clean :=
  State.saved_iff.2 fun c held => by rw [none] at held; cases held

@[simp] theorem State.savedClean_ite (c : Prop) [Decidable c] (s t : State) :
    (if c then s.savedView else t.savedView).Clean ↔ if c then s.savedView.Clean else t.savedView.Clean := by
  split <;> rfl

@[simp] theorem State.discardContext_saved (s : State) (f : State → Nat → State)
    (keeps : ∀ t n, (f t n).savedView = t.savedView) (saved : s.savedView.Clean) :
    (s.discardContext f).savedView.Clean := by
  unfold State.discardContext
  split
  · exact saved
  · dsimp only
    rw [keeps]
    exact State.saved_of_none rfl

theorem State.discardIf_saved (s : State) (c : Bool) (f : State → Nat → State)
    (keeps : ∀ t n, (f t n).savedView = t.savedView) (saved : s.savedView.Clean) :
    (if c then s.discardContext f else s).savedView.Clean := by
  split
  · exact State.discardContext_saved s f keeps saved
  · exact saved

/-! ### Resets -/

theorem State.cleared_saved (s : State) (cause uptime : Nat) (debug : DebugState) :
    (s.cleared cause uptime debug).savedView.Clean := State.saved_of_none rfl

theorem State.powerOnReset_saved (s : State) (cause : Nat) : (s.powerOnReset cause).savedView.Clean :=
  State.cleared_saved s cause 0 _

theorem State.moduleReset_saved (s : State) (cause : Nat) : (s.moduleReset cause).savedView.Clean := by
  obtain ⟨debug, pwr, srv, -, reset⟩ := s.moduleReset_eq cause
  rw [reset]
  exact State.saved_of_none rfl

theorem State.resetOn_saved (s : State) (saved : s.savedView.Clean) : s.resetOn.savedView.Clean := by
  unfold State.resetOn
  split
  · split
    · exact saved
    · exact s.moduleReset_saved _
  · exact saved

/-! ### What discards a context -/

theorem State.commitPoint_saved (s : State) (saved : s.savedView.Clean) : s.commitPoint.savedView.Clean := by
  unfold State.commitPoint
  dsimp only
  generalize left : State.discardContext _ State.dropStep = t
  have gone : t.savedView.Clean := by
    rw [← left]
    exact State.discardContext_saved _ _ (by simp) saved
  clear left
  split <;> simp [State.fold_savedView, State.savedView_mk, gone]

theorem State.startSwitch_saved (s : State) (e : PlanEntry) (saved : s.savedView.Clean) :
    (s.startSwitch e).savedView.Clean := by
  unfold State.startSwitch
  (repeat' split) <;> simp [State.fold_savedView, State.savedView_mk, saved, State.commitPoint_saved]

theorem execPlanEntryStart_saved (cyc : Nat) (s : State) (saved : s.savedView.Clean) :
    (outcomeState s (execPlanEntryStart cyc s)).savedView.Clean := by
  unfold execPlanEntryStart
  dsimp only
  (repeat' split) <;> simp [saved, State.startSwitch_saved]

theorem State.maskChanged_saved (s : State) (saved : s.savedView.Clean) : s.maskChanged.savedView.Clean := by
  unfold State.maskChanged
  dsimp only
  generalize left : State.discardContext _ _ = t
  have gone : t.savedView.Clean := by
    rw [← left]
    exact State.discardContext_saved _ _ (by simp) (by simpa [State.fold_savedView, State.savedView_mk] using saved)
  simp [State.fold_savedView, State.savedView_mk, gone]

theorem State.applyFences_saved (s : State) (saved : s.savedView.Clean) : s.applyFences.savedView.Clean := by
  unfold State.applyFences
  dsimp only
  split
  · exact saved
  · simp [saved, State.maskChanged_saved]

theorem State.joinQuads_saved (s : State) (saved : s.savedView.Clean) : s.joinQuads.savedView.Clean := by
  unfold State.joinQuads
  dsimp only
  split
  · exact saved
  · refine State.maskChanged_saved _ ?_
    simp [State.fold_savedView, State.savedView_mk, saved]

theorem State.bootBoundary_saved (s : State) (saved : s.savedView.Clean) : s.bootBoundary.savedView.Clean := by
  unfold State.bootBoundary
  simp [State.fold_savedView, State.savedView_mk, saved, State.joinQuads_saved]

theorem State.resetGroup_saved (s : State) (g source : Nat) (saved : s.savedView.Clean) :
    (s.resetGroup g source).savedView.Clean := by
  unfold State.resetGroup
  dsimp only
  rw [State.raiseFor_savedView, State.record_savedView]
  exact State.discardIf_saved _ _ _ (by simp) (by simpa using saved)

theorem State.resetGroups_saved (s : State) (saved : s.savedView.Clean) : s.resetGroups.savedView.Clean := by
  unfold State.resetGroups
  generalize s.ras.resetGroups = groups
  generalize start : { s with ras := { s.ras with resetGroups := [] } } = t
  have held : t.savedView.Clean := by rw [← start]; exact saved
  clear start
  induction groups generalizing t with
  | nil => exact held
  | cons e es ih => exact ih _ (t.resetGroup_saved e.1 e.2 held)

theorem State.lostContext_saved (s : State) (saved : s.savedView.Clean) : s.lostContext.savedView.Clean := by
  unfold State.lostContext
  split <;> simp [saved]

theorem State.storeBoundary_saved (s : State) (saved : s.savedView.Clean) : s.storeBoundary.savedView.Clean := by
  unfold State.storeBoundary
  dsimp only
  rw [State.loadAhead_savedView]
  split
  · refine State.discardContext_saved _ _ (by simp) ?_
    simpa [State.fold_savedView, State.savedView_mk] using saved
  · simpa [State.fold_savedView, State.savedView_mk] using saved

theorem State.drainSlot_saved (s : State) (saved : s.savedView.Clean) : s.drainSlot.savedView.Clean := by
  unfold State.drainSlot
  simp [saved]

theorem State.earlyBoundary_saved (s : State) (env : BoundaryEnv) (frame : Bool) (saved : s.savedView.Clean) :
    (s.earlyBoundary env frame).savedView.Clean := by
  unfold State.earlyBoundary
  refine State.resetOn_saved _ (State.drainSlot_saved _ ?_)
  rw [State.applyIdentity_savedView]
  refine State.bootBoundary_saved _ ?_
  simp [saved]

theorem State.lateBoundary_saved (s : State) (env : BoundaryEnv) (frame : Bool) (saved : s.savedView.Clean) :
    (s.lateBoundary env frame).savedView.Clean := by
  have group := State.resetGroups_saved _ (s.applyFences_saved saved)
  have lost := State.lostContext_saved _ group
  have store (frame : Bool) := State.storeBoundary_saved (s.applyFences.resetGroups.lostContext.laceBoundary frame)
    (by simpa using lost)
  unfold State.lateBoundary
  simp [State.fold_savedView, State.savedView_mk, store]

theorem execSlotBoundary_saved (env : BoundaryEnv) (s : State) (saved : s.savedView.Clean) :
    (outcomeState s (execSlotBoundary env s)).savedView.Clean := by
  have early (frame : Bool) := s.earlyBoundary_saved env frame saved
  unfold execSlotBoundary
  dsimp only
  split
  · exact saved
  · rw [outcomeState_next]
    split
    · exact early _
    · exact State.lateBoundary_saved _ env _ (early _)

/-! ### The commands -/

theorem execModuleRstLRelease_saved (s : State) (saved : s.savedView.Clean) :
    (outcomeState s (execModuleRstLRelease s)).savedView.Clean :=
  State.resetOn_saved { s with boot := { s.boot with resetHeld := false } } saved

theorem execPowerFailRestart_saved (vinGood : Bool) (s : State) (saved : s.savedView.Clean) :
    (outcomeState s (execPowerFailRestart vinGood s)).savedView.Clean := by
  unfold execPowerFailRestart
  split
  · exact s.powerOnReset_saved 2
  · exact saved

theorem execEjectRestart_saved (s : State) (saved : s.savedView.Clean) :
    (outcomeState s (execEjectRestart s)).savedView.Clean := by
  unfold execEjectRestart
  split
  · exact s.powerOnReset_saved 3
  · exact saved

/-- What is saved is the SRAM of the tiles. -/
theorem execContextSaved_saved (cyc saveCycles : Nat) (s : State) (clean : s.kept.Clean) (saved : s.savedView.Clean) :
    (outcomeState s (execContextSaved cyc saveCycles s)).savedView.Clean := by
  unfold execContextSaved
  split
  · exact saved
  · split
    · exact saved
    · have sram : Memory.canonical s.mem.sram = true := clean.sram
      simpa [State.savedView_mk, SavedView.Clean] using sram

theorem execContextRestored_saved (cyc : Nat) (s : State) (saved : s.savedView.Clean) :
    (outcomeState s (execContextRestored cyc s)).savedView.Clean := by
  unfold execContextRestored
  split
  · exact saved
  · split
    · exact saved
    · simp [State.savedView_mk, SavedView.Clean]

/-- Every command keeps the SRAM of a saved context in canonical form; few touch the context at all. -/
theorem exec_saved (c : Instr) (s : State) (clean : s.kept.Clean) (saved : s.savedView.Clean) :
    (outcomeState s (exec c s)).savedView.Clean := by
  cases c with
  | planEntryStart cyc => exact execPlanEntryStart_saved cyc s saved
  | slotBoundary env => exact execSlotBoundary_saved env s saved
  | contextSaved cyc saveCycles => exact execContextSaved_saved cyc saveCycles s clean saved
  | contextRestored cyc => exact execContextRestored_saved cyc s saved
  | powerOn => exact s.powerOnReset_saved 1
  | powerFailRestart vinGood => exact execPowerFailRestart_saved vinGood s saved
  | ejectRestart => exact execEjectRestart_saved s saved
  | moduleRstLRelease => exact execModuleRstLRelease_saved s saved
  | _ => unfold exec; simpa using saved

/-- Settles O52: a step by `exec_clean` and `exec_saved`. -/
theorem memoryStaysCanonical : Obligations.MemoryStaysCanonical := by
  unfold Obligations.MemoryStaysCanonical
  intro s t run legal
  refine step_keeps (P := State.memoryLegal) (fun s q h => h) (fun c s t run held => ?_) run legal
  obtain ⟨memory, context⟩ := held
  obtain ⟨sram, hbm⟩ := Bool.and_eq_true_iff.1 memory
  have clean := exec_clean c s ⟨sram, hbm⟩ context
  have saved := exec_saved c s ⟨sram, hbm⟩ (State.saved_iff.2 context)
  rw [run] at clean saved
  exact ⟨Bool.and_eq_true_iff.2 ⟨clean.sram, clean.hbm⟩, State.saved_iff.1 saved⟩

end Sys2Proof.Machine
end
